-- ==== Sys2Proof/Word.lean ====
section
/-! DEFINITION. The word types of the module and the plain data types that commands and state are made of. -/

namespace Sys2Proof

/-- A register word (R13). -/
abbrev Word := BitVec 32

/-- A byte. -/
abbrev Byte := BitVec 8

/-- The user data of one sector, 4,096 bytes, byte k in bits [8k + 7:8k]. -/
abbrev Sector := BitVec 32768

/-- A sparse table: (key, value) pairs, keys rising. -/
abbrev SMap (α : Type) := List (Nat × α)

/-- One of the two Lantern halves, and the port that belongs to it (R16, R27). -/
inductive Half where
  | a
  | b
  deriving DecidableEq, Repr, Inhabited

/-- Half A is 0, half B is 1. -/
def Half.toNat : Half → Nat
  | .a => 0
  | .b => 1

/-- The other half. -/
def Half.other : Half → Half
  | .a => .b
  | .b => .a

/-- The blocks that have a window in the register space (R71, R72). -/
inductive Blk where
  | hif | bca | chm | pwr | clk | sdm | wlp | cri | cnt | mbx | buf | grz | mot | spn | srv | wck | fmt | rch
  | mnt | lmp | evt | evr
  deriving DecidableEq, Repr

/-- Who makes a register access: the port of a half, the control firmware of a half (R67, R394, R444), or Mantle's firmware,
which addresses the registers as the half named sees them (R14). -/
inductive Accessor where
  | port (h : Half)
  | firmware (h : Half)
  | mantle (h : Half)
  deriving DecidableEq, Repr

/-- What a preamplifier returned to a frame: for a write frame whether ACK was low, for a read frame its data and the
CRC it sent (R77). -/
inductive PaResp where
  | ack (low : Bool)
  | data (value : BitVec 16) (crc : Byte)
  deriving DecidableEq, Repr

/-- The two shock sensor axes and more that a sample carries: accelerations of both sensors across the carrier's width,
in units of 0.001 g, signed (R45, R199). -/
structure ShockSample where
  ayA : Int
  ayB : Int
  deriving DecidableEq, Repr

/-- What demodulation found for one slot of the pass in a wedge (R184 to R187): whether a SAM was found, its distance from
the prediction in cells, the 16 bits of the wedge index field, the 24 Gray-coded bits of the track ID, what the null bursts N1
and N2 gave, and the RRO field. -/
structure DemodSample where
  found : Bool
  samCell : Int
  index : BitVec 16
  tid : BitVec 24
  n1 : Int
  n2 : Int
  rro : Int
  deriving DecidableEq, Repr, Inhabited

/-- What the motor die gave for one commutation step (R218): when the outgoing phase's demagnetisation current ended, in ns after the
start of the step; the crossing of the floating phase if there was one, in 50 ns after the start of the step, and whether it rose; and
for a rotor that the engine does not commutate the speed of its back-EMF in 1/64 rpm. The bridge's temperature in °C comes with it
(R253). -/
structure StepObs where
  demagNs : Nat
  crossing : Option (Nat × Bool)
  emf : Nat
  temp : Nat
  deriving DecidableEq, Repr, Inhabited

/-- A Wick operation descriptor (R171). -/
structure Desc where
  kind : Nat
  band : Nat
  zone : Nat
  group : Nat
  mask : Nat
  first : Nat
  count : Nat
  kout : Nat
  nw : Nat
  pass : Nat
  optag : Nat
  deriving DecidableEq, Repr, Inhabited

/-- A microword of Wick without its COND (R168): register numbers 0 to 7, targets of 15 bits, immediates of 21 bits,
positions of 17 bits, and so on as the operand layouts give. `illegal` carries a reserved OPCODE and its OPERAND. -/
inductive Micro where
  | nop
  | jmp (target : Nat)
  | call (target : Nat)
  | ret
  | loop (xd target : Nat)
  | ldi (xd imm : Nat)
  | addi (xd imm : Nat)
  | alu (xd xs fn : Nat)
  | ldop (xd fld : Nat)
  | loc (xs : Nat)
  | wwed (xs : Nat)
  | wsym (base : Bool) (pos : Nat)
  | edge (base wg : Bool) (rg pos : Nat)
  | sect (last write : Bool) (xs : Nat)
  | wch
  | recov (xs : Nat)
  | frm (frame : Nat)
  | frmx (rw : Bool) (addr xs : Nat)
  | seek (xs kind : Nat)
  | wcond (timeout : Nat)
  | post (status : Nat)
  | evt (code : Nat)
  | illegal (op operand : Nat)
  | halt
  deriving DecidableEq, Repr

/-- A place in the rotation: servo wedge index and symbol within the wedge (R172). -/
structure Place where
  wedge : Nat
  sym : Nat
  deriving DecidableEq, Repr, Inhabited

/-- What the gate unit of a Wick comes to (R172): the position of the next queued edge, the end of the frame announced with LAST,
position 0 of a wedge of a given index, and the end of the keep-out. -/
inductive GateEvent where
  | edge
  | last
  | keepOut (wedge : Nat)
  | keepIn
  deriving DecidableEq, Repr, Inhabited

/-- The requester classes of the Reservoir (R267), with the merge flush (R287). -/
inductive BufCls where
  | host
  | media
  | table
  | sdm
  | scrub
  | copy
  | merge
  deriving DecidableEq, Repr, Inhabited

/-- What a half reads from the SPD hub of a socket (R29, R254): capacity in GiB, ranks 1 or 2, whether devices are ×8,
device density in Gbit, highest data rate as BUF_CHSTAT.RATE codes it, and whether it is of a supported type. -/
structure DimmInfo where
  cap : Nat
  ranks : Nat
  x8 : Bool
  density : Nat
  rate : Nat
  supported : Bool
  deriving DecidableEq, Repr, Inhabited

/-- An error in a burst read from DRAM: the half page and word position (64 and 65 are P0 and P1) whose burst is read,
and what is added to each of its 40 symbols (R260, R263). -/
structure WordErr where
  page : Nat
  pos : Nat
  sym : List Nat
  deriving DecidableEq, Repr, Inhabited

/-- An error that a lookup finds in the cache arrays (R310): in the data of a sub-block of the request's line, or in one
or both tag copies of a way of the request's set. -/
inductive SramErr where
  | data (sub : Nat) (double : Bool)
  | tag (way : Nat) (both : Bool)
  deriving DecidableEq, Repr, Inhabited

end Sys2Proof
end

