-- ==== Sys2Proof/Syntax.lean ====
section
/-! DEFINITION. The commands of the block: one constructor for each row of the opcode table, with the operands that the spec gives
the event, and with what its environment answers. `h` is a half, `n` a unit of the half (an HDA, a channel or a held
command), `u` an actuator index of the half. Operands are described where each meaning is defined. -/

namespace Sys2Proof

/-- A command (one row of the opcode table each). -/
inductive Instr where
  /-- AUX_POWER_GOOD (R41). -/
  | auxPowerGood
  /-- STRAP_CONVERSION (R41). -/
  | strapConversion (ohm : Nat)
  /-- STRAP_SET_END (R41). -/
  | strapSetEnd (coldPlate : Bool)
  /-- STRAP_RETRY (R42). -/
  | strapRetry
  /-- HOT_SWAP_CLOSE (R25). -/
  | hotSwapClose
  /-- HOT_SWAP_RAMP_END (R26). -/
  | hotSwapRampEnd
  /-- PSEN_N_HIGH (R26). -/
  | psenNHigh
  /-- BUS_BROWN_OUT (R423). -/
  | busBrownOut
  /-- AUX_BO (R427). -/
  | auxBo
  /-- AUX_BO_MANTLE_RESET (R427). -/
  | auxBoMantleReset
  /-- COLD (R423). -/
  | cold
  /-- MRST (R423). -/
  | mrst
  /-- PERST_ASSERT (R423). -/
  | perstAssert (h : Half)
  /-- HOT_RESET (R319). -/
  | hotReset (h : Half)
  /-- FLR (R319). -/
  | flr (h : Half)
  /-- CABLE_PRESENCE_HIGH (R28). -/
  | cablePresenceHigh (h : Half)
  /-- LINK_DOWN_TIMEOUT (R319). -/
  | linkDownTimeout (h : Half)
  /-- LINK_TRAINED (R318). -/
  | linkTrained (h : Half) (speed : Nat) (x8 flit cable : Bool)
  /-- SOCKET_TRIP (R30). -/
  | socketTrip (h : Half) (n : Nat)
  /-- TRACE_PROBE_CHANGE (R36). -/
  | traceProbeChange (low : Bool)
  /-- SHOCK_SAMPLE (R199). -/
  | shockSample (p : ShockSample)
  /-- FEEDFORWARD_TIMEOUT (R199). -/
  | feedforwardTimeout (h : Half)
  /-- SNUFFER_SHOCK (R150). -/
  | snufferShock (h : Half) (level : Nat)
  /-- SNUFFER_REARM (R153). -/
  | snufferRearm (h : Half) (u cause peak : Nat)
  /-- REGISTER_WRITE (R51). -/
  | registerWrite (who : Accessor) (off : Nat) (words : List (Word × Nat))
  /-- STRAY_ACCESS (R69). -/
  | strayAccess (who : Accessor) (bar2 write : Bool) (off : Nat)
  /-- READ_CLEAR (R14). -/
  | readClear (who : Accessor) (off n : Nat)
  /-- SNAPSHOT (R62). -/
  | snapshot (h : Half)
  /-- PRESENCE_LOW (R87). -/
  | presenceLow (h : Half) (n : Nat)
  /-- PRESENCE_HIGH (R87). -/
  | presenceHigh (h : Half) (n pin : Nat)
  /-- DEBOUNCE_ELAPSED (R87). -/
  | debounceElapsed (h : Half) (n : Nat)
  /-- EEPROM_READ_START (R87). -/
  | eepromReadStart (h : Half) (n : Nat)
  /-- EEPROM_READ_DONE (R85). -/
  | eepromReadDone (h : Half) (n : Nat) (bytes : List Byte)
  /-- PREAMP_FRAME_END (R79). -/
  | preampFrameEnd (h : Half) (u : Nat) (resp : PaResp)
  /-- PAGO (R90). -/
  | pago (h : Half) (n : Nat) (act0 act1 : Bool)
  /-- PORT_MODE_WRITE (R89). -/
  | portModeWrite (h : Half) (n mode : Nat)
  /-- PREAMP_SUPPLY_OVERLOAD (R33). -/
  | preampSupplyOverload (h : Half) (n : Nat) (neg : Bool)
  /-- PREAMP_FAULT (R82). -/
  | preampFault (h : Half) (u fault : Nat)
  /-- PERSISTENT_FAULT_CHECK (R82). -/
  | persistentFaultCheck (h : Half) (u fault : Nat)
  /-- READ_GATE_RISE (R112). -/
  | readGateRise (h : Half) (n : Nat)
  /-- LOCK_CHECK (R99). -/
  | lockCheck (h : Half) (n : Nat) (phase : Int) (errs : List Int)
  /-- SYNC_WINDOW_CLOSE (R103). -/
  | syncWindowClose (h : Half) (n : Nat) (rx : BitVec 160) (last : Nat) (errs : List Int)
  /-- READ_GATE_FALL (R112). -/
  | readGateFall (h : Half) (n : Nat) (errs : List Int)
  /-- SERVO_GATE_RISE (R101). -/
  | servoGateRise (h : Half) (u : Nat)
  /-- SERVO_GATE_FALL (R115). -/
  | servoGateFall (h : Half) (u : Nat)
  /-- RESYNC_WINDOW_CLOSE (R102). -/
  | resyncWindowClose (h : Half) (n : Nat) (phase : Int) (rx : BitVec 94) (errs : List Int)
  /-- LAST_CODEWORD_SYMBOL (R112). -/
  | lastCodewordSymbol (h : Half) (n amp0 amp1 : Nat) (errs : List Int)
  /-- FIRST_DECODE_END (R109). -/
  | firstDecodeEnd (h : Half) (n iters : Nat) (cw : Option (BitVec 39936))
  /-- REDETECTION_DONE (R106). -/
  | redetectionDone (h : Half) (n : Nat)
  /-- HYPOTHESIS_DECODE_END (R105). -/
  | hypothesisDecodeEnd (h : Half) (n iters : Nat) (cw : Option (BitVec 39936))
  /-- RECOVERY_ROUND_END (R110). -/
  | recoveryRoundEnd (h : Half) (n iters : Nat) (cw : Option (BitVec 39936))
  /-- VERIFY_START (R111). -/
  | verifyStart (h : Half) (n : Nat)
  /-- VERIFY_DECODE_END (R111). -/
  | verifyDecodeEnd (h : Half) (n frame : Nat) (rx : BitVec 160) (iters : Nat) (cw : Option (BitVec 39936))
  /-- CHANNEL_OFF (R123). -/
  | channelOff (h : Half) (n : Nat)
  /-- CHANNEL_CFG (R123). -/
  | channelCfg (h : Half) (n readers : Nat)
  /-- FREEZE (R122). -/
  | freeze (h : Half) (n : Nat) (on : Bool)
  /-- FROZEN (R122). -/
  | frozen (h : Half) (n : Nat)
  /-- BAND_SPLIT (R134). -/
  | bandSplit (h : Half) (u : Nat)
  /-- GROWN_LIST_WRITE (R143). -/
  | grownListWrite (h : Half) (u : Nat)
  /-- HEATER_FRAME_UPDATE (R146). -/
  | heaterFrameUpdate (h : Half) (u : Nat)
  /-- FORMAT_OFF (R161). -/
  | formatOff (h : Half) (u : Nat)
  /-- FORMAT_TABLES (R161). -/
  | formatTables (h : Half) (u : Nat) (defects : Bool) (addr : Nat)
  /-- READ_PASS (R137). -/
  | readPass (h : Half) (u : Nat)
  /-- WRITE_PASS (R147). -/
  | writePass (h : Half) (u : Nat) (ues : List (Nat × Nat))
  /-- VERIFY_PASS (R155). -/
  | verifyPass (h : Half) (u : Nat)
  /-- REWRITE_ENTRY (R156). -/
  | rewriteEntry (h : Half) (u : Nat)
  /-- RETRY_REVOLUTION (R140). -/
  | retryRevolution (h : Half) (u : Nat)
  /-- SYSTEM_BAND_READ (R171). -/
  | systemBandRead (h : Half) (u : Nat)
  /-- SEEK_ONLY (R171). -/
  | seekOnly (h : Half) (u band : Nat)
  /-- PARK (R171). -/
  | park (h : Half) (u : Nat)
  /-- NOP (R168). -/
  | nop (h : Half) (u cond : Nat)
  /-- JMP (R168). -/
  | jmp (h : Half) (u cond target : Nat)
  /-- CALL (R168). -/
  | call (h : Half) (u cond target : Nat)
  /-- RET (R168). -/
  | ret (h : Half) (u cond : Nat)
  /-- LOOP (R168). -/
  | loop (h : Half) (u cond xd target : Nat)
  /-- LDI (R168). -/
  | ldi (h : Half) (u cond xd imm : Nat)
  /-- ADDI (R168). -/
  | addi (h : Half) (u cond xd imm : Nat)
  /-- ALU (R168). -/
  | alu (h : Half) (u cond xd xs fn : Nat)
  /-- LDOP (R168). -/
  | ldop (h : Half) (u cond xd fld : Nat)
  /-- LOC (R168). -/
  | loc (h : Half) (u cond xs : Nat)
  /-- WWED (R168). -/
  | wwed (h : Half) (u cond xs : Nat)
  /-- WSYM (R168). -/
  | wsym (h : Half) (u cond : Nat) (base : Bool) (pos : Nat) (at_ : Place)
  /-- EDGE (R172). -/
  | edge (h : Half) (u cond : Nat) (base wg : Bool) (rg pos : Nat) (at_ : Place)
  /-- SECT (R168). -/
  | sect (h : Half) (u cond : Nat) (last write : Bool) (xs : Nat) (at_ : Place)
  /-- WCH (R168). -/
  | wch (h : Half) (u cond : Nat)
  /-- RECOV (R168). -/
  | recov (h : Half) (u cond xs : Nat)
  /-- FRM (R168). -/
  | frm (h : Half) (u cond frame : Nat)
  /-- FRMX (R168). -/
  | frmx (h : Half) (u cond : Nat) (rw : Bool) (addr xs : Nat)
  /-- SEEK (R198). -/
  | seek (h : Half) (u cond xs kind : Nat)
  /-- WCOND (R169). -/
  | wcond (h : Half) (u cond timeout : Nat)
  /-- POST (R175). -/
  | post (h : Half) (u cond status : Nat)
  /-- EVT (R168). -/
  | evt (h : Half) (u cond code : Nat)
  /-- HALT (R168). -/
  | halt (h : Half) (u cond : Nat)
  /-- ILLEGAL (R168). -/
  | illegal (h : Half) (u cond op operand : Nat)
  /-- STALL_RELEASE (R168). -/
  | stallRelease (h : Half) (u cycles : Nat) (at_ : Place)
  /-- WCOND_TIMEOUT (R169). -/
  | wcondTimeout (h : Half) (u : Nat)
  /-- EDGE_APPLY (R172). -/
  | edgeApply (h : Half) (u : Nat) (ev : GateEvent)
  /-- ABORT_VECTOR (R174). -/
  | abortVector (h : Half) (u : Nat) (at_ : Place)
  /-- RESTART (R173). -/
  | restart (h : Half) (u : Nat)
  /-- WICK_OFF (R180). -/
  | wickOff (h : Half) (u : Nat)
  /-- PATCH_APPLY (R178). -/
  | patchApply (h : Half) (u : Nat)
  /-- PATCH_REWRITE (R178). -/
  | patchRewrite (h : Half) (u : Nat)
  /-- SERVO_DEMOD_END (R188). -/
  | servoDemodEnd (h : Half) (u : Nat) (samples : List DemodSample) (interval : Nat)
  /-- SERVO_COMPUTATION_END (R188). -/
  | servoComputationEnd (h : Half) (u ns : Nat)
  /-- SERVO_OUTPUT_APPLY (R188). -/
  | servoOutputApply (h : Half) (u : Nat)
  /-- IMPLAUS_RETRACT (R194). -/
  | implausRetract (h : Half) (u : Nat)
  /-- REACH_ALARM (R192). -/
  | reachAlarm (h : Half) (u : Nat)
  /-- PROFILE_END (R196). -/
  | profileEnd (h : Half) (u : Nat)
  /-- SEEK_SETTLED (R197). -/
  | seekSettled (h : Half) (u : Nat)
  /-- SEEK_TIMEOUT (R197). -/
  | seekTimeout (h : Half) (u : Nat)
  /-- CMD_LOAD (R205). -/
  | cmdLoad (h : Half) (u : Nat)
  /-- LOAD_LOCK (R205). -/
  | loadLock (h : Half) (u : Nat)
  /-- LOAD_FAIL (R205). -/
  | loadFail (h : Half) (u : Nat)
  /-- CMD_PARK (R206). -/
  | cmdPark (h : Half) (u : Nat)
  /-- CMD_RETRACT (R209). -/
  | cmdRetract (h : Half) (u : Nat)
  /-- STOP_REACHED (R206). -/
  | stopReached (h : Half) (u vel : Nat)
  /-- LATCH_PUSH_END (R206). -/
  | latchPushEnd (h : Half) (u : Nat)
  /-- RETRACT_TMO (R207). -/
  | retractTmo (h : Half) (u : Nat)
  /-- SERVO_EN_SET (R209). -/
  | servoEnSet (h : Half) (u : Nat)
  /-- SERVO_OFF (R211). -/
  | servoOff (h : Half) (u : Nat)
  /-- CAL_ONE (R203). -/
  | calOne (h : Half) (u : Nat) (seg : Nat)
  /-- CAL_SWEEP (R203). -/
  | calSweep (h : Half) (u : Nat)
  /-- CAL_BACKGROUND (R203). -/
  | calBackground (h : Half) (u : Nat)
  /-- CAL_MEASURE_END (R202). -/
  | calMeasureEnd (h : Half) (u : Nat)
  /-- COMMUTATION_STEP (R216). -/
  | commutationStep (h : Half) (n : Nat) (o : StepObs)
  /-- SKIP_RUN (R220). -/
  | skipRun (h : Half) (n : Nat)
  /-- ROTOR_LOST (R234). -/
  | rotorLost (h : Half) (n : Nat)
  /-- BRIDGE_OCP (R234). -/
  | bridgeOcp (h : Half) (n : Nat)
  /-- ELECTRICAL_CYCLE (R222). -/
  | electricalCycle (h : Half) (n duty : Nat) (id : Int)
  /-- KE_MEASURE (R225). -/
  | keMeasure (h : Half) (n keRaw : Nat) (temp : Int)
  /-- KE_REPEAT (R226). -/
  | keRepeat (h : Half) (n keRaw : Nat) (temp : Int)
  /-- START (R228). -/
  | start (h : Half) (n : Nat)
  /-- STOP (R237). -/
  | stop (h : Half) (n : Nat)
  /-- SPINDLE_EN_SET (R244). -/
  | spindleEnSet (h : Half) (n : Nat)
  /-- SPINDLE_OFF (R247). -/
  | spindleOff (h : Half) (n : Nat)
  /-- TAPER_SLOT_GRANT (R227). -/
  | taperSlotGrant
  /-- ALIGN_END (R229). -/
  | alignEnd (h : Half) (n : Nat)
  /-- SENSE_END (R230). -/
  | senseEnd (h : Half) (n : Nat) (peaks : List Nat)
  /-- RAMP_HANDOVER (R231). -/
  | rampHandover (h : Half) (n : Nat)
  /-- RAMP_TIMEOUT (R231). -/
  | rampTimeout (h : Half) (n : Nat)
  /-- TAPER_END (R232). -/
  | taperEnd (h : Half) (n rdson : Nat)
  /-- COAST_END (R233). -/
  | coastEnd (h : Half) (n : Nat)
  /-- CATCH_ESTIMATE (R235). -/
  | catchEstimate (h : Half) (n speed1 angle1 speed2 angle2 : Nat)
  /-- CATCH_OK (R235). -/
  | catchOk (h : Half) (n : Nat)
  /-- CATCH_FAIL (R235). -/
  | catchFail (h : Half) (n : Nat)
  /-- PARK_RPM_REACHED (R236). -/
  | parkRpmReached (h : Half) (n : Nat)
  /-- BRAKE_START (R237). -/
  | brakeStart (h : Half) (n : Nat)
  /-- BRAKE_SLOT_GRANT (R238). -/
  | brakeSlotGrant
  /-- STOP_RPM_REACHED (R237). -/
  | stopRpmReached (h : Half) (n : Nat)
  /-- SPEED_BELOW_30RPM (R237). -/
  | speedBelow30rpm (h : Half) (n : Nat)
  /-- LADDER_STEP1 (R241). -/
  | ladderStep1 (mv : Nat)
  /-- CHOPPER_OFF (R241). -/
  | chopperOff (mv joules : Nat)
  /-- LADDER_STEP2 (R241). -/
  | ladderStep2 (mv : Nat)
  /-- LADDER_STEP3 (R241). -/
  | ladderStep3 (mv : Nat)
  /-- LADDER_RELEASE (R242). -/
  | ladderRelease (mv : Nat)
  /-- CHOPPER_FAIL (R240). -/
  | chopperFail (kind : Nat)
  /-- CHOPPER_TEST (R240). -/
  | chopperTest (pass : Bool)
  /-- CHOP_HOT (R240). -/
  | chopHot
  /-- CHOP_COOL (R240). -/
  | chopCool
  /-- BUDGET_WINDOW (R243). -/
  | budgetWindow (watts mv : Nat)
  /-- SEEK_LIMIT (R243). -/
  | seekLimit
  /-- BUDGET_LIFT (R243). -/
  | budgetLift
  /-- DIMM_IDENTIFY (R255). -/
  | dimmIdentify (h : Half) (dimms : List (Option DimmInfo))
  /-- PMIC_POWER_GOOD (R255). -/
  | pmicPowerGood (h : Half)
  /-- TRAINING_ATTEMPT_END (R255). -/
  | trainingAttemptEnd (h : Half) (failed : List Nat)
  /-- DIMM_TEMP_READ (R256). -/
  | dimmTempRead (h : Half) (n temp : Nat)
  /-- BUFFER_READ (R265). -/
  | bufferRead (h : Half) (cls : BufCls) (ha len : Nat) (errs : List WordErr) (bitmap : Bool)
  /-- BUFFER_WRITE (R270). -/
  | bufferWrite (h : Half) (cls : BufCls) (ha : Nat) (bytes : List Byte) (errs : List WordErr)
  /-- ZERO_FILL_DONE (R273). -/
  | zeroFillDone (h : Half) (region : Nat)
  /-- MERGE_FLUSH (R272). -/
  | mergeFlush (h : Half) (page idle : Nat) (errs : List WordErr)
  /-- REGION_RELEASE (R274). -/
  | regionRelease (h : Half) (count : Nat)
  /-- SCRUB_STEP (R276). -/
  | scrubStep (h : Half) (ch us : Nat) (errs : List WordErr)
  /-- PAGE_RETIRE (R279). -/
  | pageRetire (h : Half) (errs : List WordErr)
  /-- BANK_RETIRE (R280). -/
  | bankRetire (h : Half)
  /-- RETIRE_DONE (R279). -/
  | retireDone (h : Half) (errs : List WordErr)
  /-- LOG_CLEAR (R266). -/
  | logClear (h : Half)
  /-- PARTITION_WRITE (R278). -/
  | partitionWrite (h : Half) (i : Nat) (w : Word)
  /-- BANK_SPARE (R280). -/
  | bankSpare (h : Half) (on : Bool)
  /-- CACHE_REQUEST (R293). -/
  | cacheRequest (h : Half) (cls : BufCls) (write : Bool) (ha len : Nat) (bytes : List Byte) (sram : List SramErr) (errs : List WordErr)
  /-- CACHE_FILL_DONE (R298). -/
  | cacheFillDone (h : Half) (reg : Nat) (errs : List WordErr)
  /-- WRITEBACK_ACCEPTED (R293). -/
  | writebackAccepted (h : Half) (page : Nat)
  /-- CACHE_MODE_WRITE (R301). -/
  | cacheModeWrite (h : Half) (mode : Nat)
  /-- CLEAN (R304). -/
  | clean (h : Half) (range all incl : Bool)
  /-- INV (R304). -/
  | inv (h : Half) (range all incl : Bool)
  /-- CLEAN_INV (R304). -/
  | cleanInv (h : Half) (range all incl : Bool)
  /-- LOCK (R303). -/
  | lock (h : Half) (range all incl : Bool)
  /-- UNLOCK (R303). -/
  | unlock (h : Half) (range all incl : Bool)
  /-- MAINTENANCE_DONE (R304). -/
  | maintenanceDone (h : Half)
  /-- WAY_POWER_DOWN (R308). -/
  | wayPowerDown (h : Half) (k : Nat)
  /-- WAY_WALK_END (R308). -/
  | wayWalkEnd (h : Half) (k : Nat)
  /-- WAY_POWER_UP (R309). -/
  | wayPowerUp (h : Half) (k : Nat)
  /-- WAY_ON_DONE (R309). -/
  | wayOnDone (h : Half) (k : Nat)
  /-- SQ_DOORBELL (R322). -/
  | sqDoorbell (h : Half) (q tail : Nat)
  /-- CQ_DOORBELL (R322). -/
  | cqDoorbell (h : Half) (q head : Nat)
  /-- DESCRIPTOR_FETCH (R324). -/
  | descriptorFetch (h : Half) (words : List Nat) (list : List (Nat × Nat))
  /-- COMMAND_START (R352). -/
  | commandStart (h : Half)
  /-- READ (R335). -/
  | read (h : Half) (n : Nat) (ues : List (Nat × Nat))
  /-- WRITE (R336). -/
  | write (h : Half) (n : Nat)
  /-- WRITE_STAGED (R336). -/
  | writeStaged (h : Half) (n : Nat) (data : List Byte) (ue : Option Nat)
  /-- VERIFY (R337). -/
  | verify (h : Half) (n : Nat)
  /-- FLUSH (R338). -/
  | flush (h : Half) (n : Nat)
  /-- TRIM (R339). -/
  | trim (h : Half) (n : Nat)
  /-- PIN (R340). -/
  | pin (h : Half) (n : Nat)
  /-- UNPIN (R340). -/
  | unpin (h : Half) (n : Nat)
  /-- PREFETCH (R340). -/
  | prefetch (h : Half) (n : Nat)
  /-- SET_CLASS (R341). -/
  | setClass (h : Half) (n : Nat)
  /-- SET_EMBER_RATE (R341). -/
  | setEmberRate (h : Half) (n : Nat)
  /-- IDENTIFY (R344). -/
  | identify (h : Half) (n : Nat)
  /-- LOG_READ (R342). -/
  | logRead (h : Half) (n : Nat)
  /-- HDA_ATTACH (R343). -/
  | hdaAttach (h : Half) (n : Nat) (tables : List (List Byte × List Byte × List (Nat × Nat)))
  /-- HDA_DETACH (R343). -/
  | hdaDetach (h : Half) (n : Nat)
  /-- NS_CREATE (R333). -/
  | nsCreate (h : Half) (n : Nat)
  /-- NS_DELETE (R342). -/
  | nsDelete (h : Half) (n : Nat)
  /-- RETIRE (R342). -/
  | retire (h : Half) (n : Nat) (errs : List WordErr)
  /-- FIRMWARE_LOAD (R342). -/
  | firmwareLoad (h : Half) (n : Nat) (bytes : List Byte)
  /-- MICROCODE_LOAD (R177). -/
  | microcodeLoad (h : Half) (n : Nat) (bytes : List Byte)
  /-- COMPLETION_POST (R329). -/
  | completionPost (h : Half) (n : Nat)
  /-- INTERRUPT_AGG_TIMEOUT (R330). -/
  | interruptAggTimeout (h : Half) (q us : Nat)
  /-- PAYLOAD_TIMEOUT (R359). -/
  | payloadTimeout (h : Half) (n : Nat)
  /-- LATE_CPL (R360). -/
  | lateCpl (h : Half) (dma : Bool)
  /-- SQ_ENABLE (R369). -/
  | sqEnable (h : Half) (q : Nat)
  /-- CQ_ENABLE (R370). -/
  | cqEnable (h : Half) (q : Nat)
  /-- RING_CHANGED (R370). -/
  | ringChanged (h : Half) (cq : Bool) (q w : Nat) (v : Word)
  /-- RING_DISABLE (R370). -/
  | ringDisable (h : Half) (cq : Bool) (q : Nat)
  /-- LOST_LOG_CLEAR (R366). -/
  | lostLogClear (h : Half)
  /-- SDM_TAKE_CHANNEL (R375). -/
  | sdmTakeChannel (h : Half) (words : List Nat) (ue : Option Nat)
  /-- SDM_DESCRIPTOR_END (R376). -/
  | sdmDescriptorEnd (h : Half) (data : List Byte) (ue : Option Nat) (next : List Nat)
  /-- SDM_HOST_TIMEOUT (R385). -/
  | sdmHostTimeout (h : Half) (data : List Byte)
  /-- SDM_CHANNEL_ENABLE (R390). -/
  | sdmChannelEnable (h : Half) (c : Nat)
  /-- RESUME (R386). -/
  | resume (h : Half) (c : Nat)
  /-- SDM_CHANNEL_DISABLE (R391). -/
  | sdmChannelDisable (h : Half) (c moved : Nat) (data : List Byte)
  /-- SDM_CHANNEL_RECONFIG (R391). -/
  | sdmChannelReconfig (h : Half) (c w : Nat) (v : Word) (moved : Nat) (data : List Byte)
  /-- CLAIM (R400). -/
  | claim (h : Half) (seq arg0 arg1 : Nat)
  /-- RELEASE (R396). -/
  | release (h : Half) (seq arg0 arg1 : Nat)
  /-- RETRACT (R407). -/
  | retract (h : Half) (seq arg0 arg1 : Nat)
  /-- WD_CONFIG (R411). -/
  | wdConfig (h : Half) (seq arg0 arg1 : Nat)
  /-- INTAKE_OPEN (R415). -/
  | intakeOpen (h : Half) (seq arg0 arg1 : Nat)
  /-- INTAKE_CHECK (R416). -/
  | intakeCheck (h : Half) (seq arg0 arg1 : Nat)
  /-- INTAKE_CANCEL (R415). -/
  | intakeCancel (h : Half) (seq arg0 arg1 : Nat)
  /-- NEXT_SLOT (R413). -/
  | nextSlot (h : Half) (seq arg0 arg1 : Nat)
  /-- BAD_OP (R396). -/
  | badOp (h : Half) (op seq arg0 arg1 : Nat)
  /-- INTAKE_TIMEOUT (R415). -/
  | intakeTimeout
  /-- POLL_TICK (R401). -/
  | pollTick
  /-- LEASE_WRITE (R401). -/
  | leaseWrite (h : Half) (held echo : Nat)
  /-- LEASE_DEADLINE (R401). -/
  | leaseDeadline
  /-- LAPSE (R401). -/
  | lapse (hd : Nat)
  /-- SEQUENCER_STOP (R408). -/
  | sequencerStop (h : Half) (u vel : Nat)
  /-- RETDONE (R408). -/
  | retdone (h : Half) (u : Nat)
  /-- RETTMO (R408). -/
  | rettmo (h : Half) (u us : Nat)
  /-- KICK (R411). -/
  | kick (h : Half) (key : Nat)
  /-- WD_WARN (R411). -/
  | wdWarn (h : Half) (ms : Nat)
  /-- WD_STAGE2 (R412). -/
  | wdStage2 (h : Half)
  /-- SLOT_CHECK_DONE (R413). -/
  | slotCheckDone (h : Half) (ok : Bool)
  /-- LOCKSTEP_MISMATCH (R392). -/
  | lockstepMismatch
  /-- HALF_RESET_REQUEST (R426). -/
  | halfResetRequest (h : Half) (target key : Nat)
  /-- HDA_RESET_REQUEST (R426). -/
  | hdaResetRequest (h : Half) (target key : Nat)
  /-- BLOCK_RESET_REQUEST (R426). -/
  | blockResetRequest (h : Half) (target key : Nat)
  /-- COLD_RELEASE (R425). -/
  | coldRelease
  /-- AUX_BO_RELEASE (R425). -/
  | auxBoRelease
  /-- MAIN_BO_RELEASE (R425). -/
  | mainBoRelease
  /-- MRST_RELEASE (R425). -/
  | mrstRelease
  /-- HALF_RELEASE (R425). -/
  | halfRelease (h : Half)
  /-- PORT_RELEASE (R425). -/
  | portRelease (h : Half)
  /-- HDA_RESET_RELEASE (R425). -/
  | hdaResetRelease (h : Half) (n : Nat)
  /-- BLOCK_RELEASE (R425). -/
  | blockRelease (h : Half) (code : Nat)
  /-- WRAPPER_DRAINED (R432). -/
  | wrapperDrained (h : Half) (code : Nat)
  /-- LANTERN_RELEASE (R438). -/
  | lanternRelease
  /-- CONFIGURED (R435). -/
  | configured (h : Half)
  /-- RAIL_GOOD (R446). -/
  | railGood (h : Half) (rail : Nat)
  /-- RAIL_FAULT (R447). -/
  | railFault (h : Half) (rail : Nat)
  /-- DOMAIN_GATE (R448). -/
  | domainGate (h : Half) (d us : Nat)
  /-- DOMAIN_FLOOR (R448). -/
  | domainFloor (h : Half) (d us : Nat)
  /-- DOMAIN_WAKE (R450). -/
  | domainWake (h : Half) (d : Nat) (late : Bool)
  /-- DOMAIN_WAKE_DONE (R451). -/
  | domainWakeDone (h : Half) (d : Nat)
  /-- POLICY_WRITE (R464). -/
  | policyWrite (h : Half) (d : Nat) (w : Word)
  /-- METER_OVER (R453). -/
  | meterOver (h : Half) (mean : Nat)
  /-- PLL_UNLOCK (R457). -/
  | pllUnlock (h : Half) (c : Nat)
  /-- REF_FAIL (R457). -/
  | refFail (h : Half)
  /-- MOTLINK_STOP (R457). -/
  | motlinkStop (h : Half)
  /-- PCIE_REF_LOST (R458). -/
  | pcieRefLost (h : Half)
  /-- GLIM_TICK (R460). -/
  | glimTick
  /-- GLIM_FAIL (R461). -/
  | glimFail
  /-- CHIMNEY_MESSAGE (R471). -/
  | chimneyMessage (h : Half)
  /-- RECORD_CLOSE (R474). -/
  | recordClose (h : Half) (index : Nat)
  /-- CHM_RAISE (R489). -/
  | chmRaise (h : Half) (hintHi : Nat)
  /-- MANTLE_MESSAGE (R475). -/
  | mantleMessage
  /-- MANTLE_RECORD_CLOSE (R475). -/
  | mantleRecordClose (src : Nat)
  /-- EVENT_RECORD_WRITE (R480). -/
  | eventRecordWrite
  /-- LAMP_MEASUREMENT (R482). -/
  | lampMeasurement (h : Half) (i : Nat) (raw : Int) (secs : Nat)
  /-- SAMPLE_INTERVAL_CLOSE (R482). -/
  | sampleIntervalClose (h : Half)
  /-- WLP_FEED (R496). -/
  | wlpFeed (h : Half) (i power : Nat)
  /-- TRACE_TIME_PACKET (R485). -/
  | traceTimePacket (h : Half)
  /-- TRACE_PACKET_SEND (R486). -/
  | tracePacketSend (h : Half)
  /-- DESKEW_BLOCK (R484). -/
  | deskewBlock (h : Half)
  /-- LINK_DOWN (R319). -/
  | linkDown (h : Half)
  /-- HALF_LINK_DOWN (R358). -/
  | halfLinkDown
  /-- HALF_LINK_UP (R67). -/
  | halfLinkUp
  /-- HOST_ACCESS (R345). -/
  | hostAccess (h : Half) (n : Nat) (data : List Byte)
  /-- MANTLE_RAIL_LOSS (R427). -/
  | mantleRailLoss
  /-- RATE_RANGE_TIMEOUT (R346). -/
  | rateRangeTimeout (h : Half) (u : Nat)
  /-- CORE_RESTART_DONE (R392). -/
  | coreRestartDone
  deriving DecidableEq, Repr

end Sys2Proof
end

