-- ==== Sys2Proof/Decode.lean ====
section
/-! DEFINITION. The microwords of Wick (R167, R168): their encoding in 32 bits and its reading. The commands of the module
have no bits of their own, so no word of the table spells one. -/

namespace Sys2Proof

/-- OPCODE and OPERAND of a microword (R168). -/
def Micro.opcode : Micro → Nat
  | .nop => 0x00
  | .jmp _ => 0x01
  | .call _ => 0x02
  | .ret => 0x03
  | .loop _ _ => 0x04
  | .ldi _ _ => 0x05
  | .addi _ _ => 0x06
  | .alu _ _ _ => 0x07
  | .ldop _ _ => 0x08
  | .loc _ => 0x09
  | .wwed _ => 0x0A
  | .wsym _ _ => 0x0B
  | .edge _ _ _ _ => 0x0C
  | .sect _ _ _ => 0x0D
  | .wch => 0x0E
  | .recov _ => 0x0F
  | .frm _ => 0x10
  | .frmx _ _ _ => 0x11
  | .seek _ _ => 0x12
  | .wcond _ => 0x13
  | .post _ => 0x14
  | .evt _ => 0x15
  | .illegal op _ => op
  | .halt => 0x1F

/-- A bit as a number. -/
def bitNat (b : Bool) : Nat := if b then 1 else 0

/-- OPERAND of a microword (R168); bits that no layout names are 0. -/
def Micro.operand : Micro → Nat
  | .nop | .ret | .wch | .halt => 0
  | .jmp t => t
  | .call t => t
  | .loop xd t => xd * 0x8000 + t
  | .ldi xd imm => xd * 0x200000 + imm
  | .addi xd imm => xd * 0x200000 + imm
  | .alu xd xs fn => xd * 0x200000 + xs * 0x40000 + fn * 0x10000
  | .ldop xd fld => xd * 0x200000 + fld
  | .loc xs => xs * 0x40000
  | .wwed xs => xs * 0x40000
  | .wsym base pos => bitNat base * 0x800000 + pos
  | .edge base wg rg pos => bitNat base * 0x800000 + bitNat wg * 0x200000 + rg * 0x20000 + pos
  | .sect last write xs => bitNat last * 0x400000 + bitNat write * 0x200000 + xs * 0x40000
  | .recov xs => xs * 0x40000
  | .frm f => f
  | .frmx rw addr xs => bitNat rw * 0x800000 + addr * 0x10000 + xs
  | .seek xs kind => xs * 0x40000 + kind
  | .wcond t => t
  | .post st => st
  | .evt code => code
  | .illegal _ operand => operand

/-- The 32 bits of a microword with its COND (R167). -/
def microEncode (cond : Nat) (m : Micro) : Nat := m.opcode * 0x8000000 + cond * 0x1000000 + m.operand

/-- The microword of an OPCODE and an OPERAND (R168). -/
def microOf (op v : Nat) : Micro :=
  let xd := v / 0x200000 % 8
  let xs := v / 0x40000 % 8
  let b23 := decide (v / 0x800000 % 2 = 1)
  let b22 := decide (v / 0x400000 % 2 = 1)
  let b21 := decide (v / 0x200000 % 2 = 1)
  let target := v % 0x8000
  if op = 0x00 then .nop
  else if op = 0x01 then .jmp target
  else if op = 0x02 then .call target
  else if op = 0x03 then .ret
  else if op = 0x04 then .loop (v / 0x8000 % 8) target
  else if op = 0x05 then .ldi xd (v % 0x200000)
  else if op = 0x06 then .addi xd (v % 0x200000)
  else if op = 0x07 then .alu xd xs (v / 0x10000 % 4)
  else if op = 0x08 then .ldop xd (v % 16)
  else if op = 0x09 then .loc xs
  else if op = 0x0A then .wwed xs
  else if op = 0x0B then .wsym b23 (v % 0x20000)
  else if op = 0x0C then .edge b23 b21 (v / 0x20000 % 16) (v % 0x20000)
  else if op = 0x0D then .sect b22 b21 xs
  else if op = 0x0E then .wch
  else if op = 0x0F then .recov xs
  else if op = 0x10 then .frm (v % 0x1000000)
  else if op = 0x11 then .frmx b23 (v / 0x10000 % 128) (v % 8)
  else if op = 0x12 then .seek xs (v % 4)
  else if op = 0x13 then .wcond (v % 0x1000000)
  else if op = 0x14 then .post (v % 256)
  else if op = 0x15 then .evt (v % 0x10000)
  else if op = 0x1F then .halt
  else .illegal op (v % 0x1000000)

/-- COND and the microword that 32 bits hold (R167, R168). -/
def microDecode (w : Nat) : Nat × Micro := (w / 0x1000000 % 8, microOf (w / 0x8000000 % 32) (w % 0x1000000))

/-- The command that a word of the table spells: the table gives no row any bits, so none. -/
def decodeTableWord (_nbits _w : Nat) : Option Instr := none

end Sys2Proof
end

