-- ==== Sys2Proof/Config.lean ====
section
/-! DEFINITION. What the spec leaves open: values that an implementation fixes or that stand unnamed in the spec, as
opaque constants. Nothing can be proved about them but that they are functions of their arguments. Each is named in a
row of notes/assumptions. -/

namespace Sys2Proof.Config

/-- A value that the spec does not state: the argument is a number of the run that the step reads and advances. -/
opaque freeNat : Nat → Nat

/-- Values that the spec does not state, one for each place, of one number of the run. -/
opaque freeAt : Nat → Nat → Nat

/-- The sum over an adaptation's symbols of error times input at each coefficient (R94), in coefficient steps, of one number of
the run. DESIGN CHOICE (log 163). -/
opaque gradient : Nat → Nat → Int

/-- Whether a READ or WRITE of one port waits behind an overlapping earlier READ or WRITE of the other (R8), by the places of
the later and the earlier command in doorbell order. -/
opaque crossPort : Nat → Nat → Bool

/-- The servo's control coefficients kp, kd and ki (0, 1, 2) of the set designed at 4,200 rpm (0) or 7,200 rpm (1) (R189, R200),
in 0.1 mA per track, per track and wedge, and per track. DESIGN CHOICE (log 10). -/
opaque servoCoef : Nat → Nat → Rat

/-- One microactuator loop (R189): from the wedge period, the loop's integrator and the head's PES in tracks, the
required stroke in tracks and the next integrator. DESIGN CHOICE (log 11). -/
opaque maLoop : Nat → Rat → Rat → Rat × Rat

/-- The first-order stroke model of a microactuator (R193): from the wedge period, the modelled stroke and the voltage
applied in mV, the stroke at the next wedge, in tracks. -/
opaque maStroke : Nat → Rat → Int → Rat

/-- The plant model's motion over one wedge (R193): from the wedge period, comb position, velocity and acceleration in
tracks and wedges, the next position and velocity. -/
opaque plantStep : Nat → Rat → Rat → Rat → Rat × Rat

/-- Which of two values of 2k + phi that lie equally near the track ID is taken (R187). DESIGN CHOICE (log 12). -/
opaque phaseTie : Nat → Int → Bool

/-- The heater powers of register 0 to 15 (HTR_RD and HTR_WR of heads 0 to 7) of an actuator, calibrated at 7,200 rpm and at
4,200 rpm (R145). DESIGN CHOICE (log 35). -/
opaque heaterCal : Nat → Nat → Nat × Nat

/-- The phase of bursts that are both 0 (R187), which have none, by the track ID. DESIGN CHOICE (log 12). -/
opaque noPhase : Nat → Nat

/-- The current that back-EMF velocity control commands for a velocity in steps of 10 mm/s, positive inward (R205, R206), in
0.1 mA, at one number of the run. DESIGN CHOICE (log 14). -/
opaque emfCurrent : Int → Nat → Int

/-- The spindle's speed loop (R222): from KP, KI, the speed reference and the measured speed in 1/64 rpm and the last
current command in mA, the next current command before its limits. DESIGN CHOICE (log 15). -/
opaque spinLoop : Nat → Nat → Nat → Nat → Nat → Nat

/-- The gain of the field-weakening update (R221): the change of advance, in steps of 0.25°, for a d-axis current error in
mA. -/
opaque kfw : Int → Int

/-- Verification of an ECDSA P-384 signature (R414, R416) under key 0 to 3 of Mantle ROM, whose keys the spec does not
give: from the key's index, the 384-bit hash, r and s. DESIGN CHOICE (log 16). -/
opaque ecdsaP384 : Nat → Nat → Nat → Nat → Bool

/-- The fuses that a Mantle patch names (R416), from the image's bytes: a mask of keys, and SVN_MIN of types 1, 2, 3.
DESIGN CHOICE (log 17). -/
opaque patchFuses : List (BitVec 8) → Nat × Nat × Nat × Nat

end Sys2Proof.Config
end

