-- ==== Sys2Proof/Machine/Codes.lean ====
section
/-! DEFINITION. The codes of the module, as computations on bits and bytes: CRC-8 of the serial bus and of Chimney
messages (R77, R466), CRC-32 of the identity EEPROM (R84), the sector scrambler and the LDPC parity check (R97, R98),
and Reed-Solomon codes over GF(2^8) and GF(2^16) (R138, R262 to R264). -/

namespace Sys2Proof.Machine

/-! ### Cyclic redundancy checks -/

/-- One bit into the CRC-8 of polynomial x^8 + x^2 + x + 1 (R77). -/
def crc8Bit (c : Byte) (b : Bool) : Byte :=
  if (c.msb != b) then (c <<< 1) ^^^ 0x07 else c <<< 1

/-- CRC-8 over the low `n` bits of a word, most significant bit first, initial value 0x00 (R77, R466). -/
def crc8 {m : Nat} (w : BitVec m) (n : Nat) : Byte :=
  (List.range n).foldl (fun c i => crc8Bit c (w.getLsbD (n - 1 - i))) 0

/-- The 32 bits of a write frame: RW, ADDR and DATA with the CRC behind them (R77). DESIGN CHOICE (log 153). -/
def frameWithCrc (f : BitVec 24) : BitVec 32 := f ++ crc8 f 24

/-- The CRC that a preamplifier returns with the data of a read frame: over RW, ADDR and DATA (R77). -/
def readCrc (rwAddr : Byte) (data : BitVec 16) : Byte := crc8 (rwAddr ++ data) 24

/-- One byte into the reflected CRC-32 of IEEE 802.3 (R84). -/
def crc32Byte (c : Word) (b : Byte) : Word :=
  (List.range 8).foldl (fun c _ => if c.getLsbD 0 then (c >>> 1) ^^^ 0xEDB88320 else c >>> 1) (c ^^^ b.setWidth 32)

/-- The IEEE 802.3 CRC-32 of a string of bytes (R84). -/
def crc32 (bs : List Byte) : Word := ~~~(bs.foldl crc32Byte 0xFFFFFFFF)

/-! ### Scrambler and LDPC code of the sector -/

/-- One step of the 16-bit scrambler of polynomial x^16 + x^5 + x^3 + x^2 + 1 (R97), in Fibonacci form: the register shifts
towards its high end, the output bit is the bit that leaves it there, and the bits of the terms x^16, x^5, x^3 and x^2 make the
bit that enters. The spec names the polynomial and the seed alone. DESIGN CHOICE (log 170). -/
def scrNext (r : BitVec 16) : BitVec 16 :=
  (r <<< 1) ||| (BitVec.ofBool (r.getLsbD 15 != (r.getLsbD 4 != (r.getLsbD 2 != r.getLsbD 1)))).setWidth 16

/-- The first `n` output bits of the scrambler from a register value, first bit first (R97). -/
def scrBits : Nat → BitVec 16 → List Bool
  | 0, _ => []
  | n + 1, r => r.getLsbD 15 :: scrBits n (scrNext r)

/-- A list of bits as a vector, first bit at position 0. -/
def bitsToVec (w : Nat) (bs : List Bool) : BitVec w :=
  bs.foldr (fun b v => (v <<< 1) ||| BitVec.ofNat w (if b then 1 else 0)) 0

/-- The scrambling sequence of a sector of a given index on its track (R97): bit i at position i. -/
def scrambleMask (index : Nat) : BitVec 39936 :=
  bitsToVec 39936 (scrBits 32832 (BitVec.ofNat 16 (0xACE1 ^^^ index)))

/-- The codeword bits of a circulant block: the identity shifted cyclically right by e places sends bit i of the row
block to bit (i + e) mod 64 of the column block (R98). -/
def circRow (col : BitVec 64) (e : Nat) : BitVec 64 := col.rotateRight (e % 64)

/-- Block column c of a codeword (R98). -/
def blockCol (w : BitVec 39936) (c : Nat) : BitVec 64 := w.extractLsb' (64 * c) 64

/-- What one block column adds to one block row of the syndrome (R98). -/
def ldpcTerm (w : BitVec 39936) (c r : Nat) : BitVec 64 :=
  if c ≤ 512 then
    (List.range 4).foldl (fun acc j =>
      if (29 * c + 28 * j) % 111 = r then acc ^^^ circRow (blockCol w c) ((c * (2 * j + 1) + r) % 64) else acc) 0
  else if c = 513 then
    (if r = 0 ∨ r = 110 then circRow (blockCol w c) 1 else if r = 55 then blockCol w c else 0)
  else
    (if r + 1 = c - 513 ∨ r = c - 513 then blockCol w c else 0)

/-- Whether a codeword satisfies every parity check of R98. -/
def ldpcValid (w : BitVec 39936) : Bool :=
  (List.range 111).all fun r => (List.range 624).foldl (fun acc c => acc ^^^ ldpcTerm w c r) (0 : BitVec 64) == 0

/-- Block row r of the parity checks over the information blocks alone (R98). -/
def infoRow (w : BitVec 39936) (r : Nat) : BitVec 64 := (List.range 513).foldl (fun acc c => acc ^^^ ldpcTerm w c r) 0

/-- Parity blocks from block r on (R98): block row r gives the block after it; row 55 holds block 0 too. -/
def parityChain (p0 : BitVec 64) : Nat → BitVec 64 → List (BitVec 64) → List (BitVec 64)
  | _, p, [] => [p]
  | r, p, x :: t => p :: parityChain p0 (r + 1) (x ^^^ p ^^^ (if r = 55 then p0 else 0)) t

/-- The 111 parity blocks of information bits (R98): the sum of all rows gives block 0, row 0 then block 1. -/
def parityBlocks (w : BitVec 39936) : List (BitVec 64) :=
  let rows := (List.range 111).map (infoRow w)
  let p0 := rows.foldl (· ^^^ ·) 0
  p0 :: parityChain p0 1 (rows.headD 0 ^^^ circRow p0 1) ((rows.drop 1).take 109)

/-- The codeword of 32,832 information bits (R97, R98). -/
def ldpcEncode (info : BitVec 39936) : BitVec 39936 :=
  (parityBlocks info).zipIdx.foldl (fun w (p, k) => w ||| (p.setWidth 39936 <<< (64 * (513 + k)))) info

/-- A byte with its bits in the other order: codewords carry each byte most significant bit first (R97). -/
def revByte (b : Byte) : Byte := b.reverse

/-- Byte k of the user data and tag of a descrambled codeword (R97). -/
def cwByte (w : BitVec 39936) (k : Nat) : Byte := revByte (w.extractLsb' (8 * k) 8)

/-- A descrambled codeword (R97: the channel descrambles after decoding). -/
def descramble (index : Nat) (w : BitVec 39936) : BitVec 39936 := w ^^^ scrambleMask index

/-- Bytes as one number, first byte lowest. -/
def bytesLE : List Byte → Nat
  | [] => 0
  | b :: t => b.toNat + 256 * bytesLE t

/-- The codeword written for a sector (R97): user bytes and tag, scrambled by the index on the track, with their parity. -/
def sectorCodeword (index : Nat) (tag : List Byte) (data : BitVec 32768) : BitVec 39936 :=
  let bytes := ((List.range 4096).map fun k => data.extractLsb' (8 * k) 8) ++ tag
  ldpcEncode (BitVec.ofNat 39936 (bytesLE (bytes.map revByte)) ^^^ scrambleMask index)

/-- The sync mark and the resync mark (R96), written most significant bit first. -/
abbrev syncMark : BitVec 64 := 0xF0C3A5965A3C0F69#64
abbrev resyncMark : BitVec 64 := 0x6E2BD147C8A51F93#64

/-- Symbols of the repeated 1100 pattern, and of a mark (R96). -/
def pattern1100 (n : Nat) : List Bool := (List.range n).map fun i => i % 4 < 2
def markSymbols (m : BitVec 64) : List Bool := (List.range 64).map fun i => m.getLsbD (63 - i)

/-- The symbols written for a frame, up to its gap, in which write gate is low: preamble, sync mark, codeword and postamble, with
the resync field before the symbol at which a wedge splits it (R96); 0 splits nothing. -/
def frameSymbols (cw : BitVec 39936) (split : Nat) : List Bool :=
  let whole := pattern1100 320 ++ markSymbols syncMark ++ (List.range 39936).map cw.getLsbD ++ pattern1100 32
  if split = 0 then whole else whole.take split ++ pattern1100 128 ++ markSymbols resyncMark ++ whole.drop split

/-- The user data of a descrambled codeword (R97). -/
def cwData (w : BitVec 39936) : Sector := BitVec.ofNat 32768 (bytesLE ((List.range 4096).map (cwByte w)))

/-- The 8 tag bytes of a descrambled codeword (R97, R130). -/
def cwTag (w : BitVec 39936) : List Byte := (List.range 8).map fun k => cwByte w (4096 + k)

/-! ### Reed-Solomon codes -/

/-- A product of polynomials over GF(2), reduced by a polynomial of degree `m` given without its leading term:
Horner over the bits of `b`, highest first. -/
def gfMul (m poly : Nat) (a b : Nat) : Nat :=
  (List.range m).foldl (fun acc i =>
    let t := acc * 2
    let t := if t ≥ 2 ^ m then (t - 2 ^ m) ^^^ poly else t
    if b.testBit (m - 1 - i) then t ^^^ a else t) 0

/-- A power in the field. -/
def gfPow (m poly : Nat) (a : Nat) : Nat → Nat
  | 0 => 1
  | n + 1 => gfMul m poly a (gfPow m poly a n)

/-- The inverse in the field: a^(2^m - 2), by squarings. -/
def gfInv (m poly : Nat) (a : Nat) : Nat :=
  ((List.range (m - 1)).foldl (fun (st : Nat × Nat) _ =>
    let sq := gfMul m poly st.1 st.1
    (sq, gfMul m poly st.2 sq)) (a, 1)).2

/-- A polynomial, highest coefficient first, at a point. -/
def gfEval (m poly : Nat) (cs : List Nat) (x : Nat) : Nat :=
  cs.foldl (fun acc c => gfMul m poly acc x ^^^ c) 0

/-- One syndrome: the received word (first symbol the highest coefficient) at α^j. -/
def rsSyndrome (m poly : Nat) (cs : List Nat) (j : Nat) : Nat := gfEval m poly cs (gfPow m poly 2 j)

/-- The `p` syndromes of a code whose generator has the roots α^0 to α^(p - 1) (R138, R262). -/
def rsSyndromes (m poly p : Nat) (cs : List Nat) : List Nat := (List.range p).map (rsSyndrome m poly cs)

/-- The generator polynomial (x + 1)(x + α)...(x + α^(p-1)), highest coefficient first (R138). -/
def rsGenerator (m poly : Nat) : Nat → List Nat
  | 0 => [1]
  | p + 1 =>
    let g := rsGenerator m poly p
    let r := gfPow m poly 2 p
    (List.zipWith (· ^^^ ·) (g ++ [0]) (0 :: g.map (gfMul m poly r)))

/-- One step of systematic encoding: a symbol into the remainder register (highest coefficient first). -/
def rsEncStep (m poly : Nat) (gen : List Nat) (reg : List Nat) (c : Nat) : List Nat :=
  let f := (reg.headD 0) ^^^ c
  List.zipWith (· ^^^ ·) (reg.tail ++ [0]) (gen.tail.map (gfMul m poly f))

/-- The check symbols of a systematic Reed-Solomon code: the remainder of data * x^p by the generator (R138). -/
def rsParity (m poly p : Nat) (data : List Nat) : List Nat :=
  data.foldl (rsEncStep m poly (rsGenerator m poly p)) (List.replicate p 0)

/-- Erasure decoding by interpolation: the values at the erased positions that make every syndrome zero. The word has n
symbols; symbol i is the coefficient of x^(n-1-i). With erased positions e_1 .. e_k (k ≤ p), the value at e_j is the
sum of syndromes weighted by the Lagrange coefficients of the locators. -/
def rsErasureFill (m poly n : Nat) (cs : List Nat) (erased : List Nat) : List Nat :=
  let cs0 := (List.range n).map fun i => if erased.contains i then 0 else cs.getD i 0
  let loc := fun i => gfPow m poly 2 (n - 1 - i)
  let k := erased.length
  let syn := rsSyndromes m poly k cs0
  let value := fun i =>
    let others := (erased.filter (· ≠ i)).map loc
    -- coefficients, lowest first, of the product of (x + X) over the other locators
    let pol := others.foldl (fun ps x => List.zipWith (· ^^^ ·) (ps.map (gfMul m poly x) ++ [0]) (0 :: ps)) [1]
    let num := (List.zipWith (gfMul m poly) pol syn).foldl (· ^^^ ·) 0
    let den := others.foldl (fun acc x => gfMul m poly acc (loc i ^^^ x)) 1
    gfMul m poly num (gfInv m poly den)
  (List.range n).map fun i => if erased.contains i then value i else cs.getD i 0

/-- The field of the stripe code: x^8 + x^4 + x^3 + x^2 + 1 (R138). -/
def gf8 : Nat × Nat := (8, 0x1D)

/-- Byte u of a sector's user data. -/
def sectorByte (d : Sector) (u : Nat) : Nat := (d.extractLsb' (8 * u) 8).toNat

/-- A sector from its 4,096 bytes. -/
def sectorOf (bs : List Nat) : Sector := BitVec.ofNat 32768 (bytesLE (bs.map (BitVec.ofNat 8)))

/-- The four parity sectors of the 60 data sectors of a stripe group (R138). -/
def stripeParity (data : List Sector) : List Sector :=
  let cols := (List.range 4096).map fun u => rsParity 8 0x1D 4 (data.map fun d => sectorByte d u)
  (List.range 4).map fun j => sectorOf (cols.map fun c => c.getD j 0)

/-- The 64 sectors of a stripe group with its erased positions rebuilt from the others (R138, R140). -/
def stripeRebuild (sectors : List Sector) (erased : List Nat) : List Sector :=
  let cols := (List.range 4096).map fun u => rsErasureFill 8 0x1D 64 (sectors.map fun d => sectorByte d u) erased
  (List.range 64).map fun i =>
    if erased.contains i then sectorOf (cols.map fun c => c.getD i 0) else sectors.getD i 0

/-! ### The word code and the page code of the buffer -/

/-- The polynomial of the word code without its leading term: x^16 + x^12 + x^3 + x + 1 (R260). -/
def wordPoly : Nat := 0x100B

/-- The 32 data symbols of a 64-byte word (R260): symbol 4g + q takes lanes 4g to 4g + 3 over beats 4q to 4q + 3; byte k
travels in beat k div 4 on lanes from 8 (k mod 4). -/
def wordSymbols (bs : List Nat) : List Nat :=
  (List.range 32).map fun s =>
    let g := s / 4
    let q := s % 4
    (List.range 4).foldl (fun v j =>
      v + (bs.getD (16 * q + 4 * j + g / 2) 0) / 16 ^ (g % 2) % 16 * 16 ^ j) 0

/-- The 64 bytes that 32 data symbols carry. -/
def symbolBytes (ss : List Nat) : List Nat :=
  (List.range 64).map fun k =>
    let q := k / 16
    let j := k % 16 / 4
    let nib := fun g => ss.getD (4 * g + q) 0 / 16 ^ j % 16
    nib (2 * (k % 4)) + 16 * nib (2 * (k % 4) + 1)

/-- A burst with its virtual address symbols before it (R260): 42 symbols. -/
def withAddress (cwa : Nat) (ss : List Nat) : List Nat := [cwa % 65536, cwa / 65536 % 65536] ++ ss

/-- The 40 symbols of a stored word: data and check, each check symbol XOR 0x5A5A when the word is poisoned (R260,
R262). -/
def wordBurst (cwa : Nat) (bs : List Nat) (poisoned : Bool) : List Nat :=
  let d := wordSymbols bs
  let c := rsParity 16 wordPoly 8 (withAddress cwa d)
  d ++ (if poisoned then c.map (· ^^^ 0x5A5A) else c)

/-- A burst with an error added. -/
def addError (ss err : List Nat) : List Nat := (List.range ss.length).map fun i => ss.getD i 0 ^^^ (err.getD i 0 % 65536)

/-- What the word code says of a burst (R261). -/
inductive WordStatus where
  | clean
  | poisoned
  | corrected (device : Nat)
  | flagged
  deriving DecidableEq, Repr, Inhabited

/-- The error-locator polynomial of Berlekamp and Massey from a list of syndromes, lowest coefficient first, and the
number of errors. -/
def berlekamp (m poly : Nat) (syn : List Nat) : List Nat × Nat :=
  let step := fun (st : List Nat × List Nat × Nat × Nat × Nat) (n : Nat) =>
    let (c, b, l, k, bd) := st
    let d := (List.range (l + 1)).foldl (fun acc i => acc ^^^ gfMul m poly (c.getD i 0) (syn.getD (n - i) 0)) 0
    if d = 0 then (c, b, l, k + 1, bd)
    else
      let f := gfMul m poly d (gfInv m poly bd)
      let shifted := List.replicate k 0 ++ b.map (gfMul m poly f)
      let len := max c.length shifted.length
      let c' := (List.range len).map fun i => c.getD i 0 ^^^ shifted.getD i 0
      if 2 * l ≤ n then (c', c, n + 1 - l, 1, d) else (c', b, l, k + 1, bd)
  let (c, _, l, _, _) := (List.range syn.length).foldl step ([1], [1], 0, 1, 1)
  (c, l)

/-- Positions of a 42-symbol word at which the locator polynomial has a root. -/
def locatedAt (c : List Nat) : List Nat :=
  (List.range 42).filter fun i =>
    let xinv := gfInv 16 wordPoly (gfPow 16 wordPoly 2 (41 - i))
    gfEval 16 wordPoly c.reverse xinv == 0

/-- The decoder of the word code (R261): its status and the data symbols it gives. Positions 0 and 1 of a received word
are the address symbols, which are not stored and are known. -/
def wordDecode (x8 : Bool) (cwa : Nat) (burst : List Nat) : WordStatus × List Nat :=
  let r := withAddress cwa burst
  let zero := fun (w : List Nat) => (rsSyndromes 16 wordPoly 8 w).all (· == 0)
  let data := burst.take 32
  if zero r then (.clean, data)
  else if zero (withAddress cwa (data ++ (burst.drop 32).map (· ^^^ 0x5A5A))) then (.poisoned, data)
  else if x8 then
    let (c, l) := berlekamp 16 wordPoly (rsSyndromes 16 wordPoly 8 r)
    let at_ := locatedAt c
    if 1 ≤ l ∧ l ≤ 4 ∧ at_.length = l ∧ at_.all (2 ≤ ·) then
      let w := rsErasureFill 16 wordPoly 42 r at_
      if zero w then
        let dev := (at_.headD 2 - 2) / 8
        (.corrected (if at_.all (fun i => (i - 2) / 8 = dev) then dev else 15), (w.drop 2).take 32)
      else (.flagged, data)
    else (.flagged, data)
  else
    let tries := ((List.range 10).map fun d =>
      (d, rsErasureFill 16 wordPoly 42 r [2 + 4 * d, 3 + 4 * d, 4 + 4 * d, 5 + 4 * d])).filter fun t => zero t.2
    match tries with
    | [(d, w)] => (.corrected d, (w.drop 2).take 32)
    | _ => (.flagged, data)

/-- The two parity words of a page from its 64 words, each as 64 bytes (R263). -/
def pageParity (words : List (List Nat)) : List Nat × List Nat :=
  let cols := (List.range 64).map fun u => rsParity 8 0x1D 2 (words.map fun w => w.getD u 0)
  (cols.map fun c => c.getD 0 0, cols.map fun c => c.getD 1 0)

/-- The page code (R264) over 66 words of 64 bytes, given which are erasures: the words it gives, or none where it
cannot recover the page; with no erasure, the position of the one word it corrects. -/
def pageDecode (words : List (List Nat)) (erased : List Nat) : Option (List (List Nat) × Option Nat) :=
  let col := fun u => words.map fun w => w.getD u 0
  if 2 < erased.length then none
  else if erased.length ≠ 0 then
    let cols := (List.range 64).map fun u => rsErasureFill 8 0x1D 66 (col u) erased
    some ((List.range 66).map fun i => cols.map fun c => c.getD i 0, none)
  else
    let syn := (List.range 64).map fun u => rsSyndromes 8 0x1D 2 (col u)
    if syn.all fun s => s.all (· == 0) then some (words, none)
    else
      let fits := fun j => syn.all fun s => s.getD 1 0 == gfMul 8 0x1D (s.getD 0 0) (gfPow 8 0x1D 2 (65 - j))
      match (List.range 66).find? fits with
      | none => none
      | some j =>
        some ((List.range 66).map fun i =>
          if i = j then List.zipWith (fun b s => b ^^^ s.getD 0 0) (words.getD i []) syn else words.getD i [], some j)

end Sys2Proof.Machine
end

