-- ==== Sys2Proof/Machine/Format.lean ====
section
/-! DEFINITION. The media format as arithmetic: zones (R113), the placing of frames (R129), tags (R130), the band
alignment table (R131 to R133), the defect table (R144), and the dealing of sectors (R135, R136). Tables are read
through a reader of bytes at an offset from their base. -/

namespace Sys2Proof.Machine

/-- Symbols per wedge period of zone z (R113). -/
def zNw (z : Nat) : Nat := 97656 - 1072 * z

/-- The servo keep-out of zone z, in symbols: Nw / 14 rounded up (R113). -/
def zK (z : Nat) : Nat := (zNw z + 13) / 14

/-- Sectors per track of zone z (R113). -/
def zS (z : Nat) : Nat := 512 * (zNw z - zK z - 192) / 40448

/-- Stripe groups per band of zone z (R136). -/
def zG (z : Nat) : Nat := (zS z - 8) / 16

/-- Symbols of a frame; of its preamble and sync mark; up to the end of its codeword (R96). -/
def frameLen : Nat := 40448
def frameHead : Nat := 384
def frameCwEnd : Nat := 40320

/-- Where a frame lies, wedges counted from the band's wedge 0: the wedge and symbol at which it starts, the frame symbol
at which the next keep-out cuts it (0: not split), and the wedge and symbol at which the next frame may start (R129). -/
structure FramePos where
  wedge : Nat
  start : Nat
  split : Nat
  endWedge : Nat
  endSym : Nat
  deriving DecidableEq, Repr

/-- Placing one frame from the first free symbol `p` of wedge `w` (R129). DEDUCED (log 46). -/
def placeFrame (z w p : Nat) : FramePos :=
  let nw := zNw z
  let k := zK z
  let o := nw - p
  if o < frameHead then ⟨w + 1, k, 0, w + 1, k + frameLen⟩
  else if o < frameCwEnd then ⟨w, p, o, w + 1, k + 192 + (frameLen - o)⟩
  else if o < frameLen then ⟨w, p, 0, w + 1, k⟩
  else ⟨w, p, 0, w, p + frameLen⟩

/-- Frame n of a track of zone z (R129): frames run back to back from the end of the keep-out of wedge 0. -/
def framePos (z : Nat) : Nat → FramePos
  | 0 => placeFrame z 0 (zK z)
  | n + 1 => let f := framePos z n; placeFrame z f.endWedge f.endSym

/-- Whether a frame's symbols overlap the wedge period w (counted from the band's wedge 0). -/
def frameInWedge (f : FramePos) (w : Nat) : Bool := f.wedge ≤ w && w ≤ f.endWedge

/-- A little-endian number of `n` bytes at an offset. -/
def rdLE (rd : Nat → Byte) (off n : Nat) : Nat := bytesLE ((List.range n).map fun i => rd (off + i))

/-- A number of `n` bits as a signed one. -/
def signed (n v : Nat) : Int := if v < 2 ^ (n - 1) then v else (v : Int) - 2 ^ n

/-- A signed number cut to `n` bits. -/
def unsigned (n : Nat) (v : Int) : Nat := (v % (2 ^ n : Int)).toNat

/-! ### Band alignment table (R131) -/

def batBands (rd : Nat → Byte) : Nat := rdLE rd 4 4
def batReach (rd : Nat → Byte) : Nat := rdLE rd 0x0A 2
def batSkew (rd : Nat → Byte) : Nat := rdLE rd 0x0C 2
def batZoneTracks (rd : Nat → Byte) (z : Nat) : Nat := rdLE rd (0x10 + 4 * z) 4
/-- Offset of the entry of the segment of a band: 256 bands to a segment. -/
def batEntry (band : Nat) : Nat := 0x100 + 32 * (band / 256)
def batOffset (rd : Nat → Byte) (band head : Nat) : Int := signed 16 (rdLE rd (batEntry band + 2 * head) 2)
def batMode (rd : Nat → Byte) (band group : Nat) : Nat := rdLE rd (batEntry band + 16) 1 / 4 ^ group % 4
def batMeasTime (rd : Nat → Byte) (seg : Nat) : Nat := rdLE rd (0x100 + 32 * seg + 20) 4
/-- Entries of the table: one per 256 bands. -/
def batEntries (rd : Nat → Byte) : Nat := (batBands rd + 255) / 256

/-- The zone of a band (R128): zone 0 holds the first ZONE_TRACKS[0] bands, and so on to zone 47. -/
def zoneOf (rd : Nat → Byte) (band : Nat) : Nat :=
  ((List.range 48).foldl (fun (st : Nat × Nat × Bool) z =>
    if st.2.2 then st
    else
      let hi := st.2.1 + batZoneTracks rd z
      if band < hi then (z, hi, true) else (z, hi, false)) (0, 0, false)).1

/-- max(offset) - min(offset) over a list of offsets (R132). -/
def spread (os : List Int) : Int :=
  match os with
  | [] => 0
  | o :: t => t.foldl max o - t.foldl min o

/-- The mode of a group from the offsets of its four heads (R132). -/
def modeOf (reach : Nat) (os : List Int) : Nat :=
  if spread os ≤ 2 * reach then 0
  else if spread (os.take 2) ≤ 2 * reach ∧ spread ((os.drop 2).take 2) ≤ 2 * reach then 1
  else 2

/-- The slot masks of the passes of a mode, in order (R133). -/
def passMasks (mode : Nat) : List Nat :=
  match mode with
  | 0 => [0xF]
  | 1 => [0x3, 0xC]
  | _ => [0x1, 0x2, 0x4, 0x8]

/-- The slots whose bit is set in a mask. -/
def maskSlots (mask : Nat) : List Nat := (List.range 4).filter mask.testBit

/-! ### Defect table (R144) -/

def defPrimary (rd : Nat → Byte) : Nat := rdLE rd 4 4
def defGrown (rd : Nat → Byte) : Nat := rdLE rd 8 4
def defCap (rd : Nat → Byte) : Nat := rdLE rd 12 4

/-- One entry of the defect table. -/
structure Defect where
  band : Nat
  head : Nat
  grown : Bool
  index : Nat
  spare : Nat
  deriving DecidableEq, Repr

/-- Entry e of the table (R144). -/
def defEntry (rd : Nat → Byte) (e : Nat) : Defect :=
  let v := rdLE rd (64 + 8 * e) 8
  ⟨v % 0x1000000, v / 0x1000000 % 8, v.testBit 27, v / 0x100000000 % 0x10000, v / 0x1000000000000 % 0x10000⟩

/-- Every entry of the table. -/
def defEntries (rd : Nat → Byte) : List Defect :=
  (List.range (defPrimary rd + defGrown rd)).map (defEntry rd)

/-- The bytes of an entry (R144). -/
def defBytes (d : Defect) : Nat :=
  d.band + d.head * 0x1000000 + (if d.grown then 0x8000000 else 0) + d.index * 0x100000000 +
    d.spare * 0x1000000000000

/-- The primary defects of a track. -/
def primaryOf (ds : List Defect) (band head : Nat) : List Nat :=
  (ds.filter fun d => !d.grown && d.band == band && d.head == head).map (·.index)

/-- Whether a band is retired for a group (R142): its segment's mode is 3, or a track of the group has more primary
defects than the band has spare sectors. -/
def bandRetired (bat : Nat → Byte) (ds : List Defect) (band group : Nat) : Bool :=
  batMode bat band group == 3 ||
    let z := zoneOf bat band
    (List.range 4).any fun h => decide ((primaryOf ds band (4 * group + h)).length > zS z - 16 * zG z)

/-- The index of the q-th sector, counted from 0, that is not in a list of skipped indices (R136). -/
def slip (skip : List Nat) (q : Nat) : Nat :=
  ((List.range (q + skip.length + 1)).filter fun i => !skip.contains i).getD q 0

/-- The home index of used position q on a head's track (R136). -/
def homeIndex (ds : List Defect) (band head q : Nat) : Nat := slip (primaryOf ds band head) q

/-- The index at which a sector sits: its spare when the grown defect list names it (R136). Of several entries for one home index,
which a second relocation leaves, the last, which is the newest, decides. DEDUCED (log 45). DESIGN CHOICE (log 171). -/
def seatIndex (ds : List Defect) (band head home : Nat) : Nat :=
  match ds.reverse.find? fun d => d.grown && d.band == band && d.head == head && d.index == home with
  | some d => d.spare
  | none => home

/-- Whether a sector sits at a spare. -/
def relocated (ds : List Defect) (band head home : Nat) : Bool :=
  ds.any fun d => d.grown && d.band == band && d.head == head && d.index == home

/-- Used position on its head's track of stripe position i of stripe group k (R136): slot i div 4 of the group, on
head-in-group i mod 4. -/
def usedPos (k i : Nat) : Nat := 16 * k + i / 4

/-- The tag of the sector at stripe position i (R130): BAND, head, actuator, KIND, home index, GEN. -/
def tagBytes (band head act kind home gen : Nat) : List Byte :=
  [band, band / 0x100, band / 0x10000, head + 8 * act + 16 * kind, home, home / 0x100, gen, gen / 0x100].map
    (BitVec.ofNat 8)

/-- KIND of the tag of stripe position i: 3 at a spare, else 1 parity, 2 on a system band, 0 data (R130). -/
def tagKind (band i : Nat) (spare : Bool) : Nat :=
  if spare then 3 else if i ≥ 60 then 1 else if band < 128 then 2 else 0

/-- Data sectors of the bands from `b` on, one band at a time, until `msa` falls in one: band and remainder (R136). -/
def findBand (bat : Nat → Byte) (retired : Nat → Bool) : Nat → Nat → Nat → Option (Nat × Nat)
  | 0, _, _ => none
  | fuel + 1, b, msa =>
    if retired b then findBand bat retired fuel (b + 1) msa
    else
      let n := 60 * zG (zoneOf bat b)
      if msa < n then some (b, msa) else findBand bat retired fuel (b + 1) (msa - n)

/-- The band, stripe group and data position of an MSA of a group (R136). -/
def msaBand (bat dft : Nat → Byte) (group msa : Nat) : Option (Nat × Nat × Nat) :=
  let ds := defEntries dft
  (findBand bat (fun b => bandRetired bat ds b group) (batBands bat - 128) 128 msa).map fun (b, r) =>
    (b, r / 60, r % 60)

/-- The first MSA of a band of a group: the data sectors of every band before it (R135). -/
def bandFirstMsa (bat dft : Nat → Byte) (group band : Nat) : Nat :=
  let ds := defEntries dft
  ((List.range band).filter fun b => decide (128 ≤ b) && !bandRetired bat ds b group).foldl
    (fun acc b => acc + 60 * zG (zoneOf bat b)) 0

/-- Data sectors of a media unit: every band from 128 on that is not retired (R135). -/
def unitSectors (bat dft : Nat → Byte) (group : Nat) : Nat := bandFirstMsa bat dft group (batBands bat)

end Sys2Proof.Machine
end

