-- ==== Sys2Proof/Machine/Fields.lean ====
section
/-! DEFINITION. Where every named register field of the module lies: offset of its word in its block's window
(page number times 0x1000 plus the register's offset), lowest bit and width, as the register tables of the spec
give them (R57 to R499), and the bases of the windows (R66, R71, R72). -/

namespace Sys2Proof.Machine

/-- A field of a 32-bit register word: the word's offset in its block's window, the field's lowest bit and width. -/
structure Fld where
  off : Nat
  lo : Nat
  width : Nat
  deriving DecidableEq, Repr

namespace F
-- R57: page 15 of the host interface
abbrev HIF_MAPID_PART : Fld := ⟨0xF000, 16, 16⟩
abbrev HIF_MAPID_LEVEL : Fld := ⟨0xF000, 8, 8⟩
abbrev HIF_MAPID_HALF : Fld := ⟨0xF000, 0, 8⟩
abbrev HIF_REGIONCFG_REMOTE_WR : Fld := ⟨0xF004, 0, 1⟩
abbrev HIF_REGIONCFG_REMOTE_UP : Fld := ⟨0xF004, 1, 1⟩
abbrev HIF_REGIONCFG_MANTLE_UP : Fld := ⟨0xF004, 2, 1⟩
abbrev HIF_ACCSTAT_STRAY : Fld := ⟨0xF008, 0, 1⟩
abbrev HIF_ACCSTAT_DARK : Fld := ⟨0xF008, 1, 1⟩
abbrev HIF_ACCSTAT_RDONLY : Fld := ⟨0xF008, 2, 1⟩
abbrev HIF_ACCSTAT_PARTIAL : Fld := ⟨0xF008, 3, 1⟩
abbrev HIF_ACCSTAT_REMOTE_FAIL : Fld := ⟨0xF008, 4, 1⟩
abbrev HIF_ACCSTAT_MULTI : Fld := ⟨0xF008, 5, 1⟩
abbrev HIF_ACCADDR_ORIGIN : Fld := ⟨0xF00C, 0, 1⟩
abbrev HIF_ACCADDR_WRITE : Fld := ⟨0xF00C, 1, 1⟩
abbrev HIF_ACCADDR_OFFSET : Fld := ⟨0xF00C, 2, 24⟩
abbrev HIF_ACCCNT_COUNT : Fld := ⟨0xF010, 0, 16⟩
abbrev HIF_SCRATCH_VALUE : Fld := ⟨0xF014, 0, 32⟩
-- R61: page 0 of Coreri
abbrev CRI_SNAP_TAKE : Fld := ⟨0x0, 0, 1⟩
abbrev CRI_SNAP_SEQ_SEQ : Fld := ⟨0x4, 0, 32⟩
abbrev CRI_SNAP_TIME_LO_TIME : Fld := ⟨0x8, 0, 32⟩
abbrev CRI_SNAP_TIME_HI_TIME : Fld := ⟨0xC, 0, 16⟩
-- R88: page 0 of the harness port
abbrev GRZ_PORTCTL_PORT_MODE : Fld := ⟨0x0, 0, 2⟩
abbrev GRZ_PORTCTL_SCLK_FAST : Fld := ⟨0x0, 2, 1⟩
abbrev GRZ_PORTSTAT_PRES0 : Fld := ⟨0x4, 0, 1⟩
abbrev GRZ_PORTSTAT_PRES1 : Fld := ⟨0x4, 1, 1⟩
abbrev GRZ_PORTSTAT_PRESENT : Fld := ⟨0x4, 2, 1⟩
abbrev GRZ_PORTSTAT_QUIET : Fld := ⟨0x4, 3, 1⟩
abbrev GRZ_PORTSTAT_ID_VALID : Fld := ⟨0x4, 4, 1⟩
abbrev GRZ_PORTSTAT_SUP_OK : Fld := ⟨0x4, 5, 1⟩
abbrev GRZ_PORTSTAT_FLT : Fld := ⟨0x4, 6, 2⟩
abbrev GRZ_PORTSTAT_STATE : Fld := ⟨0x4, 8, 3⟩
abbrev GRZ_PORTSTAT_CFG_CHANGED : Fld := ⟨0x4, 11, 1⟩
abbrev GRZ_EVENTS_INSERTED : Fld := ⟨0x8, 0, 1⟩
abbrev GRZ_EVENTS_REMOVED : Fld := ⟨0x8, 1, 1⟩
abbrev GRZ_EVENTS_REMOVED_ACTIVE : Fld := ⟨0x8, 2, 1⟩
abbrev GRZ_EVENTS_PA0_FAULT : Fld := ⟨0x8, 3, 1⟩
abbrev GRZ_EVENTS_PA1_FAULT : Fld := ⟨0x8, 4, 1⟩
abbrev GRZ_EVENTS_ID_CRC_ERR : Fld := ⟨0x8, 5, 1⟩
abbrev GRZ_EVENTS_ID_INCOMPAT : Fld := ⟨0x8, 6, 1⟩
abbrev GRZ_EVENTS_FRAME_ERR : Fld := ⟨0x8, 7, 1⟩
abbrev GRZ_EVENTS_SUP_OVL : Fld := ⟨0x8, 8, 1⟩
abbrev GRZ_GRPSEL_A0_GROUP : Fld := ⟨0xC, 0, 1⟩
abbrev GRZ_GRPSEL_A0_MASK : Fld := ⟨0xC, 4, 4⟩
abbrev GRZ_GRPSEL_A1_GROUP : Fld := ⟨0xC, 8, 1⟩
abbrev GRZ_GRPSEL_A1_MASK : Fld := ⟨0xC, 12, 4⟩
abbrev GRZ_WDCFG_WD_DEEMPH : Fld := ⟨0x10, 0, 4⟩
abbrev GRZ_WDCFG_HARNESS_LOSS : Fld := ⟨0x10, 8, 4⟩
abbrev GRZ_FRMERR_COUNT : Fld := ⟨0x14, 0, 16⟩
-- R90: page 1 of the harness port
abbrev GRZ_PAFRAME_FRAME : Fld := ⟨0x1000, 8, 24⟩
abbrev GRZ_PAGO_ACT0 : Fld := ⟨0x1004, 0, 1⟩
abbrev GRZ_PAGO_ACT1 : Fld := ⟨0x1004, 1, 1⟩
abbrev GRZ_PARESP_DATA : Fld := ⟨0x1008, 0, 16⟩
abbrev GRZ_PARESP_DONE : Fld := ⟨0x1008, 16, 1⟩
abbrev GRZ_PARESP_FAILED : Fld := ⟨0x1008, 17, 1⟩
abbrev GRZ_PAFLTLOG_FAULT0 : Fld := ⟨0x100C, 0, 8⟩
abbrev GRZ_PAFLTLOG_FAULT1 : Fld := ⟨0x100C, 8, 8⟩
-- R121: page 0 of the stream channel
abbrev RCH_CTL_EN : Fld := ⟨0x0, 0, 1⟩
abbrev RCH_CTL_READERS : Fld := ⟨0x0, 1, 2⟩
abbrev RCH_CTL_ADAPT : Fld := ⟨0x0, 3, 1⟩
abbrev RCH_CTL_REALIGN : Fld := ⟨0x0, 4, 1⟩
abbrev RCH_CTL_AUTO_DROP : Fld := ⟨0x0, 5, 1⟩
abbrev RCH_STAT_STATE : Fld := ⟨0x4, 0, 3⟩
abbrev RCH_STAT_LOCK : Fld := ⟨0x4, 3, 1⟩
abbrev RCH_STAT_R0_DROPPED : Fld := ⟨0x4, 4, 1⟩
abbrev RCH_STAT_R1_DROPPED : Fld := ⟨0x4, 5, 1⟩
abbrev RCH_STAT_FROZEN : Fld := ⟨0x4, 6, 1⟩
abbrev RCH_STAT_BUSY : Fld := ⟨0x4, 7, 1⟩
abbrev RCH_STAT_ZONE : Fld := ⟨0x4, 8, 6⟩
abbrev RCH_STAT_RATE_RATIO : Fld := ⟨0x4, 16, 16⟩
abbrev RCH_EVENTS_CFG_CHANGED : Fld := ⟨0x8, 0, 1⟩
abbrev RCH_EVENTS_SM_MISS : Fld := ⟨0x8, 1, 1⟩
abbrev RCH_EVENTS_SM_EARLY : Fld := ⟨0x8, 2, 1⟩
abbrev RCH_EVENTS_ERASED : Fld := ⟨0x8, 3, 1⟩
abbrev RCH_EVENTS_OVERRUN : Fld := ⟨0x8, 4, 1⟩
abbrev RCH_EVENTS_RATE_STEP : Fld := ⟨0x8, 5, 1⟩
abbrev RCH_EVENTS_READER_DROP : Fld := ⟨0x8, 6, 1⟩
abbrev RCH_EVENTS_LOCK_FAIL : Fld := ⟨0x8, 7, 1⟩
abbrev RCH_ITER_OTF_MAX : Fld := ⟨0xC, 0, 5⟩
abbrev RCH_ITER_REC_ROUNDS : Fld := ⟨0xC, 8, 3⟩
abbrev RCH_ITER_VFY_MAX : Fld := ⟨0xC, 16, 5⟩
abbrev RCH_SYNCCFG_WIN : Fld := ⟨0x10, 0, 6⟩
abbrev RCH_SYNCCFG_THRESH : Fld := ⟨0x10, 8, 4⟩
abbrev RCH_SYNCCFG_MAX_HYP : Fld := ⟨0x10, 12, 4⟩
abbrev RCH_SYNCCFG_RS_WIN : Fld := ⟨0x10, 16, 4⟩
abbrev RCH_TLOOP_KP_ACQ : Fld := ⟨0x14, 0, 4⟩
abbrev RCH_TLOOP_KI_ACQ : Fld := ⟨0x14, 4, 4⟩
abbrev RCH_TLOOP_KP_TRK : Fld := ⟨0x14, 8, 4⟩
abbrev RCH_TLOOP_KI_TRK : Fld := ⟨0x14, 12, 4⟩
abbrev RCH_TLOOP_LOCK_TH : Fld := ⟨0x14, 16, 8⟩
abbrev RCH_ADAPT_MU_FIR : Fld := ⟨0x18, 0, 4⟩
abbrev RCH_ADAPT_MU_TGT : Fld := ⟨0x18, 4, 4⟩
abbrev RCH_ADAPT_MU_NP : Fld := ⟨0x18, 8, 4⟩
abbrev RCH_ADAPT_DROP_LVL : Fld := ⟨0x18, 12, 4⟩
abbrev RCH_RATECFG_STEP_MAX : Fld := ⟨0x1C, 0, 10⟩
abbrev RCH_RATECFG_AVG : Fld := ⟨0x1C, 12, 3⟩
abbrev RCH_RECPROF_ROUND1 : Fld := ⟨0x20, 0, 4⟩
abbrev RCH_RECPROF_ROUND2 : Fld := ⟨0x20, 4, 4⟩
abbrev RCH_RECPROF_ROUND3 : Fld := ⟨0x20, 8, 4⟩
abbrev RCH_RECPROF_ROUND4 : Fld := ⟨0x20, 12, 4⟩
abbrev RCH_SMCTL_FREEZE : Fld := ⟨0x24, 0, 1⟩
abbrev RCH_SMCTL_VIEW_SLOT : Fld := ⟨0x24, 2, 2⟩
abbrev RCH_SMCTL_VIEW_SEG : Fld := ⟨0x24, 4, 2⟩
-- R124: page 1 of the stream channel
abbrev RCH_CNT_CLEAN_COUNT : Fld := ⟨0x1000, 0, 32⟩
abbrev RCH_CNT_RESYNC_COUNT : Fld := ⟨0x1004, 0, 32⟩
abbrev RCH_CNT_REALIGN_COUNT : Fld := ⟨0x1008, 0, 32⟩
abbrev RCH_CNT_RECOV_COUNT : Fld := ⟨0x100C, 0, 32⟩
abbrev RCH_CNT_ERASED_COUNT : Fld := ⟨0x1010, 0, 32⟩
abbrev RCH_CNT_SMMISS_COUNT : Fld := ⟨0x1014, 0, 32⟩
abbrev RCH_CNT_SMEARLY_COUNT : Fld := ⟨0x1018, 0, 32⟩
abbrev RCH_CNT_ITER_COUNT : Fld := ⟨0x101C, 0, 32⟩
abbrev RCH_CNT_OVERRUN_COUNT : Fld := ⟨0x1020, 0, 32⟩
abbrev RCH_CNT_RATESTEP_COUNT : Fld := ⟨0x1024, 0, 32⟩
-- R160: page 0 of the formatter
abbrev FMT_CTL_EN : Fld := ⟨0x0, 0, 1⟩
abbrev FMT_CTL_AUTO_RELOC : Fld := ⟨0x0, 1, 1⟩
abbrev FMT_CTL_AUTO_SPLIT : Fld := ⟨0x0, 2, 1⟩
abbrev FMT_CTL_NEIGH_CHK : Fld := ⟨0x0, 3, 1⟩
abbrev FMT_CTL_RD_RETRY : Fld := ⟨0x0, 4, 4⟩
abbrev FMT_CTL_WR_RETRY : Fld := ⟨0x0, 8, 4⟩
abbrev FMT_CTL_VFY_RETRY : Fld := ⟨0x0, 12, 2⟩
abbrev FMT_STAT_STATE : Fld := ⟨0x4, 0, 3⟩
abbrev FMT_STAT_BUSY : Fld := ⟨0x4, 3, 1⟩
abbrev FMT_STAT_MODE : Fld := ⟨0x4, 4, 2⟩
abbrev FMT_STAT_SNUFFED : Fld := ⟨0x4, 6, 1⟩
abbrev FMT_STAT_RWQ_FULL : Fld := ⟨0x4, 7, 1⟩
abbrev FMT_STAT_RWQ_COUNT : Fld := ⟨0x4, 8, 7⟩
abbrev FMT_EVENTS_CFG_CHANGED : Fld := ⟨0x8, 0, 1⟩
abbrev FMT_EVENTS_BAND_SPLIT : Fld := ⟨0x8, 1, 1⟩
abbrev FMT_EVENTS_REBUILT : Fld := ⟨0x8, 2, 1⟩
abbrev FMT_EVENTS_STRIPE_LOST : Fld := ⟨0x8, 3, 1⟩
abbrev FMT_EVENTS_TORN : Fld := ⟨0x8, 4, 1⟩
abbrev FMT_EVENTS_RELOCATED : Fld := ⟨0x8, 5, 1⟩
abbrev FMT_EVENTS_SPARES_LOW : Fld := ⟨0x8, 6, 1⟩
abbrev FMT_EVENTS_VERIFY_FAIL : Fld := ⟨0x8, 7, 1⟩
abbrev FMT_EVENTS_WRITE_FAULT : Fld := ⟨0x8, 8, 1⟩
abbrev FMT_EVENTS_NEIGH_CHECK : Fld := ⟨0x8, 9, 1⟩
abbrev FMT_EVENTS_RWQ_SPILL : Fld := ⟨0x8, 10, 1⟩
abbrev FMT_GEN_GEN : Fld := ⟨0xC, 0, 16⟩
abbrev FMT_BATBASE_LO_ADDR : Fld := ⟨0x10, 0, 32⟩
abbrev FMT_BATBASE_HI_ADDR : Fld := ⟨0x14, 0, 10⟩
abbrev FMT_DEFBASE_LO_ADDR : Fld := ⟨0x18, 0, 32⟩
abbrev FMT_DEFBASE_HI_ADDR : Fld := ⟨0x1C, 0, 10⟩
-- R162: page 1 of the formatter
abbrev FMT_SNFCFG_WF_TH : Fld := ⟨0x1000, 0, 8⟩
abbrev FMT_SNFCFG_SHOCK_TH : Fld := ⟨0x1000, 8, 8⟩
abbrev FMT_SNFCFG_REARM : Fld := ⟨0x1000, 16, 8⟩
abbrev FMT_SNFSTAT_POS : Fld := ⟨0x1004, 0, 1⟩
abbrev FMT_SNFSTAT_SHOCK : Fld := ⟨0x1004, 1, 1⟩
abbrev FMT_SNFSTAT_IMPLAUS : Fld := ⟨0x1004, 2, 1⟩
abbrev FMT_SNFSTAT_OWNER : Fld := ⟨0x1004, 3, 1⟩
abbrev FMT_SNFSTAT_HEAD : Fld := ⟨0x1004, 4, 3⟩
abbrev FMT_SNFSTAT_ARMED : Fld := ⟨0x1004, 7, 1⟩
abbrev FMT_SNFCNT_COUNT : Fld := ⟨0x1008, 0, 16⟩
abbrev FMT_SNFPES_PEAK : Fld := ⟨0x100C, 0, 16⟩
-- R163: page 2 of the formatter
abbrev FMT_CNT_REBUILT_COUNT : Fld := ⟨0x2000, 0, 32⟩
abbrev FMT_CNT_LOST_COUNT : Fld := ⟨0x2004, 0, 32⟩
abbrev FMT_CNT_RETRYREV_COUNT : Fld := ⟨0x2008, 0, 32⟩
abbrev FMT_CNT_SPLIT_COUNT : Fld := ⟨0x200C, 0, 32⟩
abbrev FMT_CNT_VFYFAIL_COUNT : Fld := ⟨0x2010, 0, 32⟩
abbrev FMT_CNT_REWRITE_COUNT : Fld := ⟨0x2014, 0, 32⟩
abbrev FMT_CNT_RELOC_COUNT : Fld := ⟨0x2018, 0, 32⟩
abbrev FMT_CNT_TORN_COUNT : Fld := ⟨0x201C, 0, 32⟩
-- R180: page 0 of the Wick
abbrev WCK_CTL_EN : Fld := ⟨0x0, 0, 1⟩
abbrev WCK_CTL_RESTART : Fld := ⟨0x0, 1, 1⟩
abbrev WCK_CTL_TRACE : Fld := ⟨0x0, 2, 1⟩
abbrev WCK_STAT_STATE : Fld := ⟨0x4, 0, 2⟩
abbrev WCK_STAT_BUSY : Fld := ⟨0x4, 2, 1⟩
abbrev WCK_STAT_PC : Fld := ⟨0x4, 3, 15⟩
abbrev WCK_STAT_DEPTH : Fld := ⟨0x4, 18, 4⟩
abbrev WCK_STAT_LAST_ABORT : Fld := ⟨0x4, 22, 3⟩
abbrev WCK_EVENTS_CFG_CHANGED : Fld := ⟨0x8, 0, 1⟩
abbrev WCK_EVENTS_FAULT : Fld := ⟨0x8, 1, 1⟩
abbrev WCK_EVENTS_LATE_EDGE : Fld := ⟨0x8, 2, 1⟩
abbrev WCK_EVENTS_GATE_HOLD : Fld := ⟨0x8, 3, 1⟩
abbrev WCK_EVENTS_SECT_LATE : Fld := ⟨0x8, 4, 1⟩
abbrev WCK_EVENTS_PATCHED : Fld := ⟨0x8, 5, 1⟩
abbrev WCK_FAULT_CAUSE : Fld := ⟨0xC, 0, 3⟩
abbrev WCK_FAULT_PC : Fld := ⟨0xC, 3, 15⟩
abbrev WCK_FAULTWORD_WORD : Fld := ⟨0x10, 0, 32⟩
abbrev WCK_ID_ROM_ID : Fld := ⟨0x14, 0, 16⟩
abbrev WCK_ID_PATCH_LEVEL : Fld := ⟨0x14, 16, 16⟩
abbrev WCK_SGCFG_SG_ON : Fld := ⟨0x18, 0, 16⟩
abbrev WCK_SGCFG_SG_OFF : Fld := ⟨0x18, 16, 16⟩
abbrev WCK_OPCNT_COUNT : Fld := ⟨0x1C, 0, 32⟩
-- R211: page 0 of the servo engine
abbrev SRV_CTL_EN : Fld := ⟨0x0, 0, 1⟩
abbrev SRV_CTL_RV_EN : Fld := ⟨0x0, 1, 1⟩
abbrev SRV_CTL_CAL_EN : Fld := ⟨0x0, 2, 1⟩
abbrev SRV_CTL_CMD : Fld := ⟨0x0, 3, 2⟩
abbrev SRV_STAT_STATE : Fld := ⟨0x4, 0, 3⟩
abbrev SRV_STAT_BUSY : Fld := ⟨0x4, 3, 1⟩
abbrev SRV_STAT_ON_TRACK : Fld := ⟨0x4, 4, 1⟩
abbrev SRV_STAT_IMPL_RUN : Fld := ⟨0x4, 5, 3⟩
abbrev SRV_STAT_PASS_MASK : Fld := ⟨0x4, 8, 4⟩
abbrev SRV_STAT_GROUP : Fld := ⟨0x4, 12, 1⟩
abbrev SRV_STAT_CAL_ACTIVE : Fld := ⟨0x4, 13, 1⟩
abbrev SRV_EVENTS_CFG_CHANGED : Fld := ⟨0x8, 0, 1⟩
abbrev SRV_EVENTS_IMPLAUS : Fld := ⟨0x8, 1, 1⟩
abbrev SRV_EVENTS_MISSING : Fld := ⟨0x8, 2, 1⟩
abbrev SRV_EVENTS_RETRACT : Fld := ⟨0x8, 3, 1⟩
abbrev SRV_EVENTS_REACH_ALARM : Fld := ⟨0x8, 4, 1⟩
abbrev SRV_EVENTS_SEEK_FAIL : Fld := ⟨0x8, 5, 1⟩
abbrev SRV_EVENTS_SPEED_LOW : Fld := ⟨0x8, 6, 1⟩
abbrev SRV_EVENTS_RETRACT_TMO : Fld := ⟨0x8, 7, 1⟩
abbrev SRV_EVENTS_LOAD_FAIL : Fld := ⟨0x8, 8, 1⟩
abbrev SRV_EVENTS_OWNER_LOST : Fld := ⟨0x8, 9, 1⟩
abbrev SRV_EVENTS_CAL_DONE : Fld := ⟨0x8, 10, 1⟩
abbrev SRV_TARGET_BAND : Fld := ⟨0xC, 0, 24⟩
abbrev SRV_WEDGE_INDEX : Fld := ⟨0x10, 0, 9⟩
abbrev SRV_WEDGE_PERIOD : Fld := ⟨0x10, 16, 16⟩
abbrev SRV_VCMOUT_I_CMD : Fld := ⟨0x14, 0, 16⟩
abbrev SRV_VCMOUT_VEL : Fld := ⟨0x14, 16, 16⟩
abbrev SRV_RETCFG_RET_VEL : Fld := ⟨0x18, 0, 8⟩
abbrev SRV_RETCFG_LOAD_VEL : Fld := ⟨0x18, 8, 8⟩
abbrev SRV_RETCFG_RET_TMO : Fld := ⟨0x18, 16, 16⟩
abbrev SRV_RETCAUSE_CAUSE : Fld := ⟨0x1C, 0, 3⟩
-- R212: page 1 of the servo engine
abbrev SRV_FOLCFG_PLAUS_TH : Fld := ⟨0x1000, 0, 8⟩
abbrev SRV_FOLCFG_SETTLE_TH : Fld := ⟨0x1000, 8, 8⟩
abbrev SRV_FOLCFG_SETTLE_CNT : Fld := ⟨0x1000, 16, 8⟩
abbrev SRV_FOLCFG_REACH_CNT : Fld := ⟨0x1000, 24, 8⟩
abbrev SRV_SEEKCFG_PLAUS_SEEK : Fld := ⟨0x1004, 0, 8⟩
abbrev SRV_SEEKCFG_HANDOVER : Fld := ⟨0x1004, 8, 8⟩
abbrev SRV_SEEKCFG_SEEK_TMO : Fld := ⟨0x1004, 16, 16⟩
abbrev SRV_IMAX_I_MAX : Fld := ⟨0x1008, 0, 16⟩
abbrev SRV_IMAX_I_SEEK : Fld := ⟨0x1008, 16, 16⟩
abbrev SRV_VMAX_V_MAX : Fld := ⟨0x100C, 0, 16⟩
abbrev SRV_WEIGHT_W : Fld := ⟨0x1010, 0, 32⟩
abbrev SRV_MAGAIN_MA_GAIN : Fld := ⟨0x1014, 0, 16⟩
abbrev SRV_MAGAIN_MA_VMAX : Fld := ⟨0x1014, 16, 16⟩
abbrev SRV_PLANT_KT : Fld := ⟨0x1018, 0, 16⟩
abbrev SRV_RVGAIN_RV_GAIN : Fld := ⟨0x101C, 0, 16⟩
abbrev SRV_RVGAIN_ALPHA : Fld := ⟨0x101C, 16, 16⟩
-- R213: page 2 of the servo engine
abbrev SRV_CALCFG_CAL_INT : Fld := ⟨0x2000, 0, 16⟩
abbrev SRV_CALCFG_CAL_DTEMP : Fld := ⟨0x2000, 16, 4⟩
abbrev SRV_CALCFG_CAL_REVS : Fld := ⟨0x2000, 20, 4⟩
abbrev SRV_CALSTAT_SEG : Fld := ⟨0x2004, 0, 12⟩
abbrev SRV_CALSTAT_SWEEP : Fld := ⟨0x2004, 12, 1⟩
abbrev SRV_CALSTAT_SWEEPS : Fld := ⟨0x2004, 16, 16⟩
abbrev SRV_CALCMD_SWEEP : Fld := ⟨0x2008, 0, 1⟩
abbrev SRV_CALCMD_ONE : Fld := ⟨0x2008, 1, 1⟩
abbrev SRV_CALCMD_SEG : Fld := ⟨0x2008, 16, 12⟩
abbrev SRV_CALTEMP_CAL_TEMP_LAST : Fld := ⟨0x200C, 0, 8⟩
abbrev SRV_CALTEMP_TEMP_NOW : Fld := ⟨0x200C, 8, 8⟩
-- R215: page 4 of the servo engine
abbrev SRV_CNT_REPLACED_COUNT : Fld := ⟨0x4000, 0, 32⟩
abbrev SRV_CNT_MISSING_COUNT : Fld := ⟨0x4004, 0, 32⟩
abbrev SRV_CNT_RETRACT_COUNT : Fld := ⟨0x4008, 0, 32⟩
abbrev SRV_CNT_SEEK_COUNT : Fld := ⟨0x400C, 0, 32⟩
abbrev SRV_CNT_SEEKFAIL_COUNT : Fld := ⟨0x4010, 0, 32⟩
abbrev SRV_CNT_CORR_COUNT : Fld := ⟨0x4014, 0, 32⟩
abbrev SRV_CNT_REACH_COUNT : Fld := ⟨0x4018, 0, 32⟩
abbrev SRV_CNT_CALSEG_COUNT : Fld := ⟨0x401C, 0, 32⟩
-- R246: page 0 of the spindle engine
abbrev SPN_CTL_EN : Fld := ⟨0x0, 0, 1⟩
abbrev SPN_CTL_CMD : Fld := ⟨0x0, 1, 2⟩
abbrev SPN_CTL_EMBER : Fld := ⟨0x0, 3, 1⟩
abbrev SPN_STAT_STATE : Fld := ⟨0x4, 0, 4⟩
abbrev SPN_STAT_BUSY : Fld := ⟨0x4, 4, 1⟩
abbrev SPN_STAT_AT_SPEED : Fld := ⟨0x4, 5, 1⟩
abbrev SPN_STAT_FW_ACTIVE : Fld := ⟨0x4, 6, 1⟩
abbrev SPN_STAT_KE_CAP : Fld := ⟨0x4, 7, 1⟩
abbrev SPN_STAT_HOLD_WR : Fld := ⟨0x4, 8, 1⟩
abbrev SPN_STAT_CATCH_TRY : Fld := ⟨0x4, 9, 2⟩
abbrev SPN_EVENTS_CFG_CHANGED : Fld := ⟨0x8, 0, 1⟩
abbrev SPN_EVENTS_START_DONE : Fld := ⟨0x8, 1, 1⟩
abbrev SPN_EVENTS_ALIGN_FAIL : Fld := ⟨0x8, 2, 1⟩
abbrev SPN_EVENTS_START_FAIL : Fld := ⟨0x8, 3, 1⟩
abbrev SPN_EVENTS_ROTOR_LOST : Fld := ⟨0x8, 4, 1⟩
abbrev SPN_EVENTS_CATCH_OK : Fld := ⟨0x8, 5, 1⟩
abbrev SPN_EVENTS_SPINDLE_FAIL : Fld := ⟨0x8, 6, 1⟩
abbrev SPN_EVENTS_KE_WARN : Fld := ⟨0x8, 7, 1⟩
abbrev SPN_EVENTS_KE_FAULT : Fld := ⟨0x8, 8, 1⟩
abbrev SPN_EVENTS_FW_LIMIT : Fld := ⟨0x8, 9, 1⟩
abbrev SPN_EVENTS_SKIP_RUN : Fld := ⟨0x8, 10, 1⟩
abbrev SPN_EVENTS_LADDER : Fld := ⟨0x8, 11, 1⟩
abbrev SPN_TARGET_EMBER_RPM : Fld := ⟨0xC, 0, 13⟩
abbrev SPN_TARGET_TARGET : Fld := ⟨0xC, 16, 13⟩
abbrev SPN_SPEED_RPM : Fld := ⟨0x10, 0, 20⟩
abbrev SPN_SLEW_SLEW_FREE : Fld := ⟨0x14, 0, 16⟩
abbrev SPN_KE_KE_CORR : Fld := ⟨0x18, 0, 16⟩
abbrev SPN_KE_KE_DEV : Fld := ⟨0x18, 16, 16⟩
abbrev SPN_ID_ID_MEAS : Fld := ⟨0x1C, 0, 16⟩
abbrev SPN_ID_ADV : Fld := ⟨0x1C, 16, 8⟩
-- R248: page 1 of the spindle engine
abbrev SPN_COMCFG_SOFT : Fld := ⟨0x1000, 0, 8⟩
abbrev SPN_COMCFG_BLANK : Fld := ⟨0x1000, 8, 8⟩
abbrev SPN_COMCFG_ADV_MAX : Fld := ⟨0x1000, 16, 8⟩
abbrev SPN_FWCFG_ID_TGT : Fld := ⟨0x1004, 0, 9⟩
abbrev SPN_FWCFG_DUTY_ON : Fld := ⟨0x1004, 16, 8⟩
abbrev SPN_FWCFG_DUTY_OFF : Fld := ⟨0x1004, 24, 8⟩
abbrev SPN_ILIM_I_RUN : Fld := ⟨0x1008, 0, 16⟩
abbrev SPN_ILIM_I_ACCEL : Fld := ⟨0x1008, 16, 16⟩
abbrev SPN_SPDLOOP_KP : Fld := ⟨0x100C, 0, 8⟩
abbrev SPN_SPDLOOP_KI : Fld := ⟨0x100C, 8, 8⟩
abbrev SPN_KECFG_KE_INT : Fld := ⟨0x1010, 0, 16⟩
abbrev SPN_KEREF_KE_REF : Fld := ⟨0x1014, 0, 16⟩
abbrev SPN_PARKRPM_PARK_RPM : Fld := ⟨0x1018, 0, 13⟩
abbrev SPN_BRKCFG_BRK_I : Fld := ⟨0x101C, 0, 16⟩
abbrev SPN_BRKCFG_STOP_RPM : Fld := ⟨0x101C, 16, 16⟩
-- R249: page 2 of the spindle engine
abbrev SPN_TAPCFG_I_ALIGN : Fld := ⟨0x2000, 0, 8⟩
abbrev SPN_TAPCFG_T_ALIGN1 : Fld := ⟨0x2000, 8, 8⟩
abbrev SPN_TAPCFG_T_ALIGN2 : Fld := ⟨0x2000, 16, 8⟩
abbrev SPN_TAPCFG_FORCE_INDUCT : Fld := ⟨0x2000, 24, 1⟩
abbrev SPN_TAPRAMP_RAMP_T : Fld := ⟨0x2004, 0, 16⟩
abbrev SPN_INDCFG_PULSE_US : Fld := ⟨0x2008, 0, 8⟩
abbrev SPN_INDCFG_I_PULSE_LIM : Fld := ⟨0x2008, 8, 8⟩
abbrev SPN_TAPSTAT_ATTEMPT : Fld := ⟨0x200C, 0, 2⟩
abbrev SPN_TAPSTAT_METHOD : Fld := ⟨0x200C, 2, 1⟩
abbrev SPN_TAPSTAT_SECTOR : Fld := ⟨0x200C, 3, 3⟩
abbrev SPN_TAPSTAT_LAST_MS : Fld := ⟨0x200C, 16, 16⟩
-- R250: page 3 of the spindle engine
abbrev SPN_CNT_START_COUNT : Fld := ⟨0x3000, 0, 32⟩
abbrev SPN_CNT_ALIGNFAIL_COUNT : Fld := ⟨0x3004, 0, 32⟩
abbrev SPN_CNT_LOST_COUNT : Fld := ⟨0x3008, 0, 32⟩
abbrev SPN_CNT_CATCH_COUNT : Fld := ⟨0x300C, 0, 32⟩
abbrev SPN_CNT_SKIP_COUNT : Fld := ⟨0x3010, 0, 32⟩
abbrev SPN_CNT_KEMEAS_COUNT : Fld := ⟨0x3014, 0, 32⟩
abbrev SPN_CNT_FWREV_COUNT : Fld := ⟨0x3018, 0, 32⟩
abbrev SPN_CNT_BRAKE_COUNT : Fld := ⟨0x301C, 0, 32⟩
-- R252: page 0 of the motor die
abbrev MOT_BUSV_VBUS : Fld := ⟨0x0, 0, 16⟩
abbrev MOT_BUSP_PMOT : Fld := ⟨0x4, 0, 16⟩
abbrev MOT_LADDER_STEP : Fld := ⟨0x8, 0, 2⟩
abbrev MOT_LADDER_CHOP_FAILED : Fld := ⟨0x8, 2, 1⟩
abbrev MOT_LADDER_CHOP_HOT : Fld := ⟨0x8, 3, 1⟩
abbrev MOT_LADDER_FEED_OPEN : Fld := ⟨0x8, 4, 1⟩
abbrev MOT_LADDER_FAILKIND : Fld := ⟨0x8, 5, 2⟩
abbrev MOT_LADDER_SEEK_LIMIT : Fld := ⟨0x8, 7, 1⟩
abbrev MOT_SLOTS_TAPER : Fld := ⟨0xC, 0, 8⟩
abbrev MOT_SLOTS_BRAKE : Fld := ⟨0xC, 8, 8⟩
abbrev MOT_SLOTS_WAIT : Fld := ⟨0xC, 16, 8⟩
abbrev MOT_BUDGET_BUDGET : Fld := ⟨0x10, 0, 16⟩
abbrev MOT_BUDGET_TAPER_P : Fld := ⟨0x10, 16, 16⟩
abbrev MOT_EVENTS_STEP1 : Fld := ⟨0x14, 0, 1⟩
abbrev MOT_EVENTS_STEP2 : Fld := ⟨0x14, 1, 1⟩
abbrev MOT_EVENTS_STEP3 : Fld := ⟨0x14, 2, 1⟩
abbrev MOT_EVENTS_CHOP_FAIL : Fld := ⟨0x14, 3, 1⟩
abbrev MOT_EVENTS_CHOP_HOT : Fld := ⟨0x14, 4, 1⟩
abbrev MOT_EVENTS_OVER_BUDGET : Fld := ⟨0x14, 5, 1⟩
abbrev MOT_EVENTS_BRIDGE_OCP : Fld := ⟨0x14, 6, 1⟩
abbrev MOT_BUSPEAK_VPEAK : Fld := ⟨0x18, 0, 16⟩
abbrev MOT_CHOPE_ENERGY : Fld := ⟨0x1C, 0, 32⟩
-- R283: page 0 of the Reservoir
abbrev BUF_CHSTAT_PRESENT : Fld := ⟨0x0, 0, 1⟩
abbrev BUF_CHSTAT_TRAINED : Fld := ⟨0x0, 1, 1⟩
abbrev BUF_CHSTAT_RATE : Fld := ⟨0x0, 2, 2⟩
abbrev BUF_CHSTAT_RANKS : Fld := ⟨0x0, 4, 1⟩
abbrev BUF_CHSTAT_WIDTH : Fld := ⟨0x0, 5, 1⟩
abbrev BUF_CHSTAT_CAP : Fld := ⟨0x0, 8, 9⟩
abbrev BUF_CHSTAT_HOT : Fld := ⟨0x0, 17, 1⟩
abbrev BUF_CHGEOM_ROWS : Fld := ⟨0x4, 0, 18⟩
abbrev BUF_CHEVENTS_TRAIN_FAIL : Fld := ⟨0x8, 0, 1⟩
abbrev BUF_CHEVENTS_SWITCH_TRIP : Fld := ⟨0x8, 1, 1⟩
abbrev BUF_CHEVENTS_HOT : Fld := ⟨0x8, 2, 1⟩
abbrev BUF_CHEVENTS_CE : Fld := ⟨0x8, 3, 1⟩
abbrev BUF_CHEVENTS_UE : Fld := ⟨0x8, 4, 1⟩
abbrev BUF_CHEVENTS_POISON : Fld := ⟨0x8, 5, 1⟩
abbrev BUF_CHTEMP_TEMP : Fld := ⟨0xC, 0, 8⟩
abbrev BUF_CHTEMP_PEAK : Fld := ⟨0xC, 8, 8⟩
-- R284: page 1 of the Reservoir
abbrev BUF_CNT_CE_RANK0_COUNT : Fld := ⟨0x1000, 0, 32⟩
abbrev BUF_CNT_CE_RANK1_COUNT : Fld := ⟨0x1004, 0, 32⟩
abbrev BUF_CNT_PAGE_FIX_COUNT : Fld := ⟨0x1008, 0, 32⟩
abbrev BUF_CNT_UE_COUNT : Fld := ⟨0x100C, 0, 32⟩
abbrev BUF_CNT_POISON_READ_COUNT : Fld := ⟨0x1010, 0, 32⟩
abbrev BUF_CNT_RMW_COUNT : Fld := ⟨0x1014, 0, 32⟩
abbrev BUF_CNT_WRITEBACK_COUNT : Fld := ⟨0x1018, 0, 32⟩
abbrev BUF_CNT_ZERO_FILL_COUNT : Fld := ⟨0x101C, 0, 32⟩
-- R285: page 2 of the Reservoir
abbrev BUF_CTL_RATE_CAP : Fld := ⟨0x2000, 0, 2⟩
abbrev BUF_CTL_SCRUB_EN : Fld := ⟨0x2000, 2, 1⟩
abbrev BUF_CTL_BANK_SPARE : Fld := ⟨0x2000, 3, 1⟩
abbrev BUF_CTL_DEMAND_WB : Fld := ⟨0x2000, 4, 1⟩
abbrev BUF_CTL_MERGE_IDLE : Fld := ⟨0x2000, 8, 8⟩
abbrev BUF_STAT_STATE : Fld := ⟨0x2004, 0, 3⟩
abbrev BUF_STAT_RATE : Fld := ⟨0x2004, 3, 2⟩
abbrev BUF_STAT_BUSY : Fld := ⟨0x2004, 5, 1⟩
abbrev BUF_STAT_PART_VALID : Fld := ⟨0x2004, 6, 1⟩
abbrev BUF_STAT_SPARING : Fld := ⟨0x2004, 7, 1⟩
abbrev BUF_STAT_MERGE_USED : Fld := ⟨0x2004, 8, 8⟩
abbrev BUF_STAT_FILLS : Fld := ⟨0x2004, 16, 5⟩
abbrev BUF_EVENTS_CFG_CHANGED : Fld := ⟨0x2008, 0, 1⟩
abbrev BUF_EVENTS_CE : Fld := ⟨0x2008, 1, 1⟩
abbrev BUF_EVENTS_UE : Fld := ⟨0x2008, 2, 1⟩
abbrev BUF_EVENTS_POISON : Fld := ⟨0x2008, 3, 1⟩
abbrev BUF_EVENTS_LOG_OVERWRITE : Fld := ⟨0x2008, 4, 1⟩
abbrev BUF_EVENTS_PART_OVERLAP : Fld := ⟨0x2008, 5, 1⟩
abbrev BUF_EVENTS_BITMAP_ERR : Fld := ⟨0x2008, 6, 1⟩
abbrev BUF_EVENTS_TRAIN_DOWN : Fld := ⟨0x2008, 7, 1⟩
abbrev BUF_EVENTS_OFFLINE : Fld := ⟨0x2008, 8, 1⟩
abbrev BUF_EVENTS_RETIRE_DONE : Fld := ⟨0x2008, 9, 1⟩
abbrev BUF_EVENTS_RETIRE_REJ : Fld := ⟨0x2008, 10, 1⟩
abbrev BUF_EVENTS_SCRUB_PASS : Fld := ⟨0x2008, 11, 1⟩
abbrev BUF_EVENTS_QUOTA_TRUNC : Fld := ⟨0x2008, 12, 1⟩
abbrev BUF_SCRUBCFG_PERIOD : Fld := ⟨0x200C, 0, 8⟩
abbrev BUF_SCRUBSTAT_CP : Fld := ⟨0x2010, 0, 26⟩
abbrev BUF_SCRUBSTAT_PASSES : Fld := ⟨0x2010, 26, 6⟩
abbrev BUF_PART_PINNED_BASE : Fld := ⟨0x2014, 0, 16⟩
abbrev BUF_PART_PINNED_SIZE : Fld := ⟨0x2014, 16, 16⟩
abbrev BUF_PART_SEGMENT_BASE : Fld := ⟨0x2018, 0, 16⟩
abbrev BUF_PART_SEGMENT_SIZE : Fld := ⟨0x2018, 16, 16⟩
abbrev BUF_PART_STAGING_BASE : Fld := ⟨0x201C, 0, 16⟩
abbrev BUF_PART_STAGING_SIZE : Fld := ⟨0x201C, 16, 16⟩
abbrev BUF_PART_SYSTEM_BASE : Fld := ⟨0x2020, 0, 16⟩
abbrev BUF_PART_SYSTEM_SIZE : Fld := ⟨0x2020, 16, 16⟩
abbrev BUF_PART_SPARE_BASE : Fld := ⟨0x2024, 0, 16⟩
abbrev BUF_PART_SPARE_SIZE : Fld := ⟨0x2024, 16, 16⟩
abbrev BUF_STQ01_Q0 : Fld := ⟨0x2028, 0, 16⟩
abbrev BUF_STQ01_Q1 : Fld := ⟨0x2028, 16, 16⟩
abbrev BUF_STQ23_Q2 : Fld := ⟨0x202C, 0, 16⟩
abbrev BUF_STQ23_Q3 : Fld := ⟨0x202C, 16, 16⟩
abbrev BUF_RELBASE_REGION : Fld := ⟨0x2030, 0, 25⟩
abbrev BUF_RELCNT_COUNT : Fld := ⟨0x2034, 0, 26⟩
abbrev BUF_RELCNT_GO : Fld := ⟨0x2034, 31, 1⟩
abbrev BUF_DATATOP_TOP : Fld := ⟨0x2038, 0, 16⟩
abbrev BUF_TOUCHED_COUNT : Fld := ⟨0x203C, 0, 26⟩
-- R286: page 3 of the Reservoir
abbrev BUF_RETFROM_FROM : Fld := ⟨0x3000, 0, 29⟩
abbrev BUF_RETCMD_KIND : Fld := ⟨0x3004, 0, 2⟩
abbrev BUF_RETCMD_GO : Fld := ⟨0x3004, 31, 1⟩
abbrev BUF_RETSTAT_STATE : Fld := ⟨0x3008, 0, 2⟩
abbrev BUF_RETSTAT_REASON : Fld := ⟨0x3008, 2, 4⟩
abbrev BUF_RETSTAT_SLOT : Fld := ⟨0x3008, 6, 12⟩
abbrev BUF_RETSTAT_POISONED : Fld := ⟨0x3008, 18, 14⟩
abbrev BUF_LOGCTL_CLEAR : Fld := ⟨0x300C, 0, 1⟩
abbrev BUF_LOGCTL_USED : Fld := ⟨0x300C, 8, 7⟩
abbrev BUF_BANKSPARE0_BANK : Fld := ⟨0x3010, 0, 9⟩
abbrev BUF_BANKSPARE0_ACTIVE : Fld := ⟨0x3010, 9, 1⟩
abbrev BUF_BANKSPARE0_COPYING : Fld := ⟨0x3010, 10, 1⟩
abbrev BUF_BANKSPARE1_BANK : Fld := ⟨0x3014, 0, 9⟩
abbrev BUF_BANKSPARE1_ACTIVE : Fld := ⟨0x3014, 9, 1⟩
abbrev BUF_BANKSPARE1_COPYING : Fld := ⟨0x3014, 10, 1⟩
abbrev BUF_BANKSPARE2_BANK : Fld := ⟨0x3018, 0, 9⟩
abbrev BUF_BANKSPARE2_ACTIVE : Fld := ⟨0x3018, 9, 1⟩
abbrev BUF_BANKSPARE2_COPYING : Fld := ⟨0x3018, 10, 1⟩
abbrev BUF_BANKSPARE3_BANK : Fld := ⟨0x301C, 0, 9⟩
abbrev BUF_BANKSPARE3_ACTIVE : Fld := ⟨0x301C, 9, 1⟩
abbrev BUF_BANKSPARE3_COPYING : Fld := ⟨0x301C, 10, 1⟩
abbrev BUF_BANKSPARE4_BANK : Fld := ⟨0x3020, 0, 9⟩
abbrev BUF_BANKSPARE4_ACTIVE : Fld := ⟨0x3020, 9, 1⟩
abbrev BUF_BANKSPARE4_COPYING : Fld := ⟨0x3020, 10, 1⟩
abbrev BUF_BANKSPARE5_BANK : Fld := ⟨0x3024, 0, 9⟩
abbrev BUF_BANKSPARE5_ACTIVE : Fld := ⟨0x3024, 9, 1⟩
abbrev BUF_BANKSPARE5_COPYING : Fld := ⟨0x3024, 10, 1⟩
abbrev BUF_BANKSPARE6_BANK : Fld := ⟨0x3028, 0, 9⟩
abbrev BUF_BANKSPARE6_ACTIVE : Fld := ⟨0x3028, 9, 1⟩
abbrev BUF_BANKSPARE6_COPYING : Fld := ⟨0x3028, 10, 1⟩
abbrev BUF_BANKSPARE7_BANK : Fld := ⟨0x302C, 0, 9⟩
abbrev BUF_BANKSPARE7_ACTIVE : Fld := ⟨0x302C, 9, 1⟩
abbrev BUF_BANKSPARE7_COPYING : Fld := ⟨0x302C, 10, 1⟩
abbrev BUF_BANKPROG_ROW : Fld := ⟨0x3030, 0, 18⟩
abbrev BUF_BANKPROG_SLOT : Fld := ⟨0x3030, 18, 3⟩
abbrev BUF_REMAPCNT_COUNT : Fld := ⟨0x3034, 0, 13⟩
-- R312: page 0 of the cache
abbrev BCA_CTL_MODE : Fld := ⟨0x0, 0, 2⟩
abbrev BCA_CTL_FILL_GRAN : Fld := ⟨0x0, 2, 2⟩
abbrev BCA_STAT_MODE_NOW : Fld := ⟨0x4, 0, 2⟩
abbrev BCA_STAT_BUSY : Fld := ⟨0x4, 2, 1⟩
abbrev BCA_STAT_MREG_USED : Fld := ⟨0x4, 3, 10⟩
abbrev BCA_EVENTS_CFG_CHANGED : Fld := ⟨0x8, 0, 1⟩
abbrev BCA_EVENTS_RECOVERY_ENTERED : Fld := ⟨0x8, 1, 1⟩
abbrev BCA_EVENTS_TAG_ERR : Fld := ⟨0x8, 2, 1⟩
abbrev BCA_EVENTS_DATA_CE : Fld := ⟨0x8, 3, 1⟩
abbrev BCA_EVENTS_DATA_UE : Fld := ⟨0x8, 4, 1⟩
abbrev BCA_EVENTS_LOCK_FAIL : Fld := ⟨0x8, 5, 1⟩
abbrev BCA_EVENTS_FILL_UE : Fld := ⟨0x8, 6, 1⟩
abbrev BCA_EVENTS_WAY_OFF_DONE : Fld := ⟨0x8, 7, 1⟩
abbrev BCA_EVENTS_WAY_ON_DONE : Fld := ⟨0x8, 8, 1⟩
abbrev BCA_ALLOC_PINNED : Fld := ⟨0xC, 0, 2⟩
abbrev BCA_ALLOC_SEGMENT : Fld := ⟨0xC, 2, 2⟩
abbrev BCA_ALLOC_STAGING : Fld := ⟨0xC, 4, 2⟩
abbrev BCA_ALLOC_SYSTEM : Fld := ⟨0xC, 6, 2⟩
abbrev BCA_WAYPWR_OFF_REQ : Fld := ⟨0x10, 0, 8⟩
abbrev BCA_WAYSTAT_OFF : Fld := ⟨0x14, 0, 8⟩
abbrev BCA_WAYSTAT_WALKING : Fld := ⟨0x14, 8, 8⟩
abbrev BCA_WAYSTAT_WAKING : Fld := ⟨0x14, 16, 8⟩
abbrev BCA_LOCKCNT_LOCKED : Fld := ⟨0x18, 0, 12⟩
abbrev BCA_ERRADDR_SET : Fld := ⟨0x1C, 0, 10⟩
abbrev BCA_ERRADDR_WAY : Fld := ⟨0x1C, 10, 4⟩
abbrev BCA_ERRADDR_SUB : Fld := ⟨0x1C, 14, 6⟩
abbrev BCA_ERRADDR_TAG : Fld := ⟨0x1C, 20, 1⟩
-- R314: page 1 of the cache
abbrev BCA_MBASE_PAGE : Fld := ⟨0x1000, 0, 29⟩
abbrev BCA_MCOUNT_COUNT : Fld := ⟨0x1004, 0, 29⟩
abbrev BCA_MCMD_OP : Fld := ⟨0x1008, 0, 3⟩
abbrev BCA_MCMD_RANGE : Fld := ⟨0x1008, 3, 1⟩
abbrev BCA_MCMD_ALL : Fld := ⟨0x1008, 4, 1⟩
abbrev BCA_MCMD_INCL_LOCKED : Fld := ⟨0x1008, 5, 1⟩
abbrev BCA_MCMD_GO : Fld := ⟨0x1008, 31, 1⟩
abbrev BCA_MSTAT_STATE : Fld := ⟨0x100C, 0, 2⟩
abbrev BCA_MSTAT_REASON : Fld := ⟨0x100C, 2, 2⟩
abbrev BCA_MSTAT_OP : Fld := ⟨0x100C, 4, 3⟩
abbrev BCA_MSKIP_SKIPPED : Fld := ⟨0x1010, 0, 12⟩
abbrev BCA_MSKIP_FAILED : Fld := ⟨0x1010, 16, 12⟩
abbrev BCA_MDONE_LINES : Fld := ⟨0x1014, 0, 15⟩
abbrev BCA_MPROG_AT : Fld := ⟨0x1018, 0, 29⟩
-- R315: page 2 of the cache
abbrev BCA_CNT_HIT_COUNT : Fld := ⟨0x2000, 0, 32⟩
abbrev BCA_CNT_MISS_COUNT : Fld := ⟨0x2004, 0, 32⟩
abbrev BCA_CNT_SECONDARY_COUNT : Fld := ⟨0x2008, 0, 32⟩
abbrev BCA_CNT_MREG_WAIT_COUNT : Fld := ⟨0x200C, 0, 32⟩
abbrev BCA_CNT_WB_LINES_COUNT : Fld := ⟨0x2010, 0, 32⟩
abbrev BCA_CNT_WB_FULLPAGE_COUNT : Fld := ⟨0x2014, 0, 32⟩
abbrev BCA_CNT_RESTRICT_WAIT_COUNT : Fld := ⟨0x2018, 0, 32⟩
abbrev BCA_CNT_SRAM_CE_COUNT : Fld := ⟨0x201C, 0, 32⟩
-- R366: page 0 of the host interface
abbrev HIF_CTL_EN : Fld := ⟨0x0, 0, 1⟩
abbrev HIF_STAT_LINK : Fld := ⟨0x4, 0, 2⟩
abbrev HIF_STAT_SPEED : Fld := ⟨0x4, 2, 2⟩
abbrev HIF_STAT_FLIT : Fld := ⟨0x4, 4, 1⟩
abbrev HIF_STAT_WIDTH : Fld := ⟨0x4, 5, 1⟩
abbrev HIF_STAT_BUSY : Fld := ⟨0x4, 6, 1⟩
abbrev HIF_STAT_FAILOVER : Fld := ⟨0x4, 7, 1⟩
abbrev HIF_STAT_PEER_UP : Fld := ⟨0x4, 8, 1⟩
abbrev HIF_EVENTS_CFG_CHANGED : Fld := ⟨0x8, 0, 1⟩
abbrev HIF_EVENTS_SURPRISE_REMOVAL : Fld := ⟨0x8, 1, 1⟩
abbrev HIF_EVENTS_RING_ERR : Fld := ⟨0x8, 2, 1⟩
abbrev HIF_EVENTS_OVERCOMMIT : Fld := ⟨0x8, 3, 1⟩
abbrev HIF_EVENTS_PAYLOAD_TMO : Fld := ⟨0x8, 4, 1⟩
abbrev HIF_EVENTS_LATE_CPL : Fld := ⟨0x8, 5, 1⟩
abbrev HIF_EVENTS_LOST_OVF : Fld := ⟨0x8, 6, 1⟩
abbrev HIF_EVENTS_LINK_DOWN : Fld := ⟨0x8, 7, 1⟩
abbrev HIF_EVENTS_SPEED_DOWN : Fld := ⟨0x8, 8, 1⟩
abbrev HIF_INFLIGHT_HELD : Fld := ⟨0xC, 0, 14⟩
abbrev HIF_INFLIGHT_WAITING : Fld := ⟨0xC, 16, 14⟩
abbrev HIF_RINGERR_RING : Fld := ⟨0x10, 0, 8⟩
abbrev HIF_RINGERR_CQ : Fld := ⟨0x10, 8, 1⟩
abbrev HIF_RINGERR_CAUSE : Fld := ⟨0x10, 9, 3⟩
abbrev HIF_RINGERR_VALID : Fld := ⟨0x10, 31, 1⟩
abbrev HIF_LOSTCNT_COUNT : Fld := ⟨0x14, 0, 16⟩
abbrev HIF_LOSTCNT_OVF : Fld := ⟨0x14, 16, 1⟩
abbrev HIF_LOSTCNT_CLEAR : Fld := ⟨0x14, 31, 1⟩
abbrev HIF_THROTTLE_THR_PORT : Fld := ⟨0x18, 0, 14⟩
abbrev HIF_CAP_MAX_HELD : Fld := ⟨0x1C, 0, 16⟩
abbrev HIF_CAP_MAX_SECT : Fld := ⟨0x1C, 16, 16⟩
-- R368: page 1 of the host interface
abbrev HIF_CNT_DONE_COUNT : Fld := ⟨0x1000, 0, 32⟩
abbrev HIF_CNT_ERR_COUNT : Fld := ⟨0x1004, 0, 32⟩
abbrev HIF_CNT_THROTTLED_COUNT : Fld := ⟨0x1008, 0, 32⟩
abbrev HIF_CNT_PAYTMO_COUNT : Fld := ⟨0x100C, 0, 32⟩
abbrev HIF_CNT_LATE_COUNT : Fld := ⟨0x1010, 0, 32⟩
abbrev HIF_CNT_OVERCOMMIT_COUNT : Fld := ⟨0x1014, 0, 32⟩
abbrev HIF_CNT_LOST_COUNT : Fld := ⟨0x1018, 0, 32⟩
abbrev HIF_CNT_HALFLINK_COUNT : Fld := ⟨0x101C, 0, 32⟩
-- R389: page 0 of the service DMA
abbrev SDM_CTL_EN : Fld := ⟨0x0, 0, 1⟩
abbrev SDM_STAT_CH_NOW : Fld := ⟨0x4, 0, 2⟩
abbrev SDM_STAT_BUSY : Fld := ⟨0x4, 2, 1⟩
abbrev SDM_STAT_PENDING : Fld := ⟨0x4, 4, 4⟩
abbrev SDM_STAT_HALTED : Fld := ⟨0x4, 8, 4⟩
abbrev SDM_EVENTS_CFG_CHANGED : Fld := ⟨0x8, 0, 1⟩
abbrev SDM_EVENTS_ERROR : Fld := ⟨0x8, 1, 1⟩
abbrev SDM_EVENTS_HOST_TMO : Fld := ⟨0x8, 2, 1⟩
abbrev SDM_EVENTS_LATE_CPL : Fld := ⟨0x8, 3, 1⟩
abbrev SDM_EVENTS_CQ_FULL : Fld := ⟨0x8, 4, 1⟩
abbrev SDM_ERRINFO_CH : Fld := ⟨0xC, 0, 2⟩
abbrev SDM_ERRINFO_STATUS : Fld := ⟨0xC, 8, 8⟩
abbrev SDM_ERRINFO_INDEX : Fld := ⟨0xC, 16, 10⟩
abbrev SDM_CNT_DESC_COUNT : Fld := ⟨0x10, 0, 32⟩
abbrev SDM_CNT_ERR_COUNT : Fld := ⟨0x14, 0, 32⟩
abbrev SDM_CNT_KIB_COUNT : Fld := ⟨0x18, 0, 32⟩
abbrev SDM_CNT_LATE_COUNT : Fld := ⟨0x1C, 0, 32⟩
-- R390: page 1 of the service DMA
abbrev SDM_DRBASE_LO_ADDR : Fld := ⟨0x1000, 0, 32⟩
abbrev SDM_DRBASE_HI_ADDR : Fld := ⟨0x1004, 0, 32⟩
abbrev SDM_CQBASE_LO_ADDR : Fld := ⟨0x1008, 0, 32⟩
abbrev SDM_CQBASE_HI_ADDR : Fld := ⟨0x100C, 0, 32⟩
abbrev SDM_CHCFG_DDEPTH : Fld := ⟨0x1010, 0, 11⟩
abbrev SDM_CHCFG_DSPACE : Fld := ⟨0x1010, 11, 1⟩
abbrev SDM_CHCFG_CDEPTH : Fld := ⟨0x1010, 16, 11⟩
abbrev SDM_CHCFG_CSPACE : Fld := ⟨0x1010, 27, 1⟩
abbrev SDM_CHCTL_EN : Fld := ⟨0x1014, 0, 1⟩
abbrev SDM_CHCTL_RESUME : Fld := ⟨0x1014, 1, 1⟩
abbrev SDM_CHCTL_STATE : Fld := ⟨0x1014, 2, 2⟩
abbrev SDM_CHCTL_IEN : Fld := ⟨0x1014, 4, 1⟩
abbrev SDM_CHCTL_VECTOR : Fld := ⟨0x1014, 16, 9⟩
abbrev SDM_DRTAIL_TAIL : Fld := ⟨0x1018, 0, 10⟩
abbrev SDM_DRTAIL_HEAD : Fld := ⟨0x1018, 16, 10⟩
abbrev SDM_CQHEAD_HEAD : Fld := ⟨0x101C, 0, 10⟩
abbrev SDM_CQHEAD_POST : Fld := ⟨0x101C, 16, 10⟩
-- R419: page 0 of Mantle
abbrev MNT_ID_ROM_ID : Fld := ⟨0x0, 0, 16⟩
abbrev MNT_ID_PATCH_LEVEL : Fld := ⟨0x0, 16, 16⟩
abbrev MNT_STRAP_CODE : Fld := ⟨0x4, 0, 4⟩
abbrev MNT_STRAP_LATCHED : Fld := ⟨0x4, 4, 1⟩
abbrev MNT_STRAP_LID : Fld := ⟨0x4, 5, 1⟩
abbrev MNT_STRAP_MISMATCH : Fld := ⟨0x4, 6, 1⟩
abbrev MNT_STRAP_UNSTABLE : Fld := ⟨0x4, 7, 1⟩
abbrev MNT_STRAP_FAILSETS : Fld := ⟨0x4, 8, 8⟩
abbrev MNT_OWN_OWNER : Fld := ⟨0x8, 0, 16⟩
abbrev MNT_MISS_MISS : Fld := ⟨0xC, 0, 16⟩
abbrev MNT_MISS_POLL : Fld := ⟨0xC, 16, 8⟩
abbrev MNT_LASTCAUSE_CAUSE : Fld := ⟨0x10, 0, 3⟩
abbrev MNT_LASTCAUSE_HDA : Fld := ⟨0x10, 3, 3⟩
abbrev MNT_LASTCAUSE_HALF : Fld := ⟨0x10, 6, 1⟩
abbrev MNT_DISAGREE_A_MASK : Fld := ⟨0x14, 0, 8⟩
abbrev MNT_DISAGREE_B_MASK : Fld := ⟨0x14, 8, 8⟩
abbrev MNT_LOADED_LOADED : Fld := ⟨0x18, 0, 16⟩
abbrev MNT_RETACT_ACTIVE : Fld := ⟨0x1C, 0, 16⟩
-- R420: page 1 of Mantle
abbrev MNT_RETSTAT_RETDONE : Fld := ⟨0x1000, 0, 16⟩
abbrev MNT_RETSTAT_RETTMO : Fld := ⟨0x1000, 16, 16⟩
abbrev MNT_RETCFG_VEL : Fld := ⟨0x1004, 0, 8⟩
abbrev MNT_RETCFG_LATCH_MA : Fld := ⟨0x1004, 8, 8⟩
abbrev MNT_RETCFG_TMO : Fld := ⟨0x1004, 16, 16⟩
abbrev MNT_WDCFG_PERIOD_A : Fld := ⟨0x1008, 0, 16⟩
abbrev MNT_WDCFG_PERIOD_B : Fld := ⟨0x1008, 16, 16⟩
abbrev MNT_WDSTAT_STATE_A : Fld := ⟨0x100C, 0, 2⟩
abbrev MNT_WDSTAT_STATE_B : Fld := ⟨0x100C, 2, 2⟩
abbrev MNT_WDSTAT_NEXTKEY_A : Fld := ⟨0x100C, 4, 1⟩
abbrev MNT_WDSTAT_NEXTKEY_B : Fld := ⟨0x100C, 5, 1⟩
abbrev MNT_WDSTAT_WARN_A : Fld := ⟨0x100C, 16, 8⟩
abbrev MNT_WDSTAT_WARN_B : Fld := ⟨0x100C, 24, 8⟩
abbrev MNT_CNT_REVOKE_COUNT : Fld := ⟨0x1010, 0, 32⟩
abbrev MNT_CNT_DISAGREE_COUNT : Fld := ⟨0x1014, 0, 32⟩
abbrev MNT_CNT_RETRACT_COUNT : Fld := ⟨0x1018, 0, 32⟩
abbrev MNT_CNT_WDEXP_COUNT : Fld := ⟨0x101C, 0, 32⟩
-- R421: page 2 of Mantle
abbrev MNT_FWSLOT_FIRST : Fld := ⟨0x2000, 0, 1⟩
abbrev MNT_FWSLOT_RUN_A : Fld := ⟨0x2000, 1, 1⟩
abbrev MNT_FWSLOT_RUN_B : Fld := ⟨0x2000, 2, 1⟩
abbrev MNT_FWSLOT_VALID0 : Fld := ⟨0x2000, 3, 1⟩
abbrev MNT_FWSLOT_VALID1 : Fld := ⟨0x2000, 4, 1⟩
abbrev MNT_FWSLOT_NEXT_A : Fld := ⟨0x2000, 5, 1⟩
abbrev MNT_FWSLOT_NEXT_B : Fld := ⟨0x2000, 6, 1⟩
abbrev MNT_FWSVN0_SVN : Fld := ⟨0x2004, 0, 32⟩
abbrev MNT_FWSVN1_SVN : Fld := ⟨0x2008, 0, 32⟩
abbrev MNT_SVNMIN_FW : Fld := ⟨0x200C, 0, 8⟩
abbrev MNT_SVNMIN_MANTLE : Fld := ⟨0x200C, 8, 8⟩
abbrev MNT_SVNMIN_WICK : Fld := ⟨0x200C, 16, 8⟩
abbrev MNT_KEYS_REVOKED : Fld := ⟨0x2010, 0, 4⟩
abbrev MNT_KEYS_LAST : Fld := ⟨0x2010, 4, 2⟩
abbrev MNT_INTAKE_STATE : Fld := ⟨0x2014, 0, 2⟩
abbrev MNT_INTAKE_TYPE : Fld := ⟨0x2014, 2, 2⟩
abbrev MNT_INTAKE_LEN : Fld := ⟨0x2014, 8, 21⟩
abbrev MNT_LASTREJ_DETAIL : Fld := ⟨0x2018, 0, 4⟩
abbrev MNT_LASTREJ_TYPE : Fld := ⟨0x2018, 4, 2⟩
abbrev MNT_LASTREJ_HALF : Fld := ⟨0x2018, 6, 1⟩
abbrev MNT_CNT_IMAGE_ACCEPTED : Fld := ⟨0x201C, 0, 16⟩
abbrev MNT_CNT_IMAGE_REJECTED : Fld := ⟨0x201C, 16, 16⟩
-- R422: page 0 of the request mailbox
abbrev MNT_MBARG0_ARG0 : Fld := ⟨0x0, 0, 32⟩
abbrev MNT_MBARG1_ARG1 : Fld := ⟨0x4, 0, 32⟩
abbrev MNT_MBREQ_OP : Fld := ⟨0x8, 0, 8⟩
abbrev MNT_MBREQ_SEQ : Fld := ⟨0x8, 8, 4⟩
abbrev MNT_MBREQ_GO : Fld := ⟨0x8, 31, 1⟩
abbrev MNT_MBRESP_STATUS : Fld := ⟨0xC, 0, 8⟩
abbrev MNT_MBRESP_SEQ : Fld := ⟨0xC, 8, 4⟩
abbrev MNT_MBRESP_DONE : Fld := ⟨0xC, 12, 1⟩
abbrev MNT_MBRESP_RESULT : Fld := ⟨0xC, 16, 16⟩
abbrev MNT_POLL_POLL : Fld := ⟨0x10, 0, 8⟩
abbrev MNT_POLL_NOT_OWNED : Fld := ⟨0x10, 8, 8⟩
abbrev MNT_POLL_OWNED : Fld := ⟨0x10, 16, 8⟩
abbrev MNT_LEASE_HELD : Fld := ⟨0x14, 0, 8⟩
abbrev MNT_LEASE_ECHO : Fld := ⟨0x14, 8, 8⟩
abbrev MNT_WDKICK_KEY : Fld := ⟨0x18, 0, 16⟩
abbrev MNT_MBEVENTS_POLL : Fld := ⟨0x1C, 0, 1⟩
abbrev MNT_MBEVENTS_RESP_DONE : Fld := ⟨0x1C, 1, 1⟩
abbrev MNT_MBEVENTS_REVOKED : Fld := ⟨0x1C, 2, 1⟩
abbrev MNT_MBEVENTS_DISAGREE : Fld := ⟨0x1C, 3, 1⟩
abbrev MNT_MBEVENTS_LATE_LEASE : Fld := ⟨0x1C, 4, 1⟩
abbrev MNT_MBEVENTS_WD_WARN : Fld := ⟨0x1C, 5, 1⟩
abbrev MNT_MBEVENTS_RETRACT_END : Fld := ⟨0x1C, 6, 1⟩
abbrev MNT_MBEVENTS_MB_OVERRUN : Fld := ⟨0x1C, 7, 1⟩
abbrev MNT_MBEVENTS_RESTARTED : Fld := ⟨0x1C, 8, 1⟩
-- R443: page 0 of Lamplighter
abbrev LMP_CAUSE_SOURCE : Fld := ⟨0x0, 0, 4⟩
abbrev LMP_CAUSE_SUB : Fld := ⟨0x0, 4, 4⟩
abbrev LMP_CAUSE_TARGET : Fld := ⟨0x0, 8, 8⟩
abbrev LMP_CAUSE_MULTI : Fld := ⟨0x0, 16, 1⟩
abbrev LMP_CAUSETIME_LO_TIME : Fld := ⟨0x4, 0, 32⟩
abbrev LMP_CAUSETIME_HI_TIME : Fld := ⟨0x8, 0, 16⟩
abbrev LMP_ASSERTED_SOURCES : Fld := ⟨0xC, 0, 8⟩
abbrev LMP_ASSERTED_HALF : Fld := ⟨0xC, 8, 2⟩
abbrev LMP_ASSERTED_PORT : Fld := ⟨0xC, 10, 2⟩
abbrev LMP_ASSERTED_HDA : Fld := ⟨0xC, 12, 8⟩
abbrev LMP_STAT_STATE_A : Fld := ⟨0x10, 0, 2⟩
abbrev LMP_STAT_STATE_B : Fld := ⟨0x10, 2, 2⟩
abbrev LMP_STAT_MOTOR_A : Fld := ⟨0x10, 4, 1⟩
abbrev LMP_STAT_MOTOR_B : Fld := ⟨0x10, 5, 1⟩
abbrev LMP_STAT_HOLD : Fld := ⟨0x10, 6, 2⟩
abbrev LMP_CNT0_MAIN_BO : Fld := ⟨0x14, 0, 8⟩
abbrev LMP_CNT0_MRST : Fld := ⟨0x14, 8, 8⟩
abbrev LMP_CNT0_HALF_A : Fld := ⟨0x14, 16, 8⟩
abbrev LMP_CNT0_HALF_B : Fld := ⟨0x14, 24, 8⟩
abbrev LMP_CNT1_PORT_A : Fld := ⟨0x18, 0, 8⟩
abbrev LMP_CNT1_PORT_B : Fld := ⟨0x18, 8, 8⟩
abbrev LMP_CNT1_HDA : Fld := ⟨0x18, 16, 8⟩
abbrev LMP_CNT1_BLOCK : Fld := ⟨0x18, 24, 8⟩
abbrev LMP_COVERED_COUNT : Fld := ⟨0x1C, 0, 16⟩
-- R444: page 15 of the power domains
abbrev LMP_REQ_KIND : Fld := ⟨0xF000, 0, 2⟩
abbrev LMP_REQ_TARGET : Fld := ⟨0xF000, 2, 8⟩
abbrev LMP_REQ_KEY : Fld := ⟨0xF000, 16, 8⟩
abbrev LMP_REQ_GO : Fld := ⟨0xF000, 31, 1⟩
abbrev LMP_REQSTAT_STATE : Fld := ⟨0xF004, 0, 2⟩
abbrev LMP_REQSTAT_REASON : Fld := ⟨0xF004, 2, 3⟩
abbrev LMP_CONFIG_CONFIGURED : Fld := ⟨0xF008, 0, 1⟩
abbrev LMP_HELD_HDA : Fld := ⟨0xF00C, 0, 4⟩
abbrev LMP_HELD_WCK : Fld := ⟨0xF00C, 4, 8⟩
abbrev LMP_HELD_SDM : Fld := ⟨0xF00C, 12, 1⟩
abbrev LMP_HELD_PORT : Fld := ⟨0xF00C, 13, 1⟩
abbrev LMP_RCHHELD_RCH : Fld := ⟨0xF010, 0, 32⟩
-- R463: page 0 of the power domains
abbrev PWR_STATE0_STATE : Fld := ⟨0x0, 0, 32⟩
abbrev PWR_STATE1_STATE : Fld := ⟨0x4, 0, 20⟩
abbrev PWR_EVENTS_CFG_CHANGED : Fld := ⟨0x8, 0, 1⟩
abbrev PWR_EVENTS_REFUSED : Fld := ⟨0x8, 1, 1⟩
abbrev PWR_EVENTS_LATE_WAKE : Fld := ⟨0x8, 2, 1⟩
abbrev PWR_EVENTS_RAIL_FAULT : Fld := ⟨0x8, 3, 1⟩
abbrev PWR_EVENTS_METER_OVER : Fld := ⟨0x8, 4, 1⟩
abbrev PWR_REFUSE_DOMAIN : Fld := ⟨0xC, 0, 5⟩
abbrev PWR_REFUSE_REASON : Fld := ⟨0xC, 5, 3⟩
abbrev PWR_RAIL_GOOD : Fld := ⟨0x10, 0, 6⟩
abbrev PWR_RAIL_FAULT : Fld := ⟨0x10, 8, 6⟩
abbrev PWR_HALFP_MEAN : Fld := ⟨0x14, 0, 16⟩
abbrev PWR_CNT_WAKE_COUNT : Fld := ⟨0x18, 0, 32⟩
abbrev PWR_CNT_LATE_COUNT : Fld := ⟨0x1C, 0, 32⟩
-- R465: page 0 of the clocks
abbrev CLK_RUN_RUN : Fld := ⟨0x0, 0, 22⟩
abbrev CLK_LOCK_LOCK : Fld := ⟨0x4, 0, 22⟩
abbrev CLK_EVENTS_CFG_CHANGED : Fld := ⟨0x8, 0, 1⟩
abbrev CLK_EVENTS_UNLOCK : Fld := ⟨0x8, 1, 1⟩
abbrev CLK_EVENTS_REF_FAIL : Fld := ⟨0x8, 2, 1⟩
abbrev CLK_EVENTS_PCIE_REF_LOST : Fld := ⟨0x8, 3, 1⟩
abbrev CLK_EVENTS_GLIM_FAIL : Fld := ⟨0x8, 4, 1⟩
abbrev CLK_REFCFG_PCIE_REF : Fld := ⟨0xC, 0, 2⟩
abbrev CLK_REFCFG_CABLE : Fld := ⟨0xC, 2, 1⟩
abbrev CLK_TIME_LO_TIME : Fld := ⟨0x10, 0, 32⟩
abbrev CLK_TIME_HI_TIME : Fld := ⟨0x14, 0, 16⟩
abbrev CLK_CNT_UNLOCK_COUNT : Fld := ⟨0x18, 0, 16⟩
abbrev CLK_REFPPM_PPM : Fld := ⟨0x1C, 0, 16⟩
-- R489: page 0 of Chimney
abbrev CHM_CTL_IRQ_EN : Fld := ⟨0x0, 0, 1⟩
abbrev CHM_CTL_RESET_EN : Fld := ⟨0x0, 1, 1⟩
abbrev CHM_STAT_OPEN : Fld := ⟨0x4, 0, 7⟩
abbrev CHM_STAT_BUSY : Fld := ⟨0x4, 7, 1⟩
abbrev CHM_STAT_FIFO : Fld := ⟨0x4, 8, 9⟩
abbrev CHM_STAT_NEWEST : Fld := ⟨0x4, 17, 6⟩
abbrev CHM_EVENTS_CFG_CHANGED : Fld := ⟨0x8, 0, 1⟩
abbrev CHM_EVENTS_REC_OVF : Fld := ⟨0x8, 1, 1⟩
abbrev CHM_EVENTS_FIFO_OVF : Fld := ⟨0x8, 2, 1⟩
abbrev CHM_EVENTS_BAD_MSG : Fld := ⟨0x8, 3, 1⟩
abbrev CHM_EVENTS_SEVERE : Fld := ⟨0x8, 4, 1⟩
abbrev CHM_CLOSE_INDEX : Fld := ⟨0xC, 0, 6⟩
abbrev CHM_CLOSE_GO : Fld := ⟨0xC, 31, 1⟩
abbrev CHM_RAISE_LO_INSTANCE : Fld := ⟨0x10, 0, 5⟩
abbrev CHM_RAISE_LO_KIND : Fld := ⟨0x10, 10, 6⟩
abbrev CHM_RAISE_LO_HINT_LO : Fld := ⟨0x10, 16, 16⟩
abbrev CHM_RAISE_HI_HINT_HI : Fld := ⟨0x14, 0, 23⟩
abbrev CHM_OPEN_LO_OPEN : Fld := ⟨0x18, 0, 32⟩
abbrev CHM_OPEN_HI_OPEN : Fld := ⟨0x1C, 0, 32⟩
-- R494: page 0 of the event recorder
abbrev EVT_STAT_NEXT : Fld := ⟨0x0, 0, 12⟩
abbrev EVT_STAT_PERM_FULL : Fld := ⟨0x0, 12, 1⟩
abbrev EVT_STAT_WRAPPED : Fld := ⟨0x0, 13, 1⟩
abbrev EVT_STAT_QUEUE : Fld := ⟨0x0, 16, 6⟩
abbrev EVT_LAST_INDEX : Fld := ⟨0x4, 0, 12⟩
abbrev EVT_OLDEST_INDEX : Fld := ⟨0x8, 0, 12⟩
abbrev EVT_SEQ_SEQ : Fld := ⟨0xC, 0, 32⟩
abbrev EVT_CNT_REPEAT_COUNT : Fld := ⟨0x10, 0, 32⟩
abbrev EVT_CNT_OVERWRITE_COUNT : Fld := ⟨0x14, 0, 32⟩
abbrev EVT_CNT_DROP_COUNT : Fld := ⟨0x18, 0, 32⟩
-- R494: page 1 of the event recorder
abbrev EVT_MFSTAT_OPEN : Fld := ⟨0x1000, 0, 5⟩
abbrev EVT_MFSTAT_SLED : Fld := ⟨0x1000, 8, 1⟩
abbrev EVT_MFSTAT_HOLD : Fld := ⟨0x1000, 9, 1⟩
abbrev EVT_MFSTAT_UNREC : Fld := ⟨0x1000, 10, 1⟩
abbrev EVT_MFSTAT_RETTMO : Fld := ⟨0x1000, 11, 1⟩
abbrev EVT_MFOPEN_OPEN : Fld := ⟨0x1004, 0, 16⟩
abbrev EVT_MFCNT_MSGS : Fld := ⟨0x1008, 0, 16⟩
abbrev EVT_MFCNT_NOREC : Fld := ⟨0x1008, 16, 16⟩
-- R496: page 0 of the wear lamps
abbrev WLP_CTL_EN : Fld := ⟨0x0, 0, 1⟩
abbrev WLP_CTL_SAMPLE_H : Fld := ⟨0x0, 8, 8⟩
abbrev WLP_STAT_WATCH : Fld := ⟨0x4, 0, 8⟩
abbrev WLP_STAT_LIT : Fld := ⟨0x4, 8, 8⟩
abbrev WLP_STAT_END : Fld := ⟨0x4, 16, 8⟩
abbrev WLP_EVENTS_CFG_CHANGED : Fld := ⟨0x8, 0, 1⟩
abbrev WLP_EVENTS_LIT : Fld := ⟨0x8, 1, 1⟩
abbrev WLP_EVENTS_END : Fld := ⟨0x8, 2, 1⟩
abbrev WLP_EVENTS_SAMPLE : Fld := ⟨0x8, 3, 1⟩
abbrev WLP_WORST_INDEX : Fld := ⟨0xC, 0, 8⟩
abbrev WLP_WORST_DAYS : Fld := ⟨0xC, 16, 16⟩
abbrev WLP_LIFE_WATCH_DAYS : Fld := ⟨0x10, 0, 16⟩
abbrev WLP_LIFE_LIT_DAYS : Fld := ⟨0x10, 16, 16⟩
abbrev WLP_MINCONF_MIN_CONF : Fld := ⟨0x14, 0, 7⟩
abbrev WLP_FEED_INDEX : Fld := ⟨0x18, 0, 8⟩
abbrev WLP_FEED_POWER : Fld := ⟨0x18, 16, 16⟩
abbrev WLP_NEXT_SECONDS : Fld := ⟨0x1C, 0, 32⟩
-- R499: page 1 of Coreri
abbrev CRI_TRCCFG_CHM : Fld := ⟨0x1000, 0, 1⟩
abbrev CRI_TRCCFG_EVT : Fld := ⟨0x1000, 1, 1⟩
abbrev CRI_TRCCFG_SRV : Fld := ⟨0x1000, 8, 8⟩
abbrev CRI_TRCSTAT_LANES_UP : Fld := ⟨0x1004, 0, 1⟩
abbrev CRI_TRCSTAT_BUSY : Fld := ⟨0x1004, 1, 1⟩
abbrev CRI_TRCLOSS_COUNT : Fld := ⟨0x1008, 0, 32⟩
abbrev CRI_TRCTS_TS : Fld := ⟨0x100C, 0, 24⟩
-- R181: page 1 of the Wick
abbrev WCK_MATCH0_ADDR : Fld := ⟨0x1000, 0, 15⟩
abbrev WCK_MATCH0_TARGET : Fld := ⟨0x1000, 16, 9⟩
abbrev WCK_MATCH0_EN : Fld := ⟨0x1000, 31, 1⟩
abbrev WCK_MATCH1_ADDR : Fld := ⟨0x1004, 0, 15⟩
abbrev WCK_MATCH1_TARGET : Fld := ⟨0x1004, 16, 9⟩
abbrev WCK_MATCH1_EN : Fld := ⟨0x1004, 31, 1⟩
abbrev WCK_MATCH2_ADDR : Fld := ⟨0x1008, 0, 15⟩
abbrev WCK_MATCH2_TARGET : Fld := ⟨0x1008, 16, 9⟩
abbrev WCK_MATCH2_EN : Fld := ⟨0x1008, 31, 1⟩
abbrev WCK_MATCH3_ADDR : Fld := ⟨0x100C, 0, 15⟩
abbrev WCK_MATCH3_TARGET : Fld := ⟨0x100C, 16, 9⟩
abbrev WCK_MATCH3_EN : Fld := ⟨0x100C, 31, 1⟩
abbrev WCK_MATCH4_ADDR : Fld := ⟨0x1010, 0, 15⟩
abbrev WCK_MATCH4_TARGET : Fld := ⟨0x1010, 16, 9⟩
abbrev WCK_MATCH4_EN : Fld := ⟨0x1010, 31, 1⟩
abbrev WCK_MATCH5_ADDR : Fld := ⟨0x1014, 0, 15⟩
abbrev WCK_MATCH5_TARGET : Fld := ⟨0x1014, 16, 9⟩
abbrev WCK_MATCH5_EN : Fld := ⟨0x1014, 31, 1⟩
abbrev WCK_MATCH6_ADDR : Fld := ⟨0x1018, 0, 15⟩
abbrev WCK_MATCH6_TARGET : Fld := ⟨0x1018, 16, 9⟩
abbrev WCK_MATCH6_EN : Fld := ⟨0x1018, 31, 1⟩
abbrev WCK_MATCH7_ADDR : Fld := ⟨0x101C, 0, 15⟩
abbrev WCK_MATCH7_TARGET : Fld := ⟨0x101C, 16, 9⟩
abbrev WCK_MATCH7_EN : Fld := ⟨0x101C, 31, 1⟩
abbrev WCK_MATCH8_ADDR : Fld := ⟨0x1020, 0, 15⟩
abbrev WCK_MATCH8_TARGET : Fld := ⟨0x1020, 16, 9⟩
abbrev WCK_MATCH8_EN : Fld := ⟨0x1020, 31, 1⟩
abbrev WCK_MATCH9_ADDR : Fld := ⟨0x1024, 0, 15⟩
abbrev WCK_MATCH9_TARGET : Fld := ⟨0x1024, 16, 9⟩
abbrev WCK_MATCH9_EN : Fld := ⟨0x1024, 31, 1⟩
abbrev WCK_MATCH10_ADDR : Fld := ⟨0x1028, 0, 15⟩
abbrev WCK_MATCH10_TARGET : Fld := ⟨0x1028, 16, 9⟩
abbrev WCK_MATCH10_EN : Fld := ⟨0x1028, 31, 1⟩
abbrev WCK_MATCH11_ADDR : Fld := ⟨0x102C, 0, 15⟩
abbrev WCK_MATCH11_TARGET : Fld := ⟨0x102C, 16, 9⟩
abbrev WCK_MATCH11_EN : Fld := ⟨0x102C, 31, 1⟩
abbrev WCK_MATCH12_ADDR : Fld := ⟨0x1030, 0, 15⟩
abbrev WCK_MATCH12_TARGET : Fld := ⟨0x1030, 16, 9⟩
abbrev WCK_MATCH12_EN : Fld := ⟨0x1030, 31, 1⟩
abbrev WCK_MATCH13_ADDR : Fld := ⟨0x1034, 0, 15⟩
abbrev WCK_MATCH13_TARGET : Fld := ⟨0x1034, 16, 9⟩
abbrev WCK_MATCH13_EN : Fld := ⟨0x1034, 31, 1⟩
abbrev WCK_MATCH14_ADDR : Fld := ⟨0x1038, 0, 15⟩
abbrev WCK_MATCH14_TARGET : Fld := ⟨0x1038, 16, 9⟩
abbrev WCK_MATCH14_EN : Fld := ⟨0x1038, 31, 1⟩
abbrev WCK_MATCH15_ADDR : Fld := ⟨0x103C, 0, 15⟩
abbrev WCK_MATCH15_TARGET : Fld := ⟨0x103C, 16, 9⟩
abbrev WCK_MATCH15_EN : Fld := ⟨0x103C, 31, 1⟩
-- R253: page 1 of the motor die
abbrev MOT_BRG0_SPN_MODE : Fld := ⟨0x1000, 0, 2⟩
abbrev MOT_BRG0_VCM0_MODE : Fld := ⟨0x1000, 2, 2⟩
abbrev MOT_BRG0_VCM1_MODE : Fld := ⟨0x1000, 4, 2⟩
abbrev MOT_BRG0_OWN_BLOCK : Fld := ⟨0x1000, 6, 1⟩
abbrev MOT_BRG0_OCP : Fld := ⟨0x1000, 7, 1⟩
abbrev MOT_BRG0_TEMP : Fld := ⟨0x1000, 8, 8⟩
abbrev MOT_BRG0_RDSON : Fld := ⟨0x1000, 16, 16⟩
abbrev MOT_BRG1_SPN_MODE : Fld := ⟨0x1004, 0, 2⟩
abbrev MOT_BRG1_VCM0_MODE : Fld := ⟨0x1004, 2, 2⟩
abbrev MOT_BRG1_VCM1_MODE : Fld := ⟨0x1004, 4, 2⟩
abbrev MOT_BRG1_OWN_BLOCK : Fld := ⟨0x1004, 6, 1⟩
abbrev MOT_BRG1_OCP : Fld := ⟨0x1004, 7, 1⟩
abbrev MOT_BRG1_TEMP : Fld := ⟨0x1004, 8, 8⟩
abbrev MOT_BRG1_RDSON : Fld := ⟨0x1004, 16, 16⟩
abbrev MOT_BRG2_SPN_MODE : Fld := ⟨0x1008, 0, 2⟩
abbrev MOT_BRG2_VCM0_MODE : Fld := ⟨0x1008, 2, 2⟩
abbrev MOT_BRG2_VCM1_MODE : Fld := ⟨0x1008, 4, 2⟩
abbrev MOT_BRG2_OWN_BLOCK : Fld := ⟨0x1008, 6, 1⟩
abbrev MOT_BRG2_OCP : Fld := ⟨0x1008, 7, 1⟩
abbrev MOT_BRG2_TEMP : Fld := ⟨0x1008, 8, 8⟩
abbrev MOT_BRG2_RDSON : Fld := ⟨0x1008, 16, 16⟩
abbrev MOT_BRG3_SPN_MODE : Fld := ⟨0x100C, 0, 2⟩
abbrev MOT_BRG3_VCM0_MODE : Fld := ⟨0x100C, 2, 2⟩
abbrev MOT_BRG3_VCM1_MODE : Fld := ⟨0x100C, 4, 2⟩
abbrev MOT_BRG3_OWN_BLOCK : Fld := ⟨0x100C, 6, 1⟩
abbrev MOT_BRG3_OCP : Fld := ⟨0x100C, 7, 1⟩
abbrev MOT_BRG3_TEMP : Fld := ⟨0x100C, 8, 8⟩
abbrev MOT_BRG3_RDSON : Fld := ⟨0x100C, 16, 16⟩
-- R464: page 1 of the power domains
abbrev PWR_POL0_FLOOR : Fld := ⟨0x1000, 0, 2⟩
abbrev PWR_POL1_FLOOR : Fld := ⟨0x1004, 0, 2⟩
abbrev PWR_POL1_HOLD : Fld := ⟨0x1004, 2, 1⟩
abbrev PWR_POL1_T_GATE : Fld := ⟨0x1004, 4, 8⟩
abbrev PWR_POL1_T_DEEP : Fld := ⟨0x1004, 16, 16⟩
abbrev PWR_POL2_FLOOR : Fld := ⟨0x1008, 0, 2⟩
abbrev PWR_POL2_HOLD : Fld := ⟨0x1008, 2, 1⟩
abbrev PWR_POL2_T_GATE : Fld := ⟨0x1008, 4, 8⟩
abbrev PWR_POL2_T_DEEP : Fld := ⟨0x1008, 16, 16⟩
abbrev PWR_POL3_FLOOR : Fld := ⟨0x100C, 0, 2⟩
abbrev PWR_POL3_HOLD : Fld := ⟨0x100C, 2, 1⟩
abbrev PWR_POL3_T_GATE : Fld := ⟨0x100C, 4, 8⟩
abbrev PWR_POL3_T_DEEP : Fld := ⟨0x100C, 16, 16⟩
abbrev PWR_POL4_FLOOR : Fld := ⟨0x1010, 0, 2⟩
abbrev PWR_POL4_HOLD : Fld := ⟨0x1010, 2, 1⟩
abbrev PWR_POL4_T_GATE : Fld := ⟨0x1010, 4, 8⟩
abbrev PWR_POL4_T_DEEP : Fld := ⟨0x1010, 16, 16⟩
abbrev PWR_POL5_FLOOR : Fld := ⟨0x1014, 0, 2⟩
abbrev PWR_POL6_FLOOR : Fld := ⟨0x1018, 0, 2⟩
abbrev PWR_POL7_FLOOR : Fld := ⟨0x101C, 0, 2⟩
abbrev PWR_POL8_FLOOR : Fld := ⟨0x1020, 0, 2⟩
abbrev PWR_POL9_FLOOR : Fld := ⟨0x1024, 0, 2⟩
abbrev PWR_POL10_FLOOR : Fld := ⟨0x1028, 0, 2⟩
abbrev PWR_POL11_FLOOR : Fld := ⟨0x102C, 0, 2⟩
abbrev PWR_POL12_FLOOR : Fld := ⟨0x1030, 0, 2⟩
abbrev PWR_POL13_FLOOR : Fld := ⟨0x1034, 0, 2⟩
abbrev PWR_POL13_HOLD : Fld := ⟨0x1034, 2, 1⟩
abbrev PWR_POL13_T_GATE : Fld := ⟨0x1034, 4, 8⟩
abbrev PWR_POL13_T_DEEP : Fld := ⟨0x1034, 16, 16⟩
abbrev PWR_POL14_FLOOR : Fld := ⟨0x1038, 0, 2⟩
abbrev PWR_POL14_HOLD : Fld := ⟨0x1038, 2, 1⟩
abbrev PWR_POL14_T_GATE : Fld := ⟨0x1038, 4, 8⟩
abbrev PWR_POL14_T_DEEP : Fld := ⟨0x1038, 16, 16⟩
abbrev PWR_POL15_FLOOR : Fld := ⟨0x103C, 0, 2⟩
abbrev PWR_POL15_HOLD : Fld := ⟨0x103C, 2, 1⟩
abbrev PWR_POL15_T_GATE : Fld := ⟨0x103C, 4, 8⟩
abbrev PWR_POL15_T_DEEP : Fld := ⟨0x103C, 16, 16⟩
abbrev PWR_POL16_FLOOR : Fld := ⟨0x1040, 0, 2⟩
abbrev PWR_POL16_HOLD : Fld := ⟨0x1040, 2, 1⟩
abbrev PWR_POL16_T_GATE : Fld := ⟨0x1040, 4, 8⟩
abbrev PWR_POL16_T_DEEP : Fld := ⟨0x1040, 16, 16⟩
abbrev PWR_POL17_FLOOR : Fld := ⟨0x1044, 0, 2⟩
abbrev PWR_POL17_HOLD : Fld := ⟨0x1044, 2, 1⟩
abbrev PWR_POL17_T_GATE : Fld := ⟨0x1044, 4, 8⟩
abbrev PWR_POL17_T_DEEP : Fld := ⟨0x1044, 16, 16⟩
abbrev PWR_POL18_FLOOR : Fld := ⟨0x1048, 0, 2⟩
abbrev PWR_POL18_HOLD : Fld := ⟨0x1048, 2, 1⟩
abbrev PWR_POL18_T_GATE : Fld := ⟨0x1048, 4, 8⟩
abbrev PWR_POL18_T_DEEP : Fld := ⟨0x1048, 16, 16⟩
abbrev PWR_POL19_FLOOR : Fld := ⟨0x104C, 0, 2⟩
abbrev PWR_POL19_HOLD : Fld := ⟨0x104C, 2, 1⟩
abbrev PWR_POL19_T_GATE : Fld := ⟨0x104C, 4, 8⟩
abbrev PWR_POL19_T_DEEP : Fld := ⟨0x104C, 16, 16⟩
abbrev PWR_POL20_FLOOR : Fld := ⟨0x1050, 0, 2⟩
abbrev PWR_POL20_HOLD : Fld := ⟨0x1050, 2, 1⟩
abbrev PWR_POL20_T_GATE : Fld := ⟨0x1050, 4, 8⟩
abbrev PWR_POL20_T_DEEP : Fld := ⟨0x1050, 16, 16⟩
abbrev PWR_POL21_FLOOR : Fld := ⟨0x1054, 0, 2⟩
abbrev PWR_POL21_HOLD : Fld := ⟨0x1054, 2, 1⟩
abbrev PWR_POL21_T_GATE : Fld := ⟨0x1054, 4, 8⟩
abbrev PWR_POL21_T_DEEP : Fld := ⟨0x1054, 16, 16⟩
abbrev PWR_POL22_FLOOR : Fld := ⟨0x1058, 0, 2⟩
abbrev PWR_POL22_HOLD : Fld := ⟨0x1058, 2, 1⟩
abbrev PWR_POL22_T_GATE : Fld := ⟨0x1058, 4, 8⟩
abbrev PWR_POL22_T_DEEP : Fld := ⟨0x1058, 16, 16⟩
abbrev PWR_POL23_FLOOR : Fld := ⟨0x105C, 0, 2⟩
abbrev PWR_POL23_HOLD : Fld := ⟨0x105C, 2, 1⟩
abbrev PWR_POL23_T_GATE : Fld := ⟨0x105C, 4, 8⟩
abbrev PWR_POL23_T_DEEP : Fld := ⟨0x105C, 16, 16⟩
abbrev PWR_POL24_FLOOR : Fld := ⟨0x1060, 0, 2⟩
abbrev PWR_POL24_HOLD : Fld := ⟨0x1060, 2, 1⟩
abbrev PWR_POL24_T_GATE : Fld := ⟨0x1060, 4, 8⟩
abbrev PWR_POL24_T_DEEP : Fld := ⟨0x1060, 16, 16⟩
abbrev PWR_POL25_FLOOR : Fld := ⟨0x1064, 0, 2⟩
abbrev PWR_POL25_HOLD : Fld := ⟨0x1064, 2, 1⟩
abbrev PWR_POL25_T_GATE : Fld := ⟨0x1064, 4, 8⟩
abbrev PWR_POL25_T_DEEP : Fld := ⟨0x1064, 16, 16⟩
-- R497: page 2 of the wear lamps
abbrev WLP_LIM0_WARN : Fld := ⟨0x2000, 0, 16⟩
abbrev WLP_LIM0_LIMIT : Fld := ⟨0x2000, 16, 16⟩
abbrev WLP_LIM1_WARN : Fld := ⟨0x2004, 0, 16⟩
abbrev WLP_LIM1_LIMIT : Fld := ⟨0x2004, 16, 16⟩
abbrev WLP_LIM2_WARN : Fld := ⟨0x2008, 0, 16⟩
abbrev WLP_LIM2_LIMIT : Fld := ⟨0x2008, 16, 16⟩
abbrev WLP_LIM3_WARN : Fld := ⟨0x200C, 0, 16⟩
abbrev WLP_LIM3_LIMIT : Fld := ⟨0x200C, 16, 16⟩
abbrev WLP_LIM4_WARN : Fld := ⟨0x2010, 0, 16⟩
abbrev WLP_LIM4_LIMIT : Fld := ⟨0x2010, 16, 16⟩
abbrev WLP_LIM5_WARN : Fld := ⟨0x2014, 0, 16⟩
abbrev WLP_LIM5_LIMIT : Fld := ⟨0x2014, 16, 16⟩
abbrev WLP_LIM6_WARN : Fld := ⟨0x2018, 0, 16⟩
abbrev WLP_LIM6_LIMIT : Fld := ⟨0x2018, 16, 16⟩
abbrev WLP_LIM7_WARN : Fld := ⟨0x201C, 0, 16⟩
abbrev WLP_LIM7_LIMIT : Fld := ⟨0x201C, 16, 16⟩
abbrev WLP_LIM8_WARN : Fld := ⟨0x2020, 0, 16⟩
abbrev WLP_LIM8_LIMIT : Fld := ⟨0x2020, 16, 16⟩
abbrev WLP_LIM9_WARN : Fld := ⟨0x2024, 0, 16⟩
abbrev WLP_LIM9_LIMIT : Fld := ⟨0x2024, 16, 16⟩
abbrev WLP_LIM10_WARN : Fld := ⟨0x2028, 0, 16⟩
abbrev WLP_LIM10_LIMIT : Fld := ⟨0x2028, 16, 16⟩
-- array words and generic entries of arrays of like registers
abbrev SQ_BASE_LO : Fld := ⟨0x2000, 0, 32⟩
abbrev SQ_BASE_HI : Fld := ⟨0x2004, 0, 32⟩
abbrev SQ_DEPTH : Fld := ⟨0x2008, 0, 13⟩
abbrev SQ_CQID : Fld := ⟨0x2008, 16, 8⟩
abbrev SQ_ERR : Fld := ⟨0x2008, 30, 1⟩
abbrev SQ_EN : Fld := ⟨0x2008, 31, 1⟩
abbrev SQ_CREDITS : Fld := ⟨0x200C, 0, 13⟩
abbrev SQ_HEAD : Fld := ⟨0x200C, 16, 13⟩
abbrev CQ_BASE_LO : Fld := ⟨0x3000, 0, 32⟩
abbrev CQ_BASE_HI : Fld := ⟨0x3004, 0, 32⟩
abbrev CQ_DEPTH : Fld := ⟨0x3008, 0, 13⟩
abbrev CQ_VECTOR : Fld := ⟨0x3008, 16, 9⟩
abbrev CQ_IEN : Fld := ⟨0x3008, 29, 1⟩
abbrev CQ_ERR : Fld := ⟨0x3008, 30, 1⟩
abbrev CQ_EN : Fld := ⟨0x3008, 31, 1⟩
abbrev CQ_AGG_N : Fld := ⟨0x300C, 0, 8⟩
abbrev CQ_AGG_US : Fld := ⟨0x300C, 8, 16⟩
abbrev NS_VALID : Fld := ⟨0x4000, 0, 1⟩
abbrev NS_KIND : Fld := ⟨0x4000, 1, 1⟩
abbrev NS_HALF : Fld := ⟨0x4000, 2, 1⟩
abbrev NS_CHUNK : Fld := ⟨0x4000, 8, 8⟩
abbrev NS_UNITS : Fld := ⟨0x4004, 0, 32⟩
abbrev NS_BASE : Fld := ⟨0x4008, 0, 16⟩
abbrev NS_SIZE : Fld := ⟨0x4008, 16, 16⟩
abbrev CLASS_N : Fld := ⟨0, 0, 8⟩
abbrev CLASS_T : Fld := ⟨0, 16, 16⟩
abbrev CLASS_MINOR : Fld := ⟨4, 0, 8⟩
abbrev CLASS_SEVERE : Fld := ⟨4, 8, 8⟩
abbrev POL_FLOOR : Fld := ⟨0x1000, 0, 2⟩
abbrev POL_HOLD : Fld := ⟨0x1000, 2, 1⟩
abbrev POL_T_GATE : Fld := ⟨0x1000, 4, 8⟩
abbrev POL_T_DEEP : Fld := ⟨0x1000, 16, 16⟩
abbrev BRG_SPN_MODE : Fld := ⟨0x1000, 0, 2⟩
abbrev BRG_VCM0_MODE : Fld := ⟨0x1000, 2, 2⟩
abbrev BRG_VCM1_MODE : Fld := ⟨0x1000, 4, 2⟩
abbrev BRG_OWN_BLOCK : Fld := ⟨0x1000, 6, 1⟩
abbrev BRG_OCP : Fld := ⟨0x1000, 7, 1⟩
abbrev BRG_TEMP : Fld := ⟨0x1000, 8, 8⟩
abbrev BRG_RDSON : Fld := ⟨0x1000, 16, 16⟩
abbrev MATCH_ADDR : Fld := ⟨0x1000, 0, 15⟩
abbrev MATCH_TARGET : Fld := ⟨0x1000, 16, 9⟩
abbrev MATCH_EN : Fld := ⟨0x1000, 31, 1⟩
abbrev LIM_WARN : Fld := ⟨0x2000, 0, 16⟩
abbrev LIM_LIMIT : Fld := ⟨0x2000, 16, 16⟩
abbrev LAMP_VALUE : Fld := ⟨0x1000, 0, 16⟩
abbrev LAMP_TREND : Fld := ⟨0x1000, 16, 16⟩
abbrev LAMP_DAYS : Fld := ⟨0x1004, 0, 16⟩
abbrev LAMP_CONF : Fld := ⟨0x1004, 16, 8⟩
abbrev LAMP_STATE : Fld := ⟨0x1004, 24, 3⟩
abbrev LAMP_N : Fld := ⟨0x1008, 0, 6⟩
abbrev LAMP_TYPE : Fld := ⟨0x1008, 8, 4⟩
abbrev LAMP_BASE : Fld := ⟨0x1008, 16, 16⟩
abbrev LAMP_TIME : Fld := ⟨0x100C, 0, 32⟩
abbrev HEAD_PES : Fld := ⟨0x3000, 0, 16⟩
abbrev HEAD_PRED : Fld := ⟨0x3000, 16, 16⟩
abbrev HEAD_TID : Fld := ⟨0x3004, 0, 24⟩
abbrev HEAD_MA_OUT : Fld := ⟨0x3008, 0, 16⟩
abbrev HEAD_STROKE : Fld := ⟨0x3008, 16, 16⟩
abbrev HEAD_IN_PASS : Fld := ⟨0x300C, 0, 1⟩
abbrev HEAD_REPLACED : Fld := ⟨0x300C, 1, 1⟩
abbrev HEAD_MISSING : Fld := ⟨0x300C, 2, 1⟩
abbrev HEAD_AT_REACH : Fld := ⟨0x300C, 3, 1⟩
abbrev HEAD_REACH_RUN : Fld := ⟨0x300C, 8, 8⟩
abbrev HEAD_OFFSET : Fld := ⟨0x3010, 0, 16⟩

end F

/-! Window bases (R66, R71, R72): half A at 0, half B at 0x0100_0000, Mantle at 0x0200_0000. -/
namespace B

abbrev half (h : Half) : Nat := h.toNat * 0x1000000
abbrev hif (h : Half) : Nat := half h + 0x0
abbrev bca (h : Half) : Nat := half h + 0x10000
abbrev chm (h : Half) : Nat := half h + 0x20000
abbrev pwr (h : Half) : Nat := half h + 0x30000
abbrev clk (h : Half) : Nat := half h + 0x40000
abbrev sdm (h : Half) : Nat := half h + 0x50000
abbrev wlp (h : Half) : Nat := half h + 0x60000
abbrev cri (h : Half) : Nat := half h + 0x70000
abbrev cnt (h : Half) : Nat := half h + 0x80000
abbrev mbx (h : Half) : Nat := half h + 0xF0000
abbrev mot (h : Half) : Nat := half h + 0x280000
abbrev buf (h : Half) (n : Nat) : Nat := half h + 0x100000 + n * 0x10000
abbrev grz (h : Half) (n : Nat) : Nat := half h + 0x200000 + n * 0x10000
abbrev spn (h : Half) (n : Nat) : Nat := half h + 0x300000 + n * 0x10000
abbrev srv (h : Half) (n : Nat) : Nat := half h + 0x400000 + n * 0x10000
abbrev wck (h : Half) (n : Nat) : Nat := half h + 0x480000 + n * 0x10000
abbrev fmt (h : Half) (n : Nat) : Nat := half h + 0x500000 + n * 0x10000
abbrev rch (h : Half) (n : Nat) : Nat := half h + 0x600000 + n * 0x10000
abbrev mnt : Nat := 0x2000000
abbrev lmp : Nat := 0x2010000
abbrev evt : Nat := 0x2020000
abbrev evr : Nat := 0x2030000

end B

end Sys2Proof.Machine
end

