-- ==== Sys2Proof/Machine/RegMap.lean ====
section
/-! DEFINITION. The register map (R54 to R72 and the register tables of R57 to R499): for every register page its
span S, its register count N, and for each register its value at reset and which of its bits have which access. -/

namespace Sys2Proof.Machine

/-- A register: offset in its page, value at reset, and the masks of its bits by access type (R14). Bits in no mask
are RO. -/
structure RegSpec where
  off : Nat
  reset : Nat
  rw : Nat
  w1c : Nat
  w1s : Nat
  wo : Nat
  rc : Nat
  mnt : Nat
  deriving DecidableEq, Repr

/-- A register page: span, register count and its registers (R54). -/
structure PageSpec where
  span : Nat
  count : Nat
  regs : List RegSpec
  deriving DecidableEq, Repr

/-- R57: page 15 of the host interface. -/
def pageHif15 : PageSpec := ⟨256, 6, [
  ⟨0x0, 0x8160C200, 0x0, 0x0, 0x0, 0x0, 0x0, 0x0⟩,
  ⟨0x4, 0x0, 0x0, 0x0, 0x0, 0x0, 0x0, 0x0⟩,
  ⟨0x8, 0x0, 0x0, 0x3F, 0x0, 0x0, 0x0, 0x0⟩,
  ⟨0xC, 0x0, 0x0, 0x0, 0x0, 0x0, 0x0, 0x0⟩,
  ⟨0x10, 0x0, 0x0, 0x0, 0x0, 0x0, 0xFFFF, 0x0⟩,
  ⟨0x14, 0x0, 0xFFFFFFFF, 0x0, 0x0, 0x0, 0x0, 0x0⟩]⟩

/-- R61: page 0 of Coreri. -/
def pageCri0 : PageSpec := ⟨256, 4, [
  ⟨0x0, 0x0, 0x0, 0x0, 0x0, 0x1, 0x0, 0x0⟩,
  ⟨0x4, 0x0, 0x0, 0x0, 0x0, 0x0, 0x0, 0x0⟩,
  ⟨0x8, 0x0, 0x0, 0x0, 0x0, 0x0, 0x0, 0x0⟩,
  ⟨0xC, 0x0, 0x0, 0x0, 0x0, 0x0, 0x0, 0x0⟩]⟩

/-- R88: page 0 of the harness port. -/
def pageGrz0 : PageSpec := ⟨256, 6, [
  ⟨0x0, 0x0, 0x7, 0x0, 0x0, 0x0, 0x0, 0x0⟩,
  ⟨0x4, 0x8, 0x0, 0x800, 0x0, 0x0, 0x0, 0x0⟩,
  ⟨0x8, 0x0, 0x0, 0x1FF, 0x0, 0x0, 0x0, 0x0⟩,
  ⟨0xC, 0x0, 0x0, 0x0, 0x0, 0x0, 0x0, 0x0⟩,
  ⟨0x10, 0x604, 0xF0F, 0x0, 0x0, 0x0, 0x0, 0x0⟩,
  ⟨0x14, 0x0, 0x0, 0x0, 0x0, 0x0, 0xFFFF, 0x0⟩]⟩

/-- R90: page 1 of the harness port. -/
def pageGrz1 : PageSpec := ⟨256, 4, [
  ⟨0x0, 0x0, 0xFFFFFF00, 0x0, 0x0, 0x0, 0x0, 0x0⟩,
  ⟨0x4, 0x0, 0x0, 0x0, 0x0, 0x3, 0x0, 0x0⟩,
  ⟨0x8, 0x0, 0x0, 0x0, 0x0, 0x0, 0x0, 0x0⟩,
  ⟨0xC, 0x0, 0x0, 0x0, 0x0, 0x0, 0x0, 0x0⟩]⟩

/-- R121: page 0 of the stream channel. -/
def pageRch0 : PageSpec := ⟨256, 10, [
  ⟨0x0, 0x38, 0x3F, 0x0, 0x0, 0x0, 0x0, 0x0⟩,
  ⟨0x4, 0x0, 0x0, 0x0, 0x0, 0x0, 0x0, 0x0⟩,
  ⟨0x8, 0x0, 0x0, 0xFF, 0x0, 0x0, 0x0, 0x0⟩,
  ⟨0xC, 0x80414, 0x1F071F, 0x0, 0x0, 0x0, 0x0, 0x0⟩,
  ⟨0x10, 0x88618, 0xFFF3F, 0x0, 0x0, 0x0, 0x0, 0x0⟩,
  ⟨0x14, 0xCE6A4, 0xFFFFFF, 0x0, 0x0, 0x0, 0x0, 0x0⟩,
  ⟨0x18, 0x4DEC, 0xFFFF, 0x0, 0x0, 0x0, 0x0, 0x0⟩,
  ⟨0x1C, 0x40C8, 0x73FF, 0x0, 0x0, 0x0, 0x0, 0x0⟩,
  ⟨0x20, 0x3210, 0xFFFF, 0x0, 0x0, 0x0, 0x0, 0x0⟩,
  ⟨0x24, 0x0, 0x3D, 0x0, 0x0, 0x0, 0x0, 0x0⟩]⟩

/-- R124: page 1 of the stream channel. -/
def pageRch1 : PageSpec := ⟨256, 10, [
  ⟨0x0, 0x0, 0x0, 0x0, 0x0, 0x0, 0xFFFFFFFF, 0x0⟩,
  ⟨0x4, 0x0, 0x0, 0x0, 0x0, 0x0, 0xFFFFFFFF, 0x0⟩,
  ⟨0x8, 0x0, 0x0, 0x0, 0x0, 0x0, 0xFFFFFFFF, 0x0⟩,
  ⟨0xC, 0x0, 0x0, 0x0, 0x0, 0x0, 0xFFFFFFFF, 0x0⟩,
  ⟨0x10, 0x0, 0x0, 0x0, 0x0, 0x0, 0xFFFFFFFF, 0x0⟩,
  ⟨0x14, 0x0, 0x0, 0x0, 0x0, 0x0, 0xFFFFFFFF, 0x0⟩,
  ⟨0x18, 0x0, 0x0, 0x0, 0x0, 0x0, 0xFFFFFFFF, 0x0⟩,
  ⟨0x1C, 0x0, 0x0, 0x0, 0x0, 0x0, 0xFFFFFFFF, 0x0⟩,
  ⟨0x20, 0x0, 0x0, 0x0, 0x0, 0x0, 0xFFFFFFFF, 0x0⟩,
  ⟨0x24, 0x0, 0x0, 0x0, 0x0, 0x0, 0xFFFFFFFF, 0x0⟩]⟩

/-- R160: page 0 of the formatter. -/
def pageFmt0 : PageSpec := ⟨256, 8, [
  ⟨0x0, 0x283E, 0x3FFF, 0x0, 0x0, 0x0, 0x0, 0x0⟩,
  ⟨0x4, 0x0, 0x0, 0x0, 0x0, 0x0, 0x0, 0x0⟩,
  ⟨0x8, 0x0, 0x0, 0x7FF, 0x0, 0x0, 0x0, 0x0⟩,
  ⟨0xC, 0x1, 0xFFFF, 0x0, 0x0, 0x0, 0x0, 0x0⟩,
  ⟨0x10, 0x0, 0xFFFFFFFF, 0x0, 0x0, 0x0, 0x0, 0x0⟩,
  ⟨0x14, 0x0, 0x3FF, 0x0, 0x0, 0x0, 0x0, 0x0⟩,
  ⟨0x18, 0x0, 0xFFFFFFFF, 0x0, 0x0, 0x0, 0x0, 0x0⟩,
  ⟨0x1C, 0x0, 0x3FF, 0x0, 0x0, 0x0, 0x0, 0x0⟩]⟩

/-- R162: page 1 of the formatter. -/
def pageFmt1 : PageSpec := ⟨256, 4, [
  ⟨0x0, 0x83C1F, 0xFFFFFF, 0x0, 0x0, 0x0, 0x0, 0x0⟩,
  ⟨0x4, 0x80, 0x0, 0xF, 0x0, 0x0, 0x0, 0x0⟩,
  ⟨0x8, 0x0, 0x0, 0x0, 0x0, 0x0, 0xFFFF, 0x0⟩,
  ⟨0xC, 0x0, 0x0, 0x0, 0x0, 0x0, 0xFFFF, 0x0⟩]⟩

/-- R163: page 2 of the formatter. -/
def pageFmt2 : PageSpec := ⟨256, 8, [
  ⟨0x0, 0x0, 0x0, 0x0, 0x0, 0x0, 0xFFFFFFFF, 0x0⟩,
  ⟨0x4, 0x0, 0x0, 0x0, 0x0, 0x0, 0xFFFFFFFF, 0x0⟩,
  ⟨0x8, 0x0, 0x0, 0x0, 0x0, 0x0, 0xFFFFFFFF, 0x0⟩,
  ⟨0xC, 0x0, 0x0, 0x0, 0x0, 0x0, 0xFFFFFFFF, 0x0⟩,
  ⟨0x10, 0x0, 0x0, 0x0, 0x0, 0x0, 0xFFFFFFFF, 0x0⟩,
  ⟨0x14, 0x0, 0x0, 0x0, 0x0, 0x0, 0xFFFFFFFF, 0x0⟩,
  ⟨0x18, 0x0, 0x0, 0x0, 0x0, 0x0, 0xFFFFFFFF, 0x0⟩,
  ⟨0x1C, 0x0, 0x0, 0x0, 0x0, 0x0, 0xFFFFFFFF, 0x0⟩]⟩

/-- R180: page 0 of the Wick. -/
def pageWck0 : PageSpec := ⟨256, 8, [
  ⟨0x0, 0x0, 0x5, 0x0, 0x0, 0x2, 0x0, 0x0⟩,
  ⟨0x4, 0x0, 0x0, 0x0, 0x0, 0x0, 0x0, 0x0⟩,
  ⟨0x8, 0x0, 0x0, 0x3F, 0x0, 0x0, 0x0, 0x0⟩,
  ⟨0xC, 0x0, 0x0, 0x0, 0x0, 0x0, 0x0, 0x0⟩,
  ⟨0x10, 0x0, 0x0, 0x0, 0x0, 0x0, 0x0, 0x0⟩,
  ⟨0x14, 0xC201, 0x0, 0x0, 0x0, 0x0, 0x0, 0xFFFF0000⟩,
  ⟨0x18, 0x11000100, 0xFFFFFFFF, 0x0, 0x0, 0x0, 0x0, 0x0⟩,
  ⟨0x1C, 0x0, 0x0, 0x0, 0x0, 0x0, 0xFFFFFFFF, 0x0⟩]⟩

/-- R211: page 0 of the servo engine. -/
def pageSrv0 : PageSpec := ⟨256, 8, [
  ⟨0x0, 0x4, 0x7, 0x0, 0x0, 0x18, 0x0, 0x0⟩,
  ⟨0x4, 0x0, 0x0, 0x0, 0x0, 0x0, 0x0, 0x0⟩,
  ⟨0x8, 0x0, 0x0, 0x7FF, 0x0, 0x0, 0x0, 0x0⟩,
  ⟨0xC, 0x0, 0x0, 0x0, 0x0, 0x0, 0x0, 0x0⟩,
  ⟨0x10, 0x0, 0x0, 0x0, 0x0, 0x0, 0x0, 0x0⟩,
  ⟨0x14, 0x0, 0x0, 0x0, 0x0, 0x0, 0x0, 0x0⟩,
  ⟨0x18, 0x1900A14, 0xFFFFFFFF, 0x0, 0x0, 0x0, 0x0, 0x0⟩,
  ⟨0x1C, 0x0, 0x0, 0x0, 0x0, 0x0, 0x0, 0x0⟩]⟩

/-- R212: page 1 of the servo engine. -/
def pageSrv1 : PageSpec := ⟨256, 8, [
  ⟨0x0, 0x3081040, 0xFFFFFFFF, 0x0, 0x0, 0x0, 0x0, 0x0⟩,
  ⟨0x4, 0x20004010, 0xFFFFFFFF, 0x0, 0x0, 0x0, 0x0, 0x0⟩,
  ⟨0x8, 0x4E2061A8, 0xFFFFFFFF, 0x0, 0x0, 0x0, 0x0, 0x0⟩,
  ⟨0xC, 0x200, 0xFFFF, 0x0, 0x0, 0x0, 0x0, 0x0⟩,
  ⟨0x10, 0x40404040, 0xFFFFFFFF, 0x0, 0x0, 0x0, 0x0, 0x0⟩,
  ⟨0x14, 0x27100078, 0xFFFFFFFF, 0x0, 0x0, 0x0, 0x0, 0x0⟩,
  ⟨0x18, 0x0, 0xFFFF, 0x0, 0x0, 0x0, 0x0, 0x0⟩,
  ⟨0x1C, 0x0, 0xFFFF, 0x0, 0x0, 0x0, 0x0, 0x0⟩]⟩

/-- R213: page 2 of the servo engine. -/
def pageSrv2 : PageSpec := ⟨256, 4, [
  ⟨0x0, 0x2503E8, 0xFFFFFF, 0x0, 0x0, 0x0, 0x0, 0x0⟩,
  ⟨0x4, 0x0, 0x0, 0x0, 0x0, 0x0, 0x0, 0x0⟩,
  ⟨0x8, 0x0, 0x0, 0x0, 0x0, 0xFFF0003, 0x0, 0x0⟩,
  ⟨0xC, 0x0, 0x0, 0x0, 0x0, 0x0, 0x0, 0x0⟩]⟩

/-- R215: page 4 of the servo engine. -/
def pageSrv4 : PageSpec := ⟨256, 8, [
  ⟨0x0, 0x0, 0x0, 0x0, 0x0, 0x0, 0xFFFFFFFF, 0x0⟩,
  ⟨0x4, 0x0, 0x0, 0x0, 0x0, 0x0, 0xFFFFFFFF, 0x0⟩,
  ⟨0x8, 0x0, 0x0, 0x0, 0x0, 0x0, 0xFFFFFFFF, 0x0⟩,
  ⟨0xC, 0x0, 0x0, 0x0, 0x0, 0x0, 0xFFFFFFFF, 0x0⟩,
  ⟨0x10, 0x0, 0x0, 0x0, 0x0, 0x0, 0xFFFFFFFF, 0x0⟩,
  ⟨0x14, 0x0, 0x0, 0x0, 0x0, 0x0, 0xFFFFFFFF, 0x0⟩,
  ⟨0x18, 0x0, 0x0, 0x0, 0x0, 0x0, 0xFFFFFFFF, 0x0⟩,
  ⟨0x1C, 0x0, 0x0, 0x0, 0x0, 0x0, 0xFFFFFFFF, 0x0⟩]⟩

/-- R246: page 0 of the spindle engine. -/
def pageSpn0 : PageSpec := ⟨256, 8, [
  ⟨0x0, 0x0, 0x9, 0x0, 0x0, 0x6, 0x0, 0x0⟩,
  ⟨0x4, 0x0, 0x0, 0x0, 0x0, 0x0, 0x0, 0x0⟩,
  ⟨0x8, 0x0, 0x0, 0xFFF, 0x0, 0x0, 0x0, 0x0⟩,
  ⟨0xC, 0x1068, 0x1FFF, 0x0, 0x0, 0x0, 0x0, 0x0⟩,
  ⟨0x10, 0x0, 0x0, 0x0, 0x0, 0x0, 0x0, 0x0⟩,
  ⟨0x14, 0x1F4, 0xFFFF, 0x0, 0x0, 0x0, 0x0, 0x0⟩,
  ⟨0x18, 0x0, 0x0, 0x0, 0x0, 0x0, 0x0, 0x0⟩,
  ⟨0x1C, 0x0, 0x0, 0x0, 0x0, 0x0, 0x0, 0x0⟩]⟩

/-- R248: page 1 of the spindle engine. -/
def pageSpn1 : PageSpec := ⟨256, 8, [
  ⟨0x0, 0x78140C, 0xFFFFFF, 0x0, 0x0, 0x0, 0x0, 0x0⟩,
  ⟨0x4, 0x5A6100FA, 0xFFFF01FF, 0x0, 0x0, 0x0, 0x0, 0x0⟩,
  ⟨0x8, 0x0, 0xFFFFFFFF, 0x0, 0x0, 0x0, 0x0, 0x0⟩,
  ⟨0xC, 0xC06, 0xFFFF, 0x0, 0x0, 0x0, 0x0, 0x0⟩,
  ⟨0x10, 0x258, 0xFFFF, 0x0, 0x0, 0x0, 0x0, 0x0⟩,
  ⟨0x14, 0x0, 0xFFFF, 0x0, 0x0, 0x0, 0x0, 0x0⟩,
  ⟨0x18, 0xFA0, 0x1FFF, 0x0, 0x0, 0x0, 0x0, 0x0⟩,
  ⟨0x1C, 0x3E805DC, 0xFFFFFFFF, 0x0, 0x0, 0x0, 0x0, 0x0⟩]⟩

/-- R249: page 2 of the spindle engine. -/
def pageSpn2 : PageSpec := ⟨256, 4, [
  ⟨0x0, 0x1E1464, 0x1FFFFFF, 0x0, 0x0, 0x0, 0x0, 0x0⟩,
  ⟨0x4, 0x3E8, 0xFFFF, 0x0, 0x0, 0x0, 0x0, 0x0⟩,
  ⟨0x8, 0x9632, 0xFFFF, 0x0, 0x0, 0x0, 0x0, 0x0⟩,
  ⟨0xC, 0x0, 0x0, 0x0, 0x0, 0x0, 0x0, 0x0⟩]⟩

/-- R250: page 3 of the spindle engine. -/
def pageSpn3 : PageSpec := ⟨256, 8, [
  ⟨0x0, 0x0, 0x0, 0x0, 0x0, 0x0, 0xFFFFFFFF, 0x0⟩,
  ⟨0x4, 0x0, 0x0, 0x0, 0x0, 0x0, 0xFFFFFFFF, 0x0⟩,
  ⟨0x8, 0x0, 0x0, 0x0, 0x0, 0x0, 0xFFFFFFFF, 0x0⟩,
  ⟨0xC, 0x0, 0x0, 0x0, 0x0, 0x0, 0xFFFFFFFF, 0x0⟩,
  ⟨0x10, 0x0, 0x0, 0x0, 0x0, 0x0, 0xFFFFFFFF, 0x0⟩,
  ⟨0x14, 0x0, 0x0, 0x0, 0x0, 0x0, 0xFFFFFFFF, 0x0⟩,
  ⟨0x18, 0x0, 0x0, 0x0, 0x0, 0x0, 0xFFFFFFFF, 0x0⟩,
  ⟨0x1C, 0x0, 0x0, 0x0, 0x0, 0x0, 0xFFFFFFFF, 0x0⟩]⟩

/-- R252: page 0 of the motor die. -/
def pageMot0 : PageSpec := ⟨256, 8, [
  ⟨0x0, 0x0, 0x0, 0x0, 0x0, 0x0, 0x0, 0x0⟩,
  ⟨0x4, 0x0, 0x0, 0x0, 0x0, 0x0, 0x0, 0x0⟩,
  ⟨0x8, 0x0, 0x0, 0x0, 0x0, 0x0, 0x0, 0x0⟩,
  ⟨0xC, 0x0, 0x0, 0x0, 0x0, 0x0, 0x0, 0x0⟩,
  ⟨0x10, 0x1E0168, 0x0, 0x0, 0x0, 0x0, 0x0, 0xFFFFFFFF⟩,
  ⟨0x14, 0x0, 0x0, 0x7F, 0x0, 0x0, 0x0, 0x0⟩,
  ⟨0x18, 0x0, 0x0, 0x0, 0x0, 0x0, 0xFFFF, 0x0⟩,
  ⟨0x1C, 0x0, 0x0, 0x0, 0x0, 0x0, 0x0, 0x0⟩]⟩

/-- R283: page 0 of the Reservoir. -/
def pageBuf0 : PageSpec := ⟨256, 4, [
  ⟨0x0, 0x0, 0x0, 0x0, 0x0, 0x0, 0x0, 0x0⟩,
  ⟨0x4, 0x0, 0x0, 0x0, 0x0, 0x0, 0x0, 0x0⟩,
  ⟨0x8, 0x0, 0x0, 0x3F, 0x0, 0x0, 0x0, 0x0⟩,
  ⟨0xC, 0x0, 0x0, 0x0, 0x0, 0x0, 0xFF00, 0x0⟩]⟩

/-- R284: page 1 of the Reservoir. -/
def pageBuf1 : PageSpec := ⟨256, 8, [
  ⟨0x0, 0x0, 0x0, 0x0, 0x0, 0x0, 0xFFFFFFFF, 0x0⟩,
  ⟨0x4, 0x0, 0x0, 0x0, 0x0, 0x0, 0xFFFFFFFF, 0x0⟩,
  ⟨0x8, 0x0, 0x0, 0x0, 0x0, 0x0, 0xFFFFFFFF, 0x0⟩,
  ⟨0xC, 0x0, 0x0, 0x0, 0x0, 0x0, 0xFFFFFFFF, 0x0⟩,
  ⟨0x10, 0x0, 0x0, 0x0, 0x0, 0x0, 0xFFFFFFFF, 0x0⟩,
  ⟨0x14, 0x0, 0x0, 0x0, 0x0, 0x0, 0xFFFFFFFF, 0x0⟩,
  ⟨0x18, 0x0, 0x0, 0x0, 0x0, 0x0, 0xFFFFFFFF, 0x0⟩,
  ⟨0x1C, 0x0, 0x0, 0x0, 0x0, 0x0, 0xFFFFFFFF, 0x0⟩]⟩

/-- R285: page 2 of the Reservoir. -/
def pageBuf2 : PageSpec := ⟨256, 16, [
  ⟨0x0, 0x1414, 0xFF1F, 0x0, 0x0, 0x0, 0x0, 0x0⟩,
  ⟨0x4, 0x40, 0x0, 0x0, 0x0, 0x0, 0x0, 0x0⟩,
  ⟨0x8, 0x0, 0x0, 0x1FFF, 0x0, 0x0, 0x0, 0x0⟩,
  ⟨0xC, 0x18, 0xFF, 0x0, 0x0, 0x0, 0x0, 0x0⟩,
  ⟨0x10, 0x0, 0x0, 0x0, 0x0, 0x0, 0x0, 0x0⟩,
  ⟨0x14, 0x0, 0xFFFFFFFF, 0x0, 0x0, 0x0, 0x0, 0x0⟩,
  ⟨0x18, 0x0, 0xFFFFFFFF, 0x0, 0x0, 0x0, 0x0, 0x0⟩,
  ⟨0x1C, 0x0, 0xFFFFFFFF, 0x0, 0x0, 0x0, 0x0, 0x0⟩,
  ⟨0x20, 0x0, 0xFFFFFFFF, 0x0, 0x0, 0x0, 0x0, 0x0⟩,
  ⟨0x24, 0x0, 0x0, 0x0, 0x0, 0x0, 0x0, 0x0⟩,
  ⟨0x28, 0x0, 0xFFFFFFFF, 0x0, 0x0, 0x0, 0x0, 0x0⟩,
  ⟨0x2C, 0x0, 0xFFFFFFFF, 0x0, 0x0, 0x0, 0x0, 0x0⟩,
  ⟨0x30, 0x0, 0x1FFFFFF, 0x0, 0x0, 0x0, 0x0, 0x0⟩,
  ⟨0x34, 0x0, 0x3FFFFFF, 0x0, 0x0, 0x80000000, 0x0, 0x0⟩,
  ⟨0x38, 0x0, 0x0, 0x0, 0x0, 0x0, 0x0, 0x0⟩,
  ⟨0x3C, 0x0, 0x0, 0x0, 0x0, 0x0, 0x0, 0x0⟩]⟩

/-- R286: page 3 of the Reservoir. -/
def pageBuf3 : PageSpec := ⟨256, 16, [
  ⟨0x0, 0x0, 0x1FFFFFFF, 0x0, 0x0, 0x0, 0x0, 0x0⟩,
  ⟨0x4, 0x0, 0x0, 0x0, 0x0, 0x80000003, 0x0, 0x0⟩,
  ⟨0x8, 0x0, 0x0, 0x0, 0x0, 0x0, 0x0, 0x0⟩,
  ⟨0xC, 0x0, 0x0, 0x0, 0x0, 0x1, 0x0, 0x0⟩,
  ⟨0x10, 0x0, 0x0, 0x0, 0x0, 0x0, 0x0, 0x0⟩,
  ⟨0x14, 0x0, 0x0, 0x0, 0x0, 0x0, 0x0, 0x0⟩,
  ⟨0x18, 0x0, 0x0, 0x0, 0x0, 0x0, 0x0, 0x0⟩,
  ⟨0x1C, 0x0, 0x0, 0x0, 0x0, 0x0, 0x0, 0x0⟩,
  ⟨0x20, 0x0, 0x0, 0x0, 0x0, 0x0, 0x0, 0x0⟩,
  ⟨0x24, 0x0, 0x0, 0x0, 0x0, 0x0, 0x0, 0x0⟩,
  ⟨0x28, 0x0, 0x0, 0x0, 0x0, 0x0, 0x0, 0x0⟩,
  ⟨0x2C, 0x0, 0x0, 0x0, 0x0, 0x0, 0x0, 0x0⟩,
  ⟨0x30, 0x0, 0x0, 0x0, 0x0, 0x0, 0x0, 0x0⟩,
  ⟨0x34, 0x0, 0x0, 0x0, 0x0, 0x0, 0x0, 0x0⟩]⟩

/-- R312: page 0 of the cache. -/
def pageBca0 : PageSpec := ⟨256, 8, [
  ⟨0x0, 0x9, 0xF, 0x0, 0x0, 0x0, 0x0, 0x0⟩,
  ⟨0x4, 0x1, 0x0, 0x0, 0x0, 0x0, 0x0, 0x0⟩,
  ⟨0x8, 0x0, 0x0, 0x1FF, 0x0, 0x0, 0x0, 0x0⟩,
  ⟨0xC, 0xC5, 0xFF, 0x0, 0x0, 0x0, 0x0, 0x0⟩,
  ⟨0x10, 0x0, 0xFF, 0x0, 0x0, 0x0, 0x0, 0x0⟩,
  ⟨0x14, 0x0, 0x0, 0x0, 0x0, 0x0, 0x0, 0x0⟩,
  ⟨0x18, 0x0, 0x0, 0x0, 0x0, 0x0, 0x0, 0x0⟩,
  ⟨0x1C, 0x0, 0x0, 0x0, 0x0, 0x0, 0x0, 0x0⟩]⟩

/-- R314: page 1 of the cache. -/
def pageBca1 : PageSpec := ⟨256, 8, [
  ⟨0x0, 0x0, 0x1FFFFFFF, 0x0, 0x0, 0x0, 0x0, 0x0⟩,
  ⟨0x4, 0x0, 0x1FFFFFFF, 0x0, 0x0, 0x0, 0x0, 0x0⟩,
  ⟨0x8, 0x0, 0x0, 0x0, 0x0, 0x8000003F, 0x0, 0x0⟩,
  ⟨0xC, 0x0, 0x0, 0x0, 0x0, 0x0, 0x0, 0x0⟩,
  ⟨0x10, 0x0, 0x0, 0x0, 0x0, 0x0, 0x0, 0x0⟩,
  ⟨0x14, 0x0, 0x0, 0x0, 0x0, 0x0, 0x0, 0x0⟩,
  ⟨0x18, 0x0, 0x0, 0x0, 0x0, 0x0, 0x0, 0x0⟩]⟩

/-- R315: page 2 of the cache. -/
def pageBca2 : PageSpec := ⟨256, 8, [
  ⟨0x0, 0x0, 0x0, 0x0, 0x0, 0x0, 0xFFFFFFFF, 0x0⟩,
  ⟨0x4, 0x0, 0x0, 0x0, 0x0, 0x0, 0xFFFFFFFF, 0x0⟩,
  ⟨0x8, 0x0, 0x0, 0x0, 0x0, 0x0, 0xFFFFFFFF, 0x0⟩,
  ⟨0xC, 0x0, 0x0, 0x0, 0x0, 0x0, 0xFFFFFFFF, 0x0⟩,
  ⟨0x10, 0x0, 0x0, 0x0, 0x0, 0x0, 0xFFFFFFFF, 0x0⟩,
  ⟨0x14, 0x0, 0x0, 0x0, 0x0, 0x0, 0xFFFFFFFF, 0x0⟩,
  ⟨0x18, 0x0, 0x0, 0x0, 0x0, 0x0, 0xFFFFFFFF, 0x0⟩,
  ⟨0x1C, 0x0, 0x0, 0x0, 0x0, 0x0, 0xFFFFFFFF, 0x0⟩]⟩

/-- R366: page 0 of the host interface. -/
def pageHif0 : PageSpec := ⟨256, 8, [
  ⟨0x0, 0x0, 0x1, 0x0, 0x0, 0x0, 0x0, 0x0⟩,
  ⟨0x4, 0x0, 0x0, 0x0, 0x0, 0x0, 0x0, 0x0⟩,
  ⟨0x8, 0x0, 0x0, 0x1FF, 0x0, 0x0, 0x0, 0x0⟩,
  ⟨0xC, 0x0, 0x0, 0x0, 0x0, 0x0, 0x0, 0x0⟩,
  ⟨0x10, 0x0, 0x0, 0x80000000, 0x0, 0x0, 0x0, 0x0⟩,
  ⟨0x14, 0x0, 0x0, 0x0, 0x0, 0x80000000, 0x0, 0x0⟩,
  ⟨0x18, 0x1C00, 0x3FFF, 0x0, 0x0, 0x0, 0x0, 0x0⟩,
  ⟨0x1C, 0x10002000, 0x0, 0x0, 0x0, 0x0, 0x0, 0x0⟩]⟩

/-- R368: page 1 of the host interface. -/
def pageHif1 : PageSpec := ⟨256, 8, [
  ⟨0x0, 0x0, 0x0, 0x0, 0x0, 0x0, 0xFFFFFFFF, 0x0⟩,
  ⟨0x4, 0x0, 0x0, 0x0, 0x0, 0x0, 0xFFFFFFFF, 0x0⟩,
  ⟨0x8, 0x0, 0x0, 0x0, 0x0, 0x0, 0xFFFFFFFF, 0x0⟩,
  ⟨0xC, 0x0, 0x0, 0x0, 0x0, 0x0, 0xFFFFFFFF, 0x0⟩,
  ⟨0x10, 0x0, 0x0, 0x0, 0x0, 0x0, 0xFFFFFFFF, 0x0⟩,
  ⟨0x14, 0x0, 0x0, 0x0, 0x0, 0x0, 0xFFFFFFFF, 0x0⟩,
  ⟨0x18, 0x0, 0x0, 0x0, 0x0, 0x0, 0xFFFFFFFF, 0x0⟩,
  ⟨0x1C, 0x0, 0x0, 0x0, 0x0, 0x0, 0xFFFFFFFF, 0x0⟩]⟩

/-- R389: page 0 of the service DMA. -/
def pageSdm0 : PageSpec := ⟨256, 8, [
  ⟨0x0, 0x1, 0x1, 0x0, 0x0, 0x0, 0x0, 0x0⟩,
  ⟨0x4, 0x3, 0x0, 0x0, 0x0, 0x0, 0x0, 0x0⟩,
  ⟨0x8, 0x0, 0x0, 0x1F, 0x0, 0x0, 0x0, 0x0⟩,
  ⟨0xC, 0x0, 0x0, 0x0, 0x0, 0x0, 0x0, 0x0⟩,
  ⟨0x10, 0x0, 0x0, 0x0, 0x0, 0x0, 0xFFFFFFFF, 0x0⟩,
  ⟨0x14, 0x0, 0x0, 0x0, 0x0, 0x0, 0xFFFFFFFF, 0x0⟩,
  ⟨0x18, 0x0, 0x0, 0x0, 0x0, 0x0, 0xFFFFFFFF, 0x0⟩,
  ⟨0x1C, 0x0, 0x0, 0x0, 0x0, 0x0, 0xFFFFFFFF, 0x0⟩]⟩

/-- R390: page 1 of the service DMA. -/
def pageSdm1 : PageSpec := ⟨256, 8, [
  ⟨0x0, 0x0, 0xFFFFFFFF, 0x0, 0x0, 0x0, 0x0, 0x0⟩,
  ⟨0x4, 0x0, 0xFFFFFFFF, 0x0, 0x0, 0x0, 0x0, 0x0⟩,
  ⟨0x8, 0x0, 0xFFFFFFFF, 0x0, 0x0, 0x0, 0x0, 0x0⟩,
  ⟨0xC, 0x0, 0xFFFFFFFF, 0x0, 0x0, 0x0, 0x0, 0x0⟩,
  ⟨0x10, 0x0, 0xFFF0FFF, 0x0, 0x0, 0x0, 0x0, 0x0⟩,
  ⟨0x14, 0x0, 0x1FF0011, 0x0, 0x0, 0x2, 0x0, 0x0⟩,
  ⟨0x18, 0x0, 0x3FF, 0x0, 0x0, 0x0, 0x0, 0x0⟩,
  ⟨0x1C, 0x0, 0x3FF, 0x0, 0x0, 0x0, 0x0, 0x0⟩]⟩

/-- R419: page 0 of Mantle. -/
def pageMnt0 : PageSpec := ⟨256, 8, [
  ⟨0x0, 0x4D01, 0x0, 0x0, 0x0, 0x0, 0x0, 0xFFFF0000⟩,
  ⟨0x4, 0x0, 0x0, 0x0, 0x0, 0x0, 0x0, 0x0⟩,
  ⟨0x8, 0x0, 0x0, 0x0, 0x0, 0x0, 0x0, 0x0⟩,
  ⟨0xC, 0x0, 0x0, 0x0, 0x0, 0x0, 0x0, 0x0⟩,
  ⟨0x10, 0x0, 0x0, 0x0, 0x0, 0x0, 0x0, 0x0⟩,
  ⟨0x14, 0x0, 0x0, 0x0, 0x0, 0x0, 0x0, 0x0⟩,
  ⟨0x18, 0x0, 0x0, 0x0, 0x0, 0x0, 0x0, 0x0⟩,
  ⟨0x1C, 0x0, 0x0, 0x0, 0x0, 0x0, 0x0, 0x0⟩]⟩

/-- R420: page 1 of Mantle. -/
def pageMnt1 : PageSpec := ⟨256, 8, [
  ⟨0x0, 0x0, 0x0, 0x0, 0x0, 0x0, 0x0, 0x0⟩,
  ⟨0x4, 0x12C1419, 0x0, 0x0, 0x0, 0x0, 0x0, 0xFFFFFFFF⟩,
  ⟨0x8, 0x640064, 0x0, 0x0, 0x0, 0x0, 0x0, 0xFFFFFFFF⟩,
  ⟨0xC, 0x0, 0x0, 0x0, 0x0, 0x0, 0x0, 0x0⟩,
  ⟨0x10, 0x0, 0x0, 0x0, 0x0, 0x0, 0x0, 0x0⟩,
  ⟨0x14, 0x0, 0x0, 0x0, 0x0, 0x0, 0x0, 0x0⟩,
  ⟨0x18, 0x0, 0x0, 0x0, 0x0, 0x0, 0x0, 0x0⟩,
  ⟨0x1C, 0x0, 0x0, 0x0, 0x0, 0x0, 0x0, 0x0⟩]⟩

/-- R421: page 2 of Mantle. -/
def pageMnt2 : PageSpec := ⟨256, 8, [
  ⟨0x0, 0x0, 0x0, 0x0, 0x0, 0x0, 0x0, 0x0⟩,
  ⟨0x4, 0x0, 0x0, 0x0, 0x0, 0x0, 0x0, 0x0⟩,
  ⟨0x8, 0x0, 0x0, 0x0, 0x0, 0x0, 0x0, 0x0⟩,
  ⟨0xC, 0x0, 0x0, 0x0, 0x0, 0x0, 0x0, 0x0⟩,
  ⟨0x10, 0x0, 0x0, 0x0, 0x0, 0x0, 0x0, 0x0⟩,
  ⟨0x14, 0x0, 0x0, 0x0, 0x0, 0x0, 0x0, 0x0⟩,
  ⟨0x18, 0x0, 0x0, 0x0, 0x0, 0x0, 0x0, 0x0⟩,
  ⟨0x1C, 0x0, 0x0, 0x0, 0x0, 0x0, 0x0, 0x0⟩]⟩

/-- R422: page 0 of the request mailbox. -/
def pageMbx0 : PageSpec := ⟨256, 8, [
  ⟨0x0, 0x0, 0xFFFFFFFF, 0x0, 0x0, 0x0, 0x0, 0x0⟩,
  ⟨0x4, 0x0, 0xFFFFFFFF, 0x0, 0x0, 0x0, 0x0, 0x0⟩,
  ⟨0x8, 0x0, 0xFFF, 0x0, 0x0, 0x80000000, 0x0, 0x0⟩,
  ⟨0xC, 0x1000, 0x0, 0x0, 0x0, 0x0, 0x0, 0xFFFF1FFF⟩,
  ⟨0x10, 0x0, 0x0, 0x0, 0x0, 0x0, 0x0, 0xFFFFFF⟩,
  ⟨0x14, 0x0, 0xFFFF, 0x0, 0x0, 0x0, 0x0, 0x0⟩,
  ⟨0x18, 0x0, 0x0, 0x0, 0x0, 0xFFFF, 0x0, 0x0⟩,
  ⟨0x1C, 0x0, 0x0, 0x1FF, 0x0, 0x0, 0x0, 0x0⟩]⟩

/-- R443: page 0 of Lamplighter. -/
def pageLmp0 : PageSpec := ⟨256, 8, [
  ⟨0x0, 0x1, 0x0, 0x0, 0x0, 0x0, 0x0, 0x0⟩,
  ⟨0x4, 0x0, 0x0, 0x0, 0x0, 0x0, 0x0, 0x0⟩,
  ⟨0x8, 0x0, 0x0, 0x0, 0x0, 0x0, 0x0, 0x0⟩,
  ⟨0xC, 0x301, 0x0, 0x0, 0x0, 0x0, 0x0, 0x0⟩,
  ⟨0x10, 0x0, 0x0, 0x0, 0x0, 0x0, 0x0, 0x0⟩,
  ⟨0x14, 0x0, 0x0, 0x0, 0x0, 0x0, 0x0, 0x0⟩,
  ⟨0x18, 0x0, 0x0, 0x0, 0x0, 0x0, 0x0, 0x0⟩,
  ⟨0x1C, 0x0, 0x0, 0x0, 0x0, 0x0, 0x0, 0x0⟩]⟩

/-- R444: page 15 of the power domains. -/
def pagePwr15 : PageSpec := ⟨256, 8, [
  ⟨0x0, 0x0, 0xFF03FF, 0x0, 0x0, 0x80000000, 0x0, 0x0⟩,
  ⟨0x4, 0x0, 0x0, 0x0, 0x0, 0x0, 0x0, 0x0⟩,
  ⟨0x8, 0x0, 0x0, 0x0, 0x1, 0x0, 0x0, 0x0⟩,
  ⟨0xC, 0x0, 0x0, 0x0, 0x0, 0x0, 0x0, 0x0⟩,
  ⟨0x10, 0x0, 0x0, 0x0, 0x0, 0x0, 0x0, 0x0⟩]⟩

/-- R463: page 0 of the power domains. -/
def pagePwr0 : PageSpec := ⟨256, 8, [
  ⟨0x0, 0xFFFFFFFF, 0x0, 0x0, 0x0, 0x0, 0x0, 0x0⟩,
  ⟨0x4, 0xFFFFF, 0x0, 0x0, 0x0, 0x0, 0x0, 0x0⟩,
  ⟨0x8, 0x0, 0x0, 0x1F, 0x0, 0x0, 0x0, 0x0⟩,
  ⟨0xC, 0x0, 0x0, 0x0, 0x0, 0x0, 0x0, 0x0⟩,
  ⟨0x10, 0x0, 0x0, 0x0, 0x0, 0x0, 0x0, 0x0⟩,
  ⟨0x14, 0x0, 0x0, 0x0, 0x0, 0x0, 0x0, 0x0⟩,
  ⟨0x18, 0x0, 0x0, 0x0, 0x0, 0x0, 0xFFFFFFFF, 0x0⟩,
  ⟨0x1C, 0x0, 0x0, 0x0, 0x0, 0x0, 0xFFFFFFFF, 0x0⟩]⟩

/-- R465: page 0 of the clocks. -/
def pageClk0 : PageSpec := ⟨256, 8, [
  ⟨0x0, 0x1, 0x0, 0x0, 0x0, 0x0, 0x0, 0x0⟩,
  ⟨0x4, 0x1, 0x0, 0x0, 0x0, 0x0, 0x0, 0x0⟩,
  ⟨0x8, 0x0, 0x0, 0x1F, 0x0, 0x0, 0x0, 0x0⟩,
  ⟨0xC, 0x0, 0x3, 0x0, 0x0, 0x0, 0x0, 0x0⟩,
  ⟨0x10, 0x0, 0x0, 0x0, 0x0, 0x0, 0x0, 0x0⟩,
  ⟨0x14, 0x0, 0x0, 0x0, 0x0, 0x0, 0x0, 0x0⟩,
  ⟨0x18, 0x0, 0x0, 0x0, 0x0, 0x0, 0xFFFF, 0x0⟩,
  ⟨0x1C, 0x0, 0x0, 0x0, 0x0, 0x0, 0x0, 0x0⟩]⟩

/-- R489: page 0 of Chimney. -/
def pageChm0 : PageSpec := ⟨256, 8, [
  ⟨0x0, 0x1, 0x3, 0x0, 0x0, 0x0, 0x0, 0x0⟩,
  ⟨0x4, 0x0, 0x0, 0x0, 0x0, 0x0, 0x0, 0x0⟩,
  ⟨0x8, 0x0, 0x0, 0x1F, 0x0, 0x0, 0x0, 0x0⟩,
  ⟨0xC, 0x0, 0x0, 0x0, 0x0, 0x8000003F, 0x0, 0x0⟩,
  ⟨0x10, 0x0, 0xFFFFFC1F, 0x0, 0x0, 0x0, 0x0, 0x0⟩,
  ⟨0x14, 0x0, 0x0, 0x0, 0x0, 0x7FFFFF, 0x0, 0x0⟩,
  ⟨0x18, 0x0, 0x0, 0x0, 0x0, 0x0, 0x0, 0x0⟩,
  ⟨0x1C, 0x0, 0x0, 0x0, 0x0, 0x0, 0x0, 0x0⟩]⟩

/-- R494: page 0 of the event recorder. -/
def pageEvt0 : PageSpec := ⟨256, 8, [
  ⟨0x0, 0x0, 0x0, 0x0, 0x0, 0x0, 0x0, 0x0⟩,
  ⟨0x4, 0xFFF, 0x0, 0x0, 0x0, 0x0, 0x0, 0x0⟩,
  ⟨0x8, 0x100, 0x0, 0x0, 0x0, 0x0, 0x0, 0x0⟩,
  ⟨0xC, 0x0, 0x0, 0x0, 0x0, 0x0, 0x0, 0x0⟩,
  ⟨0x10, 0x0, 0x0, 0x0, 0x0, 0x0, 0x0, 0x0⟩,
  ⟨0x14, 0x0, 0x0, 0x0, 0x0, 0x0, 0x0, 0x0⟩,
  ⟨0x18, 0x0, 0x0, 0x0, 0x0, 0x0, 0x0, 0x0⟩]⟩

/-- R494: page 1 of the event recorder. -/
def pageEvt1 : PageSpec := ⟨256, 4, [
  ⟨0x0, 0x0, 0x0, 0x0, 0x0, 0x0, 0x0, 0x0⟩,
  ⟨0x4, 0x0, 0x0, 0x0, 0x0, 0x0, 0x0, 0x0⟩,
  ⟨0x8, 0x0, 0x0, 0x0, 0x0, 0x0, 0x0, 0x0⟩]⟩

/-- R496: page 0 of the wear lamps. -/
def pageWlp0 : PageSpec := ⟨256, 8, [
  ⟨0x0, 0x1801, 0xFF01, 0x0, 0x0, 0x0, 0x0, 0x0⟩,
  ⟨0x4, 0x0, 0x0, 0x0, 0x0, 0x0, 0x0, 0x0⟩,
  ⟨0x8, 0x0, 0x0, 0xF, 0x0, 0x0, 0x0, 0x0⟩,
  ⟨0xC, 0xFFFF00FF, 0x0, 0x0, 0x0, 0x0, 0x0, 0x0⟩,
  ⟨0x10, 0x5A016D, 0xFFFFFFFF, 0x0, 0x0, 0x0, 0x0, 0x0⟩,
  ⟨0x14, 0x32, 0x7F, 0x0, 0x0, 0x0, 0x0, 0x0⟩,
  ⟨0x18, 0x0, 0x0, 0x0, 0x0, 0xFFFF00FF, 0x0, 0x0⟩,
  ⟨0x1C, 0x0, 0x0, 0x0, 0x0, 0x0, 0x0, 0x0⟩]⟩

/-- R499: page 1 of Coreri. -/
def pageCri1 : PageSpec := ⟨256, 4, [
  ⟨0x0, 0x0, 0xFF03, 0x0, 0x0, 0x0, 0x0, 0x0⟩,
  ⟨0x4, 0x0, 0x0, 0x0, 0x0, 0x0, 0x0, 0x0⟩,
  ⟨0x8, 0x0, 0x0, 0x0, 0x0, 0x0, 0xFFFFFFFF, 0x0⟩,
  ⟨0xC, 0x0, 0x0, 0x0, 0x0, 0x0, 0x0, 0x0⟩]⟩

/-- R181: page 1 of the Wick. -/
def pageWck1 : PageSpec := ⟨256, 16, [
  ⟨0x0, 0x0, 0x0, 0x0, 0x0, 0x0, 0x0, 0x81FF7FFF⟩,
  ⟨0x4, 0x0, 0x0, 0x0, 0x0, 0x0, 0x0, 0x81FF7FFF⟩,
  ⟨0x8, 0x0, 0x0, 0x0, 0x0, 0x0, 0x0, 0x81FF7FFF⟩,
  ⟨0xC, 0x0, 0x0, 0x0, 0x0, 0x0, 0x0, 0x81FF7FFF⟩,
  ⟨0x10, 0x0, 0x0, 0x0, 0x0, 0x0, 0x0, 0x81FF7FFF⟩,
  ⟨0x14, 0x0, 0x0, 0x0, 0x0, 0x0, 0x0, 0x81FF7FFF⟩,
  ⟨0x18, 0x0, 0x0, 0x0, 0x0, 0x0, 0x0, 0x81FF7FFF⟩,
  ⟨0x1C, 0x0, 0x0, 0x0, 0x0, 0x0, 0x0, 0x81FF7FFF⟩,
  ⟨0x20, 0x0, 0x0, 0x0, 0x0, 0x0, 0x0, 0x81FF7FFF⟩,
  ⟨0x24, 0x0, 0x0, 0x0, 0x0, 0x0, 0x0, 0x81FF7FFF⟩,
  ⟨0x28, 0x0, 0x0, 0x0, 0x0, 0x0, 0x0, 0x81FF7FFF⟩,
  ⟨0x2C, 0x0, 0x0, 0x0, 0x0, 0x0, 0x0, 0x81FF7FFF⟩,
  ⟨0x30, 0x0, 0x0, 0x0, 0x0, 0x0, 0x0, 0x81FF7FFF⟩,
  ⟨0x34, 0x0, 0x0, 0x0, 0x0, 0x0, 0x0, 0x81FF7FFF⟩,
  ⟨0x38, 0x0, 0x0, 0x0, 0x0, 0x0, 0x0, 0x81FF7FFF⟩,
  ⟨0x3C, 0x0, 0x0, 0x0, 0x0, 0x0, 0x0, 0x81FF7FFF⟩]⟩

/-- R253: page 1 of the motor die. -/
def pageMot1 : PageSpec := ⟨256, 4, [
  ⟨0x0, 0x40, 0x0, 0x80, 0x0, 0x0, 0x0, 0x0⟩,
  ⟨0x4, 0x40, 0x0, 0x80, 0x0, 0x0, 0x0, 0x0⟩,
  ⟨0x8, 0x40, 0x0, 0x80, 0x0, 0x0, 0x0, 0x0⟩,
  ⟨0xC, 0x40, 0x0, 0x80, 0x0, 0x0, 0x0, 0x0⟩]⟩

/-- R464: page 1 of the power domains. -/
def pagePwr1 : PageSpec := ⟨256, 32, [
  ⟨0x0, 0x3, 0x0, 0x0, 0x0, 0x0, 0x0, 0x0⟩,
  ⟨0x4, 0x3, 0xFFFF0FF7, 0x0, 0x0, 0x0, 0x0, 0x0⟩,
  ⟨0x8, 0x3, 0xFFFF0FF7, 0x0, 0x0, 0x0, 0x0, 0x0⟩,
  ⟨0xC, 0x3, 0xFFFF0FF7, 0x0, 0x0, 0x0, 0x0, 0x0⟩,
  ⟨0x10, 0x3, 0xFFFF0FF7, 0x0, 0x0, 0x0, 0x0, 0x0⟩,
  ⟨0x14, 0x3, 0x0, 0x0, 0x0, 0x0, 0x0, 0x0⟩,
  ⟨0x18, 0x3, 0x0, 0x0, 0x0, 0x0, 0x0, 0x0⟩,
  ⟨0x1C, 0x3, 0x0, 0x0, 0x0, 0x0, 0x0, 0x0⟩,
  ⟨0x20, 0x3, 0x0, 0x0, 0x0, 0x0, 0x0, 0x0⟩,
  ⟨0x24, 0x3, 0x0, 0x0, 0x0, 0x0, 0x0, 0x0⟩,
  ⟨0x28, 0x3, 0x0, 0x0, 0x0, 0x0, 0x0, 0x0⟩,
  ⟨0x2C, 0x3, 0x0, 0x0, 0x0, 0x0, 0x0, 0x0⟩,
  ⟨0x30, 0x3, 0x0, 0x0, 0x0, 0x0, 0x0, 0x0⟩,
  ⟨0x34, 0x3, 0xFFFF0FF7, 0x0, 0x0, 0x0, 0x0, 0x0⟩,
  ⟨0x38, 0x3, 0xFFFF0FF7, 0x0, 0x0, 0x0, 0x0, 0x0⟩,
  ⟨0x3C, 0x3, 0xFFFF0FF7, 0x0, 0x0, 0x0, 0x0, 0x0⟩,
  ⟨0x40, 0x3, 0xFFFF0FF7, 0x0, 0x0, 0x0, 0x0, 0x0⟩,
  ⟨0x44, 0x3, 0xFFFF0FF7, 0x0, 0x0, 0x0, 0x0, 0x0⟩,
  ⟨0x48, 0x3, 0xFFFF0FF7, 0x0, 0x0, 0x0, 0x0, 0x0⟩,
  ⟨0x4C, 0x3, 0xFFFF0FF7, 0x0, 0x0, 0x0, 0x0, 0x0⟩,
  ⟨0x50, 0x3, 0xFFFF0FF7, 0x0, 0x0, 0x0, 0x0, 0x0⟩,
  ⟨0x54, 0x3, 0xFFFF0FF7, 0x0, 0x0, 0x0, 0x0, 0x0⟩,
  ⟨0x58, 0x3, 0xFFFF0FF7, 0x0, 0x0, 0x0, 0x0, 0x0⟩,
  ⟨0x5C, 0x3, 0xFFFF0FF7, 0x0, 0x0, 0x0, 0x0, 0x0⟩,
  ⟨0x60, 0x3, 0xFFFF0FF7, 0x0, 0x0, 0x0, 0x0, 0x0⟩,
  ⟨0x64, 0x3, 0xFFFF0FF7, 0x0, 0x0, 0x0, 0x0, 0x0⟩]⟩

/-- R497: page 2 of the wear lamps. -/
def pageWlp2 : PageSpec := ⟨256, 16, [
  ⟨0x0, 0x19000FA, 0xFFFFFFFF, 0x0, 0x0, 0x0, 0x0, 0x0⟩,
  ⟨0x4, 0x12000C, 0xFFFFFFFF, 0x0, 0x0, 0x0, 0x0, 0x0⟩,
  ⟨0x8, 0x960050, 0xFFFFFFFF, 0x0, 0x0, 0x0, 0x0, 0x0⟩,
  ⟨0xC, 0x1F4012C, 0xFFFFFFFF, 0x0, 0x0, 0x0, 0x0, 0x0⟩,
  ⟨0x10, 0xFF38FF9C, 0xFFFFFFFF, 0x0, 0x0, 0x0, 0x0, 0x0⟩,
  ⟨0x14, 0xF001E, 0xFFFFFFFF, 0x0, 0x0, 0x0, 0x0, 0x0⟩,
  ⟨0x18, 0xFA0096, 0xFFFFFFFF, 0x0, 0x0, 0x0, 0x0, 0x0⟩,
  ⟨0x1C, 0x3E80064, 0xFFFFFFFF, 0x0, 0x0, 0x0, 0x0, 0x0⟩,
  ⟨0x20, 0x1F4012C, 0xFFFFFFFF, 0x0, 0x0, 0x0, 0x0, 0x0⟩,
  ⟨0x24, 0x1F4012C, 0xFFFFFFFF, 0x0, 0x0, 0x0, 0x0, 0x0⟩,
  ⟨0x28, 0x4E2030D4, 0xFFFFFFFF, 0x0, 0x0, 0x0, 0x0, 0x0⟩]⟩

/-- The register page that a block has at a page number, if it has one (R54 and the page tables of the chapters).
Pages 2 and 3 of BUF exist in BUF[0] only (R282), which `arrayLen` and `pageSpec` take as the block's instance. -/
def pageSpec (b : Blk) (n page : Nat) : Option PageSpec :=
  match b, page with
  | .hif, 15 => some pageHif15
  | .cri, 0 => some pageCri0
  | .grz, 0 => some pageGrz0
  | .grz, 1 => some pageGrz1
  | .rch, 0 => some pageRch0
  | .rch, 1 => some pageRch1
  | .fmt, 0 => some pageFmt0
  | .fmt, 1 => some pageFmt1
  | .fmt, 2 => some pageFmt2
  | .wck, 0 => some pageWck0
  | .srv, 0 => some pageSrv0
  | .srv, 1 => some pageSrv1
  | .srv, 2 => some pageSrv2
  | .srv, 4 => some pageSrv4
  | .spn, 0 => some pageSpn0
  | .spn, 1 => some pageSpn1
  | .spn, 2 => some pageSpn2
  | .spn, 3 => some pageSpn3
  | .mot, 0 => some pageMot0
  | .buf, 0 => some pageBuf0
  | .buf, 1 => some pageBuf1
  | .buf, 2 => if n = 0 then some pageBuf2 else none
  | .buf, 3 => if n = 0 then some pageBuf3 else none
  | .bca, 0 => some pageBca0
  | .bca, 1 => some pageBca1
  | .bca, 2 => some pageBca2
  | .hif, 0 => some pageHif0
  | .hif, 1 => some pageHif1
  | .sdm, 0 => some pageSdm0
  | .sdm, 1 => some pageSdm1
  | .sdm, 2 => some pageSdm1
  | .sdm, 3 => some pageSdm1
  | .sdm, 4 => some pageSdm1
  | .mnt, 0 => some pageMnt0
  | .mnt, 1 => some pageMnt1
  | .mnt, 2 => some pageMnt2
  | .mbx, 0 => some pageMbx0
  | .lmp, 0 => some pageLmp0
  | .pwr, 15 => some pagePwr15
  | .pwr, 0 => some pagePwr0
  | .clk, 0 => some pageClk0
  | .chm, 0 => some pageChm0
  | .evt, 0 => some pageEvt0
  | .evt, 1 => some pageEvt1
  | .wlp, 0 => some pageWlp0
  | .cri, 1 => some pageCri1
  | .wck, 1 => some pageWck1
  | .mot, 1 => some pageMot1
  | .pwr, 1 => some pagePwr1
  | .wlp, 2 => some pageWlp2
  | _, _ => none

/-- How many bytes of a block's array page are used (R46, R69 and the page tables of the chapters); none where the
page is no array page. -/
def arrayLen (b : Blk) (n page : Nat) : Option Nat :=
  match b, page with
  | .hif, 2 => some 0x1000
  | .hif, 3 => some 0x1000
  | .hif, 4 => some 0x1000
  | .hif, 5 => some 0x1000
  | .hif, 8 => some 0x1000
  | .hif, 9 => some 0x1000
  | .hif, 10 => some 0x40
  | .bca, 3 => some 0x1000
  | .chm, 1 => some 0x200
  | .chm, 2 => some 0x800
  | .chm, 3 => some 0x1000
  | .pwr, 2 => some 0x1000
  | .wlp, 1 => some (16 * 163)
  | .wlp, 3 => some 0x1000
  | .wlp, 4 => some 0x1000
  | .wlp, 5 => some (64 * 35)
  | .wlp, 6 => some 0
  | .cnt, p => if p < 16 then some 0x1000 else none
  | .buf, 4 => if n = 0 then some 0x400 else none
  | .buf, p => if n = 0 ∧ 8 ≤ p ∧ p < 16 then some 0x1000 else none
  | .grz, 2 => some 0x400
  | .srv, 3 => some 0x100
  | .wck, 2 => some 0x800
  | .wck, 3 => some 0x1000
  | .fmt, 3 => some 0x400
  | .rch, 2 => some 0x1000
  | .rch, 3 => some 0x100
  | .rch, p => if 8 ≤ p ∧ p < 16 then some 0x1000 else none
  | .evt, 2 => some 0x68
  | .evt, 3 => some 0x200
  | .evr, p => if p * 0x1000 < 0x12000 then some 0x1000 else none
  | _, _ => none

/-- The reset words of the classification array of Chimney (R470, R490): entry k as (N, T, MINOR, SEVERE). Action bits
are R 1, I 2, E 4 for a half and R 1, S 2, W 4 for Mantle (R469). -/
def classReset (k : Nat) : Nat × Nat × Nat × Nat :=
  match k with
  | 1 => (1, 1, 7, 7)  -- counter-saturated
  | 2 => (16, 60000, 1, 7)  -- reader-dropped
  | 3 => (16, 1000, 1, 7)  -- sample-overrun
  | 4 => (4, 1000, 3, 7)  -- rate-step
  | 5 => (8, 1000, 1, 7)  -- lock-fail
  | 6 => (4, 10000, 3, 7)  -- harness-frame
  | 7 => (1, 1, 7, 7)  -- preamp-fault
  | 8 => (1, 1, 7, 7)  -- preamp-persistent
  | 9 => (1, 1, 3, 3)  -- harness-inserted
  | 10 => (1, 1, 7, 7)  -- harness-removed-active
  | 11 => (1, 1, 7, 7)  -- harness-supply
  | 12 => (1, 1, 7, 7)  -- wick-fault
  | 13 => (8, 60000, 1, 7)  -- band-split
  | 14 => (1, 1, 7, 7)  -- stripe-lost
  | 15 => (1, 1, 7, 7)  -- spares-low
  | 16 => (32, 10000, 1, 7)  -- buffer-ce
  | 17 => (1, 1, 7, 7)  -- buffer-ue
  | 18 => (1, 1, 7, 7)  -- buffer-poison
  | 19 => (1, 1, 7, 7)  -- bitmap-err
  | 20 => (1, 1, 7, 7)  -- dimm-train
  | 21 => (1, 1, 7, 7)  -- socket-trip
  | 22 => (1, 1, 7, 7)  -- cache-data-ue
  | 23 => (1, 1, 7, 7)  -- cache-tag-lost
  | 24 => (1, 1, 3, 3)  -- sdm-error
  | 25 => (1, 1, 3, 3)  -- speed-down
  | 26 => (1, 1, 7, 7)  -- surprise-removal
  | 27 => (1, 1, 3, 3)  -- ring-error
  | 28 => (1, 1, 7, 7)  -- ke-fault
  | 29 => (1, 1, 7, 7)  -- start-fail
  | 30 => (4, 60000, 3, 7)  -- rotor-lost
  | 31 => (1, 1, 7, 7)  -- pll-unlock
  | 32 => (10, 60000, 1, 7)  -- meter-over
  | 33 => (1, 1, 7, 7)  -- wear-lamp
  | 34 => (1, 1, 3, 3)  -- firmware
  | 48 => (1, 1, 7, 7)  -- rail-fault
  | 49 => (1, 1, 7, 7)  -- motor-clock
  | 50 => (8, 10000, 1, 3)  -- ladder
  | 51 => (1, 1, 3, 3)  -- chopper-failed
  | 52 => (1, 1, 1, 1)  -- chopper-hot
  | 53 => (16, 60000, 1, 3)  -- ownership
  | 54 => (1, 1, 3, 3)  -- retract-timeout
  | 55 => (4, 60000, 1, 3)  -- watchdog
  | 56 => (3, 65535, 1, 3)  -- lockstep
  | 57 => (1, 1, 3, 3)  -- glim-fail
  | 58 => (1, 1, 3, 3)  -- boot-fail
  | 59 => (1, 1, 3, 3)  -- strap
  | 60 => (1, 1, 1, 1)  -- image-reject
  | _ => (0, 0, 0, 0)

end Sys2Proof.Machine
end

