-- ==== Sys2Proof/Machine/Sparse.lean ====
section
/-! DEFINITION. Sparse tables: a list of (key, value) pairs in one canonical form, keys strictly rising and no value
equal to what an unlisted key reads as. Every table of State is one of these, so that equal tables are equal data. -/

namespace Sys2Proof.Machine

/-- What is listed at a key, if anything is. -/
def smFind {α : Type} : SMap α → Nat → Option α
  | [], _ => none
  | (k', v) :: t, k => if k = k' then some v else smFind t k

/-- The table with an entry at a key, in rising order of keys. -/
def smInsert {α : Type} : SMap α → Nat → α → SMap α
  | [], k, v => [(k, v)]
  | (k', v') :: t, k, v =>
    if k < k' then (k, v) :: (k', v') :: t
    else if k = k' then (k, v) :: t
    else (k', v') :: smInsert t k v

/-- The table without the entry at a key. -/
def smErase {α : Type} : SMap α → Nat → SMap α
  | [], _ => []
  | (k', v') :: t, k => if k = k' then smErase t k else (k', v') :: smErase t k

/-- Reading a table whose unlisted keys read as `d`. -/
def smGet {α : Type} (d : α) (m : SMap α) (k : Nat) : α := (smFind m k).getD d

/-- Writing a table whose unlisted keys read as `d`: writing `d` removes the entry. -/
def smPut {α : Type} [DecidableEq α] (d : α) (m : SMap α) (k : Nat) (v : α) : SMap α :=
  if v = d then smErase m k else smInsert m k v

/-- The table without the entries whose key is in [lo, hi). -/
def smClear {α : Type} (m : SMap α) (lo hi : Nat) : SMap α :=
  m.filter fun e => !(decide (lo ≤ e.1) && decide (e.1 < hi))

/-- The canonical form: keys strictly rising, and no entry equal to what its key reads as when unlisted (`d` may
depend on the key). -/
def smWf {α : Type} [DecidableEq α] (d : Nat → α) (m : SMap α) : Bool :=
  m.all (fun e => e.2 ≠ d e.1) && decide (m.Pairwise fun x y => x.1 < y.1)

end Sys2Proof.Machine
end

