-- ==== Sys2Proof/Machine/State.lean ====
section
/-! DEFINITION. The state of the module, as plain data: the register space as one sparse table of words, and for each
unit the internal state that its chapter gives it. A table's unlisted key reads as the unit's state at reset. -/

namespace Sys2Proof.Machine

/-- Why the machine stops with a fault. Only an event the spec itself puts outside what it promises raises one. -/
inductive Fault where
  /-- Raised by a Service DMA descriptor that writes into a table of an attached HDA, which R381 forbids and puts
  outside the specification. Safe: the machine stops where the hardware promises nothing. -/
  | outsideSpecification (rule : String)
  deriving DecidableEq, Repr

/-- Why the machine refuses a command. -/
inductive Refusal where
  /-- Raised by an arm of `exec` whose command has no meaning yet. Safe: the machine stops. -/
  | notModelled (mnemonic : String)
  deriving DecidableEq, Repr

/-! ### Board, straps, resets -/

/-- A reset source of R423. -/
inductive Source where
  | cold
  | auxBo
  | mainBo
  | mrst
  | half (h : Half)
  | port (h : Half)
  | hda (n : Nat)
  | block (h : Half) (code : Nat)
  deriving DecidableEq, Repr

/-- Supplies, pins and straps of the carrier (R24 to R43, R509). -/
structure Board where
  /-- AUX_3V3 is good. -/
  auxGood : Bool
  /-- PSEN_N is low: the module is seated. -/
  psenLow : Bool
  /-- The hot-swap switch is closed (R25). -/
  hotSwap : Bool
  /-- The bus ramp has ended (R26). -/
  rampEnded : Bool
  /-- Back-feed from the motor bus into 12V_MAIN is blocked (R26). -/
  backfeedBlocked : Bool
  /-- MRST_N is low. -/
  mrstLow : Bool
  /-- MAIN_BO is armed (R509). -/
  mainBoArmed : Bool
  /-- The strap measurement timeline runs: AUX_3V3 came good after a COLD or AUX_BO (R41). -/
  strapRun : Bool
  /-- The conversions taken so far in the set in progress (R41). -/
  conversions : List Nat
  /-- The first set of conversions has ended, and POWER_UP is recorded (R476). -/
  firstSet : Bool
  /-- The chopper power-on test has run (R240, R438). -/
  chopTested : Bool
  /-- Socket switches closed, bit 8h + n (R30). -/
  socketClosed : Nat
  /-- Socket switches tripped and not yet cleared, bit 8h + n (R30). -/
  socketTripped : Nat
  /-- Presence pins that are low, bit 2 * HDA + pin (R34). -/
  pins : Nat
  /-- TRC_PRES_N is low (R36). -/
  probe : Bool
  /-- PERST# asserted, bit per port. -/
  perst : Nat
  /-- Cable presence high, bit per port: no cable mated. -/
  cableOut : Nat
  /-- The cable's reference clock is present, bit per port (R458). -/
  cableRef : Nat
  /-- The ports' data link layers are out of the up state, and the 10 ms timer of R319 runs, bit per port. -/
  dlDown : Nat
  /-- The half link is down for a cause other than a reset (R358). -/
  halfLinkDown : Bool
  /-- The Glim tick of the last recorded assertion, until a hold of 1 ms or more has passed (R430). -/
  causeTick : Option Nat
  /-- Requests of a request page whose source is still asserted (R426). -/
  reqOpen : List (Half × Source)
  deriving DecidableEq, Repr, Inhabited

/-- One event waiting for the recorder (R479, R480). -/
structure EvRec where
  code : Nat
  p0 : Nat
  p1 : Nat
  p2 : Nat
  time : Nat
  deriving DecidableEq, Repr, Inhabited

/-- What a collector keeps for one source (R471, R472): COUNT, WSTART in µs, whether the source is severe, and the open
record. -/
structure SrcState where
  count : Nat
  wstart : Nat
  severe : Bool
  /-- Glim time in µs at which the window of the latest message ends (R471). -/
  winEnd : Nat
  record : Option Nat
  deriving DecidableEq, Repr, Inhabited

/-- A collector, Chimney of a half or Mantle's: its input FIFO of 64-bit messages and its sources (R468, R471). -/
structure Collector where
  fifo : List (BitVec 64)
  srcs : SMap SrcState
  /-- Mantle only: sources whose message took S without a record, with kind and time of the last message (R475). -/
  unrec : List (Nat × Nat × Nat)
  deriving DecidableEq, Repr, Inhabited

/-- A request latched at a mailbox GO (R395). -/
structure MbReq where
  op : Nat
  seq : Nat
  arg0 : Nat
  arg1 : Nat
  deriving DecidableEq, Repr, Inhabited

/-- What Mantle keeps for one half beside its registers. -/
structure MantleHalf where
  /-- The request pending, latched at GO (R395). -/
  req : Option MbReq
  /-- HELD of the valid answer of the window in progress (R401). -/
  answer : Option Nat
  /-- Glim time at which the poll window in progress began, in µs (R401). -/
  tickTime : Nat
  /-- The poll window in progress is open. -/
  windowOpen : Bool
  /-- HDAs granted since the last poll tick: the window in progress does not count for them (R400). -/
  fresh : Nat
  /-- HDAs in a disagreement episode (R405). -/
  episodes : Nat
  /-- The watchdog state WARNED was entered from BOOT (R411). -/
  warnedFromBoot : Bool
  /-- The watchdog's period in force, in ms: PERIOD as the last correct kick found it (R411). -/
  period : Nat
  /-- Slot of the last boot that failed, if the last boot failed (R413). -/
  failedSlot : Option Nat
  /-- Both slots have failed one after the other: the half is held (R413). -/
  bootHeld : Bool
  /-- The half's last good slot (R413). -/
  lastGood : Option Nat
  /-- Slot recorded by NEXT_SLOT (R413). -/
  nextSlot : Option Nat
  /-- Slot of the boot in progress, or booted. -/
  slot : Nat
  /-- The slot check has passed, and the firmware runs (R413). -/
  running : Bool
  /-- The first correct kick of this boot has come. -/
  kicked : Bool
  /-- This boot has failed (R413). -/
  bootFailed : Bool
  /-- Interrupts raised to the half's control firmware since reset. -/
  irqs : Nat
  deriving DecidableEq, Repr, Inhabited

/-- An image held by Mantle: type, SVN and words (R414 to R417). -/
structure Image where
  type : Nat
  svn : Nat
  bytes : List Byte
  deriving DecidableEq, Repr, Inhabited

/-- The image intake while it is not closed (R415): the half it is open for, its type and length, the bytes written, and
whether an INTAKE_CHECK has begun. An unwritten byte reads 0. -/
structure Intake where
  half : Half
  type : Nat
  len : Nat
  bytes : List Host.Cell
  checking : Bool
  deriving DecidableEq, Repr

/-- An emergency retract in progress (R408, R420): MNT_RETCFG as it began, VEL in 10 mm/s, LATCH_MA in 10 mA and TMO in ms, and the
current that the sequencer commands, in 0.1 mA, positive inward. -/
structure Retract where
  vel : Nat
  latchMa : Nat
  tmo : Nat
  cur : Int
  deriving DecidableEq, Repr, Inhabited

/-- What Mantle keeps for itself beside its registers. -/
structure MantleCore where
  /-- The core runs (R392): false from a lockstep mismatch or a Mantle patch until its restart ends. -/
  coreUp : Bool
  /-- Requests in order of arrival (R395). -/
  order : List Half
  /-- The intake, while it is not closed (R415). -/
  intake : Option Intake
  /-- Accepted firmware images by slot (R417). -/
  slots : SMap Image
  /-- The accepted Wick patch (R178). -/
  wickPatch : Option Image
  /-- The accepted Mantle patch (R417). -/
  mantlePatch : Option Image
  /-- Emergency retracts whose latch push runs, bit 2h + a (R408). -/
  latchPush : Nat
  /-- The emergency retracts in progress, by actuator (R408). -/
  retracts : SMap Retract
  /-- Retracts that AUX_BO waits for before it reaches Mantle (R427). -/
  auxBoPending : Bool
  deriving DecidableEq, Repr, Inhabited

/-! ### Harness and preamplifiers -/

/-- Who issued a preamplifier frame (R80, R82, R87, R146): a Wick's FRM word, the formatter for a media operation's head
selection, software, the port state machine, the heater update, a calibration. -/
inductive FrameOwner where
  | wick
  | media
  | software
  | identify
  | sleep
  | heater
  | servo
  deriving DecidableEq, Repr, Inhabited

/-- A frame of a serial bus: its issuer, bits [31:8] of it, and whether it is being repeated (R77, R79). -/
structure BusFrame where
  owner : FrameOwner
  bits : BitVec 24
  repeated : Bool
  deriving DecidableEq, Repr, Inhabited

/-- One actuator's preamplifier and serial bus (R73 to R82). -/
structure Preamp where
  /-- Preamplifier registers by ADDR, as the acknowledged writes have left them, with FAULT at 0x03 (R81, R82). -/
  regs : SMap Nat
  /-- The frame in progress. -/
  cur : Option BusFrame
  /-- Frames waiting, in order of issue. -/
  queue : List BusFrame
  /-- The FAULT value of the first read after the fault line fell (R82). -/
  firstFault : Nat
  /-- The reading of 10 µs after it is due (R82). -/
  persistDue : Bool
  /-- PTYPE has been read and matched in the identification in progress (R85). -/
  ptypeOk : Bool
  /-- Microactuator outputs of this actuator are held at 0 V. -/
  maZero : Bool
  /-- Servo gate level. -/
  sg : Bool
  deriving DecidableEq, Repr, Inhabited

/-- One harness port (R84 to R87). -/
structure Grz where
  /-- PA_5V and PA_N3V are on. -/
  supply : Bool
  /-- An EEPROM transfer is in progress. -/
  eeprom : Bool
  /-- The 1,024 bytes read from the identity EEPROM in the identification in progress. -/
  identity : List Byte
  /-- Actuator 1's software frame of a PAGO with both bits waits for actuator 0's (R90). -/
  second : Bool
  deriving DecidableEq, Repr, Inhabited

/-- How a formatter operation ends (R158, and R79, R82, R89, R117, R123, R173, R175, R180, R208, R211). -/
inductive OpStatus where
  | ok
  | stripeLost
  | writeFault
  | bandReach
  | bandRetired
  | formatOff
  | formatTables
  | harnessFrame
  | preampFault
  | harnessOff
  | rateRange
  | wickFault
  | wickOff
  | seekFail
  | timeout
  | aborted
  | notOwned
  | servoOff
  | spindleOff
  | channelOff
  | channelCfg
  deriving DecidableEq, Repr, Inhabited

/-- A formatter operation that has ended, for the command it served: the command, the actuator, the request, the status,
and the stripe positions lost (key 64 * stripe group + position). -/
structure OpDone where
  cmd : Nat
  act : Nat
  kind : Nat
  band : Nat
  group : Nat
  status : OpStatus
  lost : List Nat
  /-- It is one of the requests that the command waits for. -/
  counted : Bool
  deriving DecidableEq, Repr, Inhabited

/-! ### Wick -/

/-- A gate change scheduled by EDGE (R172). -/
structure EdgeEntry where
  wg : Bool
  rg : Nat
  pos : Nat
  deriving DecidableEq, Repr, Inhabited

/-- A frame announced by SECT (R168). -/
structure TagEntry where
  frame : Nat
  write : Bool
  last : Bool
  /-- Slots whose sync window has closed on the frame. -/
  taken : Nat
  deriving DecidableEq, Repr, Inhabited

/-- What a stalled microword waits for (R168). -/
inductive Stall where
  | none
  | wwed (index : Nat)
  | wsym (pos : Nat)
  | edge (e : EdgeEntry)
  | sect (t : TagEntry)
  | wch
  | recov (frame : Nat)
  | frame
  | frameRead (xs : Nat)
  | seek
  | wcond (cond : Nat)
  | post (status : Nat)
  deriving DecidableEq, Repr, Inhabited

/-- One Wick sequencer (R165 to R178). -/
structure Wick where
  x : SMap (BitVec 24)
  z : Bool
  ers : Bool
  spl : Bool
  /-- Micro-stack, newest entry first. -/
  stack : List Nat
  tags : List TagEntry
  edges : List EdgeEntry
  /-- The read-gate slot mask and the write-gate state set by the last edge applied (R172). -/
  rg : Nat
  wg : Bool
  /-- Where the write-gate state last rose, and where it was up before: symbols from the band's wedge 0, newest first (R152). -/
  wgFrom : Option Nat
  wgHigh : List (Nat × Nat)
  /-- Blanking holds the gates low (R172). -/
  blank : Bool
  stall : Stall
  /-- The word in execution when a stall began, and whether TRACE was 1 then (R180, R485). -/
  word : Word
  traced : Bool
  /-- An abort request is pending or its vector runs; the row of R174 that raised it, and the formatter status it ends
  with (R158). -/
  abort : Option Nat
  aborting : Bool
  abortStatus : OpStatus
  /-- The servo's answer to SEEK: Z (R198). -/
  seekAns : Option Bool
  /-- A frame of FRM or FRMX has ended, with the data of a read (R168). -/
  frameAns : Option Nat
  /-- Cycles left of a WCOND, and the cycles the word has stalled (R169, R485). -/
  stallCycles : Nat
  /-- Frames announced and not yet settled, with the slots still to report, and (frame, slot) pairs reported erased
  (R168). -/
  open_ : SMap Nat
  bad : List (Nat × Nat)
  /-- Those of them announced with WRITE = 1. -/
  writes : List Nat
  /-- The descriptor of the operation in progress. -/
  desc : Option Desc
  /-- Current servo wedge index and symbol position. -/
  wedge : Nat
  sym : Nat
  /-- Mantle holds the next descriptor for patching (R178), or a patch must be rewritten first (R429). -/
  held : Bool
  patchDue : Bool
  /-- A frame announced with LAST whose end drops the gates. -/
  lastFrame : Option TagEntry
  deriving DecidableEq, Repr, Inhabited

/-! ### Stream channels -/

/-- The adapted state of one head of a slot (R94, R125): the FIR taps of reader 0 and then of reader 1, target taps g1 and g2,
the noise predictors by condition and tap, all signed in steps of 2^-8; CTLE boosts in steps of 0.5 dB and AGC gains in steps
of 2^-10 of both readers. Missing list entries are 0. -/
structure Adapted where
  fir : List Int
  g1 : Int
  g2 : Int
  np : List Int
  ctle : Nat × Nat
  agc : Nat × Nat
  deriving DecidableEq, Repr, Inhabited

/-- One slot of sample memory (R104): the number of the frame's samples among the free values, how many of the 40,768 entries
it has stored, and the number of the frame before it, whose entries stand beyond those. -/
structure SampleSlot where
  seed : Option Nat
  have_ : Nat
  prev : Option Nat
  deriving DecidableEq, Repr, Inhabited

/-- A sector as the write path last wrote it on a slot (R96, R97, R268): index of its frame, the frame symbol at which a wedge
splits it, its tag and user data, and whether its parity bits are inverted. DESIGN CHOICE (log 149). -/
structure WrittenFrame where
  index : Nat
  split : Nat
  tag : List Byte
  data : Sector
  spoiled : Bool
  deriving DecidableEq, Repr, Inhabited

/-- One sector in a channel: being received, decoded, or kept in sample memory (R103 to R110). -/
structure ChSector where
  /-- Frame index, if one was announced for it, and the pass it belongs to. -/
  frame : Option Nat
  desc : Desc
  /-- The operation it belongs to still runs. -/
  live : Bool
  /-- Its samples are in sample memory (R104, R122), in this slot. -/
  inMem : Bool
  slot : Nat
  split : Bool
  /-- The lowest position of its sync window (R103, R123). -/
  winLo : Nat
  /-- Distance of every candidate position of the window, the first position tried, and SM_MISS (R103). -/
  dists : List (Nat × Nat)
  p0 : Nat
  miss : Bool
  /-- The resync mark was missed (R102), and the second fragment's offset from its nominal position. -/
  rsMiss : Bool
  rsShift : Int
  /-- The lock check failed (R100), or both readers were weak (R95); split by a wedge with an excessive step (R116). -/
  lockBad : Bool
  rateStep : Bool
  /-- 0 receiving, 1 first decode, 2 re-detection, 3 hypothesis decode, 4 recovery, 5 reported. -/
  phase : Nat
  /-- Hypotheses tried: position of the first fragment and shift of the second; the one in progress is the last. -/
  tried : List (Nat × Int)
  /-- Positions of failed decodes. -/
  failed : List Nat
  status : Nat
  /-- OTF_MAX as the decode in progress began, and the iterations of the last decode that ended (R109, R126). -/
  limit : Nat
  iters : Nat
  /-- The hypothesis whose re-detection overlaps the decode in progress, and whether it is done (R106). -/
  next : Option (Nat × Int)
  nextDone : Bool
  /-- Recovery rounds run; the variant of the round in progress, and whether the decoder's extrinsic information is fed back
  into its detector pass (R110). -/
  round : Nat
  variant : Nat
  feedback : Bool
  deriving DecidableEq, Repr, Inhabited

/-- One stream channel (R91 to R127). -/
structure Rch where
  /-- The sectors of sample memory and of the decoder, oldest first. -/
  secs : List ChSector
  /-- The adapted states of the slot's heads: 0 and 1 of groups 0 and 1, 2 of the verify reader (R94, R111); which one is in use
  or was last; the signal-to-noise estimates of the last sector, 0.1 dB (R125). -/
  sets : SMap Adapted
  inUse : Nat
  snr : Nat × Nat
  /-- Timing recovery (R99, R100): nominal frequency in symbols per ns, frequency integrator and phase; and whether the last
  lock check passed. -/
  fnom : Rat
  integ : Rat
  phase : Rat
  locked : Bool
  /-- Sample memory: four slots, and the slot of the next frame (R104). -/
  slots : SMap SampleSlot
  nextSlot : Nat
  /-- VFY_MAX as the verify decode in progress began (R123). -/
  vfyMax : Nat
  /-- The sector last written on the slot. -/
  wrote : Option WrittenFrame
  /-- The operation of the last frame has ended. -/
  opEnded : Bool
  /-- SERVO was entered from IDLE (R112). -/
  fromIdle : Bool
  /-- The first ERASED_LOCK of the operation has been reported to Chimney (R119). -/
  lockSent : Bool
  /-- Entries written to the sector result log (R126). -/
  seq : Nat
  deriving DecidableEq, Repr, Inhabited

/-! ### Formatter -/

/-- One entry of the rewrite queue (R156, R164). -/
structure RwqEntry where
  band : Nat
  group : Nat
  kind : Nat
  attempts : Nat
  stripe : Nat
  mask : Nat
  /-- The Snuffer cause OWNER made it (R152). -/
  owner : Bool
  /-- The held command whose write made it (0 for none), and the GEN of the sectors to be rewritten. -/
  cmd : Nat
  gen : Nat
  deriving DecidableEq, Repr, Inhabited

/-- What the channel reported for one stripe position of the operation (R118, R139). -/
structure SecResult where
  status : Nat
  gen : Nat
  data : Sector
  deriving DecidableEq, Repr, Inhabited

/-- Work waiting for the formatter: an operation descriptor's KIND (R171), the held command it serves (0 for none), and
the stripe groups it covers in one band. -/
structure FmtReq where
  kind : Nat
  cmd : Nat
  group : Nat
  band : Nat
  stripe : Nat
  count : Nat
  /-- The write asks for a verify in a later revolution (R155), or this is such a verify. -/
  verify : Bool
  /-- A read that fetches the missing sectors of a partial stripe group for the write behind it (R148). -/
  fill : Bool
  /-- A verify that follows a rewrite: the rewrites made so far (R154). -/
  attempts : Nat
  /-- The command that work without a `cmd` of its own serves: a rewrite, a spilled stripe group, a verify of a rewrite. -/
  src : Nat
  deriving DecidableEq, Repr, Inhabited

/-- The operation in progress. -/
structure FmtOp where
  req : FmtReq
  mode : Nat
  /-- Index of the pass within the band (R133), and of the retry revolution (R140). -/
  pass : Nat
  retries : Nat
  /-- GEN loaded for each stripe group whose write has begun (R148). -/
  gens : SMap Nat
  /-- The rewrite-queue entry this operation serves, if it serves one. -/
  entry : Option RwqEntry
  /-- Sectors erased in the first pass and in every retry revolution so far (R143), and stripe groups counted as torn. -/
  stuck : List (Nat × Nat)
  torn : List Nat
  /-- It serves a neighbour check that has no queue entry (R157). -/
  direct : Bool
  /-- Sectors written so that no decode of them converges (R268). -/
  ues : List (Nat × Nat)
  /-- Its last pass ended with RATE_RANGE and is repeated once the speed is in range (R346). -/
  rangeWait : Bool
  deriving DecidableEq, Repr, Inhabited

/-- A stripe group marked for a complete write (R157): for whose command, and whether that asked for a verify. -/
structure SpillMark where
  band : Nat
  group : Nat
  stripe : Nat
  cmd : Nat
  verify : Bool
  deriving DecidableEq, Repr, Inhabited

/-- A write between two of its passes while entries of the rewrite queue are served (R156). -/
structure HeldWrite where
  op : FmtOp
  results : SMap SecResult
  deriving DecidableEq, Repr, Inhabited

/-- One formatter (R128 to R164). -/
structure Fmt where
  queue : List FmtReq
  op : Option FmtOp
  /-- Results of the operation in progress, key 64 * stripe group + stripe position. -/
  results : SMap SecResult
  rwq : List RwqEntry
  /-- RWQ_FULL: set at 64 entries, cleared at 48 (R156). -/
  rwqFull : Bool
  /-- Stripe groups marked for a complete write (R157). -/
  spill : List SpillMark
  /-- The write that waits between two passes. -/
  held : Option HeldWrite
  /-- The neighbour check that runs as the next operation for want of an entry (R157). -/
  nextCheck : List RwqEntry
  /-- Snuffer causes active: tripped and not yet re-armed (R153). -/
  pos : Bool
  shock : Bool
  implaus : Bool
  owner : Bool
  /-- Consecutive wedges without the cause (R153). -/
  cleanPos : Nat
  cleanImplaus : Nat
  /-- Snuffer has passed the last wedge for every head of the pass (R151). -/
  passed : Bool
  /-- The grown list is to be written within 1 s (R143). -/
  grownDue : Bool
  /-- Relocations that wait for an entry (R157). -/
  relocWait : List RwqEntry
  /-- Speed of the last heater frames, rpm (R146). -/
  heaterRpm : Nat
  /-- The next pass is one of a band split under way (R134). -/
  splitting : Bool
  /-- The frames cut by that split. -/
  cut : List Nat
  /-- The pass has been cut by Snuffer, or ends at the next frame boundary for want of an entry: what is not yet written is
  written in a later pass (R152, R157). -/
  snuffed : Bool
  cutting : Bool
  /-- A status that the operation ends with whatever it posts: WRITE_FAULT of R153, for one. -/
  endAs : Option OpStatus
  deriving DecidableEq, Repr, Inhabited

/-! ### Servo -/

/-- A measurement of R202 in progress: segment, the groups it measures (bit mask), what started it: 0 reach alarm,
1 SRV_CALCMD.ONE, 2 sweep, 3 background; the group being measured, the revolutions to average over, the wedges averaged and the
sums of pos - c of each head, in 1/256 track. -/
structure CalRun where
  seg : Nat
  groups : Nat
  why : Nat
  group : Nat
  revs : Nat
  wedges : Nat
  sums : SMap Int
  deriving DecidableEq, Repr, Inhabited

/-- A seek profile (R195): current of its acceleration phase in 0.1 mA, signed, and of its coast; lengths of its three phases in
wedges; wedges run; and whether it is the correction profile (R196). -/
structure Profile where
  cur : Int
  coastCur : Rat
  acc : Nat
  coast : Nat
  dec : Nat
  run : Nat
  correction : Bool
  deriving DecidableEq, Repr, Inhabited

/-- One servo engine (R183 to R209). Positions are in tracks, exact; currents in 0.1 mA. -/
structure Srv where
  /-- The last 16 intervals between servo address marks, in 1 GHz cycles, newest first (R114), and those that the channels have
  taken. -/
  intervals : List Nat
  ivRated : List Nat
  /-- What cycle 0 of the last computation read (R188): the eight words of page 1 and SRV_CTL; none before the first. -/
  pars : Option (List Word)
  /-- Model states: comb position, velocity per wedge and force bias (R193). -/
  pos : Rat
  vel : Rat
  bias : Rat
  /-- Modelled microactuator strokes of heads 0 to 7, in tracks (R193). -/
  stroke : SMap Rat
  /-- Predictions of the PES of the heads of the pass for the next wedge, in tracks, by head-in-group (R193). -/
  pred : SMap Rat
  /-- Comb position that the last wedge measured (R195, R196), in tracks. -/
  comb : Rat
  /-- Offsets of the heads of the pass, in tracks, by head-in-group, from the entry it was planned from (R189, R204). -/
  passOff : SMap Rat
  /-- Distance of the moving follow reference from the target, in tracks (R195). -/
  refOff : Rat
  /-- Loop integrators of the VCM and of the microactuators (R189). -/
  integ : Rat
  maInteg : SMap Rat
  /-- u_last of a bumpless transfer whose first follow output is still to come (R196). -/
  handed : Option Rat
  /-- PES of each head of the last wedge, measured or replaced, 1/256 track, by head-in-group. -/
  pes : SMap Int
  /-- While loading: consecutive SAMs with consecutive indices, and last position in 1/256 track, by head-in-group
  (R205). -/
  lockRun : SMap Nat
  lastPos : SMap Int
  /-- Demodulation has ended and the computation of this wedge has not (R188). -/
  computing : Bool
  /-- Outputs computed and not yet applied: VCM current and microactuator millivolts (R188). -/
  due : Bool
  outCur : Int
  outMa : SMap Int
  /-- Every head of the last wedge was replaced (R194). -/
  allReplaced : Bool
  /-- Controller coefficient point loaded at wedge 0: the wedge period in 1 GHz cycles, limited (R200). -/
  coefPeriod : Nat
  profile : Option Profile
  /-- A SEEK of Wick waits for its answer: its KIND (R198); and one that waits for a reach alarm's measurement: KIND and band
  (R203). -/
  seek : Option Nat
  seekLater : Option (Nat × Nat)
  /-- A seek runs that has neither settled nor failed, and its wedges (R197). -/
  seekRun : Bool
  seekWedges : Nat
  /-- Consecutive wedges within SETTLE_TH (R197). -/
  settleRun : Nat
  /-- Second phase of PARK, or RETRACT: driving outward under back-EMF velocity control (R206). -/
  ramp : Bool
  /-- The latch push of R206 runs. -/
  latch : Bool
  /-- Glim time at which LOAD, PARK or RETRACT began, µs (R205, R207). -/
  retStart : Nat
  /-- RETRACT was entered from a retract cause, not by PARK. -/
  retracting : Bool
  /-- The loop has closed in LOADING (R205). -/
  locked : Bool
  /-- Ownership has been withdrawn: OFF at the next wedge (R208). -/
  ownLost : Bool
  /-- Reach alarm in force for the pass, and one held during SETTLE (R192, R198). -/
  alarm : Bool
  alarmHeld : Bool
  cal : Option CalRun
  /-- Requests of calibration waiting for an idle moment (R203). -/
  calOne : Option Nat
  sweepAt : Option Nat
  /-- The shortened background interval is in force, and segments left to a full coverage (R203). -/
  fast : Bool
  covLeft : Nat
  /-- Glim time of the last background measurement, µs (R203). -/
  calAt : Nat
  /-- Last two alpha values in rad/s², and whether a sample has arrived within 1 ms (R199). -/
  alpha0 : Rat
  alpha1 : Rat
  rvFresh : Bool
  deriving DecidableEq, Repr, Inhabited

/-- What one slot of the pass gave in a wedge (R186, R187, R193). -/
structure SlotObs where
  /-- Head-in-group. -/
  k : Nat
  missing : Bool
  implausible : Bool
  /-- PES, measured or replaced, in 1/256 track. -/
  pes : Int
  /-- Position in 1/256 track and decoded track number, when the wedge was read. -/
  pos : Int
  tid : Nat
  deriving DecidableEq, Repr, Inhabited

/-! ### Spindle and motor bus -/

/-- One spindle engine and its motor, beside its registers (R216 to R244). Speeds are in 1/64 rpm. -/
structure Spn where
  /-- Speed that the back-EMF shows, measured by the motor die in every state (R86, R222). -/
  emf : Nat
  /-- Commutation steps within the revolution, 0 to 35; the commutation step of R216 is this modulo 6. -/
  step : Nat
  /-- The observer (R218): its step period in ns, the periods of the last 36 steps (R222), the steps since the last confirmed
  crossing, and the ns from that crossing to the start of this step. -/
  period : Nat
  periods : List Nat
  since : Nat
  sinceNs : Nat
  /-- SOFT and BLANK as this electrical cycle took them (R248), and the length of the step's soft edge in ns (R217). -/
  soft : Nat
  blank : Nat
  edgeNs : Nat
  /-- Steps of the blind ramp made, and RAMP_T in ms and I_PULSE_LIM in mA as the phase took them (R231, R249). -/
  rampK : Nat
  rampT : Nat
  pulseLim : Nat
  /-- Glim time at which ALIGN, SENSE, RAMP or COAST began, in µs, and how long the phase lasts (R229 to R233). -/
  phaseAt : Nat
  phaseUs : Nat
  /-- Runs of consecutive unconfirmed, skipped and confirmed steps (R219, R220, R231, R234). -/
  unconf : Nat
  skips : Nat
  conf : Nat
  /-- Consecutive steps with an overcurrent trip, and whether one fell in this step (R234). -/
  ocpRun : Nat
  ocpNow : Bool
  /-- The measures of R220 are in force. -/
  skipOn : Bool
  /-- Speed reference, slew in force in 1/64 rpm per second, and current command in mA (R222 to R224). -/
  ref : Nat
  slew : Nat
  cur : Nat
  /-- A decrease of the reference is being braked (R223). -/
  slowing : Bool
  /-- Glim time since which the speed has been within ±0.5 % of the target, µs (R232). -/
  nearAt : Option Nat
  /-- Glim time of the last Ke measurement, µs (R225, R226). -/
  keAt : Nat
  /-- The reference is held by R226; repeats made and those above 15 %. -/
  keHold : Bool
  keRepeats : Nat
  keHigh : Nat
  /-- A Ke measurement is postponed (R225). -/
  keWaits : Bool
  /-- State left at the loss of the rotor (R235), and whether the catch belongs to a start (R228). -/
  left : Nat
  startCatch : Bool
  /-- Agreement found: commutation resumed in CATCH (R235). -/
  resumed : Bool
  /-- WAIT_SLOT entered between 30 and 300 rpm: the request is still to be made (R228). -/
  lateRequest : Bool
  /-- The start was interrupted by LADDER (R242). -/
  interrupted : Bool
  /-- STOP or an EN clear received in LADDER (R237). -/
  stopPending : Bool
  /-- A START waits for STOPPED (R242). -/
  startWaits : Bool
  /-- The spin-down in progress follows SPINDLE_FAIL (R236), or an EN clear (R237). -/
  endFailed : Bool
  endOff : Bool
  /-- Regenerative braking at the moment, and short-braking forced for the rest of this braking by step 2 (R241). -/
  regen : Bool
  forcedShort : Bool
  /-- Short-braking, below STOP_RPM or for want of a slot (R237, R238). -/
  short : Bool
  /-- Glim time at which the Taper in progress began, µs (R232). -/
  taperAt : Nat
  /-- PARK of both actuators has been asked for during this coast in CATCH (R236). -/
  parkAsked : Bool
  deriving DecidableEq, Repr, Inhabited

/-- The motor bus and Mantle's supervision of it (R227, R238 to R243). HDAs are numbered 0 to 7. -/
structure Mot where
  vbus : Nat
  pmot : Nat
  step : Nat
  chopOn : Bool
  chopFailed : Bool
  chopHot : Bool
  failKind : Nat
  seriesOpen : Bool
  feedOpen : Bool
  seekLimit : Bool
  /-- Taper and braking slots held, bit per HDA; requests for Taper slots with the Glim tick of their arrival, in order
  of tick and HDA (R227), and for braking slots in order of arrival. -/
  taper : Nat
  brake : Nat
  waitT : List (Nat × Nat)
  waitB : List Nat
  /-- Measures of R243 in force. -/
  overBudget : Bool
  /-- BUDGET and TAPER_P in W as the window in progress took them (R252). -/
  budget : Nat
  taperP : Nat
  /-- Chopper energy since cold power-on, J (R240). -/
  energy : Nat
  deriving DecidableEq, Repr, Inhabited

/-! ### Wear lamps -/

/-- What a lamp keeps beside its record (R481, R482): the sum and number of the VALUEs of the interval in progress, whether
there has been a measurement since its history was cleared, and events counted in the interval (type 7) or in all
(type 10). -/
structure Lamp where
  /-- Sum and number of the measurements of the interval in progress: of VALUE, or of the raw quantity while BASE is not set. -/
  sum : Int
  num : Nat
  seen : Bool
  /-- Corrections of the interval (type 7), episodes (type 10), or seconds of running that count in the interval (type 0). -/
  events : Nat
  deriving DecidableEq, Repr, Inhabited

/-! ### Trace -/

/-- A trace packet: TYPE, INDEX, TS and bytes 5 to 15 (R485). -/
structure TracePacket where
  type : Nat
  index : Nat
  ts : Nat
  body : List Byte
  deriving DecidableEq, Repr, Inhabited

/-- What a half's trace lanes carry in a block period (R484). -/
inductive TraceBlock where
  | idle
  | packet (p : TracePacket)
  | deskew
  deriving DecidableEq, Repr, Inhabited

/-- One stream of packets waiting to be sent, and the packets lost since its last LOSS packet (R486). -/
structure TraceStream where
  fifo : List TracePacket
  lost : Nat
  /-- A LOSS packet precedes the stream's next packet. -/
  lossDue : Bool
  deriving DecidableEq, Repr, Inhabited

/-! ### Buffer memory and cache -/

/-- How the Reservoir answers a request (R267). -/
inductive BufCause where
  | ok
  | uncorrectable
  | poison
  | addr
  | offline
  deriving DecidableEq, Repr, Inhabited

/-- A request to the buffer (R265, R270, R293): for a write its bytes, for a read its length; the errors its DRAM reads
meet; whether its wait has been counted (R296, R297). -/
structure CReq where
  cls : BufCls
  write : Bool
  ha : Nat
  len : Nat
  bytes : List Byte
  errs : List WordErr
  counted : Bool
  deriving DecidableEq, Repr, Inhabited

/-- The answer to a request: for a read its bytes, and the cause of a UE (R267). -/
structure BufAnswer where
  half : Half
  cls : BufCls
  write : Bool
  ha : Nat
  bytes : List Byte
  cause : BufCause
  deriving DecidableEq, Repr

/-- A retirement in progress (R279, R280): a bank or a page, what is retired, and the slot. -/
structure Retire where
  bank : Bool
  frm : Nat
  slot : Nat
  deriving DecidableEq, Repr, Inhabited

/-- The buffer memory of one half, beside its registers and its content (R254 to R281). -/
structure Resv where
  /-- Touched regions of 64 KiB (R273). -/
  touched : SMap Bool
  /-- Regions FILLING, in the order in which their fills began; the first 16 run. -/
  fills : List Nat
  /-- Requests that wait for a fill or a retirement copy, in order of arrival. -/
  waiting : List CReq
  /-- Pages with a merge entry, least recently written first (R271). -/
  merge : List Nat
  /-- FROM of each spare page in use, spare page 0 first (R279); of each bank slot in use (R280). -/
  remap : List Nat
  banks : List Nat
  retire : Option Retire
  /-- Log entries in use, oldest first (R266). -/
  logOrder : List Nat
  /-- The rate of the training attempt in progress (R255). -/
  rate : Nat
  deriving DecidableEq, Repr, Inhabited

/-- One line of the cache that is not FREE (R289, R292): its page, the masks of its valid, dirty and pending sub-blocks,
its lock bit, and whether it is in EVICTING. -/
structure Line where
  page : Nat
  valid : Nat
  dirty : Nat
  pend : Nat
  locked : Bool
  evict : Bool
  deriving DecidableEq, Repr, Inhabited

/-- A miss register in use (R297, R298): line, way, run, and its requests, the primary miss first. A LOCK fill has no
request. -/
structure MissReg where
  page : Nat
  way : Nat
  first : Nat
  count : Nat
  reqs : List CReq
  lock : Bool
  deriving DecidableEq, Repr, Inhabited

/-- A maintenance operation in progress (R304): OP, whether it walks sets, whether it takes every line, INCL_LOCKED, its
range, the place its walk has reached (a page or a set), the way within the set, and whether the walk has ended. -/
structure Maint where
  op : Nat
  bySet : Bool
  all : Bool
  incl : Bool
  base : Nat
  count : Nat
  at_ : Nat
  way : Nat
  walked : Bool
  deriving DecidableEq, Repr, Inhabited

/-- The cache of one half (R289 to R310). -/
structure Cache where
  /-- Lines by 16 * set + way. -/
  lines : SMap Line
  /-- Ways by use, least recent first, for the sets whose order is not 0 to 15 any more. -/
  lru : SMap (List Nat)
  /-- Miss registers in use by number. -/
  miss : SMap MissReg
  waiting : List CReq
  /-- Disabled ways (R310) by 16 * set + way. -/
  disabled : SMap Bool
  maint : Option Maint
  /-- Ways being walked: way, next set (R308). -/
  walks : SMap Nat
  deriving DecidableEq, Repr, Inhabited

/-! ### Service DMA -/

/-- One half's service DMA engine (R374 to R391). -/
structure Sdm where
  /-- Channels whose next record carries PHASE 0, bit per channel (R382). -/
  phase0 : Nat
  /-- The channel being served and the tail recorded when it was taken (R375). -/
  turn : Option (Nat × Nat)
  /-- The descriptor that runs, as its eight double words (R376, R377). -/
  desc : Option (List Nat)
  /-- Records held for want of room in their CQ, by channel: their words without PHASE, and whether they interrupt (R383,
  R384). -/
  held : SMap (List Nat × Bool)
  deriving DecidableEq, Repr, Inhabited

/-! ### Host interface -/

/-- An entry that a doorbell submitted and that is not yet fetched (R322 to R324): its place in doorbell order over both
ports, its SQ and index, and whether it is in excess of 8,192. -/
structure Entry where
  n : Nat
  sq : Nat
  idx : Nat
  excess : Bool
  /-- Buffered writes whose completion had been posted when the doorbell was accepted (R338). -/
  cover : List Nat
  deriving DecidableEq, Repr, Inhabited

/-- A command held by a port after its fetch (R323 to R362). -/
structure Cmd where
  /-- Its place in doorbell order over both ports. -/
  n : Nat
  sq : Nat
  /-- The 16 double words of its descriptor (R325), and its scatter list (R327): address and length. -/
  words : List Nat
  list : List (Nat × Nat)
  /-- The scatter list has not been read. -/
  listWait : Bool
  /-- Earlier overlapping commands not yet completed (R349), and whether there were any. -/
  behind : List Nat
  wasBehind : Bool
  started : Bool
  /-- Its media operations have been queued; its payload is staged. -/
  issued : Bool
  staged : Bool
  /-- Formatter requests not yet ended (R158), and the media sectors that this command brought into SEGMENT. -/
  left : Nat
  brought : List Nat
  /-- Stripe groups of a staged write: actuator, group, band, stripe group. -/
  stripes : List (Nat × Nat × Nat × Nat)
  /-- Sectors lost: keys of unit and MSA (R140). -/
  lost : List Nat
  /-- STATUS and DETAIL of the first operation that failed. -/
  fail : Option (Nat × Nat)
  /-- Staging room taken (R354): HDA and stripe groups. -/
  room : List (Nat × Nat)
  /-- Buffered writes that a FLUSH covers (R338). -/
  cover : List Nat
  /-- Step of HDA_ATTACH or HDA_DETACH (R343). -/
  phase : Nat
  /-- STATUS, DETAIL and RESULT once it has ended. -/
  result : Option (Nat × Nat × Nat)
  /-- Its completion is to be dropped and logged (R362). -/
  dropped : Bool
  deriving DecidableEq, Repr, Inhabited

/-- A buffered write from its staging until its stripe groups are on media (R356): its command, port and namespace, the
stripe groups (actuator, group, band, stripe group), requests not yet ended, whether its completion has been posted,
whether the last media write met WRITE_FAULT, its verify flag, its staging room, and the stripe groups whose media write is
not yet queued (R352). -/
structure BufWrite where
  n : Nat
  port : Half
  nsid : Nat
  groups : List (Nat × Nat × Nat × Nat)
  left : Nat
  posted : Bool
  fault : Bool
  verify : Bool
  room : List (Nat × Nat)
  todo : List (Nat × Nat × Nat × Nat)
  deriving DecidableEq, Repr, Inhabited

/-- A completion queue beside its table entry (R329, R330): entry to be posted next, head announced, whether the next
record carries PHASE 0, commands whose records wait for room, and records that no message has covered. -/
structure Cq where
  post : Nat
  head : Nat
  phase0 : Bool
  waiting : List Nat
  uncovered : Nat
  deriving DecidableEq, Repr, Inhabited

/-- One host port (R317 to R373) beside its registers. -/
structure Hif where
  entries : List Entry
  held : List Cmd
  /-- SQ tails (R322), and the CQs. -/
  tails : SMap Nat
  cqs : SMap Cq
  /-- The port has stopped after a surprise removal (R362). -/
  stopped : Bool
  /-- Lost sectors of the last 64 MEDIA_LOST completions (R342), oldest first. -/
  lostLog : List (List Nat)
  deriving DecidableEq, Repr, Inhabited

/-! ### The state -/

/-- The state of the module: the commands that wait, the number of the next free value, and everything the spec gives
the module. Tables are keyed by global numbers: half 0 or 1, HDA 0 to 7, actuator 8 * half + index, channel
32 * half + index. -/
structure State where
  /-- Commands waiting, first in, first out. -/
  pending : List Instr
  /-- Number of the next free value (the model's own field). -/
  free : Nat
  /-- Glim ticks of 32,768 Hz since the time base was cleared (R460). -/
  ticks : Nat
  /-- The register space (R66, R71, R72), words by byte address. -/
  regs : SMap Word
  board : Board
  /-- Reset sources asserted now (R423), and those whose wrappers are still draining (R432). -/
  asserted : List Source
  draining : List Source
  /-- Lanterns out of reset, and motor dies out of reset, bit per half (R424, R438). -/
  up : Nat
  motorUp : Nat
  /-- Rails good, six bits per half in the order of PWR_RAIL (R446). -/
  rails : SMap Nat
  collectors : SMap Collector
  evQueue : List EvRec
  /-- Wear lamps by 256 * half + index. -/
  lamps : SMap Lamp
  /-- Hours of the sample interval in progress, by half (R496). -/
  lampHours : SMap Nat
  /-- Trace streams by 0x10000 * half + 0x100 * TYPE + INDEX (R485, R486). -/
  traces : SMap TraceStream
  /-- The last blocks sent on a half's lanes, and the key of the WICK or SRV stream served last (R484, R486). -/
  traceOut : SMap TraceBlock
  traceTurn : SMap Nat
  /-- Data returned by the last read of BAR0 (R50). -/
  lastRead : List Word
  mhalf : SMap MantleHalf
  mcore : MantleCore
  preamps : SMap Preamp
  ports : SMap Grz
  wicks : SMap Wick
  rchs : SMap Rch
  fmts : SMap Fmt
  srvs : SMap Srv
  spns : SMap Spn
  mot : Mot
  /-- Formatter operations that have ended and whose command has not yet taken the result. -/
  opDone : List OpDone
  /-- User data of sectors held in the partitions STAGING, SEGMENT and PINNED, by 2^40 * media unit + MSA (R331, R335). -/
  staging : SMap Sector
  /-- Stripe parity in STAGING (R147), by 4 * (2^40 * media unit + MSA / 60) + parity sector. -/
  parity : SMap Sector
  segment : SMap Sector
  pinned : SMap Sector
  /-- Wick event records emitted to Coreri (R168 EVT): Wick and CODE. -/
  coreriEvents : List (Nat × Nat)
  /-- Buffer memory by 42-bit address (R257): DRAM content, bytes held by merge entries (R271), and bytes of dirty cache
  sub-blocks (R294). -/
  dram : List Host.Cell
  mergeBytes : List Host.Cell
  cacheBytes : List Host.Cell
  /-- Buffer memory and cache of each half. -/
  resvs : SMap Resv
  caches : SMap Cache
  /-- Poisoned words (R262) by 128 * (page + 2^29 * half) + word position, and pages of DRAM that were never initialised
  (R275) by page + 2^29 * half. -/
  poison : SMap Bool
  garbage : SMap Bool
  /-- Answers that the buffer gave in the last command that reached it. -/
  answers : List BufAnswer
  /-- Power domains that a demand is waking, by 32 * half + d (R450). -/
  waking : SMap Bool
  /-- Policy registers as they stood before each write that fell in the domain's present idle period, oldest first, with the Glim
  time of the write, by 32 * half + d (R464). -/
  polOld : SMap (List (Nat × Nat))
  sdms : SMap Sdm
  /-- Host memory that the module has written, by 2^64 * port + address, and MSI-X messages sent, by 512 * port + vector
  (R330, R384). -/
  hostMem : List Host.Cell
  msis : SMap Nat
  hifs : SMap Hif
  /-- Doorbell order: entries accepted so far. -/
  cmdSeq : Nat
  buffered : List BufWrite
  /-- Trimmed stripe groups by 2^40 * media unit + MSA / 60 (R339). -/
  trims : SMap Bool
  /-- Recorded unit capacities of MEDIA namespaces, in the order of their units, by 64 * half + NSID - 1 (R333). -/
  nsCaps : SMap (List Nat)
  /-- HDAs whose attach has completed, bit per HDA (R343). -/
  attached : Nat
  /-- Stripe groups of SEGMENT, least recently used first, by 2^40 * media unit + MSA / 60 (R355). -/
  segLru : List Nat
  deriving DecidableEq, Repr

/-! Units at reset: every field zero, empty or none, but where one is named. -/

def TraceStream.reset : TraceStream := default
def Lamp.reset : Lamp := default
def Collector.reset : Collector := default
def MantleHalf.reset : MantleHalf := default
def Preamp.reset : Preamp := { (default : Preamp) with maZero := true }
def Grz.reset : Grz := default
def Wick.reset : Wick := default
def Rch.reset : Rch := default
def Fmt.reset : Fmt := { (default : Fmt) with passed := true }
def Srv.reset : Srv := default
def Spn.reset : Spn := default
def Mot.reset : Mot := { (default : Mot) with budget := 0x168, taperP := 0x1E }
def Resv.reset : Resv := default
def Cache.reset : Cache := default
def Sdm.reset : Sdm := default
def Cq.reset : Cq := default
def Hif.reset : Hif := default

/-- The module right after reset: COLD is asserted and holds the whole module (R423; LMP_CAUSE and LMP_ASSERTED read so
at reset, R443), every register at its value at reset, no command waiting. DESIGN CHOICE (log 6).
DESIGN CHOICE (log 113). -/
def State.reset : State where
  pending := []
  free := 0
  ticks := 0
  regs := []
  board := default
  asserted := [.cold]
  draining := []
  up := 0
  motorUp := 0
  rails := []
  collectors := []
  evQueue := []
  lamps := []
  lampHours := []
  traces := []
  traceOut := []
  traceTurn := []
  lastRead := []
  mhalf := []
  mcore := { (default : MantleCore) with coreUp := true }
  preamps := []
  ports := []
  wicks := []
  rchs := []
  fmts := []
  srvs := []
  spns := []
  mot := Mot.reset
  opDone := []
  staging := []
  parity := []
  segment := []
  pinned := []
  coreriEvents := []
  dram := []
  mergeBytes := []
  cacheBytes := []
  resvs := []
  caches := []
  poison := []
  garbage := []
  answers := []
  waking := []
  polOld := []
  sdms := []
  hostMem := []
  msis := []
  hifs := []
  cmdSeq := 0
  buffered := []
  trims := []
  nsCaps := []
  attached := 0
  segLru := []

end Sys2Proof.Machine
end

