-- ==== Sys2Proof/Machine/Regs.lean ====
section
/-! DEFINITION. Reading and writing register words and their fields. The words of the register space (R66, R71, R72)
are one sparse table keyed by byte address: half A from 0, half B from 0x0100_0000, Mantle from 0x0200_0000. An
unlisted word reads as its value at reset. -/

namespace Sys2Proof.Machine

/-- Where a byte address of the register space lies: block, instance, half (`none` for Mantle) and offset in the
block's window (R66, R71, R72). -/
structure Loc where
  blk : Blk
  inst : Nat
  half : Option Half
  off : Nat
  deriving DecidableEq, Repr

/-- The window map of a half (R71): block and instance of a window number. -/
def halfWindow (w : Nat) : Option (Blk × Nat) :=
  if w = 0 then some (.hif, 0) else if w = 1 then some (.bca, 0) else if w = 2 then some (.chm, 0)
  else if w = 3 then some (.pwr, 0) else if w = 4 then some (.clk, 0) else if w = 5 then some (.sdm, 0)
  else if w = 6 then some (.wlp, 0) else if w = 7 then some (.cri, 0) else if w = 8 then some (.cnt, 0)
  else if w = 0x0F then some (.mbx, 0)
  else if 0x10 ≤ w ∧ w ≤ 0x17 then some (.buf, w - 0x10)
  else if 0x20 ≤ w ∧ w ≤ 0x23 then some (.grz, w - 0x20)
  else if w = 0x28 then some (.mot, 0)
  else if 0x30 ≤ w ∧ w ≤ 0x33 then some (.spn, w - 0x30)
  else if 0x40 ≤ w ∧ w ≤ 0x47 then some (.srv, w - 0x40)
  else if 0x48 ≤ w ∧ w ≤ 0x4F then some (.wck, w - 0x48)
  else if 0x50 ≤ w ∧ w ≤ 0x57 then some (.fmt, w - 0x50)
  else if 0x60 ≤ w ∧ w ≤ 0x7F then some (.rch, w - 0x60)
  else none

/-- The block that an absolute byte address of the register space falls in (R66, R71, R72); none where the window is
unassigned. -/
def locOf (a : Nat) : Option Loc :=
  if a < 0x2000000 then
    let h := if a < 0x1000000 then Half.a else Half.b
    let r := a % 0x1000000
    (halfWindow (r / 0x10000)).map fun (b, n) => ⟨b, n, some h, r % 0x10000⟩
  else if a < 0x2010000 then some ⟨.mnt, 0, none, a - 0x2000000⟩
  else if a < 0x2020000 then some ⟨.lmp, 0, none, a - 0x2010000⟩
  else if a < 0x2030000 then some ⟨.evt, 0, none, a - 0x2020000⟩
  else if a < 0x2050000 then some ⟨.evr, 0, none, a - 0x2030000⟩
  else none

/-- The type of a lamp by its index (R481). -/
def lampType (i : Nat) : Nat :=
  if i < 4 then 0 else if i < 8 then 1 else if i < 12 then 2 else if i < 16 then 3 else if i < 24 then 4
  else if i < 88 then 5 else if i < 152 then 6 else if i < 160 then 7 else if i = 160 then 8 else if i = 161 then 9
  else if i = 162 then 10 else 0

/-- The reset word of an array page, for the arrays whose words are not zero at reset: the classification arrays
(R470, R490, R493) and the ring tables (R369, R370). -/
def arrayReset (b : Blk) (off : Nat) : Nat :=
  match b, off / 0x1000 with
  | .chm, 1 =>
    let k := off % 0x1000 / 8
    if 1 ≤ k ∧ k ≤ 34 then
      let c := classReset k
      if off % 8 = 0 then c.1 + c.2.1 * 0x10000 else c.2.2.1 + c.2.2.2 * 0x100
    else 0
  | .evt, 2 =>
    let k := 48 + off % 0x1000 / 8
    if k ≤ 60 then
      let c := classReset k
      if off % 8 = 0 then c.1 + c.2.1 * 0x10000 else c.2.2.1 + c.2.2.2 * 0x100
    else 0
  | .hif, 2 => if off % 16 = 12 then 0x100 else 0
  | .hif, 8 => if off % 16 = 12 then 1 else 0
  | .hif, 9 => if off % 16 = 12 then 1 else 0
  | .hif, 3 => if off % 16 = 12 then 1 else 0
  | .wlp, 1 => if off % 16 = 8 ∧ off % 0x1000 / 16 < 163 then lampType (off % 0x1000 / 16) * 0x100 else 0
  | .wlp, p => if 3 ≤ p ∧ 64 * (p - 3) + off % 0x1000 / 64 < 163 then 0x80008000 else 0
  | _, _ => 0

/-- The register of a page at an offset below 4N, if one is named there (R54). -/
def regAt (p : PageSpec) (off : Nat) : Option RegSpec := p.regs.find? fun r => r.off = off

/-- The value at reset of the word at an absolute byte address (the register tables' column "At reset"). HIF_MAPID.HALF
is 1 on half B (R57). -/
def regReset (a : Nat) : Word :=
  match locOf a with
  | none => 0
  | some l =>
    match pageSpec l.blk l.inst (l.off / 0x1000) with
    | none => BitVec.ofNat 32 (arrayReset l.blk l.off)
    | some p =>
      match regAt p (l.off % 0x1000) with
      | none => 0
      | some r =>
        BitVec.ofNat 32 (if l.blk = .hif ∧ l.off = 0xF000 ∧ l.half = some .b then r.reset + 1 else r.reset)

/-- A field of a word, as a number. -/
def fget (w : Word) (f : Fld) : Nat := (w.extractLsb' f.lo f.width).toNat

/-- A word with one field replaced by a number, which is cut to the field's width. -/
def fput (w : Word) (f : Fld) (v : Nat) : Word :=
  let mask : Word := BitVec.ofNat 32 (2 ^ f.width - 1) <<< f.lo
  (w &&& ~~~mask) ||| ((BitVec.ofNat 32 v <<< f.lo) &&& mask)

/-- The stored word at an absolute byte address. -/
def State.word (s : State) (a : Nat) : Word := smGet (regReset a) s.regs a

/-- Storing a word at an absolute byte address. -/
def State.setWord (s : State) (a : Nat) (w : Word) : State := { s with regs := smPut (regReset a) s.regs a w }

/-- A field of the block whose window begins at `base`. -/
def State.get (s : State) (base : Nat) (f : Fld) : Nat := fget (s.word (base + f.off)) f

/-- Whether a one-bit field reads 1. -/
def State.bit (s : State) (base : Nat) (f : Fld) : Bool := s.get base f != 0

/-- Writing a field of the block whose window begins at `base`. -/
def State.put (s : State) (base : Nat) (f : Fld) (v : Nat) : State :=
  s.setWord (base + f.off) (fput (s.word (base + f.off)) f v)

/-- Setting a one-bit field: a sticky event, a status flag. -/
def State.flag (s : State) (base : Nat) (f : Fld) : State := s.put base f 1

/-- A one-bit field as a truth value. -/
def State.putB (s : State) (base : Nat) (f : Fld) (b : Bool) : State := s.put base f (if b then 1 else 0)

/-- A 64-bit quantity held in two words, low word first (R48). -/
def State.get64 (s : State) (a : Nat) : Nat := (s.word a).toNat + (s.word (a + 4)).toNat * 0x100000000

/-- Storing a 64-bit quantity in two words (R48). -/
def State.set64 (s : State) (a : Nat) (v : Nat) : State :=
  (s.setWord a (BitVec.ofNat 32 v)).setWord (a + 4) (BitVec.ofNat 32 (v / 0x100000000))

/-- Every word of [lo, hi) back at its value at reset. -/
def State.clearRange (s : State) (lo hi : Nat) : State := { s with regs := smClear s.regs lo hi }

/-- A counter field that stops at its largest value (R14, R59: saturating). -/
def State.satAdd (s : State) (base : Nat) (f : Fld) (n : Nat) : State :=
  s.put base f (min (s.get base f + n) (2 ^ f.width - 1))

/-- A peak field: the larger of what it holds and a sample (R53). -/
def State.peak (s : State) (base : Nat) (f : Fld) (v : Nat) : State :=
  s.put base f (max (s.get base f) (min v (2 ^ f.width - 1)))

/-- One bit of a mask field. -/
def State.maskBit (s : State) (base : Nat) (f : Fld) (i : Nat) : Bool := (s.get base f).testBit i

/-- Setting or clearing one bit of a mask field. -/
def State.putMaskBit (s : State) (base : Nat) (f : Fld) (i : Nat) (b : Bool) : State :=
  s.put base ⟨f.off, f.lo + i, 1⟩ (if b then 1 else 0)

end Sys2Proof.Machine
end

