-- ==== Sys2Proof/Machine/Ops.lean ====
section
/-! DEFINITION. Named operations that every unit shares: the Glim time, counters (R58, R59, R487), Chimney and Mantle
messages (R466 to R468), and events for the recorder (R479, R480). -/

namespace Sys2Proof.Machine

/-! ### Access to the tables of State -/

/-- What Mantle keeps for a half, by its number. -/
def State.mh (s : State) (k : Nat) : MantleHalf := smGet MantleHalf.reset s.mhalf k
def State.setMh (s : State) (k : Nat) (v : MantleHalf) : State :=
  { s with mhalf := smPut MantleHalf.reset s.mhalf k v }
/-- The preamplifier and serial bus of an actuator, by its number. -/
def State.pa (s : State) (k : Nat) : Preamp := smGet Preamp.reset s.preamps k
def State.setPa (s : State) (k : Nat) (v : Preamp) : State :=
  { s with preamps := smPut Preamp.reset s.preamps k v }
/-- A harness port, by its number. -/
def State.port (s : State) (k : Nat) : Grz := smGet Grz.reset s.ports k
def State.setPort (s : State) (k : Nat) (v : Grz) : State :=
  { s with ports := smPut Grz.reset s.ports k v }
/-- A Wick, by its number. -/
def State.wick (s : State) (k : Nat) : Wick := smGet Wick.reset s.wicks k
def State.setWick (s : State) (k : Nat) (v : Wick) : State :=
  { s with wicks := smPut Wick.reset s.wicks k v }
/-- A stream channel, by its number. -/
def State.rch (s : State) (k : Nat) : Rch := smGet Rch.reset s.rchs k
def State.setRch (s : State) (k : Nat) (v : Rch) : State :=
  { s with rchs := smPut Rch.reset s.rchs k v }
/-- A formatter, by its number. -/
def State.fmt (s : State) (k : Nat) : Fmt := smGet Fmt.reset s.fmts k
def State.setFmt (s : State) (k : Nat) (v : Fmt) : State :=
  { s with fmts := smPut Fmt.reset s.fmts k v }
/-- A servo engine, by its number. -/
def State.srv (s : State) (k : Nat) : Srv := smGet Srv.reset s.srvs k
def State.setSrv (s : State) (k : Nat) (v : Srv) : State :=
  { s with srvs := smPut Srv.reset s.srvs k v }
/-- A spindle engine, by its number. -/
def State.spn (s : State) (k : Nat) : Spn := smGet Spn.reset s.spns k
def State.setSpn (s : State) (k : Nat) (v : Spn) : State :=
  { s with spns := smPut Spn.reset s.spns k v }

/-! ### Time -/

/-- The Glim microsecond time: a tick of 32,768 Hz is 15,625/512 µs; 48 bits (R460). -/
def State.usTime (s : State) : Nat := s.ticks * 15625 / 512 % 2 ^ 48

/-- The Glim time in whole seconds. -/
def State.seconds (s : State) : Nat := s.usTime / 1000000

/-! ### Free values -/

/-- The next number of the run's free values, and the state in which it has been used. DESIGN CHOICE (log 9). -/
def State.takeFree (s : State) : Nat × State := (s.free, { s with free := s.free + 1 })

/-! ### Units -/

/-- The global number of a half's local HDA (R16). -/
def hdaId (h : Half) (n : Nat) : Nat := 4 * h.toNat + n

/-- The global number of a half's actuator index: 2h + a over all HDAs (R16). -/
def actId (h : Half) (u : Nat) : Nat := 8 * h.toNat + u

/-- The global number of a half's stream channel (R16). -/
def chId (h : Half) (n : Nat) : Nat := 32 * h.toNat + n

/-- The half whose home an HDA is (R399). -/
def homeHalf (hd : Nat) : Half := if hd < 4 then .a else .b

/-! ### Counters -/

/-- Address of the live slot of a 48-bit counter (R58). -/
def cntAddr (h : Half) (c : Nat) : Nat := B.cnt h + 8 * c

/-- VALUE of a live counter (R58). -/
def State.cnt48 (s : State) (h : Half) (c : Nat) : Nat := s.get64 (cntAddr h c) % 2 ^ 48

/-- SAT of a live counter (R58). -/
def State.cntSat (s : State) (h : Half) (c : Nat) : Bool := (s.get64 (cntAddr h c)).testBit 48

/-- SOURCE of a message: TYPE and INSTANCE (R467). DEDUCED (log 151). -/
def srcId (type inst : Nat) : Nat := 32 * type + inst

/-- A Chimney message (R466). -/
def message (h : Half) (src kind hint : Nat) : BitVec 64 :=
  let body : BitVec 56 := BitVec.ofNat 56 (src % 1024 + kind % 64 * 0x400 + hint % 2 ^ 39 * 0x10000 + h.toNat * 2 ^ 55)
  crc8 body 56 ++ body

/-- The collector of a half (key 0 or 1) or Mantle's (key 2). -/
def State.coll (s : State) (k : Nat) : Collector := smGet Collector.reset s.collectors k
def State.setColl (s : State) (k : Nat) (c : Collector) : State :=
  { s with collectors := smPut Collector.reset s.collectors k c }

/-- A counter takes n further events (R58, R59), without the message of its saturation. -/
def State.bumpQuiet (s : State) (h : Half) (c n : Nat) : State :=
  if s.cntSat h c || n == 0 then s
  else
    let v := s.cnt48 h c + n
    if v ≥ 2 ^ 48 - 1 then s.set64 (cntAddr h c) (2 ^ 48 + (2 ^ 48 - 1)) else s.set64 (cntAddr h c) v

/-- Sending a message into a half's Chimney (R468): a message that finds the FIFO of 256 full is lost, sets FIFO_OVF and
is counted. -/
def State.sendMsg (s : State) (h : Half) (m : BitVec 64) : State :=
  let c := s.coll h.toNat
  if c.fifo.length ≥ 256 then (s.flag (B.chm h) F.CHM_EVENTS_FIFO_OVF).bumpQuiet h 592 1
  else s.setColl h.toNat { c with fifo := c.fifo ++ [m] }

/-- Sending a message of a Lantern's block (R466, R467). -/
def State.chimney (s : State) (h : Half) (type inst kind hint : Nat) : State :=
  s.sendMsg h (message h (srcId type inst) kind hint)

/-- A 48-bit counter takes n further events; the one that saturates it sends one counter-saturated message (R59). -/
def State.bump48 (s : State) (h : Half) (c n : Nat) : State :=
  let t := s.bumpQuiet h c n
  if t.cntSat h c && !s.cntSat h c then t.chimney h 12 0 1 c else t

/-- A register counter and the 48-bit counter that mirrors it (R487). -/
def State.count (s : State) (base : Nat) (f : Fld) (h : Half) (c n : Nat) : State :=
  (s.satAdd base f n).bump48 h c n

/-- Sending a message into Mantle's collector, whose FIFO holds 64 (R468). A message lost there is not shown by any
register that R494 gives. DESIGN CHOICE (log 124). -/
def State.mantleMsg (s : State) (h : Half) (type inst kind hint : Nat) : State :=
  let c := s.coll 2
  if c.fifo.length ≥ 64 then s
  else s.setColl 2 { c with fifo := c.fifo ++ [message h (srcId type inst) kind hint] }

/-! ### Events -/

/-- An event for the recorder: 32 may wait, and one that finds the queue full is dropped and counted (R480).
DESIGN CHOICE (log 128). -/
def State.event (s : State) (code p0 p1 p2 : Nat) : State :=
  if s.evQueue.length ≥ 32 then s.satAdd B.evt F.EVT_CNT_DROP_COUNT 1
  else { s with evQueue := s.evQueue ++ [⟨code, p0, p1, p2, s.usTime⟩] }

/-! ### Trace -/

/-- Number of a trace stream. -/
def traceKey (h : Half) (type index : Nat) : Nat := 0x10000 * h.toNat + 0x100 * type + index

/-- A packet for a trace stream (R485, R486): WICK and SRV streams hold 64 packets, and one that finds its stream full is
lost and counted. Its TS, a count of nanoseconds, is a free value. DESIGN CHOICE (log 21). -/
def State.trace (s : State) (h : Half) (type index : Nat) (body : List Byte) : State :=
  let k := traceKey h type index
  let t := smGet TraceStream.reset s.traces k
  if (type == 0x10 || type == 0x11) && t.fifo.length ≥ 64 then
    ({ s with traces := smPut TraceStream.reset s.traces k { t with lost := min (t.lost + 1) 0xFFFFFFFF } }).satAdd
      (B.cri h) F.CRI_TRCLOSS_COUNT 1
  else
    let (n, s) := s.takeFree
    let p : TracePacket := ⟨type, index, Config.freeNat n % 2 ^ 24, (body ++ List.replicate 11 0).take 11⟩
    { s with traces := smPut TraceStream.reset s.traces k
              { t with fifo := t.fifo ++ [p], lossDue := t.lossDue || t.lost != 0 } }

/-- Little-endian bytes of a number. -/
def leBytes (n v : Nat) : List Byte := (List.range n).map fun i => BitVec.ofNat 8 (v / 256 ^ i)

/-! ### Buffer bytes -/

/-- A byte of the buffer address space as a request sees it (R293: the cache is transparent): the dirty byte of the
cache, else of the merge buffer, else DRAM, whose untouched bytes read 0 (R273). DESIGN CHOICE (log 7).
DESIGN CHOICE (log 67). -/
def State.bufByte (s : State) (ba : Nat) : Byte :=
  match smFind s.cacheBytes ba with
  | some b => b
  | none => match smFind s.mergeBytes ba with
    | some b => b
    | none => smGet 0 s.dram ba

def State.resv (s : State) (h : Half) : Resv := smGet Resv.reset s.resvs h.toNat
def State.setResv (s : State) (h : Half) (v : Resv) : State :=
  { s with resvs := smPut Resv.reset s.resvs h.toNat v }
def State.cache (s : State) (h : Half) : Cache := smGet Cache.reset s.caches h.toNat
def State.setCache (s : State) (h : Half) (v : Cache) : State :=
  { s with caches := smPut Cache.reset s.caches h.toNat v }

/-- Buffer address of a half address (R257). -/
def bufBa (h : Half) (ha : Nat) : Nat := h.toNat * 2 ^ 41 + ha

/-- Regions shown as touched (R285 BUF_TOUCHED). -/
def State.showTouched (s : State) (h : Half) : State :=
  s.put (B.buf h 0) F.BUF_TOUCHED_COUNT (s.resv h).touched.length

/-- Set and key of a page's line in a way (R290). -/
def lineKey (page way : Nat) : Nat := 16 * (page % 1024) + way

/-- The way that holds a page, if one does (R290). -/
def Cache.wayOf (c : Cache) (page : Nat) : Option Nat :=
  (List.range 16).find? fun w => match smFind c.lines (lineKey page w) with
    | some l => l.page == page
    | none => false

/-- Bytes of a page stored in a line: each sub-block they touch is held as its 64 bytes and becomes DIRTY (R294). -/
def State.lineWrite (s : State) (h : Half) (page way off : Nat) (bs : List Byte) : State :=
  let c := s.cache h
  match smFind c.lines (lineKey page way) with
  | none => s
  | some l =>
    let subs := (List.range 64).filter fun w => off < 64 * w + 64 && 64 * w < off + bs.length
    let m := subs.foldl (fun m w => m ||| 2 ^ w) 0
    let cells := subs.flatMap fun w => (List.range 64).map fun i =>
      let o := 64 * w + i
      let ba := bufBa h (4096 * page + o)
      (ba, if off ≤ o ∧ o < off + bs.length then bs.getD (o - off) 0 else s.bufByte ba)
    let s := { s with cacheBytes := cells.foldl (fun t (e : Host.Cell) => smInsert t e.1 e.2) s.cacheBytes }
    let l := { l with valid := l.valid ||| m, dirty := l.dirty ||| m }
    s.setCache h { c with lines := smInsert c.lines (lineKey page way) l }

/-- One byte stored in the buffer by a unit of the module, past the checks of R277: through the line that holds it, else
through its merge entry, else into DRAM, whose region it touches. -/
def State.bufStore1 (s : State) (ba : Nat) (b : Byte) : State :=
  let h := if ba / 2 ^ 41 % 2 = 0 then Half.a else Half.b
  let ha := ba % 2 ^ 41
  let page := ha / 4096
  match (s.cache h).wayOf page with
  | some w => s.lineWrite h page w (ha % 4096) [b]
  | none =>
    if (smFind s.mergeBytes ba).isSome then { s with mergeBytes := smInsert s.mergeBytes ba b }
    else
      let s := { s with dram := smPut 0 s.dram ba b }
      let v := s.resv h
      (s.setResv h { v with touched := smPut false v.touched (ha / 65536) true }).showTouched h

/-- Bytes stored in the buffer address space by a unit of the module, as a later request sees them. -/
def State.bufStore (s : State) (ba : Nat) : List Byte → State
  | [] => s
  | b :: bs => State.bufStore (s.bufStore1 ba b) (ba + 1) bs

/-! ### Strap and ownership -/

/-- Strap bits b0 to b3 (R38). -/
def State.strapBit (s : State) (i : Nat) : Bool := (s.get B.mnt F.MNT_STRAP_CODE).testBit i

/-- MNT_OWN of an HDA: 0 NONE, 1 A, 2 B (R419). -/
def ownFld (hd : Nat) : Fld := ⟨F.MNT_OWN_OWNER.off, 2 * hd, 2⟩
def State.ownerOf (s : State) (hd : Nat) : Nat := s.get B.mnt (ownFld hd)

/-- Whether a half owns an HDA (R399). -/
def State.owns (s : State) (h : Half) (hd : Nat) : Bool := s.ownerOf hd == h.toNat + 1

/-- The home ownership line of an HDA: only it enables the HDA's outputs (R404). -/
def State.ownLine (s : State) (hd : Nat) : Bool := s.owns (homeHalf hd) hd

end Sys2Proof.Machine
end

