-- ==== Sys2Proof/Machine/Effects.lean ====
section
/-! DEFINITION. Effects that cross units: gates (R150, R172), Snuffer trips and the rewrite queue (R152, R153, R156,
R157), abort requests to Wick (R174), the end of a formatter operation (R158), retracts (R207, R407), the loss of an
HDA's home line at its units (R208, R244, R404), and the withdrawal of ownership (R402). -/

namespace Sys2Proof.Machine

/-! ### Numbers of units -/

def halfOf (n : Nat) : Half := if n = 0 then .a else .b
/-- Half and index of an actuator number, and its HDA (R16). -/
def actHalf (ai : Nat) : Half := halfOf (ai / 8)
def actHda (ai : Nat) : Nat := ai / 2
def fmtB (ai : Nat) : Nat := B.fmt (actHalf ai) (ai % 8)
def wckB (ai : Nat) : Nat := B.wck (actHalf ai) (ai % 8)
def srvB (ai : Nat) : Nat := B.srv (actHalf ai) (ai % 8)
def hdaHalf (hd : Nat) : Half := halfOf (hd / 4)
def spnB (hd : Nat) : Nat := B.spn (hdaHalf hd) (hd % 4)
def grzB (hd : Nat) : Nat := B.grz (hdaHalf hd) (hd % 4)
/-- MOT_BRG entry of an HDA, as the base of the generic bridge fields (R253). -/
def brgB (hd : Nat) : Nat := B.mot (hdaHalf hd) + 4 * (hd % 4)
/-- The bridge field of an actuator's VCM mode (R253). -/
def vcmFld (ai : Nat) : Fld := if ai % 2 = 0 then F.BRG_VCM0_MODE else F.BRG_VCM1_MODE

/-- Half and window of a stream channel number, with its actuator and slot (R91). -/
def chHalf (ci : Nat) : Half := halfOf (ci / 32)
def chB (ci : Nat) : Nat := B.rch (chHalf ci) (ci % 32)
def chAct (ci : Nat) : Nat := ci / 4
def chSlot (ci : Nat) : Nat := ci % 4

/-- STATE of RCH_STAT (R112, R121). -/
abbrev csIdle : Nat := 0
abbrev csAcquire : Nat := 1
abbrev csSync : Nat := 2
abbrev csData : Nat := 3
abbrev csHold : Nat := 4
abbrev csResync : Nat := 5
abbrev csServo : Nat := 6
abbrev csVerify : Nat := 7

def State.chState (s : State) (ci : Nat) : Nat := s.get (chB ci) F.RCH_STAT_STATE
def State.setChState (s : State) (ci st : Nat) : State := s.put (chB ci) F.RCH_STAT_STATE st

/-- A parameter of which 0 acts as 1. -/
def min1 (n : Nat) : Nat := max n 1

/-! ### Units in reset (R423, R424) -/

/-- Whether a source holds a Lantern in reset. -/
def Source.coversCore (src : Source) (h : Half) : Bool :=
  match src with
  | .cold | .auxBo | .mainBo | .mrst => true
  | .half x => x == h
  | _ => false

/-- Whether a source holds an HDA's units in reset: a reset of its home half, or of the HDA. -/
def Source.coversHda (src : Source) (hd : Nat) : Bool := src.coversCore (hdaHalf hd) || src == .hda hd

/-- Whether a Lantern is out of reset. -/
def State.coreUp (s : State) (h : Half) : Bool := s.up.testBit h.toNat

/-- Whether an HDA's units are out of reset. -/
def State.hdaUp (s : State) (hd : Nat) : Bool := s.coreUp (hdaHalf hd) && !s.asserted.contains (.hda hd)

/-- Whether a Wick, a stream channel or Service DMA is out of reset. -/
def State.wckUp (s : State) (ai : Nat) : Bool :=
  s.hdaUp (actHda ai) && !s.asserted.contains (.block (actHalf ai) (0x20 + ai % 8))
def State.rchUp (s : State) (ci : Nat) : Bool :=
  s.hdaUp (ci / 8) && !s.asserted.contains (.block (halfOf (ci / 32)) (ci % 32))
def State.sdmUp (s : State) (h : Half) : Bool := s.coreUp h && !s.asserted.contains (.block h 0x30)

/-- Harness ports 4 to 7 are dark when strap b0 is 1 (R35). -/
def State.hdaDark (s : State) (hd : Nat) : Bool := 4 ≤ hd && s.strapBit 0

/-- State of power domain d of a half: 0 OFF, 1 RETAIN, 2 GATED, 3 ON (R448, R463). -/
def domFld (d : Nat) : Fld :=
  if d < 16 then ⟨F.PWR_STATE0_STATE.off, 2 * d, 2⟩ else ⟨F.PWR_STATE1_STATE.off, 2 * (d - 16), 2⟩
def State.domState (s : State) (h : Half) (d : Nat) : Nat := s.get (B.pwr h) (domFld d)

/-- A demand for a power domain (R450): one that is not ON begins to wake, and a wake from RETAIN or OFF is counted. The
domains of ways 8 to 15 wake by BCA_WAYPWR only. DESIGN CHOICE (log 119). -/
def State.demand (s : State) (h : Half) (d : Nat) : State :=
  let k := 32 * h.toNat + d
  if 26 ≤ d || (5 ≤ d && d ≤ 12) || s.domState h d == 3 || smGet false s.waking k then s
  else
    let s := if s.domState h d ≤ 1 then s.count (B.pwr h) F.PWR_CNT_WAKE_COUNT h 584 1 else s
    { s with waking := smPut false s.waking k true }

/-- An interrupt to a half's control firmware, which is also a demand for its CPU domain (R395, R401, R450). -/
def State.irq (s : State) (h : Half) : State :=
  let s := s.setMh h.toNat { s.mh h.toNat with irqs := (s.mh h.toNat).irqs + 1 }
  if s.coreUp h then s.demand h 1 else s

/-! ### Loaded flags and retract flags of Mantle (R406, R419) -/

def State.loaded (s : State) (ai : Nat) : Bool := s.maskBit B.mnt F.MNT_LOADED_LOADED ai
def State.setLoaded (s : State) (ai : Nat) (b : Bool) : State := s.putMaskBit B.mnt F.MNT_LOADED_LOADED ai b
def State.retracting (s : State) (ai : Nat) : Bool := s.maskBit B.mnt F.MNT_RETACT_ACTIVE ai

/-! ### Tables of an actuator in buffer memory -/

/-- Whether the tables of an HDA have been read into SYSTEM since its attach was accepted (R343). The copy in SYSTEM is never
used after the HDA is detached, reset or removed (R339). DESIGN CHOICE (log 100). -/
def State.tablesRead (s : State) (hd : Nat) : Bool :=
  s.attached.testBit hd && s.get (grzB hd) F.GRZ_PORTSTAT_STATE == 4

/-- The band alignment table until the tables have been read (R343): the 128 system bands, all of zone 0, every offset 0. -/
def blankBat (off : Nat) : Byte := if off == 4 || off == 0x10 then 128 else 0

def State.batRd (s : State) (ai : Nat) : Nat → Byte :=
  if s.tablesRead (actHda ai) then
    let base := s.get (fmtB ai) F.FMT_BATBASE_LO_ADDR + s.get (fmtB ai) F.FMT_BATBASE_HI_ADDR * 0x100000000
    fun off => s.bufByte (base + off)
  else blankBat
def State.defRd (s : State) (ai : Nat) : Nat → Byte :=
  if s.tablesRead (actHda ai) then
    let base := s.get (fmtB ai) F.FMT_DEFBASE_LO_ADDR + s.get (fmtB ai) F.FMT_DEFBASE_HI_ADDR * 0x100000000
    fun off => s.bufByte (base + off)
  else fun _ => 0
def State.defects (s : State) (ai : Nat) : List Defect := defEntries (s.defRd ai)

/-! ### Gates -/

/-- The group and slot mask last acknowledged by an actuator's preamplifier (R88). -/
def State.ackGroup (s : State) (ai : Nat) : Nat :=
  s.get (grzB (actHda ai)) (if ai % 2 = 0 then F.GRZ_GRPSEL_A0_GROUP else F.GRZ_GRPSEL_A1_GROUP)
def State.ackMask (s : State) (ai : Nat) : Nat :=
  s.get (grzB (actHda ai)) (if ai % 2 = 0 then F.GRZ_GRPSEL_A0_MASK else F.GRZ_GRPSEL_A1_MASK)

/-- Whether any Snuffer cause of the actuator is active (R153, R160 SNUFFED). -/
def Fmt.snuffedNow (f : Fmt) : Bool := f.pos || f.shock || f.implaus || f.owner

/-- The half's output enable: CONFIGURED, and the half out of reset (R435). -/
def State.outEnable (s : State) (h : Half) : Bool :=
  s.up.testBit h.toNat && s.bit (B.pwr h) F.LMP_CONFIG_CONFIGURED

/-- The link to a half's motor die runs (R456, R457): its clock does. -/
def State.motlink (s : State) (h : Half) : Bool := s.maskBit (B.clk h) F.CLK_RUN_RUN 21

/-- Level of write gate WGag at the pin (R75, R150, R151, R152, R172, R404, R435); in a pass that Snuffer has cut it does not rise
again. -/
def State.wgPin (s : State) (ai g : Nat) : Bool :=
  let w := s.wick ai
  let f := s.fmt ai
  w.wg && !w.blank && s.ackGroup ai == g && !f.snuffedNow && !f.snuffed && f.passed && s.ownLine (actHda ai) &&
    s.outEnable (actHalf ai) && !(s.get (grzB (actHda ai)) F.GRZ_PORTSTAT_FLT).testBit (ai % 2) && !(s.pa ai).sg

/-- Level of read gate slot k of an actuator at the pin (R172). -/
def State.rgPin (s : State) (ai k : Nat) : Bool :=
  let w := s.wick ai
  w.rg.testBit k && (s.ackMask ai).testBit k && !w.blank

/-- The band's own wedge number of a servo wedge index (R129). -/
def relWedge (skew band index : Nat) : Nat := (index + 512 - band * skew % 512) % 512

/-- Symbols from the start of the band's wedge 0 to a place in a wedge. -/
def symAt (z w p : Nat) : Nat := w * zNw z + p

/-- Symbols from the band's wedge 0 to a place of the rotation, in the operation of an actuator. -/
def State.posOf (s : State) (ai : Nat) (p : Place) : Nat :=
  match (s.wick ai).desc with
  | some d => symAt d.zone (relWedge (batSkew (s.batRd ai)) d.band p.wedge) p.sym
  | none => 0

/-- The place of the rotation that a Wick last took note of. -/
def State.lastPlace (s : State) (ai : Nat) : Place := ⟨(s.wick ai).wedge, (s.wick ai).sym⟩

/-- A gate state in force from a position on; where the write-gate state was up is kept (R152). -/
def Wick.gates (w : Wick) (pos : Nat) (wg : Bool) (rg : Nat) : Wick :=
  if wg && !w.wg then { w with wg := true, rg := rg, wgFrom := some pos }
  else if !wg && w.wg then
    { w with wg := false, rg := rg, wgFrom := none, wgHigh := ((w.wgFrom.getD pos, pos) :: w.wgHigh).take 8 }
  else { w with rg := rg }

/-- Both gate states of an actuator cleared (R82, R89, R173). -/
def State.gatesLow (s : State) (ai : Nat) : State :=
  s.setWick ai ((s.wick ai).gates (s.posOf ai (s.lastPlace ai)) false 0)

/-! ### Abort requests and the end of an operation -/

/-- The row of R174 that an abort request belongs to. Requests are numbered in the order of the list: 1 narrowing split,
2 ABORT-class write, 3 HARNESS_FRAME, 4 PREAMP_FAULT, 5 RATE_RANGE, 6 and above a retract request. -/
def abortRow (p : Nat) : Nat := if p ≤ 2 then p else if p ≤ 5 then 3 else 4

/-- The rewrite queue's registers follow the queue: RWQ_COUNT, and RWQ_FULL set at 64 entries and cleared at 48
(R156, R160). Relocations that have waited for an entry take those that are free (R157). -/
def State.setRwq (s : State) (ai : Nat) (q : List RwqEntry) : State :=
  let f := s.fmt ai
  let room := 64 - q.length
  let q := q ++ f.relocWait.take room
  let full := if q.length ≥ 64 then true else if q.length ≤ 48 then false else f.rwqFull
  let s := s.setFmt ai { f with rwq := q, rwqFull := full, relocWait := f.relocWait.drop room }
  (s.put (fmtB ai) F.FMT_STAT_RWQ_COUNT q.length).putB (fmtB ai) F.FMT_STAT_RWQ_FULL full

/-- A queue entry whose service ends unfinished goes back to the front of the queue (R161), or of the checks that had no
entry. -/
def State.entryBack (s : State) (ai : Nat) (direct : Bool) (e : RwqEntry) : State :=
  let f := s.fmt ai
  if !direct then s.setRwq ai (e :: f.rwq) else s.setFmt ai { f with nextCheck := e :: f.nextCheck }

/-- The command that an operation serves: the one that counts it, or the one it was made for. -/
def FmtOp.src (op : FmtOp) : Nat := if op.req.cmd != 0 then op.req.cmd else op.req.src

/-- What the command of an operation hears of its end (R158): its status and lost sectors where the command counts it, and
WRITE_FAULT of work made for it (R153, R154). -/
def State.opReport (s : State) (ai : Nat) (op : FmtOp) (st : OpStatus) (lost : List Nat) : State :=
  let counted := op.req.cmd != 0
  if counted || (st == .writeFault && op.req.src != 0) then
    { s with opDone := s.opDone ++ [⟨op.src, ai, op.req.kind, op.req.band, op.req.group, st, lost, counted⟩] }
  else s

/-- The end of a formatter operation (R158): an entry whose service is unfinished goes back to its queue, and the write that
waited for it goes on (R156). -/
def State.fmtEnd (s : State) (ai : Nat) (st : OpStatus) (lost : List Nat) : State :=
  let f := s.fmt ai
  let b := fmtB ai
  match f.op with
  | none => s
  | some op =>
    let f := { f with op := none, results := [], snuffed := false, cutting := false, splitting := false, cut := [], endAs := none }
    let s := s.setFmt ai (match f.held with
      | some w => { f with op := some w.op, results := w.results, held := none }
      | none => f)
    let s := match op.entry with
      | some e => s.entryBack ai op.direct e
      | none => s
    let s := (s.put b F.FMT_STAT_STATE 0).putB b F.FMT_STAT_BUSY f.held.isSome
    s.opReport ai op st lost

/-- An abort request to Wick (R174), with its place in the order of R174 and the status its operation ends with. Of two
that wait, the first row of the list is posted; one that comes while the vector runs is recorded only in its own block.
Between two passes, when Wick holds no descriptor, the formatter's operation ends at once. -/
def State.wickAbort (s : State) (ai row : Nat) (st : OpStatus) : State :=
  let w := s.wick ai
  if w.aborting then s
  else if w.desc.isNone then (if row == 1 then s else s.fmtEnd ai st [])
  else match w.abort with
    | some r => if row < r then s.setWick ai { w with abort := some row, abortStatus := st } else s
    | none => s.setWick ai { w with abort := some row, abortStatus := st }

/-- The Wick's state at the start of every operation (R165). -/
def Wick.cleared (w : Wick) : Wick :=
  { w with x := [], z := false, ers := false, spl := false, stack := [], tags := [], edges := [], stall := .none,
           open_ := [], bad := [], writes := [], abort := none, aborting := false, seekAns := none, frameAns := none,
           stallCycles := 0, wgFrom := none, wgHigh := [] }

/-- A channel as the operation of its actuator ends (R112): IDLE, or SERVO that returns to IDLE. A frame not yet complete is
given up; sectors already complete are decoded on, without a report to another operation. DEDUCED (log 164). -/
def State.chOpEnd (s : State) (ci : Nat) : State :=
  let c := s.rch ci
  if c.secs.isEmpty && s.chState ci == csIdle then s
  else
    let secs := c.secs.map fun (x : ChSector) => { x with live := false, phase := if x.phase == 0 then 5 else x.phase }
    let s := s.setRch ci { c with secs := secs, opEnded := true, fromIdle := true }
    if s.chState ci == csServo then s else s.setChState ci csIdle

/-- PATCH_MATCH: the patch RAM word that takes the place of a ROM address, by the lowest enabled match register (R170). -/
def State.patchMatch (s : State) (ai addr : Nat) : Option Nat :=
  if addr ≥ 0x6000 then none
  else
    ((List.range 16).find? fun m =>
      s.bit (wckB ai + 4 * m) F.MATCH_EN && s.get (wckB ai + 4 * m) F.MATCH_ADDR == addr).map fun m =>
        s.get (wckB ai + 4 * m) F.MATCH_TARGET

/-- The idle vector is fetched (R166, R170). -/
def State.idleVector (s : State) (ai : Nat) : State :=
  s.put (wckB ai) F.WCK_STAT_PC (match s.patchMatch ai 0 with | some t => 0x6000 + t | none => 0)

/-- The Wick leaves its operation for the idle vector (R166, R175). Its registers stand until the next operation starts
(R165). -/
def State.wickIdle (s : State) (ai : Nat) : State :=
  let s := (List.range 4).foldl (fun s k => s.chOpEnd (4 * ai + k)) s
  let s := s.setWick ai { s.wick ai with desc := none, stall := .none, abort := none, aborting := false, seekAns := none,
                                         frameAns := none, open_ := [], bad := [], writes := [], stallCycles := 0 }
  ((s.put (wckB ai) F.WCK_STAT_STATE 0).put (wckB ai) F.WCK_STAT_BUSY 0).idleVector ai

/-- Ending an operation at once with a status, as an isolation wrapper or a fault does (R173, R432): the gates fall, the
Wick is idle and the formatter's operation ends. -/
def State.opKill (s : State) (ai : Nat) (st : OpStatus) : State := ((s.gatesLow ai).wickIdle ai).fmtEnd ai st []

/-! ### The rewrite queue -/

/-- Whether two entries name the same stripe group with the same KIND (R156). -/
def RwqEntry.same (a b : RwqEntry) : Bool :=
  a.band == b.band && a.group == b.group && a.stripe == b.stripe && a.kind == b.kind

/-- Where write gate falls at the end of a frame: at the end of its postamble, or of its codeword where the next keep-out truncates
the postamble (R96, R172); symbols from the band's wedge 0. -/
def frameEnd (z n : Nat) : Nat :=
  let f := framePos z n
  if f.split = 0 && f.endWedge != f.wedge then symAt z f.wedge (f.start + frameCwEnd) else symAt z f.endWedge f.endSym - 96

/-- Whether a frame holds a position, both counted from the band's wedge 0. -/
def frameHolds (z n pos : Nat) : Bool :=
  symAt z (framePos z n).wedge (framePos z n).start ≤ pos && pos < frameEnd z n

/-- Whether a position of a frame lies behind a place by less than half a turn. -/
def passedBy (z pos now : Nat) : Bool :=
  let turn := 512 * zNw z
  let behind := (now + turn - pos % turn) % turn
  decide (0 < behind) && decide (behind < turn / 2)

/-- Whether a frame's sync window has opened, or closed, at a position: 24 symbols to both sides of symbol 384, WIN's value at
reset (R103, R121, R172). DEDUCED (log 30). -/
def windowOpened (z n now : Nat) : Bool := passedBy z (symAt z (framePos z n).wedge ((framePos z n).start + 360)) now
def windowClosed (z n now : Nat) : Bool := passedBy z (symAt z (framePos z n).wedge ((framePos z n).start + 408)) now

/-- Frames whose sync window has closed at a place leave the tag queue of a write (R165); those that are read leave as their
channels' windows close. -/
def State.windowsClose (s : State) (ai : Nat) (at_ : Place) : State :=
  let w := s.wick ai
  match w.desc with
  | none => s
  | some d =>
    if (s.fmt ai).snuffed then s
    else s.setWick ai { w with tags := w.tags.filter fun t => !(t.write && windowClosed d.zone t.frame (s.posOf ai at_)) }

/-- The pass ends at the next frame boundary (R157, R174), at a position: the frame in progress becomes the last frame, and the
frames whose window has not opened are dropped. With no frame in progress the gates fall at once. -/
def State.endAtFrame (s : State) (ai pos : Nat) : State :=
  let w := s.wick ai
  match w.desc with
  | none => s
  | some d =>
    let kept := w.tags.filter fun t => windowOpened d.zone t.frame pos
    let gone := (w.tags.filter fun t => !windowOpened d.zone t.frame pos).map (·.frame)
    let w := { w with tags := kept, open_ := w.open_.filter (fun e => !gone.contains e.1),
                      writes := w.writes.filter (fun n => !gone.contains n) }
    match (w.open_.map (·.1)).find? (fun n => frameHolds d.zone n pos) with
    | some n => s.setWick ai { w with lastFrame := some ⟨n, w.writes.contains n, true, 0⟩ }
    | none => s.setWick ai (w.gates pos false 0)

/-- What happens for want of an entry while all 64 are in use (R157), by the KIND needed. -/
def State.rwqSpill (s : State) (ai : Nat) (e : RwqEntry) (fromUe : Bool) : State :=
  let s := s.flag (fmtB ai) F.FMT_EVENTS_RWQ_SPILL
  let f := s.fmt ai
  let endPass := fun (s : State) =>
    if f.cutting || (s.wick ai).desc.isNone then s
    else (s.setFmt ai { s.fmt ai with cutting := true }).endAtFrame ai (s.posOf ai (s.lastPlace ai))
  if e.kind == 2 && fromUe then s
  else if e.kind == 2 then endPass (s.setFmt ai { f with nextCheck := f.nextCheck ++ [e] })
  else if e.kind == 3 then
    let joined := f.relocWait.map fun x => if x.same e then { x with mask := x.mask ||| e.mask } else x
    s.setFmt ai { f with relocWait := if f.relocWait.any (·.same e) then joined else f.relocWait ++ [e] }
  else
    let known := f.spill.any fun m => m.band == e.band && m.group == e.group && m.stripe == e.stripe
    let verify := match f.op with | some op => op.req.verify || op.req.kind == 2 | none => false
    endPass (if known then s else s.setFmt ai { f with spill := f.spill ++ [⟨e.band, e.group, e.stripe, e.cmd, verify⟩] })

/-- A sector joins an entry that names its stripe group with the same KIND, or takes a new entry (R156). -/
def State.rwqAdd (s : State) (ai : Nat) (e : RwqEntry) (fromUe : Bool) : State :=
  let q := (s.fmt ai).rwq
  if q.any (·.same e) then
    s.setRwq ai (q.map fun x =>
      if x.same e then { x with mask := x.mask ||| e.mask, attempts := max x.attempts e.attempts, cmd := e.cmd, gen := e.gen }
      else x)
  else if q.length < 64 then s.setRwq ai (q ++ [e])
  else s.rwqSpill ai e fromUe

/-! ### Frames and sectors of a pass -/

/-- The stripe position (stripe group, position) of the sector that sits at index n of a head's track of a band with g stripe
groups, if it is a used position (R136). -/
def stripeOf (ds : List Defect) (g band group h n : Nat) : Option (Nat × Nat) :=
  let head := 4 * group + h
  let home := match ds.find? fun d => d.grown && d.band == band && d.head == head && d.spare == n with
    | some d => d.index
    | none => n
  let skip := primaryOf ds band head
  let q := home - (skip.filter (· < home)).length
  if skip.contains home || seatIndex ds band head home != n || q ≥ 16 * g then none
  else some (q / 16, if q % 16 = 15 then 60 + h else 4 * (q % 16) + h)

/-- The sectors of a pass in some of its frames: (stripe group, position) pairs. -/
def passSectors (ds : List Defect) (d : Desc) (frames : List Nat) : List (Nat × Nat) :=
  (frames.map fun n => (maskSlots d.mask).filterMap fun h => stripeOf ds (zG d.zone) d.band d.group h n).flatten

/-- The frames of a pass. -/
def passFrames (d : Desc) : List Nat := (List.range d.count).map (d.first + ·)

/-- One (stripe group, mask) pair for each stripe group named in a list of sectors. -/
def groupMasks (secs : List (Nat × Nat)) : List (Nat × Nat) :=
  (secs.map (·.1)).eraseDups.map fun k =>
    (k, (secs.filter (·.1 == k)).foldl (fun m x => m ||| 2 ^ x.2) 0)

/-- Whether a frame's symbols lie in part in [lo, hi], both counted from the band's wedge 0. -/
def frameOverlaps (z n lo hi : Nat) : Bool :=
  let f := framePos z n
  symAt z f.wedge f.start ≤ hi && lo < symAt z f.endWedge f.endSym

/-- The frames of the pass in progress that had their write gate high in [lo, hi] (symbols from the band's wedge 0). -/
def State.writtenFrames (s : State) (ai lo hi : Nat) : List Nat :=
  let w := s.wick ai
  let up := (match w.wgFrom with | some p => [(p, hi)] | none => []) ++ w.wgHigh
  match w.desc with
  | none => []
  | some d =>
    (passFrames d).filter fun n => up.any fun (a, b) =>
      decide (max a lo ≤ min b hi) && frameOverlaps d.zone n (max a lo) (min b hi)

/-! ### Snuffer -/

/-- The four Snuffer causes (R150). -/
inductive SnufCause where
  | pos
  | shock
  | implaus
  | owner
  deriving DecidableEq, Repr

/-- SNUFFED and ARMED follow the active causes (R160, R162). -/
def State.snufShow (s : State) (ai : Nat) : State :=
  let on := (s.fmt ai).snuffedNow
  (s.putB (fmtB ai) F.FMT_STAT_SNUFFED on).putB (fmtB ai) F.FMT_SNFSTAT_ARMED (!on)

/-- Whether a pass writes. -/
def descWrites (d : Desc) : Bool := d.kind == 1 || d.kind == 3

/-- A trip of a Snuffer cause (R150, R152, R153): the cause is latched and counted, the gates are held low while it is
active, the write pass is cut, and the sectors of the named frames go to the rewrite queue. A stripe group whose
rewrite is the one cut and that has been rewritten WR_RETRY times ends the operation with WRITE_FAULT. -/
def State.snufTrip (s : State) (ai : Nat) (c : SnufCause) (head : Nat) (frames : List Nat) : State :=
  let f := s.fmt ai
  let was := match c with | .pos => f.pos | .shock => f.shock | .implaus => f.implaus | .owner => f.owner
  if was then s
  else
    let b := fmtB ai
    let f := match c with
      | .pos => { f with pos := true, cleanPos := 0 }
      | .shock => { f with shock := true }
      | .implaus => { f with implaus := true, cleanImplaus := 0 }
      | .owner => { f with owner := true }
    let s := s.setFmt ai f
    let s := s.flag b (match c with
      | .pos => F.FMT_SNFSTAT_POS | .shock => F.FMT_SNFSTAT_SHOCK
      | .implaus => F.FMT_SNFSTAT_IMPLAUS | .owner => F.FMT_SNFSTAT_OWNER)
    let s := match c with
      | .pos => s.put b F.FMT_SNFSTAT_HEAD head
      | .implaus => s.put b F.FMT_SNFSTAT_HEAD head
      | _ => s
    let s := s.count b F.FMT_SNFCNT_COUNT (actHalf ai) (568 + ai % 8) 1
    let s := (s.snufShow ai).windowsClose ai (s.lastPlace ai)
    match (s.wick ai).desc with
    | none => s
    | some d =>
      let gm := groupMasks (passSectors (s.defects ai) d frames)
      let limit := min1 (s.get b F.FMT_CTL_WR_RETRY)
      let entry := f.op.bind (·.entry)
      let fault := match entry with
        | some e => gm.any (·.1 == e.stripe) && decide (e.attempts + 1 ≥ limit)
        | none => false
      let one := fun (s : State) (x : Nat × Nat) =>
        match entry with
        | some e => if e.stripe == x.1 then (if fault then s else
            s.rwqAdd ai ⟨d.band, d.group, 0, min (e.attempts + 1) 15, x.1, x.2 &&& e.mask, c == .owner, e.cmd, e.gen⟩ false) else s
        | none =>
          let op := f.op.getD default
          s.rwqAdd ai ⟨d.band, d.group, 0, 0, x.1, x.2, c == .owner, op.src, (smFind op.gens x.1).getD 0⟩ false
      let s := gm.foldl one s
      let s := if descWrites d then s.setFmt ai { s.fmt ai with snuffed := true } else s
      if fault then (s.flag b F.FMT_EVENTS_WRITE_FAULT).setFmt ai { s.fmt ai with endAs := some .writeFault } else s

/-- The read check of the neighbouring bands after a POS trip above 2 × WF_TH (R152): every stripe group of bands b - 1
and b + 1 with a sector on that head's surface in the servo wedge period given. -/
def State.neighCheck (s : State) (ai head index : Nat) : State :=
  match (s.wick ai).desc with
  | none => s
  | some d =>
    let bat := s.batRd ai
    let ds := s.defects ai
    let one := fun (s : State) (b : Nat) =>
      if b < 128 || b ≥ batBands bat || bandRetired bat ds b (head / 4) then s
      else
        let z := zoneOf bat b
        let w := relWedge (batSkew bat) b index
        let fr := (List.range (zS z)).filter fun n => frameInWedge (framePos z n) w
        let secs := fr.filterMap fun n => stripeOf ds (zG z) b (head / 4) (head % 4) n
        (groupMasks secs).foldl (fun s (k, m) => s.rwqAdd ai ⟨b, head / 4, 2, 0, k, m, false, 0, 0⟩ false) s
    (one (one s (d.band - 1)) (d.band + 1)).flag (fmtB ai) F.FMT_EVENTS_NEIGH_CHECK

/-- Re-arming a cause (R153). -/
def State.snufRearm (s : State) (ai : Nat) (c : SnufCause) : State :=
  let f := s.fmt ai
  (s.setFmt ai (match c with
    | .pos => { f with pos := false } | .shock => { f with shock := false }
    | .implaus => { f with implaus := false } | .owner => { f with owner := false })).snufShow ai

/-- The mode in which a band is worked: system bands always in mode 2 (R132, R133). -/
def State.bandMode (s : State) (ai band group : Nat) : Nat :=
  if band < 128 then 2 else batMode (s.batRd ai) band group

/-! ### Servo states -/

/-- Bits [31:8] of a write frame. -/
def writeFrame (addr data : Nat) : BitVec 24 := BitVec.ofNat 24 (addr % 128 * 0x10000 + data % 0x10000)

/-- Servo states (R211). -/
abbrev svOff : Nat := 0
abbrev svParked : Nat := 1
abbrev svLoading : Nat := 2
abbrev svFollow : Nat := 3
abbrev svSeek : Nat := 4
abbrev svSettle : Nat := 5
abbrev svPark : Nat := 6
abbrev svRetract : Nat := 7

def State.srvState (s : State) (ai : Nat) : Nat := s.get (srvB ai) F.SRV_STAT_STATE

/-- The VCM mode of an actuator as Mantle's sequencer, its HDA's ownership, the ladder, the half's output enable, the link to the motor
die and its engine leave it (R253, R404, R435, R436, R457). DEDUCED (log 118). -/
def State.vcmShow (s : State) (ai : Nat) : State :=
  let m := if s.retracting ai then 2
    else if s.mot.step == 3 || !s.ownLine (actHda ai) then 3
    else if s.srvState ai == svOff || !s.outEnable (actHalf ai) || !s.motlink (actHalf ai) then 0 else 1
  s.put (brgB (actHda ai)) (vcmFld ai) m

/-- A servo engine's new state: STATE and BUSY (R211), the VCM amplifier's mode, and Mantle's loaded flag, which is set as the engine
leaves PARKED and cleared as it reaches it (R406). ON_TRACK holds in FOLLOW alone. -/
def State.setSrvState (s : State) (ai st : Nat) : State :=
  let b := srvB ai
  let old := s.srvState ai
  let s := s.put b F.SRV_STAT_STATE st
  let busy := (st != svOff && st != svParked) || s.bit b F.SRV_STAT_CAL_ACTIVE
  let s := s.putB b F.SRV_STAT_BUSY busy
  let s := (s.putB b F.SRV_STAT_ON_TRACK (st == svFollow)).vcmShow ai
  if old == svParked && st != svParked && st != svOff then s.setLoaded ai true
  else if st == svParked then s.setLoaded ai false
  else s

/-- The answer to a SEEK that waits (R198). -/
def State.seekAnswer (s : State) (ai : Nat) (z : Bool) : State :=
  let v := s.srv ai
  if v.seek.isSome then
    let s := s.setSrv ai { v with seek := none }
    let s := s.setWick ai { s.wick ai with seekAns := some z }
    if z then s.count (srvB ai) F.SRV_CNT_SEEKFAIL_COUNT (actHalf ai) (384 + 8 * (ai % 8) + 4) 1 else s
  else s

/-- The states in which the heads are loaded or being moved under the engine's control (R209, R211). -/
def loadedState (st : Nat) : Bool :=
  st == svLoading || st == svFollow || st == svSeek || st == svSettle || st == svPark

/-- A retract cause (R207, R209): from a loaded state the engine enters RETRACT, records the cause, raises the retract
request to Wick and answers a seek other than KIND 2; RET_TMO keeps counting from the start of a PARK, whose second phase goes on as
it was. In RETRACT it changes nothing. -/
def State.servoRetract (s : State) (ai cause : Nat) : State :=
  let st := s.srvState ai
  if !loadedState st then s
  else
    let b := srvB ai
    let v := s.srv ai
    let start := if st == svPark then v.retStart else s.usTime
    let kind2 := v.seek == some 2
    let s := s.setSrv ai { v with ramp := true, latch := st == svPark && v.ramp && v.latch, retStart := start,
                                  retracting := true, profile := none, seekRun := false, seekLater := none,
                                  handed := none, locked := false, cal := none, maInteg := [], outMa := [] }
    let s := s.setPa ai { s.pa ai with maZero := true }
    let s := if kind2 then s else s.seekAnswer ai true
    let s := s.putB b F.SRV_STAT_CAL_ACTIVE false
    let s := s.put b F.SRV_RETCAUSE_CAUSE cause
    let s := (s.setSrvState ai svRetract).count b F.SRV_CNT_RETRACT_COUNT (actHalf ai) (384 + 8 * (ai % 8) + 2) 1
    s.wickAbort ai 7 .aborted

/-- The engine leaves for OFF with its outputs at zero: what waits is dropped, and a seek of KIND 0 or 1 is answered with
Z = 1 (R198). -/
def State.servoToOff (s : State) (ai : Nat) : State :=
  let s := if (s.srv ai).seek == some 2 then s else s.seekAnswer ai true
  let s := s.setSrv ai { s.srv ai with ramp := false, latch := false, retracting := false, profile := none,
                                       seek := none, seekLater := none, seekRun := false, handed := none,
                                       locked := false, cal := none, due := false, computing := false, outCur := 0,
                                       outMa := [], maInteg := [], ownLost := false }
  let s := s.putB (srvB ai) F.SRV_STAT_CAL_ACTIVE false
  let s := s.put (srvB ai) F.SRV_VCMOUT_I_CMD 0
  (s.setPa ai { s.pa ai with maZero := true }).setSrvState ai svOff

/-- Ownership withdrawn, at the engine (R208): the outputs are blocked, OWNER_LOST is set, the retract request of R174 is raised,
and the engine enters OFF at the next wedge. -/
def State.servoOwnerLost (s : State) (ai : Nat) : State :=
  let s := s.wickAbort ai 7 .notOwned
  let s := s.setSrv ai { s.srv ai with ownLost := s.srvState ai != svOff }
  (s.setPa ai { s.pa ai with maZero := true }).flag (srvB ai) F.SRV_EVENTS_OWNER_LOST

/-- OFF with EN = 1 and the half owning the HDA (R209): PARKED, or RETRACT with cause RECOVER when the loaded flag is 1.
While Mantle's sequencer holds the VCM the engine stays in OFF. A park that waits is answered in PARKED. -/
def State.servoLeaveOff (s : State) (ai : Nat) : State :=
  if s.srvState ai != svOff || !s.bit (srvB ai) F.SRV_CTL_EN || !s.ownLine (actHda ai) || s.retracting ai then s
  else if s.loaded ai then
    let s := s.setSrv ai { s.srv ai with ramp := true, latch := false, retStart := s.usTime, retracting := true }
    let s := s.put (srvB ai) F.SRV_RETCAUSE_CAUSE 6
    (s.setSrvState ai svRetract).count (srvB ai) F.SRV_CNT_RETRACT_COUNT (actHalf ai) (384 + 8 * (ai % 8) + 2) 1
  else
    let s := s.setSrvState ai svParked
    if (s.srv ai).seek == some 2 then s.seekAnswer ai false else s

/-- A PARK asked of an engine by CMD, SEEK KIND 2 or the spindle engine (R206, R209): from LOADING it is a RETRACT with
cause CMD; from FOLLOW, SEEK and SETTLE it starts PARK. -/
def State.servoPark (s : State) (ai : Nat) : State :=
  let st := s.srvState ai
  if st == svLoading then s.servoRetract ai 4
  else if st == svFollow || st == svSeek || st == svSettle then
    let v := s.srv ai
    let keep := v.seek == some 2
    let s := if keep then s else s.seekAnswer ai true
    let s := s.setSrv ai { s.srv ai with retStart := s.usTime, ramp := false, latch := false, retracting := false,
                                         profile := none, settleRun := 0, cal := none, seekLater := none }
    (s.putB (srvB ai) F.SRV_STAT_CAL_ACTIVE false).setSrvState ai svPark
  else s

/-! ### Mantle's emergency retract -/

/-- The sequencer takes a loaded actuator (R407, R408): VCM mode 2, microactuators at 0 V, the engine in OFF. One already
running is only recorded (R410); one not loaded is not driven. It drives outward under velocity control at VEL with at most 400 mA, and
works with MNT_RETCFG as it found it (R420); the current of that control is a free value. DESIGN CHOICE (log 14). -/
def State.retractStart (s : State) (ai : Nat) : State :=
  if !s.loaded ai || s.retracting ai then s
  else
    let s := s.putMaskBit B.mnt F.MNT_RETACT_ACTIVE ai true
    let s := s.satAdd B.mnt F.MNT_CNT_RETRACT_COUNT 1
    let s := s.vcmShow ai
    let (n, s) := s.takeFree
    let vel := s.get B.mnt F.MNT_RETCFG_VEL
    let r : Retract := { vel := vel, latchMa := s.get B.mnt F.MNT_RETCFG_LATCH_MA, tmo := s.get B.mnt F.MNT_RETCFG_TMO,
                         cur := max (-4000) (min 4000 (Config.emfCurrent (-(vel : Int)) n)) }
    let s := { s with mcore := { s.mcore with latchPush := s.mcore.latchPush &&& (2 ^ 16 - 1 - 2 ^ ai),
                                              retracts := smInsert s.mcore.retracts ai r } }
    (s.wickAbort ai 7 .aborted).servoToOff ai

/-- The retract of every actuator of an HDA. -/
def State.retractHda (s : State) (hd : Nat) : State := (s.retractStart (2 * hd)).retractStart (2 * hd + 1)

/-- The retract of every loaded actuator of the module (R407: PSEN_N, brown-outs, ladder step 3). -/
def State.retractAll (s : State) : State := (List.range 16).foldl State.retractStart s

/-! ### Spindle states and slots -/

/-- Spindle states (R246). -/
abbrev spOff : Nat := 0
abbrev spStopped : Nat := 1
abbrev spWait : Nat := 2
abbrev spAlign : Nat := 3
abbrev spSense : Nat := 4
abbrev spRamp : Nat := 5
abbrev spAccel : Nat := 6
abbrev spRun : Nat := 7
abbrev spCatch : Nat := 8
abbrev spCoast : Nat := 9
abbrev spParking : Nat := 10
abbrev spBrake : Nat := 11
abbrev spLadder : Nat := 12
abbrev spFailed : Nat := 13

def State.spnState (s : State) (hd : Nat) : Nat := s.get (spnB hd) F.SPN_STAT_STATE

/-- What a spindle bridge does in a state (R253): drive, regenerative or short braking, or coast. -/
def spnBridge (st : Nat) (regen short resumed : Bool) : Nat :=
  if st == spBrake || st == spRun then (if regen then 2 else if short then 3 else if st == spRun then 1 else 0)
  else if st == spAlign || st == spSense || st == spRamp || st == spAccel || (st == spCatch && resumed) then 1
  else 0

/-- The bridge of a spindle follows its engine (R253), and coasts while the half's output enable is low (R435, R436) or the link to
the motor die has stopped (R457). -/
def State.showBridge (s : State) (hd : Nat) : State :=
  let v := s.spn hd
  s.put (brgB hd) F.BRG_SPN_MODE
    (if s.outEnable (hdaHalf hd) && s.motlink (hdaHalf hd) then spnBridge (s.spnState hd) v.regen v.short v.resumed else 0)

/-- A spindle engine's new state: STATE, BUSY and the bridge (R246, R253). -/
def State.setSpnState (s : State) (hd st : Nat) : State :=
  let b := spnB hd
  let s := s.put b F.SPN_STAT_STATE st
  let s := s.putB b F.SPN_STAT_BUSY (st != spOff && st != spStopped && st != spFailed)
  let s := if st == spRun then s else s.put b F.SPN_STAT_AT_SPEED 0
  s.showBridge hd

/-- A Taper slot released and a slot request withdrawn (R227, R237). -/
def State.dropTaper (s : State) (hd : Nat) : State :=
  { s with mot := { s.mot with taper := s.mot.taper &&& (0xFF - 2 ^ hd), waitT := s.mot.waitT.filter (·.2 ≠ hd) } }

/-- A braking slot released and its request withdrawn (R238). -/
def State.dropBrake (s : State) (hd : Nat) : State :=
  { s with mot := { s.mot with brake := s.mot.brake &&& (0xFF - 2 ^ hd), waitB := s.mot.waitB.filter (· ≠ hd) } }

/-- A spindle enters LADDER (R227, R241, R244): its bridge coasts, and it releases its slots; a start in progress is
recorded as interrupted (R242). -/
def State.spnLadder (s : State) (hd : Nat) : State :=
  let st := s.spnState hd
  if st == spOff || st == spLadder then s
  else
    let v := s.spn hd
    let inStart := s.mot.taper.testBit hd || s.mot.waitT.any (·.2 == hd) || (st == spWait && v.lateRequest)
    let s := (s.dropTaper hd).dropBrake hd
    let s := s.setSpn hd { v with interrupted := inStart, left := spRun, startCatch := false, stopPending := st == spParking || st == spBrake,
                                  regen := false, short := false, forcedShort := false, lateRequest := false,
                                  resumed := false, unconf := 0, skips := 0, conf := 0, ocpRun := 0 }
    (s.setSpnState hd spLadder).flag (spnB hd) F.SPN_EVENTS_LADDER

/-! ### Identity page -/

/-- A number of n bytes of the identity page of an HDA's port (R84, R88 page 2). -/
def State.ident (s : State) (hd off n : Nat) : Nat :=
  (List.range n).foldl (fun acc i =>
    let o := off + (n - 1 - i)
    acc * 256 + (s.word (grzB hd + 0x2000 + o / 4 * 4)).toNat / 256 ^ (o % 4) % 256) 0

/-! ### Serial bus: withheld frames -/

/-- Whether a frame is a write to GRPSEL, IW or OS (R74, R90, R404). -/
def gateFrame (f : BitVec 24) : Bool :=
  let a := (f.extractLsb' 16 7).toNat
  !f.getLsbD 23 && (a == 0x02 || (0x20 ≤ a && a ≤ 0x2F))

/-! ### Ownership -/

/-- The home line of an HDA falls (R404): in hardware its gates are low, bridge coasting, VCMs off, microactuators at
0 V; Snuffer latches OWNER, the servo engines go to OFF and the spindle to LADDER. -/
def State.lineFall (s : State) (hd : Nat) : State :=
  let one := fun (s : State) (ai : Nat) =>
    let at_ := s.posOf ai (s.lastPlace ai)
    let fr := s.writtenFrames ai at_ at_
    let s := s.snufTrip ai .owner 0 fr
    (s.servoOwnerLost ai).vcmShow ai
  let s := one (one s (2 * hd)) (2 * hd + 1)
  (s.spnLadder hd).putB (brgB hd) F.BRG_OWN_BLOCK true

/-- The withdrawal of an entry (R402) with a cause: recorded and counted, with an event, a message, REVOKED and an
interrupt to the half; the retracts start, and the home line falls when the home half held the entry. -/
def State.withdraw (s : State) (hd cause : Nat) : State :=
  let o := s.ownerOf hd
  if o == 0 then s
  else
    let h := halfOf (o - 1)
    let s := s.put B.mnt (ownFld hd) 0
    let s := s.put B.mnt ⟨F.MNT_MISS_MISS.off, 2 * hd, 2⟩ 0
    let s := ((s.put B.mnt F.MNT_LASTCAUSE_CAUSE cause).put B.mnt F.MNT_LASTCAUSE_HDA hd).put B.mnt
      F.MNT_LASTCAUSE_HALF h.toNat
    let s := s.satAdd B.mnt F.MNT_CNT_REVOKE_COUNT 1
    let s := s.event 0x20 ((s.word (B.mnt + 0x10)).toNat) 0 0
    let s := s.mantleMsg h 24 hd 53 cause
    let s := (s.flag (B.mbx h) F.MNT_MBEVENTS_REVOKED).irq h
    let s := s.retractHda hd
    if h == homeHalf hd then s.lineFall hd else s

/-! ### The mailbox -/

/-- The end of a mailbox request (R395): STATUS, RESULT and SEQ, DONE and RESP_DONE, and an interrupt to the half. -/
def State.mbAnswer (s : State) (h : Half) (status result : Nat) : State :=
  let v := s.mh h.toNat
  match v.req with
  | none => s
  | some r =>
    let b := B.mbx h
    let s := s.setMh h.toNat { v with req := none }
    let s := ((s.put b F.MNT_MBRESP_STATUS status).put b F.MNT_MBRESP_RESULT result).put b F.MNT_MBRESP_SEQ r.seq
    ((s.flag b F.MNT_MBRESP_DONE).flag b F.MNT_MBEVENTS_RESP_DONE).irq h

/-- The intake closes (R415): what was written is discarded. -/
def State.intakeClose (s : State) : State :=
  let s := { s with mcore := { s.mcore with intake := none } }
  ((s.put B.mnt F.MNT_INTAKE_STATE 0).put B.mnt F.MNT_INTAKE_TYPE 0).put B.mnt F.MNT_INTAKE_LEN 0

/-- Every entry that a half owns withdrawn (R402, R412). -/
def State.withdrawHalf (s : State) (h : Half) (cause : Nat) : State :=
  (List.range 8).foldl (fun s hd => if s.owns h hd then s.withdraw hd cause else s) s

end Sys2Proof.Machine
end

