-- ==== Sys2Proof/Machine/Wear.lean ====
section
/-! DEFINITION. The wear lamps of a half (R481 to R483, R495 to R498): measurements, sample intervals, predictions and
lamp states. -/

namespace Sys2Proof.Machine

def State.lamp (s : State) (h : Half) (i : Nat) : Lamp := smGet Lamp.reset s.lamps (256 * h.toNat + i)
def State.setLamp (s : State) (h : Half) (i : Nat) (v : Lamp) : State :=
  { s with lamps := smPut Lamp.reset s.lamps (256 * h.toNat + i) v }

/-- Base of the record of lamp i (R498). -/
def lampB (h : Half) (i : Nat) : Nat := B.wlp h + 16 * i

/-- Whether wear shows as a falling VALUE (R481). -/
def lampDown (t : Nat) : Bool := t == 4 || t == 5

/-- VALUE of a lamp with its sign: type 4 is signed, as are the differences from BASE of types 0 and 3, and type 6 counts by its
absolute value. DESIGN CHOICE (log 29). -/
def lampValue (t v : Nat) : Int :=
  if t == 6 then (signed16 v).natAbs else if t == 0 || t == 3 || t == 4 then signed16 v else v
where
  signed16 (v : Nat) : Int := if v < 0x8000 then v else (v : Int) - 0x10000

/-- A limit of WLP_LIM, signed for type 4 (R497). -/
def State.lampLimit (s : State) (h : Half) (t : Nat) (f : Fld) : Int :=
  let v := s.get (B.wlp h + 4 * t) f
  if t == 4 then lampValue 4 v else v

/-- At or beyond a limit, in the lamp's direction (R483). -/
def beyond (t : Nat) (v lim : Int) : Bool := if lampDown t then decide (v ≤ lim) else decide (lim ≤ v)

/-- History entry j of a lamp, 0 oldest (R498). -/
def State.lampHist (s : State) (h : Half) (i j : Nat) : Nat :=
  let w := (s.word (B.wlp h + 0x3000 + 0x1000 * (i / 64) + 64 * (i % 64) + 4 * (j / 2))).toNat
  if j % 2 == 0 then w % 0x10000 else w / 0x10000

def State.setLampHist (s : State) (h : Half) (i : Nat) (es : List Nat) : State :=
  (List.range 16).foldl (fun s k =>
    s.setWord (B.wlp h + 0x3000 + 0x1000 * (i / 64) + 64 * (i % 64) + 4 * k)
      (BitVec.ofNat 32 (es.getD (2 * k) 0x8000 + 0x10000 * es.getD (2 * k + 1) 0x8000))) s

/-- WLP_STAT and WLP_WORST follow the lamps (R496). -/
def State.lampTotals (s : State) (h : Half) : State :=
  let b := B.wlp h
  let st := (List.range 163).map fun i => s.get (lampB h i) F.LAMP_STATE
  let n := fun k => (st.filter (· == k)).length
  let minConf := min 100 (s.get b F.WLP_MINCONF_MIN_CONF)
  let worst := (List.range 163).foldl (fun (w : Option (Nat × Nat)) i =>
    if s.get (lampB h i) F.LAMP_CONF ≥ minConf && s.get (lampB h i) F.LAMP_STATE != 0 then
      let d := s.get (lampB h i) F.LAMP_DAYS
      match w with
      | some (_, d') => if d < d' then some (i, d) else w
      | none => some (i, d)
    else w) none
  let s := ((s.put b F.WLP_STAT_WATCH (n 2)).put b F.WLP_STAT_LIT (n 3)).put b F.WLP_STAT_END (n 4)
  let (i, d) := worst.getD (0xFF, 0xFFFF)
  (s.put b F.WLP_WORST_INDEX i).put b F.WLP_WORST_DAYS d

/-- The state of a lamp is decided again (R483); entering LIT or END is reported. DESIGN CHOICE (log 20). -/
def State.lampEval (s : State) (h : Half) (i : Nat) : State :=
  let b := B.wlp h
  let lb := lampB h i
  let t := lampType i
  let v := lampValue t (s.get lb F.LAMP_VALUE)
  let days := s.get lb F.LAMP_DAYS
  let sure := s.get lb F.LAMP_CONF ≥ min 100 (s.get b F.WLP_MINCONF_MIN_CONF)
  let old := s.get lb F.LAMP_STATE
  let new :=
    if !(s.lamp h i).seen && s.get lb F.LAMP_N == 0 then 0
    else if beyond t v (s.lampLimit h t F.LIM_LIMIT) then 4
    else if beyond t v (s.lampLimit h t F.LIM_WARN) || (days ≤ s.get b F.WLP_LIFE_LIT_DAYS && sure) then 3
    else if days ≤ s.get b F.WLP_LIFE_WATCH_DAYS && sure then 2
    else 1
  let s := (s.put lb F.LAMP_STATE new).lampTotals h
  if new != old && (new == 3 || new == 4) && old < new then
    (s.flag b (if new == 3 then F.WLP_EVENTS_LIT else F.WLP_EVENTS_END)).chimney h 16 0 33 (i + 0x100 * new)
  else s

/-- A measurement of a lamp (R481, R482): VALUE, cut to the 16 bits of its field, and what it adds to the interval's sum.
DESIGN CHOICE (log 29). -/
def State.lampTake (s : State) (h : Half) (i : Nat) (v add : Int) : State :=
  if !s.bit (B.wlp h) F.WLP_CTL_EN || i ≥ 163 then s
  else
    let lb := lampB h i
    let l := s.lamp h i
    let s := s.setLamp h i { l with sum := l.sum + add, num := l.num + 1, seen := true }
    let s := (s.put lb F.LAMP_VALUE (v % 0x10000).toNat).put lb F.LAMP_TIME (s.usTime / 1000000)
    s.lampEval h i

def State.lampSet (s : State) (h : Half) (i : Nat) (v : Int) : State := s.lampTake h i v v

/-- A quantity relative to BASE, in 0.1 %. -/
def relBase (base : Nat) (raw : Int) : Int := (raw - (base : Int)) * 1000 / (base : Int)

/-- A measurement as the half makes it (R481): types 0 and 3 give the raw quantity, and VALUE is the change relative to BASE, 0
until the first valid sample has set it. The other types give VALUE itself. -/
def State.lampMeasure (s : State) (h : Half) (i : Nat) (raw : Int) : State :=
  let t := lampType i
  if t == 0 || t == 3 then
    let base := s.get (lampB h i) F.LAMP_BASE
    if base == 0 then s.lampTake h i 0 raw else s.lampSet h i (relBase base raw)
  else s.lampSet h i raw

/-- LAMP_MEASUREMENT (R482): lamp i, the quantity measured, and for a bearing lamp the seconds of running it covers. The lamps of
types 2, 3, 5, 7 and 10 take their measurements where they arise. -/
def lampMeasurement (h : Half) (i : Nat) (raw : Int) (secs : Nat) (s : State) : State :=
  let t := lampType i
  if 163 ≤ i || t == 2 || t == 3 || t == 5 || t == 7 || t == 10 then s
  else
    let l := s.lamp h i
    let s := if t == 0 && s.bit (B.wlp h) F.WLP_CTL_EN then s.setLamp h i { l with events := l.events + secs } else s
    s.lampMeasure h i raw

def execLampMeasurement (h : Half) (i : Nat) (raw : Int) (secs : Nat) (s : State) : Host.Outcome State Fault Refusal :=
  .next (lampMeasurement h i raw secs s)

/-- WLP_FEED (R481, R496): the measured touchdown power less 8 times the head's HTR_RD, in 0.1 mW, a free value where that is
below 0 (DESIGN CHOICE, log 29); other lamps are ignored. HTR_RD is the preamplifier's register 0x10 + head, as its acknowledged writes have left it. -/
def State.wlpFeed (s : State) (h : Half) (i power : Nat) : State :=
  if 24 ≤ i ∧ i < 88 then
    let rd := smGet 0 (s.pa (actId h ((i - 24) / 8))).regs (0x10 + (i - 24) % 8)
    if 8 * rd ≤ power then s.lampMeasure h i ((power - 8 * rd : Nat) : Int)
    else
      let (n, s) := s.takeFree
      s.lampMeasure h i ((Config.freeNat n % 0x10000 : Nat) : Int)
  else s

def execWlpFeed (h : Half) (i power : Nat) (s : State) : Host.Outcome State Fault Refusal := .next (s.wlpFeed h i power)

/-- The prediction of a lamp from its history (R482). -/
def State.lampPredict (s : State) (h : Half) (i : Nat) : State :=
  let lb := lampB h i
  let t := lampType i
  let sh := max 1 (smGet 0 s.lampHours h.toNat)
  let es := ((List.range 32).map fun j => (j, s.lampHist h i j)).filter fun e => e.2 != 0x8000
  let n := es.length
  let s := s.put lb F.LAMP_N n
  if n < 7 then (s.put lb F.LAMP_DAYS 0xFFFF).put lb F.LAMP_CONF 0
  else
    let pts : List (Rat × Rat) := es.map fun e =>
      let y : Rat := (lampValue t e.2 : Int)
      (((e.1 * sh : Nat) : Rat) / 24, if lampDown t then -y else y)
    let sum := fun (f : Rat × Rat → Rat) => pts.foldl (fun a p => a + f p) 0
    let sx := sum (·.1)
    let sy := sum (·.2)
    let nx := (n : Rat) * sum (fun p => p.1 * p.1) - sx * sx
    let ny := (n : Rat) * sum (fun p => p.2 * p.2) - sy * sy
    let nxy := (n : Rat) * sum (fun p => p.1 * p.2) - sx * sy
    let slope := nxy / nx
    let (k, s) := s.takeFree
    let v := lampValue t (s.get lb F.LAMP_VALUE)
    let lim := s.lampLimit h t F.LIM_LIMIT
    let days := if beyond t v lim then 0
      else if slope > 0 then min 65534 ((((lim.natAbs : Int) - (v.natAbs : Int) : Int) : Rat) / slope).floor.toNat
      else 0xFFFF
    let conf := if ny = 0 then Config.freeNat k % 101
      else (100 * (nxy * nxy / (nx * ny)) * min 1 ((n : Rat) / 30) + 1 / 2).floor.toNat
    let trend := (30 * (if lampDown t then -slope else slope)).floor
    ((s.put lb F.LAMP_TREND (trend % 0x10000).toNat).put lb F.LAMP_DAYS days).put lb F.LAMP_CONF conf

/-- Hours of the sample interval in progress of a half: a changed SAMPLE_H waits for the next one (R496). -/
def State.hoursNow (s : State) (h : Half) : Nat := max 1 (smGet 0 s.lampHours h.toNat)

/-- The entry of an interval in a lamp's history (R481, R482): the mean VALUE, 0x8000 where there was no measurement or, for a
bearing, less than an hour of running that counts. -/
def lampEntry (t : Nat) (l : Lamp) : Nat :=
  if l.num == 0 || (t == 0 && l.events < 3600) then 0x8000 else ((l.sum / (l.num : Int)) % 0x10000).toNat

/-- One lamp at the close of a sample interval (R482). DIMM lamps take their measurement here: corrections per day. The first valid
sample of types 0 and 3 is BASE (R481), to which it is itself relative. -/
def State.lampClose (s : State) (h : Half) (i : Nat) : State :=
  let t := lampType i
  let s := if t == 7 then s.lampSet h i (((s.lamp h i).events * 24 / s.hoursNow h : Nat) : Int) else s
  let l := s.lamp h i
  let entry := lampEntry t l
  let first := (t == 0 || t == 3) && s.get (lampB h i) F.LAMP_BASE == 0 && entry != 0x8000
  let s := if first then s.put (lampB h i) F.LAMP_BASE (l.sum / (l.num : Int)).toNat else s
  let hist := ((List.range 31).map fun j => s.lampHist h i (j + 1)) ++ [if first then 0 else entry]
  let s := s.setLampHist h i hist
  let s := s.setLamp h i { l with sum := 0, num := 0, events := if t == 10 then l.events else 0 }
  (s.lampPredict h i).lampEval h i

/-- The next interval close, in Glim seconds (R496). -/
def State.lampSchedule (s : State) (h : Half) : State :=
  let hours := max 1 (s.get (B.wlp h) F.WLP_CTL_SAMPLE_H)
  ({ s with lampHours := smPut 0 s.lampHours h.toNat hours }).put (B.wlp h) F.WLP_NEXT_SECONDS (s.seconds + 3600 * hours)

/-- SAMPLE_INTERVAL_CLOSE (R482): every lamp of a half that samples, once the second of WLP_NEXT has come. -/
def sampleIntervalClose (h : Half) (s : State) : State :=
  if s.seconds < s.get (B.wlp h) F.WLP_NEXT_SECONDS then s
  else if !s.bit (B.wlp h) F.WLP_CTL_EN then s.lampSchedule h
  else ((List.range 163).foldl (fun s i => s.lampClose h i) s).flag (B.wlp h) F.WLP_EVENTS_SAMPLE |>.lampSchedule h

def execSampleIntervalClose (h : Half) (s : State) : Host.Outcome State Fault Refusal := .next (sampleIntervalClose h s)

/-- A half reset clears the lamps' internal state with their arrays (R498). -/
def State.lampsClear (s : State) (h : Half) : State :=
  { s with lamps := smClear s.lamps (256 * h.toNat) (256 * h.toNat + 256) }

/-- An episode of the chopper that absorbed 10 J or more (R481): the chopper lamp of both halves, in units of 4. -/
def State.chopEpisode (s : State) : State :=
  let one := fun (s : State) (h : Half) =>
    let l := s.lamp h 162
    let s := s.setLamp h 162 { l with events := l.events + 1 }
    s.lampMeasure h 162 (((l.events + 1) / 4 : Nat) : Int)
  one (one s .a) .b

end Sys2Proof.Machine
end

