-- ==== Sys2Proof/Machine/Buffer.lean ====
section
/-! DEFINITION. Buffer memory (R254 to R288): population and training, where a word lies, its two codes, reads and
writes, the merge buffer, first touch, the patrol scrub, partitions, and retirement. -/

namespace Sys2Proof.Machine

/-! ### Geometry (R257 to R259, R280) -/

def State.bufReady (s : State) (h : Half) : Bool := s.get (B.buf h 0) F.BUF_STAT_STATE == 3
def State.bufRows (s : State) (h : Half) : Nat := s.get (B.buf h 0) F.BUF_CHGEOM_ROWS
def State.bufRanks (s : State) (h : Half) : Nat := s.get (B.buf h 0) F.BUF_CHSTAT_RANKS + 1
def State.bufTotal (s : State) (h : Half) : Nat := 128 * s.bufRanks h * s.bufRows h
/-- First channel page of the parity region, and of the tail (R259). -/
def State.bufD (s : State) (h : Half) : Nat := 31 * s.bufTotal h / 32
def State.bufT (s : State) (h : Half) : Nat := s.bufTotal h - s.bufTotal h / 1024
/-- The bank index of the spare slot of a channel (R280). -/
def State.slotBank (s : State) (h : Half) : Nat := 31 * s.bufRanks h - 1

/-- DATATOP in units of 64 MiB: 31/32 of the capacity, less eight banks while bank sparing is on (R257). -/
def State.dataTop (s : State) (h : Half) : Nat :=
  let cap := s.get (B.buf h 0) F.BUF_CHSTAT_CAP
  cap * 124 - (if s.bit (B.buf h 0) F.BUF_STAT_SPARING then s.bufRows h / 512 else 0)

/-- The spare page that replaces a page, if a valid remap entry names it (R279). -/
def State.spareOf (s : State) (h : Half) (p : Nat) : Option Nat :=
  let v := s.resv h
  let busy := match v.retire with | some r => !r.bank && r.frm == p | none => false
  if busy then none else v.remap.findIdx? (· == p)

/-- Where a word of a page lies after page remapping: channel, channel page and word (R258, R259, R279). Positions 64 and
65 are the page's parity words. -/
def State.bufWordAt (s : State) (h : Half) (p pos : Nat) : Nat × Nat × Nat :=
  match s.spareOf h p with
  | none =>
    let cp := p / 8
    if pos < 64 then (p % 8, cp, pos) else (p % 8, s.bufD h + cp / 32, 2 * (cp % 32) + (pos - 64))
  | some k =>
    let j := k / 8
    if pos < 64 then (k % 8, s.bufT h + j, pos) else (k % 8, s.bufT h + 512 + j / 32, 2 * (j % 32) + (pos - 64))

/-- A bank as BUF_RETFROM codes it (R286). -/
def bankCode (ch bidx : Nat) : Nat := ch + bidx / 32 % 2 * 8 + bidx / 4 % 8 * 16 + bidx % 4 * 128

/-- Bank code of a channel page (R258). -/
def State.bankOf (s : State) (h : Half) (ch cp : Nat) : Nat := bankCode ch (cp / (4 * max 1 (s.bufRows h)))

/-- Channel and bank index of a word after bank redirection (R280). -/
def State.bankAt (s : State) (h : Half) (p pos : Nat) : Nat × Nat :=
  let (ch, cp, _) := s.bufWordAt h p pos
  let v := s.resv h
  let code := s.bankOf h ch cp
  let busy := match v.retire with | some r => r.bank && r.frm == code | none => false
  match if busy then none else v.banks.findIdx? (· == code) with
  | some k => (k, s.slotBank h)
  | none => (ch, cp / (4 * max 1 (s.bufRows h)))

/-! ### Words and pages as they are stored -/

def poisonKey (h : Half) (p pos : Nat) : Nat := 128 * (p + 2 ^ 29 * h.toNat) + pos
def State.poisoned (s : State) (h : Half) (p pos : Nat) : Bool := smGet false s.poison (poisonKey h p pos)
def State.setPoison (s : State) (h : Half) (p pos : Nat) (b : Bool) : State :=
  { s with poison := smPut false s.poison (poisonKey h p pos) b }
def garbageKey (h : Half) (p : Nat) : Nat := p + 2 ^ 29 * h.toNat
def State.touched (s : State) (h : Half) (p : Nat) : Bool := smGet false (s.resv h).touched (p / 16)

/-- The 64 bytes of a data word in DRAM. DESIGN CHOICE (log 8). DEDUCED (log 57). -/
def State.dramWord (s : State) (h : Half) (p w : Nat) : List Nat :=
  (List.range 64).map fun i => (smGet 0 s.dram (bufBa h (4096 * p + 64 * w + i))).toNat

def State.setDramWord (s : State) (h : Half) (p w : Nat) (bs : List Nat) : State :=
  { s with dram := (List.range 64).foldl (fun m i =>
      smPut 0 m (bufBa h (4096 * p + 64 * w + i)) (BitVec.ofNat 8 (bs.getD i 0))) s.dram }

/-- The 66 words of a page: the parity words always match the content written (R263, R272). -/
def State.pageStored (s : State) (h : Half) (p : Nat) : List (List Nat) :=
  let ws := (List.range 64).map (s.dramWord h p)
  let (p0, p1) := pageParity ws
  ws ++ [p0, p1]

/-- What the word code makes of a word read from DRAM with the errors that the read meets (R260, R261); the words of a
page that was never initialised are flagged (R275). DESIGN CHOICE (log 48). -/
def State.wordRead (s : State) (h : Half) (p pos : Nat) (stored : List Nat) (errs : List WordErr) :
    WordStatus × List Nat :=
  let (_, cp, w) := s.bufWordAt h p pos
  let cwa := 64 * cp + w
  let burst := wordBurst cwa stored (s.poisoned h p pos)
  let burst := match errs.find? fun e => e.page == p && e.pos == pos with
    | some e => addError burst e.sym
    | none => burst
  if smGet false s.garbage (garbageKey h p) then (.flagged, symbolBytes (burst.take 32))
  else
    let (st, syms) := wordDecode (s.bit (B.buf h 0) F.BUF_CHSTAT_WIDTH) cwa burst
    (st, symbolBytes syms)

/-- All 66 words of a page as read. -/
def State.pageRead (s : State) (h : Half) (p : Nat) (errs : List WordErr) : List (WordStatus × List Nat) :=
  (s.pageStored h p).zipIdx.map fun (w, i) => s.wordRead h p i w errs

/-- Erasures of the page code: flagged and poisoned words (R264). -/
def erasures (ws : List (WordStatus × List Nat)) : List Nat :=
  (List.range ws.length).filter fun i =>
    match ws[i]? with
    | some (.flagged, _) => true
    | some (.poisoned, _) => true
    | _ => false

/-- A flagged word rebuilt by the page code, where at most two words are erasures (R264). -/
def State.pageFix (s : State) (h : Half) (p pos : Nat) (errs : List WordErr) : Option (List Nat) :=
  let ws := s.pageRead h p errs
  if smGet false s.garbage (garbageKey h p) then none
  else match pageDecode (ws.map (·.2)) (erasures ws) with
    | some (r, _) => some (r.getD pos [])
    | none => none

/-! ### Counters, log and reports (R265, R266, R284, R287) -/

/-- Counter i of page 1 of a channel, and the 48-bit counter behind it. -/
def State.bufCount (s : State) (h : Half) (ch i n : Nat) : State :=
  s.count (B.buf h ch) ⟨0x1000 + 4 * i, 0, 32⟩ h (480 + 8 * ch + i) n

/-- SOURCE of a class (R287). -/
def bufSource : BufCls → Nat
  | .host => 0 | .media => 1 | .table => 2 | .sdm => 3 | .scrub => 4 | .copy => 5 | .merge => 6

/-- Word j of log entry e (R287). -/
def logAddr (h : Half) (e j : Nat) : Nat := B.buf h 0 + 0x4000 + 16 * e + 4 * j

/-- KIND of a log entry. -/
def State.logKind (s : State) (h : Half) (e : Nat) : Nat := (s.word (logAddr h e 1)).toNat / 0x1000 % 8

/-- An event into the error log (R266): one on a word that has an entry of its KIND is added to it; else it takes a free
entry, or with none free the oldest of KIND 0 to 2, or the oldest of all. -/
def State.bufLog (s : State) (h : Half) (p pos kind dev : Nat) (cls : BufCls) : State :=
  let v := s.resv h
  let (_, cp, w) := s.bufWordAt h p pos
  let (ch, bidx) := s.bankAt h p pos
  let word0 := ch + w % 2 * 8 + bidx / 32 % 2 * 16 + bidx / 4 % 8 * 32 + bidx % 4 * 256 +
    cp / 4 % max 1 (s.bufRows h) * 1024
  let col := 32 * (cp % 4) + w / 2
  let page := if pos < 64 && (s.spareOf h p).isNone then p else 0x1FFFFFFF
  let word1 := fun n => BitVec.ofNat 32 (col + dev * 0x100 + kind * 0x1000 + 0x8000 + n * 0x10000)
  let time := BitVec.ofNat 32 s.usTime
  let same := v.logOrder.find? fun e =>
    (s.word (logAddr h e 0)).toNat == word0 && (s.word (logAddr h e 1)).toNat % 128 == col && s.logKind h e == kind
  match same with
  | some e =>
    let n := (s.word (logAddr h e 1)).toNat / 0x10000
    let old := (s.word (logAddr h e 1)).toNat % 0x10000
    (s.setWord (logAddr h e 1) (BitVec.ofNat 32 (old + min (n + 1) 0xFFFF * 0x10000))).setWord (logAddr h e 3) time
  | none =>
    let free := (List.range 64).find? fun e => !v.logOrder.contains e
    let e := match free with
      | some e => e
      | none => (v.logOrder.find? fun e => s.logKind h e ≤ 2).getD (v.logOrder.headD 0)
    let s := if free.isNone then s.flag (B.buf h 0) F.BUF_EVENTS_LOG_OVERWRITE else s
    let s := s.setResv h { v with logOrder := v.logOrder.filter (· != e) ++ [e] }
    let s := s.put (B.buf h 0) F.BUF_LOGCTL_USED (s.resv h).logOrder.length
    (((s.setWord (logAddr h e 0) (BitVec.ofNat 32 word0)).setWord (logAddr h e 1) (word1 1)).setWord (logAddr h e 2)
      (BitVec.ofNat 32 (page + bufSource cls * 0x20000000))).setWord (logAddr h e 3) time

/-- A correction (KIND 0 to 2), UE (3) or poisoned read (4) reported: the log, the sticky events, a message (R265). A
correction also counts for the channel's wear lamp (R481). DEDUCED (log 52). DESIGN CHOICE (log 56). -/
def State.bufReport (s : State) (h : Half) (p pos kind dev : Nat) (cls : BufCls) : State :=
  let (ch, _) := s.bankAt h p pos
  let s := s.bufLog h p pos kind dev cls
  let (e, c, m) := if kind ≤ 2 then (F.BUF_EVENTS_CE, F.BUF_CHEVENTS_CE, 16)
    else if kind = 3 then (F.BUF_EVENTS_UE, F.BUF_CHEVENTS_UE, 17)
    else (F.BUF_EVENTS_POISON, F.BUF_CHEVENTS_POISON, 18)
  let s := (s.flag (B.buf h 0) e).flag (B.buf h ch) c
  let s := if kind ≤ 2 then
      let l := s.lamp h (152 + ch)
      s.setLamp h (152 + ch) { l with events := l.events + 1 }
    else s
  s.chimney h 3 ch m (64 * p + (if pos < 64 then pos else 0))

/-! ### Reading a word (R265) -/

/-- A corrected word written back (R265, R276). -/
def State.wordBack (s : State) (h : Half) (p pos : Nat) (bs : List Nat) : State :=
  let s := if pos < 64 then s.setDramWord h p pos bs else s
  s.bufCount h (s.bankAt h p pos).1 6 1

/-- A word read from DRAM for a class: the bytes, and the cause of a UE (R265). -/
def State.bufWord (s : State) (h : Half) (cls : BufCls) (p w : Nat) (errs : List WordErr) :
    State × List Nat × BufCause :=
  if !s.touched h p then (s, List.replicate 64 0, .ok)
  else
    let (ch, bidx) := s.bankAt h p w
    let wb := cls != .scrub && cls != .copy && s.bit (B.buf h 0) F.BUF_CTL_DEMAND_WB
    let (st, bs) := s.wordRead h p w (s.dramWord h p w) errs
    match st with
    | .clean => (s, bs, .ok)
    | .corrected d =>
      let s := (s.bufCount h ch (bidx / 32 % 2) 1).bufReport h p w 0 d cls
      (if wb then s.wordBack h p w bs else s, bs, .ok)
    | .poisoned => ((s.bufCount h ch 4 1).bufReport h p w 4 15 cls, bs, .poison)
    | .flagged =>
      match s.pageFix h p w errs with
      | some fixed =>
        let s := (s.bufCount h ch 2 1).bufReport h p w 1 15 cls
        (if wb then s.wordBack h p w fixed else s, fixed, .ok)
      | none => ((s.bufCount h ch 3 1).bufReport h p w 3 15 cls, bs, .uncorrectable)

/-- A read of bytes of one page: bytes held by the page's merge entry, and the rest from DRAM (R271). Every byte of a
failing word is 0xFF (R267). DESIGN CHOICE (log 55). -/
def State.bufReadPage (s : State) (h : Half) (cls : BufCls) (ha len : Nat) (errs : List WordErr) :
    State × List Byte × BufCause :=
  let p := ha / 4096
  let words := (List.range 64).filter fun w => ha % 4096 < 64 * w + 64 && 64 * w < ha % 4096 + len
  words.foldl (fun (acc : State × List Byte × BufCause) w =>
    let (s, out, cause) := acc
    let lo := max (ha % 4096) (64 * w)
    let hi := min (ha % 4096 + len) (64 * w + 64)
    let held := fun o => smFind s.mergeBytes (bufBa h (4096 * p + o))
    let offs := (List.range (hi - lo)).map (lo + ·)
    if offs.all fun o => (held o).isSome then (s, out ++ offs.map fun o => (held o).getD 0, cause)
    else
      let (t, bs, c) := s.bufWord h cls p w errs
      let bytes := offs.map fun o => if c != .ok then 0xFF#8 else (held o).getD (BitVec.ofNat 8 (bs.getD (o - 64 * w) 0))
      (t, out ++ bytes, if cause == .ok then c else cause)) (s, [], .ok)

/-! ### Partitions (R277, R278) -/

/-- Partition i: PINNED, SEGMENT, STAGING, SYSTEM, SPARE, with base and size in units of 64 MiB. -/
def State.bufPart (s : State) (h : Half) (i : Nat) : Nat × Nat :=
  (s.get (B.buf h 0) ⟨0x2014 + 4 * i, 0, 16⟩, s.get (B.buf h 0) ⟨0x2014 + 4 * i, 16, 16⟩)

/-- The partitions that hold a half address. -/
def State.partsAt (s : State) (h : Half) (ha : Nat) : List Nat :=
  (List.range 5).filter fun i =>
    let (b, n) := s.bufPart h i
    b ≤ ha / 2 ^ 26 && ha / 2 ^ 26 < b + n

/-- Whether a request of a class to an address is refused, and with which cause (R255, R257, R277, R278).
DEDUCED (log 49). -/
def State.bufRefuse (s : State) (h : Half) (cls : BufCls) (ha : Nat) : BufCause :=
  if !s.bufReady h then .offline
  else if ha / 2 ^ 26 ≥ s.get (B.buf h 0) F.BUF_DATATOP_TOP then .addr
  else match cls with
    | .scrub | .copy | .merge => .ok
    | .host | .media => (match s.partsAt h ha with | [i] => if i ≤ 2 then .ok else .addr | _ => .addr)
    | .table | .sdm => (match s.partsAt h ha with | [3] => .ok | _ => .addr)

/-- Overlap of partitions and truncation of quotas (R278, R280). -/
def State.partCheck (s : State) (h : Half) : State :=
  let b := B.buf h 0
  let ps := (List.range 5).map (s.bufPart h)
  let live := ps.filter (·.2 != 0)
  let over_ := (List.range live.length).any fun i => (List.range i).any fun j =>
    let (b1, n1) := live.getD i (0, 0)
    let (b2, n2) := live.getD j (0, 0)
    decide (b1 < b2 + n2) && decide (b2 < b1 + n1)
  let s := if over_ then s.flag b F.BUF_EVENTS_PART_OVERLAP else s
  let s := s.putB b F.BUF_STAT_PART_VALID (!over_)
  let (base, size) := s.bufPart h 2
  let room := min (base + size) (s.get b F.BUF_DATATOP_TOP) - base
  let want := s.get b F.BUF_STQ01_Q0 + s.get b F.BUF_STQ01_Q1 + s.get b F.BUF_STQ23_Q2 + s.get b F.BUF_STQ23_Q3
  if room < want then s.flag b F.BUF_EVENTS_QUOTA_TRUNC else s

/-- Staging quota of a local HDA in units of 64 MiB, as it fits into STAGING (R278). -/
def State.quota (s : State) (h : Half) (n : Nat) : Nat :=
  let b := B.buf h 0
  let q := fun i => s.get b ⟨0x2028 + 4 * (i / 2), 16 * (i % 2), 16⟩
  let (base, size) := s.bufPart h 2
  let room := min (base + size) (s.get b F.BUF_DATATOP_TOP) - base
  let before := (List.range n).foldl (fun a i => a + q i) 0
  min (q n) (room - before)

/-! ### State shown in registers -/

/-- MERGE_USED, FILLS, BUSY, TOUCHED and REMAPCNT follow the half's buffer state (R285, R286). -/
def State.bufShow (s : State) (h : Half) : State :=
  let v := s.resv h
  let b := B.buf h 0
  let s := (s.put b F.BUF_STAT_MERGE_USED v.merge.length).put b F.BUF_STAT_FILLS (min 16 v.fills.length)
  let s := s.putB b F.BUF_STAT_BUSY (v.fills != [] || v.waiting != [] || v.retire.isSome)
  (s.put b F.BUF_REMAPCNT_COUNT v.remap.length).showTouched h

/-! ### The merge buffer (R270 to R272) -/

/-- Offsets of a page that its merge entry holds. -/
def State.mergeMask (s : State) (h : Half) (p : Nat) : List Nat :=
  (s.mergeBytes.filter fun e => bufBa h (4096 * p) ≤ e.1 && e.1 < bufBa h (4096 * p + 4096)).map
    fun e => e.1 - bufBa h (4096 * p)

/-- A merge entry discarded. -/
def State.mergeDrop (s : State) (h : Half) (p : Nat) : State :=
  let v := s.resv h
  let s := { s with mergeBytes := smClear s.mergeBytes (bufBa h (4096 * p)) (bufBa h (4096 * p + 4096)) }
  s.setResv h { v with merge := v.merge.filter (· != p) }

/-- A merge entry flushed (R272). The words written are merged with their old words, which are read where they are not
wholly written; words that cannot be recovered are written poisoned. DEDUCED (log 59). -/
def State.mergeFlush (s : State) (h : Half) (p : Nat) (errs : List WordErr) : State :=
  if !(s.resv h).merge.contains p then s
  else
    let mask := s.mergeMask h p
    let n := fun w => (mask.filter fun o => o / 64 == w).length
    let written := (List.range 64).filter fun w => n w != 0
    let part := written.filter fun w => n w < 64
    let full := (List.range 64).filter fun w => n w == 64
    let held := fun w i => smFind s.mergeBytes (bufBa h (4096 * p + 64 * w + i))
    let merged := fun w (old : List Nat) => (List.range 64).map fun i =>
      match held w i with | some b => b.toNat | none => old.getD i 0
    let delta := written.length ≤ 32 && full.length < 64
    -- delta: the old words of W and the parity words are read; full: every word not wholly written
    let reads := if full.length == 64 then [] else if delta then written else (List.range 64).filter (!full.contains ·)
    let pre := s
    let failsDelta := delta && (reads.any (fun w => match pre.wordRead h p w (pre.dramWord h p w) errs with
        | (.flagged, _) => (pre.pageFix h p w errs).isNone
        | _ => false) ||
      [64, 65].any (fun i => match pre.wordRead h p i ((pre.pageStored h p).getD i []) errs with
        | (.flagged, _) => true
        | _ => false))
    let reads := if failsDelta then (List.range 64).filter (!full.contains ·) else reads.filter (!full.contains ·)
    let (s, olds) := reads.foldl (fun (acc : State × List (Nat × List Nat × Bool)) w =>
      let (t, bs, c) := acc.1.bufWord h .merge p w errs
      (t, acc.2 ++ [(w, bs, c == .ok)])) (s, [])
    let s := full.foldl (fun s w => (s.setDramWord h p w (merged w [])).setPoison h p w false) s
    let s := olds.foldl (fun s (w, bs, good) =>
      let s := if part.contains w then s.setDramWord h p w (merged w bs)
        else if good then s else s.setDramWord h p w bs
      if good then s else s.setPoison h p w true) s
    let s := if full.length == 64 || smGet false s.garbage (garbageKey h p) then
        { s with garbage := smPut false s.garbage (garbageKey h p) false } else s
    let s := s.bufCount h (s.bankAt h p 0).1 5 part.length
    (s.mergeDrop h p).bufShow h

/-- A narrow or sub-page write into the merge buffer (R271). With all 128 entries in use the least recently written is
flushed; an entry whose every byte is written is flushed. -/
def State.mergeWrite (s : State) (h : Half) (ha : Nat) (bs : List Byte) (errs : List WordErr) : State :=
  let p := ha / 4096
  let v := s.resv h
  let s := if !v.merge.contains p && v.merge.length ≥ 128 then s.mergeFlush h (v.merge.headD 0) errs else s
  let v := s.resv h
  let s := s.setResv h { v with merge := v.merge.filter (· != p) ++ [p] }
  let s := { s with mergeBytes := bs.zipIdx.foldl (fun (m : List Host.Cell) (b, i) =>
    smInsert m (bufBa h (ha + i)) b) s.mergeBytes }
  if (s.mergeMask h p).length == 4096 then s.mergeFlush h p errs else s.bufShow h

/-- A whole-page write: straight to DRAM, discarding the page's merge entry; it clears poison (R262, R270, R271). -/
def State.pageWrite (s : State) (h : Half) (p : Nat) (bs : List Byte) : State :=
  let s := s.mergeDrop h p
  let lo := bufBa h (4096 * p)
  let s := { s with
    dram := bs.zipIdx.foldl (fun (m : List Host.Cell) (b, i) => smPut 0 m (lo + i) b) (smClear s.dram lo (lo + 4096))
    poison := smClear s.poison (poisonKey h p 0) (poisonKey h p 66)
    garbage := smPut false s.garbage (garbageKey h p) false }
  s.bufShow h

/-! ### Requests -/

/-- An answer given. -/
def State.answer (s : State) (h : Half) (r : CReq) (bs : List Byte) (c : BufCause) : State :=
  { s with answers := s.answers ++ [⟨h, r.cls, r.write, r.ha, bs, c⟩] }

/-- A UE answered as its class receives it (R267): HOST takes the bytes; for TABLE and SDM it is an exception, a message
of kind buffer-ue, which an uncorrectable word has already sent. DEDUCED (log 53). -/
def State.answerUe (s : State) (h : Half) (r : CReq) (bs : List Byte) (c : BufCause) : State :=
  let exc := (r.cls == .table || r.cls == .sdm) && c != .uncorrectable && c != .ok
  let s := if exc then s.chimney h 3 (r.ha / 4096 % 8) 17 (r.ha / 64) else s
  s.answer h r (if c == .ok || r.cls == .host then bs else []) c

/-- Pieces of a request: whole regions, where a write covers them, and pages (R270, R273). -/
def bufPieces (regions : Bool) (ha len : Nat) : List (Nat × Nat) :=
  if len = 0 then []
  else
    let last := ha + len - 1
    ((List.range (last / 65536 - ha / 65536 + 1)).flatMap fun i =>
      let r := ha / 65536 + i
      let lo := max ha (65536 * r)
      let hi := min (ha + len) (65536 * r + 65536)
      if regions && hi - lo = 65536 then [(lo, 65536)]
      else (List.range ((hi - 1) / 4096 - lo / 4096 + 1)).map fun j =>
        let q := lo / 4096 + j
        let a := max lo (4096 * q)
        (a, min hi (4096 * q + 4096) - a))

/-- Whether a request waits: its region is FILLING, its page is being copied, or an earlier request of its region waits
(R265, R273, R279). -/
def State.bufBlocked (s : State) (h : Half) (r : CReq) : Bool :=
  let v := s.resv h
  v.fills.contains (r.ha / 65536) || v.waiting.any (fun x => x.ha / 65536 == r.ha / 65536) ||
    (match v.retire with | some t => !t.bank && r.ha / 4096 ≤ t.frm && t.frm ≤ (r.ha + r.len - 1) / 4096 | none => false)

/-- One piece of a request, applied or made to wait (R265, R270 to R273). -/
def State.bufPiece (s : State) (h : Half) (r : CReq) : State :=
  let c := s.bufRefuse h r.cls r.ha
  if c != .ok then s.answerUe h r (List.replicate r.len 0xFF) c
  else
    let v := s.resv h
    let p := r.ha / 4096
    if s.bufBlocked h r then (s.setResv h { v with waiting := v.waiting ++ [r] }).bufShow h
    else if !r.write then
      let (s, bs, c) := s.bufReadPage h r.cls r.ha r.len r.errs
      s.answerUe h r bs c
    else if r.len == 65536 then
      let s := s.setResv h { v with touched := smPut false v.touched (r.ha / 65536) true }
      let s := (List.range 16).foldl (fun s i => s.pageWrite h (p + i) ((r.bytes.drop (4096 * i)).take 4096)) s
      s.answer h r [] .ok
    else if !s.touched h p then
      (s.setResv h { v with fills := v.fills ++ [r.ha / 65536], waiting := v.waiting ++ [r] }).bufShow h
    else if r.len == 4096 then (s.pageWrite h p r.bytes).answer h r [] .ok
    else (s.mergeWrite h r.ha r.bytes r.errs).answer h r [] .ok

/-- A request that has reached the Reservoir, in its pieces. DESIGN CHOICE (log 47). -/
def State.bufSubmit (s : State) (h : Half) (r : CReq) : State :=
  (bufPieces r.write r.ha r.len).foldl (fun s (a, n) =>
    s.bufPiece h { r with ha := a, len := n, bytes := (r.bytes.drop (a - r.ha)).take n }) s

/-- The waiting requests, applied again in their order. -/
def State.bufRerun (s : State) (h : Half) : State :=
  let v := s.resv h
  (v.waiting.foldl (fun s r => s.bufPiece h r) (s.setResv h { v with waiting := [] })).bufShow h

/-! ### Bring-up (R254 to R256) -/

/-- The Reservoir goes to OFFLINE (R254, R255). -/
def State.bufOffline (s : State) (h : Half) : State :=
  (s.put (B.buf h 0) F.BUF_STAT_STATE 4).flag (B.buf h 0) F.BUF_EVENTS_OFFLINE

/-- Whether a DIMM is one that R29 names. -/
def dimmGood (d : DimmInfo) : Bool :=
  d.supported && decide (32 ≤ d.cap ∧ d.cap ≤ 256) && (d.ranks == 1 || d.ranks == 2) && decide (d.rate ≤ 3)

/-- DIMM_IDENTIFY (R254, R255 steps 1 and 2): what each socket's SPD hub gave, none for an empty socket. The switch of a
supported DIMM's socket closes unless its trip has not been cleared (R30). DEDUCED (log 50). DEDUCED (log 51). -/
def dimmIdentify (h : Half) (dimms : List (Option DimmInfo)) (s : State) : State :=
  if !s.coreUp h || s.get (B.buf h 0) F.BUF_STAT_STATE != 0 then s
  else
    let s := s.put (B.buf h 0) F.BUF_STAT_STATE 1
    let s := (List.range 8).foldl (fun s n =>
      let b := B.buf h n
      match dimms.getD n none with
      | none => s
      | some d =>
        let s := (((s.flag b F.BUF_CHSTAT_PRESENT).put b F.BUF_CHSTAT_RANKS (d.ranks - 1)).putB b F.BUF_CHSTAT_WIDTH
          d.x8).put b F.BUF_CHSTAT_CAP d.cap
        let s := s.put b F.BUF_CHGEOM_ROWS (d.cap * 2048 / max 1 d.ranks)
        if dimmGood d && !s.board.socketTripped.testBit (8 * h.toNat + n) then
          { s with board := { s.board with socketClosed := s.board.socketClosed ||| 2 ^ (8 * h.toNat + n) } }
        else s) s
    let all := (List.range 8).map fun n => dimms.getD n none
    let ok := match dimms.getD 0 none with
      | some d => dimmGood d && all.all (· == some d)
      | none => false
    if ok then
      let best := match dimms.getD 0 none with | some d => d.rate | none => 3
      let s := s.put (B.buf h 0) F.BUF_DATATOP_TOP (s.dataTop h)
      (s.setResv h { s.resv h with rate := best }).partCheck h
    else s.bufOffline h

def execDimmIdentify (h : Half) (dimms : List (Option DimmInfo)) (s : State) : Host.Outcome State Fault Refusal :=
  .next (dimmIdentify h dimms s)

/-- PMIC_POWER_GOOD (R255 steps 2 to 4): the rate is the lower of the DIMMs' and RATE_CAP; training begins. -/
def pmicPowerGood (h : Half) (s : State) : State :=
  let b := B.buf h 0
  if !s.coreUp h || s.get b F.BUF_STAT_STATE != 1 then s
  else
    let rate := max (s.resv h).rate (s.get b F.BUF_CTL_RATE_CAP)
    let s := s.setResv h { s.resv h with rate := rate }
    (s.put b F.BUF_STAT_STATE 2).put b F.BUF_STAT_RATE rate

def execPmicPowerGood (h : Half) (s : State) : Host.Outcome State Fault Refusal := .next (pmicPowerGood h s)

/-- TRAINING_ATTEMPT_END (R255 steps 4 to 6): the channels that failed. -/
def trainingAttemptEnd (h : Half) (failed : List Nat) (s : State) : State :=
  let b := B.buf h 0
  if !s.coreUp h || s.get b F.BUF_STAT_STATE != 2 then s
  else
    let rate := (s.resv h).rate
    match (List.range 8).find? failed.contains with
    | none =>
      let s := (List.range 8).foldl (fun s n =>
        (s.flag (B.buf h n) F.BUF_CHSTAT_TRAINED).put (B.buf h n) F.BUF_CHSTAT_RATE rate) s
      (s.put b F.BUF_STAT_STATE 3).put b F.BUF_STAT_RATE rate
    | some n =>
      if rate < 3 then
        let s := (s.setResv h { s.resv h with rate := rate + 1 }).put b F.BUF_STAT_RATE (rate + 1)
        (s.flag b F.BUF_EVENTS_TRAIN_DOWN).chimney h 3 n 20 (2 * (rate + 1))
      else
        let s := failed.foldl (fun s n => if n < 8 then s.flag (B.buf h n) F.BUF_CHEVENTS_TRAIN_FAIL else s) s
        (s.bufOffline h).chimney h 3 n 20 (1 + 2 * rate)

def execTrainingAttemptEnd (h : Half) (failed : List Nat) (s : State) : Host.Outcome State Fault Refusal :=
  .next (trainingAttemptEnd h failed s)

/-- DIMM_TEMP_READ (R256): the temperature of channel n in °C. -/
def dimmTempRead (h : Half) (n temp : Nat) (s : State) : State :=
  let b := B.buf h n
  if !s.coreUp h || 8 ≤ n || !s.bit b F.BUF_CHSTAT_PRESENT then s
  else
    let t := min temp 255
    let s := (s.put b F.BUF_CHTEMP_TEMP t).peak b F.BUF_CHTEMP_PEAK t
    let hot := s.bit b F.BUF_CHSTAT_HOT
    if t > 85 && !hot then (s.flag b F.BUF_CHSTAT_HOT).flag b F.BUF_CHEVENTS_HOT
    else if t < 82 && hot then s.put b F.BUF_CHSTAT_HOT 0
    else s

def execDimmTempRead (h : Half) (n temp : Nat) (s : State) : Host.Outcome State Fault Refusal :=
  .next (dimmTempRead h n temp s)

/-! ### Requests as commands -/

/-- A double-bit error in the bitmap word of an address (R275): its 64 regions are marked touched; those that were not
hold DRAM that has never been initialised. -/
def State.bitmapError (s : State) (h : Half) (ha : Nat) : State :=
  let v := s.resv h
  let word := ha / 65536 / 64
  let fresh := ((List.range 64).map (64 * word + ·)).filter fun r => !smGet false v.touched r && !v.fills.contains r
  let s := { s with garbage := fresh.foldl (fun m r => (List.range 16).foldl (fun m i =>
    smPut false m (garbageKey h (16 * r + i)) true) m) s.garbage }
  let s := s.setResv h { v with touched := fresh.foldl (fun m r => smPut false m r true) v.touched }
  ((s.flag (B.buf h 0) F.BUF_EVENTS_BITMAP_ERR).chimney h 3 8 19 word).showTouched h

/-- BUFFER_READ (R265, R267, R271, R275): a read that reaches the Reservoir, the errors its bursts meet, and whether its
bitmap word shows a double-bit error. -/
def bufferRead (h : Half) (cls : BufCls) (ha len : Nat) (errs : List WordErr) (bitmap : Bool) (s : State) : State :=
  if !s.coreUp h then s
  else
    let s := { (s.demand h 13) with answers := [] }
    let s := if bitmap then s.bitmapError h ha else s
    s.bufSubmit h ⟨cls, false, ha, len, [], errs, false⟩

def execBufferRead (h : Half) (cls : BufCls) (ha len : Nat) (errs : List WordErr) (bitmap : Bool) (s : State) :
    Host.Outcome State Fault Refusal :=
  .next (bufferRead h cls ha len errs bitmap s)

/-- BUFFER_WRITE (R270, R271, R273): a write that reaches the Reservoir. -/
def bufferWrite (h : Half) (cls : BufCls) (ha : Nat) (bytes : List Byte) (errs : List WordErr) (s : State) : State :=
  if !s.coreUp h then s
  else { (s.demand h 13) with answers := [] }.bufSubmit h ⟨cls, true, ha, bytes.length, bytes, errs, false⟩

def execBufferWrite (h : Half) (cls : BufCls) (ha : Nat) (bytes : List Byte) (errs : List WordErr) (s : State) :
    Host.Outcome State Fault Refusal :=
  .next (bufferWrite h cls ha bytes errs s)

/-- A region's content at its first touch: zeros (R273). -/
def State.regionZero (s : State) (h : Half) (r : Nat) : State :=
  let lo := bufBa h (65536 * r)
  { s with dram := smClear s.dram lo (lo + 65536), mergeBytes := smClear s.mergeBytes lo (lo + 65536),
           poison := smClear s.poison (poisonKey h (16 * r) 0) (poisonKey h (16 * r + 16) 0),
           garbage := smClear s.garbage (garbageKey h (16 * r)) (garbageKey h (16 * r + 16)) }

/-- ZERO_FILL_DONE (R273): the fill of a region, one of the 16 that run, completes; the waiting requests apply in order. -/
def State.zeroFillDone (s : State) (h : Half) (r : Nat) : State :=
  let v := s.resv h
  if !(v.fills.take 16).contains r then s
  else
    let s := s.regionZero h r
    let s := s.setResv h { v with fills := v.fills.filter (· != r), touched := smPut false v.touched r true }
    ((List.range 8).foldl (fun s ch => s.bufCount h ch 7 2) s).bufRerun h

def execZeroFillDone (h : Half) (region : Nat) (s : State) : Host.Outcome State Fault Refusal :=
  .next ({ s with answers := [] }.zeroFillDone h region)

/-- MERGE_FLUSH (R271, R272): MERGE_IDLE has passed since the last write of a page's entry; `idle` is the time since then, in
0.1 µs. -/
def execMergeFlush (h : Half) (page idle : Nat) (errs : List WordErr) (s : State) : Host.Outcome State Fault Refusal :=
  .next (if idle ≥ min1 (s.get (B.buf h 0) F.BUF_CTL_MERGE_IDLE) then s.mergeFlush h page errs else s)

/-! ### Patrol scrub (R276) -/

/-- One page scrubbed: every word and both parity words read, corrections written back, the rest logged and counted.
DEDUCED (log 54). -/
def State.scrubPage (s : State) (h : Half) (p : Nat) (errs : List WordErr) : State :=
  let s := s.mergeFlush h p errs
  let ws := s.pageRead h p errs
  let er := erasures ws
  let dec := if smGet false s.garbage (garbageKey h p) then none else pageDecode (ws.map (·.2)) er
  let s := ws.zipIdx.foldl (fun s ((st, bs), i) =>
    let (ch, bidx) := s.bankAt h p i
    match st with
    | .clean => s
    | .corrected d => ((s.bufCount h ch (bidx / 32 % 2) 1).bufReport h p i 0 d .scrub).wordBack h p i bs
    | .poisoned => (s.bufCount h ch 4 1).bufReport h p i 4 15 .scrub
    | .flagged => match dec with
      | some (r, _) => ((s.bufCount h ch 2 1).bufReport h p i 1 15 .scrub).wordBack h p i (r.getD i [])
      | none => (s.bufCount h ch 3 1).bufReport h p i 3 15 .scrub) s
  if er.length ≠ 0 then s
  else match dec with
    | some (r, some j) =>
      ((s.bufCount h (s.bankAt h p j).1 2 1).bufReport h p j 2 15 .scrub).wordBack h p j (r.getD j [])
    | some (_, none) => s
    | none => (s.bufCount h (s.bankAt h p 0).1 3 1).bufReport h p 0 3 15 .scrub

/-- SCRUB_STEP (R276): channel ch at the channel page reached, `us` µs after its last step: the pages of the data region are spread
evenly over PERIOD hours. The step of channel 7 moves on to the next page. DEDUCED (log 61). -/
def scrubStep (h : Half) (ch us : Nat) (errs : List WordErr) (s : State) : State :=
  let b := B.buf h 0
  if !s.coreUp h || !s.bufReady h || !s.bit b F.BUF_CTL_SCRUB_EN || 8 ≤ ch ||
      decide (us * s.bufD h < min1 (s.get b F.BUF_SCRUBCFG_PERIOD) * 3600000000) then s
  else
    let s := s.demand h 13
    let cp := s.get b F.BUF_SCRUBSTAT_CP
    let p := 8 * cp + ch
    let v := s.resv h
    let copying := match v.retire with | some t => !t.bank && t.frm == p | none => false
    if copying then s
    else
      let s := if s.touched h p then s.scrubPage h p errs else s
      if ch != 7 then s
      else if cp + 1 ≥ s.bufD h then
        ((s.put b F.BUF_SCRUBSTAT_CP 0).satAdd b F.BUF_SCRUBSTAT_PASSES 1).flag b F.BUF_EVENTS_SCRUB_PASS
      else s.put b F.BUF_SCRUBSTAT_CP (cp + 1)

def execScrubStep (h : Half) (ch us : Nat) (errs : List WordErr) (s : State) : Host.Outcome State Fault Refusal :=
  .next (scrubStep h ch us errs s)

/-! ### Retirement (R279, R280, R286) -/

/-- Word 0 and 1 of remap entry k (R288). -/
def State.setRemap (s : State) (h : Half) (k frm : Nat) (copying : Bool) : State :=
  let a := B.buf h 0 + 0x8000 + 8 * k
  (s.setWord a (BitVec.ofNat 32 (frm + (if copying then 0 else 2 ^ 31)))).setWord (a + 4) (if copying then 1 else 0)

/-- A rejected retirement (R286); one rejected because another runs leaves that one's status as it is. -/
def State.retireReject (s : State) (h : Half) (reason : Nat) : State :=
  let b := B.buf h 0
  let s := if reason == 5 then s else s.put b F.BUF_RETSTAT_STATE 3
  (s.put b F.BUF_RETSTAT_REASON reason).flag b F.BUF_EVENTS_RETIRE_REJ

/-- A retirement under way or done: RETSTAT with its slot. -/
def State.retireShow (s : State) (h : Half) (state slot poisoned : Nat) : State :=
  let b := B.buf h 0
  (((s.put b F.BUF_RETSTAT_STATE state).put b F.BUF_RETSTAT_REASON 0).put b F.BUF_RETSTAT_SLOT slot).put b
    F.BUF_RETSTAT_POISONED (min poisoned 0x3FFF)

/-- PAGE_RETIRE (R279): the page that BUF_RETFROM names. DESIGN CHOICE (log 60). -/
def pageRetire (h : Half) (errs : List WordErr) (s : State) : State :=
  if !s.coreUp h then s
  else
    let s := s.demand h 13
    let b := B.buf h 0
    let v := s.resv h
    let p := s.get b F.BUF_RETFROM_FROM
    if v.retire.isSome then s.retireReject h 5
    else if p / 2 ^ 14 ≥ s.get b F.BUF_DATATOP_TOP then s.retireReject h 3
    else if v.remap.contains p then s.retireReject h 2
    else if v.remap.length ≥ 4096 then s.retireReject h 1
    else
      let k := v.remap.length
      let s := s.mergeFlush h p errs
      let v := s.resv h
      let v := { v with remap := v.remap ++ [p] }
      if s.touched h p then
        let s := s.setResv h { v with retire := some ⟨false, p, k⟩ }
        ((s.setRemap h k p true).retireShow h 1 k 0).bufShow h
      else
        let s := s.setResv h v
        (((s.setRemap h k p false).retireShow h 2 k 0).flag b F.BUF_EVENTS_RETIRE_DONE).bufShow h

def execPageRetire (h : Half) (errs : List WordErr) (s : State) : Host.Outcome State Fault Refusal :=
  .next (pageRetire h errs s)

/-- The bits of BUF_BANKSPARE[k] (R286). -/
def State.setBankSpare (s : State) (h : Half) (k bank : Nat) (copying : Bool) : State :=
  s.setWord (B.buf h 0 + 0x3010 + 4 * k) (BitVec.ofNat 32 (bank + 0x200 + (if copying then 0x400 else 0)))

/-- BANK_RETIRE (R280): the bank that BUF_RETFROM names. -/
def bankRetire (h : Half) (s : State) : State :=
  if !s.coreUp h then s
  else
    let s := s.demand h 13
    let b := B.buf h 0
    let v := s.resv h
    let code := s.get b F.BUF_RETFROM_FROM % 0x200
    let bidx := 32 * (code / 8 % 2) + 4 * (code / 16 % 8) + code / 128 % 4
    if v.retire.isSome then s.retireReject h 5
    else if !s.bit b F.BUF_STAT_SPARING then s.retireReject h 6
    else if bidx ≥ 32 * s.bufRanks h then s.retireReject h 3
    else if bidx == s.slotBank h then s.retireReject h 4
    else if v.banks.contains code then s.retireReject h 2
    else if v.banks.length ≥ 8 then s.retireReject h 1
    else
      let k := v.banks.length
      let v := { v with banks := v.banks ++ [code], retire := some ⟨true, code, k⟩ }
      let s := ((s.setResv h v).setBankSpare h k code true).retireShow h 1 k 0
      ((s.put b F.BUF_BANKPROG_ROW 0).put b F.BUF_BANKPROG_SLOT k).bufShow h

def execBankRetire (h : Half) (s : State) : Host.Outcome State Fault Refusal := .next (bankRetire h s)

/-- A word copied by a retirement (R279, R280): one that cannot be recovered is written poisoned, and counted.
DEDUCED (log 58). -/
def State.copyWord (s : State) (h : Half) (p w : Nat) (errs : List WordErr) : State × Nat :=
  let (s, bs, c) := s.bufWord h .copy p w errs
  let s := s.setDramWord h p w bs
  if c == .ok then (s.setPoison h p w false, 0) else (s.setPoison h p w true, 1)

/-- RETIRE_DONE (R279, R280): the copy ends, having met the errors given. -/
def retireDone (h : Half) (errs : List WordErr) (s : State) : State :=
  let v := s.resv h
  let b := B.buf h 0
  match v.retire with
  | none => s
  | some t =>
    if !s.coreUp h then s
    else if !t.bank then
      let (s, n) := (List.range 64).foldl (fun (acc : State × Nat) w =>
        let (s, k) := acc.1.copyWord h t.frm w errs
        (s, acc.2 + k)) (s, 0)
      let s := { s with garbage := smPut false s.garbage (garbageKey h t.frm) false,
                        poison := smClear s.poison (poisonKey h t.frm 64) (poisonKey h t.frm 66) }
      let s := s.setResv h { s.resv h with retire := none }
      let s := (s.setRemap h t.slot t.frm false).retireShow h 2 t.slot n
      (s.flag b F.BUF_EVENTS_RETIRE_DONE).bufRerun h
    else
      -- the words of the bank that are poisoned, or whose read meets an error
      let inBank := fun (p pos : Nat) =>
        let (ch, cp, _) := s.bufWordAt h p pos
        s.bankOf h ch cp == t.frm && s.touched h p
      let held := (s.poison.filter fun e => e.1 / 2 ^ 36 == h.toNat).map fun e => (e.1 / 128 % 2 ^ 29, e.1 % 128)
      let met := errs.map fun e => (e.page, e.pos)
      let words := (held ++ met).eraseDups.filter fun e => inBank e.1 e.2
      let (s, n) := words.foldl (fun (acc : State × Nat) (p, pos) =>
        if pos < 64 then
          let (s, k) := acc.1.copyWord h p pos errs
          (s, acc.2 + k)
        else match acc.1.wordRead h p pos ((acc.1.pageStored h p).getD pos []) errs with
          | (.clean, _) => acc
          | (.corrected d, _) =>
            let (ch, bidx) := acc.1.bankAt h p pos
            (((acc.1.bufCount h ch (bidx / 32 % 2) 1).bufReport h p pos 0 d .copy), acc.2)
          | (.poisoned, _) =>
            (((acc.1.bufCount h (acc.1.bankAt h p pos).1 4 1).bufReport h p pos 4 15 .copy), acc.2 + 1)
          | (.flagged, _) => match acc.1.pageFix h p pos errs with
            | some _ => (((acc.1.bufCount h (acc.1.bankAt h p pos).1 2 1).bufReport h p pos 1 15 .copy), acc.2)
            | none => ((((acc.1.bufCount h (acc.1.bankAt h p pos).1 3 1).bufReport h p pos 3 15 .copy).setPoison h p pos
                true), acc.2 + 1)) (s, 0)
      let s := s.setResv h { s.resv h with retire := none }
      let s := (s.setBankSpare h t.slot t.frm false).retireShow h 2 t.slot n
      let s := s.put b F.BUF_BANKPROG_ROW (s.bufRows h)
      (s.flag b F.BUF_EVENTS_RETIRE_DONE).bufRerun h

def execRetireDone (h : Half) (errs : List WordErr) (s : State) : Host.Outcome State Fault Refusal :=
  .next (retireDone h errs { s with answers := [] })

/-- LOG_CLEAR (R266): the log is emptied. -/
def State.logClear (s : State) (h : Half) : State :=
  let s := s.clearRange (logAddr h 0 0) (logAddr h 64 0)
  (s.setResv h { s.resv h with logOrder := [] }).put (B.buf h 0) F.BUF_LOGCTL_USED 0

def execLogClear (h : Half) (s : State) : Host.Outcome State Fault Refusal := .next (s.logClear h)

/-! ### Partition registers and bank sparing -/

/-- PARTITION_WRITE (R278, R285): register i of PINNED, SEGMENT, STAGING, SYSTEM, STQ01, STQ23 takes a word. -/
def State.partitionWrite (s : State) (h : Half) (i : Nat) (w : Word) : State :=
  if !s.coreUp h || 6 ≤ i then s
  else (s.setWord (B.buf h 0 + (if i < 4 then 0x2014 + 4 * i else 0x2028 + 4 * (i - 4))) w).partCheck h

def execPartitionWrite (h : Half) (i : Nat) (w : Word) (s : State) : Host.Outcome State Fault Refusal :=
  .next (s.partitionWrite h i w)

/-- BANK_SPARE (R280, R285): sparing on makes the top data bank of each channel a spare slot and lowers DATATOP by eight
banks; clearing it while slots are in use is ignored. -/
def State.bankSpare (s : State) (h : Half) (on : Bool) : State :=
  let b := B.buf h 0
  if !s.coreUp h || (!on && (s.resv h).banks != []) then s
  else
    let s := (s.putB b F.BUF_CTL_BANK_SPARE on).putB b F.BUF_STAT_SPARING on
    let top := s.dataTop h
    let s := s.put b F.BUF_DATATOP_TOP top
    let s := (s.put b F.BUF_PART_SPARE_BASE (if on then top else 0)).put b F.BUF_PART_SPARE_SIZE
      (if on then s.bufRows h / 512 else 0)
    s.partCheck h

def execBankSpare (h : Half) (on : Bool) (s : State) : Host.Outcome State Fault Refusal := .next (s.bankSpare h on)

end Sys2Proof.Machine
end

