-- ==== Sys2Proof/Machine/Cache.lean ====
section
/-! DEFINITION. The Reservoir cache (R289 to R316): requests, misses, fills and write-backs, locked lines, maintenance
operations, powering ways down, errors in its arrays, and region release (R274, R307). -/

namespace Sys2Proof.Machine

/-! ### Lines -/

/-- A line by page and way, if the way holds that page's set's line. -/
def Cache.line (c : Cache) (page way : Nat) : Option Line := smFind c.lines (lineKey page way)

/-- A line stored in its way; one with no sub-block held, no fill and no lock is FREE (R292). -/
def Cache.putLine (c : Cache) (way : Nat) (l : Line) : Cache :=
  if l.valid == 0 && l.pend == 0 && !l.locked then { c with lines := smErase c.lines (lineKey l.page way) }
  else { c with lines := smInsert c.lines (lineKey l.page way) l }

/-- The miss register that holds a page's line (R297). -/
def Cache.missOf (c : Cache) (page : Nat) : Option (Nat × MissReg) := c.miss.find? fun e => e.2.page == page

/-- Sub-blocks that bytes at an offset of a page touch, as a list, and those they cover whole. -/
def subsOf (off len : Nat) : List Nat := (List.range 64).filter fun w => off < 64 * w + 64 && 64 * w < off + len
def wholeSub (off len w : Nat) : Bool := off ≤ 64 * w && 64 * w + 64 ≤ off + len

/-- A mask of sub-blocks. -/
def maskOf (l : List Nat) : Nat := l.foldl (fun m w => m ||| 2 ^ w) 0
def maskCount (m : Nat) : Nat := ((List.range 64).filter m.testBit).length
/-- The bits of a mask that another one does not hold. -/
def maskDiff (a b : Nat) : Nat := a &&& (a ^^^ b)

/-- Ways of a set by use, least recent first (R296). -/
def Cache.order (c : Cache) (set : Nat) : List Nat := smGet (List.range 16) c.lru set
def Cache.use (c : Cache) (page way : Nat) : Cache :=
  let set := page % 1024
  { c with lru := smPut (List.range 16) c.lru set ((c.order set).filter (· != way) ++ [way]) }

/-- Way 8 + k is off, being walked, or waking (R312). -/
def State.wayDown (s : State) (h : Half) (way : Nat) : Bool :=
  let b := B.bca h
  8 ≤ way && (s.maskBit b F.BCA_WAYSTAT_OFF (way - 8) || s.maskBit b F.BCA_WAYSTAT_WALKING (way - 8) ||
    s.maskBit b F.BCA_WAYSTAT_WAKING (way - 8))

/-- Whether a way of a page's set is eligible for allocation (R296, R308, R310). -/
def State.eligible (s : State) (h : Half) (page way : Nat) : Bool :=
  let c := s.cache h
  !s.wayDown h way && !smGet false c.disabled (lineKey page way) &&
    (match c.line page way with
     | none => true
     | some l => !l.locked && !l.evict && (c.missOf l.page).isNone)

/-- The way chosen for allocation (R296): the lowest FREE eligible way, else the eligible way used least recently. -/
def State.chooseWay (s : State) (h : Half) (page : Nat) : Option Nat :=
  let c := s.cache h
  match (List.range 16).find? fun w => s.eligible h page w && (c.line page w).isNone with
  | some w => some w
  | none => (c.order (page % 1024)).find? fun w => s.eligible h page w

/-- Counter i of page 2, and its 48-bit counterpart (R315, R487). -/
def State.bcaCount (s : State) (h : Half) (i n : Nat) : State :=
  s.count (B.bca h) ⟨0x2000 + 4 * i, 0, 32⟩ h (544 + i) n

/-- BUSY, MREG_USED and LOCKED follow the cache (R312). -/
def State.bcaShow (s : State) (h : Half) : State :=
  let c := s.cache h
  let b := B.bca h
  let busy := c.miss != [] || c.waiting != [] || c.walks != [] || (c.lines.any (·.2.evict)) ||
    s.get b F.BCA_MSTAT_STATE == 1
  ((s.put b F.BCA_STAT_MREG_USED c.miss.length).putB b F.BCA_STAT_BUSY busy).put b F.BCA_LOCKCNT_LOCKED
    (c.lines.filter (·.2.locked)).length

/-! ### Write-back (R294) -/

/-- Bytes that the cache keeps for a sub-block dropped. -/
def State.subDrop (s : State) (h : Half) (page sub : Nat) : State :=
  let lo := bufBa h (4096 * page + 64 * sub)
  { s with cacheBytes := smClear s.cacheBytes lo (lo + 64) }

def State.pageDrop (s : State) (h : Half) (page : Nat) : State :=
  let lo := bufBa h (4096 * page)
  { s with cacheBytes := smClear s.cacheBytes lo (lo + 4096) }

/-- Bytes written to the Reservoir by a write-back: a page that its class's partitions and DATATOP no longer admit is
written all the same; an untouched region is zero-filled with it (R273). DEDUCED (log 65). -/
def State.backWrite (s : State) (h : Half) (ha : Nat) (bs : List Byte) : State :=
  let p := ha / 4096
  let s := if s.touched h p then s
    else
      let v := s.resv h
      let s := s.regionZero h (p / 16)
      let s := s.setResv h { v with touched := smPut false v.touched (p / 16) true }
      (List.range 8).foldl (fun s ch => s.bufCount h ch 7 2) s
  if bs.length == 4096 then s.pageWrite h p bs else s.mergeWrite h ha bs []

/-- The dirty sub-blocks of a line written back: a whole page past the merge buffer, fewer sub-blocks through it. The
line stays valid and CLEAN (R294, R304). -/
def State.writeBack (s : State) (h : Half) (page way : Nat) : State :=
  let c := s.cache h
  match c.line page way with
  | none => s
  | some l =>
    let n := maskCount l.dirty
    if n == 0 then s
    else
      let bytesAt := fun ha k => (List.range k).map fun i => s.bufByte (bufBa h (ha + i))
      let base := 4096 * l.page
      let out := if n == 64 then [(base, bytesAt base 4096)]
        else ((List.range 64).filter l.dirty.testBit).map fun w => (base + 64 * w, bytesAt (base + 64 * w) 64)
      let s := ((List.range 64).filter l.dirty.testBit).foldl (fun s w => s.subDrop h l.page w) s
      let s := s.setCache h (c.putLine way { l with dirty := 0 })
      let s := out.foldl (fun s (ha, bs) => s.backWrite h ha bs) s
      let s := s.bcaCount h 4 1
      if n == 64 then s.bcaCount h 5 1 else s

/-- A line dropped with what it holds; its way becomes FREE. -/
def State.dropLine (s : State) (h : Half) (page way : Nat) : State :=
  let c := s.cache h
  match c.line page way with
  | none => s
  | some l => (s.pageDrop h l.page).setCache h { c with lines := smErase c.lines (lineKey page way) }

/-- A line written back and dropped. -/
def State.cleanDrop (s : State) (h : Half) (page way : Nat) : State := (s.writeBack h page way).dropLine h page way

/-! ### Array errors (R310) -/

/-- SET, WAY, SUB and TAG of the last error. -/
def State.errAddr (s : State) (h : Half) (set way sub : Nat) (tag : Bool) : State :=
  let b := B.bca h
  (((s.put b F.BCA_ERRADDR_SET set).put b F.BCA_ERRADDR_WAY way).put b F.BCA_ERRADDR_SUB sub).putB b F.BCA_ERRADDR_TAG tag

/-- The cache enters RECOVERY (R301). -/
def State.recovery (s : State) (h : Half) : State :=
  (s.put (B.bca h) F.BCA_STAT_MODE_NOW 3).flag (B.bca h) F.BCA_EVENTS_RECOVERY_ENTERED

/-- One error met by a lookup of a page. The result says whether a dirty sub-block of it was lost: its request receives a
UE with cause POISON. DEDUCED (log 68). -/
def State.sramErr (s : State) (h : Half) (page : Nat) (e : SramErr) : State × Option Nat :=
  let b := B.bca h
  let c := s.cache h
  match e with
  | .data sub double =>
    match c.wayOf page with
    | none => (s, none)
    | some way =>
      match c.line page way with
      | none => (s, none)
      | some l =>
        if !l.valid.testBit sub || 64 ≤ sub then (s, none)
        else
          let s := s.errAddr h (page % 1024) way sub false
          let l' := { l with valid := maskDiff l.valid (2 ^ sub), dirty := maskDiff l.dirty (2 ^ sub) }
          if !double then ((s.bcaCount h 7 1).flag b F.BCA_EVENTS_DATA_CE, none)
          else if !l.dirty.testBit sub then
            let s := (s.bcaCount h 7 1).flag b F.BCA_EVENTS_DATA_CE
            ((s.subDrop h page sub).setCache h (c.putLine way l'), none)
          else
            let bs := (List.range 64).map fun i => (s.bufByte (bufBa h (4096 * page + 64 * sub + i))).toNat
            let s := (s.subDrop h page sub).setCache h (c.putLine way l')
            let lo := bufBa h (4096 * page + 64 * sub)
            let s := if s.touched h page then s
              else
                let v := s.resv h
                (s.regionZero h (page / 16)).setResv h { v with touched := smPut false v.touched (page / 16) true }
            let s := { s with mergeBytes := smClear s.mergeBytes lo (lo + 64) }
            let s := (s.setDramWord h page sub bs).setPoison h page sub true
            let s := (s.flag b F.BCA_EVENTS_DATA_UE).chimney h 2 0 22 (64 * page + sub)
            (s, some sub)
  | .tag way both =>
    if 16 ≤ way then (s, none)
    else
      let s := (s.errAddr h (page % 1024) way 0 true).flag b F.BCA_EVENTS_TAG_ERR
      if !both then (s.bcaCount h 7 1, none)
      else
        let (lost, s) := match c.line page way with
          | none => (([] : List CReq), s)
          | some l => ((match c.missOf l.page with | some (_, m) => m.reqs | none => []), s.pageDrop h l.page)
        let keep : SMap MissReg := c.miss.filter fun m =>
          !(match c.line page way with | some l => m.2.page == l.page | none => false)
        let s := s.setCache h { c with lines := smErase c.lines (lineKey page way), miss := keep,
                                       waiting := lost ++ c.waiting,
                                       disabled := smPut false c.disabled (lineKey page way) true }
        ((s.chimney h 2 0 23 (page % 1024 + 0x400 * way)).recovery h, none)

/-! ### Requests (R293 to R298) -/

/-- A request served from its line: a read returns its bytes, a write is applied (R294). -/
def State.serve (s : State) (h : Half) (r : CReq) (way : Nat) : State :=
  let s := s.setCache h ((s.cache h).use (r.ha / 4096) way)
  if r.write then (s.lineWrite h (r.ha / 4096) way (r.ha % 4096) r.bytes).answer h r [] .ok
  else s.answer h r ((List.range r.len).map fun i => s.bufByte (bufBa h (r.ha + i))) .ok

/-- Whether a line holds all that a request needs (R294): a read every sub-block it touches, a write those it covers in
part; a sub-block that is PENDING serves none. -/
def Line.serves (l : Line) (r : CReq) : Bool :=
  (subsOf (r.ha % 4096) r.len).all fun w =>
    !l.pend.testBit w && (l.valid.testBit w || (r.write && wholeSub (r.ha % 4096) r.len w))

/-- The run that a primary miss fills (R297): the aligned group of FILL_GRAN sub-blocks, extended to the whole request. -/
def fillRun (gran : Nat) (r : CReq) : Nat × Nat :=
  let g := 4 ^ (gran % 4)
  let first := r.ha % 4096 / 64
  let last := (r.ha % 4096 + r.len - 1) / 64
  let lo := first / g * g
  let hi := max last (lo + g - 1)
  (lo, hi - lo + 1)

/-- The sub-blocks of a run that the line does not hold become PENDING. -/
def Line.fillIn (l : Line) (first count : Nat) : Line :=
  let run := maskOf ((List.range count).map (first + ·))
  { l with pend := l.pend ||| maskDiff run l.valid }

/-- Miss registers that the mode allows (R301). -/
def State.missLimit (s : State) (h : Half) : Nat := if s.get (B.bca h) F.BCA_STAT_MODE_NOW == 0 then 512 else 1

/-- The RD or WR bit of BCA_ALLOC for an address (R295); TABLE always allocates. -/
def State.allocates (s : State) (h : Half) (r : CReq) : Bool :=
  r.cls == .table ||
    (match s.partsAt h r.ha with
     | [i] => i < 4 && (s.get (B.bca h) ⟨0xC, 2 * i + (if r.write then 1 else 0), 1⟩) == 1
     | _ => false)

/-- A request made to wait, its wait counted once in counter i if one is named. -/
def State.cacheWait (s : State) (h : Half) (r : CReq) (i : Option Nat) : State :=
  let s := match i with
    | some k => if r.counted then s else s.bcaCount h k 1
    | none => s
  let c := s.cache h
  s.setCache h { c with waiting := c.waiting ++ [{ r with counted := r.counted || i.isSome }] }

/-- The lowest free miss register (R297). -/
def Cache.freeMiss (c : Cache) : Nat := ((List.range 512).find? fun r => (smFind c.miss r).isNone).getD 512

/-- A primary miss in a way that holds the line or is FREE (R297). -/
def State.primary (s : State) (h : Half) (r : CReq) (way : Nat) (l : Line) : State :=
  let c := s.cache h
  let (first, count) := fillRun (s.get (B.bca h) F.BCA_CTL_FILL_GRAN) r
  let c := c.putLine way (l.fillIn first count)
  let c := { c with miss := smInsert c.miss c.freeMiss ⟨l.page, way, first, count, [r], false⟩ }
  (s.setCache h (c.use l.page way)).bcaCount h 1 1

/-- A request that does not allocate and misses (R295): sub-blocks that a line holds are served from it, the others go to
the Reservoir. -/
def State.direct (s : State) (h : Half) (r : CReq) (line : Option (Nat × Line)) : State :=
  match line with
  | none => s.bufSubmit h r
  | some (way, l) =>
    let n := s.answers.length
    if r.write then
      let t := (subsOf (r.ha % 4096) r.len).foldl (fun s w =>
        let lo := max (r.ha % 4096) (64 * w)
        let hi := min (r.ha % 4096 + r.len) (64 * w + 64)
        let bs := (r.bytes.drop (lo - r.ha % 4096)).take (hi - lo)
        if l.valid.testBit w then s.lineWrite h l.page way lo bs
        else s.bufSubmit h { r with ha := 4096 * l.page + lo, len := hi - lo, bytes := bs }) s
      let cause := (((t.answers.drop n).map (·.cause)).find? (· != .ok)).getD .ok
      { t with answers := t.answers.take n }.answer h r [] cause
    else
      let t := s.bufSubmit h r
      match t.answers.drop n with
      | [a] =>
        let bs := a.bytes.zipIdx.map fun (b, i) => (smFind s.cacheBytes (bufBa h (r.ha + i))).getD b
        { t with answers := t.answers.take n ++ [{ a with bytes := bs }] }
      | _ => t

/-- Whether a line must be waited for (R305). -/
def Cache.lineBusy (c : Cache) (l : Line) : Bool := l.evict || (c.missOf l.page).isSome

/-- Whether a page waits for a maintenance operation that has found its line in FILLING or EVICTING (R305). -/
def Cache.held (c : Cache) (page : Nat) : Bool :=
  match c.maint with
  | none => false
  | some m =>
    if m.walked then false
    else if !m.bySet then m.at_ == page && m.at_ < m.base + m.count
    else match c.line m.at_ m.way with
      | some l => m.at_ < 1024 && l.page == page && c.lineBusy l && (m.all || (m.base ≤ page && page < m.base + m.count))
      | none => false

/-- One piece of a request, of one line (R293 to R298). DEDUCED (log 62). -/
def State.cachePiece (s : State) (h : Half) (r : CReq) : State :=
  let c := s.cache h
  let page := r.ha / 4096
  let subs := subsOf (r.ha % 4096) r.len
  let cause := s.bufRefuse h r.cls r.ha
  if cause != .ok then s.answerUe h r (List.replicate r.len 0xFF) cause
  else if c.waiting.any fun x => x.ha / 4096 == page && subs.any ((subsOf (x.ha % 4096) x.len).contains ·) then
    s.cacheWait h r none
  else if c.held page then s.cacheWait h r none
  else
    match c.wayOf page with
    | some way =>
      match c.line page way with
      | none => s
      | some l =>
        if l.evict then s.cacheWait h r none
        else if l.serves r then (s.serve h r way).bcaCount h 0 1
        else match c.missOf page with
          | some (k, m) =>
            if m.reqs.length + (if m.lock then 1 else 0) ≥ 17 then s.cacheWait h r none
            else
              let lo := min m.first (r.ha % 4096 / 64)
              let hi := max (m.first + m.count - 1) ((r.ha % 4096 + r.len - 1) / 64)
              let m := { m with first := lo, count := hi - lo + 1, reqs := m.reqs ++ [r] }
              let add := l.fillIn lo (hi - lo + 1)
              let c := c.putLine way add
              (s.setCache h { c with miss := smInsert c.miss k m }).bcaCount h 2 1
          | none =>
            if !s.allocates h r then s.direct h r (some (way, l))
            else if c.miss.length ≥ s.missLimit h then
              s.cacheWait h r (some (if s.missLimit h == 1 then 6 else 3))
            else s.primary h r way l
    | none =>
      if !s.allocates h r then s.direct h r none
      else if c.miss.length ≥ s.missLimit h then s.cacheWait h r (some (if s.missLimit h == 1 then 6 else 3))
      else match s.chooseWay h page with
        | none => s.cacheWait h r (some 3)
        | some way =>
          match c.line page way with
          | none => s.primary h r way ⟨page, 0, 0, 0, false, false⟩
          | some old =>
            if old.dirty == 0 then (s.dropLine h page way).primary h r way ⟨page, 0, 0, 0, false, false⟩
            else (s.setCache h (c.putLine way { old with evict := true })).cacheWait h r none

/-- The waiting requests, handled again in their order. -/
def State.cacheRerun (s : State) (h : Half) : State :=
  let c := s.cache h
  (c.waiting.foldl (fun s r => s.cachePiece h r) (s.setCache h { c with waiting := [] })).bcaShow h

/-! ### Maintenance walks (R303 to R307) -/

/-- A LOCK applied to a page whose line is not being filled or evicted (R303): none where it must wait for a line or a
miss register. DEDUCED (log 64). -/
def State.lockPage (s : State) (h : Half) (page : Nat) : Option State :=
  let b := B.bca h
  let c := s.cache h
  let lockedHere := match c.wayOf page with
    | some w => (match c.line page w with | some l => l.locked | none => false)
    | none => false
  if lockedHere then some (s.satAdd b F.BCA_MDONE_LINES 1)
  else
    let canHold := fun w => !smGet false c.disabled (lineKey page w) &&
      (match c.line page w with | some l => !l.locked | none => true)
    match [0, 1].find? canHold with
    | none => some ((s.satAdd b F.BCA_MSKIP_FAILED 1).flag b F.BCA_EVENTS_LOCK_FAIL)
    | some way =>
      let busy := match c.line page way with
        | some l => l.evict || (c.missOf l.page).isSome
        | none => false
      if busy || c.miss.length ≥ s.missLimit h then none
      else
        let s := match c.wayOf page with | some w => s.cleanDrop h page w | none => s
        let s := s.cleanDrop h page way
        let c := s.cache h
        let c := c.putLine way ⟨page, 0, 0, 2 ^ 64 - 1, false, false⟩
        let c := { c with miss := smInsert c.miss c.freeMiss ⟨page, way, 0, 64, [], true⟩ }
        some (s.setCache h (c.use page way))

/-- Whether a maintenance step on a line has to wait for the one miss register of a restricted mode, which it takes line
by line (R301). DESIGN CHOICE (log 63). -/
def State.missTaken (s : State) (h : Half) : Bool :=
  s.missLimit h == 1 && !(s.cache h).miss.isEmpty

/-- An operation applied to one line in a way (R304, R307). -/
def State.maintLine (s : State) (h : Half) (m : Maint) (page way : Nat) : State :=
  let b := B.bca h
  match (s.cache h).line page way with
  | none => s
  | some l =>
    let done := fun (s : State) => s.satAdd b F.BCA_MDONE_LINES 1
    if m.op == 1 then done (s.writeBack h page way)
    else if m.op == 2 || m.op == 3 then
      if l.locked && !m.incl then s.satAdd b F.BCA_MSKIP_SKIPPED 1
      else if m.op == 2 then done (s.dropLine h page way)
      else done (s.cleanDrop h page way)
    else if l.locked then done (s.setCache h ((s.cache h).putLine way { l with locked := false }))
    else s

/-- One move of a maintenance walk: the next state, or none where it has to wait. -/
def State.maintMove (s : State) (h : Half) (m : Maint) : Option State :=
  let b := B.bca h
  let c := s.cache h
  let at_ := fun (s : State) (m : Maint) => (s.setCache h { s.cache h with maint := some m }).put b F.BCA_MPROG_AT m.at_
  if m.walked then none
  else if !m.bySet then
    if m.at_ ≥ m.base + m.count then some (s.setCache h { c with maint := some { m with walked := true } })
    else
      let next := { m with at_ := m.at_ + 1 }
      let busy := match c.wayOf m.at_ with
        | some w => (match c.line m.at_ w with | some l => c.lineBusy l | none => false)
        | none => false
      if busy then none
      else if m.op == 4 then (s.lockPage h m.at_).map fun t => at_ t next
      else match c.wayOf m.at_ with
        | some w => if s.missTaken h then none else some (at_ (s.maintLine h m m.at_ w) next)
        | none => some (at_ s next)
  else if m.at_ ≥ 1024 then some (s.setCache h { c with maint := some { m with walked := true } })
  else if m.way ≥ 16 then some (at_ s { m with at_ := m.at_ + 1, way := 0 })
  else
    let next := { m with way := m.way + 1 }
    match c.line m.at_ m.way with
    | none => some (at_ s next)
    | some l =>
      let inRange := m.all || (m.base ≤ l.page && l.page < m.base + m.count)
      if !inRange then some (at_ s next)
      else if c.lineBusy l then none
      else if m.op == 4 then (s.lockPage h l.page).map fun t => at_ t next
      else if s.missTaken h then none
      else some (at_ (s.maintLine h m m.at_ m.way) next)

/-- A maintenance walk as far as it goes without waiting. A page that LOCK is filling is found in FILLING, so the walk
goes line by line. DESIGN CHOICE (log 63). -/
def State.maintRun (s : State) (h : Half) : Nat → State
  | 0 => s
  | n + 1 =>
    match (s.cache h).maint with
    | none => s
    | some m =>
      match s.maintMove h m with
      | none => s
      | some t => t.maintRun h n

/-- Moves that a walk can make at most: 16,384 pages, or 1,024 sets of 16 ways and their ends. -/
def maintFuel : Nat := 17500

/-! ### Way walks (R308) -/

/-- The walk of a way as far as it goes without waiting: each line cleaned and dropped. -/
def State.wayRun (s : State) (h : Half) (way : Nat) : Nat → State
  | 0 => s
  | n + 1 =>
    let c := s.cache h
    match smFind c.walks way with
    | none => s
    | some set =>
      if set ≥ 1024 then s
      else
        let step := fun (s : State) => (s.setCache h { s.cache h with walks := smInsert (s.cache h).walks way (set + 1) })
        match c.line set way with
        | none => (step s).wayRun h way n
        | some l => if c.lineBusy l then s else (step (s.cleanDrop h set way)).wayRun h way n

/-- Everything that may go on after a fill, a write-back or a change of mode: the maintenance walk, the way walks, and the
waiting requests. -/
def State.cacheGo (s : State) (h : Half) : State :=
  let s := s.maintRun h maintFuel
  let s := ((s.cache h).walks.map (·.1)).foldl (fun s w => s.wayRun h w 1025) s
  s.cacheRerun h

/-! ### Commands -/

/-- CACHE_REQUEST (R290, R291, R310): a request, the errors that the lookup of its lines meets, and those its DRAM reads
meet. A dirty sub-block lost gives the request a UE with cause POISON. -/
def cacheRequest (h : Half) (cls : BufCls) (write : Bool) (ha len : Nat) (bytes : List Byte) (sram : List SramErr)
    (errs : List WordErr) (s : State) : State :=
  if !s.coreUp h || cls == .scrub || cls == .copy || cls == .merge then s
  else
    let s := { ((s.demand h 4).demand h 13) with answers := [] }
    let len := if write then bytes.length else len
    let s := (bufPieces false ha len).foldl (fun s (a, n) =>
      let (s, lost) := sram.foldl (fun (acc : State × List Nat) e =>
        let (s, x) := acc.1.sramErr h (a / 4096) e
        (s, acc.2 ++ x.toList)) (s, [])
      let r : CReq := ⟨cls, write, a, n, (bytes.drop (a - ha)).take n, errs, false⟩
      if lost.any ((subsOf (a % 4096) n).contains ·) then s.answerUe h r (List.replicate n 0xFF) .poison
      else s.cachePiece h r) s
    s.cacheGo h

def execCacheRequest (h : Half) (cls : BufCls) (write : Bool) (ha len : Nat) (bytes : List Byte) (sram : List SramErr)
    (errs : List WordErr) (s : State) : Host.Outcome State Fault Refusal :=
  .next (cacheRequest h cls write ha len bytes sram errs s)

/-- The fill of a miss register completes (R298, R299): its pending sub-blocks are read; one that meets a UE returns to
INVALID, and the requests that wait on it receive the UE. The requests are served in order and the register is freed.
A region that is FILLING or a page being copied holds the fill. -/
def State.fillDone (s : State) (h : Half) (k : Nat) (errs : List WordErr) : State :=
  let c := s.cache h
  match smFind c.miss k with
  | none => s
  | some m =>
    let cls := match m.reqs with | r :: _ => r.cls | [] => .table
    let probe : CReq := ⟨cls, false, 4096 * m.page, 4096, [], [], false⟩
    if s.bufBlocked h probe then s
    else
      match c.line m.page m.way with
      | none => s.setCache h { c with miss := smErase c.miss k }
      | some l =>
        let (s, bad) := ((List.range 64).filter l.pend.testBit).foldl
          (fun (acc : State × List (Nat × BufCause)) w =>
            let ha := 4096 * m.page + 64 * w
            let (s, bs, cause) := acc.1.bufReadPage h cls ha 64 errs
            if cause != .ok then (s, acc.2 ++ [(w, cause)])
            else
              -- bytes that differ from what the Reservoir stores are kept by the cache
              let cells := bs.zipIdx.filter fun (b, i) => s.bufByte (bufBa h (ha + i)) != b
              let s := { s with cacheBytes := cells.foldl (fun (t : List Host.Cell) (b, i) =>
                smInsert t (bufBa h (ha + i)) b) s.cacheBytes }
              (s, acc.2)) (s, [])
        let badMask := maskOf (bad.map (·.1))
        let l := { l with valid := l.valid ||| maskDiff l.pend badMask, pend := 0, locked := l.locked || m.lock }
        let s := if bad.isEmpty then s else s.flag (B.bca h) F.BCA_EVENTS_FILL_UE
        let c := { ((s.cache h).putLine m.way l) with miss := smErase (s.cache h).miss k }
        let s := s.setCache h c
        let s := if m.lock then s.satAdd (B.bca h) F.BCA_MDONE_LINES 1 else s
        let s := m.reqs.foldl (fun s r =>
          let hit := bad.find? fun e => (subsOf (r.ha % 4096) r.len).contains e.1 &&
            !(r.write && wholeSub (r.ha % 4096) r.len e.1)
          match hit with
          | some (_, cause) =>
            let bs := (List.range r.len).map fun i =>
              if bad.any (·.1 == (r.ha % 4096 + i) / 64) then 0xFF#8 else s.bufByte (bufBa h (r.ha + i))
            s.answerUe h r bs cause
          | none => s.serve h r m.way) s
        s.cacheGo h

def execCacheFillDone (h : Half) (reg : Nat) (errs : List WordErr) (s : State) : Host.Outcome State Fault Refusal :=
  .next ({ s with answers := [] }.fillDone h reg errs)

/-- WRITEBACK_ACCEPTED (R293): the write-back of a page's line in EVICTING is accepted; the way becomes FREE, and the
requests that wait are handled again. -/
def writebackAccepted (h : Half) (page : Nat) (s : State) : State :=
  let c := s.cache h
  match c.wayOf page with
  | none => s
  | some way =>
    match c.line page way with
    | none => s
    | some l => if l.evict then ({ s with answers := [] }.cleanDrop h page way).cacheGo h else s

def execWritebackAccepted (h : Half) (page : Nat) (s : State) : Host.Outcome State Fault Refusal :=
  .next (writebackAccepted h page s)

/-- CACHE_MODE_WRITE (R301, R313): MODE takes effect at once; no outstanding miss is abandoned. -/
def State.cacheMode (s : State) (h : Half) (mode : Nat) : State :=
  if !s.coreUp h then s
  else
    let s := { s with answers := [] }
    ((s.put (B.bca h) F.BCA_CTL_MODE mode).put (B.bca h) F.BCA_STAT_MODE_NOW mode).cacheGo h

def execCacheModeWrite (h : Half) (mode : Nat) (s : State) : Host.Outcome State Fault Refusal :=
  .next (s.cacheMode h mode)

/-- A maintenance operation started by BCA_MCMD (R304, R314). -/
def State.maintStart (s : State) (h : Half) (op : Nat) (range all incl : Bool) : State :=
  let b := B.bca h
  if !s.coreUp h || op == 0 || op ≥ 6 then s
  else if s.get b F.BCA_MSTAT_STATE == 1 then s.put b F.BCA_MSTAT_REASON 1
  else
    let s := { s with answers := [] }
    let base := s.get b F.BCA_MBASE_PAGE
    let count := if range then max 1 (s.get b F.BCA_MCOUNT_COUNT) else 1
    let s := ((s.put b F.BCA_MSKIP_SKIPPED 0).put b F.BCA_MSKIP_FAILED 0).put b F.BCA_MDONE_LINES 0
    let s := (s.put b F.BCA_MPROG_AT 0).put b F.BCA_MSTAT_OP op
    let bad := (all && 4 ≤ op) || (!all && base + count > s.get (B.buf h 0) F.BUF_DATATOP_TOP * 16384)
    if bad then (s.put b F.BCA_MSTAT_STATE 3).put b F.BCA_MSTAT_REASON 2
    else
      let s := (s.put b F.BCA_MSTAT_STATE 1).put b F.BCA_MSTAT_REASON 0
      let bySet := all || count > 16384
      let m : Maint := ⟨op, bySet, all, incl, base, count, if bySet then 0 else base, 0, false⟩
      (s.setCache h { s.cache h with maint := some m }).cacheGo h

/-- CLEAN (R304, R307): RANGE, ALL and INCL_LOCKED of BCA_MCMD. -/
def execClean (h : Half) (range all incl : Bool) (s : State) : Host.Outcome State Fault Refusal :=
  .next (s.maintStart h 1 range all incl)
/-- INV (R304, R307). -/
def execInv (h : Half) (range all incl : Bool) (s : State) : Host.Outcome State Fault Refusal :=
  .next (s.maintStart h 2 range all incl)
/-- CLEAN_INV (R304, R307). -/
def execCleanInv (h : Half) (range all incl : Bool) (s : State) : Host.Outcome State Fault Refusal :=
  .next (s.maintStart h 3 range all incl)
/-- LOCK (R303, R304). -/
def execLock (h : Half) (range all incl : Bool) (s : State) : Host.Outcome State Fault Refusal :=
  .next (s.maintStart h 4 range all incl)
/-- UNLOCK (R303, R304). -/
def execUnlock (h : Half) (range all incl : Bool) (s : State) : Host.Outcome State Fault Refusal :=
  .next (s.maintStart h 5 range all incl)

/-- MAINTENANCE_DONE (R304, R314): the walk has ended and the last of its fills is done. -/
def maintenanceDone (h : Half) (s : State) : State :=
  let c := s.cache h
  match c.maint with
  | some m =>
    if m.walked && !(c.miss.any (·.2.lock)) then
      ((s.setCache h { c with maint := none }).put (B.bca h) F.BCA_MSTAT_STATE 2).bcaShow h
    else s
  | none => s

def execMaintenanceDone (h : Half) (s : State) : Host.Outcome State Fault Refusal := .next (maintenanceDone h s)

/-- WAY_POWER_DOWN (R308): bit k of OFF_REQ is set; way 8 + k takes nothing new and its lines are walked. -/
def State.wayPowerDown (s : State) (h : Half) (k : Nat) : State :=
  let b := B.bca h
  if !s.coreUp h || 8 ≤ k || s.maskBit b F.BCA_WAYPWR_OFF_REQ k then s
  else
    let s := ({ s with answers := [] }.putMaskBit b F.BCA_WAYPWR_OFF_REQ k true).putMaskBit b F.BCA_WAYSTAT_WALKING k true
    let s := s.putMaskBit b F.BCA_WAYSTAT_WAKING k false
    (s.setCache h { s.cache h with walks := smInsert (s.cache h).walks (8 + k) 0 }).cacheGo h

def execWayPowerDown (h : Half) (k : Nat) (s : State) : Host.Outcome State Fault Refusal := .next (s.wayPowerDown h k)

/-- WAY_WALK_END (R308): the walk of way 8 + k has ended; power is removed. -/
def wayWalkEnd (h : Half) (k : Nat) (s : State) : State :=
  let b := B.bca h
  let c := s.cache h
  match smFind c.walks (8 + k) with
  | none => s
  | some set =>
    if set < 1024 || 8 ≤ k then s
    else
      let s := s.setCache h { c with walks := smErase c.walks (8 + k) }
      let s := (s.putMaskBit b F.BCA_WAYSTAT_WALKING k false).putMaskBit b F.BCA_WAYSTAT_OFF k true
      ((s.flag b F.BCA_EVENTS_WAY_OFF_DONE).put (B.pwr h) (domFld (5 + k)) 0).bcaShow h

def execWayWalkEnd (h : Half) (k : Nat) (s : State) : Host.Outcome State Fault Refusal := .next (wayWalkEnd h k s)

/-- WAY_POWER_UP (R309): bit k of OFF_REQ is cleared: a walk stops, or power is restored with every line FREE. -/
def State.wayPowerUp (s : State) (h : Half) (k : Nat) : State :=
  let b := B.bca h
  if !s.coreUp h || 8 ≤ k || !s.maskBit b F.BCA_WAYPWR_OFF_REQ k then s
  else
    let s := { s with answers := [] }.putMaskBit b F.BCA_WAYPWR_OFF_REQ k false
    let s := if s.maskBit b F.BCA_WAYSTAT_OFF k then
        ((s.putMaskBit b F.BCA_WAYSTAT_OFF k false).putMaskBit b F.BCA_WAYSTAT_WAKING k true).count (B.pwr h)
          F.PWR_CNT_WAKE_COUNT h 584 1
      else
        let c := s.cache h
        (s.setCache h { c with walks := smErase c.walks (8 + k) }).putMaskBit b F.BCA_WAYSTAT_WALKING k false
    s.cacheGo h

def execWayPowerUp (h : Half) (k : Nat) (s : State) : Host.Outcome State Fault Refusal := .next (s.wayPowerUp h k)

/-- WAY_ON_DONE (R309): the wake latency of way 8 + k has passed, and it is eligible. -/
def wayOnDone (h : Half) (k : Nat) (s : State) : State :=
  let b := B.bca h
  if 8 ≤ k || !s.maskBit b F.BCA_WAYSTAT_WAKING k then s
  else
    let s := { s with answers := [] }.putMaskBit b F.BCA_WAYSTAT_WAKING k false
    ((s.flag b F.BCA_EVENTS_WAY_ON_DONE).put (B.pwr h) (domFld (5 + k)) 3).cacheGo h

def execWayOnDone (h : Half) (k : Nat) (s : State) : Host.Outcome State Fault Refusal := .next (wayOnDone h k s)

/-! ### Region release (R274, R307) -/

/-- Regions [r, r + n) released: what reached the buffer before is completed; their lines are dropped with what is dirty,
their merge entries discarded; they are untouched and read zeros. DEDUCED (log 66). -/
def State.release (s : State) (h : Half) (r n : Nat) : State :=
  let inR := fun (region : Nat) => r ≤ region && region < r + n
  let s := ((s.resv h).fills.filter inR).foldl (fun s x =>
    let v := s.resv h
    (s.setResv h { v with fills := x :: v.fills.filter (· != x) }).zeroFillDone h x) s
  let s := ((s.cache h).miss.filter fun m => inR (m.2.page / 16)).foldl (fun s m => s.fillDone h m.1 []) s
  let s := ((s.cache h).lines.filter fun e => inR (e.2.page / 16)).foldl (fun s e =>
    s.dropLine h e.2.page (e.1 % 16)) s
  let s := ((s.resv h).merge.filter fun p => inR (p / 16)).foldl (fun s p => s.mergeDrop h p) s
  let v := s.resv h
  let gone := v.touched.filter fun e => inR e.1
  let s := gone.foldl (fun s e => s.regionZero h e.1) s
  ((s.setResv h { v with touched := smClear v.touched r (r + n) }).bufShow h).cacheGo h

/-- REGION_RELEASE (R274, R285): COUNT regions from BUF_RELBASE. -/
def State.regionRelease (s : State) (h : Half) (count : Nat) : State :=
  if !s.coreUp h then s
  else
    let s := { (s.demand h 13) with answers := [] }
    (s.release h (s.get (B.buf h 0) F.BUF_RELBASE_REGION) count).put (B.buf h 0) F.BUF_RELCNT_COUNT 0

def execRegionRelease (h : Half) (count : Nat) (s : State) : Host.Outcome State Fault Refusal :=
  .next (s.regionRelease h count)

end Sys2Proof.Machine
end

