-- ==== Sys2Proof/Machine/Adapt.lean ====
section
/-! DEFINITION. Signal state of a stream channel: adaptation (R92, R94, R95, R125), timing recovery (R99, R100, R102, R115) and
sample memory (R104, R127). What the read signal decides, the model takes as an operand or as a free value. -/

namespace Sys2Proof.Machine

/-! ### Adaptation (R94, R95) -/

/-- A coefficient kept in ten bits, signed (R92). -/
def coef10 (n : Int) : Int := max (-512) (min 511 n)

/-- Coefficients i, i + 1, ... of an LMS update with step size 2^-mu (R94), from the free sums of one number of the run; those
that `on` leaves out hold. -/
def lmsFrom (seed mu i : Nat) (on : Nat → Bool) (cs : List Int) : List Int :=
  (cs.zipIdx).map fun (c, k) => if on k then coef10 (c + Config.gradient seed (i + k) / 2 ^ mu) else c

/-- A list of n coefficients, 0 where none is listed. -/
def coefs (n : Nat) (cs : List Int) : List Int := (List.range n).map fun k => cs.getD k 0

/-- The LMS update of the data path (R94): FIR taps of the readers in use, g1 and g2, noise predictors. g0 is fixed. -/
def Adapted.lms (a : Adapted) (seed muFir muTgt muNp : Nat) (r0 r1 : Bool) : Adapted :=
  { a with
    fir := lmsFrom seed muFir 0 (fun k => if k < 16 then r0 else r1) (coefs 32 a.fir)
    g1 := coef10 (a.g1 + Config.gradient seed 32 / 2 ^ muTgt)
    g2 := coef10 (a.g2 + Config.gradient seed 33 / 2 ^ muTgt)
    np := lmsFrom seed muNp 34 (fun _ => true) (coefs 64 a.np) }

/-- CTLE (0 dB to 12 dB in steps of 0.5 dB) and AGC as a preamble leaves them (R92, R94): free values. -/
def Adapted.preamble (a : Adapted) (seed : Nat) : Adapted :=
  { a with ctle := (Config.freeAt seed 0 % 25, Config.freeAt seed 1 % 25)
           agc := (Config.freeAt seed 2 % 65536, Config.freeAt seed 3 % 65536) }

def Rch.set (c : Rch) (k : Nat) : Adapted := smGet default c.sets k
def Rch.putSet (c : Rch) (k : Nat) (a : Adapted) : Rch := { c with sets := smPut default c.sets k a }

/-- The readers that READERS selects (R121): 0 and 3 joint, 1 reader 0, 2 reader 1; a reader dropped is out (R95). In VERIFY the
reader-1 pair alone is read (R111). -/
def State.readersIn (s : State) (ci : Nat) : Bool × Bool :=
  let b := chB ci
  let r := s.get b F.RCH_CTL_READERS
  if (s.rch ci).inUse == 2 then (false, true)
  else (r != 2 && !s.bit b F.RCH_STAT_R0_DROPPED, r != 1 && !s.bit b F.RCH_STAT_R1_DROPPED)

/-- Adaptation over some symbols of a frame while ADAPT is 1 (R94): of a preamble, and of the data path. -/
def State.chAdapt (s : State) (ci : Nat) (preamble : Bool) : State :=
  let b := chB ci
  if !s.bit b F.RCH_CTL_ADAPT then s
  else
    let (n, s) := s.takeFree
    let c := s.rch ci
    let (r0, r1) := s.readersIn ci
    let a := c.set c.inUse
    let a := if preamble then a.preamble n else a
    let a := a.lms n (s.get b F.RCH_ADAPT_MU_FIR) (s.get b F.RCH_ADAPT_MU_TGT) (s.get b F.RCH_ADAPT_MU_NP) r0 r1
    s.setRch ci (c.putSet c.inUse a)

/-- Word o of page 2 (R125): the adapted state in use or last in use. The taps of a dropped reader are zero (R95), and g0 is 1.0. -/
def State.adaptWord (s : State) (ci o : Nat) : Word :=
  let b := chB ci
  let c := s.rch ci
  let a := c.set c.inUse
  let coef := fun (n : Int) => (BitVec.ofInt 10 n).signExtend 32
  if o < 0x40 then (if s.bit b F.RCH_STAT_R0_DROPPED then 0 else coef (a.fir.getD (o / 4) 0))
  else if o < 0x80 then (if s.bit b F.RCH_STAT_R1_DROPPED then 0 else coef (a.fir.getD (o / 4) 0))
  else if o == 0x80 then 256
  else if o == 0x84 then coef a.g1
  else if o == 0x88 then coef a.g2
  else if o == 0x90 then BitVec.ofNat 32 (a.ctle.1 % 256 + 256 * (a.ctle.2 % 256))
  else if o == 0x94 then BitVec.ofNat 32 (a.agc.1 % 65536 + 65536 * (a.agc.2 % 65536))
  else if o == 0xA0 then BitVec.ofNat 32 (c.snr.1 % 65536 + 65536 * (c.snr.2 % 65536))
  else if 0x100 ≤ o ∧ o < 0x200 then coef (a.np.getD ((o - 0x100) / 4) 0)
  else 0

/-- The signal-to-noise estimates over the sector just read (R125): free values. -/
def State.chSnr (s : State) (ci : Nat) : State :=
  let (n, s) := s.takeFree
  s.setRch ci { s.rch ci with snr := (Config.freeAt n 0 % 65536, Config.freeAt n 1 % 65536) }

/-- A head is selected for a channel's slot (R92, R94): its set comes into use, and CTLE starts from HARNESS_LOSS + 3.0 dB. -/
def State.chSelect (s : State) (ci group : Nat) : State :=
  let loss := s.get (grzB (ci / 8)) F.GRZ_WDCFG_HARNESS_LOSS + 6
  let c := s.rch ci
  s.setRch ci ({ c with inUse := group }.putSet group { c.set group with ctle := (loss, loss) })

/-! ### Timing recovery (R99, R100) -/

/-- The clamp of the frequency integrator. -/
def clampInteg (fnom x : Rat) : Rat :=
  let lim := fnom * (5 / 1000 : Rat)
  if x > lim then lim else if x < -lim then -lim else x

/-- One symbol of the loop (R100): the phase error in 1/256 UI, with the gains 2^-kp and 2^-ki. -/
def Rch.loopStep (kp ki : Nat) (c : Rch) (err : Int) : Rch :=
  let e : Rat := err / 256
  let integ := clampInteg c.fnom (c.integ + e / 2 ^ ki)
  { c with integ := integ, phase := c.phase + c.fnom + integ + e / 2 ^ kp }

/-- LOCK (R99, R100): the last check passed, and the integrator is not at a limit. -/
def Rch.lockShown (c : Rch) : Bool :=
  c.locked && decide (c.integ < c.fnom * (5 / 1000 : Rat)) && decide (-(c.fnom * (5 / 1000 : Rat)) < c.integ)

/-- LOCK follows the loop. -/
def State.showLock (s : State) (ci : Nat) : State := s.putB (chB ci) F.RCH_STAT_LOCK (s.rch ci).lockShown

/-- The loop over the phase errors of some symbols, at acquisition or tracking gains. -/
def State.chLoop (s : State) (ci : Nat) (acq : Bool) (errs : List Int) : State :=
  let b := chB ci
  let kp := s.get b (if acq then F.RCH_TLOOP_KP_ACQ else F.RCH_TLOOP_KP_TRK)
  let ki := s.get b (if acq then F.RCH_TLOOP_KI_ACQ else F.RCH_TLOOP_KI_TRK)
  (s.setRch ci (errs.foldl (Rch.loopStep kp ki) (s.rch ci))).showLock ci

/-- Zero-phase start (R99, R102): the phase measured over symbols 32 to 63, in 1/256 UI, is loaded in one step. -/
def State.chPhase (s : State) (ci : Nat) (phase : Int) : State :=
  s.setRch ci { s.rch ci with phase := (phase : Rat) / 256 }

/-- f_nom of a zone from a mean wedge period, as the sum of n intervals in ns (R113); 0 before the first interval. -/
def fnomOf (zone n sum : Nat) : Rat := if sum = 0 then 0 else (zNw zone * n : Nat) / (sum : Nat)

/-! ### Sample memory (R104, R127) -/

/-- Entries of a slot (R104). -/
abbrev slotLen : Nat := 40768

/-- A frame begins to be stored: it takes the next slot, whose former frame stands until overwritten. -/
def Rch.slotBegin (c : Rch) (seed : Nat) : Rch :=
  let k := c.nextSlot % 4
  let old := smGet default c.slots k
  { c with slots := smPut default c.slots k { seed := some seed, have_ := 64, prev := old.seed }, nextSlot := (k + 1) % 4 }

/-- Storing has come to an entry of the slot of the frame in progress. -/
def Rch.slotUpTo (c : Rch) (x : ChSector) (n : Nat) : Rch :=
  if !x.inMem then c
  else
    let v := smGet default c.slots x.slot
    { c with slots := smPut default c.slots x.slot { v with have_ := max v.have_ (min n slotLen) } }

/-- The twelve-bit entry of a slot at a position: both readers' samples of one symbol. -/
def SampleSlot.entry (v : SampleSlot) (pos : Nat) : Nat :=
  match (if pos < v.have_ then v.seed else v.prev) with
  | some n => if pos < slotLen then Config.freeAt n pos % 4096 else 0
  | none => 0

/-- The word of pages 8 to 15 at an offset from page 8 (R127): two entries of the segment of the slot that RCH_SMCTL selects. A
segment has 16,384 entries (R104). -/
def State.sampleWord (s : State) (ci o : Nat) : Word :=
  let b := chB ci
  let v := smGet default (s.rch ci).slots (s.get b F.RCH_SMCTL_VIEW_SLOT)
  let pos := 16384 * s.get b F.RCH_SMCTL_VIEW_SEG + o / 4 * 2
  if pos < slotLen then BitVec.ofNat 32 (v.entry pos + 65536 * v.entry (pos + 1)) else 0

end Sys2Proof.Machine
end

