-- ==== Sys2Proof/Machine/Servo.lean ====
section
/-! DEFINITION. The servo engines (R183 to R215): demodulation and plausibility, the control computation and its outputs,
seeks, loading, parking and retracting, and band alignment calibration. -/

namespace Sys2Proof.Machine

/-! ### The wedge (R184 to R187) -/

/-- A track number from its Gray code (R184). -/
def grayDecode (g : BitVec 24) : Nat :=
  (List.range 24).foldl (fun acc i =>
    let bit := (acc % 2 == 1) != g.getLsbD (23 - i)
    2 * acc + (if bit then 1 else 0)) 0

/-- Whether a wedge index field passes its parity and complement checks (R184). -/
def indexOk (w : BitVec 16) : Bool :=
  let ones := ((List.range 9).filter w.getLsbD).length
  (w.getLsbD 9 == (ones % 2 == 1)) && (w.extractLsb' 10 6 == ~~~(w.extractLsb' 0 6))

/-- The first n binary digits of the angle of (x, y) as a fraction of a turn, below those of `acc`: squaring x + iy doubles the
angle. -/
def turnBits : Nat → Int → Int → Nat → Nat
  | 0, _, _, acc => acc
  | n + 1, x, y, acc =>
    turnBits n (x * x - y * y) (2 * x * y) (2 * acc + if decide (y < 0) || (y == 0 && decide (x < 0)) then 1 else 0)

/-- phi = atan2(n2, n1) / pi of R187 in 1/256 track, cut downwards to the step (log 18); bursts that are both 0 have a free
phase (log 12). -/
def burstPhase (n1 n2 : Int) (tid : Nat) : Int :=
  let t := if n1 == 0 && n2 == 0 then Config.noPhase tid % 512 else turnBits 9 n1 n2 0
  if t < 256 then (t : Int) else (t : Int) - 512

/-- The value of 2k + phi nearest to a track ID, all in 1/256 track (R187); phi lies on its step, and can lie as near to two, where
N2 is 0 alone. -/
def nearestPhase (phi tid : Int) (onStep : Bool) : Int :=
  let r := (tid - phi) % 512
  let lo := tid - r
  if decide (256 < r) || (r == 256 && onStep && Config.phaseTie tid.toNat phi) then lo + 512 else lo

/-- Position of a head from one wedge, in 1/256 track (R187). -/
def samplePos (d : DemodSample) : Int :=
  let t := grayDecode d.tid
  nearestPhase (burstPhase d.n1 d.n2 t) (256 * (t : Int)) (d.n2 == 0) - d.rro

/-- A signed 16-bit field value, saturating (R214). DESIGN CHOICE (log 18). -/
def sat16 (v : Int) : Nat := unsigned 16 (max (-32768) (min 32767 v))

/-! ### Offsets and targets (R131, R189) -/

/-- The offset of a head at a band in tracks: linear between the centre bands of neighbouring segments, constant at the
first and the last. -/
def offsetAt (rd : Nat → Byte) (band head : Nat) : Rat :=
  let o := fun e : Nat => ((batOffset rd (256 * e) head : Int) : Rat) / 256
  let last := batEntries rd - 1
  if band < 128 then o 0
  else
    let e := (band - 128) / 256
    if e ≥ last then o last
    else o e + (o (e + 1) - o e) * (((band - 128) % 256 : Nat) : Rat) / 256

def ratMax (l : List Rat) : Rat := l.foldl max (l.headD 0)
def ratMin (l : List Rat) : Rat := l.foldl min (l.headD 0)
def ratMean (l : List Rat) : Rat := if l.isEmpty then 0 else l.foldl (· + ·) 0 / (l.length : Rat)
def ratClamp (x lo hi : Rat) : Rat := max lo (min hi x)
def ratAbs (x : Rat) : Rat := max x (-x)

def State.srvBand (s : State) (ai : Nat) : Nat := s.get (srvB ai) F.SRV_TARGET_BAND
def State.srvGroup (s : State) (ai : Nat) : Nat := s.get (srvB ai) F.SRV_STAT_GROUP
/-- The heads-in-group of the pass P. -/
def State.srvSlots (s : State) (ai : Nat) : List Nat := maskSlots (s.get (srvB ai) F.SRV_STAT_PASS_MASK)
def State.reachOf (s : State) (ai : Nat) : Rat := ((batReach (s.batRd ai) : Nat) : Rat) / 256

/-- Base of a head's record in page 3 (R214). -/
def headB (ai head : Nat) : Nat := srvB ai + 32 * head

/-- m of R189: the mean of the offsets of P, clamped so that every head of P stays within REACH. -/
def meanOffset (reach : Rat) (os : List Rat) : Rat := ratClamp (ratMean os) (ratMax os - reach) (ratMin os + reach)

/-- Comb position at which a pass of a band is followed, in tracks, by the entry of the band alignment table as it is now. -/
def State.combTarget (s : State) (ai band group mask : Nat) : Rat :=
  (band : Rat) + meanOffset (s.reachOf ai) ((maskSlots mask).map fun k => offsetAt (s.batRd ai) band (4 * group + k))

/-- The offset of a head-in-group of the pass P, from the entry the pass was planned from (R204). -/
def State.passOffset (s : State) (ai k : Nat) : Rat := smGet 0 (s.srv ai).passOff k

/-- Comb position at which P is followed. -/
def State.passTarget (s : State) (ai : Nat) : Rat :=
  (s.srvBand ai : Rat) + meanOffset (s.reachOf ai) ((s.srvSlots ai).map (s.passOffset ai))

/-- What cycle 0 of a computation reads (R188). -/
def State.latchPars (s : State) (ai : Nat) : State :=
  let word := fun o => s.word (srvB ai + o)
  s.setSrv ai { s.srv ai with pars := some ((List.range 8).map (fun i => word (0x1000 + 4 * i)) ++ [word 0]) }

/-- A field of page 1 or of SRV_CTL as the computation in progress has read it (R188, R212). -/
def State.par (s : State) (ai : Nat) (f : Fld) : Nat :=
  match (s.srv ai).pars with
  | none => s.get (srvB ai) f
  | some ws => fget (ws.getD (if f.off < 0x1000 then 8 else (f.off - 0x1000) / 4) 0) f

/-- w[k] of R189: SRV_WEIGHT bytes normalised over some heads, equal weights where all are 0. -/
def State.weight (s : State) (ai : Nat) (over_ : List Nat) (k : Nat) : Rat :=
  let w := fun j => (((s.par ai F.SRV_WEIGHT_W) / 256 ^ j % 256 : Nat) : Rat)
  let sum := (over_.map w).foldl (· + ·) 0
  if sum = 0 then 1 / (over_.length : Rat) else w k / sum

/-- The comb error of some heads without the target term: sum of w (pes + offset - d), in tracks (R189). -/
def State.combErr (s : State) (ai : Nat) (ks : List Nat) : Rat :=
  let v := s.srv ai
  (ks.map fun k =>
    s.weight ai ks k * (((smGet 0 v.pes k : Int) : Rat) / 256 + s.passOffset ai k
      - smGet 0 v.stroke (4 * s.srvGroup ai + k))).foldl (· + ·) 0

/-! ### Model (R193, R200) -/

/-- The wedge period at which coefficients are loaded, limited to the two design points (R200). -/
def coefLimit (t : Nat) : Nat := min 27902 (max 16276 t)

/-- The model's acceleration per ampere in tracks per wedge squared (R193), from KT in µN·m/A and the wedge period in
1 GHz cycles. -/
def accPerAmp (kt t : Nat) : Rat := ((kt * t * t * 45 : Nat) : Rat) / 684000000000000

def State.accOf (s : State) (ai : Nat) : Rat := accPerAmp (s.par ai F.SRV_PLANT_KT) (s.srv ai).coefPeriod

/-- Coefficient kp, kd or ki (0, 1, 2) at a wedge period: linear in the wedge rate between the sets of 35.84 kHz and 61.44 kHz, and
held beyond them (R200). -/
def servoCoefAt (i t : Nat) : Rat :=
  let x := if t = 0 then 0 else ratClamp ((1000000000 / (t : Rat) - 35840) / 25600) 0 1
  Config.servoCoef 0 i + (Config.servoCoef 1 i - Config.servoCoef 0 i) * x

/-- Correction of the model with the comb error of the heads that were not replaced (R193), and the comb position measured. With
every head replaced the position is the model's (R194). -/
def State.modelCorrect (s : State) (ai : Nat) (ks : List Nat) : State :=
  let v := s.srv ai
  if ks.isEmpty then s.setSrv ai { v with comb := v.pos }
  else
    let comb := s.combErr ai ks + (s.srvBand ai : Rat)
    let e := comb - v.pos
    s.setSrv ai { v with pos := v.pos + e / 2, vel := v.vel + e / 8, bias := v.bias + e * (156 / 10000), comb := comb }

/-- The model's PES of each head of the pass for the next wedge (R193). -/
def State.predict (s : State) (ai : Nat) : State :=
  let v := s.srv ai
  s.setSrv ai { v with pred := (s.srvSlots ai).foldl (fun m k =>
    smPut 0 m k (v.pos + smGet 0 v.stroke (4 * s.srvGroup ai + k) - s.passOffset ai k - (s.srvBand ai : Rat))) [] }

/-! ### Seeks (R195 to R198) -/

/-- A profile over a signed distance (R195), from the model's acceleration per ampere, bias and velocity: in the direction of the
target, n wedges at I_SEEK, a coast, and the deceleration at -I_SEEK that takes the speed nearest to zero. n is the longest that keeps
the speed at or below V_MAX and leaves a coast that is not negative. DEDUCED (log 173). -/
def buildProfile (a bias vel : Rat) (iSeek : Int) (vMax : Nat) (d : Rat) (correction : Bool) : Profile :=
  let sg : Rat := if d < 0 then -1 else 1
  let up := a * (iSeek : Rat) / 10000 + sg * bias
  let down := a * (iSeek : Rat) / 10000 - sg * bias
  let peak := fun n : Nat => sg * vel + up * (n : Rat)
  let dec := fun n : Nat => if down ≤ 0 then 0 else (peak n / down + 1 / 2).floor.toNat
  let coast := fun n : Nat => ratAbs d - (sg * vel * (n : Rat) + up * ((n * n : Nat) : Rat) / 2)
    - (peak n * (dec n : Rat) - down * ((dec n * dec n : Nat) : Rat) / 2)
  let ok := fun n : Nat => decide (peak n ≤ (vMax : Rat)) && decide (0 ≤ coast n)
  let n := if up ≤ 0 then 0 else (List.range 16).foldl (fun m i => if ok (m + 2 ^ (15 - i)) then m + 2 ^ (15 - i) else m) 0
  ⟨if d < 0 then -iSeek else iSeek, if a = 0 then 0 else -bias * 10000 / a, n,
    if peak n ≤ 0 then 0 else (coast n / peak n).floor.toNat, dec n, 0, correction⟩

/-- I_SEEK in 0.1 mA, at most I_MAX (R212); half of it while SEEK_LIMIT is asserted (R243). -/
def State.seekCurrent (s : State) (ai : Nat) : Int :=
  let iMax := min (s.get (srvB ai) F.SRV_IMAX_I_MAX) 0x7530
  let i := min (s.get (srvB ai) F.SRV_IMAX_I_SEEK) iMax
  (if s.mot.seekLimit then i / 2 else i : Nat)

def State.handover (s : State) (ai : Nat) : Rat := (min1 (s.get (srvB ai) F.SRV_SEEKCFG_HANDOVER) : Rat)

/-- The pass P of an engine is set: IN_PASS, the offsets in use, and the loops of heads that join start from 0
(R190, R214), and predictions against the new targets (R193); an alarm clears at the pass change (R192). -/
def State.setPass (s : State) (ai band group mask : Nat) : State :=
  let old := (s.srvSlots ai).map (4 * s.srvGroup ai + ·)
  let v := s.srv ai
  let same := group == s.srvGroup ai && mask == s.get (srvB ai) F.SRV_STAT_PASS_MASK && band == s.srvBand ai
  let news := (maskSlots mask).map (4 * group + ·)
  let v := { v with maInteg := v.maInteg.filter (fun e => old.contains e.1 && news.contains e.1),
                    outMa := v.outMa.filter (fun e => old.contains e.1 && news.contains e.1),
                    alarm := v.alarm && same, alarmHeld := v.alarmHeld && same,
                    passOff := (maskSlots mask).foldl (fun m k => smPut 0 m k (offsetAt (s.batRd ai) band (4 * group + k))) [] }
  let s := s.setSrv ai v
  let s := ((s.put (srvB ai) F.SRV_STAT_GROUP group).put (srvB ai) F.SRV_STAT_PASS_MASK mask).put (srvB ai)
    F.SRV_TARGET_BAND band
  (List.range 8).foldl (fun s h =>
    let s := s.putB (headB ai h) F.HEAD_IN_PASS (news.contains h)
    if news.contains h then
      s.put (headB ai h) F.HEAD_OFFSET (unsigned 16 (s.passOffset ai (h % 4) * 256).floor)
    else s.put (headB ai h) F.HEAD_REACH_RUN 0) (s.predict ai)

/-- The profile of the engine's model over a distance (R195). -/
def State.profileOver (s : State) (ai : Nat) (d : Rat) (correction : Bool) : Profile :=
  let v := s.srv ai
  buildProfile (s.accOf ai) v.bias v.vel (s.seekCurrent ai) (min1 (s.get (srvB ai) F.SRV_VMAX_V_MAX)) d correction

/-- A move of the comb from its measured position to a band and pass (R195): SETTLE with a moving reference, or SEEK with a profile.
In PARK the state stays PARK. -/
def State.srvMove (s : State) (ai band group mask : Nat) : State :=
  let d := s.combTarget ai band group mask - (s.srv ai).comb
  let s := s.setPass ai band group mask
  let v := { s.srv ai with settleRun := 0, seekRun := true, seekWedges := 0, handed := none }
  let park := s.srvState ai == svPark
  if ratAbs d ≤ s.handover ai then
    let s := s.setSrv ai { v with refOff := -d, profile := none }
    if park then s else s.setSrvState ai svSettle
  else
    let p := s.profileOver ai d false
    let s := s.setSrv ai { v with refOff := 0, profile := some p, maInteg := [] }
    let s := (List.range 8).foldl (fun s h => s.put (headB ai h) F.HEAD_REACH_RUN 0) s
    if park then s else s.setSrvState ai svSeek

/-- The seek of a park to band 0 (R206), with the pass as it is. -/
def State.parkMove (s : State) (ai : Nat) : State :=
  s.srvMove ai 0 (s.srvGroup ai) (s.get (srvB ai) F.SRV_STAT_PASS_MASK)

/-- CMD = PARK, or a park asked by Wick or by the spindle engine (R206, R209): the seek to band 0 begins; in PARK itself nothing
changes. -/
def State.servoParkCmd (s : State) (ai : Nat) : State :=
  let was := s.srvState ai
  let s := s.servoPark ai
  if was != svPark && s.srvState ai == svPark then s.parkMove ai else s

/-- A seek of KIND 0 or 1 (R198): what can be answered at once is. -/
def State.seekBand (s : State) (ai kind band : Nat) : State :=
  let st := s.srvState ai
  let b := srvB ai
  let target := if kind == 0 then band else s.srvBand ai
  let group := s.ackGroup ai
  let mask := s.ackMask ai
  if (st != svFollow && st != svSeek && st != svSettle) || target ≥ batBands (s.batRd ai) then s.seekAnswer ai true
  else if s.bit b F.SRV_STAT_ON_TRACK && target == s.srvBand ai && group == s.srvGroup ai &&
      mask == s.get b F.SRV_STAT_PASS_MASK then s.seekAnswer ai false
  else s.srvMove ai target group mask

/-- Wick's SEEK (R198): kind 0 to a band, 1 for the next pass of the band, 2 to park. One of KIND 0 or 1 waits for a reach alarm's
measurement, which it does not interrupt (R203). A park in OFF waits for PARKED. -/
def State.servoSeek (s : State) (ai kind band : Nat) : State :=
  let s := s.setSrv ai { s.srv ai with seek := some kind }
  if kind == 2 then
    if s.srvState ai == svParked then s.seekAnswer ai false else s.servoParkCmd ai
  else
    let s := s.count (srvB ai) F.SRV_CNT_SEEK_COUNT (actHalf ai) (384 + 8 * (ai % 8) + 3) 1
    if (s.srv ai).cal.any (·.why == 0) then s.setSrv ai { s.srv ai with seekLater := some (kind, band) }
    else s.seekBand ai kind band

/-! ### Calibration (R202, R203) -/

/-- The formatter holds no descriptor for the actuator (R203). -/
def State.servoIdle (s : State) (ai : Nat) : Bool := (s.wick ai).desc.isNone && (s.fmt ai).op.isNone

/-- The groups of a segment that a measurement may name (R142, R202): not one retired there, by mode 3 or by the defects of the centre
band. -/
def State.calGroups (s : State) (ai seg : Nat) : Nat :=
  let ok := fun g => !bandRetired (s.batRd ai) (s.defects ai) (256 * seg + 128) g
  (if ok 0 then 1 else 0) + (if ok 1 then 2 else 0)

/-- The segments that can be measured, in ascending order. -/
def State.calSegs (s : State) (ai : Nat) : List Nat :=
  (List.range (batEntries (s.batRd ai))).filter fun e => s.calGroups ai e != 0

/-- Step 1 of R202: the comb seeks the centre band with all four heads of a group, whose selection the preamplifier is sent. The alarm
of the pass that asks for the measurement stands. -/
def State.calMove (s : State) (ai seg g : Nat) : State :=
  let v := s.srv ai
  let s := s.srvMove ai (256 * seg + 128) g 0xF
  let s := s.setSrv ai { s.srv ai with alarm := v.alarm, alarmHeld := v.alarmHeld, outMa := [], maInteg := [] }
  if s.ackGroup ai == g && s.ackMask ai == 0xF then s
  else s.setPa ai { s.pa ai with queue := (s.pa ai).queue ++ [⟨.servo, writeFrame 2 (g + 16 * 0xF), false⟩] }

/-- A measurement begins (R202) with the first of its groups; CAL_REVS is taken here (R213). -/
def State.calStart (s : State) (ai seg groups why : Nat) : State :=
  let groups := groups &&& s.calGroups ai seg
  if groups == 0 then s
  else
    let g := if groups.testBit 0 then 0 else 1
    let s := s.setSrv ai { s.srv ai with
      cal := some ⟨seg, groups, why, g, min1 (s.get (srvB ai) F.SRV_CALCFG_CAL_REVS), 0, []⟩ }
    let s := (s.put (srvB ai) F.SRV_STAT_CAL_ACTIVE 1).put (srvB ai) F.SRV_STAT_BUSY 1
    s.calMove ai seg g

/-- A measurement ends, finished or not. -/
def State.calStop (s : State) (ai : Nat) : State :=
  let s := s.setSrv ai { s.srv ai with cal := none }
  let s := s.put (srvB ai) F.SRV_STAT_CAL_ACTIVE 0
  s.putB (srvB ai) F.SRV_STAT_BUSY (s.srvState ai != svOff && s.srvState ai != svParked)

/-- The wedges that a group is averaged over (R202). -/
def CalRun.span (r : CalRun) : Nat := 512 * r.revs

/-- Whether every group of a measurement has been averaged. -/
def CalRun.full (r : CalRun) : Bool := decide (r.wedges ≥ r.span) && !(r.group == 0 && r.groups.testBit 1)

/-- Step 4 of R202 at a wedge: pos - c of the four heads joins the sums, once the comb follows the centre band with the group
selected. -/
def State.calSample (s : State) (ai : Nat) (obs : List SlotObs) : State :=
  match (s.srv ai).cal with
  | none => s
  | some r =>
    if s.srvState ai != svFollow || s.ackGroup ai != r.group || s.ackMask ai != 0xF || r.wedges ≥ r.span then s
    else
      let sums := obs.foldl (fun m o => smPut 0 m (4 * r.group + o.k) (smGet 0 m (4 * r.group + o.k) + o.pes)) r.sums
      s.setSrv ai { s.srv ai with cal := some { r with wedges := r.wedges + 1, sums := sums } }

/-- A sweep that has no segment left (R203, R213). -/
def State.sweepDone (s : State) (ai : Nat) : State :=
  let b := srvB ai
  let s := s.setSrv ai { s.srv ai with sweepAt := none, fast := false, covLeft := 0 }
  let s := (s.put b F.SRV_CALSTAT_SWEEP 0).satAdd b F.SRV_CALSTAT_SWEEPS 1
  (s.flag b F.SRV_EVENTS_CAL_DONE).put b F.SRV_CALTEMP_CAL_TEMP_LAST (s.get b F.SRV_CALTEMP_TEMP_NOW)

/-- At an idle moment the first measurement that waits begins: ONE before a sweep, whose retired segments are passed by (R203). -/
def State.calNextStart (s : State) (ai : Nat) : State :=
  let v := s.srv ai
  if v.cal.isSome || !s.servoIdle ai || s.srvState ai != svFollow then s
  else match v.calOne with
    | some g => (s.setSrv ai { v with calOne := none }).calStart ai g 3 1
    | none => match v.sweepAt with
      | some g => match (s.calSegs ai).find? (fun e => decide (g ≤ e)) with
        | some e => s.calStart ai e 3 2
        | none => s.sweepDone ai
      | none => s

/-- What a wedge does to a measurement (R202, R203, R211): a descriptor ends it, unless a reach alarm asked for it, and so does CAL_EN
cleared for a background one, and the segment of ONE stays first in line; the second group follows the first. -/
def State.calCheck (s : State) (ai : Nat) : State :=
  match (s.srv ai).cal with
  | none => s.calNextStart ai
  | some r =>
    if r.why != 0 && !s.servoIdle ai then
      let s := s.calStop ai
      if r.why == 1 then s.setSrv ai { s.srv ai with calOne := some r.seg } else s
    else if r.why == 3 && !s.bit (srvB ai) F.SRV_CTL_CAL_EN then s.calStop ai
    else if decide (r.wedges ≥ r.span) && !r.full then
      (s.setSrv ai { s.srv ai with cal := some { r with group := 1, wedges := 0 } }).calMove ai r.seg 1
    else s

/-- The preamplifier temperature that a frame has read, and the trigger of R203. -/
def State.calTemp (s : State) (ai temp : Nat) : State :=
  let b := srvB ai
  let s := s.put b F.SRV_CALTEMP_TEMP_NOW temp
  let d := s.get b F.SRV_CALCFG_CAL_DTEMP
  let diff := (signed 8 (temp % 256) - signed 8 (s.get b F.SRV_CALTEMP_CAL_TEMP_LAST)).natAbs
  if d != 0 && diff ≥ d && !(s.srv ai).fast then
    s.setSrv ai { s.srv ai with fast := true, covLeft := (s.calSegs ai).length }
  else s

/-- The BAT entry of a segment after a measurement (R202): offsets, modes under R132 of the groups measured, and the time. A group not
measured keeps its mode. -/
def calEntry (rd : Nat → Byte) (seg time groups : Nat) (new : Nat → Option Int) : List Byte :=
  let off := fun h => (new h).getD (batOffset rd (256 * seg) h)
  let mode := fun g => if groups.testBit g then modeOf (batReach rd) ((List.range 4).map fun k => off (4 * g + k))
    else batMode rd (256 * seg) g
  (List.range 8).flatMap (fun h => leBytes 2 (unsigned 16 (off h))) ++
    leBytes 4 (mode 0 + 4 * mode 1) ++ leBytes 4 time ++ leBytes 8 0

/-- BAT address of an entry. -/
def State.batEntryAddr (s : State) (ai seg : Nat) : Nat :=
  s.get (fmtB ai) F.FMT_BATBASE_LO_ADDR + s.get (fmtB ai) F.FMT_BATBASE_HI_ADDR * 0x100000000 + 0x100 + 32 * seg

/-- A segment written: its counter and SEG, and the coverage it belongs to (R203, R213). After a reach alarm's measurement the
operation goes on in the mode now in the entry (R134), and a SEEK that waited is made. DESIGN CHOICE (log 25). -/
def State.calDone (s : State) (ai : Nat) (r : CalRun) : State :=
  let b := srvB ai
  let s := (s.calStop ai).put b F.SRV_CALSTAT_SEG r.seg
  let s := s.count b F.SRV_CNT_CALSEG_COUNT (actHalf ai) (384 + 8 * (ai % 8) + 7) 1
  if r.why == 2 then
    if (s.calSegs ai).any (fun e => decide (r.seg < e)) then s.setSrv ai { s.srv ai with sweepAt := some (r.seg + 1) }
    else s.sweepDone ai
  else if r.why == 3 then
    let v := s.srv ai
    let left := (if v.covLeft == 0 then (s.calSegs ai).length else v.covLeft) - 1
    let s := s.setSrv ai { v with covLeft := left, fast := v.fast && left != 0 }
    if left == 0 then s.put b F.SRV_CALTEMP_CAL_TEMP_LAST (s.get b F.SRV_CALTEMP_TEMP_NOW) else s
  else if r.why == 0 then
    let f := s.fmt ai
    let s := s.setFmt ai { f with op := f.op.map fun op => { op with mode := s.bandMode ai op.req.band op.req.group } }
    match (s.srv ai).seekLater with
    | some (kind, band) => (s.setSrv ai { s.srv ai with seekLater := none }).seekBand ai kind band
    | none => s
  else s

/-! ### Demodulation (R185 to R188, R193, R194) -/

/-- The states in which the heads of the pass demodulate (R185, R206). -/
def demodulates (st : Nat) (ramp : Bool) : Bool :=
  st == svLoading || st == svFollow || st == svSeek || st == svSettle || (st == svPark && !ramp)

/-- What the sample of one slot says (R186, R187, R193). Before the loop of a load has closed there is no window and no
prediction. -/
def State.slotObs (s : State) (ai k : Nat) (d : DemodSample) : SlotObs :=
  let v := s.srv ai
  let st := s.srvState ai
  let searching := st == svLoading && !v.locked
  let idx := (d.index.extractLsb' 0 9).toNat
  let ok := d.found && indexOk d.index &&
    (searching || (d.samCell.natAbs ≤ 16 && idx == (s.get (srvB ai) F.SRV_WEDGE_INDEX + 1) % 512))
  let pos := samplePos d
  let pes := pos - 256 * (s.srvBand ai : Int)
  let pred := smGet 0 v.pred k * 256
  let th : Rat :=
    if st == svFollow || st == svSettle then (min1 (s.par ai F.SRV_FOLCFG_PLAUS_TH) : Rat)
    else ((64 * min1 (s.par ai F.SRV_SEEKCFG_PLAUS_SEEK) : Nat) : Rat)
  let bad := ok && st != svLoading && decide (ratAbs ((pes : Rat) - pred) > th)
  ⟨k, !ok, bad, if (ok && !bad) || searching then pes else pred.floor, pos, grayDecode d.tid⟩

/-- The record of a head after a wedge (R214). -/
def State.headRecord (s : State) (ai : Nat) (o : SlotObs) : State :=
  let hb := headB ai (4 * s.srvGroup ai + o.k)
  let s := (s.put hb F.HEAD_PES (sat16 o.pes)).put hb F.HEAD_PRED (sat16 (smGet 0 (s.srv ai).pred o.k * 256).floor)
  let s := (s.putB hb F.HEAD_REPLACED (o.missing || o.implausible)).putB hb F.HEAD_MISSING o.missing
  if o.missing then s else s.put hb F.HEAD_TID o.tid

/-- A head's sample is replaced (R194): counters, sticky events. -/
def State.headReplaced (s : State) (ai : Nat) (o : SlotObs) : State :=
  let b := srvB ai
  let c := 384 + 8 * (ai % 8)
  let s := if o.missing || o.implausible then s.count b F.SRV_CNT_REPLACED_COUNT (actHalf ai) c 1 else s
  let s := if o.missing then (s.count b F.SRV_CNT_MISSING_COUNT (actHalf ai) (c + 1) 1).flag b F.SRV_EVENTS_MISSING
           else s
  if o.implausible then s.flag b F.SRV_EVENTS_IMPLAUS else s

/-- Snuffer at a wedge (R150 to R153, R194): POS from the PES of each head of the pass, IMPLAUS from a replaced sample; the
runs of clean wedges; the largest |PES| of a writing head (R162); and the wedge passed when neither cause is found. -/
def State.snufWedge (s : State) (ai : Nat) (obs : List SlotObs) : State :=
  let b := fmtB ai
  let th := min1 (s.get b F.FMT_SNFCFG_WF_TH)
  let g := s.srvGroup ai
  let s := if (s.wick ai).wg then obs.foldl (fun s o => s.peak b F.FMT_SNFPES_PEAK o.pes.natAbs) s else s
  let over_ := obs.filter fun o => decide (o.pes.natAbs > th)
  let repl := obs.filter fun o => o.missing || o.implausible
  let index := s.get (srvB ai) F.SRV_WEDGE_INDEX
  let d := (s.wick ai).desc
  let frames := match d with
    | none => []
    | some d =>
      let lo := symAt d.zone ((relWedge (batSkew (s.batRd ai)) d.band index + 511) % 512) 0
      s.writtenFrames ai lo (lo + zNw d.zone)
  let w := s.wick ai
  let s := if w.wedge == index then s else s.setWick ai { w with wedge := index, sym := 0 }
  let f := s.fmt ai
  let s := s.setFmt ai { f with cleanPos := if over_.isEmpty then f.cleanPos + 1 else 0,
                                cleanImplaus := if repl.isEmpty then f.cleanImplaus + 1 else 0,
                                passed := over_.isEmpty && repl.isEmpty }
  let s := match over_ with
    | [] => s
    | o :: _ =>
      let was := (s.fmt ai).pos
      let s := s.snufTrip ai .pos (4 * g + o.k) frames
      if was then s
      else (over_.filter fun o => decide (o.pes.natAbs > 2 * th)).foldl (fun s o =>
        if s.bit b F.FMT_CTL_NEIGH_CHK then s.neighCheck ai (4 * g + o.k) ((index + 511) % 512) else s) s
  match repl with
  | [] => s
  | o :: _ => s.snufTrip ai .implaus (4 * g + o.k) frames

/-- The SRV trace packet of a computation (R485). -/
def State.srvPacket (s : State) (ai : Nat) (obs : List SlotObs) : State :=
  if !s.maskBit (B.cri (actHalf ai)) F.CRI_TRCCFG_SRV (ai % 8) then s
  else
    let b := srvB ai
    let bits := fun (p : SlotObs → Bool) => (obs.filter p).foldl (fun m o => m ||| 2 ^ o.k) 0
    let w := s.get b F.SRV_WEDGE_INDEX + 512 * bits (fun o => o.missing || o.implausible) + 8192 * s.srvState ai
    let pes := (List.range 4).flatMap fun k => match obs.find? (·.k == k) with
      | some o => leBytes 2 (sat16 o.pes)
      | none => leBytes 2 0x8000
    s.trace (actHalf ai) 0x11 (ai % 8) (leBytes 2 w ++ pes ++
      leBytes 1 (s.get b F.SRV_STAT_IMPL_RUN + 8 * s.get b F.SRV_STAT_ON_TRACK + 16 * bits (·.missing)))

/-- The wedge of an engine whose heads demodulate (R185 to R187, R193, R194), with the parameters of the computation that it
starts. -/
def State.demodWedge (s : State) (ai : Nat) (samples : List DemodSample) (interval : Nat) : State :=
  let b := srvB ai
  let v := s.srv ai
  let st := s.srvState ai
  let searching := st == svLoading && !v.locked
  let slots := s.srvSlots ai
  let samp := fun i => samples.getD i default
  let obs := (List.range slots.length).map fun i => s.slotObs ai (slots.getD i 0) (samp i)
  let anySam := (List.range slots.length).any fun i => (samp i).found && (searching || (samp i).samCell.natAbs ≤ 16)
  let read := obs.filter fun o => !o.missing
  let firstIdx := ((List.range slots.length).find? fun i => (samp i).found && indexOk (samp i).index).map
    fun i => ((samp i).index.extractLsb' 0 9).toNat
  let old := s.get b F.SRV_WEDGE_INDEX
  let index := if searching then firstIdx.getD ((old + 1) % 512) else (old + 1) % 512
  let s := s.put b F.SRV_WEDGE_INDEX index
  let s := if anySam then
      (s.put b F.SRV_WEDGE_PERIOD interval).setSrv ai { v with intervals := (interval :: v.intervals).take 16 }
    else s
  let s := obs.foldl (fun s o => s.headRecord ai o) s
  let run := (List.range slots.length).map fun i =>
    let o := obs.getD i default
    let good := !o.missing && ((samp i).index.extractLsb' 0 9).toNat == (old + 1) % 512
    (o.k, if o.missing then 0 else if good then smGet 0 v.lockRun o.k + 1 else 1)
  let v := { s.srv ai with pes := obs.foldl (fun m o => smPut 0 m o.k o.pes) [],
                           lastPos := read.foldl (fun m o => smPut 0 m o.k o.pos) v.lastPos,
                           lockRun := if searching then run.foldl (fun m e => smPut 0 m e.1 e.2) [] else v.lockRun }
  let s := s.setSrv ai v
  if searching then s
  else
    let repl := obs.filter fun o => o.missing || o.implausible
    let s := obs.foldl (fun s o => s.headReplaced ai o) s
    let s := s.setSrv ai { s.srv ai with allReplaced := repl.length == obs.length }
    let s := s.modelCorrect ai ((obs.filter fun o => !(o.missing || o.implausible)).map (·.k))
    let run := s.get b F.SRV_STAT_IMPL_RUN
    let s := if repl.isEmpty then s.put b F.SRV_STAT_IMPL_RUN 0
             else if st == svLoading then s
             else s.put b F.SRV_STAT_IMPL_RUN (min 4 (run + 1))
    (s.calSample ai obs).snufWedge ai obs

/-- SERVO_DEMOD_END (R188): the samples of the slots of the pass in rising order, and the SAM-to-SAM interval measured in
1 GHz cycles. Cycle 0 of the computation reads the parameters, at wedge 0 the coefficients too (R200). An engine that has lost its HDA
enters OFF (R208). DEDUCED (log 181). -/
def servoDemodEnd (h : Half) (u : Nat) (samples : List DemodSample) (interval : Nat) (s : State) : State :=
  let ai := actId h u
  if (s.srv ai).ownLost then (s.servoToOff ai).servoLeaveOff ai
  else
    let s := s.latchPars ai
    let s := if demodulates (s.srvState ai) (s.srv ai).ramp then s.demodWedge ai samples interval else s
    let b := srvB ai
    let s := if s.get b F.SRV_WEDGE_INDEX == 0 then
        s.setSrv ai { s.srv ai with coefPeriod := coefLimit (s.get b F.SRV_WEDGE_PERIOD) } else s
    let obs := if demodulates (s.srvState ai) (s.srv ai).ramp then
        (s.srvSlots ai).map fun k =>
          let hb := headB ai (4 * s.srvGroup ai + k)
          (⟨k, s.bit hb F.HEAD_MISSING, s.bit hb F.HEAD_REPLACED, smGet 0 (s.srv ai).pes k, 0, 0⟩ : SlotObs)
      else []
    let s := s.srvPacket ai obs
    let s := s.calCheck ai
    s.setSrv ai { s.srv ai with computing := true }

def execServoDemodEnd (h : Half) (u : Nat) (samples : List DemodSample) (interval : Nat) (s : State) :
    Host.Outcome State Fault Refusal :=
  .next (servoDemodEnd h u samples interval s)

/-! ### Computation and outputs (R188 to R193) -/

/-- u_ff in 0.1 mA (R199): RV_GAIN (2^-8 mA per rad/s²) times alpha, extrapolated linearly from the last two samples, 250 µs apart,
over the ns from the newer one to the output instant. -/
def State.feedForward (s : State) (ai ns : Nat) : Rat :=
  let v := s.srv ai
  if s.par ai F.SRV_CTL_RV_EN == 0 || !v.rvFresh then 0
  else 10 * ((signed 16 (s.par ai F.SRV_RVGAIN_RV_GAIN) : Int) : Rat) / 256 *
    (v.alpha1 + (v.alpha1 - v.alpha0) * (ns : Rat) / 250000)

/-- A current command in steps of 0.1 mA, within ±I_MAX (R191). -/
def State.limitCur (s : State) (ai : Nat) (u : Rat) : Int :=
  let m : Int := (min (s.par ai F.SRV_IMAX_I_MAX) 0x7530 : Nat)
  max (-m) (min m u.floor)

/-- A stroke in tracks as microactuator millivolts within ±MA_VMAX (R190). -/
def State.strokeMv (s : State) (ai : Nat) (stroke : Rat) : Int :=
  let g := s.par ai F.SRV_MAGAIN_MA_GAIN
  let m : Int := (min (s.par ai F.SRV_MAGAIN_MA_VMAX) 0x2710 : Nat)
  if g == 0 then 0 else max (-m) (min m (stroke * 36000 / (g : Rat)).floor)

/-- The mean of the positions of the heads of the pass from its band, in tracks (R202). -/
def State.meanPes (s : State) (ai : Nat) : Rat :=
  ratMean ((s.srvSlots ai).map fun k => ((smGet 0 (s.srv ai).pes k : Int) : Rat) / 256)

/-- The error of the VCM loop, in tracks: ec of R189 less the moving reference, by the model alone when every head was replaced (R194);
during a measurement the mean of the four positions from the centre band (R202). -/
def State.loopErr (s : State) (ai : Nat) : Rat :=
  let v := s.srv ai
  if v.cal.isSome then s.meanPes ai
  else if v.allReplaced then v.pos - s.passTarget ai
  else s.combErr ai (s.srvSlots ai) - (s.passTarget ai - (s.srvBand ai : Rat))

/-- One microactuator's loop (R189, R190, R192): its output, its integrator, and whether it is at reach. -/
def State.maStep (s : State) (ai k : Nat) : State :=
  let v := s.srv ai
  let head := 4 * s.srvGroup ai + k
  let hb := headB ai head
  let (req, i') := Config.maLoop v.coefPeriod (smGet 0 v.maInteg head) (((smGet 0 v.pes k : Int) : Rat) / 256)
  let reach := s.reachOf ai
  let at_ := decide (ratAbs req > reach)
  let out := s.strokeMv ai (ratClamp req (-reach) reach)
  let s := s.setSrv ai { v with maInteg := smPut 0 v.maInteg head i', outMa := smPut 0 v.outMa head out }
  let s := (s.put hb F.HEAD_STROKE (sat16 (req * 256).floor)).putB hb F.HEAD_AT_REACH at_
  s.put hb F.HEAD_REACH_RUN (if at_ then min 255 (s.get hb F.HEAD_REACH_RUN + 1) else 0)

/-- Whether a wedge is within SETTLE_TH (R197): every head of P, or in a measurement, whose microactuators are at 0 V, the mean of the
four. DEDUCED (log 174). -/
def State.onTrack (s : State) (ai : Nat) : Bool :=
  let th := min1 (s.par ai F.SRV_FOLCFG_SETTLE_TH)
  if (s.srv ai).cal.isSome then decide (ratAbs (s.meanPes ai) * 256 ≤ (th : Rat))
  else (s.srvSlots ai).all fun k => decide ((smGet 0 (s.srv ai).pes k).natAbs ≤ th)

/-- The closed loop of a wedge (R189). The first wedge after a bumpless transfer gives u_last (R196). The microactuators are driven
neither in LOADING (R190) nor in a measurement (R202). -/
def State.followStep (s : State) (ai : Nat) (ff : Rat) : State :=
  let v := s.srv ai
  let t := v.coefPeriod
  let ref := if v.refOff < 0 then min 0 (v.refOff + 4) else max 0 (v.refOff - 4)
  let ec := s.loopErr ai - ref
  let pd := servoCoefAt 0 t * ec + servoCoefAt 1 t * v.vel + ff
  let integ := match v.handed with
    | some u => u - pd
    | none => v.integ
  let still := v.cal.isSome || s.srvState ai == svLoading
  let s := s.setSrv ai { v with outCur := s.limitCur ai (pd + integ), integ := integ + servoCoefAt 2 t * ec, refOff := ref,
                                handed := none, settleRun := if s.onTrack ai then min 255 (v.settleRun + 1) else 0,
                                outMa := if still then [] else v.outMa }
  if still then s else (s.srvSlots ai).foldl (fun s k => s.maStep ai k) s

/-- The current of a profile at one of its wedges, in 0.1 mA; after its end the bias-cancelling current is held (R195,
R196). -/
def Profile.current (p : Profile) (run : Nat) : Rat :=
  if run < p.acc then (p.cur : Rat)
  else if p.acc + p.coast ≤ run ∧ run < p.acc + p.coast + p.dec then -(p.cur : Rat)
  else p.coastCur

/-- One wedge of a profile (R195, R190). -/
def State.profileStep (s : State) (ai : Nat) (p : Profile) (ff : Rat) : State :=
  s.setSrv ai { s.srv ai with outCur := s.limitCur ai (p.current p.run + ff), outMa := [],
                              profile := some { p with run := p.run + 1 }, settleRun := 0 }

/-- The drive under back-EMF velocity control (R205, R206): inward at LOAD_VEL in LOADING, outward at RET_VEL otherwise. The sign of the
current is the control's. DESIGN CHOICE (log 14). -/
def State.emfDrive (s : State) (ai : Nat) : State :=
  let (n, s) := s.takeFree
  let b := srvB ai
  let vel : Int := if s.srvState ai == svLoading then (min1 (s.get b F.SRV_RETCFG_LOAD_VEL) : Nat)
    else -((min1 (s.get b F.SRV_RETCFG_RET_VEL) : Nat) : Int)
  s.setSrv ai { s.srv ai with outMa := [], outCur := s.limitCur ai (Config.emfCurrent vel n : Rat) }

/-- SERVO_COMPUTATION_END (R188): the outputs of the wedge are decided; `ns` runs from the newest shock sample to the output
instant (R199). -/
def servoComputationEnd (h : Half) (u ns : Nat) (s : State) : State :=
  let ai := actId h u
  let v := s.srv ai
  let st := s.srvState ai
  if !v.computing then s
  else
    let v := { v with computing := false, due := true, seekWedges := if v.seekRun then v.seekWedges + 1 else 0 }
    let s := s.setSrv ai v
    if st == svOff || st == svParked then s.setSrv ai { v with outCur := 0, outMa := [] }
    else if v.latch then s.setSrv ai { v with outCur := -2000, outMa := [] }
    else if st == svRetract || v.ramp || (st == svLoading && !v.locked) then s.emfDrive ai
    else
      match v.profile with
      | some p => s.profileStep ai p (s.feedForward ai ns)
      | none => s.followStep ai (s.feedForward ai ns)

def execServoComputationEnd (h : Half) (u ns : Nat) (s : State) : Host.Outcome State Fault Refusal :=
  .next (servoComputationEnd h u ns s)

/-- SERVO_OUTPUT_APPLY (R188): the VCM command and the eight microactuator voltages change together, and the model moves on
to the next wedge with the outputs applied (R193). -/
def servoOutputApply (h : Half) (u : Nat) (s : State) : State :=
  let ai := actId h u
  let v := s.srv ai
  if !v.due then s
  else
    let b := srvB ai
    let t := v.coefPeriod
    let (p', vel') := Config.plantStep t v.pos v.vel (s.accOf ai * (v.outCur : Rat) / 10000 + v.bias)
    let str := (List.range 8).foldl (fun m k =>
      smPut 0 m k (Config.maStroke t (smGet 0 v.stroke k) (smGet 0 v.outMa k))) []
    let s := (s.setSrv ai { v with due := false, pos := p', vel := vel', stroke := str }).predict ai
    let s := s.setPa ai { s.pa ai with maZero := v.outMa.isEmpty || !s.outEnable (actHalf ai) }
    let s := (s.put b F.SRV_VCMOUT_I_CMD (unsigned 16 v.outCur)).put b F.SRV_VCMOUT_VEL (sat16 vel'.floor)
    (List.range 8).foldl (fun s k => s.put (headB ai k) F.HEAD_MA_OUT (sat16 (smGet 0 v.outMa k))) s

def execServoOutputApply (h : Half) (u : Nat) (s : State) : Host.Outcome State Fault Refusal :=
  .next (servoOutputApply h u s)

/-- IMPLAUS_RETRACT (R194): with IMPL_RUN at 4 the wedge's outputs are the first of RETRACT, unless the second phase of a PARK runs
already (R207). -/
def implausRetract (h : Half) (u : Nat) (s : State) : State :=
  let ai := actId h u
  if s.get (srvB ai) F.SRV_STAT_IMPL_RUN == 4 then
    let was := (s.srv ai).ramp
    let s := s.servoRetract ai 1
    if s.srvState ai == svRetract && !was then s.emfDrive ai else s
  else s

def execImplausRetract (h : Half) (u : Nat) (s : State) : Host.Outcome State Fault Refusal :=
  .next (implausRetract h u s)

/-! ### Reach alarm (R192, R198) -/

/-- The alarm is raised: REACH_ALARM, its counter, and the segment measured at once for the group of the pass (R203). -/
def State.raiseAlarm (s : State) (ai : Nat) : State :=
  let b := srvB ai
  let s := s.setSrv ai { s.srv ai with alarm := true, alarmHeld := false }
  let s := (s.flag b F.SRV_EVENTS_REACH_ALARM).count b F.SRV_CNT_REACH_COUNT (actHalf ai) (384 + 8 * (ai % 8) + 6) 1
  s.calStart ai (s.srvBand ai / 256) (2 ^ s.srvGroup ai) 0

/-- REACH_ALARM (R192): a head of the pass has been at reach for REACH_CNT wedges; during SETTLE the alarm is held until
FOLLOW (R198). -/
def reachAlarm (h : Half) (u : Nat) (s : State) : State :=
  let ai := actId h u
  let n := min1 (s.par ai F.SRV_FOLCFG_REACH_CNT)
  let hit := (s.srvSlots ai).any fun k => decide (s.get (headB ai (4 * s.srvGroup ai + k)) F.HEAD_REACH_RUN ≥ n)
  if !hit || (s.srv ai).alarm || (s.srv ai).cal.isSome then s
  else if s.srvState ai == svFollow then s.raiseAlarm ai
  else if s.srvState ai == svSettle then s.setSrv ai { s.srv ai with alarmHeld := true }
  else s

def execReachAlarm (h : Half) (u : Nat) (s : State) : Host.Outcome State Fault Refusal := .next (reachAlarm h u s)

/-! ### Ends of seeks (R196, R197) -/

/-- The seek fails: SEEK_FAIL, and a SEEK of KIND 0 or 1 is answered with Z = 1 (R196 to R198). DEDUCED (log 24). -/
def State.seekFail (s : State) (ai : Nat) : State :=
  let s := (s.flag (srvB ai) F.SRV_EVENTS_SEEK_FAIL).setSrv ai { s.srv ai with seekRun := false }
  if (s.srv ai).seek == some 2 then s else s.seekAnswer ai true

/-- The second miss of a seek (R196): SEEK_FAIL, and the engine follows the band under the comb, where a measurement ends unfinished. A
park seeks band 0 again (R206). DEDUCED (log 24). -/
def State.profileMiss (s : State) (ai : Nat) : State :=
  let s := s.seekFail ai
  if s.srvState ai == svPark then s.parkMove ai
  else
    let here := ((s.srv ai).comb + 1 / 2).floor.toNat
    let s := s.setSrv ai { s.srv ai with profile := none, refOff := 0, settleRun := 0, maInteg := [], outMa := [] }
    let s := s.setPass ai (min here (batBands (s.batRd ai) - 1)) (s.srvGroup ai) (s.get (srvB ai) F.SRV_STAT_PASS_MASK)
    let s := if (s.srv ai).cal.isSome then s.calStop ai else s
    s.setSrvState ai svSettle

/-- PROFILE_END (R196): handover to SETTLE with the command unchanged, one correction profile, or failure of the seek. With
every head replaced the engine waits. -/
def profileEnd (h : Half) (u : Nat) (s : State) : State :=
  let ai := actId h u
  let v := s.srv ai
  let st := s.srvState ai
  match v.profile with
  | none => s
  | some p =>
    if p.run < p.acc + p.coast + p.dec || v.allReplaced || !(st == svSeek || st == svPark) then s
    else
      let r := s.passTarget ai - v.comb
      if ratAbs r ≤ s.handover ai then
        let s := s.setSrv ai { v with profile := none, handed := some (p.current (p.run - 1)), refOff := 0, settleRun := 0,
                                      maInteg := [], outMa := [] }
        if st == svPark then s else s.setSrvState ai svSettle
      else if p.correction then s.profileMiss ai
      else
        let s := s.setSrv ai { v with profile := some (s.profileOver ai r true) }
        s.count (srvB ai) F.SRV_CNT_CORR_COUNT (actHalf ai) (384 + 8 * (ai % 8) + 5) 1

def execProfileEnd (h : Half) (u : Nat) (s : State) : Host.Outcome State Fault Refusal := .next (profileEnd h u s)

/-- SEEK_SETTLED (R197, R206): SETTLE and a locked LOADING enter FOLLOW, and SEEK is answered; PARK begins its second
phase from band 0, up the ramp. -/
def seekSettled (h : Half) (u : Nat) (s : State) : State :=
  let ai := actId h u
  let v := s.srv ai
  let st := s.srvState ai
  if v.settleRun < min1 (s.par ai F.SRV_FOLCFG_SETTLE_CNT) || v.profile.isSome || v.ramp then s
  else if st == svSettle || (st == svLoading && v.locked) then
    let s := (s.setSrv ai { v with seekRun := false }).setSrvState ai svFollow
    let s := if v.seek == some 0 || v.seek == some 1 then s.seekAnswer ai false else s
    if v.alarmHeld then s.raiseAlarm ai else s
  else if st == svPark && s.srvBand ai == 0 then
    let s := s.setSrv ai { v with ramp := true, seekRun := false, maInteg := [], outMa := [] }
    s.setPa ai { s.pa ai with maZero := true }
  else s

def execSeekSettled (h : Half) (u : Nat) (s : State) : Host.Outcome State Fault Refusal := .next (seekSettled h u s)

/-- SEEK_TIMEOUT (R197): a seek that has run SEEK_TMO wedges fails, a park's too; the engine goes on towards SETTLE. -/
def seekTimeout (h : Half) (u : Nat) (s : State) : State :=
  let ai := actId h u
  let v := s.srv ai
  if v.seekRun && v.seekWedges ≥ min1 (s.par ai F.SRV_SEEKCFG_SEEK_TMO) then s.seekFail ai else s

def execSeekTimeout (h : Half) (u : Nat) (s : State) : Host.Outcome State Fault Refusal := .next (seekTimeout h u s)

/-! ### Load, park, retract (R205 to R209) -/

/-- What LOAD asks for (R205, R212). -/
def State.loadOk (s : State) (ai : Nat) : Bool :=
  let hd := actHda ai
  let sp := s.get (spnB hd) F.SPN_SPEED_RPM
  s.srvState ai == svParked && (s.spnState hd == spAccel || s.spnState hd == spRun) && decide (4150 * 64 ≤ sp) &&
    decide (sp ≤ 7250 * 64) && s.ownLine hd && s.ackMask ai != 0 && !s.loaded ai &&
    s.get (srvB ai) F.SRV_PLANT_KT != 0

/-- CMD_LOAD (R205). -/
def cmdLoad (h : Half) (u : Nat) (s : State) : State :=
  let ai := actId h u
  if !s.loadOk ai then s
  else
    let s := s.setPass ai 0 (s.ackGroup ai) (s.ackMask ai)
    let s := s.setSrv ai { s.srv ai with locked := false, lockRun := [], settleRun := 0, profile := none, ramp := false,
                                         latch := false, retracting := false, maInteg := [], outMa := [], integ := 0,
                                         vel := 0, bias := 0, stroke := [], pred := [], lastPos := [], handed := none,
                                         retStart := s.usTime }
    let s := s.setPa ai { s.pa ai with maZero := true }
    s.setSrvState ai svLoading

def execCmdLoad (h : Half) (u : Nat) (s : State) : Host.Outcome State Fault Refusal := .next (cmdLoad h u s)

/-- LOAD_LOCK (R205): 16 consecutive SAMs on one head; the loop closes on the band nearest to the comb. -/
def loadLock (h : Half) (u : Nat) (s : State) : State :=
  let ai := actId h u
  let v := s.srv ai
  if s.srvState ai != svLoading || v.locked || !v.lockRun.any (fun e => decide (e.2 ≥ 16)) then s
  else
    let rd := s.batRd ai
    let g := s.srvGroup ai
    let comb := ratMean ((v.lastPos.filter fun e => (s.srvSlots ai).contains e.1).map fun e =>
      (e.2 : Rat) / 256 + offsetAt rd (e.2 / 256).toNat (4 * g + e.1))
    let band := min ((comb + 1 / 2).floor.toNat) (batBands rd - 1)
    let s := (s.latchPars ai).setPass ai band g (s.get (srvB ai) F.SRV_STAT_PASS_MASK)
    let pes := v.lastPos.foldl (fun m e => smPut 0 m e.1 (e.2 - 256 * (band : Int))) []
    s.setSrv ai { s.srv ai with locked := true, pos := comb, comb := comb, vel := 0, bias := 0, integ := 0, settleRun := 0, refOff := 0,
                                coefPeriod := coefLimit (s.get (srvB ai) F.SRV_WEDGE_PERIOD), pes := pes,
                                pred := pes.foldl (fun m e => smPut 0 m e.1 ((e.2 : Rat) / 256)) [] }

def execLoadLock (h : Half) (u : Nat) (s : State) : Host.Outcome State Fault Refusal := .next (loadLock h u s)

/-- Whether some ms have passed since LOAD, PARK or RETRACT began (R205, R207). DESIGN CHOICE (log 4). -/
def State.msPassed (s : State) (ai ms : Nat) : Bool :=
  decide ((s.usTime + 2 ^ 48 - (s.srv ai).retStart) % 2 ^ 48 ≥ 1000 * ms)

/-- LOAD_FAIL (R205): 50 ms without lock. -/
def loadFail (h : Half) (u : Nat) (s : State) : State :=
  let ai := actId h u
  if s.srvState ai == svLoading && !(s.srv ai).locked && s.msPassed ai 50 then
    (s.flag (srvB ai) F.SRV_EVENTS_LOAD_FAIL).servoRetract ai 5
  else s

def execLoadFail (h : Half) (u : Nat) (s : State) : Host.Outcome State Fault Refusal := .next (loadFail h u s)

def execCmdPark (h : Half) (u : Nat) (s : State) : Host.Outcome State Fault Refusal :=
  .next (s.servoParkCmd (actId h u))

def execCmdRetract (h : Half) (u : Nat) (s : State) : Host.Outcome State Fault Refusal :=
  .next (s.servoRetract (actId h u) 4)

/-- Whether an engine drives outward (R206). -/
def State.driving (s : State) (ai : Nat) : Bool :=
  (s.srvState ai == svPark || s.srvState ai == svRetract) && (s.srv ai).ramp

/-- STOP_REACHED (R206): with the highest back-EMF velocity of 2 ms, in 0.1 mm/s, below 5 % of RET_VEL, against the stop, the push of
200 mA outward begins. -/
def stopReached (h : Half) (u vel : Nat) (s : State) : State :=
  let ai := actId h u
  if s.driving ai && !(s.srv ai).latch && decide (vel < 5 * min1 (s.get (srvB ai) F.SRV_RETCFG_RET_VEL)) then
    s.setSrv ai { s.srv ai with latch := true, outCur := -2000 } else s

def execStopReached (h : Half) (u vel : Nat) (s : State) : Host.Outcome State Fault Refusal :=
  .next (stopReached h u vel s)

/-- LATCH_PUSH_END (R206, R209): 0 mA, and PARKED, where a SEEK of KIND 2 is answered (R198), or OFF when EN = 0. The loaded flag
clears (R406). -/
def latchPushEnd (h : Half) (u : Nat) (s : State) : State :=
  let ai := actId h u
  let b := srvB ai
  if !s.driving ai || !(s.srv ai).latch then s
  else
    let s := if (s.srv ai).retracting then s.flag b F.SRV_EVENTS_RETRACT else s
    let parked := s.bit b F.SRV_CTL_EN
    let s := if (s.srv ai).seek == some 2 && parked then s.seekAnswer ai false else s
    let s := s.setSrv ai { s.srv ai with ramp := false, latch := false, retracting := false, outCur := 0, outMa := [] }
    let s := (s.put b F.SRV_VCMOUT_I_CMD 0).setLoaded ai false
    s.setSrvState ai (if parked then svParked else svOff)

def execLatchPushEnd (h : Half) (u : Nat) (s : State) : Host.Outcome State Fault Refusal := .next (latchPushEnd h u s)

/-- RETRACT_TMO (R207, R211): RET_TMO ms after the start of PARK or RETRACT, the VCM at 0, Mantle's retract asked for, and OFF. A SEEK
that waits, of KIND 2 too, is answered with Z = 1 (R198). -/
def retractTmo (h : Half) (u : Nat) (s : State) : State :=
  let ai := actId h u
  if (s.srvState ai == svPark || s.srvState ai == svRetract) &&
      s.msPassed ai (min1 (s.get (srvB ai) F.SRV_RETCFG_RET_TMO)) then
    let s := s.flag (srvB ai) F.SRV_EVENTS_RETRACT_TMO
    ((s.seekAnswer ai true).servoToOff ai).retractStart ai
  else s

def execRetractTmo (h : Half) (u : Nat) (s : State) : Host.Outcome State Fault Refusal := .next (retractTmo h u s)

/-- SERVO_EN_SET (R209): EN written 1. -/
def servoEnSet (h : Half) (u : Nat) (s : State) : State :=
  (s.put (B.srv h u) F.SRV_CTL_EN 1).servoLeaveOff (actId h u)

def execServoEnSet (h : Half) (u : Nat) (s : State) : Host.Outcome State Fault Refusal := .next (servoEnSet h u s)

/-- SERVO_OFF (R209, R211): EN cleared. In a loaded state RETRACT with cause 3 starts, and the operation ends with
SERVO_OFF; OFF and PARKED go to OFF; RETRACT runs to its end and then goes to OFF. A SEEK in progress is answered with Z = 1, and a
busy engine sets CFG_CHANGED (R52). -/
def servoOff (h : Half) (u : Nat) (s : State) : State :=
  let ai := actId h u
  let st := s.srvState ai
  let s := s.put (srvB ai) F.SRV_CTL_EN 0
  let s := if s.bit (srvB ai) F.SRV_STAT_BUSY then s.flag (srvB ai) F.SRV_EVENTS_CFG_CHANGED else s
  let s := s.seekAnswer ai true
  if loadedState st then (s.wickAbort ai 7 .servoOff).servoRetract ai 3
  else if st == svParked then s.setSrvState ai svOff
  else s

def execServoOff (h : Half) (u : Nat) (s : State) : Host.Outcome State Fault Refusal := .next (servoOff h u s)

/-- Speed below 3,700 rpm in a loaded state (R201), seen by both engines of an HDA. -/
def State.speedLow (s : State) (hd speed : Nat) : State :=
  [2 * hd, 2 * hd + 1].foldl (fun s ai =>
    if decide (speed < 3700 * 64) && loadedState (s.srvState ai) then
      (s.flag (srvB ai) F.SRV_EVENTS_SPEED_LOW).servoRetract ai 2
    else s) s

/-! ### Calibration commands (R203, R213) -/

/-- CAL_ONE: a segment beyond the BAT's entries is ignored (R213), and one that is retired for both groups (R142). -/
def calOne (h : Half) (u seg : Nat) (s : State) : State :=
  let ai := actId h u
  if (s.calSegs ai).contains seg then (s.setSrv ai { s.srv ai with calOne := some seg }).calNextStart ai else s

def execCalOne (h : Half) (u : Nat) (seg : Nat) (s : State) : Host.Outcome State Fault Refusal := .next (calOne h u seg s)

/-- CAL_SWEEP: ignored while one runs. -/
def calSweep (h : Half) (u : Nat) (s : State) : State :=
  let ai := actId h u
  if s.bit (srvB ai) F.SRV_CALSTAT_SWEEP then s
  else
    let s := s.setSrv ai { s.srv ai with sweepAt := some 0 }
    (s.flag (srvB ai) F.SRV_CALSTAT_SWEEP).calNextStart ai

def execCalSweep (h : Half) (u : Nat) (s : State) : Host.Outcome State Fault Refusal := .next (calSweep h u s)

/-- The segment with the oldest MEAS_TIME, the lowest number among equals (R203). -/
def oldestSegment (rd : Nat → Byte) (segs : List Nat) : Nat :=
  segs.foldl (fun best e => if batMeasTime rd e < batMeasTime rd best then e else best) (segs.headD 0)

/-- CAL_BACKGROUND (R203): CAL_INT ms after the last one, or a sixteenth of that after a change of temperature, the oldest segment is
measured while idle. -/
def calBackground (h : Half) (u : Nat) (s : State) : State :=
  let ai := actId h u
  let v := s.srv ai
  let segs := s.calSegs ai
  let us := 1000 * min1 (s.get (srvB ai) F.SRV_CALCFG_CAL_INT) / if v.fast then 16 else 1
  if s.bit (srvB ai) F.SRV_CTL_CAL_EN && s.servoIdle ai && s.srvState ai == svFollow && v.cal.isNone &&
      !segs.isEmpty && decide ((s.usTime + 2 ^ 48 - v.calAt) % 2 ^ 48 ≥ us) then
    (s.setSrv ai { v with calAt := s.usTime }).calStart ai (oldestSegment (s.batRd ai) segs) 3 3
  else s

def execCalBackground (h : Half) (u : Nat) (s : State) : Host.Outcome State Fault Refusal :=
  .next (calBackground h u s)

/-- CAL_MEASURE_END (R202): with every group averaged over its whole revolutions, OFFSET of each head is the average of pos - c
negated, and the entry is written whole. -/
def calMeasureEnd (h : Half) (u : Nat) (s : State) : State :=
  let ai := actId h u
  match (s.srv ai).cal with
  | none => s
  | some r =>
    if !r.full then s
    else
      let new := fun head : Nat =>
        if r.groups.testBit (head / 4) then some (-((smGet 0 r.sums head : Int) : Rat) / (r.span : Rat)).floor else none
      let bytes := calEntry (s.batRd ai) r.seg s.seconds r.groups new
      (s.bufStore (s.batEntryAddr ai r.seg) bytes).calDone ai r

def execCalMeasureEnd (h : Half) (u : Nat) (s : State) : Host.Outcome State Fault Refusal := .next (calMeasureEnd h u s)

/-! ### Feedforward (R199) -/

/-- FEEDFORWARD_TIMEOUT: no sample for 1 ms, u_ff is held at 0 and ALPHA keeps its value, in every engine of the half. -/
def feedforwardTimeout (h : Half) (s : State) : State :=
  (List.range 8).foldl (fun s u => s.setSrv (actId h u) { s.srv (actId h u) with rvFresh := false }) s

def execFeedforwardTimeout (h : Half) (s : State) : Host.Outcome State Fault Refusal := .next (feedforwardTimeout h s)

/-- Alpha in rad/s² of a pair of sensor readings in 0.001 g, 0.180 m apart (R199). PRESUMED (log 26). -/
def alphaOf (p : ShockSample) : Rat := ((p.ayB - p.ayA : Int) : Rat) * 980665 / 18000000

/-- SHOCK_SAMPLE (R199): both Lanterns take the sample for feedforward. The first after a gap stands for its predecessor too
(log 13). -/
def shockSample (p : ShockSample) (s : State) : State :=
  (List.range 16).foldl (fun s ai =>
    let v := s.srv ai
    let s := s.setSrv ai { v with alpha0 := if v.rvFresh then v.alpha1 else alphaOf p, alpha1 := alphaOf p, rvFresh := true }
    s.put (srvB ai) F.SRV_RVGAIN_ALPHA (sat16 (alphaOf p).floor)) s

def execShockSample (p : ShockSample) (s : State) : Host.Outcome State Fault Refusal := .next (shockSample p s)

end Sys2Proof.Machine
end

