-- ==== Sys2Proof/Machine/Harness.lean ====
section
/-! DEFINITION. Grenzel harness ports and preamplifier buses (R73 to R90): the serial frames of an actuator's preamplifier,
fault lines, presence, identification and PORT_MODE. -/

namespace Sys2Proof.Machine

/-! ### The serial bus (R77 to R80) -/

/-- ADDR of bits [31:8] of a frame. -/
def frameAddr (f : BitVec 24) : Nat := (f.extractLsb' 16 7).toNat
/-- Whether bits [31:8] are those of a read frame. -/
def frameRead (f : BitVec 24) : Bool := f.getLsbD 23
/-- DATA of a write frame. -/
def frameData (f : BitVec 24) : Nat := (f.extractLsb' 0 16).toNat
/-- Bits [31:8] of a read frame. -/
def readFrame (addr : Nat) : BitVec 24 := BitVec.ofNat 24 (0x800000 + addr % 128 * 0x10000)

/-- The bits of a preamplifier register that a write reaches (R81); none for read-only and undefined addresses. -/
def paMask (addr : Nat) : Nat :=
  if addr == 0x01 then 0x3 else if addr == 0x02 then 0xF1 else if 0x10 ≤ addr && addr ≤ 0x1F then 0xFF
  else if 0x20 ≤ addr && addr ≤ 0x27 then 0x7F else if 0x28 ≤ addr && addr ≤ 0x3F then 0xFF else 0

/-- Either write gate of an actuator high at its pin. -/
def State.gateHigh (s : State) (ai : Nat) : Bool := s.wgPin ai 0 || s.wgPin ai 1

/-- Whether a frame must wait (R74, R90): GRPSEL, IW and OS for low write gates, GRPSEL for a low servo gate too. -/
def State.frameHeld (s : State) (ai : Nat) (f : BitVec 24) : Bool :=
  gateFrame f && (s.gateHigh ai || (frameAddr f == 2 && (s.pa ai).sg))

/-- Software frames that wait or run on a port. -/
def State.softPending (s : State) (hd : Nat) : Bool :=
  [2 * hd, 2 * hd + 1].any fun ai =>
    let p := s.pa ai
    p.queue.any (·.owner == .software) || (match p.cur with | some f => f.owner == .software | none => false)

/-- A software frame of an actuator ends (R79, R90): actuator 0's lets that of actuator 1 go. DONE shows once no other software
frame of the port is left. -/
def State.softDone (s : State) (ai : Nat) (failed : Bool) : State :=
  let hd := actHda ai
  let b := grzB hd
  let s := if ai % 2 == 0 then s.setPort hd { s.port hd with second := false } else s
  let s := if failed then s.put b F.GRZ_PARESP_FAILED 1 else s
  if s.softPending hd then s else s.put b F.GRZ_PARESP_DONE 1

/-- A frame withheld because the home line is 0 (R79, R404). -/
def State.frameWithheld (s : State) (ai : Nat) (f : BusFrame) : State :=
  match f.owner with
  | .software => s.softDone ai true
  | .wick => s.wickAbort ai 7 .notOwned
  | .media => s.wickAbort ai 7 .notOwned
  | _ => s

/-- Whether a frame belongs to a media operation (R80): a Wick's own, or the head selection before a pass. -/
def FrameOwner.media? : FrameOwner → Bool
  | .wick => true
  | .media => true
  | _ => false

/-- Whether a frame may start now: R74 and R90 do not hold it, and it is not actuator 1's of a PAGO with both bits while
actuator 0's has not ended. -/
def State.frameReady (s : State) (ai : Nat) (f : BusFrame) : Bool :=
  !s.frameHeld ai f.bits && !(f.owner == .software && ai % 2 == 1 && (s.port (actHda ai)).second)

/-- The frame that a free bus takes next of those ready: one to be repeated, then those of media operations, then in order of
issue (R79, R80). -/
def nextFrame (ready : List BusFrame) : Option BusFrame :=
  (ready.find? (·.repeated)).or ((ready.find? fun f => f.owner.media?).or ready.head?)

/-- The bus takes its next frame when it is free (R80); a frame that must wait is passed by, and one that R404 withholds ends
unsent. -/
def State.paNext (s : State) (ai : Nat) : Nat → State
  | 0 => s
  | fuel + 1 =>
    let p := s.pa ai
    if p.cur.isSome then s
    else
      match nextFrame (p.queue.filter (s.frameReady ai)) with
      | none => s
      | some f =>
        let s := s.setPa ai { p with queue := p.queue.erase f }
        if gateFrame f.bits && !s.ownLine (actHda ai) then State.paNext (s.frameWithheld ai f) ai fuel
        else s.setPa ai { s.pa ai with cur := some f }

/-- The bus looks for a frame to start; and that of actuator 1, whose frame may have waited for one of actuator 0 (R90). -/
def State.paKick (s : State) (ai : Nat) : State :=
  let s := s.paNext ai ((s.pa ai).queue.length + 1)
  if ai % 2 == 0 then s.paNext (ai + 1) ((s.pa (ai + 1)).queue.length + 1) else s

/-- A GRPSEL frame in progress as a gate of the actuator rises has not been started (R74): it goes back to wait. A frame is
started only where it ends before the next rise. DEDUCED (log 158). -/
def State.busYield (s : State) (ai : Nat) : State :=
  let p := s.pa ai
  match p.cur with
  | some f =>
    if frameAddr f.bits == 2 && s.frameHeld ai f.bits then s.setPa ai { p with cur := none, queue := f :: p.queue } else s
  | none => s

/-- A frame is issued to an actuator's preamplifier. -/
def State.paIssue (s : State) (ai : Nat) (owner : FrameOwner) (bits : BitVec 24) : State :=
  (s.setPa ai { s.pa ai with queue := (s.pa ai).queue ++ [⟨owner, bits, false⟩] }).paKick ai

/-! ### Port states (R86, R87) -/

def State.portState (s : State) (hd : Nat) : Nat := s.get (grzB hd) F.GRZ_PORTSTAT_STATE

/-- A port's new state; PORT_MODE follows from it (R87). -/
def State.setPortState (s : State) (hd st : Nat) : State :=
  let mode := if st == 4 then 2 else if st == 2 || st == 3 then 1 else 0
  (s.put (grzB hd) F.GRZ_PORTSTAT_STATE st).put (grzB hd) F.GRZ_PORTCTL_PORT_MODE mode

/-- Whether a harness port is quiet (R86). -/
def State.quiet (s : State) (hd : Nat) : Bool :=
  let g := s.port hd
  decide ((s.spn hd).emf < 30 * 64) && !g.eeprom && [2 * hd, 2 * hd + 1].all fun ai =>
    !s.loaded ai && !s.gateHigh ai && (s.pa ai).maZero && (!g.supply || smGet 0 (s.pa ai).regs 1 == 0)

/-- The preamplifier supplies of a port turned on. -/
def State.supplyOn (s : State) (hd : Nat) : State := s.setPort hd { s.port hd with supply := true }

/-- The preamplifier supplies of a port removed: the preamplifiers lose their settings, and frames end.
DEDUCED (log 23). -/
def State.supplyOff (s : State) (hd : Nat) : State :=
  let s := s.setPort hd { s.port hd with supply := false, eeprom := false, second := false }
  let s := s.put (grzB hd) F.GRZ_PORTSTAT_SUP_OK 0
  let s := s.put (grzB hd) F.GRZ_PORTSTAT_FLT 0
  [2 * hd, 2 * hd + 1].foldl (fun s ai =>
    s.setPa ai { s.pa ai with regs := [], cur := none, queue := [], persistDue := false, ptypeOk := false }) s

/-- Both presence pins low (R34). -/
def State.seated (s : State) (hd : Nat) : Bool := s.board.pins.testBit (2 * hd) && s.board.pins.testBit (2 * hd + 1)

/-- PRES0 and PRES1 follow the pins. -/
def State.showPins (s : State) (hd : Nat) : State :=
  (s.putB (grzB hd) F.GRZ_PORTSTAT_PRES0 (s.board.pins.testBit (2 * hd))).putB (grzB hd) F.GRZ_PORTSTAT_PRES1
    (s.board.pins.testBit (2 * hd + 1))

/-- A port at the release of its GRZ (R440): ABSENT, and DEBOUNCE when both pins are low. -/
def State.portRelease (s : State) (hd : Nat) : State :=
  if s.hdaDark hd then s
  else
    let s := s.showPins hd
    if s.seated hd then s.setPortState hd 1 else s

/-- Operations of both actuators end with a status, their gates low (R34, R89). -/
def State.harnessAbort (s : State) (hd : Nat) (st : OpStatus) : State :=
  [2 * hd, 2 * hd + 1].foldl (fun s ai => (s.gatesLow ai).wickAbort ai 2 st) s

/-- An HDA removed while its port is not quiet (R34): gates low, drive removed, the bridge coasting. -/
def State.removedActive (s : State) (hd : Nat) : State :=
  let s := s.harnessAbort hd .notOwned
  let s := [2 * hd, 2 * hd + 1].foldl (fun s ai => s.setPa ai { s.pa ai with maZero := true }) s
  s.put (brgB hd) F.BRG_SPN_MODE 0

/-- PRESENCE_LOW (R87): both presence pins low, which is a demand for the HDA's domain (R450); one that is OFF reads them as it
wakes. -/
def presenceLow (h : Half) (n : Nat) (s : State) : State :=
  let hd := hdaId h n
  let s := { s with board := { s.board with pins := s.board.pins ||| (3 * 4 ^ hd) } }
  if !s.hdaUp hd || s.hdaDark hd then s
  else
    let off := s.domState (hdaHalf hd) (22 + hd % 4) == 0
    let s := s.demand (hdaHalf hd) (22 + hd % 4)
    if off then s
    else
      let s := s.showPins hd
      if s.portState hd == 0 then s.setPortState hd 1 else s

def execPresenceLow (h : Half) (n : Nat) (s : State) : Host.Outcome State Fault Refusal := .next (presenceLow h n s)

/-- PRESENCE_HIGH (R87, R34, R402, R440): a presence pin opens. In DEBOUNCE the port only goes back to ABSENT: nothing has been
inserted that could be removed. DESIGN CHOICE (log 159). -/
def presenceHigh (h : Half) (n pin : Nat) (s : State) : State :=
  let hd := hdaId h n
  let k := 2 * hd + pin % 2
  let s := { s with board := { s.board with pins := if s.board.pins.testBit k then s.board.pins - 2 ^ k
                                                    else s.board.pins } }
  if s.hdaDark hd then s
  else if !s.hdaUp hd then (s.removedActive hd).withdraw hd 5
  else
    let s := s.showPins hd
    let st := s.portState hd
    if st == 0 then s
    else if st == 1 then (s.setPortState hd 0).withdraw hd 5
    else
      let b := grzB hd
      let q := s.quiet hd
      let s := s.flag b F.GRZ_EVENTS_REMOVED
      let s := if q then s
        else ((s.removedActive hd).flag b F.GRZ_EVENTS_REMOVED_ACTIVE).chimney h 4 n 10 0
      let s := s.withdraw hd 5
      let s := (s.supplyOff hd).put b F.GRZ_PORTSTAT_PRESENT 0
      (s.put b F.GRZ_PORTSTAT_ID_VALID 0).setPortState hd 0

def execPresenceHigh (h : Half) (n pin : Nat) (s : State) : Host.Outcome State Fault Refusal :=
  .next (presenceHigh h n pin s)

/-- DEBOUNCE_ELAPSED (R87). -/
def debounceElapsed (h : Half) (n : Nat) (s : State) : State :=
  let hd := hdaId h n
  let b := grzB hd
  if s.portState hd != 1 || !s.seated hd then s
  else
    let s := (s.put b F.GRZ_PORTSTAT_PRESENT 1).flag b F.GRZ_EVENTS_INSERTED
    ((s.chimney h 4 n 9 0).supplyOn hd).setPortState hd 2

def execDebounceElapsed (h : Half) (n : Nat) (s : State) : Host.Outcome State Fault Refusal :=
  .next (debounceElapsed h n s)

/-- EEPROM_READ_START (R87): both supplies have been good for 5 ms. DEDUCED (log 22). -/
def eepromReadStart (h : Half) (n : Nat) (s : State) : State :=
  let hd := hdaId h n
  if s.portState hd == 2 && (s.port hd).supply then
    (s.put (grzB hd) F.GRZ_PORTSTAT_SUP_OK 1).setPort hd { s.port hd with eeprom := true }
  else s

def execEepromReadStart (h : Half) (n : Nat) (s : State) : Host.Outcome State Fault Refusal :=
  .next (eepromReadStart h n s)

/-- A number of n little-endian bytes in an identity image (R84). -/
def identRd (bs : List Byte) (off n : Nat) : Nat := bytesLE ((List.range n).map fun i => bs.getD (off + i) 0)

/-- CRC32 of an identity image is right (R84). -/
def identCrcOk (bs : List Byte) : Bool :=
  bs.length == 0x400 && (crc32 (bs.take 0x3FC)).toNat == identRd bs 0x3FC 4

/-- The checks of R85 beside CRC32 and PTYPE. -/
def identFieldsOk (bs : List Byte) : Bool :=
  identRd bs 0 4 == 0x4E5A5247 && identRd bs 4 2 == 1 && identRd bs 0x48 1 == 8 && identRd bs 0x49 1 == 16 &&
    identRd bs 0x4A 1 == 2 && identRd bs 0x4B 1 == 12 && identRd bs 0x4C 2 == 7200 &&
    (identRd bs 0x66 1 == 0x11 || identRd bs 0x66 1 == 0x12)

/-- Identification fails (R85, R87). -/
def State.identFail (s : State) (hd : Nat) : State := (s.supplyOff hd).setPortState hd 5

/-- EEPROM_READ_DONE (R85, R87): the 1,024 bytes read. PTYPE is then read over both buses. -/
def eepromReadDone (h : Half) (n : Nat) (bytes : List Byte) (s : State) : State :=
  let hd := hdaId h n
  let b := grzB hd
  if s.portState hd != 2 || !(s.port hd).eeprom then s
  else
    let crc := identCrcOk bytes
    let ok := identFieldsOk bytes
    let s := s.setPort hd { s.port hd with eeprom := false, identity := bytes }
    let s := if crc then s else s.flag b F.GRZ_EVENTS_ID_CRC_ERR
    let s := if ok then s else s.flag b F.GRZ_EVENTS_ID_INCOMPAT
    if !crc || !ok then s.identFail hd
    else (s.paIssue (2 * hd) .identify (readFrame 0)).paIssue (2 * hd + 1) .identify (readFrame 0)

def execEepromReadDone (h : Half) (n : Nat) (bytes : List Byte) (s : State) : Host.Outcome State Fault Refusal :=
  .next (eepromReadDone h n bytes s)

/-- The identity page takes the image (R87, R88). -/
def State.copyIdentity (s : State) (hd : Nat) : State :=
  let bs := (s.port hd).identity
  (List.range 256).foldl (fun s i => s.setWord (grzB hd + 0x2000 + 4 * i) (BitVec.ofNat 32 (identRd bs (4 * i) 4))) s

/-- IDENTIFICATION (R85): a bus has confirmed PTYPE, or not. With both confirmed the port is IDENTIFIED and both
preamplifiers are put to sleep. -/
def State.identPtype (s : State) (ai : Nat) (good : Bool) : State :=
  let hd := actHda ai
  let b := grzB hd
  if s.portState hd != 2 then s
  else if !good then (s.flag b F.GRZ_EVENTS_ID_INCOMPAT).identFail hd
  else
    let s := s.setPa ai { s.pa ai with ptypeOk := true }
    if (s.pa (2 * hd)).ptypeOk && (s.pa (2 * hd + 1)).ptypeOk then
      let s := ((s.copyIdentity hd).put b F.GRZ_PORTSTAT_ID_VALID 1).setPortState hd 3
      (s.paIssue (2 * hd) .sleep (writeFrame 1 0)).paIssue (2 * hd + 1) .sleep (writeFrame 1 0)
    else s

/-! ### Frames that end (R79) -/

/-- FAULT of a preamplifier, with the level of its line (R82, R88): low while a bit other than FRAME is set. -/
def State.setFault (s : State) (ai v : Nat) : State :=
  let s := s.setPa ai { s.pa ai with regs := smPut 0 (s.pa ai).regs 3 v }
  s.putB (grzB (actHda ai)) ⟨F.GRZ_PORTSTAT_FLT.off, F.GRZ_PORTSTAT_FLT.lo + ai % 2, 1⟩ (v % 128 != 0)

/-- What a preamplifier holds at an address that the module alone writes, FAULT, and 0 at an undefined one (R81); none for PTYPE
and TEMP, which the HDA gives. -/
def State.paHeld (s : State) (ai a : Nat) : Option Nat :=
  if a == 0 || a == 4 then none else some (smGet 0 (s.pa ai).regs a)

/-- What an acknowledged write leaves in the preamplifier, and in GRZ_GRPSEL (R73, R81, R88). -/
def State.paApply (s : State) (ai : Nat) (f : BitVec 24) : State :=
  let a := frameAddr f
  let m := paMask a
  let d := frameData f &&& m
  let s := if m == 0 then s else s.setPa ai { s.pa ai with regs := smPut 0 (s.pa ai).regs a d }
  if a == 2 then
    let b := grzB (actHda ai)
    if ai % 2 == 0 then (s.put b F.GRZ_GRPSEL_A0_GROUP (d % 2)).put b F.GRZ_GRPSEL_A0_MASK (d / 16)
    else (s.put b F.GRZ_GRPSEL_A1_GROUP (d % 2)).put b F.GRZ_GRPSEL_A1_MASK (d / 16)
  else s

/-- A frame has succeeded, with the data of a read: what the preamplifier holds, or what the HDA gave. A read clears FAULT. -/
def State.frameOk (s : State) (ai : Nat) (f : BusFrame) (data : Nat) : State :=
  let hd := actHda ai
  let a := frameAddr f.bits
  let data := (s.paHeld ai a).getD data
  let s := if !frameRead f.bits then s.paApply ai f.bits
    else if a == 4 then s.calTemp ai (data % 256)
    else if a == 3 then s.setFault ai 0
    else s
  match f.owner with
  | .wick => s.setWick ai { s.wick ai with frameAns := some data }
  | .software => (if frameRead f.bits then s.put (grzB hd) F.GRZ_PARESP_DATA data else s).softDone ai false
  | .identify => s.identPtype ai (data % 256 == identRd (s.port hd).identity 0x66 1)
  | _ => s

/-- FRAME_ERR (R79): the repeat has failed too. -/
def State.frameFail (s : State) (ai : Nat) (f : BusFrame) : State :=
  let hd := actHda ai
  let s := s.flag (grzB hd) F.GRZ_EVENTS_FRAME_ERR
  let s := s.chimney (actHalf ai) 4 (hd % 4) 6 (ai % 2 + 2 * frameAddr f.bits)
  match f.owner with
  | .wick => s.wickAbort ai 3 .harnessFrame
  | .media => s.wickAbort ai 3 .harnessFrame
  | .software => s.softDone ai true
  | .identify => s.identPtype ai false
  | _ => s

/-- Whether a response is right (R77, R79): an acknowledged write, or a read with the right CRC. -/
def respOk (f : BitVec 24) : PaResp → Bool
  | .ack low => !frameRead f && low
  | .data v c => frameRead f && readCrc (f.extractLsb' 16 8) v == c

def respData : PaResp → Nat
  | .ack _ => 0
  | .data v _ => v.toNat

/-- The frame in progress on an actuator's bus ends with what the preamplifier returned (R79). A write frame not acknowledged sets FAULT.FRAME (R77). A frame is sent once more when R74, R90 and R404 let it. -/
def State.busFrameEnd (s : State) (h : Half) (u : Nat) (resp : PaResp) : State :=
  let ai := actId h u
  let hd := actHda ai
  match (s.pa ai).cur with
  | none => s
  | some f =>
    if frameAddr f.bits == 2 && s.frameHeld ai f.bits then s.busYield ai
    else if respOk f.bits resp then
      ((s.setPa ai { s.pa ai with cur := none }).frameOk ai f (respData resp)).paKick ai
    else
      let s := s.count (grzB hd) F.GRZ_FRMERR_COUNT h (564 + hd % 4) 1
      let s := if frameRead f.bits then s else s.setFault ai (smGet 0 (s.pa ai).regs 3 ||| 128)
      if !f.repeated then
        (s.setPa ai { s.pa ai with cur := none, queue := { f with repeated := true } :: (s.pa ai).queue }).paKick ai
      else ((s.setPa ai { s.pa ai with cur := none }).frameFail ai f).paKick ai

/-- A software frame for one preamplifier (R90): one not yet started takes the new bits. -/
def State.softFrame (s : State) (ai : Nat) (bits : BitVec 24) : State :=
  let p := s.pa ai
  let open_ := fun (f : BusFrame) => f.owner == .software && !f.repeated
  if p.queue.any open_ then
    s.setPa ai { p with queue := p.queue.map fun f => if open_ f then { f with bits := bits } else f }
  else s.paIssue ai .software bits

/-- PAGO (R90): FRAME goes to preamplifier 0, 1 or both, 0 first: that of actuator 1 starts once that of actuator 0 has ended.
DONE and FAILED are cleared. DESIGN CHOICE (log 160). -/
def pago (h : Half) (n : Nat) (act0 act1 : Bool) (s : State) : State :=
  let hd := hdaId h n
  let b := grzB hd
  let bits := BitVec.ofNat 24 (s.get b F.GRZ_PAFRAME_FRAME)
  if !act0 && !act1 then s
  else
    let s := (s.put b F.GRZ_PARESP_DONE 0).put b F.GRZ_PARESP_FAILED 0
    let s := if act0 && act1 then s.setPort hd { s.port hd with second := true } else s
    let s := if act0 then s.softFrame (2 * hd) bits else s
    if act1 then s.softFrame (2 * hd + 1) bits else s

def execPago (h : Half) (n : Nat) (act0 act1 : Bool) (s : State) : Host.Outcome State Fault Refusal :=
  .next (pago h n act0 act1 s)

/-! ### PORT_MODE, supplies, faults -/

/-- GRZ's busy indication (R89). -/
def State.grzBusy (s : State) (hd : Nat) : Bool :=
  [2 * hd, 2 * hd + 1].any fun ai => s.bit (fmtB ai) F.FMT_STAT_BUSY || (s.pa ai).cur.isSome

/-- The port leaves ATTACHED for a lower mode (R89): gates low, both operations end, loaded heads are retracted. -/
def State.portLower (s : State) (hd : Nat) : State :=
  let busy := s.grzBusy hd
  let s := s.harnessAbort hd .harnessOff
  let s := s.retractHda hd
  if busy then s.flag (grzB hd) F.GRZ_PORTSTAT_CFG_CHANGED else s

/-- PORT_MODE_WRITE (R87, R89). -/
def portModeWrite (h : Half) (n mode : Nat) (s : State) : State :=
  let hd := hdaId h n
  let st := s.portState hd
  let off := mode % 4 == 0 || mode % 4 == 3
  if off && (st == 3 || st == 4 || st == 5) then
    let s := if st == 4 then s.portLower hd
      else if s.grzBusy hd then (s.harnessAbort hd .harnessOff).flag (grzB hd) F.GRZ_PORTSTAT_CFG_CHANGED else s
    ((s.supplyOff hd).put (grzB hd) F.GRZ_PORTSTAT_ID_VALID 0).setPortState hd 5
  else if st == 4 && mode % 4 == 1 then (s.portLower hd).setPortState hd 3
  else if st == 5 && !off && s.seated hd then (s.supplyOn hd).setPortState hd 2
  else s

def execPortModeWrite (h : Half) (n mode : Nat) (s : State) : Host.Outcome State Fault Refusal :=
  .next (portModeWrite h n mode s)

/-- PREAMP_SUPPLY_OVERLOAD (R33): PA_5V, or PA_N3V when `neg`. -/
def preampSupplyOverload (h : Half) (n : Nat) (neg : Bool) (s : State) : State :=
  let hd := hdaId h n
  if !(s.port hd).supply then s
  else ((s.supplyOff hd).flag (grzB hd) F.GRZ_EVENTS_SUP_OVL).chimney h 4 n 11 (if neg then 1 else 0)

def execPreampSupplyOverload (h : Half) (n : Nat) (neg : Bool) (s : State) : Host.Outcome State Fault Refusal :=
  .next (preampSupplyOverload h n neg s)

/-- FAULT as the module reads it after the line has fallen: the bits met, with FRAME where a write frame has been discarded
(R81). A bit other than FRAME stays until a later reading shows it clear. -/
def State.readFault (s : State) (ai fault : Nat) : Nat × State :=
  (fault % 128 + smGet 0 (s.pa ai).regs 3 / 128 % 2 * 128, s.setFault ai (fault % 128))

def paFltLog (ai : Nat) : Fld := if ai % 2 == 0 then F.GRZ_PAFLTLOG_FAULT0 else F.GRZ_PAFLTLOG_FAULT1
def paFltEvent (ai : Nat) : Fld := if ai % 2 == 0 then F.GRZ_EVENTS_PA0_FAULT else F.GRZ_EVENTS_PA1_FAULT

/-- PREAMP_FAULT (R82): the line of an actuator falls, and FAULT is read with these bits. FRAME alone pulls no line. The
module's own two readings are taken within the command and its check, past the queue of R80.
DESIGN CHOICE (log 161). -/
def preampFault (h : Half) (u fault : Nat) (s : State) : State :=
  let ai := actId h u
  let hd := actHda ai
  if fault % 128 == 0 || !(s.port hd).supply then s
  else
    let s := (s.gatesLow ai).flag (grzB hd) (paFltEvent ai)
    let s := s.wickAbort ai 4 .preampFault
    let (v, s) := s.readFault ai fault
    let s := s.put (grzB hd) (paFltLog ai) v
    let s := s.setPa ai { s.pa ai with firstFault := v, persistDue := true }
    s.chimney h 4 (hd % 4) 7 (u % 2 + 2 * v)

def execPreampFault (h : Half) (u fault : Nat) (s : State) : Host.Outcome State Fault Refusal :=
  .next (preampFault h u fault s)

/-- PERSISTENT_FAULT_CHECK (R82): FAULT read again 10 µs later. A bit other than FRAME that is set in both readings puts
the preamplifier to sleep. -/
def persistentFaultCheck (h : Half) (u fault : Nat) (s : State) : State :=
  let ai := actId h u
  let hd := actHda ai
  let p := s.pa ai
  if !p.persistDue then s
  else
    let still := (fault &&& p.firstFault) % 128
    let s := s.setPa ai { p with persistDue := false }
    let (v, s) := s.readFault ai fault
    let s := s.put (grzB hd) (paFltLog ai) v
    if still == 0 then s
    else (s.paIssue ai .sleep (writeFrame 1 0)).chimney h 4 (hd % 4) 8 (u % 2 + 2 * v)

def execPersistentFaultCheck (h : Half) (u fault : Nat) (s : State) : Host.Outcome State Fault Refusal :=
  .next (persistentFaultCheck h u fault s)

end Sys2Proof.Machine
end

