-- ==== Sys2Proof/Machine/Band.lean ====
section
/-! DEFINITION. The formatter's decisions over a band: which sectors an operation covers, its passes (R133, R136), the
settling of stripe groups (R139, R140), grown defects (R143, R144), and what happens when a pass ends (R134, R148,
R152 to R158). -/

namespace Sys2Proof.Machine

/-! ### Units, heads and stripe positions -/

/-- The media unit of an actuator's group (R331). -/
def unitOf (ai group : Nat) : Nat := 4 * (ai / 2) + 2 * group + ai % 2

/-- Key of a sector of a media unit in STAGING, SEGMENT and PINNED. -/
def sectorKey (unit msa : Nat) : Nat := unit * 2 ^ 40 + msa

/-- The head of the actuator that holds stripe position i (R136). -/
def headOfPos (group i : Nat) : Nat := 4 * group + i % 4

/-- The index on its track at which stripe position i of stripe group k sits (R136). -/
def seatOf (ds : List Defect) (band group k i : Nat) : Nat :=
  seatIndex ds band (headOfPos group i) (homeIndex ds band (headOfPos group i) (usedPos k i))

/-- The MSA of data position i of a stripe group (R136). -/
def State.stripeMsa (s : State) (ai band group k i : Nat) : Nat :=
  bandFirstMsa (s.batRd ai) (s.defRd ai) group band + 60 * k + i

/-- Whether a head of an actuator has a verify reader (R76). -/
def State.verifyReader (s : State) (ai head : Nat) : Bool := (s.ident (actHda ai) 0x64 2).testBit (8 * (ai % 2) + head)

/-- Counter i of a head (R487). -/
def State.headCount (s : State) (ai head i n : Nat) : State :=
  s.bump48 (actHalf ai) (1024 + 32 * (ai % 8) + 4 * head + i) n

/-- Counter i of page 2 of a formatter and its mirror (R163, R487). -/
def State.fmtCount (s : State) (ai i n : Nat) : State :=
  s.count (fmtB ai) ⟨0x2000 + 4 * i, 0, 32⟩ (actHalf ai) (320 + 8 * (ai % 8) + i) n

/-! ### What an operation covers -/

/-- Whether an operation reads: a read, verify or system-band read, or the check of an entry of KIND 2. -/
def FmtOp.reads (op : FmtOp) : Bool :=
  match op.entry with
  | some e => e.kind == 2
  | none => op.req.kind == 0 || op.req.kind == 2 || op.req.kind == 5

/-- The stripe groups of an operation. -/
def FmtOp.stripes (op : FmtOp) : List Nat :=
  match op.entry with
  | some e => [e.stripe]
  | none => (List.range op.req.count).map (op.req.stripe + ·)

/-- The stripe positions of an operation in one of its stripe groups: all 64 (R137, R148), or those of an entry that is
rewritten or relocated. -/
def FmtOp.positions (op : FmtOp) : List Nat :=
  match op.entry with
  | some e => if e.kind == 2 then List.range 64 else (List.range 64).filter e.mask.testBit
  | none => List.range 64

/-- The sectors of an operation that have no result yet: still to be read, or still to be written. -/
def Fmt.wanted (f : Fmt) (op : FmtOp) : List (Nat × Nat) :=
  op.stripes.flatMap fun k => (op.positions.filter fun i => (smFind f.results (64 * k + i)).isNone).map fun i => (k, i)

/-- The next pass of an operation (R133): its number, its slot mask and the sectors it is to reach. -/
def nextPass (mode : Nat) (want : List (Nat × Nat)) : Option (Nat × Nat × List (Nat × Nat)) :=
  ((passMasks mode).zipIdx.map fun (m, p) => (p, m, want.filter fun x => m.testBit (x.2 % 4))).find? fun x =>
    !x.2.2.isEmpty

/-- First frame and number of frames of a pass: from the lowest index to the highest (R171). -/
def frameSpan (ns : List Nat) : Nat × Nat :=
  match ns with
  | [] => (0, 0)
  | n :: t => (t.foldl min n, t.foldl max n + 1 - t.foldl min n)

/-! ### GEN (R139, R148) -/

/-- The GEN that a write takes, and FMT_GEN after it: 0 acts as 1, and 0xFFFF is followed by 1 (R148, R160). -/
def State.takeGen (s : State) (ai : Nat) : Nat × State :=
  let g := min1 (s.get (fmtB ai) F.FMT_GEN_GEN)
  (g, s.put (fmtB ai) F.FMT_GEN_GEN (if g ≥ 0xFFFF then 1 else g + 1))

/-- The write of a frame of a write pass is announced: each stripe group whose first sector it holds takes its GEN
(R148). -/
def State.loadGens (s : State) (ai frame : Nat) : State :=
  match (s.fmt ai).op, (s.wick ai).desc with
  | some op, some d =>
    if op.req.kind != 1 || op.entry.isSome then s
    else
      let ks := ((passSectors (s.defects ai) d [frame]).map (·.1)).eraseDups.filter op.stripes.contains
      ks.foldl (fun s k =>
        match (s.fmt ai).op with
        | none => s
        | some op =>
          if (smFind op.gens k).isSome then s
          else
            let (g, s) := s.takeGen ai
            s.setFmt ai { s.fmt ai with op := some { op with gens := smInsert op.gens k g } }) s
  | _, _ => s

/-! ### Settling a stripe group (R139, R140) -/

/-- Whether a stripe group is torn, the GEN that most converged sectors hold, and its erased positions (R139). -/
def stripeState (res : SMap SecResult) (k : Nat) : Option Nat × List Nat :=
  let at_ := fun i => smFind res (64 * k + i)
  let conv := (List.range 64).filterMap fun i => (at_ i).bind fun r => if r.status < 8 then some r.gen else none
  let gens := conv.eraseDups
  let lead := gens.find? fun g => gens.all fun x => x == g || decide (conv.count x < conv.count g)
  (lead, (List.range 64).filter fun i => match at_ i with
    | none => true
    | some r => r.status ≥ 8 || (match lead with | some g => r.gen != g | none => false))

/-- The content of the 64 positions of a stripe group as read. -/
def stripeData (res : SMap SecResult) (k : Nat) : List Sector :=
  (List.range 64).map fun i => match smFind res (64 * k + i) with | some r => r.data | none => 0

/-- The results of a stripe group with its erased positions rebuilt (R140). -/
def rebuilt (res : SMap SecResult) (k gen : Nat) (erased : List Nat) : SMap SecResult :=
  let all := stripeRebuild (stripeData res k) erased
  erased.foldl (fun r i => smInsert r (64 * k + i) ⟨3, gen, all.getD i 0⟩) res

/-- SPARES_LOW and its message (R143). -/
def State.sparesLow (s : State) (ai band head : Nat) : State :=
  (s.flag (fmtB ai) F.FMT_EVENTS_SPARES_LOW).chimney (actHalf ai) 6 (ai % 8) 15 (band + head * 0x1000000)

/-- The free spare indices of a track: not used positions, not primary defects, not spares in use (R143). -/
def freeSpares (bat : Nat → Byte) (ds : List Defect) (band head : Nat) : List Nat :=
  let z := zoneOf bat band
  let skip := primaryOf ds band head
  (List.range (zS z)).filter fun n =>
    !skip.contains n && decide (n - (skip.filter (· < n)).length ≥ 16 * zG z) &&
      !ds.any fun d => d.grown && d.band == band && d.head == head && d.spare == n

/-- The spares that the sectors of a stripe group's positions take as they are relocated (R143, R144): each the lowest that is
free on its head's track and that none before it takes, while the table has room for an entry. -/
def State.relocPlan (s : State) (ai band group : Nat) (ps : List Nat) : List (Nat × Nat) :=
  let rd := s.defRd ai
  let ds := defEntries rd
  let bat := s.batRd ai
  let room := defCap rd - (defPrimary rd + defGrown rd)
  ps.foldl (fun plan i =>
    let head := headOfPos group i
    let taken := (plan.filter fun x => headOfPos group x.1 == head).map (·.2)
    match (freeSpares bat ds band head).find? (!taken.contains ·) with
    | some n => if plan.length < room then plan ++ [(i, n)] else plan
    | none => plan) []

/-- The set bits of a mask of stripe positions. -/
def maskBits (m : Nat) : List Nat := (List.range 64).filter m.testBit

/-- Order of the defect table (R144). -/
def defectBefore (a b : Defect) : Bool :=
  if a.band != b.band then a.band < b.band
  else if a.head != b.head then a.head < b.head
  else a.index < b.index

/-- Writing an actuator's defect table in its buffer memory: a grown entry is added in order (R144). -/
def State.addGrown (s : State) (ai : Nat) (d : Defect) : State :=
  let base := s.get (fmtB ai) F.FMT_DEFBASE_LO_ADDR + s.get (fmtB ai) F.FMT_DEFBASE_HI_ADDR * 0x100000000
  let rd := s.defRd ai
  let old := defEntries rd
  let lo := old.takeWhile fun x => !defectBefore d x
  let tail := d :: old.drop lo.length
  let s := s.bufStore (base + 8) (leBytes 4 (defGrown rd + 1))
  s.bufStore (base + 64 + 8 * lo.length) (tail.flatMap fun x => leBytes 8 (defBytes x))

/-- A sector that has become a grown defect (R143): with AUTO_RELOC an entry of KIND 3 for it, or, for want of a spare,
SPARES_LOW. -/
def State.grown (s : State) (ai band group k i cmd gen : Nat) : State :=
  if !s.bit (fmtB ai) F.FMT_CTL_AUTO_RELOC then s
  else if (s.relocPlan ai band group [i]).isEmpty then s.sparesLow ai band (headOfPos group i)
  else s.rwqAdd ai ⟨band, group, 3, 0, k, 2 ^ i, false, cmd, gen⟩ false

/-- The relocation of some sectors of an entry of KIND 3 that has been served, each at its spare (R143): a grown entry each,
RELOCATED, and the list to be written within 1 s. SPARES_LOW is reported also when the last free spare is taken. -/
def State.relocate (s : State) (ai band group k : Nat) (plan : List (Nat × Nat)) : State :=
  plan.foldl (fun s (i, n) =>
    let ds := s.defects ai
    let head := headOfPos group i
    let s := s.addGrown ai ⟨band, head, true, homeIndex ds band head (usedPos k i), n⟩
    let s := (s.flag (fmtB ai) F.FMT_EVENTS_RELOCATED).fmtCount ai 6 1
    let s := s.setFmt ai { s.fmt ai with grownDue := true }
    if (freeSpares (s.batRd ai) (s.defects ai) band head).isEmpty then s.sparesLow ai band head else s) s

/-- Key of a parity sector of a stripe group in STAGING. -/
def parityKey (unit msa j : Nat) : Nat := 4 * (unit * 2 ^ 40 + msa / 60) + j

/-- A sector of a stripe group held in STAGING, by its position: 60 to 63 are parity. -/
def State.stagedAt (s : State) (ai band group k i : Nat) : Option Sector :=
  let unit := unitOf ai group
  if i < 60 then smFind s.staging (sectorKey unit (s.stripeMsa ai band group k i))
  else smFind s.parity (parityKey unit (s.stripeMsa ai band group k 0) (i - 60))

/-- Rebuilt data held in STAGING while an entry needs it (R156, R335). What is staged there already is newer and stands (R6). -/
def State.holdData (s : State) (ai band group k : Nat) (data : List (Nat × Sector)) : State :=
  data.foldl (fun s (i, d) =>
    if (s.stagedAt ai band group k i).isSome then s
    else
      let unit := unitOf ai group
      if i < 60 then { s with staging := smInsert s.staging (sectorKey unit (s.stripeMsa ai band group k i)) d }
      else { s with parity := smInsert s.parity (parityKey unit (s.stripeMsa ai band group k 0) (i - 60)) d }) s

/-- The parity sectors of a stripe group, computed over its 60 staged data sectors (R138, R147). -/
def State.stageParity (s : State) (ai band group k : Nat) : State :=
  let unit := unitOf ai group
  let data := (List.range 60).map fun i => (s.stagedAt ai band group k i).getD 0
  let key := parityKey unit (s.stripeMsa ai band group k 0) 0
  { s with parity := (stripeParity data).zipIdx.foldl (fun m (p, j) => smInsert m (key + j) p) s.parity }

/-- A neighbour check that found a failing sector and has no entry writes the stripe group whole in the same operation, from its
staged data (R157). -/
def State.writeWhole (s : State) (ai : Nat) (op : FmtOp) : State :=
  let f := s.fmt ai
  let op := { op with req := { op.req with kind := 1 }, entry := none, pass := 0, retries := 0, gens := [], stuck := [] }
  s.setFmt ai { f with results := [], op := some op }

/-- Settling one stripe group of a reading operation (R139, R140, R143, R155): the answer is whether a retry revolution is
asked for, and the data positions lost where the stripe group ends in loss. -/
def State.settleStripe (s : State) (ai : Nat) (op : FmtOp) (k : Nat) : State × Bool × Option (List Nat) :=
  let b := fmtB ai
  let band := op.req.band
  let group := op.req.group
  let (lead, erased) := stripeState (s.fmt ai).results k
  let known := op.torn.contains k
  let s := if lead.isNone && !known then (s.flag b F.FMT_EVENTS_TORN).fmtCount ai 7 1 else s
  let op := if lead.isNone && !known then { op with torn := op.torn ++ [k] } else op
  -- erased in the first pass and in every retry so far
  let now := erased.map fun i => (k, i)
  let stuck := if op.retries = 0 then op.stuck ++ now
    else op.stuck.filter fun x => x.1 ≠ k || now.contains x
  let op := { op with stuck := stuck }
  let s := s.setFmt ai { s.fmt ai with op := some op }
  -- a verify read: what it finds erased becomes a verify failure (R155); a neighbour check: a rewrite (R152)
  let check := match op.entry with | some e => e.kind == 2 | none => op.req.kind == 2
  match lead with
  | some gen =>
    if erased.isEmpty then (s, false, none)
    else if erased.length ≤ 4 then
      let res := rebuilt (s.fmt ai).results k gen erased
      let s := s.setFmt ai { s.fmt ai with results := res }
      let s := (s.flag b F.FMT_EVENTS_REBUILT).fmtCount ai 0 (erased.filter (· < 60)).length
      let s := erased.foldl (fun s i => s.headCount ai (headOfPos group i) 2 1) s
      let grownNow := if op.retries = 0 then [] else erased.filter fun i => stuck.contains (k, i)
      let data := (stripeData res k).zipIdx.map fun (d, i) => (i, d)
      let s := if grownNow.isEmpty && !check then s
        else s.holdData ai band group k (data.filter fun x => op.direct || erased.contains x.1)
      let s := grownNow.foldl (fun s i => s.grown ai band group k i 0 gen) s
      let mask := erased.foldl (fun m i => m ||| 2 ^ i) 0
      let s := match op.entry with
        | some _ =>
          if !check then s
          else if op.direct then (s.stageParity ai band group k).writeWhole ai op
          else s.rwqAdd ai ⟨band, group, 0, 0, k, mask, false, op.src, gen⟩ false
        | none =>
          if check then
            let s := (s.flag b F.FMT_EVENTS_VERIFY_FAIL).fmtCount ai 4 erased.length
            let s := erased.foldl (fun s i => s.headCount ai (headOfPos group i) 3 1) s
            if op.req.attempts ≥ s.get b F.FMT_CTL_VFY_RETRY then
              if s.bit b F.FMT_CTL_AUTO_RELOC then erased.foldl (fun s i => s.grown ai band group k i op.src gen) s
              else (s.flag b F.FMT_EVENTS_WRITE_FAULT).setFmt ai { s.fmt ai with endAs := some .writeFault }
            else s.rwqAdd ai ⟨band, group, 1, op.req.attempts, k, mask, false, op.src, gen⟩ false
          else s
      (s, false, none)
    else moreThanFour s ai op k erased
  | none => moreThanFour s ai op k erased
where
  /-- More than four erased: a retry revolution, or the loss of the erased data sectors (R140). -/
  moreThanFour (s : State) (ai : Nat) (op : FmtOp) (k : Nat) (erased : List Nat) :
      State × Bool × Option (List Nat) :=
    let b := fmtB ai
    if op.retries < s.get b F.FMT_CTL_RD_RETRY then (s, true, none)
    else
      let lost := erased.filter (· < 60)
      let s := (s.flag b F.FMT_EVENTS_STRIPE_LOST).fmtCount ai 1 lost.length
      let s := s.chimney (actHalf ai) 6 (ai % 8) 14
        (op.req.band + op.req.group * 0x1000000 + k * 0x2000000)
      (s, false, some (lost.map (64 * k + ·)))

/-! ### Written frames -/

/-- The results of written sectors: each of the named sectors of the operation becomes written (R148). -/
def State.markWritten (s : State) (ai : Nat) (secs : List (Nat × Nat)) : State :=
  match (s.fmt ai).op with
  | none => s
  | some op =>
    let want := (s.fmt ai).wanted op
    let done := secs.filter want.contains
    let res := done.foldl (fun r (k, i) => smInsert r (64 * k + i) ⟨0, (smFind op.gens k).getD 0, 0⟩) (s.fmt ai).results
    let s := s.setFmt ai { s.fmt ai with results := res }
    done.foldl (fun s x => s.headCount ai (headOfPos op.req.group x.2) 1 1) s

/-! ### Release of staged data (R156, R336) -/

/-- Whether a write staged for a command waits to be handed to the formatter, or was handed and met WRITE_FAULT (R356). -/
def State.stagedWaits (s : State) (x : Nat × Nat × Nat × Nat) : Bool :=
  (s.hifs.any fun e => e.2.held.any fun c =>
    c.staged && !c.issued && c.result.isNone && c.stripes.contains x) ||
  s.buffered.any fun b => b.fault && b.groups.contains x

/-- Whether an entry, a spill mark, a write or an operation still needs the staged data of a stripe group (R156). A neighbour
check of other bands needs none. -/
def State.stripeHeld (s : State) (ai band group k : Nat) : Bool :=
  let f := s.fmt ai
  let names := fun (e : RwqEntry) => e.band == band && e.group == group && e.stripe == k && (e.kind != 2 || e.cmd != 0)
  let working := fun (op : FmtOp) => op.entry.any names ||
    (!op.reads && op.req.band == band && op.req.group == group && op.stripes.contains k)
  f.rwq.any names || f.relocWait.any names || f.op.any working || f.held.any (fun w => working w.op) ||
    f.spill.any (fun m => m.band == band && m.group == group && m.stripe == k) ||
    f.queue.any (fun r => (r.kind == 1 || r.kind == 2) && r.band == band && r.group == group &&
      decide (r.stripe ≤ k ∧ k < r.stripe + r.count)) ||
    s.stagedWaits (ai, group, band, k)

/-- The staged sectors of stripe groups that are on media and that nothing needs any more leave STAGING; copies in SEGMENT
and PINNED take their content (R336). -/
def State.stagingDrain (s : State) (ai band group : Nat) (ks : List Nat) : State :=
  ks.foldl (fun s k =>
    if s.stripeHeld ai band group k then s
    else
      let key := parityKey (unitOf ai group) (s.stripeMsa ai band group k 0) 0
      let s := { s with parity := smClear s.parity key (key + 4) }
      (List.range 60).foldl (fun s i =>
      let key := sectorKey (unitOf ai group) (s.stripeMsa ai band group k i)
      match smFind s.staging key with
      | none => s
      | some d =>
        { s with staging := smErase s.staging key,
                 segment := if (smFind s.segment key).isSome then smInsert s.segment key d else s.segment,
                 pinned := if (smFind s.pinned key).isSome then smInsert s.pinned key d else s.pinned }) s) s

/-! ### The end of a pass -/

/-- What the status of a POST ends an operation with (R175): nothing for OK and ERASURES, which the formatter settles
itself; reserved codes are ABORTED. -/
def postStatus (w : Wick) (code : Nat) : Option OpStatus :=
  if code ≤ 1 then none
  else if code == 2 then some .seekFail
  else if code == 4 then some .timeout
  else some w.abortStatus

/-- The data of a finished read goes to SEGMENT, or fills STAGING for the write behind it (R137, R148, R335). -/
def State.readDone (s : State) (ai : Nat) (op : FmtOp) (lost : List Nat) : State :=
  if op.req.kind != 0 then s
  else
    let res := (s.fmt ai).results
    op.stripes.foldl (fun s k => (List.range 60).foldl (fun s i =>
      match smFind res (64 * k + i) with
      | none => s
      | some r =>
        if lost.contains (64 * k + i) || r.status ≥ 8 then s
        else
          let key := sectorKey (unitOf ai op.req.group) (s.stripeMsa ai op.req.band op.req.group k i)
          if op.req.fill then
            if (smFind s.staging key).isSome then s else { s with staging := smInsert s.staging key r.data }
          else { s with segment := smInsert s.segment key r.data }) s) s

/-- A request that ends without an operation. -/
def State.endReq (s : State) (ai : Nat) (r : FmtReq) (st : OpStatus) (lost : List Nat) : State :=
  if r.cmd == 0 then s
  else { s with opDone := s.opDone ++ [⟨r.cmd, ai, r.kind, r.band, r.group, st, lost, true⟩] }

/-- The write that waits behind a read which could not supply its missing sectors ends with the read's status (R148). -/
def State.fillFailed (s : State) (ai : Nat) (st : OpStatus) (lost : List Nat) : State :=
  match (s.fmt ai).queue with
  | r :: q => if r.kind == 1 then (s.setFmt ai { s.fmt ai with queue := q }).endReq ai r st lost else s
  | [] => s

/-- A reading operation has read what it wanted: its stripe groups are settled (R140). A retry revolution rereads what is erased;
a check that writes its stripe group goes on as a write; otherwise the operation ends, with STRIPE_LOST where a stripe group kept
more than four erasures or stayed torn. -/
def State.readSettle (s : State) (ai : Nat) (op : FmtOp) : State :=
  let (s, again, lost) := op.stripes.foldl (fun (st : State × List Nat × List (List Nat)) k =>
    match (st.1.fmt ai).op with
    | none => st
    | some o =>
      let (s, r, l) := st.1.settleStripe ai o k
      (s, if r then st.2.1 ++ [k] else st.2.1, st.2.2 ++ l.toList)) (s, [], [])
  match (s.fmt ai).op with
  | none => s
  | some o =>
    if !o.reads then s
    else if !again.isEmpty then
      let f := s.fmt ai
      let res := again.foldl (fun res k =>
        (stripeState res k).2.foldl (fun r i => smErase r (64 * k + i)) res) f.results
      s.setFmt ai { f with op := some { o with retries := o.retries + 1, pass := 0 }, results := res }
    else
      let st := match (s.fmt ai).endAs with
        | some st => st
        | none => if lost.isEmpty then .ok else .stripeLost
      let lost := lost.flatten
      let s := s.readDone ai o lost
      let s := s.setFmt ai { s.fmt ai with op := some { o with entry := none } }
      let s := s.fmtEnd ai st lost
      let s := if o.req.fill && !(st == .ok || (st == .stripeLost && lost.isEmpty)) then s.fillFailed ai st lost else s
      if o.req.kind == 2 then s.stagingDrain ai o.req.band o.req.group o.stripes else s

/-- Whether a written operation is to be read back for its verify: asked for, with a head that has no verify reader
(R154, R155). -/
def State.laterVerify (s : State) (ai : Nat) (op : FmtOp) : Bool :=
  op.req.verify && (List.range 4).any fun h => !s.verifyReader ai (4 * op.req.group + h)

/-- The write that an operation was has ended well: marks of its stripe groups that it did not make itself are met, a verify that it asks for on a head
without a verify reader is queued (R155), staged data that nothing needs any more goes (R156, R157). -/
def State.writeDone (s : State) (ai : Nat) (op : FmtOp) : State :=
  let f := s.fmt ai
  let s := s.setFmt ai { f with spill := f.spill.filter fun m =>
    !(m.band == op.req.band && m.group == op.req.group && op.stripes.contains m.stripe &&
      (op.req.cmd == 0 || op.req.cmd != m.cmd)) }
  if s.laterVerify ai op then
    let f := s.fmt ai
    let s := s.setFmt ai { f with op := none, results := [], snuffed := false, cutting := false,
                                  queue := { op.req with kind := 2, verify := false } :: f.queue }
    (s.put (fmtB ai) F.FMT_STAT_STATE 0).put (fmtB ai) F.FMT_STAT_BUSY 0
  else (s.fmtEnd ai .ok []).stagingDrain ai op.req.band op.req.group op.stripes

/-- The service of an entry has ended a pass (R143, R152 to R155): what was not written makes an entry again, unless the
operation ends with WRITE_FAULT; a rewrite after a failed verify is verified again. -/
def State.entryDone (s : State) (ai : Nat) (op : FmtOp) (e : RwqEntry) : State :=
  let rest := (s.fmt ai).wanted op
  let isDone := fun i => !rest.contains (e.stripe, i)
  let s := if e.kind == 3 then
      s.relocate ai e.band e.group e.stripe ((s.relocPlan ai e.band e.group (maskBits e.mask)).filter fun x => isDone x.1)
    else s.fmtCount ai 5 (op.positions.filter isDone).length
  let s := s.setFmt ai { s.fmt ai with op := some { op with entry := none } }
  let faulted := (s.fmt ai).endAs == some .writeFault
  let s := if rest.isEmpty || faulted then s
    else s.rwqAdd ai { e with mask := rest.foldl (fun m x => m ||| 2 ^ x.2) 0, attempts := min (e.attempts + 1) 15 } false
  let again := e.kind == 1 && !faulted && op.positions.any fun i => !s.verifyReader ai (headOfPos e.group i)
  let s := if again then
      let f := s.fmt ai
      s.setFmt ai { f with queue := ⟨2, 0, e.group, e.band, e.stripe, 1, false, false, e.attempts + 1, e.cmd⟩ :: f.queue }
    else s
  let st := match (s.fmt ai).endAs with | some st => st | none => .ok
  (s.fmtEnd ai st []).stagingDrain ai e.band e.group [e.stripe]

/-- An operation that writes has ended a pass (R147, R152 to R157). A stripe group marked for a complete write is left to that
write (R157). -/
def State.writeSettle (s : State) (ai : Nat) (op : FmtOp) : State :=
  let f := s.fmt ai
  match op.entry with
  | some e => s.entryDone ai op e
  | none => match f.endAs with
    | some st => s.fmtEnd ai st []
    | none =>
      let marked := fun (k : Nat) => f.spill.any fun m =>
        m.band == op.req.band && m.group == op.req.group && m.stripe == k
      let rest := f.wanted op
      if f.cutting && rest.any (marked ·.1) then
        -- what is marked is not written by this operation any more
        let res := (rest.filter (marked ·.1)).foldl (fun r x => smInsert r (64 * x.1 + x.2) ⟨0, 0, 0⟩) f.results
        let s := s.setFmt ai { f with results := res, cutting := false, snuffed := false }
        if rest.all (marked ·.1) then s.fmtEnd ai .ok [] else s
      else if !rest.isEmpty then s.setFmt ai { f with cutting := false, snuffed := false }
      else s.writeDone ai op

/-- A band split takes effect at the end of the cut pass (R134): what was erased in the frames that were cut is read again, and
the band goes on in passes of the new mode. -/
def State.splitEnd (s : State) (ai : Nat) (op : FmtOp) (d : Desc) : State :=
  let f := s.fmt ai
  let drop := (passSectors (s.defects ai) d f.cut).filter fun (k, i) => match smFind f.results (64 * k + i) with
    | some r => op.reads && r.status ≥ 8
    | none => false
  let res := drop.foldl (fun r (k, i) => smErase r (64 * k + i)) f.results
  s.setFmt ai { f with results := res, splitting := false, cut := [], snuffed := false, cutting := false,
                       op := some { op with mode := s.bandMode ai op.req.band op.req.group } }

/-- A pass has been posted (R134, R140, R175): what ends the operation ends it; otherwise what the pass did not reach
counts as erased in a read, and is left for a later pass in a write. A pass that ended with RATE_RANGE is to be repeated
(R346). A read pass cut for want of an entry leaves the rest to a later one (R157). -/
def State.fmtPosted (s : State) (ai : Nat) (st : Option OpStatus) (d : Desc) : State :=
  let f := s.fmt ai
  match f.op with
  | none => s
  | some op =>
    if f.splitting then s.splitEnd ai op d
    else
      match st with
      | some .rateRange => s.setFmt ai { f with op := some { op with rangeWait := true } }
      | some st => s.fmtEnd ai st []
      | none =>
        let op := { op with rangeWait := false }
        let f := { f with op := some op }
        let s := s.setFmt ai f
        if d.kind ≥ 6 then s.fmtEnd ai .ok []
        else if op.reads then
          let missed := if f.cutting then [] else (f.wanted op).filter fun x => d.mask.testBit (x.2 % 4)
          let res := missed.foldl (fun r (k, i) => smInsert r (64 * k + i) ⟨8, 0, 0⟩) f.results
          let f := { f with results := res, cutting := false }
          let s := s.setFmt ai f
          if (f.wanted op).isEmpty then s.readSettle ai op else s
        else s.writeSettle ai op

end Sys2Proof.Machine
end

