-- ==== Sys2Proof/Machine/Wick.lean ====
section
/-! DEFINITION. The Wick sequencers (R165 to R182): microwords, fetch and patches, gates and edges, stalls, aborts, faults and
the end of an operation. -/

namespace Sys2Proof.Machine

/-! ### Registers of a Wick -/

/-- Working register i (R165). -/
def Wick.reg (w : Wick) (i : Nat) : Nat := (smGet 0 w.x i).toNat

/-- Writing a working register; arithmetic wraps modulo 2^24 (R165). -/
def Wick.setReg (w : Wick) (i v : Nat) : Wick := { w with x := smPut 0 w.x i (BitVec.ofNat 24 v) }

/-- Writing a working register by a word of the Z column (R168). -/
def Wick.setRegZ (w : Wick) (i v : Nat) : Wick := { w.setReg i v with z := v % 2 ^ 24 == 0 }

/-- STATE of WCK_STAT (R180). -/
abbrev wkIdle : Nat := 0
abbrev wkRun : Nat := 1
abbrev wkStall : Nat := 2
abbrev wkFaulted : Nat := 3

def State.wckState (s : State) (ai : Nat) : Nat := s.get (wckB ai) F.WCK_STAT_STATE
def State.wckPc (s : State) (ai : Nat) : Nat := s.get (wckB ai) F.WCK_STAT_PC

/-- Storing a Wick, with the stack depth that WCK_STAT shows. -/
def State.putWick (s : State) (ai : Nat) (w : Wick) : State :=
  (s.setWick ai w).put (wckB ai) F.WCK_STAT_DEPTH w.stack.length

/-- Whether a condition is true (R167). -/
def State.wickCond (s : State) (ai c : Nat) : Bool :=
  let w := s.wick ai
  match c with
  | 0 => true
  | 1 => w.z
  | 2 => !w.z
  | 3 => w.ers
  | 4 => s.bit (fmtB ai) F.FMT_STAT_SNUFFED
  | 5 => w.spl
  | 6 => w.abort.isSome
  | _ => false

/-! ### Trace (R485) -/

/-- The packet of an executed word, where TRACE was 1 as it began (R180). -/
def State.wickTrace (s : State) (ai pc word : Nat) (cond on : Bool) (stall : Nat) : State :=
  if !on then s
  else
    let w := s.wick ai
    s.trace (actHalf ai) 0x10 (ai % 8)
      (leBytes 2 (pc + bitNat cond * 0x8000) ++ leBytes 4 word ++ leBytes 2 (min stall 0xFFFF) ++
        leBytes 1 (bitNat w.z + 2 * w.stack.length))

/-! ### Faults (R173) -/

abbrev causeIllegal : Nat := 1
abbrev causeStackOver : Nat := 2
abbrev causeStackUnder : Nat := 3
abbrev causeBadAddr : Nat := 4
abbrev causeHalt : Nat := 5

/-- WICK_FAULT (R173): gates cleared, queues emptied, the operation ended, the cause recorded and reported, FAULTED. -/
def State.wickFault (s : State) (ai cause pc word : Nat) : State :=
  let b := wckB ai
  let s := s.gatesLow ai
  let s := s.putWick ai { s.wick ai with tags := [], edges := [], stall := .none, desc := none, abort := none,
                                         aborting := false, lastFrame := none, open_ := [], bad := [] }
  let s := (s.put b F.WCK_FAULT_CAUSE cause).put b F.WCK_FAULT_PC pc
  let s := (s.put b F.WCK_FAULTWORD_WORD word).flag b F.WCK_EVENTS_FAULT
  let s := s.chimney (actHalf ai) 7 (ai % 8) 12 (pc + cause * 0x8000)
  let s := (s.put b F.WCK_STAT_STATE wkFaulted).put b F.WCK_STAT_BUSY 0
  (s.paKick ai).fmtEnd ai .wickFault []

/-! ### Fetch (R166, R170) -/

/-- Patch RAM word of a Wick (R179). -/
def State.patchWord (s : State) (ai n : Nat) : Nat := (s.word (wckB ai + 0x2000 + 4 * n)).toNat

/-- The fetch from an address (R170): a match replaces it; from 0x6200 on nothing is implemented (R166). The word that
such a fetch records is not stated. DESIGN CHOICE (log 36). -/
def State.wickFetch (s : State) (ai addr : Nat) : State :=
  match s.patchMatch ai (addr % 0x8000) with
  | some t => s.put (wckB ai) F.WCK_STAT_PC (0x6000 + t)
  | none =>
    let a := addr % 0x8000
    let s := s.put (wckB ai) F.WCK_STAT_PC a
    if a ≥ 0x6200 then
      let (n, s) := s.takeFree
      s.wickFault ai causeBadAddr a (Config.freeNat n)
    else s

/-- The words of ROM that the spec gives: the reserved addresses, which hold HALT, and the read pass (R166).
DESIGN CHOICE (log 43). -/
def romWord (pc : Nat) : Option Nat :=
  if (2 ≤ pc ∧ pc ≤ 7) ∨ (0x10 ≤ pc ∧ pc ≤ 0x3F) then some 0xF8000000
  else if pc = 8 then some 0x08000400
  else if 0x400 ≤ pc ∧ pc ≤ 0x40C then
    [0x40200005, 0x40400006, 0x305FFFFF, 0x48040000, 0x50140000, 0x609E0000, 0x0900040A, 0x68040000, 0x30200001,
      0x20010407, 0x68440000, 0x70000000, 0xA0000000][pc - 0x400]?
  else none

/-- The word that a Wick executes as a given microword: in patch RAM, the word stored there if it says so; in ROM, the
microword's encoding if the words that the spec gives allow it. DESIGN CHOICE (log 42). -/
def State.wordAt (s : State) (ai pc cond : Nat) (m : Micro) : Option Nat :=
  if pc ≥ 0x6000 then
    let w := s.patchWord ai (pc - 0x6000)
    if microDecode w = (cond, m) then some w else none
  else
    let w := microEncode cond m
    match romWord pc with
    | some r => if r = w then some w else none
    | none => some w

/-! ### Gates and edges (R172) -/

/-- The servo wedge period in ns that times a Wick's symbols (R114, R172). -/
def State.wedgeNs (s : State) (ai : Nat) : Nat := s.get (srvB ai) F.SRV_WEDGE_PERIOD

/-- GATE_HOLD (R172): the Snuffer pass holds a write gate that would be high at the pins. DEDUCED (log 172). -/
def State.gateHold (s : State) (ai : Nat) : State :=
  let w := s.wick ai
  let f := s.fmt ai
  if w.wg && !w.blank && (!f.passed || f.snuffedNow) then s.flag (wckB ai) F.WCK_EVENTS_GATE_HOLD else s

/-- VERIFY is left once the write gate is low and every written sector is verified (R112). -/
def State.verifyLeave (s : State) (ci : Nat) : State :=
  let w := s.wick (chAct ci)
  if s.chState ci == csVerify && (!w.wg || (s.fmt (chAct ci)).snuffed) && !(w.open_.any fun o => o.2.testBit (chSlot ci)) then s.setChState ci csIdle else s

/-- The channels of an actuator as its write gate may have fallen. -/
def State.verifyLeaves (s : State) (ai : Nat) : State := (List.range 4).foldl (fun s k => s.verifyLeave (4 * ai + k)) s

/-- A gate state is applied at its position of the current wedge (R151, R172). -/
def State.applyEdge (s : State) (ai : Nat) (e : EdgeEntry) : State :=
  let w := s.wick ai
  let s := s.setWick ai (w.gates (s.posOf ai ⟨w.wedge, e.pos⟩) e.wg e.rg)
  (((s.gateHold ai).verifyLeaves ai).busYield ai).paKick ai

/-- Whether an edge is past, or closer than 8 Wick cycles of 2 ns (R172). -/
def edgeLate (pos now nw period : Nat) : Bool := decide (pos ≤ now) || decide ((pos - now) * period < 16 * nw)

/-- An edge is scheduled, or applied at once when it is late (R172). -/
def State.schedule (s : State) (ai now : Nat) (e : EdgeEntry) : State :=
  let w := s.wick ai
  let nw := match w.desc with | some d => d.nw | none => 0
  if edgeLate e.pos now nw (s.wedgeNs ai) then (s.applyEdge ai e).flag (wckB ai) F.WCK_EVENTS_LATE_EDGE
  else s.setWick ai { w with edges := w.edges ++ [e] }

/-- The gates fall at the end of a frame announced with LAST: the state that WRITE selects is cleared (R172). -/
def State.lastEnds (s : State) (ai : Nat) (t : TagEntry) : State :=
  let w := s.wick ai
  let pos := match w.desc with | some d => frameEnd d.zone t.frame | none => 0
  let w := if t.write then w.gates pos false w.rg else w.gates pos w.wg 0
  ((s.setWick ai { w with lastFrame := none }).verifyLeaves ai).paKick ai

/-! ### Frames announced (R168, R172) -/

/-- The channels of an actuator that are enabled, as a slot mask (R91). -/
def State.slotsOn (s : State) (ai : Nat) : Nat :=
  (List.range 4).foldl (fun m k =>
    if s.bit (B.rch (actHalf ai) (4 * (ai % 8) + k)) F.RCH_CTL_EN then m ||| 2 ^ k else m) 0

/-- The result of one slot of a frame reaches Wick and the formatter (R118, R168). -/
def State.slotReport (s : State) (ai frame slot : Nat) (r : SecResult) : State :=
  let w := s.wick ai
  let left := smGet 0 w.open_ frame
  let left := if left.testBit slot then left - 2 ^ slot else left
  let bad := w.bad.filter (· ≠ (frame, slot))
  let bad := if r.status ≥ 8 then bad ++ [(frame, slot)] else bad
  let s := s.setWick ai { w with open_ := smPut 0 w.open_ frame left, bad := bad }
  match (s.fmt ai).op, w.desc with
  | some op, some d =>
    if !op.reads then s
    else match stripeOf (s.defects ai) (zG d.zone) d.band d.group slot frame with
      | none => s
      | some (k, i) =>
        if op.stripes.contains k then
          s.setFmt ai { s.fmt ai with results := smInsert (s.fmt ai).results (64 * k + i) r }
        else s
  | _, _ => s

/-- The frame that an announcement made at a position applies to: the next one whose window closes after it (R172). -/
def frameCaught (z pos : Nat) : Nat → Nat → Nat
  | 0, n => n
  | fuel + 1, n => if windowClosed z n pos then frameCaught z pos fuel (n + 1) else n

/-- A frame enters the tag queue (R168, R172). In a pass that ends at a frame boundary nothing more is written (R157). -/
def State.announce (s : State) (ai : Nat) (t : TagEntry) (at_ : Place) : State :=
  match (s.wick ai).desc with
  | none => s
  | some d =>
    let n := frameCaught d.zone (s.posOf ai at_) (zS d.zone) t.frame
    let s := if n == t.frame then s
      else (maskSlots d.mask).foldl (fun s k => s.slotReport ai t.frame k ⟨0xA, 0, 0⟩)
        (s.flag (wckB ai) F.WCK_EVENTS_SECT_LATE)
    let w := s.wick ai
    let on := if t.write then d.mask else d.mask &&& s.slotsOn ai
    let t := { t with frame := n, taken := 15 - d.mask % 16 ||| (if t.write then 0 else 15 - s.slotsOn ai) }
    if t.write && (s.fmt ai).cutting then s
    else
      let s := s.setWick ai { w with tags := w.tags ++ [t], open_ := smPut 0 w.open_ n on,
                                     writes := if t.write then w.writes ++ [n] else w.writes,
                                     lastFrame := if t.last then some t else w.lastFrame }
      if t.write then s.loadGens ai n else s

/-- The sector that a write at a frame of a slot is for: stripe group, position, and whether it sits at a spare; in the service
of a relocation, the sector that takes the spare (R136, R143). -/
def State.writtenSector (s : State) (ai : Nat) (d : Desc) (slot frame : Nat) : Option (Nat × Nat × Bool) :=
  let ds := s.defects ai
  let plain := (stripeOf ds (zG d.zone) d.band d.group slot frame).map fun (k, i) =>
    let head := 4 * d.group + slot
    (k, i, relocated ds d.band head (homeIndex ds d.band head (usedPos k i)))
  match (s.fmt ai).op.bind (·.entry) with
  | some e =>
    if e.kind == 3 then
      ((s.relocPlan ai e.band e.group (maskBits e.mask)).find? fun x => x.2 == frame && x.1 % 4 == slot).map fun x =>
        (e.stripe, x.1, true)
    else plain
  | none => plain

/-- The tag bytes of a stripe position (R130). -/
def State.sectorTag (s : State) (ai : Nat) (d : Desc) (k i : Nat) (spare : Bool) (gen : Nat) : List Byte :=
  let head := headOfPos d.group i
  tagBytes d.band head (ai % 2) (tagKind d.band i spare) (homeIndex (s.defects ai) d.band head (usedPos k i)) gen

/-- A sector of the operation goes out on its slot (R96, R97): its staged data, with the GEN of its stripe group or entry (R139,
R152). -/
def State.noteWrite (s : State) (ai : Nat) (d : Desc) (slot frame : Nat) (x : Nat × Nat × Bool) : State :=
  let (k, i, spare) := x
  match (s.fmt ai).op with
  | none => s
  | some op =>
    let gen := match op.entry with | some e => e.gen | none => (smFind op.gens k).getD 0
    let data := (s.stagedAt ai d.band d.group k i).getD 0
    let ci := 4 * ai + slot
    s.setRch ci { s.rch ci with
      wrote := some ⟨frame, (framePos d.zone frame).split, s.sectorTag ai d k i spare gen, data, op.ues.contains (k, i)⟩ }

/-- Frames that go out at a place settle as written, but for slots whose channel verifies behind the write (R111, R168); of a pass
that Snuffer has cut, the frames whose window had not closed are left for a later one (R152). DEDUCED (log 39). -/
def State.settleWrites (s : State) (ai : Nat) (at_ : Place) : State :=
  let w := s.wick ai
  match w.desc with
  | none => s
  | some d =>
    let cut := (s.fmt ai).snuffed
    let left := if cut then (w.tags.filter (·.write)).map (·.frame) else []
    let out := w.writes.filter fun n => !left.contains n && (cut || passedBy d.zone (frameEnd d.zone n) (s.posOf ai at_))
    let verify := fun k => s.chState (4 * ai + k) == csVerify
    let keep := (List.range 4).foldl (fun m k => if verify k then m ||| 2 ^ k else m) 0
    let rest := w.open_.filterMap fun e =>
      if left.contains e.1 then none
      else if !out.contains e.1 then some e
      else if e.2 &&& keep == 0 then none else some (e.1, e.2 &&& keep)
    let s := s.setWick ai { w with tags := w.tags.filter (fun t => !left.contains t.frame || !t.write), open_ := rest,
                                   writes := w.writes.filter fun n => !left.contains n && !out.contains n }
    let want := match (s.fmt ai).op with | some op => (s.fmt ai).wanted op | none => []
    let secs := out.flatMap fun n => (maskSlots d.mask).filterMap fun k =>
      ((s.writtenSector ai d k n).filter fun x => want.contains (x.1, x.2.1)).map fun x => (k, n, x)
    let s := secs.foldl (fun s e => s.noteWrite ai d e.1 e.2.1 e.2.2) s
    s.markWritten ai (secs.map fun e => (e.2.2.1, e.2.2.2.1))

/-- Every announced frame settled on every slot of the pass (R168). -/
def State.allSettled (s : State) (ai : Nat) : Bool := (s.wick ai).open_.isEmpty

/-! ### The end of an operation (R175) -/

/-- POST takes effect: the operation is counted, Wick goes to the idle vector and the formatter takes the status. -/
def State.wickPost (s : State) (ai code : Nat) : State :=
  let w := s.wick ai
  match w.desc with
  | none => s.idleVector ai
  | some d =>
    let st := postStatus w code
    let s := s.count (wckB ai) F.WCK_OPCNT_COUNT (actHalf ai) (576 + ai % 8) 1
    ((s.wickIdle ai).paKick ai).fmtPosted ai st d

/-- A new operation: everything that R165 names cleared, BUSY, and the vector of its KIND fetched (R165, R171). -/
def State.wickStart (s : State) (ai : Nat) (d : Desc) : State :=
  let b := wckB ai
  let s := s.putWick ai { (s.wick ai).cleared with desc := some d, abortStatus := .aborted }
  let s := (s.put b F.WCK_STAT_STATE wkRun).put b F.WCK_STAT_BUSY 1
  s.wickFetch ai (8 + d.kind)

/-! ### Execution of a word -/

/-- A word ends: its trace packet, and the fetch of the next (R170, R485). -/
def State.wordEnd (s : State) (ai word : Nat) (cond : Bool) (stall next : Nat) : State :=
  (s.wickTrace ai (s.wckPc ai) word cond (s.bit (wckB ai) F.WCK_CTL_TRACE) stall).wickFetch ai next

/-- A word stalls. -/
def State.wordStall (s : State) (ai word : Nat) (st : Stall) : State :=
  (s.setWick ai { s.wick ai with stall := st, word := BitVec.ofNat 32 word,
                                 traced := s.bit (wckB ai) F.WCK_CTL_TRACE }).put (wckB ai) F.WCK_STAT_STATE wkStall

/-- Descriptor field of LDOP (R171); fields 11 to 15 read 0. -/
def descField (d : Desc) (n : Nat) : Nat :=
  [d.kind, d.band, d.zone, d.group, d.mask, d.first, d.count, d.kout, d.nw, d.pass, d.optag].getD n 0

/-- ALU (R168). -/
def aluFn (fn a b : Nat) : Nat :=
  if fn = 0 then b else if fn = 1 then a + b else if fn = 2 then a + 2 ^ 24 - b else a &&& b

/-- LOC (R168): frame XS of the zone on the operation's band. For an index that the zone has not, the spec places no frame:
X4 to X6 take values it does not state. DESIGN CHOICE (log 37). -/
def State.microLoc (s : State) (ai xs : Nat) : State :=
  let w := s.wick ai
  match w.desc with
  | none => s
  | some d =>
    let n := w.reg xs
    if n < zS d.zone then
      let f := framePos d.zone n
      let x5 := (f.wedge + d.band * batSkew (s.batRd ai)) % 512
      s.setWick ai { ((w.setReg 5 x5).setReg 6 f.start).setReg 4 f.split with spl := f.split != 0 }
    else
      let v := Config.freeNat s.free
      { s with free := s.free + 3 }.setWick ai
        { ((w.setReg 5 v).setReg 6 (Config.freeNat (s.free + 1))).setReg 4 (Config.freeNat (s.free + 2)) with
          spl := Config.freeNat (s.free + 2) % 2 ^ 24 != 0 }

/-- The readers that a recovery variant uses (R110): 2 reader 0, 3 reader 1, else the joint pair; 6 to 15 act as 0. -/
def recReaders (variant : Nat) : Nat := if variant == 2 then 1 else if variant == 3 then 2 else 0

/-- A round of a recovery decode begins (R110): RCH_RECPROF names its variant. The decoder's extrinsic information is fed back
when the readers are those of the round before. -/
def State.recRound (s : State) (ci : Nat) (x : ChSector) (round : Nat) : ChSector :=
  let v := s.get (chB ci) ⟨F.RCH_RECPROF_ROUND1.off, 4 * (round % 4), 4⟩
  let v := if v ≥ 6 then 0 else v
  { x with phase := 4, round := round, variant := v, feedback := round != 0 && recReaders v == recReaders x.variant }

/-- RECOV (R110, R168): the channels that keep an erased sector of the frame begin a recovery decode. -/
def State.askRecovery (s : State) (ai frame : Nat) : State :=
  (List.range 4).foldl (fun s k =>
    if (s.wick ai).bad.contains (frame, k) then
      let ci := 4 * ai + k
      let c := s.rch ci
      let secs := c.secs.map fun x =>
        if x.frame == some frame && x.inMem && x.phase == 5 && decide (x.status ≥ 8) then s.recRound ci x 0
        else x
      s.setRch ci { c with secs := secs }
    else s) s

/-- Recovery decodes of a frame that still run. -/
def State.recovering (s : State) (ai frame : Nat) : Bool :=
  (List.range 4).any fun k => (s.rch (4 * ai + k)).secs.any fun x => x.frame == some frame && x.phase == 4

/-- ERS as WCH and RECOV set it (R165, R168). -/
def State.setErs (s : State) (ai : Nat) : State :=
  s.setWick ai { s.wick ai with ers := !(s.wick ai).bad.isEmpty }

/-- A frame of FRM or FRMX goes to the preamplifier (R168). -/
def State.wickFrame (s : State) (ai : Nat) (bits : BitVec 24) : State :=
  (s.setWick ai { s.wick ai with frameAns := none }).paIssue ai .wick bits

/-- An executed word whose condition is true (R168), at a place of the rotation. DESIGN CHOICE (log 33). -/
def State.microExec (s : State) (ai word : Nat) (m : Micro) (at_ : Place) : State :=
  let w := s.wick ai
  let pc := s.wckPc ai
  let done := fun (s : State) => s.wordEnd ai word true 0 (pc + 1)
  let upd := fun (w : Wick) => done (s.putWick ai w)
  match m with
  | .nop => done s
  | .jmp t => s.wordEnd ai word true 0 t
  | .call t =>
    if w.stack.length ≥ 8 then s.wickFault ai causeStackOver pc word
    else (s.putWick ai { w with stack := (pc + 1) % 0x8000 :: w.stack }).wordEnd ai word true 0 t
  | .ret =>
    match w.stack with
    | [] => s.wickFault ai causeStackUnder pc word
    | a :: st => (s.putWick ai { w with stack := st }).wordEnd ai word true 0 a
  | .loop xd t =>
    let v := (w.reg xd + 2 ^ 24 - 1) % 2 ^ 24
    (s.putWick ai (w.setRegZ xd v)).wordEnd ai word true 0 (if v = 0 then pc + 1 else t)
  | .ldi xd imm => upd (w.setRegZ xd imm)
  | .addi xd imm => upd (w.setRegZ xd (w.reg xd + (if imm ≥ 2 ^ 20 then imm + (2 ^ 24 - 2 ^ 21) else imm)))
  | .alu xd xs fn => upd (w.setRegZ xd (aluFn fn (w.reg xd) (w.reg xs)))
  | .ldop xd n => match w.desc with
    | some d => upd (w.setRegZ xd (descField d n))
    | none => done s
  | .loc xs => done (s.microLoc ai xs)
  | .wwed xs => s.wordStall ai word (.wwed (w.reg xs % 512))
  | .wsym base pos =>
    let p := pos + (if base then w.reg 6 else 0)
    if at_.sym ≥ p then done s else s.wordStall ai word (.wsym p)
  | .edge base wg rg pos =>
    let e : EdgeEntry := ⟨wg, rg, pos + (if base then w.reg 6 else 0)⟩
    if w.edges.length ≥ 4 then s.wordStall ai word (.edge e) else done (s.schedule ai at_.sym e)
  | .sect last write xs =>
    let t : TagEntry := ⟨w.reg xs, write, last, 0⟩
    if w.tags.length ≥ 4 then s.wordStall ai word (.sect t) else done (s.announce ai t at_)
  | .wch =>
    let s := s.settleWrites ai at_
    if s.allSettled ai then done (s.setErs ai) else s.wordStall ai word .wch
  | .recov xs =>
    let n := w.reg xs
    let s := s.askRecovery ai n
    if s.recovering ai n then s.wordStall ai word (.recov n) else (s.setErs ai).wordEnd ai word true 0 (pc + 1)
  | .frm f => (s.wickFrame ai (BitVec.ofNat 24 f)).wordStall ai word .frame
  | .frmx rw addr xs =>
    let f := if rw then readFrame addr else writeFrame addr (w.reg xs)
    (s.wickFrame ai f).wordStall ai word (if rw then .frameRead xs else .frame)
  | .seek xs kind =>
    let k := if kind = 3 then 0 else kind
    ((s.setWick ai { w with seekAns := none }).servoSeek ai k (w.reg xs)).wordStall ai word .seek
  | .wcond t => s.wordStall ai word (.wcond (min1 t))
  | .post st =>
    let s := s.settleWrites ai at_
    if s.allSettled ai then (s.wickTrace ai pc word true (s.bit (wckB ai) F.WCK_CTL_TRACE) 0).wickPost ai st
    else s.wordStall ai word (.post st)
  | .evt code => done { s with coreriEvents := s.coreriEvents ++ [(ai, code % 0x10000)] }
  | .illegal _ _ => s.wickFault ai causeIllegal pc word
  | .halt => s.wickFault ai causeHalt pc word

/-- WCOND at issue (R169): its condition true, it continues at once with Z = 0; otherwise it stalls. -/
def State.wcondIssue (s : State) (ai word cond timeout : Nat) : State :=
  if s.wickCond ai cond then
    (s.setWick ai { s.wick ai with z := false }).wordEnd ai word true 0 (s.wckPc ai + 1)
  else
    let s := s.setWick ai { s.wick ai with stallCycles := min1 timeout }
    s.wordStall ai word (.wcond cond)

/-- A Wick takes note of the place of the rotation: position K(z) and beyond is past the keep-out (R172). -/
def State.atPlace (s : State) (ai : Nat) (at_ : Place) : State :=
  let w := s.wick ai
  let blank := match w.desc with
    | some d => if at_ == s.lastPlace ai then w.blank else decide (at_.sym < zK d.zone) || (s.pa ai).sg
    | none => w.blank
  (s.setWick ai { w with wedge := at_.wedge, sym := at_.sym, blank := blank }).windowsClose ai at_

/-- One microword command: the word at PC is executed if the Wick runs, or is at its idle vector (R166), and the word there can
be it. A word whose condition is false acts as NOP (R167). -/
def State.microRow (s : State) (ai cond : Nat) (m : Micro) (at_ : Place) : State :=
  let pc := s.wckPc ai
  if !(s.wckState ai == wkRun || s.wckState ai == wkIdle) || !s.wckUp ai then s
  else
    match s.wordAt ai pc cond m with
    | none => s
    | some word =>
      let s := s.atPlace ai at_
      match m with
      | .wcond t => s.wcondIssue ai word cond t
      | _ =>
        if s.wickCond ai cond then s.microExec ai word m at_
        else s.wordEnd ai word false 0 (pc + 1)

/-- A microword that does not look at the place of the rotation. -/
def State.microHere (s : State) (h : Half) (u cond : Nat) (m : Micro) : State :=
  s.microRow (actId h u) cond m (s.lastPlace (actId h u))

def execNop (h : Half) (u cond : Nat) (s : State) : Host.Outcome State Fault Refusal :=
  .next (s.microHere h u cond .nop)
def execJmp (h : Half) (u cond target : Nat) (s : State) : Host.Outcome State Fault Refusal :=
  .next (s.microHere h u cond (.jmp target))
def execCall (h : Half) (u cond target : Nat) (s : State) : Host.Outcome State Fault Refusal :=
  .next (s.microHere h u cond (.call target))
def execRet (h : Half) (u cond : Nat) (s : State) : Host.Outcome State Fault Refusal :=
  .next (s.microHere h u cond .ret)
def execLoop (h : Half) (u cond xd target : Nat) (s : State) : Host.Outcome State Fault Refusal :=
  .next (s.microHere h u cond (.loop xd target))
def execLdi (h : Half) (u cond xd imm : Nat) (s : State) : Host.Outcome State Fault Refusal :=
  .next (s.microHere h u cond (.ldi xd imm))
def execAddi (h : Half) (u cond xd imm : Nat) (s : State) : Host.Outcome State Fault Refusal :=
  .next (s.microHere h u cond (.addi xd imm))
def execAlu (h : Half) (u cond xd xs fn : Nat) (s : State) : Host.Outcome State Fault Refusal :=
  .next (s.microHere h u cond (.alu xd xs fn))
def execLdop (h : Half) (u cond xd fld : Nat) (s : State) : Host.Outcome State Fault Refusal :=
  .next (s.microHere h u cond (.ldop xd fld))
def execLoc (h : Half) (u cond xs : Nat) (s : State) : Host.Outcome State Fault Refusal :=
  .next (s.microHere h u cond (.loc xs))
def execWwed (h : Half) (u cond xs : Nat) (s : State) : Host.Outcome State Fault Refusal :=
  .next (s.microHere h u cond (.wwed xs))
def execWsym (h : Half) (u cond : Nat) (base : Bool) (pos : Nat) (at_ : Place) (s : State) :
    Host.Outcome State Fault Refusal := .next (s.microRow (actId h u) cond (.wsym base pos) at_)
def execEdge (h : Half) (u cond : Nat) (base wg : Bool) (rg pos : Nat) (at_ : Place) (s : State) :
    Host.Outcome State Fault Refusal := .next (s.microRow (actId h u) cond (.edge base wg rg pos) at_)
def execSect (h : Half) (u cond : Nat) (last write : Bool) (xs : Nat) (at_ : Place) (s : State) :
    Host.Outcome State Fault Refusal := .next (s.microRow (actId h u) cond (.sect last write xs) at_)
def execWch (h : Half) (u cond : Nat) (s : State) : Host.Outcome State Fault Refusal :=
  .next (s.microHere h u cond .wch)
def execRecov (h : Half) (u cond xs : Nat) (s : State) : Host.Outcome State Fault Refusal :=
  .next (s.microHere h u cond (.recov xs))
def execFrm (h : Half) (u cond frame : Nat) (s : State) : Host.Outcome State Fault Refusal :=
  .next (s.microHere h u cond (.frm frame))
def execFrmx (h : Half) (u cond : Nat) (rw : Bool) (addr xs : Nat) (s : State) : Host.Outcome State Fault Refusal :=
  .next (s.microHere h u cond (.frmx rw addr xs))
def execSeek (h : Half) (u cond xs kind : Nat) (s : State) : Host.Outcome State Fault Refusal :=
  .next (s.microHere h u cond (.seek xs kind))
def execWcond (h : Half) (u cond timeout : Nat) (s : State) : Host.Outcome State Fault Refusal :=
  .next (s.microHere h u cond (.wcond timeout))
def execPost (h : Half) (u cond status : Nat) (s : State) : Host.Outcome State Fault Refusal :=
  .next (s.microHere h u cond (.post status))
def execEvt (h : Half) (u cond code : Nat) (s : State) : Host.Outcome State Fault Refusal :=
  .next (s.microHere h u cond (.evt code))
def execHalt (h : Half) (u cond : Nat) (s : State) : Host.Outcome State Fault Refusal :=
  .next (s.microHere h u cond .halt)
/-- ILLEGAL: a reserved OPCODE, 0x16 to 0x1E, with its OPERAND. -/
def execIllegal (h : Half) (u cond op operand : Nat) (s : State) : Host.Outcome State Fault Refusal :=
  .next (if 0x16 ≤ op && op ≤ 0x1E then s.microHere h u cond (.illegal op operand) else s)

/-! ### Stalls -/

/-- The stalled word ends, and execution continues (R168). -/
def State.unstall (s : State) (ai cycles : Nat) : State :=
  let w := s.wick ai
  let s := (s.setWick ai { w with stall := .none }).put (wckB ai) F.WCK_STAT_STATE (if w.desc.isSome then wkRun else wkIdle)
  (s.wickTrace ai (s.wckPc ai) w.word.toNat true w.traced cycles).wickFetch ai (s.wckPc ai + 1)

/-- What a stalled word waits for has come, at a place of the rotation (R168): the state in which it ends, if so. -/
def State.stallOver (s : State) (ai : Nat) (at_ : Place) : Option State :=
  let w := s.wick ai
  match w.stall with
  | .none => none
  | .wwed n => if at_.wedge == n && at_.sym == 0 then some s else none
  | .wsym p => if at_.sym ≥ p then some s else none
  | .edge e => if w.edges.length < 4 then some (s.schedule ai at_.sym e) else none
  | .sect t => if w.tags.length < 4 then some (s.announce ai t at_) else none
  | .wch =>
    let s := s.settleWrites ai at_
    if s.allSettled ai then some (s.setErs ai) else none
  | .recov n => if s.recovering ai n then none else some (s.setErs ai)
  | .frame => if w.frameAns.isSome then some s else none
  | .frameRead xs => w.frameAns.map fun v => s.setWick ai (w.setReg xs (v % 0x10000))
  | .seek => w.seekAns.map fun z => s.setWick ai { w with z := z, seekAns := none }
  | .wcond c => if s.wickCond ai c then some (s.setWick ai { w with z := false }) else none
  | .post _ =>
    let s := s.settleWrites ai at_
    if s.allSettled ai then some s else none

/-- STALL_RELEASE (R168). -/
def stallRelease (h : Half) (u cycles : Nat) (at_ : Place) (s : State) : State :=
  let ai := actId h u
  if s.wckState ai != wkStall || !s.wckUp ai then s
  else
    let s0 := s.atPlace ai at_
    match s0.stallOver ai at_ with
    | none => s0
    | some t =>
      match (s0.wick ai).stall with
      | .post st =>
        let pc := t.wckPc ai
        let word := (t.wick ai).word.toNat
        (t.wickTrace ai pc word true (t.wick ai).traced cycles).wickPost ai st
      | _ => t.unstall ai cycles

def execStallRelease (h : Half) (u cycles : Nat) (at_ : Place) (s : State) : Host.Outcome State Fault Refusal :=
  .next (stallRelease h u cycles at_ s)

/-- WCOND_TIMEOUT (R169): the TIMEOUT cycles have passed first. The condition wins in the same cycle. -/
def wcondTimeout (h : Half) (u : Nat) (s : State) : State :=
  let ai := actId h u
  let w := s.wick ai
  match w.stall with
  | .wcond c =>
    if s.wckState ai != wkStall then s
    else if s.wickCond ai c then (s.setWick ai { w with z := false }).unstall ai w.stallCycles
    else (s.setWick ai { w with z := true }).unstall ai w.stallCycles
  | _ => s

def execWcondTimeout (h : Half) (u : Nat) (s : State) : Host.Outcome State Fault Refusal := .next (wcondTimeout h u s)

/-- The keep-out of a wedge begins (R151, R172): the gates are blanked, and no write gate rises before Snuffer has passed the
wedge. -/
def State.keepOut (s : State) (ai : Nat) : State :=
  if (s.wick ai).blank then s
  else (s.setWick ai { s.wick ai with blank := true }).setFmt ai { s.fmt ai with passed := false }

/-- EDGE_APPLY (R172): the next queued edge reaches its position, the later issued of two at the same one winning; the frame
announced with LAST ends; or the keep-out begins or ends, where the gate state in force returns on the pins. -/
def edgeApply (h : Half) (u : Nat) (ev : GateEvent) (s : State) : State :=
  let ai := actId h u
  let w := s.wick ai
  match ev with
  | .last => match w.lastFrame with
    | none => s
    | some t => s.lastEnds ai t
  | .edge => match w.edges with
    | [] => s
    | e :: r =>
      let p := r.foldl (fun p x => min p x.pos) e.pos
      let same := w.edges.filter (·.pos = p)
      let win := same.getLast?.getD e
      (s.setWick ai { w with edges := w.edges.filter (·.pos ≠ p), sym := p }).applyEdge ai win
  | .keepOut index => (s.setWick ai { w with wedge := index % 512, sym := 0 }).keepOut ai
  | .keepIn =>
    if (s.pa ai).sg then s
    else
      let k := match w.desc with | some d => zK d.zone | none => w.sym
      let s := s.setWick ai { w with blank := false, sym := max w.sym k }
      ((s.gateHold ai).busYield ai).paKick ai

def execEdgeApply (h : Half) (u : Nat) (ev : GateEvent) (s : State) : Host.Outcome State Fault Refusal :=
  .next (edgeApply h u ev s)

/-! ### Aborts, RESTART, EN (R173, R174, R180) -/

/-- ABORT_VECTOR (R174): the request is accepted, at a place of the rotation. Any stall is released, the frame in progress becomes
the last, announced frames whose window has not opened are dropped, and the abort vector starts. -/
def abortVector (h : Half) (u : Nat) (at_ : Place) (s : State) : State :=
  let ai := actId h u
  match (s.wick ai).abort with
  | none => s
  | some r =>
    if (s.wick ai).desc.isNone || s.wckState ai == wkFaulted then s
    else
      let s := s.atPlace ai at_
      let s := s.endAtFrame ai (s.posOf ai at_)
      let w := s.wick ai
      let f := s.fmt ai
      let s := if f.splitting then s.setFmt ai { f with cut := w.open_.map (·.1) } else s
      let p := s.pa ai
      let s := s.setPa ai { p with
        cur := p.cur.map fun f => if f.owner == .wick then { f with owner := .sleep } else f,
        queue := p.queue.map fun f => if f.owner == .wick then { f with owner := .sleep } else f }
      let s := s.setWick ai { w with abort := none, aborting := true, stall := .none }
      let b := wckB ai
      let s := (s.put b F.WCK_STAT_STATE wkRun).put b F.WCK_STAT_LAST_ABORT (abortRow r)
      (s.paKick ai).wickFetch ai 1

def execAbortVector (h : Half) (u : Nat) (at_ : Place) (s : State) : Host.Outcome State Fault Refusal :=
  .next (abortVector h u at_ s)

/-- RESTART (R173): a FAULTED Wick returns to IDLE at vector 0. -/
def wickRestart (h : Half) (u : Nat) (s : State) : State :=
  let ai := actId h u
  if s.wckState ai != wkFaulted then s
  else
    (s.put (wckB ai) F.WCK_STAT_STATE wkIdle).idleVector ai

def execRestart (h : Half) (u : Nat) (s : State) : Host.Outcome State Fault Refusal := .next (wickRestart h u s)

/-- WICK_OFF (R52, R180): EN is cleared, with CFG_CHANGED and an abort request when an operation is in progress. -/
def wickOff (h : Half) (u : Nat) (s : State) : State :=
  let ai := actId h u
  let b := wckB ai
  let busy := s.bit b F.WCK_STAT_BUSY
  let s := s.put b F.WCK_CTL_EN 0
  if busy then (s.flag b F.WCK_EVENTS_CFG_CHANGED).wickAbort ai 2 .wickOff else s

def execWickOff (h : Half) (u : Nat) (s : State) : Host.Outcome State Fault Refusal := .next (wickOff h u s)

/-! ### Patches (R176 to R178) -/

/-- Word n of a patch image (R176). -/
def imageWord (bs : List Byte) (n : Nat) : Nat := bytesLE ((List.range 4).map fun i => bs.getD (4 * n + i) 0)

def patchWords (bs : List Byte) : Nat := imageWord bs 2 % 0x400
def patchMatches (bs : List Byte) : Nat := imageWord bs 2 / 0x10000 % 32
def patchLevel (bs : List Byte) : Nat := imageWord bs 1 / 0x10000

/-- A Wick takes the words, match registers and level of an accepted image (R178). -/
def State.patchWrite (s : State) (ai : Nat) (bs : List Byte) : State :=
  let b := wckB ai
  let s := (List.range (patchWords bs)).foldl (fun s n =>
    s.setWord (b + 0x2000 + 4 * n) (BitVec.ofNat 32 (imageWord bs (20 + n)))) s
  let s := (List.range 16).foldl (fun s m =>
    let w : Word := BitVec.ofNat 32 (imageWord bs (4 + m))
    let a := b + 4 * m
    ((s.put a F.MATCH_ADDR (fget w F.MATCH_ADDR)).put a F.MATCH_TARGET (fget w F.MATCH_TARGET)).put a F.MATCH_EN
      (fget w F.MATCH_EN)) s
  let s := (s.put b F.WCK_ID_PATCH_LEVEL (patchLevel bs)).flag b F.WCK_EVENTS_PATCHED
  s.setWick ai { s.wick ai with held := false, patchDue := false }

/-- Whether a Wick can be written: not dark, out of reset, its power domain not OFF, its half's link up unless it is
Mantle's own path (R178). -/
def State.patchable (s : State) (ai : Nat) : Bool :=
  !s.hdaDark (actHda ai) && s.wckUp ai && !s.board.halfLinkDown &&
    s.domState (actHalf ai) (22 + actHda ai % 4) != 0

/-- Whether it is a Wick's turn (R178): A.WCK[0] to B.WCK[7], each after every one before it that can be written. -/
def State.patchTurn (s : State) (ai level : Nat) : Bool :=
  (List.range ai).all fun j => !s.patchable j || s.get (wckB j) F.WCK_ID_PATCH_LEVEL == level

/-- The accepted patch counts as applied once every Wick that is out of reset and powered has been written (R178): the
INTAKE_CHECK that brought it then completes, and the intake closes (R415, R417). -/
def State.patchSettle (s : State) : State :=
  match s.mcore.intake, s.mcore.wickPatch with
  | some k, some img =>
    if k.checking && k.type == 3 && (List.range 16).all fun ai =>
        !s.patchable ai || s.get (wckB ai) F.WCK_ID_PATCH_LEVEL == patchLevel img.bytes then
      s.intakeClose.mbAnswer k.half 0 img.svn
    else s
  | _, _ => s

/-- PATCH_APPLY (R178): in the Wick's turn, Mantle holds its next descriptor; once no operation is in progress the accepted image is
written and the descriptor released. -/
def patchApply (h : Half) (u : Nat) (s : State) : State :=
  let ai := actId h u
  match s.mcore.wickPatch with
  | none => s
  | some img =>
    if s.hdaDark (actHda ai) then s
    else if !s.patchable ai then s.setWick ai { s.wick ai with patchDue := true }
    else if !s.patchTurn ai (patchLevel img.bytes) then s
    else if s.bit (wckB ai) F.WCK_STAT_BUSY then s.setWick ai { s.wick ai with held := true }
    else (s.patchWrite ai img.bytes).patchSettle

def execPatchApply (h : Half) (u : Nat) (s : State) : Host.Outcome State Fault Refusal := .next (patchApply h u s)

/-- PATCH_REWRITE (R178): the accepted image is written again into a Wick whose patch RAM a reset or a sleep has cleared. -/
def patchRewrite (h : Half) (u : Nat) (s : State) : State :=
  let ai := actId h u
  match s.mcore.wickPatch with
  | none => s
  | some img => if (s.wick ai).patchDue && s.patchable ai then (s.patchWrite ai img.bytes).patchSettle else s

def execPatchRewrite (h : Half) (u : Nat) (s : State) : Host.Outcome State Fault Refusal := .next (patchRewrite h u s)

end Sys2Proof.Machine
end

