-- ==== Sys2Proof/Machine/Channel.lean ====
section
/-! DEFINITION. The stream channels (R91 to R127): states, sync windows, realignment from sample memory, decoding, verify, and
the report of every sector. -/

namespace Sys2Proof.Machine

/-! ### Whether a channel runs -/

/-- Whether a channel may run: enabled, out of reset, its slot in the acknowledged mask (R91). -/
def State.chOn (s : State) (ci : Nat) : Bool :=
  s.bit (chB ci) F.RCH_CTL_EN && s.rchUp ci && (s.ackMask (chAct ci)).testBit (chSlot ci)

/-- BUSY of a channel (R121): read or write gate high, VERIFY, or a decode or hypothesis pending. -/
def State.chBusy (s : State) (ci : Nat) : Bool :=
  let ai := chAct ci
  s.rgPin ai (chSlot ci) || s.wgPin ai 0 || s.wgPin ai 1 || s.chState ci == csVerify ||
    (s.rch ci).secs.any fun x => decide (1 ≤ x.phase ∧ x.phase ≤ 4)

/-- WIN as it acts (R121). -/
def State.winOf (s : State) (ci : Nat) : Nat := min 48 (max 4 (s.get (chB ci) F.RCH_SYNCCFG_WIN))

/-- Whether the measured wedge period allows a read: RATE_RATIO 0x49C7 to 0x80E4 (R117). -/
def State.rateOk (s : State) (ci : Nat) : Bool :=
  let r := s.get (chB ci) F.RCH_STAT_RATE_RATIO
  decide (0x49C7 ≤ r ∧ r ≤ 0x80E4)

/-- Counter i of page 1 of a channel and its mirror (R124, R487). -/
def State.chCount (s : State) (ci i n : Nat) : State :=
  s.count (chB ci) ⟨0x1000 + 4 * i, 0, 32⟩ (chHalf ci) (10 * (ci % 32) + i) n

/-- A message of a channel (R119, R467). -/
def State.chMsg (s : State) (ci kind hint : Nat) : State := s.chimney (chHalf ci) 5 (ci % 32) kind hint

/-! ### Choosing a position (R103) -/

/-- Hamming distance of 64 received decisions, first symbol at bit 0, from a mark (R103). -/
def markDistance (mark : BitVec 64) (rx : BitVec 64) : Nat :=
  ((List.range 64).filter fun i => rx.getLsbD i != mark.getLsbD (63 - i)).length

/-- The candidate end positions from `lo` to `hi` with their distances; bit 0 of the received decisions is symbol `first` of the
frame, or of the resync field (R103). -/
def candidates (mark : BitVec 64) {w : Nat} (first : Nat) (rx : BitVec w) (lo hi : Nat) : List (Nat × Nat) :=
  (List.range (hi + 1 - lo)).map fun i => (lo + i, markDistance mark (rx.extractLsb' (lo + i - 64 - first) 64))

/-- The candidate with the lowest distance by an order of preference between equal distances. -/
def bestBy (better : Nat × Nat → Nat × Nat → Bool) : List (Nat × Nat) → Option (Nat × Nat)
  | [] => none
  | c :: t => some (t.foldl (fun b x => if better x b then x else b) c)

/-- The position of a window about `mid` and whether no mark was found (R103). -/
def choosePosition (mid thresh : Nat) (cs : List (Nat × Nat)) : Nat × Bool :=
  match bestBy (fun x b => x.2 < b.2 || (x.2 == b.2 && x.1 > b.1)) (cs.filter (·.2 ≤ thresh)) with
  | some c => (c.1, false)
  | none =>
    let far := fun p : Nat => if p ≥ mid then p - mid else mid - p
    match bestBy (fun x b => x.2 < b.2 || (x.2 == b.2 && (far x.1 < far b.1 || (far x.1 == far b.1 && x.1 < b.1)))) cs with
    | some c => (c.1, true)
    | none => (mid, true)

/-! ### The report of a sector (R118, R119, R124, R126) -/

/-- The tag bytes 0 to 5 expected of a frame of a pass on a slot, if the frame holds a sector of the format (R130). -/
def State.expectedTag (s : State) (ai : Nat) (d : Desc) (slot frame : Nat) : Option (List Byte) :=
  (s.writtenSector ai d slot frame).map fun (k, i, spare) => (s.sectorTag ai d k i spare 0).take 6

/-- A converged codeword: its tag matches, GEN and user data (R97, R108). A frame that holds no sector of the format has no
expected tag, and any tag passes. DESIGN CHOICE (log 165). -/
def State.readCodeword (s : State) (ai : Nat) (d : Desc) (slot frame : Nat) (cw : BitVec 39936) : Bool × Nat × Sector :=
  let w := descramble frame cw
  let tag := cwTag w
  let ok := match s.expectedTag ai d slot frame with
    | some t => tag.take 6 == t
    | none => true
  (ok, bytesLE (tag.drop 6), cwData w)

/-- How a sector ended. -/
structure SecEnd where
  status : Nat
  hyp : Nat
  iter : Nat
  pos : Nat
  gen : Nat
  data : Sector
  deriving DecidableEq, Repr, Inhabited

/-- The number of a frame that Wick announced; of one that it did not, a free value. -/
def State.frameNo (s : State) (x : ChSector) : Nat × State :=
  match x.frame with
  | some n => (n, s)
  | none => let (n, s) := s.takeFree; (Config.freeNat n % 0x10000, s)

/-- Writing one sector result log entry (R126); the first since half reset has SEQ 0. A distance outside the window is not
recorded by the channel, and its value is not stated. DESIGN CHOICE (log 38). DESIGN CHOICE (log 166). -/
def State.chLog (s : State) (ci : Nat) (x : ChSector) (e : SecEnd) : State :=
  let (frame, s) := s.frameNo x
  let c := s.rch ci
  let (dist, s) := match x.dists.find? (·.1 == e.pos) with
    | some d => (d.2, s)
    | none => (Config.freeNat s.free % 65, { s with free := s.free + 1 })
  let a := chB ci + 0x3000 + 16 * (c.seq % 16)
  let w0 := e.status + 16 * (e.hyp % 16) + 0x100 * (e.iter % 256) + 0x10000 * (dist % 256) +
    0x1000000 * unsigned 8 ((e.pos : Int) - 384)
  let w1 := frame % 0x10000 + 0x10000 * (x.desc.zone % 64) + 0x400000 * (x.desc.group % 2) +
    0x800000 * bitNat x.split
  let s := (s.setWord a (BitVec.ofNat 32 w0)).setWord (a + 4) (BitVec.ofNat 32 w1)
  let s := (s.setWord (a + 8) (BitVec.ofNat 32 s.usTime)).setWord (a + 12) (BitVec.ofNat 32 (c.seq % 0x10000))
  s.setRch ci { c with seq := c.seq + 1 }

/-- Replacing the sector at a place of a channel's list. -/
def State.setSec (s : State) (ci j : Nat) (x : ChSector) : State :=
  s.setRch ci { s.rch ci with secs := (s.rch ci).secs.set j x }

/-- The events, counters and messages of a sector that has ended (R118, R119, R121, R124). A sector saved by recovery has had
its SM_MISS counted as it was erased. -/
def State.chTally (s : State) (ci : Nat) (x : ChSector) (e : SecEnd) (early : Bool) : State :=
  let b := chB ci
  let erased := decide (e.status ≥ 8)
  let i := if e.status = 0 ∨ e.status = 4 then 0 else if e.status = 1 then 1 else if e.status = 2 then 2
    else if e.status = 3 then 3 else 4
  let s := s.chCount ci i 1
  let s := if x.miss && e.status != 3 then (s.flag b F.RCH_EVENTS_SM_MISS).chCount ci 5 1 else s
  let s := if early then (s.flag b F.RCH_EVENTS_SM_EARLY).chCount ci 6 1 else s
  let s := if erased then s.flag b F.RCH_EVENTS_ERASED
    else s.headCount (chAct ci) (4 * x.desc.group + chSlot ci) 0 1
  let s := if e.status = 0xB then
      ((s.flag b F.RCH_EVENTS_OVERRUN).chCount ci 8 1).chMsg ci 3 (x.frame.getD 0 % 0x10000)
    else s
  if e.status = 0xE then
    let s := s.flag b F.RCH_EVENTS_LOCK_FAIL
    if (s.rch ci).lockSent then s
    else (s.setRch ci { s.rch ci with lockSent := true }).chMsg ci 5 (x.frame.getD 0 % 0x10000)
  else s

/-- A sector ends (R118): log, counters, events, and the report to Wick and the formatter of the operation it belongs to. `late`
says that a decode converged at a position later than the first (R103). -/
def State.chReport (s : State) (ci j : Nat) (x : ChSector) (e : SecEnd) (late : Bool) : State :=
  let s := s.setSec ci j { x with phase := 5, status := e.status, iters := e.iter, next := none }
  let s := (s.chLog ci x e).chTally ci x e late
  match x.frame with
  | none => s
  | some n => if x.live then s.slotReport (chAct ci) n (chSlot ci) ⟨e.status, e.gen, e.data⟩ else s

/-- A decode has converged at a position: TAG_CHECK, then the report (R108). -/
def State.chConverged (s : State) (ci j : Nat) (x : ChSector) (status hyp iter pos : Nat) (cw : BitVec 39936) : State :=
  let (ok, gen, data) := s.readCodeword (chAct ci) x.desc (chSlot ci) (x.frame.getD 0) cw
  s.chReport ci j x ⟨if ok then status else 0xA, hyp, iter, pos, gen, data⟩ (decide (pos > x.p0))

/-- The status of a sector that no decode has saved (R116, R118). DEDUCED (log 40). -/
def failStatus (x : ChSector) : Nat :=
  if x.split && x.rateStep then 0xD else if x.miss then 9 else 8

/-- A sector erased without data. -/
def State.chErased (s : State) (ci j : Nat) (x : ChSector) (status hyp iter pos : Nat) : State :=
  s.chReport ci j x ⟨status, hyp, iter, pos, 0, 0⟩ false

/-! ### Hypotheses (R105) -/

/-- Insertion into a sorted list, before the first entry that it may stand before; and sorting by insertion. -/
def insertBy {α : Type} (le : α → α → Bool) (a : α) : List α → List α
  | [] => [a]
  | b :: l => if le a b then a :: b :: l else b :: insertBy le a l
def sortBy {α : Type} (le : α → α → Bool) (l : List α) : List α := l.foldr (insertBy le) []

/-- All hypotheses of a sector, in order: position of the first fragment and shift of the second. -/
def hypotheses (thresh : Nat) (x : ChSector) : List (Nat × Int) :=
  let near : List (Nat × Nat) :=
    sortBy (fun a b => decide (a.2 < b.2) || (a.2 == b.2 && decide (a.1 ≥ b.1))) (x.dists.filter (·.2 ≤ thresh))
  let shifts := [x.p0 + 1, x.p0 - 1, x.p0 + 2, x.p0 - 2, x.p0 + 3, x.p0 - 3, x.p0 + 4, x.p0 - 4]
  let first := (near.map Prod.fst ++ [384] ++ shifts).map fun p => (p, x.rsShift)
  let dist := fun p : Nat => match x.dists.find? (·.1 == p) with | some d => d.2 | none => 65
  let best := match bestBy (fun a b => a.2 < b.2) (x.failed.map fun p => (p, dist p)) with
    | some c => c.1
    | none => x.p0
  if x.split && x.rsMiss then first ++ [(best, 0), (best, 1), (best, -1), (best, 2), (best, -2)] else first

/-- The next hypothesis not yet tried, within MAX_HYP. -/
def nextHypothesis (thresh maxHyp : Nat) (x : ChSector) : Option (Nat × Int) :=
  if x.tried.length - 1 ≥ maxHyp then none else (hypotheses thresh x).find? fun h => !x.tried.contains h

/-- The hypothesis of a sector that comes next under the settings in force. -/
def State.chNext (s : State) (ci : Nat) (x : ChSector) : Option (Nat × Int) :=
  nextHypothesis (s.get (chB ci) F.RCH_SYNCCFG_THRESH) (s.get (chB ci) F.RCH_SYNCCFG_MAX_HYP) x

/-- OTF_MAX and VFY_MAX: 0 and values above 20 act as 20 (R121). -/
def iterMax (n : Nat) : Nat := if n = 0 ∨ 20 < n then 20 else n

/-- The on-the-fly limit in force (R109). -/
def State.otfMax (s : State) (ci : Nat) : Nat := iterMax (s.get (chB ci) F.RCH_ITER_OTF_MAX)

/-- The decode of a re-detected hypothesis begins (R105, R106), and with it the re-detection of the next one. -/
def State.chHypStart (s : State) (ci j : Nat) (x : ChSector) (p : Nat × Int) : State :=
  let x := { x with phase := 3, tried := x.tried ++ [p], limit := s.otfMax ci, nextDone := false }
  s.setSec ci j { x with next := s.chNext ci x }

/-- A decode has failed (R105 to R107, R118, R123): the next hypothesis, decoded at once where its re-detection is done, or the
end of the sector. -/
def State.chFailed (s : State) (ci j : Nat) (x : ChSector) (hyp iter pos : Nat) : State :=
  let x := { x with failed := x.failed ++ [pos], iters := iter }
  if !x.inMem || !s.bit (chB ci) F.RCH_CTL_REALIGN then s.chErased ci j x 0xC hyp iter pos
  else
    match s.chNext ci x with
    | none => s.chErased ci j x (failStatus x) hyp iter pos
    | some p =>
      if x.next == some p && x.nextDone then s.chHypStart ci j x p
      else s.setSec ci j { x with phase := 2, next := some p, nextDone := false }

/-- The first sector of a channel that meets a condition, with its place; and the first in a phase. -/
def State.secWhere (s : State) (ci : Nat) (p : ChSector → Bool) : Option (Nat × ChSector) :=
  ((s.rch ci).secs.zipIdx.find? fun x => p x.1).map fun x => (x.2, x.1)
def State.secIn (s : State) (ci phase : Nat) : Option (Nat × ChSector) := s.secWhere ci (·.phase == phase)

/-! ### Frames begin (R104, R107, R112) -/

/-- ITER of a sector whose realignment is cut off (R126): of the last decode that ended; of one still in progress it is not
stated. DESIGN CHOICE (log 38). -/
def State.cutIters (s : State) (x : ChSector) : Nat × State :=
  if x.phase == 2 then (x.iters, s) else let (n, s) := s.takeFree; (Config.freeNat n % 21, s)

/-- The sector of the slot that a new frame takes ends with ERASED_OVERRUN if it still runs (R107), and leaves the channel. -/
def State.chEvict (s : State) (ci : Nat) : State :=
  let c := s.rch ci
  let j := c.secs.findIdx (·.inMem)
  match c.secs[j]? with
  | none => s
  | some x =>
    let s := if decide (1 ≤ x.phase ∧ x.phase ≤ 4) then
        let (it, s) := s.cutIters x
        s.chErased ci j x 0xB (x.tried.length - 1) it (x.tried.getLast?.map (·.1) |>.getD x.p0)
      else s
    s.setRch ci { s.rch ci with secs := (s.rch ci).secs.eraseIdx j }

/-- The nominal frequency of a channel in a zone, from its actuator's wedge intervals (R113, R114): over the last 2^AVG, or as
many as there are. DESIGN CHOICE (log 167). -/
def State.chFnom (s : State) (ci zone : Nat) : Rat :=
  let ivs := (s.srv (chAct ci)).intervals.take (2 ^ min 4 (s.get (chB ci) F.RCH_RATECFG_AVG))
  fnomOf zone ivs.length (ivs.foldl (· + ·) 0)

/-- A frame begins on a channel (R104): it takes the slot of the frame four before it. While sample memory is frozen the frame
has no slot. -/
def State.chBegin (s : State) (ci : Nat) : State :=
  let b := chB ci
  let d := (s.wick (chAct ci)).desc.getD default
  let frozen := s.bit b F.RCH_STAT_FROZEN
  let s := if frozen || ((s.rch ci).secs.filter (·.inMem)).length < 4 then s else s.chEvict ci
  let (seed, s) := s.takeFree
  let c := s.rch ci
  let x : ChSector := { (default : ChSector) with desc := d, live := true, inMem := !frozen, slot := c.nextSlot % 4, p0 := 384 }
  let fresh := c.opEnded || c.secs.isEmpty
  let c := { c with secs := (c.secs.filter fun x => x.inMem || x.phase != 5) ++ [x], lockSent := c.lockSent && !fresh,
                    opEnded := false, inUse := d.group, fnom := s.chFnom ci d.zone }
  let s := s.setRch ci (if frozen then c else c.slotBegin seed)
  let s := if fresh then (s.put b F.RCH_STAT_R0_DROPPED 0).put b F.RCH_STAT_R1_DROPPED 0 else s
  (s.put b F.RCH_STAT_ZONE d.zone).setChState ci csAcquire

/-- The sector being received, with its place: the last of the list. -/
def State.chCur (s : State) (ci : Nat) : Option (Nat × ChSector) :=
  match (s.rch ci).secs.getLast? with
  | none => none
  | some x => some ((s.rch ci).secs.length - 1, x)

/-- Sample memory of the frame in progress filled up to an entry. -/
def State.chStore (s : State) (ci : Nat) (x : ChSector) (n : Nat) : State := s.setRch ci ((s.rch ci).slotUpTo x n)

/-- READ_GATE_RISE (R112): acquisition starts, or a frame resumes after a wedge. Outside the speed range of R117 nothing is
read and the operation ends with RATE_RANGE. -/
def readGateRise (h : Half) (n : Nat) (s : State) : State :=
  let ci := chId h n
  let ai := chAct ci
  if !s.chOn ci || !s.rgPin ai (chSlot ci) || (s.pa ai).sg then s
  else
    let st := s.chState ci
    let sameOp := match s.chCur ci with
      | some (_, x) => x.live && x.phase == 0
      | none => false
    if st == csHold && sameOp then s.setChState ci csResync
    else if st == csIdle || st == csHold then
      if s.rateOk ci then s.chBegin ci else (s.setChState ci csIdle).wickAbort ai 5 .rateRange
    else s

def execReadGateRise (h : Half) (n : Nat) (s : State) : Host.Outcome State Fault Refusal := .next (readGateRise h n s)

/-- LOCK_CHECK (R92, R94, R99, R100): symbol 319. The phase that zero-phase start measured, and the phase errors of symbols 64 to
319 in 1/256 UI: the loop runs over them at acquisition and then at tracking gains, and the root mean square of the last 64 is
checked. CTLE, AGC and the data path adapt over the preamble. -/
def lockCheck (h : Half) (n : Nat) (phase : Int) (errs : List Int) (s : State) : State :=
  let ci := chId h n
  match s.chCur ci with
  | none => s
  | some (j, x) =>
    if s.chState ci != csAcquire then s
    else
      let th := s.get (chB ci) F.RCH_TLOOP_LOCK_TH
      let sq := ((errs.drop 192).take 64).foldl (fun (m : Int) e => m + e * e) 0
      let ok := decide (sq ≤ ((64 * th * th : Nat) : Int))
      let s := ((s.chPhase ci phase).chLoop ci true (errs.take 192)).chLoop ci false ((errs.drop 192).take 64)
      let s := (s.setRch ci { s.rch ci with locked := ok }).showLock ci
      let s := (s.chAdapt ci true).chStore ci x 384
      (s.setSec ci j { x with lockBad := !ok, winLo := 384 - s.winOf ci }).setChState ci csSync

def execLockCheck (h : Half) (n : Nat) (phase : Int) (errs : List Int) (s : State) : Host.Outcome State Fault Refusal :=
  .next (lockCheck h n phase errs s)

/-- The announced frame whose window closes on a slot (R165, R168): the first that the slot has not taken. A frame that
every slot has taken leaves the tag queue. -/
def State.takeTag (s : State) (ai slot : Nat) : Option Nat × State :=
  let w := s.wick ai
  match w.tags.findIdx? fun t => !t.taken.testBit slot with
  | none => (none, s)
  | some j =>
    let tags := w.tags.zipIdx.map fun (t, i) => if i == j then { t with taken := t.taken ||| 2 ^ slot } else t
    ((w.tags[j]?).map (·.frame), s.setWick ai { w with tags := tags.filter fun t => t.taken % 16 != 15 })

/-- SYNC_WINDOW_CLOSE (R103, R123): the tentative decisions of symbols 272 to 431 of the frame, and the last position seen. The
window closes at 384 + WIN, or where a WIN written meanwhile found it; every position from 384 - WIN as the window opened is a
candidate. -/
def syncWindowClose (h : Half) (n : Nat) (rx : BitVec 160) (last : Nat) (errs : List Int) (s : State) : State :=
  let ci := chId h n
  match s.chCur ci with
  | none => s
  | some (j, x) =>
    if s.chState ci != csSync then s
    else
      let cs := candidates syncMark 272 rx x.winLo (min 432 (max last (384 + s.winOf ci)))
      let (p, miss) := choosePosition 384 (s.get (chB ci) F.RCH_SYNCCFG_THRESH) cs
      let (frame, s) := s.takeTag (chAct ci) (chSlot ci)
      let x := { x with frame := frame, dists := cs, p0 := p, miss := miss, tried := [(p, 0)] }
      let s := (s.chLoop ci false errs).chStore ci x (64 + 432)
      let s := (s.setSec ci j x).setChState ci csData
      if x.lockBad then s.chErased ci j x 0xE 0 0 p else s

def execSyncWindowClose (h : Half) (n : Nat) (rx : BitVec 160) (last : Nat) (errs : List Int) (s : State) :
    Host.Outcome State Fault Refusal := .next (syncWindowClose h n rx last errs s)

/-- READ_GATE_FALL (R112): the count, phase and integrator are held. The phase errors are those of the symbols since the last
command of the frame. -/
def readGateFall (h : Half) (n : Nat) (errs : List Int) (s : State) : State :=
  let ci := chId h n
  match s.chCur ci with
  | none => s
  | some (j, x) =>
    if s.chState ci != csData then s
    else (((s.chLoop ci false errs).chAdapt ci false).setSec ci j { x with split := true }).setChState ci csHold

def execReadGateFall (h : Half) (n : Nat) (errs : List Int) (s : State) : Host.Outcome State Fault Refusal :=
  .next (readGateFall h n errs s)

/-- A channel as the servo gate rises (R91, R101, R112): it freezes, and a frame in progress is split. -/
def State.chServo (s : State) (ci : Nat) : State :=
  let st := s.chState ci
  if !s.chOn ci then s
  else if st == csData then
    match s.chCur ci with
    | none => s
    | some (j, x) =>
      let s := s.setSec ci j { x with split := true }
      (s.setRch ci { s.rch ci with fromIdle := false }).setChState ci csServo
  else if st == csHold || st == csIdle then (s.setRch ci { s.rch ci with fromIdle := st == csIdle }).setChState ci csServo
  else s

/-- SERVO_GATE_RISE (R101, R172): the servo gate of an actuator rises, within the keep-out of a wedge. While SG_OFF is not
above SG_ON it stays low, as it does while the half's output enable or the HDA's ownership line is low (R435, R436).
DEDUCED (log 41). -/
def servoGateRise (h : Half) (u : Nat) (s : State) : State :=
  let ai := actId h u
  if s.get (wckB ai) F.WCK_SGCFG_SG_OFF ≤ s.get (wckB ai) F.WCK_SGCFG_SG_ON || !s.wckUp ai || !s.outEnable h ||
      !s.ownLine (actHda ai) then s
  else
    let s := s.setPa ai { s.pa ai with sg := true }
    let s := (s.keepOut ai).busYield ai
    (List.range 4).foldl (fun s k => s.chServo (4 * ai + k)) s

def execServoGateRise (h : Half) (u : Nat) (s : State) : Host.Outcome State Fault Refusal := .next (servoGateRise h u s)

/-- RATE_RATIO of a mean wedge period (R114): 16.276 µs, that is 1/61,440 s, over the mean of some intervals in ns, 2^-15
per step, to the nearest. -/
def rateRatio (ivs : List Nat) : Nat :=
  let sum := ivs.foldl (· + ·) 0
  if sum = 0 then 0 else min 0xFFFF ((2 * 1000000000 * 32768 * ivs.length + 61440 * sum) / (2 * 61440 * sum))

/-- The rate update of a channel at a wedge (R114 to R116), from the intervals of its servo engine before and after: RATE_RATIO,
f_nom, the integrator scaled with it, and an excessive step of a channel that may run. DEDUCED (log 168).
DESIGN CHOICE (log 167). -/
def State.chRate (s : State) (ci : Nat) (before after : List Nat) : State :=
  let b := chB ci
  let n := 2 ^ min 4 (s.get b F.RCH_RATECFG_AVG)
  let old := before.take n
  let new := after.take n
  let s := s.put b F.RCH_STAT_RATE_RATIO (rateRatio new)
  let c := s.rch ci
  let fnom := s.chFnom ci (s.get b F.RCH_STAT_ZONE)
  let integ := if c.fnom = 0 then c.integ else c.integ * (fnom / c.fnom)
  let s := (s.setRch ci { c with fnom := fnom, integ := integ }).showLock ci
  -- f_new / f_old - 1 in ppm, from the two means
  let so := old.foldl (· + ·) 0 * new.length
  let sn := new.foldl (· + ·) 0 * old.length
  let diff := if so ≥ sn then so - sn else sn - so
  if !s.bit b F.RCH_CTL_EN || old.isEmpty || sn = 0 || diff * 1000000 ≤ s.get b F.RCH_RATECFG_STEP_MAX * sn then s
  else
    let ppm := min 0xFFFF (diff * 1000000 / sn)
    let s := ((s.flag b F.RCH_EVENTS_RATE_STEP).chCount ci 9 1).chMsg ci 4 ppm
    match s.chCur ci with
    | some (j, x) => if x.phase == 0 && x.split then s.setSec ci j { x with rateStep := true } else s
    | none => s

/-- A channel as the servo gate falls (R112, R115). -/
def State.chServoEnd (s : State) (ci : Nat) (before after : List Nat) : State :=
  if !s.rchUp ci then s
  else
    let s := s.chRate ci before after
    if s.chState ci == csServo then s.setChState ci (if (s.rch ci).fromIdle then csIdle else csHold) else s

/-- SERVO_GATE_FALL (R112, R114, R115, R172): the channels take from their servo engine the intervals of servo address marks that it
has measured. -/
def servoGateFall (h : Half) (u : Nat) (s : State) : State :=
  let ai := actId h u
  if !(s.pa ai).sg then s
  else
    let s := s.setPa ai { s.pa ai with sg := false }
    let before := (s.srv ai).ivRated
    let after := (s.srv ai).intervals
    let s := s.setSrv ai { s.srv ai with ivRated := after }
    let s := (List.range 4).foldl (fun s k => s.chServoEnd (4 * ai + k) before after) s
    (s.busYield ai).paKick ai

def execServoGateFall (h : Half) (u : Nat) (s : State) : Host.Outcome State Fault Refusal := .next (servoGateFall h u s)

/-- RESYNC_WINDOW_CLOSE (R102): the phase of zero-phase start, the tentative decisions of symbols 113 to 206 of the resync field,
and the phase errors since its symbol 64. -/
def resyncWindowClose (h : Half) (n : Nat) (phase : Int) (rx : BitVec 94) (errs : List Int) (s : State) : State :=
  let ci := chId h n
  match s.chCur ci with
  | none => s
  | some (j, x) =>
    if s.chState ci != csResync then s
    else
      let win := max 2 (s.get (chB ci) F.RCH_SYNCCFG_RS_WIN)
      let (p, miss) := choosePosition 192 (s.get (chB ci) F.RCH_SYNCCFG_THRESH) (candidates resyncMark 113 rx (192 - win) (192 + win))
      let shift : Int := if miss then 0 else (p : Int) - 192
      let x := { x with rsMiss := miss, rsShift := shift, miss := x.miss || miss,
                        tried := x.tried.map fun t => (t.1, shift) }
      let s := ((s.chPhase ci phase).chLoop ci false errs).chAdapt ci true
      (s.setSec ci j x).setChState ci csData

def execResyncWindowClose (h : Half) (n : Nat) (phase : Int) (rx : BitVec 94) (errs : List Int) (s : State) :
    Host.Outcome State Fault Refusal := .next (resyncWindowClose h n phase rx errs s)

/-- READER_DROP (R95): a weak reader is dropped. -/
def State.dropReader (s : State) (ci reader frame : Nat) : State :=
  let b := chB ci
  let f := if reader = 0 then F.RCH_STAT_R0_DROPPED else F.RCH_STAT_R1_DROPPED
  if s.bit b f then s
  else ((s.flag b f).flag b F.RCH_EVENTS_READER_DROP).chMsg ci 2 (reader + 2 * (frame % 0x10000))

/-- LAST_CODEWORD_SYMBOL (R94, R95, R112, R117): the codeword goes to the decoder; the readers' highest amplitudes over the
sector come in steps of 6.25 % of the AGC target, with the phase errors of the symbols since the last command of the frame. The
next frame begins if read gate stays high. -/
def lastCodewordSymbol (h : Half) (n amp0 amp1 : Nat) (errs : List Int) (s : State) : State :=
  let ci := chId h n
  let b := chB ci
  let ai := chAct ci
  match s.chCur ci with
  | none => s
  | some (j, x) =>
    if s.chState ci != csData then s
    else
      let s := (((s.chLoop ci false errs).chAdapt ci false).chSnr ci).chStore ci x slotLen
      let lvl := s.get b F.RCH_ADAPT_DROP_LVL
      let weak0 := decide (amp0 < lvl)
      let weak1 := decide (amp1 < lvl)
      let s :=
        if x.phase != 0 then s
        else if weak0 && weak1 then s.chErased ci j x 0xE 0 0 x.p0
        else
          let s := s.setSec ci j { x with phase := if x.frame.isSome then 1 else 5, limit := s.otfMax ci }
          if s.bit b F.RCH_CTL_AUTO_DROP && (weak0 || weak1) then
            s.dropReader ci (if weak0 then 0 else 1) (x.frame.getD 0)
          else s
      let last := match (s.wick ai).lastFrame with
        | some t => some t.frame == x.frame
        | none => false
      if s.rgPin ai (chSlot ci) && !last && s.chOn ci then
        if s.rateOk ci then s.chBegin ci else (s.setChState ci csIdle).wickAbort ai 5 .rateRange
      else s.setChState ci csIdle

def execLastCodewordSymbol (h : Half) (n amp0 amp1 : Nat) (errs : List Int) (s : State) :
    Host.Outcome State Fault Refusal := .next (lastCodewordSymbol h n amp0 amp1 errs s)

/-! ### Decodes (R105 to R111) -/

/-- The codeword that a decode of at most `limit` iterations has converged to: every parity check holds (R98, R109). -/
def converged (limit iters : Nat) (cw : Option (BitVec 39936)) : Option (BitVec 39936) :=
  match cw with
  | some w => if iters ≤ limit && ldpcValid w then some w else none
  | none => none

/-- FIRST_DECODE_END (R109): the iterations of the oldest first decode, and the codeword it converged to. With OTF_MAX lowered
since it began it may have run further than the limit, but it has then not converged. -/
def firstDecodeEnd (h : Half) (n iters : Nat) (cw : Option (BitVec 39936)) (s : State) : State :=
  let ci := chId h n
  match s.secIn ci 1 with
  | none => s
  | some (j, x) =>
    let limit := s.otfMax ci
    let used := min iters (max x.limit limit)
    let s := s.chCount ci 7 used
    match converged limit used cw with
    | some w => s.chConverged ci j x (if x.miss then 1 else 0) 0 used x.p0 w
    | none => s.chFailed ci j x 0 used x.p0

def execFirstDecodeEnd (h : Half) (n iters : Nat) (cw : Option (BitVec 39936)) (s : State) :
    Host.Outcome State Fault Refusal := .next (firstDecodeEnd h n iters cw s)

/-- REDETECTION_DONE (R106): the second detector has done the next hypothesis of the oldest sector that waits for one. Its
decode starts, or follows the decode in progress of the same sector. -/
def redetectionDone (h : Half) (n : Nat) (s : State) : State :=
  let ci := chId h n
  match s.secWhere ci fun x => x.phase == 2 || (x.phase == 3 && x.next.isSome && !x.nextDone) with
  | none => s
  | some (j, x) =>
    if x.phase == 3 then s.setSec ci j { x with nextDone := true }
    else match x.next with
      | some p => s.chHypStart ci j x p
      | none => s

def execRedetectionDone (h : Half) (n : Nat) (s : State) : Host.Outcome State Fault Refusal :=
  .next (redetectionDone h n s)

/-- HYPOTHESIS_DECODE_END (R105 to R107): the decode of the oldest sector's hypothesis ends. While a first decode is to be served
the hypothesis decode is paused, with its state intact, and does not end. DESIGN CHOICE (log 169). -/
def hypothesisDecodeEnd (h : Half) (n iters : Nat) (cw : Option (BitVec 39936)) (s : State) : State :=
  let ci := chId h n
  match s.secIn ci 3 with
  | none => s
  | some (j, x) =>
    if (s.secIn ci 1).isSome then s
    else
      let limit := s.otfMax ci
      let used := min iters (max x.limit limit)
      let pos := (x.tried.getLast?.map (·.1)).getD x.p0
      let hyp := x.tried.length - 1
      match converged limit used cw with
      | some w => s.chConverged ci j x 2 hyp used pos w
      | none => s.chFailed ci j x hyp used pos

def execHypothesisDecodeEnd (h : Half) (n iters : Nat) (cw : Option (BitVec 39936)) (s : State) :
    Host.Outcome State Fault Refusal := .next (hypothesisDecodeEnd h n iters cw s)

/-- REC_ROUNDS: 0 acts as 1, values above 4 as 4 (R121). -/
def recRounds (n : Nat) : Nat := if n = 0 then 1 else min n 4

/-- RECOVERY_ROUND_END (R110): converged, or the next round with its variant; a sector that no round saves keeps its erased
status. -/
def recoveryRoundEnd (h : Half) (n iters : Nat) (cw : Option (BitVec 39936)) (s : State) : State :=
  let ci := chId h n
  match s.secIn ci 4 with
  | none => s
  | some (j, x) =>
    let pos := (x.tried.getLast?.map (·.1)).getD x.p0
    match converged 20 iters cw with
    | some w => s.chConverged ci j x 3 (x.tried.length - 1) (min iters 20) pos w
    | none =>
      if x.round + 1 ≥ recRounds (s.get (chB ci) F.RCH_ITER_REC_ROUNDS) then s.setSec ci j { x with phase := 5 }
      else s.setSec ci j (s.recRound ci x (x.round + 1))

def execRecoveryRoundEnd (h : Half) (n iters : Nat) (cw : Option (BitVec 39936)) (s : State) :
    Host.Outcome State Fault Refusal := .next (recoveryRoundEnd h n iters cw s)

/-! ### Verify behind the write (R111, R154) -/

/-- The group whose write gate is high at an actuator's pins. -/
def State.writingGroup (s : State) (ai : Nat) : Option Nat :=
  if s.wgPin ai 0 then some 0 else if s.wgPin ai 1 then some 1 else none

/-- VFY_MAX, read as a verify decode begins (R123): each follows the one before. -/
def State.vfyLatch (s : State) (ci : Nat) : State :=
  s.setRch ci { s.rch ci with vfyMax := iterMax (s.get (chB ci) F.RCH_ITER_VFY_MAX) }

/-- VERIFY_START (R111, R112): the third adapted state comes into use. DEDUCED (log 176). -/
def verifyStart (h : Half) (n : Nat) (s : State) : State :=
  let ci := chId h n
  let ai := chAct ci
  match s.writingGroup ai with
  | none => s
  | some g =>
    if s.chOn ci && s.chState ci == csIdle && s.verifyReader ai (4 * g + chSlot ci) then
      if s.rateOk ci then
        let zone := match (s.wick ai).desc with | some d => d.zone | none => s.get (chB ci) F.RCH_STAT_ZONE
        let s := s.setRch ci { s.rch ci with inUse := 2, fnom := s.chFnom ci zone, opEnded := false }
        ((s.vfyLatch ci).put (chB ci) F.RCH_STAT_ZONE zone).setChState ci csVerify
      else s.wickAbort ai 5 .rateRange
    else s

def execVerifyStart (h : Half) (n : Nat) (s : State) : Host.Outcome State Fault Refusal := .next (verifyStart h n s)

/-- What follows a failed verify at a stripe position (R154): another rewrite, or after VFY_RETRY of them a relocation, or
WRITE_FAULT without AUTO_RELOC. A frame that holds no stripe position asks for nothing. -/
def State.verifyMiss (s : State) (ai : Nat) (d : Desc) : Option (Nat × Nat) → State
  | none => s
  | some (k, i) =>
    let b := fmtB ai
    let op := (s.fmt ai).op.getD default
    let made := match op.entry with
      | some e => if e.kind == 1 && e.stripe == k then e.attempts + 1 else 0
      | none => 0
    let gen := match op.entry with | some e => e.gen | none => (smFind op.gens k).getD 0
    if made ≥ s.get b F.FMT_CTL_VFY_RETRY then
      if s.bit b F.FMT_CTL_AUTO_RELOC then s.grown ai d.band d.group k i op.src gen
      else (s.flag b F.FMT_EVENTS_WRITE_FAULT).setFmt ai { s.fmt ai with endAs := some .writeFault }
    else s.rwqAdd ai ⟨d.band, d.group, 1, min made 15, k, 2 ^ i, false, op.src, gen⟩ false

/-- VERIFY_FAIL (R154): the sector goes to the rewrite queue, or is a grown defect after VFY_RETRY rewrites. A sector whose staged
data met a UE is left out of verify (R268). -/
def State.verifyFail (s : State) (ai : Nat) (d : Desc) (slot frame : Nat) : State :=
  let at_ := (s.writtenSector ai d slot frame).map fun x => (x.1, x.2.1)
  let ue := match (s.fmt ai).op, at_ with | some op, some x => op.ues.contains x | _, _ => false
  if ue then s
  else
    let t := (s.flag (fmtB ai) F.FMT_EVENTS_VERIFY_FAIL).fmtCount ai 4 1
    (t.headCount ai (4 * d.group + slot) 3 1).verifyMiss ai d at_

/-- VERIFY_DECODE_END (R111, R117, R126): the decode of a written frame under the verify reader ends; its sync window's decisions
are those of SYNC_WINDOW_CLOSE. A speed out of range ends the operation at this frame boundary. -/
def verifyDecodeEnd (h : Half) (n frame : Nat) (rx : BitVec 160) (iters : Nat) (cw : Option (BitVec 39936)) (s : State) : State :=
  let ci := chId h n
  let ai := chAct ci
  let slot := chSlot ci
  match (s.wick ai).desc with
  | none => s
  | some d =>
    if s.chState ci != csVerify || !(smGet 0 (s.wick ai).open_ frame).testBit slot then s
    else
      let limit := (s.rch ci).vfyMax
      let used := min iters limit
      let win := s.winOf ci
      let cs := candidates syncMark 272 rx (384 - win) (384 + win)
      let (p, miss) := choosePosition 384 (s.get (chB ci) F.RCH_SYNCCFG_THRESH) cs
      let pass := match converged limit used cw with
        | some w => (s.readCodeword ai d slot frame w).1
        | none => false
      let f := framePos d.zone frame
      let x : ChSector := { (default : ChSector) with frame := some frame, desc := d, p0 := p, dists := cs, miss := miss,
                                                      split := f.wedge != f.endWedge }
      let e : SecEnd := ⟨if pass then 4 else 0xF, 0, used, p, 0, 0⟩
      let s := ((s.chAdapt ci true).chSnr ci).vfyLatch ci
      let s := (s.chLog ci x e).chTally ci x e false
      let s := s.slotReport ai frame slot ⟨e.status, 0, 0⟩
      let s := if pass then s else s.verifyFail ai d slot frame
      let s := s.verifyLeave ci
      if s.rateOk ci then s else s.wickAbort ai 5 .rateRange

def execVerifyDecodeEnd (h : Half) (n frame : Nat) (rx : BitVec 160) (iters : Nat) (cw : Option (BitVec 39936)) (s : State) :
    Host.Outcome State Fault Refusal := .next (verifyDecodeEnd h n frame rx iters cw s)

/-! ### Control (R122, R123) -/

/-- An ABORT-class write to a channel (R52, R123): the frame in progress is erased, complete sectors go on, and the
operation ends. -/
def State.chAbort (s : State) (ci : Nat) (st : OpStatus) : State :=
  let busy := s.chBusy ci
  let s := match s.chCur ci with
    | some (j, x) =>
      if x.phase == 0 && s.chState ci != csIdle then
        let early := s.chState ci == csAcquire || s.chState ci == csSync
        let (frame, s) := if early then s.takeTag (chAct ci) (chSlot ci) else (x.frame, s)
        s.chErased ci j { x with frame := frame } 0xE 0 0 x.p0
      else s
    | none => s
  let s := s.setChState ci csIdle
  if busy then (s.flag (chB ci) F.RCH_EVENTS_CFG_CHANGED).wickAbort (chAct ci) 2 st else s

/-- CHANNEL_OFF (R123): EN is cleared. -/
def channelOff (h : Half) (n : Nat) (s : State) : State :=
  let ci := chId h n
  (s.chAbort ci .channelOff).put (chB ci) F.RCH_CTL_EN 0

def execChannelOff (h : Half) (n : Nat) (s : State) : Host.Outcome State Fault Refusal := .next (channelOff h n s)

/-- CHANNEL_CFG (R123): READERS is written. -/
def channelCfg (h : Half) (n readers : Nat) (s : State) : State :=
  let ci := chId h n
  let s := if s.chBusy ci then s.chAbort ci .channelCfg else s
  s.put (chB ci) F.RCH_CTL_READERS readers

def execChannelCfg (h : Half) (n readers : Nat) (s : State) : Host.Outcome State Fault Refusal :=
  .next (channelCfg h n readers s)

/-- REALIGN is cleared (R123): hypotheses not yet started are stopped, and their sectors end with ERASED_NOSAMPLES. -/
def State.realignOff (s : State) (ci : Nat) : State :=
  ((s.rch ci).secs.zipIdx).foldl (fun s e =>
    if e.1.phase == 2 then s.chErased ci e.2 e.1 0xC (e.1.tried.length - 1) e.1.iters (e.1.tried.getLast?.map (·.1) |>.getD e.1.p0)
    else s) s

/-- The slot mask that a preamplifier has acknowledged reaches its channels (R91, R92, R94, R112): one whose bit is clear goes to
IDLE and ends the operation as R123 gives; for the others a head is selected. -/
def State.maskFollow (s : State) (ai : Nat) : State :=
  (List.range 4).foldl (fun s k =>
    let ci := 4 * ai + k
    if (s.ackMask ai).testBit k then s.chSelect ci (s.ackGroup ai)
    else if s.chState ci == csIdle then s
    else s.chAbort ci .channelOff) s

/-- Whether a frame that ends well on a bus is a GRPSEL write. -/
def State.selects (s : State) (ai : Nat) (resp : PaResp) : Bool :=
  match (s.pa ai).cur with
  | some f => respOk f.bits resp && !frameRead f.bits && frameAddr f.bits == 2
  | none => false

/-- PREAMP_FRAME_END (R79, R91): the frame in progress on an actuator's bus ends with what the preamplifier returned, and a new
slot mask reaches the channels. -/
def preampFrameEnd (h : Half) (u : Nat) (resp : PaResp) (s : State) : State :=
  let t := s.busFrameEnd h u resp
  if s.selects (actId h u) resp then t.maskFollow (actId h u) else t

def execPreampFrameEnd (h : Half) (u : Nat) (resp : PaResp) (s : State) : Host.Outcome State Fault Refusal :=
  .next (preampFrameEnd h u resp s)

/-- FREEZE (R122): a freeze is asked for, taking hold at once on an idle channel; or sample memory is unfrozen. -/
def freeze (h : Half) (n : Nat) (on : Bool) (s : State) : State :=
  let ci := chId h n
  let b := chB ci
  let s := s.putB b F.RCH_SMCTL_FREEZE on
  if !on then s.put b F.RCH_STAT_FROZEN 0 else if s.chBusy ci then s else s.put b F.RCH_STAT_FROZEN 1

def execFreeze (h : Half) (n : Nat) (on : Bool) (s : State) : Host.Outcome State Fault Refusal := .next (freeze h n on s)

/-- FROZEN (R122): the operation in progress has ended. -/
def frozen (h : Half) (n : Nat) (s : State) : State :=
  let ci := chId h n
  let b := chB ci
  if s.bit b F.RCH_SMCTL_FREEZE && (s.wick (chAct ci)).desc.isNone && !s.chBusy ci then s.put b F.RCH_STAT_FROZEN 1 else s

def execFrozen (h : Half) (n : Nat) (s : State) : Host.Outcome State Fault Refusal := .next (frozen h n s)

end Sys2Proof.Machine
end

