-- ==== Sys2Proof/Machine/Formatter.lean ====
section
/-! DEFINITION. The formatters (R128 to R164): band splits, heater frames, ABORT-class writes, and the operations that they
hand to Wick. -/

namespace Sys2Proof.Machine

/-! ### BAND_SPLIT (R134) -/

/-- BAND_SPLIT: on a reach alarm of the pass in progress. With AUTO_SPLIT the group's mode in the band alignment table
becomes the one R132 gives for the offsets that the servo has measured, or will be when the alarm's measurement ends (calDone); the
pass ends at the next frame boundary. Without it the operation ends with BAND_REACH. The frames of a write that are cut go to the
rewrite queue. -/
def bandSplit (h : Half) (u : Nat) (s : State) : State :=
  let ai := actId h u
  let b := fmtB ai
  let w := s.wick ai
  let f := s.fmt ai
  match w.desc with
  | none => s
  | some d =>
    if !(s.srv ai).alarm || f.op.isNone || d.kind ≥ 6 || w.abort.isSome || w.aborting || f.splitting then s
    else if !s.bit b F.FMT_CTL_AUTO_SPLIT then s.wickAbort ai 1 .bandReach
    else
      let rd := s.batRd ai
      let mode := modeOf (batReach rd) ((List.range 4).map fun k => batOffset rd d.band (4 * d.group + k))
      let a := s.get b F.FMT_BATBASE_LO_ADDR + s.get b F.FMT_BATBASE_HI_ADDR * 0x100000000 + batEntry d.band + 16
      let old := (rd (batEntry d.band + 16)).toNat
      let new := old - 4 ^ d.group * (old / 4 ^ d.group % 4) + 4 ^ d.group * mode
      let s := if (s.srv ai).cal.any (·.why == 0) then s else s.bufStore a [BitVec.ofNat 8 new]
      let at_ := s.posOf ai (s.lastPlace ai)
      let gm := groupMasks (passSectors (s.defects ai) d (s.writtenFrames ai at_ at_))
      let op := f.op.getD default
      let s := gm.foldl (fun s (k, m) =>
        s.rwqAdd ai ⟨d.band, d.group, 0, 0, k, m, false, op.src, (smFind op.gens k).getD 0⟩ false) s
      let s := (s.flag b F.FMT_EVENTS_BAND_SPLIT).fmtCount ai 3 1
      let s := s.chimney h 6 u 13 (d.band + d.group * 0x1000000)
      (s.setFmt ai { s.fmt ai with splitting := true }).wickAbort ai 1 .ok

def execBandSplit (h : Half) (u : Nat) (s : State) : Host.Outcome State Fault Refusal := .next (bandSplit h u s)

/-- GROWN_LIST_WRITE (R143): the grown list goes to the system bands, which lie on the media. DESIGN CHOICE (log 150). -/
def grownListWrite (h : Half) (u : Nat) (s : State) : State :=
  s.setFmt (actId h u) { s.fmt (actId h u) with grownDue := false }

def execGrownListWrite (h : Half) (u : Nat) (s : State) : Host.Outcome State Fault Refusal :=
  .next (grownListWrite h u s)

/-- The heater power of a register at a speed in rpm (R145): interpolated linearly between its values calibrated at 7,200 rpm and at
4,200 rpm, to the nearest step, halves upwards. DESIGN CHOICE (log 35). -/
def heaterValue (ai i rpm : Nat) : Nat :=
  let (hi, lo) := Config.heaterCal ai i
  let v : Int := (2 * (3000 * (lo : Int) + ((hi : Int) - lo) * ((rpm : Int) - 4200)) + 3000) / 6000
  (v % 256).toNat

/-- HEATER_FRAME_UPDATE (R145, R146): in Ember service, at 100 rpm from the speed of the last heater frames and with both write
gates low, new frames for HTR_RD and HTR_WR of every head. -/
def heaterFrameUpdate (h : Half) (u : Nat) (s : State) : State :=
  let ai := actId h u
  let hd := actHda ai
  let now := s.get (spnB hd) F.SPN_SPEED_RPM / 64
  let f := s.fmt ai
  let moved := if now ≥ f.heaterRpm then now - f.heaterRpm else f.heaterRpm - now
  if !s.bit (spnB hd) F.SPN_CTL_EMBER || moved < 100 || s.gateHigh ai || !(s.port hd).supply then s
  else
    let s := (List.range 16).foldl (fun s i => s.paIssue ai .heater (writeFrame (0x10 + i) (heaterValue ai i now))) s
    s.setFmt ai { s.fmt ai with heaterRpm := now }

def execHeaterFrameUpdate (h : Half) (u : Nat) (s : State) : Host.Outcome State Fault Refusal :=
  .next (heaterFrameUpdate h u s)

/-! ### ABORT-class writes (R161) -/

/-- CFG_CHANGED and the abort request of an ABORT-class write to a busy formatter (R52, R174). -/
def State.fmtAbort (s : State) (ai : Nat) (st : OpStatus) : State :=
  if s.bit (fmtB ai) F.FMT_STAT_BUSY then (s.flag (fmtB ai) F.FMT_EVENTS_CFG_CHANGED).wickAbort ai 2 st else s

/-- FORMAT_OFF (R161): EN is cleared. -/
def formatOff (h : Half) (u : Nat) (s : State) : State :=
  let ai := actId h u
  (s.put (fmtB ai) F.FMT_CTL_EN 0).fmtAbort ai .formatOff

def execFormatOff (h : Half) (u : Nat) (s : State) : Host.Outcome State Fault Refusal := .next (formatOff h u s)

/-- FORMAT_TABLES (R160, R161): FMT_DEFBASE when `defects`, else FMT_BATBASE, is written with one 8-byte write. -/
def formatTables (h : Half) (u : Nat) (defects : Bool) (addr : Nat) (s : State) : State :=
  let ai := actId h u
  let b := fmtB ai
  let s := if defects then (s.put b F.FMT_DEFBASE_LO_ADDR addr).put b F.FMT_DEFBASE_HI_ADDR (addr / 0x100000000)
    else (s.put b F.FMT_BATBASE_LO_ADDR addr).put b F.FMT_BATBASE_HI_ADDR (addr / 0x100000000)
  s.fmtAbort ai .formatTables

def execFormatTables (h : Half) (u : Nat) (defects : Bool) (addr : Nat) (s : State) :
    Host.Outcome State Fault Refusal := .next (formatTables h u defects addr s)

/-! ### Handing over a pass (R133, R171) -/

/-- STATE of a formatter for the KIND of the descriptor it hands over (R160, R171). -/
def fmtStateOf (kind : Nat) : Nat :=
  if kind == 0 || kind == 5 then 1 else if kind == 1 then 2 else if kind == 2 then 3 else if kind == 3 then 4
  else if kind == 4 then 5 else 0

/-- Whether the spindle of an HDA slews at 50 rpm/s at most (R146, R224). -/
def State.slewOk (s : State) (hd : Nat) : Bool := s.spnState hd != spRun || decide ((s.spn hd).slew ≤ 64 * 50)

/-- Whether the formatter can hand a descriptor over now (R89, R160, R178, R180, R450): enabled, the harness port ATTACHED,
Wick accepting operations and holding none, the domains of the actuator ON, and the spindle's speed slewing at 50 rpm/s at most (R146,
R224). -/
def State.handReady (s : State) (ai : Nat) : Bool :=
  let w := s.wick ai
  s.bit (fmtB ai) F.FMT_CTL_EN && s.hdaUp (actHda ai) && s.wckUp ai && s.portState (actHda ai) == 4 &&
    s.bit (wckB ai) F.WCK_CTL_EN && w.desc.isNone && !w.held && !w.patchDue &&
    s.slewOk (actHda ai) && s.domState (actHalf ai) (14 + ai % 8) == 3 && s.domState (actHalf ai) (22 + actHda ai % 4) == 3

/-- Frames of the sectors of a pass (R136); a relocation is written at its spare (R143). -/
def State.framesOf (s : State) (ai : Nat) (op : FmtOp) (secs : List (Nat × Nat)) : List Nat :=
  let ds := s.defects ai
  let band := op.req.band
  let group := op.req.group
  let spares := fun (e : RwqEntry) =>
    ((s.relocPlan ai band group (maskBits e.mask)).filter fun x => secs.any (·.2 == x.1)).map (·.2)
  match op.entry with
  | some e => if e.kind == 3 then spares e else secs.map fun x => seatOf ds band group x.1 x.2
  | none => secs.map fun x => seatOf ds band group x.1 x.2

/-- The operation shows in FMT_STAT. -/
def State.showOp (s : State) (ai kind mode : Nat) : State :=
  let b := fmtB ai
  ((s.put b F.FMT_STAT_STATE (fmtStateOf kind)).put b F.FMT_STAT_BUSY 1).put b F.FMT_STAT_MODE mode

/-- The next pass of the operation in progress goes to Wick. GRPSEL first names its group and mask (R171); a Wick that is
FAULTED ends the operation with WICK_FAULT (R173); a reach alarm's measurement comes first (R203); an operation with nothing left to reach is settled. DEDUCED (log 31).
DESIGN CHOICE (log 34). DEDUCED (log 184). -/
def State.handPass (s : State) (ai kind : Nat) : State :=
  match (s.fmt ai).op with
  | none => s
  | some op =>
    if s.wckState ai == wkFaulted then s.fmtEnd ai .wickFault []
    else if (s.srv ai).cal.any (·.why == 0) then s
    else
      match nextPass op.mode ((s.fmt ai).wanted op) with
      | none => if op.reads then s.readSettle ai op else s.writeSettle ai op
      | some (pass, mask, secs) =>
        let s := s.showOp ai kind op.mode
        if s.ackGroup ai != op.req.group || s.ackMask ai != mask then
          let bits := writeFrame 2 (op.req.group + 16 * mask)
          let waits := (s.pa ai).queue.any (·.bits == bits) || (s.pa ai).cur.any (·.bits == bits)
          if waits then s else s.paIssue ai .media bits
        else
          let z := zoneOf (s.batRd ai) op.req.band
          let span := frameSpan (s.framesOf ai op secs)
          let (n, s) := s.takeFree
          let s := if kind == 4 && op.pass == 0 then s.fmtCount ai 2 1 else s
          let s := s.setFmt ai { s.fmt ai with op := some { op with pass := op.pass + 1 }, snuffed := false, cutting := false }
          s.wickStart ai ⟨kind, op.req.band, z, op.req.group, mask, span.1, span.2, zK z, zNw z, pass,
            Config.freeNat n % 2 ^ 24⟩

/-- An operation begins. -/
def State.beginOp (s : State) (ai : Nat) (r : FmtReq) (e : Option RwqEntry) (direct : Bool) : State :=
  let op : FmtOp := { req := r, mode := s.bandMode ai r.band r.group, pass := 0, retries := 0, gens := [], entry := e,
                      stuck := [], torn := [], direct := direct, ues := [], rangeWait := false }
  s.setFmt ai { s.fmt ai with op := some op, results := [], snuffed := false, cutting := false, endAs := none }

/-- The request at the head of the queue, if it is of a kind, becomes the operation. -/
def State.takeReq (s : State) (ai kind : Nat) : State :=
  let f := s.fmt ai
  match f.op, f.queue with
  | none, r :: q =>
    if r.kind != kind then s
    else
      let s := s.setFmt ai { f with queue := q }
      if s.wckState ai == wkFaulted then s.endReq ai r .wickFault []
      else if kind == 5 && bandRetired (s.batRd ai) (s.defects ai) r.band r.group then s.endReq ai r .bandRetired []
      else s.beginOp ai r none false
  | _, _ => s

/-- Whether the operation in progress is a first reading of a kind, or a retry of one. -/
def FmtOp.isRead (op : FmtOp) (kind : Nat) : Bool := op.entry.isNone && op.retries == 0 && op.req.kind == kind

/-- A reading pass of a kind (R137, R155, R171). -/
def State.readRow (s : State) (ai kind : Nat) : State :=
  if !s.handReady ai then s
  else
    let s := s.takeReq ai kind
    if (s.fmt ai).op.any (·.isRead kind) then s.handPass ai kind else s

/-- READ_PASS (R133, R137). -/
def readPass (h : Half) (u : Nat) (s : State) : State := s.readRow (actId h u) 0
def execReadPass (h : Half) (u : Nat) (s : State) : Host.Outcome State Fault Refusal := .next (readPass h u s)

/-- VERIFY_PASS (R155). -/
def verifyPass (h : Half) (u : Nat) (s : State) : State := s.readRow (actId h u) 2
def execVerifyPass (h : Half) (u : Nat) (s : State) : Host.Outcome State Fault Refusal := .next (verifyPass h u s)

/-- SYSTEM_BAND_READ (R171): in mode 2. -/
def systemBandRead (h : Half) (u : Nat) (s : State) : State := s.readRow (actId h u) 5
def execSystemBandRead (h : Half) (u : Nat) (s : State) : Host.Outcome State Fault Refusal :=
  .next (systemBandRead h u s)

/-- RETRY_REVOLUTION (R140): a KIND 4 descriptor rereads what is erased. -/
def retryRevolution (h : Half) (u : Nat) (s : State) : State :=
  let ai := actId h u
  if !s.handReady ai then s
  else if (s.fmt ai).op.any fun op => decide (op.retries > 0) then s.handPass ai 4 else s

def execRetryRevolution (h : Half) (u : Nat) (s : State) : Host.Outcome State Fault Refusal :=
  .next (retryRevolution h u s)

/-- STRIPE_READ_FILL (R148): the missing sectors of a write's stripe groups are taken from PINNED or SEGMENT; the answer is
the stripe groups that still want a read. -/
def State.stageFill (s : State) (ai : Nat) (r : FmtReq) : State × List Nat :=
  ((List.range r.count).map (r.stripe + ·)).foldl (fun (st : State × List Nat) k =>
    (List.range 60).foldl (fun (st : State × List Nat) i =>
      let s := st.1
      let key := sectorKey (unitOf ai r.group) (s.stripeMsa ai r.band r.group k i)
      if (smFind s.staging key).isSome then st
      else
        match (smFind s.pinned key).or (smFind s.segment key) with
        | some d => ({ s with staging := smInsert s.staging key d }, st.2)
        | none => (s, if st.2.contains k then st.2 else st.2 ++ [k])) st) (s, [])

/-- Whether a new write pass may start (R148, R156): no Snuffer cause active, the rewrite queue not full, and no entry to be served
ahead of it. -/
def State.writeReady (s : State) (ai : Nat) : Bool :=
  let f := s.fmt ai
  !f.snuffedNow && !f.rwqFull && f.rwq.isEmpty && f.nextCheck.isEmpty

/-- The request that a spill mark makes (R157): a complete write of its stripe group, ahead of new passes. -/
def spillReq (m : SpillMark) : FmtReq := ⟨1, 0, m.group, m.band, m.stripe, 1, m.verify, false, 0, m.cmd⟩

/-- Spill marks become the first requests. -/
def State.spillQueue (s : State) (ai : Nat) : State :=
  let f := s.fmt ai
  match f.spill with
  | m :: _ => if f.queue.any (· == spillReq m) then s else s.setFmt ai { f with queue := spillReq m :: f.queue }
  | [] => s

/-- STAGED_DATA_UE (R268): sectors whose second read from the buffer meets a UE are written so that no decode converges, and
an entry of KIND 2 is made for each. -/
def State.stagedUe (s : State) (ai : Nat) (ues : List (Nat × Nat)) : State :=
  match (s.fmt ai).op with
  | none => s
  | some op =>
    let mine := ues.filter fun x => op.stripes.contains x.1 && x.2 < 64
    let s := s.setFmt ai { s.fmt ai with op := some { op with ues := mine } }
    mine.foldl (fun s (k, i) => s.rwqAdd ai ⟨op.req.band, op.req.group, 2, 0, k, 2 ^ i, false, op.src, 0⟩ true) s

/-- A write begins (R147, R148): its missing sectors are fetched, by a read ahead of it where the buffer has none; once every
stripe group is staged its parity is computed, and the first pass goes to Wick. -/
def State.writeBegin (s : State) (ai : Nat) (ues : List (Nat × Nat)) : State :=
  match (s.fmt ai).queue with
  | [] => s
  | r :: q =>
    if r.kind != 1 then s
    else
      let (s, missing) := s.stageFill ai r
      match missing with
      | [] =>
        let s := s.takeReq ai 1
        match (s.fmt ai).op with
        | some op => ((op.stripes.foldl (fun s k => s.stageParity ai r.band r.group k) s).stagedUe ai ues).handPass ai 1
        | none => s
      | k :: t =>
        let last := t.getLast?.getD k
        s.setFmt ai { s.fmt ai with
          queue := ⟨0, 0, r.group, r.band, k, last + 1 - k, false, true, 0, 0⟩ :: r :: q }

/-- WRITE_PASS (R147, R148, R156, R157, R173): a write begins once every stripe group is fully staged, or goes on with its next
pass; `ues` are the sectors whose staged data meets a UE at the second read. While Wick is FAULTED a write ends at once. -/
def writePass (h : Half) (u : Nat) (ues : List (Nat × Nat)) (s : State) : State :=
  let ai := actId h u
  if !s.handReady ai then s
  else match (s.fmt ai).op with
    | some op =>
      let ready := if op.direct then !(s.fmt ai).snuffedNow else s.writeReady ai
      if op.entry.isNone && op.req.kind == 1 && (ready || s.wckState ai == wkFaulted) then s.handPass ai 1 else s
    | none =>
      if s.wckState ai == wkFaulted then s.takeReq ai 1
      else if s.writeReady ai then (s.spillQueue ai).writeBegin ai ues
      else s

def execWritePass (h : Half) (u : Nat) (ues : List (Nat × Nat)) (s : State) : Host.Outcome State Fault Refusal :=
  .next (writePass h u ues s)

/-- An entry taken for service. Sectors of a relocation for which no spare is free stay where they are (R143). -/
def State.serveEntry (s : State) (ai : Nat) (e : RwqEntry) (direct : Bool) : State :=
  let req : FmtReq := ⟨3, 0, e.group, e.band, e.stripe, 1, false, false, 0, e.cmd⟩
  if e.kind != 3 then (s.beginOp ai req (some e) direct).handPass ai 3
  else
    let plan := s.relocPlan ai e.band e.group (maskBits e.mask)
    let short := (maskBits e.mask).filter fun i => !plan.any (·.1 == i)
    let s := short.foldl (fun s i => s.sparesLow ai e.band (headOfPos e.group i)) s
    if plan.isEmpty then s.stagingDrain ai e.band e.group [e.stripe]
    else
      let e := { e with mask := plan.foldl (fun m x => m ||| 2 ^ x.1) 0 }
      (s.beginOp ai req (some e) direct).handPass ai 3

/-- REWRITE_ENTRY (R156, R157): the check that has no entry, else the first entry, is served, also between two passes of a write;
none while a Snuffer cause is active or while the half does not own the HDA. DESIGN CHOICE (log 32). DESIGN CHOICE (log 44). -/
def rewriteEntry (h : Half) (u : Nat) (s : State) : State :=
  let ai := actId h u
  let f := s.fmt ai
  if !s.handReady ai || f.snuffedNow || !s.ownLine (actHda ai) then s
  else if f.op.any (·.entry.isSome) then (if f.op.any (·.retries == 0) then s.handPass ai 3 else s)
  else if f.op.any fun op => op.req.kind != 1 || op.direct then s
  else
    let held := f.op.map fun op => (⟨op, f.results⟩ : HeldWrite)
    match f.nextCheck, f.rwq with
    | e :: t, _ => (s.setFmt ai { f with nextCheck := t, op := none, held := held }).serveEntry ai e true
    | [], e :: t => ((s.setFmt ai { f with op := none, held := held }).setRwq ai t).serveEntry ai e false
    | [], [] => s

def execRewriteEntry (h : Half) (u : Nat) (s : State) : Host.Outcome State Fault Refusal := .next (rewriteEntry h u s)

/-- A descriptor that transfers nothing: a seek or a park (R171). A retired band is not worked for the group selected (R142). -/
def State.moveRow (s : State) (ai kind band : Nat) : State :=
  if !s.handReady ai || (s.fmt ai).op.isSome || bandRetired (s.batRd ai) (s.defects ai) band (s.ackGroup ai) then s
  else
    let s := s.beginOp ai ⟨kind, 0, 0, band, 0, 0, false, false, 0, 0⟩ none false
    if s.wckState ai == wkFaulted then s.fmtEnd ai .wickFault []
    else
      let z := zoneOf (s.batRd ai) band
      let (n, s) := s.takeFree
      (s.showOp ai kind (s.bandMode ai band 0)).wickStart ai
        ⟨kind, band, z, s.ackGroup ai, s.ackMask ai, 0, 0, zK z, zNw z, 0, Config.freeNat n % 2 ^ 24⟩

/-- SEEK_ONLY (R171). -/
def seekOnly (h : Half) (u band : Nat) (s : State) : State := s.moveRow (actId h u) 6 band
def execSeekOnly (h : Half) (u band : Nat) (s : State) : Host.Outcome State Fault Refusal := .next (seekOnly h u band s)

/-- PARK (R171). -/
def parkRow (h : Half) (u : Nat) (s : State) : State := s.moveRow (actId h u) 7 0
def execPark (h : Half) (u : Nat) (s : State) : Host.Outcome State Fault Refusal := .next (parkRow h u s)

/-! ### Snuffer's shock cause, and re-arming (R150, R152, R153) -/

/-- SHOCK_TH as it acts, in 0.001 g (R162): values below 0x0A act as 0x0A. -/
def State.shockTh (s : State) (ai : Nat) : Nat := 100 * max 0x0A (s.get (fmtB ai) F.FMT_SNFCFG_SHOCK_TH)

/-- SNUFFER_SHOCK (R45, R150, R152, R162): the acceleration, in 0.001 g, above which the half's shock sensor has stayed for 8 µs
without a break. Every actuator of the half whose SHOCK_TH lies below it trips, and the frames with the write gate high in the
last 8 µs are rewritten. The symbols of 8 µs follow from the wedge period that the servo measures. -/
def snufferShock (h : Half) (level : Nat) (s : State) : State :=
  if !s.coreUp h then s
  else (List.range 8).foldl (fun s u =>
      let ai := actId h u
      let fr := match (s.wick ai).desc with
        | none => []
        | some d =>
          let now := s.posOf ai (s.lastPlace ai)
          let back := zNw d.zone * 8000 / max 1 (s.get (srvB ai) F.SRV_WEDGE_PERIOD) + 1
          s.writtenFrames ai (now - back) now
      if level > s.shockTh ai then s.snufTrip ai .shock 0 fr else s) s

def execSnufferShock (h : Half) (level : Nat) (s : State) : Host.Outcome State Fault Refusal := .next (snufferShock h level s)

/-- SNUFFER_REARM (R153), by cause: 0 POS and 2 IMPLAUS after REARM clean wedges, 1 SHOCK after 2 ms in which the acceleration, at
most `peak` in 0.001 g, stayed at or below SHOCK_TH, 3 OWNER when ownership has returned. -/
def snufferRearm (h : Half) (u cause peak : Nat) (s : State) : State :=
  let ai := actId h u
  let f := s.fmt ai
  let need := min1 (s.get (fmtB ai) F.FMT_SNFCFG_REARM)
  if cause == 0 then (if f.pos && f.cleanPos ≥ need then s.snufRearm ai .pos else s)
  else if cause == 1 then (if f.shock && peak ≤ s.shockTh ai then s.snufRearm ai .shock else s)
  else if cause == 2 then (if f.implaus && f.cleanImplaus ≥ need then s.snufRearm ai .implaus else s)
  else if cause == 3 then (if f.owner && s.ownLine (actHda ai) then s.snufRearm ai .owner else s)
  else s

def execSnufferRearm (h : Half) (u cause peak : Nat) (s : State) : Host.Outcome State Fault Refusal :=
  .next (snufferRearm h u cause peak s)

end Sys2Proof.Machine
end

