-- ==== Sys2Proof/Machine/Spindle.lean ====
section
/-! DEFINITION. The spindle engines (R216 to R250): commutation, speed control, the Ke check, Taper starts, catching a lost
rotor, stopping and braking. -/

namespace Sys2Proof.Machine

/-! ### Speeds and targets -/

/-- A speed in rpm as the 1/64 rpm of SPN_SPEED (R246). -/
def rpm (n : Nat) : Nat := 64 * n

def spnHalf (hd : Nat) : Half := hdaHalf hd
/-- First 48-bit counter of a spindle engine (R487). -/
def spnCnt (hd : Nat) : Nat := 448 + 8 * (hd % 4)

/-- The lowest Ember speed: the larger of 4,200 and RPM_EMBER_MIN. -/
def State.emberFloor (s : State) (hd : Nat) : Nat := max 4200 (s.ident hd 0x50 2)

/-- The target in force, after class and KE_CAP (R223, R226, R246). -/
def State.spnTarget (s : State) (hd : Nat) : Nat :=
  let b := spnB hd
  let base := if s.bit b F.SPN_CTL_EMBER then
      min 7200 (max (s.emberFloor hd) (s.get b F.SPN_TARGET_EMBER_RPM)) else 7200
  if s.bit b F.SPN_STAT_KE_CAP then min base (s.emberFloor hd) else base

def State.showTarget (s : State) (hd : Nat) : State := s.put (spnB hd) F.SPN_TARGET_TARGET (s.spnTarget hd)

/-- The target in force, in 1/64 rpm. -/
def State.target (s : State) (hd : Nat) : Nat := rpm (s.get (spnB hd) F.SPN_TARGET_TARGET)

/-- A write of EMBER or EMBER_RPM (R247): an engine that has electrical cycles takes the new target at the next one, any other at
once. -/
def State.targetWrite (s : State) (hd : Nat) : State :=
  let st := s.spnState hd
  if st == spAccel || st == spRun || (st == spCatch && (s.spn hd).resumed) then s else s.showTarget hd

/-- The ns of an electrical step at a speed in 1/64 rpm, of which a revolution has 36, and the speed of a step (R216, R222). -/
def stepNs (speed : Nat) : Nat := if speed = 0 then 0 else 64 * 60000000000 / (36 * speed)

/-- Whether a phase of a start has lasted its time (R229 to R233). -/
def State.phaseOver (s : State) (hd us : Nat) : Bool :=
  decide ((s.usTime + 2 ^ 48 - (s.spn hd).phaseAt) % 2 ^ 48 ≥ us)

/-- Phase-current limits in mA: values above I_SPN_MAX act as I_SPN_MAX (R248). -/
def State.iRun (s : State) (hd : Nat) : Nat := min (s.get (spnB hd) F.SPN_ILIM_I_RUN) (s.ident hd 0x58 2)
def State.iAccel (s : State) (hd : Nat) : Nat := min (s.get (spnB hd) F.SPN_ILIM_I_ACCEL) (s.ident hd 0x58 2)

/-- BRK_I in mA: values above I_RUN act as I_RUN (R248). -/
def State.brkI (s : State) (hd : Nat) : Nat := min (s.get (spnB hd) F.SPN_BRKCFG_BRK_I) (s.iRun hd)

/-- I_ALIGN in mA (R249). -/
def State.iAlign (s : State) (hd : Nat) : Nat := 10 * s.get (spnB hd) F.SPN_TAPCFG_I_ALIGN

/-- A media operation of the HDA is queued or running (R146, R223). -/
def State.mediaBusy (s : State) (hd : Nat) : Bool :=
  [2 * hd, 2 * hd + 1].any fun ai => (s.fmt ai).op.isSome || !(s.fmt ai).queue.isEmpty

/-- A write pass runs on the HDA (R225). -/
def State.writeRuns (s : State) (hd : Nat) : Bool :=
  [2 * hd, 2 * hd + 1].any fun ai => match (s.wick ai).desc with
    | some d => d.kind == 1 || d.kind == 3
    | none => false

/-- PARK asked of both actuators (R236, R237). -/
def State.parkBoth (s : State) (hd : Nat) : State := (s.servoParkCmd (2 * hd)).servoParkCmd (2 * hd + 1)

/-! ### Braking (R223, R237, R238) -/

/-- How a braking or decelerating spindle brakes now: regenerative with a slot while the chopper is available and the
ladder has not switched it, short-braking otherwise, at BRK_I in both. A request for a slot is made when one would help. -/
def State.brakeChoose (s : State) (hd : Nat) : State :=
  let v := s.spn hd
  let can := !s.mot.chopFailed && !s.mot.chopHot && !v.forcedShort
  let has := s.mot.brake.testBit hd
  let s := if can && !has && !s.mot.waitB.contains hd then
      { s with mot := { s.mot with waitB := s.mot.waitB ++ [hd] } }
    else if !can then s.dropBrake hd else s
  (s.setSpn hd { v with regen := can && has, short := !(can && has), cur := s.brkI hd }).showBridge hd

/-- Braking ends: slot and request given up. -/
def State.brakeEnd (s : State) (hd : Nat) : State :=
  let s := s.dropBrake hd
  (s.setSpn hd { s.spn hd with regen := false, short := false, forcedShort := false }).showBridge hd

/-- BRAKE is entered (R237): regenerative down to STOP_RPM, short-braking below. -/
def State.enterBrake (s : State) (hd : Nat) : State :=
  let s := s.setSpnState hd spBrake
  if (s.spn hd).emf ≤ rpm (s.get (spnB hd) F.SPN_BRKCFG_STOP_RPM) then
    let s := s.dropBrake hd
    (s.setSpn hd { s.spn hd with regen := false, short := true, cur := s.brkI hd }).showBridge hd
  else s.brakeChoose hd

/-! ### Starting (R227, R228, R242) -/

/-- A request for a Taper slot, in order of arrival; in one Glim tick the lower HDA first (R227). -/
def State.requestTaper (s : State) (hd : Nat) : State :=
  let e := (s.ticks, hd)
  let before := fun (x : Nat × Nat) => x.1 < e.1 || (x.1 == e.1 && x.2 < e.2)
  let l := s.mot.waitT.filter (·.2 ≠ hd)
  { s with mot := { s.mot with waitT := l.filter (fun x => before x) ++ [e] ++ l.filter fun x => !before x } }

/-- What a START accepted does, by the speed the back-EMF shows (R228). -/
def State.startAccept (s : State) (hd : Nat) : State :=
  let v := s.spn hd
  let late := rpm 30 ≤ v.emf && v.emf ≤ rpm 300
  let s := s.setSpn hd { v with startWaits := false, lateRequest := late, interrupted := false, startCatch := false }
  let s := (s.put (spnB hd) F.SPN_TAPSTAT_ATTEMPT 0).setSpnState hd spWait
  let s := s.showTarget hd
  if late then s else s.requestTaper hd

/-- What START asks for beside the state (R228). -/
def State.startOk (s : State) (hd : Nat) : Bool :=
  s.get (grzB hd) F.GRZ_PORTSTAT_STATE == 4 && s.get (spnB hd) F.SPN_KEREF_KE_REF != 0 &&
    s.get (spnB hd) F.SPN_ILIM_I_RUN != 0 && s.ownLine hd

/-- STOPPED, or OFF after EN has been cleared, is entered; a START that waits is applied (R237, R242). -/
def State.enterStopped (s : State) (hd : Nat) : State :=
  let v := s.spn hd
  let s := s.setSpn hd { v with stopPending := false, interrupted := false, lateRequest := false, endFailed := false,
                                endOff := false, startWaits := v.startWaits && !v.endOff }
  let s := s.setSpnState hd (if v.endOff then spOff else spStopped)
  if v.startWaits && !v.endOff && s.startOk hd && s.mot.step != 3 then s.startAccept hd else s

/-- START (R228, R242). In LADDER, and while step 3 is active, it waits. -/
def State.spnStart (s : State) (hd : Nat) : State :=
  let st := s.spnState hd
  if st == spLadder || (st == spStopped && s.mot.step == 3) then s.setSpn hd { s.spn hd with startWaits := true }
  else if st == spStopped && s.startOk hd then s.startAccept hd
  else s

def execStart (h : Half) (n : Nat) (s : State) : Host.Outcome State Fault Refusal := .next (s.spnStart (hdaId h n))

/-- STOP, or EN cleared when `off` (R237, R244, R247). -/
def State.spnStop (s : State) (hd : Nat) (off : Bool) : State :=
  let st := s.spnState hd
  let v := s.spn hd
  if st == spOff then s
  else if st == spStopped || st == spFailed then
    if off then (s.setSpn hd { v with startWaits := false }).setSpnState hd spOff else s
  else
    let s := s.setSpn hd { v with endOff := v.endOff || off, startWaits := v.startWaits && !off }
    if st == spWait then
      let s := s.dropTaper hd
      let s := s.setSpn hd { s.spn hd with lateRequest := false, interrupted := false }
      if v.emf < rpm 30 then s.enterStopped hd else (s.parkBoth hd).setSpnState hd spParking
    else if st == spAlign || st == spSense || st == spCoast then (s.dropTaper hd).enterBrake hd
    else if st == spRamp || st == spAccel || st == spRun || st == spCatch then
      let s := (s.dropTaper hd).brakeEnd hd
      let s := s.setSpn hd { s.spn hd with resumed := false, skipOn := false }
      (s.parkBoth hd).setSpnState hd spParking
    else if st == spLadder then s.setSpn hd { s.spn hd with stopPending := true }
    else s

def execStop (h : Half) (n : Nat) (s : State) : Host.Outcome State Fault Refusal :=
  .next (s.spnStop (hdaId h n) false)

/-- SPINDLE_EN_SET (R244). -/
def spindleEnSet (h : Half) (n : Nat) (s : State) : State :=
  let hd := hdaId h n
  let s := s.put (spnB hd) F.SPN_CTL_EN 1
  if s.spnState hd == spOff then (s.setSpnState hd spStopped).showTarget hd else s

def execSpindleEnSet (h : Half) (n : Nat) (s : State) : Host.Outcome State Fault Refusal := .next (spindleEnSet h n s)

/-- SPINDLE_OFF (R247): operations of the HDA end with SPINDLE_OFF, EN cleared acts as STOP, and a busy engine sets CFG_CHANGED
(R52). -/
def spindleOff (h : Half) (n : Nat) (s : State) : State :=
  let hd := hdaId h n
  let s := s.put (spnB hd) F.SPN_CTL_EN 0
  let st := s.spnState hd
  let s := if st == spOff || st == spStopped || st == spFailed then s
           else ((s.flag (spnB hd) F.SPN_EVENTS_CFG_CHANGED).wickAbort (2 * hd) 7 .spindleOff).wickAbort (2 * hd + 1) 7 .spindleOff
  s.spnStop hd true

def execSpindleOff (h : Half) (n : Nat) (s : State) : Host.Outcome State Fault Refusal := .next (spindleOff h n s)

/-- An attempt of a start begins (R229, R230, R233): SENSE, or ALIGN with I_ALIGN through the vector of step 5. What page 2 gives for
the phase is taken here (R249). -/
def State.attempt (s : State) (hd : Nat) (inductive_ : Bool) : State :=
  let b := spnB hd
  let s := s.put b F.SPN_TAPSTAT_ATTEMPT (min 3 (s.get b F.SPN_TAPSTAT_ATTEMPT + 1))
  let s := s.putB b F.SPN_TAPSTAT_METHOD inductive_
  let s := s.count b F.SPN_CNT_START_COUNT (spnHalf hd) (spnCnt hd) 1
  let us := if inductive_ then 6 * min 100 (s.get b F.SPN_INDCFG_PULSE_US) + 5000
    else 10000 * (min1 (s.get b F.SPN_TAPCFG_T_ALIGN1) + min1 (s.get b F.SPN_TAPCFG_T_ALIGN2))
  let v := { s.spn hd with phaseAt := s.usTime, phaseUs := us, step := 5,
                           pulseLim := 10 * s.get b F.SPN_INDCFG_I_PULSE_LIM, cur := if inductive_ then 0 else s.iAlign hd }
  (s.setSpn hd v).setSpnState hd (if inductive_ then spSense else spAlign)

/-- A catch-spin attempt begins (R235). -/
def State.catchAttempt (s : State) (hd try_ : Nat) : State :=
  let s := s.put (spnB hd) F.SPN_STAT_CATCH_TRY try_
  let s := s.setSpn hd { s.spn hd with resumed := false, unconf := 0, skips := 0, conf := 0, ocpRun := 0, skipOn := false }
  (s.setSpnState hd spCatch).count (spnB hd) F.SPN_CNT_CATCH_COUNT (spnHalf hd) (spnCnt hd + 3) 1

/-- TAPER_SLOT_GRANT (R227, R228): the first request, while fewer than two slots are held, power allows it, and no measure
of R243 is in force. -/
def taperSlotGrant (s : State) : State :=
  match s.mot.waitT with
  | [] => s
  | (_, hd) :: rest =>
    let held := ((List.range 8).filter s.mot.taper.testBit).length
    if held ≥ 2 || s.mot.overBudget || s.mot.pmot + s.mot.taperP > s.mot.budget || s.spnState hd != spWait then s
    else
      let s := { s with mot := { s.mot with waitT := rest, taper := s.mot.taper ||| 2 ^ hd } }
      let v := s.spn hd
      let s := s.setSpn hd { v with taperAt := s.usTime, interrupted := false, parkAsked := false, unconf := 0, conf := 0,
                                    skips := 0, ocpRun := 0, startCatch := decide (v.emf > rpm 300), left := spAccel }
      if v.emf > rpm 300 then s.catchAttempt hd 1
      else s.attempt hd (s.ident hd 0x67 1 % 2 == 1 || s.bit (spnB hd) F.SPN_TAPCFG_FORCE_INDUCT)

def execTaperSlotGrant (s : State) : Host.Outcome State Fault Refusal := .next (taperSlotGrant s)

/-- RAMP is entered at a commutation step (R231), with RAMP_T as it is now. -/
def State.enterRamp (s : State) (hd step : Nat) : State :=
  let v := { s.spn hd with step := step, unconf := 0, conf := 0, skips := 0, ocpRun := 0, rampK := 0, since := 0, sinceNs := 0,
                           periods := [], rampT := max 200 (s.get (spnB hd) F.SPN_TAPRAMP_RAMP_T), phaseAt := s.usTime,
                           cur := s.iAlign hd }
  (s.setSpn hd v).setSpnState hd spRamp

/-- ALIGN_END (R229): after T_ALIGN1 + T_ALIGN2 the rotor rests at the angle of step 0. -/
def alignEnd (h : Half) (n : Nat) (s : State) : State :=
  let hd := hdaId h n
  if s.spnState hd == spAlign && s.phaseOver hd (s.spn hd).phaseUs then s.enterRamp hd 0 else s

def execAlignEnd (h : Half) (n : Nat) (s : State) : Host.Outcome State Fault Refusal := .next (alignEnd h n s)

/-- A failed attempt coasts the bridge, keeping its slot (R233). -/
def State.attemptFail (s : State) (hd : Nat) : State :=
  (s.setSpn hd { s.spn hd with phaseAt := s.usTime, cur := 0 }).setSpnState hd spCoast

/-- SENSE_END (R230): after six pulses, the peak currents of the six vectors in mA; a pulse ends at I_PULSE_LIM. The highest names the
sector, unless the second comes within 3 % of it. -/
def senseEnd (h : Half) (n : Nat) (peaks : List Nat) (s : State) : State :=
  let hd := hdaId h n
  if s.spnState hd != spSense || !s.phaseOver hd (s.spn hd).phaseUs then s
  else
    let p := fun k => min (s.spn hd).pulseLim (peaks.getD k 0)
    let best := (List.range 6).foldl (fun b k => if p k > p b then k else b) 0
    let second := ((List.range 6).filter (· != best)).foldl (fun m k => max m (p k)) 0
    if (p best - second) * 100 < 3 * p best || p best == 0 then s.attemptFail hd
    else (s.put (spnB hd) F.SPN_TAPSTAT_SECTOR best).enterRamp hd best

def execSenseEnd (h : Half) (n : Nat) (peaks : List Nat) (s : State) : Host.Outcome State Fault Refusal :=
  .next (senseEnd h n peaks s)

/-- Whether the blind ramp has reached 300 rpm: after 90 steps for each second of RAMP_T (R231). -/
def Spn.rampDone (v : Spn) : Bool := decide (v.rampK * 1000 ≥ 90 * v.rampT)

/-- RAMP_HANDOVER (R231): 12 consecutive confirmed steps, at 300 rpm or above. -/
def rampHandover (h : Half) (n : Nat) (s : State) : State :=
  let hd := hdaId h n
  let v := s.spn hd
  if s.spnState hd == spRamp && v.conf ≥ 12 && v.rampDone then
    let s := s.showTarget hd
    (s.setSpn hd { v with ref := s.target hd, left := spAccel, nearAt := none }).setSpnState hd spAccel
  else s

def execRampHandover (h : Half) (n : Nat) (s : State) : Host.Outcome State Fault Refusal := .next (rampHandover h n s)

/-- RAMP_TIMEOUT (R231): RAMP_T + 500 ms without handover, the attempt fails; ALIGN_FAIL for one that began with alignment. -/
def rampTimeout (h : Half) (n : Nat) (s : State) : State :=
  let hd := hdaId h n
  let b := spnB hd
  if s.spnState hd != spRamp || !s.phaseOver hd (1000 * ((s.spn hd).rampT + 500)) then s
  else
    let s := if s.bit b F.SPN_TAPSTAT_METHOD then s
      else (s.flag b F.SPN_EVENTS_ALIGN_FAIL).count b F.SPN_CNT_ALIGNFAIL_COUNT (spnHalf hd) (spnCnt hd + 1) 1
    s.attemptFail hd

def execRampTimeout (h : Half) (n : Nat) (s : State) : Host.Outcome State Fault Refusal := .next (rampTimeout h n s)

/-- COAST_END (R233): below 30 rpm and after 2 s, the next attempt with inductive sensing, or after the third START_FAIL and
FAILED. -/
def coastEnd (h : Half) (n : Nat) (s : State) : State :=
  let hd := hdaId h n
  let b := spnB hd
  if s.spnState hd != spCoast || decide ((s.spn hd).emf ≥ rpm 30) || !s.phaseOver hd 2000000 then s
  else if s.get b F.SPN_TAPSTAT_ATTEMPT < 3 then s.attempt hd true
  else (((s.dropTaper hd).flag b F.SPN_EVENTS_START_FAIL).chimney h 9 n 29 0).setSpnState hd spFailed

def execCoastEnd (h : Half) (n : Nat) (s : State) : Host.Outcome State Fault Refusal := .next (coastEnd h n s)

/-- TAPER_END (R232): after 1 s at speed the slot is released, RUN, START_DONE, LAST_MS; a Ke measurement is due; the mean
on-resistance of the bridge's switches, in 0.1 mΩ, goes to MOT_BRG.RDSON and its lamp (R253, R481). -/
def taperEnd (h : Half) (n rdson : Nat) (s : State) : State :=
  let hd := hdaId h n
  let b := spnB hd
  let stayed := (s.spn hd).nearAt.any fun t => decide ((s.usTime + 2 ^ 48 - t) % 2 ^ 48 ≥ 1000000)
  if s.spnState hd == spAccel && s.bit b F.SPN_STAT_AT_SPEED && stayed then
    let ms := (s.usTime + 2 ^ 48 - (s.spn hd).taperAt) % 2 ^ 48 / 1000
    let s := s.dropTaper hd
    let s := s.setSpn hd { s.spn hd with keWaits := true, ref := s.target hd, slew := 0, left := spRun }
    let s := (s.flag b F.SPN_EVENTS_START_DONE).put b F.SPN_TAPSTAT_LAST_MS (min 0xFFFF ms)
    let s := (s.put (brgB hd) F.BRG_RDSON (min 0xFFFF rdson)).lampMeasure h (12 + hd % 4) (min 0xFFFF rdson : Nat)
    s.setSpnState hd spRun
  else s

def execTaperEnd (h : Half) (n rdson : Nat) (s : State) : Host.Outcome State Fault Refusal := .next (taperEnd h n rdson s)

/-! ### Commutation and the observer (R216 to R220) -/

/-- The states in which the engine commutates and judges its steps. -/
def State.commutates (s : State) (hd : Nat) : Bool :=
  let st := s.spnState hd
  st == spRamp || st == spAccel || st == spRun || (st == spCatch && (s.spn hd).resumed)

/-- A step of six-step commutation (R216): the phases (0 U, 1 V, 2 W) that are high, low and floating, and whether the back-EMF in
the floating phase crosses rising. -/
structure SixStep where
  high : Nat
  low : Nat
  floating : Nat
  rising : Bool
  deriving DecidableEq, Repr

/-- The six steps of forward rotation in order (R216). -/
def sixStep (k : Nat) : SixStep :=
  match k % 6 with
  | 0 => ⟨0, 1, 2, false⟩
  | 1 => ⟨0, 2, 1, true⟩
  | 2 => ⟨1, 2, 0, false⟩
  | 3 => ⟨1, 0, 2, true⟩
  | 4 => ⟨2, 0, 1, false⟩
  | _ => ⟨2, 1, 0, true⟩

/-- The phases that a bridge drives, if it drives: in ALIGN the vector of step 5 and then that of step 0 (R216, R229). -/
def State.driven (s : State) (hd : Nat) : Option SixStep :=
  if s.get (brgB hd) F.BRG_SPN_MODE == 1 then some (sixStep (s.spn hd).step) else none

/-- The integer square root of a number below 2^100. -/
def isqrt (n : Nat) : Nat :=
  (List.range 50).foldl (fun r i => if (r + 2 ^ (49 - i)) * (r + 2 ^ (49 - i)) ≤ n then r + 2 ^ (49 - i) else r) 0

/-- The start of step k of the blind ramp, in ns: electrical frequency rises linearly to 30 Hz over RAMP_T ms, so that k steps are made
after the square root of k * RAMP_T / 90 s (R231). -/
def rampStart (t k : Nat) : Nat := isqrt (k * t * 1000000000000000 / 90)

/-- The length of step k of the blind ramp; at 30 Hz it stays. -/
def rampPeriod (t k : Nat) : Nat := if k * 1000 ≥ 90 * t then 5555556 else rampStart t (k + 1) - rampStart t k

/-- The timing of a step, in ns from its start (R217, R218): the step period, the crossing as predicted, the next commutation, and the
window in which the crossing is sought. -/
structure StepPlan where
  period : Nat
  pred : Int
  next : Int
  opens : Nat
  edge : Nat
  deriving DecidableEq, Repr

/-- What a step of the observer or of the blind ramp plans (R216 to R220). The crossing falls 30° after the start, and commutation 30°
after the crossing less the advance, which stands in steps of 0.25°; a step has 60°. The soft edge begins at the commutation.
DEDUCED (log 179). -/
def stepPlan (v : Spn) (ramp : Bool) (adv demagNs : Nat) : StepPlan :=
  let t := if ramp then rampPeriod v.rampT v.rampK else v.period
  let gap := if ramp then t - t / 2 else t * (120 - adv) / 240
  let pred : Int := if ramp then ((t / 2 : Nat) : Int) else ((v.since * t : Nat) : Int) - (v.sinceNs : Int)
  let edge := t * (if v.skipOn then 2 else min 25 v.soft) / 100
  ⟨t, pred, pred + (gap : Int), max (demagNs + 100 * v.blank) edge, edge⟩

/-- A crossing that confirms a step (R218): of the step's polarity, in the window, and within ±15°, a quarter of the step period, of
the prediction. -/
def StepPlan.confirms (p : StepPlan) (rising : Bool) (o : StepObs) : Option Nat :=
  o.crossing.bind fun c =>
    let t := 50 * c.1
    if c.2 == rising && decide (p.opens ≤ t) && decide ((t : Int) ≤ p.next) &&
        decide (4 * ((t : Int) - p.pred).natAbs ≤ p.period) then some t else none

/-- The observer takes phase and period from a confirmed crossing (R218); the next commutation follows it. In the blind ramp the next
commutation is the ramp's. -/
def Spn.confirm (v : Spn) (p : StepPlan) (ramp : Bool) (adv t : Nat) : Spn :=
  let period := if v.since == 0 then p.period else (v.sinceNs + t) / v.since
  let gap := if ramp then (p.next - (t : Int)).toNat else period * (120 - adv) / 240
  { v with period := period, since := 1, sinceNs := gap, skips := 0, unconf := 0, conf := v.conf + 1, skipOn := false }

/-- A step without a confirmed crossing: the observer goes on with its period from the last one (R218, R219). -/
def Spn.unconfirm (v : Spn) (p : StepPlan) (skipped : Bool) : Spn :=
  { v with since := if v.since == 0 then 0 else v.since + 1, sinceNs := v.sinceNs + p.next.toNat,
           skips := if skipped then v.skips + 1 else 0, unconf := v.unconf + 1, conf := 0 }

/-- The speed that a list of step periods gives, in 1/64 rpm: their mean over one revolution (R222). -/
def speedOf (periods : List Nat) : Nat :=
  let sum := periods.foldl (· + ·) 0
  if sum = 0 then 0 else 64 * 60000000000 * periods.length / (36 * sum)

/-- A step made (R216 to R220, R222): its soft edge, its crossing sought in the window, skipped where the window is shorter than 1.5 µs,
and the measured speed. In the blind ramp steps are judged from 150 rpm on (R231). SOFT and BLANK are taken as an electrical cycle
begins (R248). -/
def State.stepNext (s : State) (hd : Nat) (o : StepObs) : Spn × Bool :=
  let b := spnB hd
  let v := s.spn hd
  let ramp := s.spnState hd == spRamp
  let v := if v.step % 6 == 0 || v.periods.isEmpty then
      { v with soft := s.get b F.SPN_COMCFG_SOFT, blank := s.get b F.SPN_COMCFG_BLANK } else v
  let adv := if ramp then 0 else min 120 (s.get b F.SPN_ID_ADV)
  let p := stepPlan v ramp adv o.demagNs
  let lim := s.iAlign hd
  let v := { v with edgeNs := p.edge, ocpRun := if v.ocpNow then v.ocpRun + 1 else 0, ocpNow := false,
                    rampK := if ramp then v.rampK + 1 else v.rampK,
                    cur := if ramp then (if v.skipOn then min v.cur (lim * 3 / 4) else v.cur) else v.cur }
  let early := ramp && decide (4 * 1000 * (v.rampK - 1) < 90 * v.rampT)
  let skipped := !early && decide (p.next - (p.opens : Int) < 1500)
  let v := if early then { v with period := p.period, conf := 0 }
    else if skipped then v.unconfirm p true
    else match p.confirms (sixStep v.step).rising o with
      | some t => v.confirm p ramp adv t
      | none => v.unconfirm p false
  let v := { v with step := (v.step + 1) % 36, periods := ((if ramp then p.period else v.period) :: v.periods).take 36 }
  ({ v with emf := speedOf v.periods }, skipped)

/-- The step judged, its skip counted, and the end of a revolution counted (R219). -/
def State.stepJudge (s : State) (hd : Nat) (o : StepObs) : State :=
  let b := spnB hd
  let (v, skipped) := s.stepNext hd o
  let s := s.setSpn hd v
  let s := if v.step == 0 && s.bit b F.SPN_STAT_FW_ACTIVE then
      s.count b F.SPN_CNT_FWREV_COUNT (spnHalf hd) (spnCnt hd + 6) 1 else s
  if skipped then s.count b F.SPN_CNT_SKIP_COUNT (spnHalf hd) (spnCnt hd + 4) 1 else s

/-- COMMUTATION_STEP (R216 to R219, R222): a step of a rotor that the engine commutates, or else the speed that the back-EMF shows. The
speed goes to SPN_SPEED and to both servo engines (R201). -/
def commutationStep (h : Half) (n : Nat) (o : StepObs) (s : State) : State :=
  let hd := hdaId h n
  let b := spnB hd
  let s := if s.commutates hd then s.stepJudge hd o
    else s.setSpn hd { s.spn hd with emf := o.emf, periods := [] }
  let s := s.put (brgB hd) F.BRG_TEMP (min 0xFF o.temp)
  if s.spnState hd == spOff then s
  else
    let speed := (s.spn hd).emf
    let t := s.target hd
    let s := s.put b F.SPN_SPEED_RPM (min speed 0xFFFFF)
    let near := decide ((if speed ≥ t then speed - t else t - speed) * 200 ≤ t)
    let v := s.spn hd
    let s := s.setSpn hd { v with nearAt := if near then v.nearAt.or (some s.usTime) else none }
    (s.putB b F.SPN_STAT_AT_SPEED near).speedLow hd speed

def execCommutationStep (h : Half) (n : Nat) (o : StepObs) (s : State) : Host.Outcome State Fault Refusal :=
  .next (commutationStep h n o s)

/-- SKIP_RUN (R220): after 4 consecutive skipped steps SOFT acts as 2 % and the current limit as 75 % of itself, until a step is
confirmed. -/
def skipRun (h : Half) (n : Nat) (s : State) : State :=
  let hd := hdaId h n
  let v := s.spn hd
  if v.skips ≥ 4 && !v.skipOn then (s.setSpn hd { v with skipOn := true }).flag (spnB hd) F.SPN_EVENTS_SKIP_RUN else s

def execSkipRun (h : Half) (n : Nat) (s : State) : Host.Outcome State Fault Refusal := .next (skipRun h n s)

/-- Whether the steps show the rotor lost (R234). -/
def Spn.lost (v : Spn) : Bool := decide (v.unconf ≥ 12) || decide (v.ocpRun ≥ 6)

/-- ROTOR_LOST (R234). -/
def rotorLost (h : Half) (n : Nat) (s : State) : State :=
  let hd := hdaId h n
  let b := spnB hd
  let v := s.spn hd
  let st := s.spnState hd
  if (st == spAccel || st == spRun) && v.lost then
    let s := s.brakeEnd hd
    let s := s.setSpn hd { s.spn hd with left := st, startCatch := false, parkAsked := false }
    let s := ((s.flag b F.SPN_EVENTS_ROTOR_LOST).chimney h 9 n 30 0).put b F.SPN_STAT_HOLD_WR 1
    (s.count b F.SPN_CNT_LOST_COUNT h (spnCnt hd + 2) 1).catchAttempt hd 1
  else s

def execRotorLost (h : Half) (n : Nat) (s : State) : Host.Outcome State Fault Refusal := .next (rotorLost h n s)

/-- A flag of MOT_EVENTS in one motor die that is out of reset. -/
def State.dieFlag (s : State) (h : Half) (f : Fld) : State :=
  if s.motorUp.testBit h.toNat then s.flag (B.mot h) f else s

/-- BRIDGE_OCP (R234, R252, R253). -/
def bridgeOcp (h : Half) (n : Nat) (s : State) : State :=
  let hd := hdaId h n
  let s := s.setSpn hd { s.spn hd with ocpNow := true }
  (s.flag (brgB hd) F.BRG_OCP).dieFlag h F.MOT_EVENTS_BRIDGE_OCP

def execBridgeOcp (h : Half) (n : Nat) (s : State) : Host.Outcome State Fault Refusal := .next (bridgeOcp h n s)

/-! ### Speed loop and field weakening (R221 to R224) -/

/-- Field weakening over one electrical cycle (R221), from the cycle's highest duty in percent and ID_MEAS in mA. -/
def State.fieldWeaken (s : State) (hd duty : Nat) (id : Int) : State :=
  let b := spnB hd
  let on := s.get b F.SPN_FWCFG_DUTY_ON
  let off := if s.get b F.SPN_FWCFG_DUTY_OFF < on then s.get b F.SPN_FWCFG_DUTY_OFF else on - 5
  let tgt : Int := -((min 400 (s.get b F.SPN_FWCFG_ID_TGT) : Nat) : Int)
  let advMax := min 0x78 (s.get b F.SPN_COMCFG_ADV_MAX)
  let adv := s.get b F.SPN_ID_ADV
  let s := s.put b F.SPN_ID_ID_MEAS (unsigned 16 id)
  let was := s.bit b F.SPN_STAT_FW_ACTIVE
  if !was && duty < on then s
  else if was && duty < off && adv == 0 then s.put b F.SPN_STAT_FW_ACTIVE 0
  else
    let limited := decide (id < -400)
    let a := (adv : Int) + Config.kfw (id - tgt) - (if limited then 1 else 0)
    let a := (max 0 (min (advMax : Int) a)).toNat
    let s := (s.put b F.SPN_STAT_FW_ACTIVE 1).put b F.SPN_ID_ADV a
    if (a == advMax && duty ≥ 100) || limited then s.flag b F.SPN_EVENTS_FW_LIMIT else s

/-- The reference's next value (R223, R224, R243): toward the target at the slew in force, over one electrical cycle of 10
seconds divided by the speed in rpm. In CATCH it stands; while a media operation is queued or running a faster slew comes down to
50 rpm/s at 500 rpm/s²; the power budget's measures hold an increase to 50 rpm/s at once. -/
def State.refSlew (s : State) (hd : Nat) : State :=
  let v := s.spn hd
  let b := spnB hd
  let t := s.target hd
  let st := s.spnState hd
  if st == spAccel then s.setSpn hd { v with ref := t, slew := 0 }
  else if st != spRun then s
  else if v.keHold then s.setSpn hd { v with slew := 0 }
  else
    let slow := 64 * 50
    let limit := if s.mot.overBudget && t > v.ref then slow else 64 * max 50 (s.get b F.SPN_SLEW_SLEW_FREE)
    let dec := if v.emf == 0 then 0 else 64 * 500 * 640 / v.emf
    let slew := if t == v.ref then 0
      else if s.mediaBusy hd then min limit (if v.slew > slow then max slow (v.slew - dec) else slow)
      else limit
    let step := if v.emf == 0 then 0 else slew * 640 / v.emf
    let ref := if t ≥ v.ref then min t (v.ref + step) else max t (v.ref - step)
    s.setSpn hd { v with ref := ref, slew := if ref == t then 0 else slew,
                         slowing := if t < v.ref then true else v.slowing && decide (v.ref < v.emf) }

/-- The phase-current limit of a state (R220, R222, R243). -/
def State.curLimit (s : State) (hd : Nat) : Nat :=
  let lim := if s.spnState hd == spAccel then (if s.mot.overBudget then s.iAccel hd / 2 else s.iAccel hd) else s.iRun hd
  if (s.spn hd).skipOn then lim * 3 / 4 else lim

/-- ELECTRICAL_CYCLE (R221 to R224): the highest duty of the cycle in percent and ID_MEAS in mA. A decrease of the reference is braked
until the speed has followed it. -/
def electricalCycle (h : Half) (n duty : Nat) (id : Int) (s : State) : State :=
  let hd := hdaId h n
  let st := s.spnState hd
  if !(st == spAccel || st == spRun || (st == spCatch && (s.spn hd).resumed)) then s
  else
    let s := ((s.fieldWeaken hd duty id).showTarget hd).refSlew hd
    let v := s.spn hd
    let b := spnB hd
    let cur := min (s.curLimit hd)
      (Config.spinLoop (s.get b F.SPN_SPDLOOP_KP) (s.get b F.SPN_SPDLOOP_KI) v.ref v.emf v.cur)
    let s := s.setSpn hd { v with cur := cur }
    if st == spRun then
      if v.slowing && v.ref < v.emf then s.brakeChoose hd
      else if v.regen || v.short then s.brakeEnd hd else s
    else s

def execElectricalCycle (h : Half) (n duty : Nat) (id : Int) (s : State) : Host.Outcome State Fault Refusal :=
  .next (electricalCycle h n duty id s)

/-! ### Ke (R225, R226) -/

/-- A Ke measurement: KE_CORR, KE_DEV, the counter and the lamp; and the deviation's magnitude and the reference, on one
scale, for the limits of R226. DESIGN CHOICE (log 19). -/
def State.keTake (s : State) (hd keRaw : Nat) (temp : Int) : State × Nat × Nat :=
  let b := spnB hd
  let ref := s.get b F.SPN_KEREF_KE_REF
  let corr : Int := (keRaw : Int) * (975 + temp)
  let (k, s) := s.takeFree
  let diff := corr - 1000 * (ref : Int)
  let dev : Int := if ref == 0 then signed 16 (Config.freeNat k % 0x10000) else diff / (ref : Int)
  let s := (s.put b F.SPN_KE_KE_CORR (unsigned 16 (corr / 1000))).put b F.SPN_KE_KE_DEV (unsigned 16 dev)
  let s := s.count b F.SPN_CNT_KEMEAS_COUNT (spnHalf hd) (spnCnt hd + 5) 1
  let s := if diff.natAbs * 100 > 8 * 1000 * ref && diff.natAbs * 100 ≤ 15 * 1000 * ref then
      s.flag b F.SPN_EVENTS_KE_WARN else s
  (s.lampMeasure (spnHalf hd) (8 + hd % 4) (dev.natAbs : Int), diff.natAbs, 1000 * ref)

/-- Whether some seconds have passed since the last Ke measurement. -/
def State.keSince (s : State) (hd secs : Nat) : Bool :=
  decide ((s.usTime + 2 ^ 48 - (s.spn hd).keAt) % 2 ^ 48 ≥ 1000000 * secs)

/-- Whether the periodic measurement of an engine is due (R225): KE_INT seconds after the last, unless KE_INT is 0. -/
def State.keDue (s : State) (hd : Nat) : Bool :=
  let n := s.get (spnB hd) F.SPN_KECFG_KE_INT
  (s.spn hd).keWaits || (n != 0 && s.keSince hd n)

/-- KE_MEASURE (R225, R226): at the end of a Taper and every KE_INT seconds; postponed while field weakening is engaged or a write pass
runs. -/
def keMeasure (h : Half) (n keRaw : Nat) (temp : Int) (s : State) : State :=
  let hd := hdaId h n
  if s.spnState hd != spRun || (s.spn hd).keHold || !s.keDue hd then s
  else if s.bit (spnB hd) F.SPN_STAT_FW_ACTIVE || s.writeRuns hd then s.setSpn hd { s.spn hd with keWaits := true }
  else
    let (s, d, r) := s.keTake hd keRaw temp
    let s := s.setSpn hd { s.spn hd with keWaits := false, keAt := s.usTime }
    if d * 100 > 15 * r then s.setSpn hd { s.spn hd with keHold := true, keRepeats := 0, keHigh := 0 } else s

def execKeMeasure (h : Half) (n keRaw : Nat) (temp : Int) (s : State) : Host.Outcome State Fault Refusal :=
  .next (keMeasure h n keRaw temp s)

/-- KE_REPEAT (R226): the two repeats, 10 s apart, decide between KE_FAULT with KE_CAP and the release of the hold. -/
def keRepeat (h : Half) (n keRaw : Nat) (temp : Int) (s : State) : State :=
  let hd := hdaId h n
  let b := spnB hd
  if s.spnState hd != spRun || !(s.spn hd).keHold || !s.keSince hd 10 then s
  else if s.bit b F.SPN_STAT_FW_ACTIVE || s.writeRuns hd then s.setSpn hd { s.spn hd with keWaits := true }
  else
    let (s, d, r) := s.keTake hd keRaw temp
    let v : Spn := { s.spn hd with keAt := s.usTime }
    let reps := v.keRepeats + 1
    let high := v.keHigh + (if d * 100 > 15 * r then 1 else 0)
    if reps < 2 then s.setSpn hd { v with keRepeats := reps, keHigh := high, keWaits := false }
    else
      let s := s.setSpn hd { v with keRepeats := 0, keHigh := 0, keHold := false, keWaits := false }
      if high == 2 then
        let s := (s.flag b F.SPN_EVENTS_KE_FAULT).put b F.SPN_STAT_KE_CAP 1
        (s.chimney h 9 n 28 (s.get b F.SPN_KE_KE_DEV)).showTarget hd
      else s

def execKeRepeat (h : Half) (n keRaw : Nat) (temp : Int) (s : State) : Host.Outcome State Fault Refusal :=
  .next (keRepeat h n keRaw temp s)

/-! ### Catch-spin (R235, R236) -/

/-- CATCH_ESTIMATE (R235): two successive electrical cycles of the coasting rotor, each as the speed in 1/64 rpm and the angle in
hundredths of a degree of its back-EMF vector. Where they agree within 2 % and 10° they preset the observer, and commutation resumes
from no current at the step of the angle plus the advance in force. -/
def catchEstimate (h : Half) (n speed1 angle1 speed2 angle2 : Nat) (s : State) : State :=
  let hd := hdaId h n
  let v := s.spn hd
  let dv := if speed1 ≥ speed2 then speed1 - speed2 else speed2 - speed1
  let da := (angle1 + 36000 - angle2 % 36000) % 36000
  let agree := decide (100 * dv ≤ 2 * speed2) && (decide (da ≤ 1000) || decide (35000 ≤ da)) && speed2 != 0
  if s.spnState hd == spCatch && !v.resumed && agree then
    let adv := min 120 (s.get (spnB hd) F.SPN_ID_ADV)
    let t := stepNs speed2
    (s.setSpn hd { v with resumed := true, step := (angle2 + 25 * adv) % 36000 / 6000, conf := 0, unconf := 0, skips := 0,
                          ocpRun := 0, period := t, periods := [], since := 1, sinceNs := t * (120 - adv) / 240 }).showBridge hd
  else s

def execCatchEstimate (h : Half) (n speed1 angle1 speed2 angle2 : Nat) (s : State) : Host.Outcome State Fault Refusal :=
  .next (catchEstimate h n speed1 angle1 speed2 angle2 s)

/-- CATCH_OK (R235): 36 consecutive steps confirmed after resumption. -/
def catchOk (h : Half) (n : Nat) (s : State) : State :=
  let hd := hdaId h n
  let b := spnB hd
  let v := s.spn hd
  if s.spnState hd == spCatch && v.resumed && v.conf ≥ 36 then
    let s := (s.flag b F.SPN_EVENTS_CATCH_OK).put b F.SPN_STAT_HOLD_WR 0
    let s := s.setSpn hd { v with resumed := false, startCatch := false, ref := if v.startCatch then s.target hd else v.ref }
    s.setSpnState hd (if v.startCatch then spAccel else v.left)
  else s

def execCatchOk (h : Half) (n : Nat) (s : State) : Host.Outcome State Fault Refusal := .next (catchOk h n s)

/-- CATCH_FAIL (R235, R236): the next attempt at once; after the third SPINDLE_FAIL, both actuators asked to PARK, and
PARKING. After resumption an attempt fails only when the rotor is lost again. -/
def catchFail (h : Half) (n : Nat) (s : State) : State :=
  let hd := hdaId h n
  let b := spnB hd
  let v := s.spn hd
  if s.spnState hd != spCatch || (v.resumed && !v.lost) then s
  else
    let k := s.get b F.SPN_STAT_CATCH_TRY
    if k < 3 then s.catchAttempt hd (k + 1)
    else
      let s := (s.dropTaper hd).flag b F.SPN_EVENTS_SPINDLE_FAIL
      let s := s.setSpn hd { s.spn hd with endFailed := true, resumed := false, startCatch := false }
      (s.parkBoth hd).setSpnState hd spParking

def execCatchFail (h : Half) (n : Nat) (s : State) : Host.Outcome State Fault Refusal := .next (catchFail h n s)

/-- PARK_RPM_REACHED (R236). -/
def parkRpmReached (h : Half) (n : Nat) (s : State) : State :=
  let hd := hdaId h n
  let v := s.spn hd
  if s.spnState hd == spCatch && !v.resumed && !v.parkAsked &&
      v.emf ≤ rpm (max 3800 (s.get (spnB hd) F.SPN_PARKRPM_PARK_RPM)) then
    (s.setSpn hd { v with parkAsked := true }).parkBoth hd
  else s

def execParkRpmReached (h : Half) (n : Nat) (s : State) : Host.Outcome State Fault Refusal :=
  .next (parkRpmReached h n s)

/-! ### Spin-down (R237, R238) -/

/-- BRAKE_START (R237): both actuators PARKED or OFF. -/
def brakeStart (h : Half) (n : Nat) (s : State) : State :=
  let hd := hdaId h n
  let down := fun ai => s.srvState ai == svOff || s.srvState ai == svParked
  if s.spnState hd == spParking && down (2 * hd) && down (2 * hd + 1) then s.enterBrake hd else s

def execBrakeStart (h : Half) (n : Nat) (s : State) : Host.Outcome State Fault Refusal := .next (brakeStart h n s)

/-- BRAKE_SLOT_GRANT (R238): the first request, while fewer than four slots are held. -/
def brakeSlotGrant (s : State) : State :=
  match s.mot.waitB with
  | [] => s
  | hd :: rest =>
    if ((List.range 8).filter s.mot.brake.testBit).length ≥ 4 then s
    else ({ s with mot := { s.mot with waitB := rest, brake := s.mot.brake ||| 2 ^ hd } }).brakeChoose hd

def execBrakeSlotGrant (s : State) : Host.Outcome State Fault Refusal := .next (brakeSlotGrant s)

/-- STOP_RPM_REACHED (R237): regenerative braking gives way to short-braking. -/
def stopRpmReached (h : Half) (n : Nat) (s : State) : State :=
  let hd := hdaId h n
  let v := s.spn hd
  if s.spnState hd == spBrake && v.emf ≤ rpm (s.get (spnB hd) F.SPN_BRKCFG_STOP_RPM) then
    ((s.dropBrake hd).setSpn hd { v with regen := false, short := true }).showBridge hd
  else s

def execStopRpmReached (h : Half) (n : Nat) (s : State) : Host.Outcome State Fault Refusal :=
  .next (stopRpmReached h n s)

/-- Where a spindle in LADDER goes once step 3 is over and the half owns the HDA (R237, R242). -/
def State.ladderChoose (s : State) (hd : Nat) : State :=
  let v := s.spn hd
  if s.spnState hd != spLadder || s.mot.step == 3 || !s.ownLine hd then s
  else if v.stopPending then
    if v.emf ≥ rpm 30 then (s.setSpn hd { v with stopPending := false }).enterBrake hd else s.enterStopped hd
  else if v.interrupted then
    if rpm 30 ≤ v.emf && v.emf ≤ rpm 300 then s else
      let s := s.put (spnB hd) F.SPN_TAPSTAT_ATTEMPT 0
      (s.setSpn hd { v with lateRequest := false }).setSpnState hd spWait |>.requestTaper hd
  else if v.emf > rpm 300 then
    (s.setSpn hd { v with left := spRun, startCatch := false, parkAsked := false }).catchAttempt hd 1
  else if v.emf < rpm 30 then s.enterStopped hd
  else s

/-- SPEED_BELOW_30RPM (R228, R237, R242). -/
def speedBelow30 (h : Half) (n : Nat) (s : State) : State :=
  let hd := hdaId h n
  let b := spnB hd
  let st := s.spnState hd
  let v := s.spn hd
  if v.emf ≥ rpm 30 then s
  else if st == spBrake then
    let s := (s.brakeEnd hd).setSpn hd { (s.brakeEnd hd).spn hd with cur := 0 }
    if v.endOff then s.enterStopped hd
    else
      let s := s.count b F.SPN_CNT_BRAKE_COUNT h (spnCnt hd + 7) 1
      if v.endFailed then (s.setSpn hd { s.spn hd with endFailed := false }).setSpnState hd spFailed
      else s.enterStopped hd
  else if st == spWait && v.lateRequest then (s.setSpn hd { v with lateRequest := false }).requestTaper hd
  else if st == spLadder then s.ladderChoose hd
  else s

def execSpeedBelow30rpm (h : Half) (n : Nat) (s : State) : Host.Outcome State Fault Refusal := .next (speedBelow30 h n s)

end Sys2Proof.Machine
end

