-- ==== Sys2Proof/Machine/MotorBus.lean ====
section
/-! DEFINITION. Mantle's supervision of the shared motor bus (R239 to R243): the brake chopper, the over-voltage ladder and
the power budget. -/

namespace Sys2Proof.Machine

/-- A flag of MOT_EVENTS in both motor dies. -/
def State.diesFlag (s : State) (f : Fld) : State := (s.dieFlag .a f).dieFlag .b f

/-- The bus voltage as measured now, and its peak in each die (R252). -/
def State.setVbus (s : State) (mv : Nat) : State :=
  let one := fun (s : State) (h : Half) =>
    if s.motorUp.testBit h.toNat then s.peak (B.mot h) F.MOT_BUSPEAK_VPEAK mv else s
  one (one { s with mot := { s.mot with vbus := mv } } .a) .b

/-- A crossing of a ladder threshold, for the event recorder (R241, R479). DEDUCED (log 28). -/
def State.ladderEvent (s : State) (step mv : Nat) (rising : Bool) : State :=
  s.event 0x50 step mv (if rising then 1 else 0)

/-- A step reached: MOT_LADDER.STEP, MOT_EVENTS, the event and the message (R241, R470). -/
def State.ladderReach (s : State) (step mv : Nat) (f : Fld) : State :=
  let s := s.setVbus mv
  let s := { s with mot := { s.mot with step := max s.mot.step step } }
  ((s.diesFlag f).ladderEvent step mv true).mantleMsg .a 27 0 50 (step + 4 * mv)

/-- LADDER_STEP1 (R241): the chopper is commanded on. -/
def ladderStep1 (mv : Nat) (s : State) : State :=
  let s := s.ladderReach 1 mv F.MOT_EVENTS_STEP1
  { s with mot := { s.mot with chopOn := true } }

def execLadderStep1 (mv : Nat) (s : State) : Host.Outcome State Fault Refusal := .next (ladderStep1 mv s)

/-- CHOPPER_OFF (R241): below 12.7 V. The energy the chopper took in the episode, in J, goes to MOT_CHOPE (R240), and an
episode of 10 J or more to the chopper lamp (R481). DEDUCED (log 27). -/
def chopperOff (mv joules : Nat) (s : State) : State :=
  let s := s.setVbus mv
  if !s.mot.chopOn then s
  else
    let s := s.ladderEvent 1 mv false
    let s := { s with mot := { s.mot with chopOn := false, step := if s.mot.step == 3 then 3 else 0,
                                          energy := min 0xFFFFFFFF (s.mot.energy + joules) } }
    if joules ≥ 10 then s.chopEpisode else s

def execChopperOff (mv joules : Nat) (s : State) : Host.Outcome State Fault Refusal := .next (chopperOff mv joules s)

/-- Every spindle that brakes regeneratively chooses again (R238). -/
def State.rebrake (s : State) (force : Bool) : State :=
  (List.range 8).foldl (fun s hd =>
    let v := s.spn hd
    if v.regen then (s.setSpn hd { v with forcedShort := v.forcedShort || force }).brakeChoose hd else s) s

/-- LADDER_STEP2 (R241): regenerative braking gives way to short-braking for its rest; the chopper stays on. -/
def ladderStep2 (mv : Nat) (s : State) : State :=
  let s := s.ladderReach 2 mv F.MOT_EVENTS_STEP2
  ({ s with mot := { s.mot with chopOn := true } }).rebrake true

def execLadderStep2 (mv : Nat) (s : State) : Host.Outcome State Fault Refusal := .next (ladderStep2 mv s)

/-- LADDER_STEP3 (R241): every bridge coasts; loaded actuators are retracted, the other VCMs coast; microactuators at 0 V;
the feed switch opens. -/
def ladderStep3 (mv : Nat) (s : State) : State :=
  let s := s.ladderReach 3 mv F.MOT_EVENTS_STEP3
  let s := { s with mot := { s.mot with feedOpen := true } }
  let s := s.retractAll
  let s := (List.range 16).foldl (fun s ai => (s.setPa ai { s.pa ai with maZero := true }).vcmShow ai) s
  (List.range 8).foldl State.spnLadder s

def execLadderStep3 (mv : Nat) (s : State) : Host.Outcome State Fault Refusal := .next (ladderStep3 mv s)

/-- LADDER_RELEASE (R242): the feed switch closes, and each spindle in LADDER goes where its speed sends it. A START that
waited in STOPPED is applied. -/
def ladderRelease (mv : Nat) (s : State) : State :=
  let s := s.setVbus mv
  if s.mot.step != 3 then s
  else
    let s := s.ladderEvent 3 mv false
    let s := { s with mot := { s.mot with step := 0, feedOpen := false } }
    let s := (List.range 16).foldl State.vcmShow s
    (List.range 8).foldl (fun s hd =>
      let s := s.ladderChoose hd
      if s.spnState hd == spStopped && (s.spn hd).startWaits && s.startOk hd then s.startAccept hd else s) s

def execLadderRelease (mv : Nat) (s : State) : Host.Outcome State Fault Refusal := .next (ladderRelease mv s)

/-- The chopper is marked failed (R240): CHOP_FAILED, FAILKIND, the event, the message; a short opens the series switch;
braking spindles short-brake. -/
def State.chopFail (s : State) (kind : Nat) : State :=
  let s := { s with mot := { s.mot with chopFailed := true, failKind := kind,
                                        seriesOpen := s.mot.seriesOpen || kind == 2 } }
  let s := ((s.diesFlag F.MOT_EVENTS_CHOP_FAIL).event 0x51 kind 0 0).mantleMsg .a 27 1 51 kind
  s.rebrake false

/-- CHOPPER_FAIL (R240): kind 1 open, while it is commanded on; kind 2 short, while it is commanded off. -/
def chopperFail (kind : Nat) (s : State) : State :=
  if s.mot.chopFailed then s
  else if (kind == 1 && s.mot.chopOn) || (kind == 2 && !s.mot.chopOn) then s.chopFail kind
  else s

def execChopperFail (kind : Nat) (s : State) : Host.Outcome State Fault Refusal := .next (chopperFail kind s)

/-- CHOPPER_TEST (R240, R438): the power-on pulse, passed or failed. -/
def chopperTest (pass : Bool) (s : State) : State :=
  let s := { s with board := { s.board with chopTested := true } }
  if pass || s.mot.chopFailed then s else s.chopFail 3

def execChopperTest (pass : Bool) (s : State) : Host.Outcome State Fault Refusal := .next (chopperTest pass s)

/-- CHOP_HOT (R240): the chopper is treated as unavailable. -/
def chopHot (s : State) : State :=
  if s.mot.chopHot then s
  else
    let s := { s with mot := { s.mot with chopHot := true } }
    ((s.diesFlag F.MOT_EVENTS_CHOP_HOT).mantleMsg .a 27 1 52 0).rebrake false

def execChopHot (s : State) : Host.Outcome State Fault Refusal := .next (chopHot s)

/-- CHOP_COOL (R240). -/
def execChopCool (s : State) : Host.Outcome State Fault Refusal :=
  .next { s with mot := { s.mot with chopHot := false } }

/-- BUDGET_WINDOW (R243): the mean power of the window in W and the bus voltage in mV; over BUDGET the first measures come
into force. BUDGET and TAPER_P are then taken for the next window (R252). -/
def budgetWindow (watts mv : Nat) (s : State) : State :=
  let s := s.setVbus mv
  let over_ := decide (watts > s.mot.budget)
  let s := { s with mot := { s.mot with pmot := watts, overBudget := s.mot.overBudget || over_,
                                        budget := s.get (B.mot .a) F.MOT_BUDGET_BUDGET,
                                        taperP := s.get (B.mot .a) F.MOT_BUDGET_TAPER_P } }
  if over_ then s.diesFlag F.MOT_EVENTS_OVER_BUDGET else s

def execBudgetWindow (watts mv : Nat) (s : State) : Host.Outcome State Fault Refusal := .next (budgetWindow watts mv s)

/-- SEEK_LIMIT (R243): power still over BUDGET after 10 ms. -/
def execSeekLimit (s : State) : Host.Outcome State Fault Refusal :=
  .next (if s.mot.overBudget && decide (s.mot.pmot > s.mot.budget) then { s with mot := { s.mot with seekLimit := true } }
         else s)

/-- BUDGET_LIFT (R243): power below 90 % of BUDGET. -/
def execBudgetLift (s : State) : Host.Outcome State Fault Refusal :=
  .next (if decide (s.mot.pmot * 10 < 9 * s.mot.budget) then
           { s with mot := { s.mot with overBudget := false, seekLimit := false } }
         else s)

end Sys2Proof.Machine
end

