-- ==== Sys2Proof/Machine/Sha.lean ====
section
/-! DEFINITION. SHA-384 of FIPS 180-4, which R414 and R416 name. Its constants are the first 64 bits of the fractional parts
of the cube roots of the first 80 primes and of the square roots of the ninth to the sixteenth. -/

namespace Sys2Proof.Machine

/-- The first n primes. -/
def primesFrom : Nat → Nat → List Nat → List Nat
  | 0, _, ps => ps
  | fuel + 1, c, ps => primesFrom fuel (c + 1) (if ps.all (fun p => c % p ≠ 0) then ps ++ [c] else ps)

def primes80 : List Nat := primesFrom 408 2 []

/-- The largest r of up to n bits with r ^ k ≤ v. -/
def rootBits (k v : Nat) : Nat → Nat → Nat
  | 0, r => r
  | n + 1, r => rootBits k v n (if (r + 2 ^ n) ^ k ≤ v then r + 2 ^ n else r)

def shaK : List (BitVec 64) := primes80.map fun p => BitVec.ofNat 64 (rootBits 3 (p * 2 ^ 192) 68 0)

def shaInit : List (BitVec 64) := ((primes80.drop 8).take 8).map fun p => BitVec.ofNat 64 (rootBits 2 (p * 2 ^ 128) 68 0)

def shaBig0 (x : BitVec 64) : BitVec 64 := x.rotateRight 28 ^^^ x.rotateRight 34 ^^^ x.rotateRight 39
def shaBig1 (x : BitVec 64) : BitVec 64 := x.rotateRight 14 ^^^ x.rotateRight 18 ^^^ x.rotateRight 41
def shaSmall0 (x : BitVec 64) : BitVec 64 := x.rotateRight 1 ^^^ x.rotateRight 8 ^^^ (x >>> 7)
def shaSmall1 (x : BitVec 64) : BitVec 64 := x.rotateRight 19 ^^^ x.rotateRight 61 ^^^ (x >>> 6)

/-- The message schedule, newest word first, from the 16 words of a block. -/
def shaExtend : Nat → List (BitVec 64) → List (BitVec 64)
  | 0, ws => ws
  | n + 1, ws => shaExtend n ((shaSmall1 (ws.getD 1 0) + ws.getD 6 0 + shaSmall0 (ws.getD 14 0) + ws.getD 15 0) :: ws)

/-- One round on the working variables a to h. -/
def shaRound (v : List (BitVec 64)) (kw : BitVec 64 × BitVec 64) : List (BitVec 64) :=
  match v with
  | [a, b, c, d, e, f, g, h] =>
    let t1 := h + shaBig1 e + ((e &&& f) ^^^ (~~~e &&& g)) + kw.1 + kw.2
    let t2 := shaBig0 a + ((a &&& b) ^^^ (a &&& c) ^^^ (b &&& c))
    [t1 + t2, a, b, c, d + t1, e, f, g]
  | _ => v

/-- A big-endian number of bytes. -/
def bytesBE (bs : List Byte) : Nat := bs.foldl (fun a b => a * 256 + b.toNat) 0

/-- One block of 128 bytes. -/
def shaBlock (ks : List (BitVec 64)) (h : List (BitVec 64)) (block : List Byte) : List (BitVec 64) :=
  let w16 := (List.range 16).map fun i => BitVec.ofNat 64 (bytesBE ((block.drop (8 * i)).take 8))
  let ws := (shaExtend 64 w16.reverse).reverse
  List.zipWith (· + ·) h ((ks.zip ws).foldl shaRound h)

/-- The blocks of a padded message. -/
def shaRun (ks : List (BitVec 64)) : Nat → List (BitVec 64) → List Byte → List (BitVec 64)
  | 0, h, _ => h
  | n + 1, h, bs => shaRun ks n (shaBlock ks h (bs.take 128)) (bs.drop 128)

/-- SHA-384 of a message, as a number of 384 bits, most significant byte first. -/
def sha384 (bs : List Byte) : Nat :=
  let z := (240 - (bs.length + 1) % 128) % 128
  let pad := bs ++ [0x80] ++ List.replicate z 0 ++ ((List.range 16).map fun i => BitVec.ofNat 8 (8 * bs.length / 256 ^ (15 - i)))
  ((shaRun shaK (pad.length / 128) shaInit pad).take 6).foldl (fun a w => a * 2 ^ 64 + w.toNat) 0

end Sys2Proof.Machine
end

