-- ==== Sys2Proof/Machine/Mantle.lean ====
section
/-! DEFINITION. Mantle (R392 to R422): the request mailbox, ownership and leases, the emergency retract's end, the
watchdogs, the image intake, and the core's restart. -/

namespace Sys2Proof.Machine

/-! ### Mantle and its core -/

/-- Whether Mantle is out of reset: COLD holds it, and AUX_BO from the end of the last retract (R423, R427). -/
def State.mantleUp (s : State) : Bool :=
  !s.asserted.contains .cold && (!s.asserted.contains .auxBo || s.mcore.auxBoPending)

/-- Whether the core serves the mailbox and the intake: it runs, and Mantle is not in hold-up mode (R392, R393). -/
def State.mantleServes (s : State) : Bool := s.mantleUp && s.mcore.coreUp && s.board.auxGood

/-- Fields of Mantle's registers that a half has one of each. -/
def wdState (h : Half) : Fld := if h = .a then F.MNT_WDSTAT_STATE_A else F.MNT_WDSTAT_STATE_B
def wdKey (h : Half) : Fld := if h = .a then F.MNT_WDSTAT_NEXTKEY_A else F.MNT_WDSTAT_NEXTKEY_B
def wdWarns (h : Half) : Fld := if h = .a then F.MNT_WDSTAT_WARN_A else F.MNT_WDSTAT_WARN_B
def wdPeriod (h : Half) : Fld := if h = .a then F.MNT_WDCFG_PERIOD_A else F.MNT_WDCFG_PERIOD_B
def fwRun (h : Half) : Fld := if h = .a then F.MNT_FWSLOT_RUN_A else F.MNT_FWSLOT_RUN_B
def fwNext (h : Half) : Fld := if h = .a then F.MNT_FWSLOT_NEXT_A else F.MNT_FWSLOT_NEXT_B
def fwValid (slot : Nat) : Fld := if slot = 0 then F.MNT_FWSLOT_VALID0 else F.MNT_FWSLOT_VALID1
def fwSvn (slot : Nat) : Fld := if slot = 0 then F.MNT_FWSVN0_SVN else F.MNT_FWSVN1_SVN
def disagreeMask (h : Half) : Fld := if h = .a then F.MNT_DISAGREE_A_MASK else F.MNT_DISAGREE_B_MASK

/-- The HDAs that the table gives a half. -/
def State.ownedMask (s : State) (h : Half) : Nat :=
  (List.range 8).foldl (fun m hd => if s.owns h hd then m + 2 ^ hd else m) 0

/-- The numbers below n whose bit is set in a mask. -/
def maskList (n m : Nat) : List Nat := (List.range n).filter fun i => m.testBit i

/-! ### CLAIM, RELEASE and RETRACT -/

/-- The grant of a NONE HDA to a half (R400 step 6): the entry, the miss count, the retract results cleared (R420); and
when the home line rises, the blocks of the HDA leave their held state (R209, R242, R404). -/
def State.grant (s : State) (h : Half) (hd : Nat) : State :=
  let s := s.put B.mnt (ownFld hd) (h.toNat + 1)
  let s := s.put B.mnt ⟨F.MNT_MISS_MISS.off, 2 * hd, 2⟩ 0
  let s := [2 * hd, 2 * hd + 1].foldl (fun s ai =>
    (s.putMaskBit B.mnt F.MNT_RETSTAT_RETDONE ai false).putMaskBit B.mnt F.MNT_RETSTAT_RETTMO ai false) s
  let v := s.mh h.toNat
  let s := s.setMh h.toNat { v with fresh := v.fresh ||| 2 ^ hd }
  if h != homeHalf hd then s
  else
    let s := s.putB (brgB hd) F.BRG_OWN_BLOCK false
    let s := [2 * hd, 2 * hd + 1].foldl (fun s ai => ((s.snufRearm ai .owner).servoLeaveOff ai).vcmShow ai) s
    s.ladderChoose hd

/-- A claim of one HDA by a half, in the order of R400: its STATUS and what it does. -/
def State.claimOne (s : State) (h : Half) (hd : Nat) : Nat × State :=
  if s.hdaDark hd then (0x02, s)
  else if !s.seated hd then (0x04, s)
  else if homeHalf hd != h && !s.strapBit 1 then (0x05, s)
  else if s.owns h.other hd then (0x03, s)
  else if s.owns h hd then (0x00, s)
  else (0x00, s.grant h hd)

/-- A request over several HDAs, each decided for itself: the STATUS is that of the lowest-numbered that did not succeed
(R397). -/
def State.eachHda (f : State → Nat → Nat × State) : List Nat → State → Nat × State
  | [], s => (0, s)
  | hd :: rest, s =>
    let (st, t) := f s hd
    let (st', u) := State.eachHda f rest t
    (if st == 0 then st' else st, u)

def State.releaseOne (h : Half) (s : State) (hd : Nat) : Nat × State :=
  if s.hdaDark hd then (0x02, s) else if !s.owns h hd then (0x06, s) else (0x00, s.withdraw hd 2)

def State.retractOne (h : Half) (mask : Nat) (s : State) (hd : Nat) : Nat × State :=
  if s.hdaDark hd then (0x02, s)
  else if !s.owns h hd then (0x06, s)
  else (0x00, [2 * hd, 2 * hd + 1].foldl (fun s ai => if mask.testBit ai then s.retractStart ai else s) s)

/-! ### Images -/

/-- The signature block that follows an image (R414): its bytes from the end of an image of n bytes. -/
def imageCheckBlock (bs : List Byte) (n : Nat) : List Byte := (bs.drop n).take 160

def leAt (bs : List Byte) (off n : Nat) : Nat := bytesLE ((List.range n).map fun i => bs.getD (off + i) 0)

/-- Level of an image of type 2 or 3 now loaded (R177, R416). -/
def State.patchLoaded (s : State) (type : Nat) : Nat :=
  if type = 2 then s.get B.mnt F.MNT_ID_PATCH_LEVEL
  else match s.mcore.wickPatch with
    | some img => patchLevel img.bytes
    | none => 0

def svnMin (type : Nat) : Fld :=
  if type = 1 then F.MNT_SVNMIN_FW else if type = 2 then F.MNT_SVNMIN_MANTLE else F.MNT_SVNMIN_WICK

/-- Steps 1 and 2 of R416 over an image and its block: the STATUS of the first that fails, or 0. -/
def State.imageGenuine (s : State) (type : Nat) (bs : List Byte) : Nat :=
  let n := bs.length - 160
  let k := imageCheckBlock bs n
  let img := bs.take n
  let key := leAt k 5 1
  if leAt k 0 4 != 0x314E4753 || leAt k 4 1 != type || leAt k 0xC 4 != n || leAt k 6 2 != 0 then 0x0C
  else if key > 3 || (s.get B.mnt F.MNT_KEYS_REVOKED).testBit key || sha384 img != bytesBE ((k.drop 0x10).take 48) ||
      !Config.ecdsaP384 key (sha384 (k.take 0x40)) (bytesBE ((k.drop 0x40).take 48)) (bytesBE ((k.drop 0x70).take 48))
    then 0x09
  else 0

/-- The checks of INTAKE_CHECK in order (R177, R414, R416), over the LEN bytes of the intake: the STATUS of the first
that fails, or 0. DEDUCED (log 73). -/
def State.imageStatus (s : State) (type : Nat) (bs : List Byte) : Nat :=
  let n := bs.length - 160
  let k := imageCheckBlock bs n
  let img := bs.take n
  if s.imageGenuine type bs != 0 then s.imageGenuine type bs
  else if leAt k 8 4 < s.get B.mnt (svnMin type) then 0x0A
  else if type == 1 then 0
  else if imageWord img 1 % 65536 != (if type == 2 then s.get B.mnt F.MNT_ID_ROM_ID
      else s.get (wckB 0) F.WCK_ID_ROM_ID) then 0x0B
  else if patchLevel img ≤ s.patchLoaded type then 0x0A
  else if type == 3 && (patchWords img < 1 || patchWords img > 512 || patchMatches img > 16 ||
      80 + 4 * patchWords img > n) then 0x0C
  else 0

/-- What Mantle does with a rejected image (R416): MNT_LASTREJ, the count, the event and the message. -/
def State.imageReject (s : State) (h : Half) (type svn st : Nat) : State :=
  let d := if st == 0x09 then 1 else if st == 0x0A then 2 else if st == 0x0B then 3 else 4
  let s := ((s.put B.mnt F.MNT_LASTREJ_DETAIL d).put B.mnt F.MNT_LASTREJ_TYPE type).put B.mnt F.MNT_LASTREJ_HALF h.toNat
  let s := s.satAdd B.mnt F.MNT_CNT_IMAGE_REJECTED 1
  (s.event 0x62 type st svn).mantleMsg h 29 2 60 (st - 8)

/-- What Mantle does with an accepted image (R416, R417): the count, the key, the event, and the slot, the patch of Mantle
or the patch of Wick. A Wick that cannot be written at this moment is written when it can (R178). -/
def State.imageAccept (s : State) (type slot : Nat) (bs : List Byte) : State :=
  let n := bs.length - 160
  let k := imageCheckBlock bs n
  let svn := leAt k 8 4
  let img : Image := ⟨type, svn, if type == 1 then bs else bs.take n⟩
  let s := s.satAdd B.mnt F.MNT_CNT_IMAGE_ACCEPTED 1
  let s := s.put B.mnt F.MNT_KEYS_LAST (leAt k 5 1)
  let s := s.event 0x62 type 0 svn
  if type == 1 then
    let s := { s with mcore := { s.mcore with slots := smInsert s.mcore.slots slot img } }
    (s.flag B.mnt (fwValid slot)).put B.mnt (fwSvn slot) svn
  else if type == 2 then
    let (rev, m1, m2, m3) := Config.patchFuses img.bytes
    let s := { s with mcore := { s.mcore with mantlePatch := some img, coreUp := false } }
    let s := s.put B.mnt F.MNT_ID_PATCH_LEVEL (patchLevel img.bytes)
    let s := s.put B.mnt F.MNT_KEYS_REVOKED (s.get B.mnt F.MNT_KEYS_REVOKED ||| rev)
    let up := fun (s : State) (f : Fld) (m : Nat) => s.put B.mnt f (max (s.get B.mnt f) (m % 256))
    up (up (up s F.MNT_SVNMIN_FW m1) F.MNT_SVNMIN_MANTLE m2) F.MNT_SVNMIN_WICK m3
  else
    let s := { s with mcore := { s.mcore with wickPatch := some img } }
    (List.range 16).foldl (fun s ai =>
      if s.hdaDark (actHda ai) || s.patchable ai then s else s.setWick ai { s.wick ai with patchDue := true }) s

/-- The bytes of an intake. DESIGN CHOICE (log 74). -/
def Intake.data (k : Intake) : List Byte := (List.range k.len).map fun i => smGet 0 k.bytes i

/-- INTAKE_CHECK of the open intake (R416, R417). A rejected image and an accepted TYPE 1 complete the request at once;
TYPE 2 completes at the end of the core's restart, TYPE 3 when R178 has applied it. -/
def State.intakeCheck (s : State) (h : Half) (k : Intake) (slot : Nat) : State :=
  let bs := k.data
  let st := s.imageStatus k.type bs
  let svn := leAt (imageCheckBlock bs (bs.length - 160)) 8 4
  if st != 0 then
    let (n, s) := s.takeFree
    ((s.imageReject h k.type svn st).intakeClose).mbAnswer h st (Config.freeNat n)
  else
    let s := s.imageAccept k.type slot bs
    if k.type == 1 then s.intakeClose.mbAnswer h 0 svn
    else
      let s := { s with mcore := { s.mcore with intake := some { k with checking := true } } }
      (s.put B.mnt F.MNT_INTAKE_STATE 3).patchSettle

/-! ### The mailbox -/

/-- A request that fails: its STATUS, with a RESULT that the spec does not state. DESIGN CHOICE (log 70). -/
def State.mbFail (s : State) (h : Half) (st : Nat) : State :=
  let (n, s) := s.takeFree
  s.mbAnswer h st (Config.freeNat n)

/-- The INTAKE_STATE code of an open intake (R421). -/
def openCode (h : Half) : Nat := h.toNat + 1

/-- INTAKE_OPEN (R415): held by the other half or checking, it is refused; else the intake is opened, and what was written
into it is discarded. DEDUCED (log 72). -/
def State.mbIntakeOpen (s : State) (h : Half) (type len : Nat) : State :=
  let held := match s.mcore.intake with | some k => k.half != h || k.checking | none => false
  if type == 0 || type > 3 || len < 164 || len > 4194304 || len % 4 != 0 then s.mbFail h 0x02
  else if held then s.mbFail h 0x07
  else
    let s := { s with mcore := { s.mcore with intake := some ⟨h, type, len, [], false⟩ } }
    let s := ((s.put B.mnt F.MNT_INTAKE_STATE (openCode h)).put B.mnt F.MNT_INTAKE_TYPE type).put B.mnt
      F.MNT_INTAKE_LEN (len / 4)
    s.mbAnswer h 0 0

/-- The intake that a half holds open, if it does. -/
def State.intakeOf (s : State) (h : Half) : Option Intake :=
  s.mcore.intake.bind fun k => if k.half == h && !k.checking then some k else none

/-- What Mantle does for a request (R396), with the argument bits that R396 does not name checked first. -/
def State.mbServe (s : State) (h : Half) (r : MbReq) : State :=
  if r.op == 0x01 then
    if r.arg0 ≥ 256 || r.arg1 != 0 then s.mbFail h 0x02
    else
      let (st, t) := State.eachHda (fun s hd => s.claimOne h hd) (maskList 8 r.arg0) s
      t.mbAnswer h st (t.ownedMask h)
  else if r.op == 0x02 then
    if r.arg0 ≥ 256 || r.arg1 != 0 then s.mbFail h 0x02
    else
      let (st, t) := State.eachHda (State.releaseOne h) (maskList 8 r.arg0) s
      t.mbAnswer h st (r.arg0 &&& s.ownedMask h &&& (255 - t.ownedMask h))
  else if r.op == 0x03 then
    if r.arg0 ≥ 65536 || r.arg1 != 0 then s.mbFail h 0x02
    else
      let hds := (List.range 8).filter fun hd => r.arg0 / 4 ^ hd % 4 != 0
      let (st, t) := State.eachHda (State.retractOne h r.arg0) hds s
      t.mbAnswer h st (t.get B.mnt F.MNT_RETACT_ACTIVE - s.get B.mnt F.MNT_RETACT_ACTIVE)
  else if r.op == 0x04 then
    if r.arg0 < 10 || r.arg0 > 1000 || r.arg1 != 0 then s.mbFail h 0x02
    else (s.put B.mnt (wdPeriod h) r.arg0).mbAnswer h 0 r.arg0
  else if r.op == 0x05 then s.mbIntakeOpen h r.arg0 r.arg1
  else if r.op == 0x06 then
    match s.intakeOf h with
    | none => if r.arg0 ≥ 2 || r.arg1 != 0 then s.mbFail h 0x02 else s.mbFail h 0x08
    | some k =>
      if r.arg0 ≥ 2 || r.arg1 != 0 || (k.type != 1 && r.arg0 != 0) then s.mbFail h 0x02
      else s.intakeCheck h k r.arg0
  else if r.op == 0x07 then
    if r.arg0 != 0 || r.arg1 != 0 then s.mbFail h 0x02
    else if (s.intakeOf h).isNone then s.mbFail h 0x08
    else s.intakeClose.mbAnswer h 0 0
  else if r.op == 0x08 then
    if r.arg0 ≥ 2 || r.arg1 != 0 then s.mbFail h 0x02
    else
      let s := s.setMh h.toNat { s.mh h.toNat with nextSlot := some r.arg0 }
      (s.flag B.mnt (fwNext h)).mbAnswer h 0 r.arg0
  else s.mbFail h 0x01

/-- A GO write of a half's firmware (R395): the arguments and MNT_MBREQ are written; with a request outstanding GO is ignored
and sets MB_OVERRUN; else Mantle latches the request, clears DONE, and serves it, or keeps it until its core runs. -/
def State.mailbox (s : State) (h : Half) (op seq arg0 arg1 : Nat) : State :=
  if !s.coreUp h || !s.mantleUp then s
  else
    let b := B.mbx h
    let s := (s.put b F.MNT_MBARG0_ARG0 arg0).put b F.MNT_MBARG1_ARG1 arg1
    let s := (s.put b F.MNT_MBREQ_OP op).put b F.MNT_MBREQ_SEQ seq
    if !s.bit b F.MNT_MBRESP_DONE then s.flag b F.MNT_MBEVENTS_MB_OVERRUN
    else
      let r : MbReq := ⟨op % 256, seq % 16, arg0 % 2 ^ 32, arg1 % 2 ^ 32⟩
      let s := (s.put b F.MNT_MBRESP_DONE 0).setMh h.toNat { s.mh h.toNat with req := some r }
      if s.mantleServes then s.mbServe h r
      else { s with mcore := { s.mcore with order := s.mcore.order ++ [h] } }

def execClaim (h : Half) (seq arg0 arg1 : Nat) (s : State) : Host.Outcome State Fault Refusal :=
  .next (s.mailbox h 0x01 seq arg0 arg1)
def execRelease (h : Half) (seq arg0 arg1 : Nat) (s : State) : Host.Outcome State Fault Refusal :=
  .next (s.mailbox h 0x02 seq arg0 arg1)
def execRetract (h : Half) (seq arg0 arg1 : Nat) (s : State) : Host.Outcome State Fault Refusal :=
  .next (s.mailbox h 0x03 seq arg0 arg1)
def execWdConfig (h : Half) (seq arg0 arg1 : Nat) (s : State) : Host.Outcome State Fault Refusal :=
  .next (s.mailbox h 0x04 seq arg0 arg1)
def execIntakeOpen (h : Half) (seq arg0 arg1 : Nat) (s : State) : Host.Outcome State Fault Refusal :=
  .next (s.mailbox h 0x05 seq arg0 arg1)
def execIntakeCheck (h : Half) (seq arg0 arg1 : Nat) (s : State) : Host.Outcome State Fault Refusal :=
  .next (s.mailbox h 0x06 seq arg0 arg1)
def execIntakeCancel (h : Half) (seq arg0 arg1 : Nat) (s : State) : Host.Outcome State Fault Refusal :=
  .next (s.mailbox h 0x07 seq arg0 arg1)
def execNextSlot (h : Half) (seq arg0 arg1 : Nat) (s : State) : Host.Outcome State Fault Refusal :=
  .next (s.mailbox h 0x08 seq arg0 arg1)
/-- BAD_OP: a request with any OP; one that R396 does not name completes with BAD_OP. -/
def execBadOp (h : Half) (op seq arg0 arg1 : Nat) (s : State) : Host.Outcome State Fault Refusal :=
  .next (s.mailbox h op seq arg0 arg1)

/-- INTAKE_TIMEOUT (R415): 10 s have passed since INTAKE_OPEN without an INTAKE_CHECK. -/
def intakeTimeout (s : State) : State :=
  match s.mcore.intake with
  | some k => if k.checking then s else s.intakeClose
  | none => s

def execIntakeTimeout (s : State) : Host.Outcome State Fault Refusal := .next (intakeTimeout s)

/-! ### Leases -/

/-- The poll of one half (R401). -/
def State.pollHalf (s : State) (h : Half) : State :=
  let v := s.mh h.toNat
  let s := s.setMh h.toNat { v with windowOpen := true, answer := none, fresh := 0, tickTime := s.usTime }
  if !s.coreUp h then s
  else
    let b := B.mbx h
    let s := (s.put b F.MNT_POLL_POLL (s.get B.mnt F.MNT_MISS_POLL)).put b F.MNT_POLL_OWNED (s.ownedMask h)
    (s.flag b F.MNT_MBEVENTS_POLL).irq h

/-- POLL_TICK (R401). -/
def pollTick (s : State) : State :=
  if !s.mantleUp then s
  else
    let s := s.put B.mnt F.MNT_MISS_POLL (s.get B.mnt F.MNT_MISS_POLL + 1)
    (s.pollHalf .a).pollHalf .b

def execPollTick (s : State) : Host.Outcome State Fault Refusal := .next (pollTick s)

/-- LEASE_WRITE (R401): a valid answer replaces the one before it in the window; one that is not sets LATE_LEASE. -/
def leaseWrite (h : Half) (held echo : Nat) (s : State) : State :=
  if !s.coreUp h then s
  else
    let b := B.mbx h
    let s := (s.put b F.MNT_LEASE_HELD held).put b F.MNT_LEASE_ECHO echo
    let v := s.mh h.toNat
    if v.windowOpen && echo % 256 == s.get B.mnt F.MNT_MISS_POLL then s.setMh h.toNat { v with answer := some (held % 256) }
    else s.flag b F.MNT_MBEVENTS_LATE_LEASE

def execLeaseWrite (h : Half) (held echo : Nat) (s : State) : Host.Outcome State Fault Refusal :=
  .next (leaseWrite h held echo s)

def missFld (hd : Nat) : Fld := ⟨F.MNT_MISS_MISS.off, 2 * hd, 2⟩

/-- One HDA of a half at the deadline (R401): renewed, missed, or lapsed at the third miss. The window of a grant does not
count (R400). -/
def State.leaseOne (s : State) (h : Half) (hd : Nat) : State :=
  let v := s.mh h.toNat
  if !s.owns h hd || v.fresh.testBit hd then s
  else if (v.answer.getD 0).testBit hd then s.put B.mnt (missFld hd) 0
  else if s.get B.mnt (missFld hd) ≥ 2 then s.withdraw hd 1
  else s.put B.mnt (missFld hd) (s.get B.mnt (missFld hd) + 1)

/-- HDAs that a half's valid answer names and the table does not give it (R405): NOT_OWNED, DISAGREE, MNT_DISAGREE, and at
the first such deadline of an episode the count, the event and the message; the episode of an HDA lasts while the half's valid answers
name it. DEDUCED (log 71). -/
def State.disagree (s : State) (h : Half) : State :=
  let v := s.mh h.toNat
  match v.answer with
  | none => s
  | some held =>
    let bad := held &&& (255 - s.ownedMask h)
    let new := maskList 8 bad |>.filter fun hd => !v.episodes.testBit hd
    let s := s.setMh h.toNat { v with episodes := (v.episodes ||| bad) &&& held }
    let s := s.put (B.mbx h) F.MNT_POLL_NOT_OWNED bad
    let s := if bad == 0 then s else (s.flag (B.mbx h) F.MNT_MBEVENTS_DISAGREE).put B.mnt (disagreeMask h) bad
    new.foldl (fun s hd =>
      ((s.satAdd B.mnt F.MNT_CNT_DISAGREE_COUNT 1).event 0x21 h.toNat hd 0).mantleMsg h 24 hd 53 0) s

/-- The deadline of one half's window. -/
def State.deadlineHalf (s : State) (h : Half) : State :=
  if !(s.mh h.toNat).windowOpen then s
  else
    let s := ((List.range 8).foldl (fun s hd => s.leaseOne h hd) s).disagree h
    s.setMh h.toNat { s.mh h.toNat with windowOpen := false }

/-- LEASE_DEADLINE (R401, R405). -/
def leaseDeadline (s : State) : State := if !s.mantleUp then s else (s.deadlineHalf .a).deadlineHalf .b

def execLeaseDeadline (s : State) : Host.Outcome State Fault Refusal := .next (leaseDeadline s)

/-- LAPSE (R401, R402): at the deadline of an HDA's owner, its third miss. -/
def lapse (hd : Nat) (s : State) : State :=
  let o := s.ownerOf hd
  if o == 0 || hd ≥ 8 then s
  else
    let v := s.mh (halfOf (o - 1)).toNat
    if v.windowOpen && !v.fresh.testBit hd && !(v.answer.getD 0).testBit hd && s.get B.mnt (missFld hd) ≥ 2 then
      s.withdraw hd 1
    else s

def execLapse (hd : Nat) (s : State) : Host.Outcome State Fault Refusal := .next (lapse hd s)

/-! ### The emergency retract -/

/-- The emergency retract of an actuator. -/
def State.retractOf (s : State) (ai : Nat) : Retract := smGet default s.mcore.retracts ai

/-- SEQUENCER_STOP (R408): with the highest back-EMF velocity of 2 ms, in 0.1 mm/s, below 5 % of VEL, the latch push of an actuator
begins with LATCH_MA outward. -/
def sequencerStop (h : Half) (u vel : Nat) (s : State) : State :=
  let ai := actId h u
  let r := s.retractOf ai
  if s.retracting ai && !s.mcore.latchPush.testBit ai && decide (vel < 5 * r.vel) then
    { s with mcore := { s.mcore with latchPush := s.mcore.latchPush ||| 2 ^ ai,
                                     retracts := smInsert s.mcore.retracts ai { r with cur := -(100 * r.latchMa : Nat) } } }
  else s

def execSequencerStop (h : Half) (u vel : Nat) (s : State) : Host.Outcome State Fault Refusal :=
  .next (sequencerStop h u vel s)

/-- The sequencer, its command at 0 mA, returns the VCM (R408, R209). -/
def State.retractEnd (s : State) (ai : Nat) : State :=
  let s := s.putMaskBit B.mnt F.MNT_RETACT_ACTIVE ai false
  let s := { s with mcore := { s.mcore with latchPush := s.mcore.latchPush &&& (65535 - 2 ^ ai),
                                            retracts := smErase s.mcore.retracts ai } }
  let s := s.flag (B.mbx (actHalf ai)) F.MNT_MBEVENTS_RETRACT_END
  if s.hdaUp (actHda ai) then (s.servoLeaveOff ai).vcmShow ai else s.vcmShow ai

/-- RETDONE (R408): the latch push has ended. DEDUCED (log 76). -/
def retDone (h : Half) (u : Nat) (s : State) : State :=
  let ai := actId h u
  if s.retracting ai && s.mcore.latchPush.testBit ai then
    ((s.putMaskBit B.mnt F.MNT_RETSTAT_RETDONE ai true).setLoaded ai false).retractEnd ai
  else s

def execRetdone (h : Half) (u : Nat) (s : State) : Host.Outcome State Fault Refusal := .next (retDone h u s)

/-- RETTMO (R408): `us` microseconds after its start, which are TMO or more, the retract has not reached the stop; the loaded flag
stays. -/
def retTmo (h : Half) (u us : Nat) (s : State) : State :=
  let ai := actId h u
  if s.retracting ai && !s.mcore.latchPush.testBit ai && decide (1000 * (s.retractOf ai).tmo ≤ us) then
    let s := s.putMaskBit B.mnt F.MNT_RETSTAT_RETTMO ai true
    ((s.event 0x30 ai 0 0).mantleMsg (actHalf ai) 26 ai 54 0).retractEnd ai
  else s

def execRettmo (h : Half) (u us : Nat) (s : State) : Host.Outcome State Fault Refusal := .next (retTmo h u us s)

/-! ### Watchdogs -/

/-- Watchdog states (R420). -/
abbrev wdDisarmed : Nat := 0
abbrev wdBoot : Nat := 1
abbrev wdRunning : Nat := 2
abbrev wdWarned : Nat := 3

/-- An entry to WARNED (R411): WD_WARN, an event record and a message. -/
def State.wdWarn (s : State) (h : Half) : State :=
  let fromBoot := s.get B.mnt (wdState h) == wdBoot
  let s := (s.put B.mnt (wdState h) wdWarned).setMh h.toNat { s.mh h.toNat with warnedFromBoot := fromBoot }
  ((s.flag (B.mbx h) F.MNT_MBEVENTS_WD_WARN).event 0x40 h.toNat 0 0).mantleMsg h 28 h.toNat 55 0

/-- KICK (R411, R413): the expected key restarts the period, which is then PERIOD, and the first of a boot makes the boot succeed; another key
enters WARNED from BOOT and RUNNING. -/
def kick (h : Half) (key : Nat) (s : State) : State :=
  let st := s.get B.mnt (wdState h)
  if !s.coreUp h || st == wdDisarmed then s
  else if key % 65536 == (if s.bit B.mnt (wdKey h) then 0xA5A5 else 0x5A5A) then
    let s := if st == wdWarned then s.satAdd B.mnt (wdWarns h) 1 else s
    let s := (s.put B.mnt (wdState h) wdRunning).put B.mnt (wdKey h) (1 - s.get B.mnt (wdKey h))
    let v := { s.mh h.toNat with period := s.get B.mnt (wdPeriod h) }
    s.setMh h.toNat (if v.kicked then v else { v with kicked := true, lastGood := some v.slot, failedSlot := none })
  else if st == wdWarned then s
  else s.wdWarn h

def execKick (h : Half) (key : Nat) (s : State) : Host.Outcome State Fault Refusal := .next (kick h key s)

/-- WD_WARN (R411): `ms` milliseconds since the last correct kick in RUNNING, which are the period in force or more. -/
def wdExpire (h : Half) (ms : Nat) (s : State) : State :=
  if s.get B.mnt (wdState h) == wdRunning && decide ((s.mh h.toNat).period ≤ ms) then s.wdWarn h else s

def execWdWarn (h : Half) (ms : Nat) (s : State) : Host.Outcome State Fault Refusal := .next (wdExpire h ms s)

/-! ### The core -/

/-- A request pending at a mismatch is answered with RESTARTED (R392). DEDUCED (log 69). -/
def State.mbRestarted (s : State) (h : Half) : State :=
  if (s.mh h.toNat).req.isNone then s
  else (s.mbFail h 0x0D).flag (B.mbx h) F.MNT_MBEVENTS_RESTARTED

/-- LOCKSTEP_MISMATCH (R392): the core restarts; hardware units keep their state. -/
def lockstepMismatch (s : State) : State :=
  if !s.mantleUp then s
  else
    let s := (s.event 0x60 0 0 0).mantleMsg .a 29 0 56 0
    let s := (s.mbRestarted .a).mbRestarted .b
    let s := match s.mcore.intake with
      | some k => if k.checking then s.intakeClose else s
      | none => s
    { s with mcore := { s.mcore with coreUp := false, order := [] } }

def execLockstepMismatch (s : State) : Host.Outcome State Fault Refusal := .next (lockstepMismatch s)

/-- Requests that waited for the core, in order of arrival (R395). -/
def State.mbServeAll (s : State) : List Half → State
  | [] => s
  | h :: rest =>
    let s := match (s.mh h.toNat).req with
      | some r => if s.mantleServes then s.mbServe h r else { s with mcore := { s.mcore with order := s.mcore.order ++ [h] } }
      | none => s
    State.mbServeAll s rest

/-- CORE_RESTART_DONE (R392, R417): the core runs again; a TYPE 2 check completes, and what waited is served. -/
def coreRestartDone (s : State) : State :=
  if s.mcore.coreUp || !s.mantleUp then s
  else
    let waiting := s.mcore.order
    let s := { s with mcore := { s.mcore with coreUp := true, order := [] } }
    let s := match s.mcore.intake, s.mcore.mantlePatch with
      | some k, some img => if k.checking && k.type == 2 then s.intakeClose.mbAnswer k.half 0 img.svn else s
      | _, _ => s
    s.mbServeAll waiting

def execCoreRestartDone (s : State) : Host.Outcome State Fault Refusal := .next (coreRestartDone s)

end Sys2Proof.Machine
end

