-- ==== Sys2Proof/Machine/Sdm.lean ====
section
/-! DEFINITION. Service DMA (R374 to R391), with host memory and MSI-X messages (R317, R330, R373) as it and the host
ports use them. -/

namespace Sys2Proof.Machine

/-! ### Host memory and messages -/

/-- Bytes written to host memory through a port. -/
def State.hostWrite (s : State) (h : Half) (addr : Nat) (bs : List Byte) : State :=
  { s with hostMem := (bs.zipIdx).foldl (fun m (x : Byte × Nat) =>
      smPut 0 m (2 ^ 64 * h.toNat + (addr + x.2) % 2 ^ 64) x.1) s.hostMem }

/-- Whether a port's link is up and it has not stopped (R362, R366). -/
def State.portUp (s : State) (h : Half) : Bool :=
  s.get (B.hif h) F.HIF_STAT_LINK == 2 && !(smGet Hif.reset s.hifs h.toNat).stopped

/-- A word of an MSI-X table entry (R373). -/
def State.msixWord (s : State) (h : Half) (v j : Nat) : Nat := (s.word (B.hif h + 0x8000 + 16 * v + 4 * j)).toNat

/-- An MSI-X message on a vector (R330, R373): a masked vector sets its pending bit; else the message is written to host
memory. -/
def State.msix (s : State) (h : Half) (v : Nat) : State :=
  if !s.portUp h then s
  else if s.msixWord h v 3 % 2 == 1 then
    let a := B.hif h + 0xA000 + v / 32 * 4
    s.setWord a (s.word a ||| BitVec.ofNat 32 (2 ^ (v % 32)))
  else
    let s := { s with msis := smPut 0 s.msis (512 * h.toNat + v) (smGet 0 s.msis (512 * h.toNat + v) + 1) }
    s.hostWrite h (s.msixWord h v 0 + s.msixWord h v 1 * 2 ^ 32) (leBytes 4 (s.msixWord h v 2))

/-- Whether the half link serves requests to the other half: up, and that half out of reset (R358, R386, R433). -/
def State.peerUp (s : State) (h : Half) : Bool := !s.board.halfLinkDown && s.coreUp h.other

/-! ### Channels -/

def State.sdm (s : State) (h : Half) : Sdm := smGet Sdm.reset s.sdms h.toNat
def State.setSdm (s : State) (h : Half) (v : Sdm) : State := { s with sdms := smPut Sdm.reset s.sdms h.toNat v }

/-- The page of a channel, as the base of the channel fields (R390). -/
def sdmCh (h : Half) (c : Nat) : Nat := B.sdm h + 0x1000 * c

def State.sdmChState (s : State) (h : Half) (c : Nat) : Nat := s.get (sdmCh h c) F.SDM_CHCTL_STATE
def State.ddepth (s : State) (h : Half) (c : Nat) : Nat := s.get (sdmCh h c) F.SDM_CHCFG_DDEPTH
def State.cdepth (s : State) (h : Half) (c : Nat) : Nat := s.get (sdmCh h c) F.SDM_CHCFG_CDEPTH
def sdmDepthOk (d : Nat) : Bool := 4 ≤ d && d ≤ 1024

/-- Whether a channel has descriptors waiting. -/
def State.sdmWaits (s : State) (h : Half) (c : Nat) : Bool :=
  s.get (sdmCh h c) F.SDM_DRTAIL_TAIL != s.get (sdmCh h c) F.SDM_DRTAIL_HEAD

/-- SDM_STAT follows the channels (R389). -/
def State.sdmShow (s : State) (h : Half) : State :=
  let bits := fun (p : Nat → Bool) => (List.range 4).foldl (fun m c => if p c then m + 2 ^ c else m) 0
  let s := s.put (B.sdm h) F.SDM_STAT_PENDING (bits fun c => s.sdmChState h c != 0 && s.sdmWaits h c)
  let s := s.put (B.sdm h) F.SDM_STAT_HALTED (bits fun c => s.sdmChState h c == 3)
  s.putB (B.sdm h) F.SDM_STAT_BUSY (s.sdm h).desc.isSome

def State.setSdmState (s : State) (h : Half) (c st : Nat) : State := s.put (sdmCh h c) F.SDM_CHCTL_STATE st

/-! ### Descriptors (R377 to R379) -/

structure SdmDesc where
  src : Nat
  dst : Nat
  len : Nat
  srcSpace : Nat
  dstSpace : Nat
  swap : Nat
  irq : Bool
  tag : Nat
  reserved : Bool
  deriving DecidableEq, Repr

/-- The fields of a descriptor, and whether a reserved bit is set. -/
def sdmDesc (w : List Nat) : SdmDesc :=
  let g := fun i => w.getD i 0 % 2 ^ 32
  { src := g 0 + g 1 * 2 ^ 32, dst := g 2 + g 3 * 2 ^ 32, len := g 4 % 2 ^ 24, srcSpace := g 5 % 4,
    dstSpace := g 5 / 4 % 4, swap := g 5 / 16 % 4, irq := (g 5).testBit 6, tag := g 6 % 2 ^ 16,
    reserved := g 4 / 2 ^ 24 != 0 || g 5 / 2 ^ 7 != 0 || g 6 / 2 ^ 16 != 0 || g 7 != 0 }

/-- An invalid descriptor (R378). -/
def SdmDesc.bad (d : SdmDesc) : Bool :=
  d.reserved || d.srcSpace ≥ 2 || d.dstSpace == 3 || d.src % 4 != 0 || d.dst % 4 != 0 || d.len % 4 != 0 ||
    d.len == 0 || (d.srcSpace == 0 && d.dstSpace == 0) ||
    (d.srcSpace == 1 && d.dstSpace == 1 && decide (d.src < d.dst + d.len ∧ d.dst < d.src + d.len)) ||
    (d.dstSpace == 2 && d.dst + d.len > 4194304)

/-- SWAP of each aligned group of four bytes (R379). -/
def swapBytes (swap : Nat) : List Byte → List Byte
  | b0 :: b1 :: b2 :: b3 :: rest =>
    (match swap with
      | 1 => [b3, b2, b1, b0]
      | 2 => [b2, b3, b0, b1]
      | 3 => [b1, b0, b3, b2]
      | _ => [b0, b1, b2, b3]) ++ swapBytes swap rest
  | bs => bs

/-- How a request of class SDM to a 64-byte word of the buffer address space fails, if it does (R257, R277, R386): the
STATUS. `ue` is a word of the source that the codes cannot correct. -/
def State.sdmWordFail (s : State) (h : Half) (ba : Nat) (read : Bool) (ue : Option Nat) : Option Nat :=
  if ba ≥ 2 ^ 42 then some 0x03
  else
    let t := if ba / 2 ^ 41 = 0 then Half.a else Half.b
    if t != h && !s.strapBit 1 then some 0x03
    else if t != h && !s.peerUp h then some 0x08
    else match s.bufRefuse t .sdm (ba % 2 ^ 41) with
      | .offline => some 0x04
      | .addr => some 0x03
      | _ =>
        let ha := ba % 2 ^ 41
        if read && (s.poisoned t (ha / 4096) (ha % 4096 / 64) || ue == some (ba / 64 * 64)) then some 0x02 else none

/-- The first failing word of a range of the buffer: its offset within the transfer and the STATUS. -/
def State.sdmRangeFail (s : State) (h : Half) (base len : Nat) (read : Bool) (ue : Option Nat) : Option (Nat × Nat) :=
  let n := (base % 64 + len + 63) / 64
  (List.range n).findSome? fun i =>
    let a := base / 64 * 64 + 64 * i
    (s.sdmWordFail h a read ue).map fun st => (a - base, st)

/-- How the image intake refuses a write of a range (R386, R415): the first byte refused and the STATUS. -/
def State.intakeFail (s : State) (h : Half) (off len : Nat) : Option (Nat × Nat) :=
  match s.intakeOf h with
  | none => some (0, 0x09)
  | some k => if off + len > k.len then some (k.len - off, 0x0B) else none

/-- The earlier of two failures; of two at one offset the first. -/
def sdmEarlier : Option (Nat × Nat) → Option (Nat × Nat) → Option (Nat × Nat)
  | some a, some b => some (if b.1 < a.1 then b else a)
  | some a, none => some a
  | none, b => b

/-- The bytes of a buffer range that a write covers lose their poison when they fill a word (R262). -/
def State.sdmStore (s : State) (ba : Nat) (bs : List Byte) : State :=
  let s := s.bufStore ba bs
  let t := if ba / 2 ^ 41 % 2 = 0 then Half.a else Half.b
  (List.range (bs.length / 64 + 1)).foldl (fun s i =>
    let a := (ba + 63) / 64 * 64 + 64 * i
    if a + 64 ≤ ba + bs.length then s.setPoison t (a % 2 ^ 41 / 4096) (a % 4096 / 64) false else s) s

/-- The source data that a descriptor has before an offset, rearranged. DEDUCED (log 80). -/
def State.sdmData (s : State) (d : SdmDesc) (data : List Byte) : List Byte :=
  swapBytes d.swap (if d.srcSpace == 0 then data.take d.len else (List.range d.len).map fun i => s.bufByte (d.src + i))

/-- The transfer of a descriptor's bytes before an offset (R379, R380). DESIGN CHOICE (log 77). -/
def State.sdmMove (s : State) (h : Half) (d : SdmDesc) (data : List Byte) (upto : Nat) : State :=
  let bs := (s.sdmData d data).take upto
  if d.dstSpace == 0 then s.hostWrite h d.dst bs
  else if d.dstSpace == 1 then s.sdmStore d.dst bs
  else match s.mcore.intake with
    | none => s
    | some k =>
      let cells := (bs.zipIdx).foldl (fun m (x : Byte × Nat) => smPut 0 m (d.dst + x.2) x.1) k.bytes
      { s with mcore := { s.mcore with intake := some { k with bytes := cells } } }

/-- Where a descriptor's own spaces stop it: the first failing offset and STATUS. -/
def State.sdmFails (s : State) (h : Half) (d : SdmDesc) (ue : Option Nat) : Option (Nat × Nat) :=
  let src := if d.srcSpace == 0 then (if s.portUp h then none else some (0, 0x07)) else s.sdmRangeFail h d.src d.len true ue
  let dst := if d.dstSpace == 0 then (if s.portUp h then none else some (0, 0x07))
    else if d.dstSpace == 1 then s.sdmRangeFail h d.dst d.len false none
    else s.intakeFail h d.dst d.len
  sdmEarlier src dst

/-- Size of the tables of an actuator in SYSTEM (R131, R144): the BAT header and its entries, the defect table's header
and its entries. -/
def State.tableRanges (s : State) (ai : Nat) : List (Nat × Nat) :=
  let bat := s.get (fmtB ai) F.FMT_BATBASE_LO_ADDR + s.get (fmtB ai) F.FMT_BATBASE_HI_ADDR * 0x100000000
  let dft := s.get (fmtB ai) F.FMT_DEFBASE_LO_ADDR + s.get (fmtB ai) F.FMT_DEFBASE_HI_ADDR * 0x100000000
  [(bat, 0x100 + 32 * batEntries (s.batRd ai)), (dft, 64 + 8 * (defPrimary (s.defRd ai) + defGrown (s.defRd ai)))]

/-- Whether a range of the buffer meets a table of an HDA that is attached (R381). -/
def State.tableHit (s : State) (base len : Nat) : Bool :=
  (List.range 16).any fun ai => s.portState (actHda ai) == 4 && (s.tableRanges ai).any fun r =>
    decide (base < r.1 + r.2 ∧ r.1 < base + len)

/-! ### Records (R382 to R384) -/

/-- A descriptor or record address at an index of a ring. -/
def State.sdmRing (s : State) (h : Half) (c : Nat) (cq : Bool) (i : Nat) : Nat :=
  if cq then s.get (sdmCh h c) F.SDM_CQBASE_LO_ADDR + s.get (sdmCh h c) F.SDM_CQBASE_HI_ADDR * 2 ^ 32 + 16 * i
  else s.get (sdmCh h c) F.SDM_DRBASE_LO_ADDR + s.get (sdmCh h c) F.SDM_DRBASE_HI_ADDR * 2 ^ 32 + 32 * i

/-- Whether one more record would reach the head that software has written (R383). -/
def State.sdmCqFull (s : State) (h : Half) (c : Nat) : Bool :=
  (s.get (sdmCh h c) F.SDM_CQHEAD_POST + 1) % max 1 (s.cdepth h c) == s.get (sdmCh h c) F.SDM_CQHEAD_HEAD

/-- Posting a record (R382, R384): PHASE, the CQ's next entry, the interrupt. One that cannot reach its CQ is dropped
(R387). DEDUCED (log 78). -/
def State.sdmPost (s : State) (h : Half) (c : Nat) (w : List Nat) (irq : Bool) : State :=
  let b := sdmCh h c
  let v := s.sdm h
  let i := s.get b F.SDM_CQHEAD_POST
  let w := [w.getD 0 0, w.getD 1 0 + (if v.phase0.testBit c then 0 else 2 ^ 31), w.getD 2 0, w.getD 3 0]
  let bs := w.flatMap (leBytes 4)
  let a := s.sdmRing h c true i
  let s := if s.bit b F.SDM_CHCFG_CSPACE then
      (if (s.sdmWordFail h a false none).isSome then s else s.sdmStore a bs)
    else if s.portUp h then s.hostWrite h a bs else s
  let n := (i + 1) % max 1 (s.cdepth h c)
  let s := s.put b F.SDM_CQHEAD_POST n
  let s := if n == 0 then s.setSdm h { s.sdm h with phase0 := (s.sdm h).phase0 ^^^ 2 ^ c } else s
  if irq && c != 0 && s.bit b F.SDM_CHCTL_IEN then s.msix h (s.get b F.SDM_CHCTL_VECTOR) else s

/-- A record is posted, or held in the channel while its CQ is full, with CQ_FULL (R383). -/
def State.sdmRecord (s : State) (h : Half) (c : Nat) (w : List Nat) (irq : Bool) : State :=
  if s.sdmCqFull h c then
    (s.setSdm h { s.sdm h with held := smInsert (s.sdm h).held c (w, irq) }).flag (B.sdm h) F.SDM_EVENTS_CQ_FULL
  else s.sdmPost h c w irq

/-- A descriptor ends (R376, R386): its record, the counters, and for a status other than OK the error and HALTED. `off` is
ERR_OFFSET; a fetch that failed leaves the head at the descriptor. -/
def State.sdmEnd (s : State) (h : Half) (c st off : Nat) (fetched : Bool) : State :=
  let v := s.sdm h
  let d := sdmDesc (v.desc.getD [])
  let b := sdmCh h c
  let idx := s.get b F.SDM_DRTAIL_HEAD
  let moved := if !fetched then 0 else if st == 0 then d.len else off
  let eoff := if st == 0 then 0 else if !fetched then 0xFFFFFFFF else off
  let s := s.setSdm h { v with desc := none }
  let s := if fetched then s.put b F.SDM_DRTAIL_HEAD ((idx + 1) % max 1 (s.ddepth h c)) else s
  let s := s.count (B.sdm h) F.SDM_CNT_DESC_COUNT h 560 1
  let s := s.count (B.sdm h) F.SDM_CNT_KIB_COUNT h 562 (moved / 1024)
  let s := if st == 0 then s
    else
      let s := (s.count (B.sdm h) F.SDM_CNT_ERR_COUNT h 561 1).flag (B.sdm h) F.SDM_EVENTS_ERROR
      let s := ((s.put (B.sdm h) F.SDM_ERRINFO_CH c).put (B.sdm h) F.SDM_ERRINFO_STATUS st).put (B.sdm h)
        F.SDM_ERRINFO_INDEX idx
      let s := s.chimney h 11 0 24 (c + st * 4)
      (s.setSdmState h c 3).setSdm h { s.sdm h with turn := none }
  let w := [(if fetched then d.tag else 0) + c * 2 ^ 16 + st * 2 ^ 24, idx, moved, eoff]
  s.sdmRecord h c w (d.irq && fetched || st != 0)

/-- A ring in buffer memory gives its descriptor at once (R377), unless its word meets a UE (`ue`, R386); the descriptor of one in
host memory is `words`. -/
def State.sdmFetch (s : State) (h : Half) (c : Nat) (words : List Nat) (ue : Option Nat) : State :=
  let b := sdmCh h c
  let a := s.sdmRing h c false (s.get b F.SDM_DRTAIL_HEAD)
  if s.bit b F.SDM_CHCFG_DSPACE then
    match s.sdmWordFail h a true ue with
    | some st => s.sdmEnd h c st 0 false
    | none =>
      s.setSdm h { s.sdm h with desc := some ((List.range 8).map fun i =>
        bytesLE ((List.range 4).map fun j => s.bufByte (a + 4 * i + j))) }
  else if !s.portUp h then s.sdmEnd h c 0x07 0 false
  else if words.length == 8 then s.setSdm h { s.sdm h with desc := some words }
  else s

/-- The turn of a channel ends: it goes back to IDLE. -/
def State.sdmTurnEnd (s : State) (h : Half) : State :=
  match (s.sdm h).turn with
  | none => s
  | some (c, _) =>
    let s := s.setSdm h { s.sdm h with turn := none }
    if s.sdmChState h c == 2 then s.setSdmState h c 1 else s

/-- What the turn of a channel does next: the next descriptor below the recorded tail, or the turn's end. A channel that
holds a record starts no descriptor (R375, R383). -/
def State.sdmNext (s : State) (h : Half) (words : List Nat) (ue : Option Nat) : State :=
  match (s.sdm h).turn with
  | none => s
  | some (c, tail) =>
    if (smFind (s.sdm h).held c).isSome || s.get (sdmCh h c) F.SDM_DRTAIL_HEAD == tail || !s.bit (B.sdm h) F.SDM_CTL_EN then
      s.sdmTurnEnd h
    else s.sdmFetch h c words ue

/-- SDM_TAKE_CHANNEL (R375, R383): the next channel in turn that is neither OFF nor HALTED nor empty, or that holds a
record; a held record is posted first. `words` is its first descriptor when its ring is in host memory, `ue` a word of a ring in
the buffer that its codes cannot correct. -/
def sdmTakeChannel (h : Half) (words : List Nat) (ue : Option Nat) (s : State) : State :=
  if !s.sdmUp h || !s.bit (B.sdm h) F.SDM_CTL_EN || (s.sdm h).turn.isSome then s
  else
    let last := s.get (B.sdm h) F.SDM_STAT_CH_NOW
    let order := (List.range 4).map fun i => (last + 1 + i) % 4
    match order.find? fun c => s.sdmChState h c == 1 && (s.sdmWaits h c || (smFind (s.sdm h).held c).isSome) with
    | none =>
      -- a record held in a HALTED channel is posted at its turn
      match order.find? fun c => s.sdmChState h c == 3 && (smFind (s.sdm h).held c).isSome with
      | none => s
      | some c => (heldFirst c (s.put (B.sdm h) F.SDM_STAT_CH_NOW c)).sdmShow h
    | some c =>
      let s := s.put (B.sdm h) F.SDM_STAT_CH_NOW c
      let s := heldFirst c s
      let s := s.setSdm h { s.sdm h with turn := some (c, s.get (sdmCh h c) F.SDM_DRTAIL_TAIL) }
      (((s.setSdmState h c 2).demand h 0).sdmNext h words ue).sdmShow h
where
  heldFirst (c : Nat) (s : State) : State :=
    match smFind (s.sdm h).held c with
    | none => s
    | some (w, irq) =>
      if s.sdmCqFull h c then s
      else (s.setSdm h { s.sdm h with held := smErase (s.sdm h).held c }).sdmPost h c w irq

def execSdmTakeChannel (h : Half) (words : List Nat) (ue : Option Nat) (s : State) : Host.Outcome State Fault Refusal :=
  .next (sdmTakeChannel h words ue s)

/-- SDM_DESCRIPTOR_END (R376 to R386): the running descriptor moves its data and ends. `data` is what its host reads
returned, `ue` a word of the source, or of the ring for the next descriptor, that the buffer's codes cannot correct, `next` the next descriptor of a ring in host memory.
A descriptor that waits for more host data than has come does not end. -/
def sdmDescriptorEnd (h : Half) (data : List Byte) (ue : Option Nat) (next : List Nat) (s : State) : State :=
  match (s.sdm h).turn, (s.sdm h).desc with
  | some (c, _), some w =>
    let d := sdmDesc w
    if d.bad then ((s.sdmEnd h c 0x01 0 true).sdmNext h next ue).sdmShow h
    else
      match s.sdmFails h d ue with
      | some (off, st) => (((s.sdmMove h d data off).sdmEnd h c st off true).sdmNext h next ue).sdmShow h
      | none =>
        if d.srcSpace == 0 && data.length < d.len then s
        else (((s.sdmMove h d data d.len).sdmEnd h c 0 0 true).sdmNext h next ue).sdmShow h
  | _, _ => s

/-- The end of a descriptor that writes into a table of an attached HDA is outside the specification (R381).
DESIGN CHOICE (log 147). -/
def execSdmDescriptorEnd (h : Half) (data : List Byte) (ue : Option Nat) (next : List Nat) (s : State) :
    Host.Outcome State Fault Refusal :=
  match (s.sdm h).desc with
  | none => .next (sdmDescriptorEnd h data ue next s)
  | some w =>
    let d := sdmDesc w
    if (s.sdm h).turn.isSome && !d.bad && d.dstSpace == 1 && s.tableHit d.dst d.len then .fault (.outsideSpecification "R381")
    else .next (sdmDescriptorEnd h data ue next s)

/-- A host read of the running descriptor, or of its fetch, fails (R385, R386): what came before its 4,096-byte request, counted
from the start of the transfer, is written (R380, R382). DESIGN CHOICE (log 77). -/
def State.sdmHostFail (s : State) (h : Half) (st : Nat) (data : List Byte) : State :=
  match (s.sdm h).turn, (s.sdm h).desc with
  | some (c, _), some w =>
    let d := sdmDesc w
    if d.bad || d.srcSpace != 0 || (s.sdmFails h d none).isSome || data.length ≥ d.len then s
    else ((s.sdmMove h d data (data.length / 4096 * 4096)).sdmEnd h c st (data.length / 4096 * 4096) true).sdmShow h
  | some (c, _), none =>
    if s.bit (sdmCh h c) F.SDM_CHCFG_DSPACE then s else (s.sdmEnd h c st 0 false).sdmShow h
  | _, _ => s

/-- SDM_HOST_TIMEOUT (R385): a host read has not completed in 50 ms; `data` is what came before it. -/
def sdmHostTimeout (h : Half) (data : List Byte) (s : State) : State :=
  let t := s.sdmHostFail h 0x06 data
  if t = s then s else t.flag (B.sdm h) F.SDM_EVENTS_HOST_TMO

def execSdmHostTimeout (h : Half) (data : List Byte) (s : State) : Host.Outcome State Fault Refusal :=
  .next (sdmHostTimeout h data s)

/-! ### Channel control (R386, R390, R391) -/

/-- SDM_CHANNEL_ENABLE (R390): head and tail to zero; IDLE, or HALTED with BAD_DESC when a depth lies outside 4 to
1,024. -/
def State.sdmEnable (s : State) (h : Half) (c : Nat) : State :=
  let b := sdmCh h c
  if c ≥ 4 || !s.sdmUp h || s.bit b F.SDM_CHCTL_EN then s
  else
    let s := (s.flag b F.SDM_CHCTL_EN).put b F.SDM_DRTAIL_TAIL 0
    let s := ((s.put b F.SDM_DRTAIL_HEAD 0).put b F.SDM_CQHEAD_HEAD 0).put b F.SDM_CQHEAD_POST 0
    let v := s.sdm h
    let s := s.setSdm h { v with phase0 := v.phase0 &&& (15 - 2 ^ c), held := smErase v.held c }
    let s := if sdmDepthOk (s.ddepth h c) && sdmDepthOk (s.cdepth h c) then s.setSdmState h c 1
      else
        ((s.put (B.sdm h) F.SDM_ERRINFO_CH c).put (B.sdm h) F.SDM_ERRINFO_STATUS 0x01).setSdmState h c 3
    s.sdmShow h

def execSdmChannelEnable (h : Half) (c : Nat) (s : State) : Host.Outcome State Fault Refusal := .next (s.sdmEnable h c)

/-- RESUME (R386, R390): a HALTED channel whose depths are valid goes back to IDLE. -/
def State.sdmResume (s : State) (h : Half) (c : Nat) : State :=
  if c < 4 && s.sdmUp h && s.sdmChState h c == 3 && sdmDepthOk (s.ddepth h c) && sdmDepthOk (s.cdepth h c) then
    (s.setSdmState h c 1).sdmShow h
  else s

def execResume (h : Half) (c : Nat) (s : State) : Host.Outcome State Fault Refusal := .next (s.sdmResume h c)

/-- The running descriptor of a channel ends ABORTED (R391): `moved` of its bytes have been written by then, rounded to a
64-byte boundary, from `data` when they come from host memory. CFG_CHANGED is set while the engine is busy (R52, R389). -/
def State.sdmAbort (s : State) (h : Half) (c moved : Nat) (data : List Byte) : State :=
  let s := if (s.sdm h).desc.isSome then s.flag (B.sdm h) F.SDM_EVENTS_CFG_CHANGED else s
  match (s.sdm h).turn, (s.sdm h).desc with
  | some (c', _), some w =>
    if c' != c then s
    else
      let d := sdmDesc w
      let n := min (moved / 64 * 64) (min d.len (if d.srcSpace == 0 then data.length / 64 * 64 else d.len))
      let n := if d.bad then 0 else match s.sdmFails h d none with | some (off, _) => min n off | none => n
      (s.sdmMove h d data n).sdmEnd h c 0x0A n true
  | some (c', _), none => if c' == c then s.setSdm h { s.sdm h with turn := none } else s
  | _, _ => s

/-- Head and tail of a channel's ring return to 0 (R391). -/
def State.sdmRewind (s : State) (h : Half) (c : Nat) : State :=
  (s.put (sdmCh h c) F.SDM_DRTAIL_HEAD 0).put (sdmCh h c) F.SDM_DRTAIL_TAIL 0

/-- SDM_CHANNEL_DISABLE (R391): EN is cleared. -/
def State.sdmDisable (s : State) (h : Half) (c moved : Nat) (data : List Byte) : State :=
  if c ≥ 4 || !s.sdmUp h || !s.bit (sdmCh h c) F.SDM_CHCTL_EN then s
  else
    let s := (s.sdmAbort h c moved data).sdmRewind h c
    let s := s.setSdm h { s.sdm h with held := smErase (s.sdm h).held c }
    ((s.put (sdmCh h c) F.SDM_CHCTL_EN 0).setSdmState h c 0).sdmShow h

def execSdmChannelDisable (h : Half) (c moved : Nat) (data : List Byte) (s : State) :
    Host.Outcome State Fault Refusal := .next (s.sdmDisable h c moved data)

/-- SDM_CHANNEL_RECONFIG (R391): a word of SDM_DRBASE, SDM_CQBASE or SDM_CHCFG (words 0 to 4 of the channel page) is
written; while EN is 1 the running descriptor ends ABORTED and the channel halts. -/
def State.sdmReconfig (s : State) (h : Half) (c w : Nat) (v : Word) (moved : Nat) (data : List Byte) : State :=
  if c ≥ 4 || w ≥ 5 || !s.sdmUp h then s
  else
    let a := sdmCh h c + 0x1000 + 4 * w
    let v := if w == 0 then v &&& 0xFFFFFFE0 else if w == 2 then v &&& 0xFFFFFFF0
      else if w == 4 then v &&& 0x0FFF0FFF else v
    if !s.bit (sdmCh h c) F.SDM_CHCTL_EN then s.setWord a v
    else (((s.sdmAbort h c moved data).sdmRewind h c).setWord a v |>.setSdmState h c 3).sdmShow h

def execSdmChannelReconfig (h : Half) (c w : Nat) (v : Word) (moved : Nat) (data : List Byte) (s : State) :
    Host.Outcome State Fault Refusal := .next (s.sdmReconfig h c w v moved data)

/-! ### Resets -/

/-- A port reset or a surprise removal (R387): a descriptor in progress that uses host space ends with PORT_DOWN. -/
def State.sdmPortReset (s : State) (h : Half) : State :=
  match (s.sdm h).turn with
  | none => s
  | some (c, _) =>
    let d := sdmDesc ((s.sdm h).desc.getD [])
    let b := sdmCh h c
    if !s.bit b F.SDM_CHCFG_DSPACE || !s.bit b F.SDM_CHCFG_CSPACE ||
        ((s.sdm h).desc.isSome && (d.srcSpace == 0 || d.dstSpace == 0)) then
      (s.sdmEnd h c 0x07 0 (s.sdm h).desc.isSome).sdmShow h
    else s

end Sys2Proof.Machine
end

