-- ==== Sys2Proof/Machine/HostRing.lean ====
section
/-! DEFINITION. Rings, doorbells, the fetch and check of descriptors, completion records and the lost-completions log of
the host ports (R320 to R333, R345 to R350, R357, R362 to R373, R510). -/

namespace Sys2Proof.Machine

/-! ### Ports, rings and commands -/

def State.hif (s : State) (h : Half) : Hif := smGet Hif.reset s.hifs h.toNat
def State.setHif (s : State) (h : Half) (v : Hif) : State := { s with hifs := smPut Hif.reset s.hifs h.toNat v }

/-- Ring table entries, as bases of the ring fields (R369, R370). -/
def sqB (h : Half) (q : Nat) : Nat := B.hif h + 16 * q
def cqB (h : Half) (q : Nat) : Nat := B.hif h + 16 * q

def State.cq (s : State) (h : Half) (q : Nat) : Cq := smGet Cq.reset (s.hif h).cqs q
def State.setCq (s : State) (h : Half) (q : Nat) (v : Cq) : State :=
  s.setHif h { s.hif h with cqs := smPut Cq.reset (s.hif h).cqs q v }

def State.sqOn (s : State) (h : Half) (q : Nat) : Bool := s.bit (sqB h q) F.SQ_EN
def State.sqErr (s : State) (h : Half) (q : Nat) : Bool := s.bit (sqB h q) F.SQ_ERR
def State.cqOn (s : State) (h : Half) (q : Nat) : Bool := s.bit (cqB h q) F.CQ_EN
def State.cqErr (s : State) (h : Half) (q : Nat) : Bool := s.bit (cqB h q) F.CQ_ERR
def ringDepthOk (d : Nat) : Bool := 16 ≤ d && d ≤ 4096

/-- CREDITS of an SQ (R369). -/
def State.credits (s : State) (h : Half) (q : Nat) : Nat := min 4096 (min1 (s.get (sqB h q) F.SQ_CREDITS))

def State.hifCount (s : State) (h : Half) (i n : Nat) : State :=
  s.count (B.hif h) ⟨F.HIF_CNT_DONE_COUNT.off + 4 * i, 0, 32⟩ h (552 + i) n

/-- A double word of a command's descriptor, and its fields (R325, R326). -/
def Cmd.dw (c : Cmd) (i : Nat) : Nat := c.words.getD i 0 % 2 ^ 32
def Cmd.op (c : Cmd) : Nat := c.dw 0 % 256
def Cmd.flags (c : Cmd) : Nat := c.dw 0 / 256 % 256
def Cmd.cid (c : Cmd) : Nat := c.dw 0 / 65536
def Cmd.nsid (c : Cmd) : Nat := c.dw 1 % 256
def Cmd.hda (c : Cmd) : Nat := c.dw 1 / 256 % 256
def Cmd.subop (c : Cmd) : Nat := c.dw 1 / 65536 % 256
def Cmd.lba (c : Cmd) : Nat := c.dw 2 + c.dw 3 * 2 ^ 32
def Cmd.nlb (c : Cmd) : Nat := c.dw 4 % 4096
def Cmd.listLen (c : Cmd) : Nat := c.dw 5 % 8192
def Cmd.dptr (c : Cmd) : Nat := c.dw 6 + c.dw 7 * 2 ^ 32

/-- Opcodes (R334). -/
abbrev opRead : Nat := 0x01
abbrev opWrite : Nat := 0x02
abbrev opVerify : Nat := 0x03
abbrev opFlush : Nat := 0x04
abbrev opTrim : Nat := 0x05
abbrev opPin : Nat := 0x08
abbrev opUnpin : Nat := 0x09
abbrev opPrefetch : Nat := 0x0A
abbrev opClass : Nat := 0x10
abbrev opEmber : Nat := 0x11
abbrev opAdmin : Nat := 0x20

def countOp (op : Nat) : Bool := op == opTrim || op == opPin || op == opUnpin || op == opPrefetch

/-- Logical sectors that a command names (R325, R334). -/
def Cmd.count (c : Cmd) : Nat := if countOp c.op then c.dw 8 + c.dw 9 * 2 ^ 32 else c.nlb + 1

/-- Whether a WRITE is buffered (R326). -/
def Cmd.buffered (c : Cmd) : Bool := c.op == opWrite && c.flags.testBit 1

/-- Bytes of a command's payload, if it has one (R327). -/
def Cmd.payload (c : Cmd) : Option Nat :=
  if c.op == opRead || c.op == opWrite then some (4096 * (c.nlb + 1))
  else if c.op == opAdmin && (c.subop == 1 || c.subop == 2 || c.subop == 8 || c.subop == 9) then some (c.dw 9)
  else none

/-- Host addresses of a payload, in order (R327). -/
def Cmd.segments (c : Cmd) : List (Nat × Nat) :=
  if c.flags.testBit 0 then c.list.map fun e => (e.1, e.2 % 2 ^ 32)
  else [(c.dptr, c.payload.getD 0)]

/-- Data written to a command's payload buffer. -/
def State.payloadWrite (s : State) (h : Half) : List (Nat × Nat) → List Byte → State
  | [], _ => s
  | (a, n) :: rest, bs => State.payloadWrite (s.hostWrite h a (bs.take n)) h rest (bs.drop n)

/-- A held command of a port. -/
def State.cmd (s : State) (h : Half) (n : Nat) : Option Cmd := (s.hif h).held.find? (·.n == n)
def State.setCmd (s : State) (h : Half) (c : Cmd) : State :=
  s.setHif h { s.hif h with held := (s.hif h).held.map fun x => if x.n == c.n then c else x }

/-! ### Namespaces and media units (R331 to R333, R371) -/

structure Ns where
  ram : Bool
  half : Half
  chunk : Nat
  units : List Nat
  base : Nat
  size : Nat
  cap : Nat
  caps : List Nat
  deriving DecidableEq, Repr

/-- The namespace that a half's table gives an NSID. -/
def State.ns (s : State) (h : Half) (nsid : Nat) : Option Ns :=
  if nsid = 0 || nsid > 64 then none
  else
    let b := B.hif h + 64 * (nsid - 1)
    if !s.bit b F.NS_VALID then none
    else
      let u := s.get b F.NS_UNITS
      some { ram := s.bit b F.NS_KIND, half := halfOf (s.get b F.NS_HALF), chunk := s.get b F.NS_CHUNK,
             units := (List.range 32).filter u.testBit, base := s.get b F.NS_BASE, size := s.get b F.NS_SIZE,
             cap := s.get64 (b + F.NS_VALID.off + 16), caps := smGet [] s.nsCaps (64 * h.toNat + nsid - 1) }

/-- Actuator and group of a media unit (R331). -/
def unitAct (u : Nat) : Nat := 2 * (u / 4) + u % 2
def unitGroup (u : Nat) : Nat := u / 2 % 2

/-- Whether an HDA is attached: its attach has completed and its port is still ATTACHED (R87, R343). -/
def State.isAttached (s : State) (hd : Nat) : Bool := s.attached.testBit hd && s.portState hd == 4

/-- Present capacity of a unit in MSAs; 0 while its HDA is not attached (R331, R344). -/
def State.unitCap (s : State) (u : Nat) : Nat :=
  if s.isAttached (u / 4) then unitSectors (s.batRd (unitAct u)) (s.defRd (unitAct u)) (unitGroup u) else 0

/-- Concatenation: unit and MSA of an LBA (R332). -/
def concatMap : List Nat → List Nat → Nat → Option (Nat × Nat)
  | u :: us, c :: cs, lba => if lba < c then some (u, lba) else concatMap us cs (lba - c)
  | _, _, _ => none

/-- Unit and MSA of an LBA of a MEDIA namespace (R332). -/
def Ns.place (m : Ns) (lba : Nat) : Option (Nat × Nat) :=
  if m.chunk == 0 then concatMap m.units m.caps lba
  else
    let c := 60 * m.chunk
    let k := lba / c
    let n := max 1 m.units.length
    m.units[k % n]? |>.map fun u => (u, k / n * c + lba % c)

/-- Sectors of a command on media: its sector index, unit and MSA. -/
def Ns.sectors (m : Ns) (lba count : Nat) : List (Nat × Nat × Nat) :=
  (List.range count).filterMap fun i => (m.place (lba + i)).map fun (u, a) => (i, u, a)

/-- Capacity of a MEDIA namespace over units of given capacities (R332). -/
def mediaCap (chunk : Nat) (caps : List Nat) : Nat :=
  if chunk == 0 then caps.foldl (· + ·) 0
  else
    let c := 60 * chunk
    caps.length * c * ((caps.foldl min (caps.headD 0)) / c)

/-- Stripe group of an MSA of a unit, as kept for the trim map and SEGMENT. -/
def stripeKey (u msa : Nat) : Nat := u * 2 ^ 40 + msa / 60
/-- Stripe groups that a list of sectors touches. -/
def stripesOf (l : List (Nat × Nat × Nat)) : List Nat := (l.map fun x => stripeKey x.2.1 x.2.2).eraseDups

/-! ### Status -/

abbrev stOk : Nat := 0x00
abbrev stLimited : Nat := 0x01
abbrev stOpcode : Nat := 0x10
abbrev stField : Nat := 0x11
abbrev stNs : Nat := 0x12
abbrev stRange : Nat := 0x13
abbrev stReach : Nat := 0x14
abbrev stOver : Nat := 0x15
abbrev stData : Nat := 0x20
abbrev stLost : Nat := 0x21
abbrev stWrite : Nat := 0x22
abbrev stUnavail : Nat := 0x23
abbrev stHda : Nat := 0x24
abbrev stConfig : Nat := 0x25
abbrev stOffline : Nat := 0x26
abbrev stSpace : Nat := 0x30
abbrev stPayTmo : Nat := 0x31
abbrev stHost : Nat := 0x32
abbrev stRejected : Nat := 0x40

/-- A command ends with a STATUS, DETAIL and RESULT. -/
def State.cmdEnd (s : State) (h : Half) (n st det res : Nat) : State :=
  match s.cmd h n with
  | none => s
  | some c => if c.result.isSome then s else s.setCmd h { c with result := some (st, det, res) }

/-- A command ends with a STATUS and DETAIL whose RESULT the spec does not state. DEDUCED (log 182). -/
def State.cmdFail (s : State) (h : Half) (n st det : Nat) : State :=
  let (k, s) := s.takeFree
  s.cmdEnd h n st det (Config.freeNat k % 2 ^ 32)

/-! ### Counts of HIF_INFLIGHT (R366) -/

/-- Staging quota of an HDA in stripe groups of 256 KiB (R354). -/
def State.quotaGroups (s : State) (hd : Nat) : Nat := 256 * s.quota (hdaHalf hd) (hd % 4)

/-- Stripe groups of an HDA's quota taken by started commands and buffered writes (R354). -/
def State.roomTaken (s : State) (hd : Nat) : Nat :=
  let one := fun (l : List (Nat × Nat)) => ((l.filter (·.1 == hd)).map (·.2)).foldl (· + ·) 0
  ([Half.a, Half.b].map fun h => ((s.hif h).held.map fun c => one c.room).foldl (· + ·) 0).foldl (· + ·) 0 +
    (s.buffered.map fun b => one b.room).foldl (· + ·) 0

/-- Staging room that a WRITE needs: HDA and stripe groups (R354). -/
def State.roomNeed (s : State) (h : Half) (c : Cmd) : List (Nat × Nat) :=
  if c.op != opWrite then []
  else match s.ns h c.nsid with
    | none => []
    | some m =>
      if m.ram then []
      else
        let gs := stripesOf (m.sectors c.lba c.count)
        ((gs.map fun k => k / 2 ^ 40 / 4).eraseDups).map fun hd => (hd, (gs.filter fun k => k / 2 ^ 40 / 4 == hd).length)

/-- Whether an earlier WRITE that has not been admitted needs room of an HDA (R354: first come, first served). -/
def State.roomBlocked (s : State) (n hd : Nat) : Bool :=
  [Half.a, Half.b].any fun x => (s.hif x).held.any fun c =>
    decide (c.n < n) && !c.started && c.result.isNone && (s.roomNeed x c).any (·.1 == hd)

/-- Whether a WRITE can be admitted now (R354). -/
def State.roomFree (s : State) (h : Half) (c : Cmd) : Bool :=
  (s.roomNeed h c).all fun (hd, k) => s.roomTaken hd + k ≤ s.quotaGroups hd && !s.roomBlocked c.n hd

/-- Whether a READ or PREFETCH of media finds SEGMENT without any room at all (R355). -/
def State.segNone (s : State) (h : Half) (c : Cmd) : Bool :=
  (c.op == opRead || c.op == opPrefetch) && match s.ns h c.nsid with
    | none => false
    | some m => !m.ram && m.units.any fun u => (s.bufPart (hdaHalf (u / 4)) 1).2 == 0

def State.admitted (s : State) (h : Half) (c : Cmd) : Bool := s.roomFree h c && !s.segNone h c

/-- Commands of an SQ that are started (R352). -/
def State.startedOf (s : State) (h : Half) (q : Nat) : Nat :=
  ((s.hif h).held.filter fun c => c.sq == q && c.started).length

/-- Whether a held command waits for a credit, or for admission (R353). -/
def State.waitsCredit (s : State) (h : Half) (c : Cmd) : Bool :=
  !c.started && c.result.isNone && !c.listWait && c.behind.isEmpty && decide (s.startedOf h c.sq ≥ s.credits h c.sq)
def State.waitsRoom (s : State) (h : Half) (c : Cmd) : Bool :=
  !c.started && c.result.isNone && !c.listWait && c.behind.isEmpty && decide (s.startedOf h c.sq < s.credits h c.sq) &&
    !s.admitted h c

/-- Commands that a port holds (R323): a command whose completion is to be dropped is held until it is logged. -/
def State.heldCount (s : State) (h : Half) : Nat :=
  (s.hif h).entries.length + (s.hif h).held.length

/-- HIF_INFLIGHT and BUSY follow the port's commands (R366). -/
def State.hifShow (s : State) (h : Half) : State :=
  let b := B.hif h
  let w := ((s.hif h).held.filter fun c => s.waitsCredit h c || s.waitsRoom h c).length
  ((s.put b F.HIF_INFLIGHT_HELD (s.heldCount h)).put b F.HIF_INFLIGHT_WAITING w).putB b F.HIF_STAT_BUSY
    (s.heldCount h != 0)

/-! ### The lost-completions log (R363) -/

/-- A completion is dropped and logged. -/
def State.logLost (s : State) (h : Half) (c : Cmd) (st det res : Nat) : State :=
  let b := B.hif h
  let n := s.get b F.HIF_LOSTCNT_COUNT
  let t := s.usTime
  let ws := [c.op + c.sq * 2 ^ 8 + c.cid * 2 ^ 16, c.nsid + st * 2 ^ 8 + c.subop * 2 ^ 16, c.dw 2, c.dw 3, res % 2 ^ 32,
    det % 2 ^ 16, t % 2 ^ 32, t / 2 ^ 32]
  let s := if n < 128 then (ws.zipIdx).foldl (fun s (w, j) =>
      s.setWord (b + 0x5000 + 32 * n + 4 * j) (BitVec.ofNat 32 w)) s
    else (s.flag b F.HIF_LOSTCNT_OVF).flag b F.HIF_EVENTS_LOST_OVF
  (s.satAdd b F.HIF_LOSTCNT_COUNT 1).hifCount h 6 1

/-- A command leaves its port: what waited behind it may go on. -/
def State.cmdGone (s : State) (h : Half) (n : Nat) : State :=
  let s := s.setHif h { s.hif h with held := (s.hif h).held.filter (·.n != n) }
  let free := fun (s : State) (x : Half) =>
    s.setHif x { s.hif x with held := (s.hif x).held.map fun c => { c with behind := c.behind.filter (· != n) } }
  (free (free s .a) .b)

/-! ### Records (R328 to R330, R353) -/

/-- A CQ sends its message once AGG_N records have been posted since the last (R330). -/
def State.cqMessage (s : State) (h : Half) (q : Nat) : State :=
  let v := s.cq h q
  if s.bit (cqB h q) F.CQ_IEN && decide (v.uncovered ≥ min1 (s.get (cqB h q) F.CQ_AGG_N)) then
    (s.setCq h q { v with uncovered := 0 }).msix h (s.get (cqB h q) F.CQ_VECTOR)
  else s

/-- THROTTLE of a record of an SQ at this moment (R353). -/
def State.throttled (s : State) (h : Half) (q : Nat) : Bool :=
  (s.hif h).held.any (fun c => c.sq == q && (s.waitsCredit h c || s.waitsRoom h c)) ||
    decide (s.heldCount h > min 8192 (s.get (B.hif h) F.HIF_THROTTLE_THR_PORT))

/-- The record of a command is written at the CQ's next entry, and the command is held no more (R328, R329). -/
def State.writeRecord (s : State) (h : Half) (q : Nat) (c : Cmd) (st det res : Nat) : State :=
  let v := s.cq h q
  let thr := s.throttled h c.sq
  let w := [res % 2 ^ 32, s.get (sqB h c.sq) F.SQ_HEAD + c.sq * 2 ^ 16, c.cid + det % 2 ^ 16 * 2 ^ 16,
    st + (if v.phase0 then 0 else 2 ^ 16) + (if thr then 2 ^ 17 else 0)]
  let a := s.get (cqB h q) F.CQ_BASE_LO + s.get (cqB h q) F.CQ_BASE_HI * 2 ^ 32 + 16 * v.post
  let s := s.hostWrite h a (w.flatMap (leBytes 4))
  let n := (v.post + 1) % max 1 (s.get (cqB h q) F.CQ_DEPTH)
  let s := s.setCq h q { v with post := n, phase0 := if n == 0 then !v.phase0 else v.phase0,
                                uncovered := v.uncovered + 1, waiting := v.waiting.filter (· != c.n) }
  let s := s.hifCount h (if st ≤ 1 then 0 else 1) 1
  let s := if thr then s.hifCount h 2 1 else s
  let s := s.bump48 h (1280 + 2 * c.sq) 1
  let s := if st ≤ 1 && (c.op == opRead || c.op == opWrite) then s.bump48 h (1281 + 2 * c.sq) res else s
  let s := if st == stLost then
      s.setHif h { s.hif h with lostLog := ((s.hif h).lostLog ++ [c.lost]).drop ((s.hif h).lostLog.length - 63) }
    else s
  let bufs := s.buffered.map fun (b : BufWrite) => if b.n == c.n then { b with posted := true } else b
  let s := { s with buffered := bufs }
  ((s.cmdGone h c.n).cqMessage h q).hifShow h

/-- Whether a CQ is full: one more record would reach the last head announced (R329). -/
def State.cqFull (s : State) (h : Half) (q : Nat) : Bool :=
  ((s.cq h q).post + 1) % max 1 (s.get (cqB h q) F.CQ_DEPTH) == (s.cq h q).head

/-- A command that has ended is posted to its CQ, waits for room, or is logged when the CQ is disabled or in ERROR or its
completion is to be dropped (R329, R330, R362). A record that already waits for a CQ stays with it when CQID is written
(R370). -/
def State.postCmd (s : State) (h : Half) (c : Cmd) (st det res : Nat) : State :=
  let q := match (s.hif h).cqs.find? fun e => e.2.waiting.contains c.n with
    | some e => e.1
    | none => s.get (sqB h c.sq) F.SQ_CQID
  if c.dropped then ((s.logLost h c st det res).cmdGone h c.n).hifShow h
  else if !s.portUp h then s
  else if !s.cqOn h q || s.cqErr h q then ((s.logLost h c st det res).cmdGone h c.n).hifShow h
  else if s.cqFull h q || (s.cq h q).waiting.any (· != c.n) then
    if (s.cq h q).waiting.contains c.n then s
    else s.setCq h q { s.cq h q with waiting := (s.cq h q).waiting ++ [c.n] }
  else s.writeRecord h q c st det res

/-- Records that wait for a CQ are posted in order while it has room (R329). -/
def State.cqPump (s : State) (h : Half) (q : Nat) : List Nat → State
  | [] => s
  | n :: rest =>
    if s.cqFull h q then s
    else match s.cmd h n with
      | some c => (match c.result with
        | some (st, det, res) => State.cqPump (s.writeRecord h q c st det res) h q rest
        | none => State.cqPump s h q rest)
      | none => State.cqPump s h q rest

/-- Records due for a CQ that stops go to the lost-completions log with their final status (R330, R370). -/
def State.cqDrop (s : State) (h : Half) (q : Nat) : State :=
  let ns := (s.cq h q).waiting
  let s := s.setCq h q { s.cq h q with waiting := [] }
  (ns.foldl (fun s n => match s.cmd h n with
    | some c => (match c.result with
      | some (st, det, res) => (s.logLost h c st det res).cmdGone h n
      | none => s)
    | none => s) s).hifShow h

/-! ### Ring errors (R322, R366, R510) -/

/-- HIF_RINGERR keeps the first error recorded. -/
def State.ringRecord (s : State) (h : Half) (cq : Bool) (q cause : Nat) : State :=
  let b := B.hif h
  if s.bit b F.HIF_RINGERR_VALID then s
  else ((((s.put b F.HIF_RINGERR_RING q).putB b F.HIF_RINGERR_CQ cq).put b F.HIF_RINGERR_CAUSE cause).flag b
    F.HIF_RINGERR_VALID)

/-- Entries of an SQ accepted and not fetched are never fetched (R510). -/
def State.sqPurge (s : State) (h : Half) (q : Nat) : State :=
  (s.setHif h { s.hif h with entries := (s.hif h).entries.filter (·.sq != q) }).hifShow h

/-- A ring goes to ERROR (R322): recorded, RING_ERR and a Chimney message; an SQ stops fetching, a CQ posting. -/
def State.ringError (s : State) (h : Half) (cq : Bool) (q cause : Nat) : State :=
  let s := if cq then s.flag (cqB h q) F.CQ_ERR else s.flag (sqB h q) F.SQ_ERR
  let s := (s.ringRecord h cq q cause).flag (B.hif h) F.HIF_EVENTS_RING_ERR
  let s := s.chimney h 1 0 27 (q + (if cq then 2 ^ 8 else 0) + cause * 2 ^ 9)
  if cq then s.cqDrop h q else s.sqPurge h q

/-! ### Doorbells (R321 to R323) -/

/-- Entries from an index on, in ring order; those that find 8,192 commands held are in excess. -/
def State.submit (s : State) (h : Half) (q depth : Nat) : Nat → Nat → State
  | 0, _ => s
  | n + 1, idx =>
    let v := s.hif h
    let e : Entry := { n := s.cmdSeq + 1, sq := q, idx := idx, excess := decide (s.heldCount h ≥ 8192),
                       cover := (s.buffered.filter (·.posted)).map (·.n) }
    let s := { s.setHif h { v with entries := v.entries ++ [e] } with cmdSeq := s.cmdSeq + 1 }
    State.submit s h q depth n ((idx + 1) % depth)

/-- Whether a port takes doorbells (R322, R362). -/
def State.takesDoorbells (s : State) (h : Half) : Bool :=
  s.coreUp h && s.bit (B.hif h) F.HIF_CTL_EN && !(s.hif h).stopped

/-- SQ_DOORBELL (R322, R323). -/
def sqDoorbell (h : Half) (q tail : Nat) (s : State) : State :=
  if !s.takesDoorbells h || q ≥ 256 then s
  else if !s.sqOn h q then s.ringRecord h false q 2
  else if s.sqErr h q then s
  else
    let d := s.get (sqB h q) F.SQ_DEPTH
    let old := smGet 0 (s.hif h).tails q
    let tail := tail % 2 ^ 13
    if tail ≥ d then s.ringError h false q 1
    else if tail == old then s
    else
      let adv := (tail + d - old) % d
      let unfetched := ((s.hif h).entries.filter (·.sq == q)).length
      if adv + unfetched > d - 1 then s.ringError h false q 7
      else
        let s := s.setHif h { s.hif h with tails := smPut 0 (s.hif h).tails q tail }
        ((s.submit h q d adv old).demand h 2).hifShow h

def execSqDoorbell (h : Half) (q tail : Nat) (s : State) : Host.Outcome State Fault Refusal := .next (sqDoorbell h q tail s)

/-- CQ_DOORBELL (R322, R329): entries that have been posted are freed, and what waits is posted. -/
def cqDoorbell (h : Half) (q head : Nat) (s : State) : State :=
  if !s.takesDoorbells h || q ≥ 256 then s
  else if !s.cqOn h q then s.ringRecord h true q 2
  else if s.cqErr h q then s
  else
    let d := s.get (cqB h q) F.CQ_DEPTH
    let v := s.cq h q
    let head := head % 2 ^ 13
    if head ≥ d then s.ringError h true q 1
    else if (head + d - v.head) % d > (v.post + d - v.head) % d then s.ringError h true q 5
    else
      let s := s.setCq h q { v with head := head }
      s.cqPump h q v.waiting

def execCqDoorbell (h : Half) (q head : Nat) (s : State) : Host.Outcome State Fault Refusal := .next (cqDoorbell h q head s)

/-! ### Checks at fetch (R325 to R327, R334, R342, R347, R357) -/

/-- Flags that an opcode uses (R326). -/
def opFlags (c : Cmd) : Nat :=
  if c.op == opRead then 0x11 else if c.op == opWrite then 0x0F
  else if c.op == opAdmin && c.payload.isSome then 0x01 else 0

/-- Bits of CDW8 to CDW15 that a command names (R334, R342). -/
def cdwMask (c : Cmd) (i : Nat) : Nat :=
  let all := 0xFFFFFFFF
  if countOp c.op then (if i ≤ 9 then all else 0)
  else if c.op == opClass then (if i == 8 then 1 else 0)
  else if c.op == opEmber then (if i == 8 then 0x1FFF else 0)
  else if c.op == opAdmin then
    match c.subop, i with
    | 1, 9 => all
    | 2, 8 => all | 2, 9 => all | 2, 10 => 1
    | 5, 8 => 0xFF01 | 5, 9 => all | 5, 10 => 1 | 5, 11 => all
    | 7, 8 => all | 7, 9 => all
    | 8, 8 => 1 | 8, 9 => all
    | 9, 9 => all
    | _, _ => 0
  else 0

/-- Whether a command names an HDA (R325). -/
def Cmd.namesHda (c : Cmd) : Bool :=
  c.op == opClass || c.op == opEmber || (c.op == opAdmin && (c.subop == 3 || c.subop == 4))
/-- Whether a command names a namespace. -/
def Cmd.namesNs (c : Cmd) : Bool :=
  c.op ≤ opPrefetch || (c.op == opAdmin && (c.subop == 5 || c.subop == 6))

/-- Unknown opcode or sub-command, or ADMIN off SQ 0 (R334, R342). -/
def Cmd.badOpcode (c : Cmd) : Bool :=
  !([opRead, opWrite, opVerify, opFlush, opTrim, opPin, opUnpin, opPrefetch, opClass, opEmber, opAdmin].contains c.op) ||
    (c.op == opAdmin && (c.sq != 0 || c.subop == 0 || c.subop > 9))

/-- A bad scatter list (R327). -/
def Cmd.badList (c : Cmd) : Bool :=
  c.list.length != c.listLen || c.list.any (fun e =>
    e.1 % 4 != 0 || e.2 / 2 ^ 32 != 0 || e.2 % 2 ^ 32 == 0 || e.2 % 4 != 0) ||
    (c.list.map (·.2)).foldl (· + ·) 0 != c.payload.getD 0

/-- What the descriptor alone shows to be an INVALID_FIELD (R325 to R327, R334, R342); the list is judged when it has been
read. DEDUCED (log 82). -/
def Cmd.badField (c : Cmd) : Bool :=
  c.dw 1 / 2 ^ 24 != 0 || c.dw 4 / 2 ^ 12 != 0 || c.dw 5 / 2 ^ 13 != 0 ||
    (List.range 8).any (fun i => bitsOutside (c.dw (8 + i)) (cdwMask c (8 + i))) ||
    bitsOutside c.flags (opFlags c) ||
    (countOp c.op && (c.nlb != 0 || c.count == 0)) ||
    (c.namesHda && c.hda > 7) ||
    (!c.namesNs && c.nsid != 0) ||
    (c.op == opAdmin && (c.subop == 5 || c.subop == 6) && (c.nsid == 0 || c.nsid > 64)) ||
    (c.op == opAdmin && match c.subop with
      | 1 => c.dw 9 != 4096
      | 2 => c.dw 8 == 0 || c.dw 8 > 3 || c.dw 9 == 0 || c.dw 9 % 4 != 0
      | 5 => if c.dw 8 % 2 == 0 then c.dw 9 == 0 else c.dw 11 / 2 ^ 16 == 0
      | 7 => c.dw 8 != 1 && c.dw 8 != 2
      | 8 => c.dw 9 % 4 != 0 || c.dw 9 < 164 || c.dw 9 > 4194304
      | 9 => c.dw 9 % 4 != 0 || c.dw 9 < 164 || c.dw 9 > 4194304
      | _ => false) ||
    (c.payload.isSome && if c.flags.testBit 0 then c.dptr % 16 != 0 || c.listLen == 0 || c.listLen > 4096
      else c.dptr % 4 != 0)
where
  bitsOutside (w mask : Nat) : Bool := (List.range 32).any fun i => w.testBit i && !mask.testBit i

/-- Whether a port reaches a namespace (R357). -/
def State.nsReach (s : State) (h : Half) (m : Ns) : Bool :=
  s.strapBit 1 || if m.ram then m.half == h else m.units.any fun u => hdaHalf (u / 4) == h

/-- Checks from step 3 on (R347): the first STATUS and DETAIL that apply. -/
def State.checkNs (s : State) (h : Half) (c : Cmd) : Option (Nat × Nat) :=
  if c.op == opAdmin || c.op == opClass || c.op == opEmber then
    if c.namesHda && !s.strapBit 1 && hdaHalf c.hda != h then some (stReach, 0) else none
  else if c.op == opFlush && c.nsid == 0 then none
  else match s.ns h c.nsid with
    | none => some (stNs, 0)
    | some m =>
      if m.ram && (c.op == opVerify || c.op == opPin || c.op == opUnpin || c.op == opPrefetch) then some (stField, 0)
      else if c.op != opFlush && c.lba + c.count > m.cap then some (stRange, 0)
      else
        let secs := if m.ram || c.op == opFlush then [] else m.sectors c.lba c.count
        if secs.any fun x => s.isAttached (x.2.1 / 4) && decide (x.2.2 ≥ s.unitCap x.2.1) then some (stRange, 0)
        else if !s.nsReach h m then some (stReach, 0)
        else if secs.any fun x => !s.isAttached (x.2.1 / 4) then some (stUnavail, 1)
        else none

/-- A WRITE that can never be staged (R354), or whose Reservoir is OFFLINE (R345). -/
def State.checkRoom (s : State) (h : Half) (c : Cmd) : Option (Nat × Nat) :=
  let need := s.roomNeed h c
  if need.any fun x => !s.bufReady (hdaHalf x.1) then some (stOffline, 0)
  else if need.any fun x => x.2 > s.quotaGroups x.1 then some (stSpace, 0)
  else none

/-- Every check of R347 in order. -/
def State.check (s : State) (h : Half) (c : Cmd) : Option (Nat × Nat) :=
  if c.badOpcode then some (stOpcode, 0)
  else if c.badField || (c.payload.isSome && c.flags.testBit 0 && !c.listWait && c.badList) then some (stField, 0)
  else (s.checkNs h c).or (s.checkRoom h c)

/-! ### Overlap (R348, R349) -/

/-- The LBAs that a command names; a TRIM names whole stripe groups (R348). -/
def Cmd.range (c : Cmd) : Nat × Nat :=
  if c.op == opTrim then (c.lba / 60 * 60, (c.lba + c.count + 59) / 60 * 60) else (c.lba, c.lba + c.count)

def Cmd.modifies (c : Cmd) : Bool := c.op == opWrite || c.op == opTrim || c.op == opPin || c.op == opUnpin
def Cmd.ranged (c : Cmd) : Bool := c.op ≤ opPrefetch && c.op != opFlush
def Cmd.nsAdmin (c : Cmd) : Bool := c.op == opAdmin && (c.subop == 5 || c.subop == 6)

/-- Whether a later command overlaps an earlier one (R348). -/
def overlaps (new old : Cmd) : Bool :=
  if new.namesHda || old.namesHda then new.namesHda && old.namesHda && new.hda == old.hda
  else if new.nsAdmin || old.nsAdmin then new.namesNs && old.namesNs && new.nsid == old.nsid
  else if new.op == opFlush then old.buffered && (new.nsid == 0 || new.nsid == old.nsid)
  else
    new.ranged && old.ranged && new.nsid == old.nsid && (new.modifies || old.modifies) &&
      decide (new.range.1 < old.range.2 ∧ old.range.1 < new.range.2)

/-- Held commands with an earlier doorbell that a command overlaps, and behind which it waits (R349). Between a READ or
WRITE of one port and a READ or WRITE of the other, R8 allows either order sector by sector: whether the later one waits is a
free value (log 90). -/
def State.behindOf (s : State) (h : Half) (c : Cmd) : List Nat :=
  let waits := fun (o : Cmd) => decide (o.n < c.n) && overlaps c o && !(o.result.isSome && o.dropped)
  let data := fun (x : Cmd) => x.op == opRead || x.op == opWrite
  ((s.hif h).held.filter waits ++ (s.hif h.other).held.filter fun o =>
    waits o && (!(data c && data o) || Config.crossPort c.n o.n)).map (·.n)

/-! ### Fetch (R324, R510) -/

/-- DESCRIPTOR_FETCH (R324, R327, R347, R349): the oldest accepted entry is fetched with its scatter list, checked, and
held. `words` is empty when host memory answers the ring's read with an error, which puts the SQ in ERROR with cause 6;
`list` is empty while a list has not been read. -/
def descriptorFetch (h : Half) (words : List Nat) (list : List (Nat × Nat)) (s : State) : State :=
  let v := s.hif h
  match v.entries with
  | [] => s
  | e :: rest =>
    if v.stopped || !s.coreUp h || !s.sqOn h e.sq || s.sqErr h e.sq then s
    else if words.length != 16 then s.ringError h false e.sq 6
    else
      let s := s.setHif h { v with entries := rest }
      let s := s.put (sqB h e.sq) F.SQ_HEAD ((e.idx + 1) % max 1 (s.get (sqB h e.sq) F.SQ_DEPTH))
      let c : Cmd := { (default : Cmd) with n := e.n, sq := e.sq, words := words, list := list, cover := e.cover }
      let c := { c with listWait := c.payload.isSome && c.flags.testBit 0 && list.isEmpty }
      let c := { c with behind := s.behindOf h c }
      let c := { c with wasBehind := !c.behind.isEmpty }
      let bad := if e.excess then some (stOver, 0) else s.check h c
      let s := s.setHif h { s.hif h with held := (s.hif h).held ++ [c] }
      let s := if e.excess then (s.flag (B.hif h) F.HIF_EVENTS_OVERCOMMIT).hifCount h 5 1 else s
      let s := match bad with
        | some (st, det) => s.cmdFail h c.n st det
        | none => s
      s.hifShow h

def execDescriptorFetch (h : Half) (words : List Nat) (list : List (Nat × Nat)) (s : State) :
    Host.Outcome State Fault Refusal := .next (descriptorFetch h words list s)

/-! ### Ring tables (R369, R370) -/

/-- SQ_ENABLE: EN is set; head and tail to 0. -/
def State.sqEnable (s : State) (h : Half) (q : Nat) : State :=
  if q ≥ 256 || !s.coreUp h || s.sqOn h q then s
  else
    let s := (s.flag (sqB h q) F.SQ_EN).put (sqB h q) F.SQ_HEAD 0
    let s := s.setHif h { s.hif h with tails := smPut 0 (s.hif h).tails q 0 }
    if ringDepthOk (s.get (sqB h q) F.SQ_DEPTH) && s.cqOn h (s.get (sqB h q) F.SQ_CQID) then s
    else s.ringError h false q 3

def execSqEnable (h : Half) (q : Nat) (s : State) : Host.Outcome State Fault Refusal := .next (s.sqEnable h q)

/-- CQ_ENABLE: posting begins at entry 0 with PHASE 1 (R329). DEDUCED (log 81). -/
def State.cqEnable (s : State) (h : Half) (q : Nat) : State :=
  if q ≥ 256 || !s.coreUp h || s.cqOn h q then s
  else
    let s := (s.flag (cqB h q) F.CQ_EN).setCq h q Cq.reset
    if ringDepthOk (s.get (cqB h q) F.CQ_DEPTH) then s else s.ringError h true q 3

def execCqEnable (h : Half) (q : Nat) (s : State) : Host.Outcome State Fault Refusal := .next (s.cqEnable h q)

/-- RING_DISABLE: EN is cleared, which clears ERR. An SQ stops fetching and its held commands run on; a CQ stops posting. -/
def State.ringDisable (s : State) (h : Half) (cq : Bool) (q : Nat) : State :=
  if q ≥ 256 || !s.coreUp h then s
  else if cq then
    if !s.cqOn h q then s else ((s.put (cqB h q) F.CQ_EN 0).put (cqB h q) F.CQ_ERR 0).cqDrop h q
  else if !s.sqOn h q then s else ((s.put (sqB h q) F.SQ_EN 0).put (sqB h q) F.SQ_ERR 0).sqPurge h q

def execRingDisable (h : Half) (cq : Bool) (q : Nat) (s : State) : Host.Outcome State Fault Refusal :=
  .next (s.ringDisable h cq q)

/-- RING_CHANGED (R52, R370): BASE (word 0 or 1) or DEPTH (word 2) is written; an enabled ring goes to ERROR with cause 4, the
commands of an SQ that have not started end ABORTED_CONFIG, and CFG_CHANGED is set while the port is busy. -/
def State.ringChanged (s : State) (h : Half) (cq : Bool) (q w : Nat) (v : Word) : State :=
  if q ≥ 256 || w ≥ 3 || !s.coreUp h then s
  else
    let b := sqB h q
    let on := if cq then s.cqOn h q else s.sqOn h q
    let s := if w == 0 then s.put b (if cq then F.CQ_BASE_LO else F.SQ_BASE_LO) (v &&& 0xFFFFFFC0).toNat
      else if w == 1 then s.put b (if cq then F.CQ_BASE_HI else F.SQ_BASE_HI) v.toNat
      else s.put b (if cq then F.CQ_DEPTH else F.SQ_DEPTH) (v.toNat % 2 ^ 13)
    if !on then s
    else
      let s := if cq then s
        else (s.hif h).held.foldl (fun s c =>
          if c.sq == q && !c.started && c.result.isNone then s.cmdFail h c.n stConfig 9 else s) s
      let s := if s.bit (B.hif h) F.HIF_STAT_BUSY then s.flag (B.hif h) F.HIF_EVENTS_CFG_CHANGED else s
      (s.ringError h cq q 4).hifShow h

def execRingChanged (h : Half) (cq : Bool) (q w : Nat) (v : Word) (s : State) : Host.Outcome State Fault Refusal :=
  .next (s.ringChanged h cq q w v)

/-- LOST_LOG_CLEAR (R363, R366): the log is empty, COUNT and OVF are 0. -/
def State.lostClear (s : State) (h : Half) : State :=
  if !s.coreUp h then s
  else
    let s := s.clearRange (B.hif h + 0x5000) (B.hif h + 0x6000)
    (s.put (B.hif h) F.HIF_LOSTCNT_COUNT 0).put (B.hif h) F.HIF_LOSTCNT_OVF 0

def execLostLogClear (h : Half) (s : State) : Host.Outcome State Fault Refusal := .next (s.lostClear h)

/-- INTERRUPT_AGG_TIMEOUT (R330, R370): `us` microseconds have passed since the first record that no message covers; at
AGG_US of them, 0 acting as 1, the message is sent. -/
def interruptAggTimeout (h : Half) (q us : Nat) (s : State) : State :=
  let v := s.cq h q
  if v.uncovered == 0 || !s.cqOn h q || !s.bit (cqB h q) F.CQ_IEN || us < min1 (s.get (cqB h q) F.CQ_AGG_US) then s
  else (s.setCq h q { v with uncovered := 0 }).msix h (s.get (cqB h q) F.CQ_VECTOR)

def execInterruptAggTimeout (h : Half) (q us : Nat) (s : State) : Host.Outcome State Fault Refusal :=
  .next (interruptAggTimeout h q us s)

/-- LATE_CPL (R360, R385): a completion arrives for a request already timed out, of a command or of Service DMA. -/
def lateCpl (h : Half) (dma : Bool) (s : State) : State :=
  if !s.coreUp h then s
  else if dma then (s.flag (B.sdm h) F.SDM_EVENTS_LATE_CPL).count (B.sdm h) F.SDM_CNT_LATE_COUNT h 563 1
  else (s.flag (B.hif h) F.HIF_EVENTS_LATE_CPL).hifCount h 4 1

def execLateCpl (h : Half) (dma : Bool) (s : State) : Host.Outcome State Fault Refusal := .next (lateCpl h dma s)

end Sys2Proof.Machine
end

