-- ==== Sys2Proof/Machine/HostCmd.lean ====
section
/-! DEFINITION. The commands of the host ports (R334 to R341, R349 to R362): start, media operations, staging, transfer,
completion, and what a lost host, a lost half link or a stalled host read does to them. -/

namespace Sys2Proof.Machine

/-! ### Formatter operations on behalf of commands -/

/-- STATUS and DETAIL of a formatter operation's end (R158, R345, R346). -/
def State.opStatus (s : State) (ai : Nat) : OpStatus → Nat × Nat
  | .ok => (stOk, 0)
  | .stripeLost => (stLost, 0)
  | .writeFault => (stWrite, 0)
  | .harnessFrame => (stHda, 1)
  | .preampFault => (stHda, 2)
  | .seekFail => (stHda, 3)
  | .wickFault => (stHda, 4)
  | .timeout => (stHda, 5)
  | .bandReach => (stHda, 6)
  | .bandRetired => (stHda, 7)
  | .rateRange => (stUnavail, 4)
  | .notOwned => if s.portState (actHda ai) == 4 then (stUnavail, 2) else (stHda, 8)
  | .aborted => if s.portState (actHda ai) == 4 then (stUnavail, 5) else (stHda, 8)
  | .formatOff => (stConfig, 1)
  | .formatTables => (stConfig, 2)
  | .channelOff => (stConfig, 3)
  | .channelCfg => (stConfig, 4)
  | .servoOff => (stConfig, 5)
  | .spindleOff => (stConfig, 6)
  | .wickOff => (stConfig, 7)
  | .harnessOff => (stConfig, 8)

/-- Why media operations on an actuator cannot run for a port (R346, R358): the half down, the HDA not attached, not owned,
its spindle failed, its heads not loaded. -/
def State.mediaBar (s : State) (h : Half) (ai : Nat) : Option (Nat × Nat) :=
  let hd := actHda ai
  let st := s.srvState ai
  if hdaHalf hd != h && !s.peerUp h then some (stUnavail, 6)
  else if s.portState hd != 4 then some (stUnavail, 1)
  else if !s.ownLine hd then some (stUnavail, 2)
  else if s.spnState hd == spFailed then some (stUnavail, 3)
  else if !(st == svFollow || st == svSeek || st == svSettle) then some (stUnavail, 5)
  else none

/-- A stripe group as actuator, group, band and stripe group. -/
abbrev Stripe := Nat × Nat × Nat × Nat

/-- The stripe group of a sector of a unit (R136). -/
def State.stripeAt (s : State) (u msa : Nat) : Option Stripe :=
  let ai := unitAct u
  (msaBand (s.batRd ai) (s.defRd ai) (unitGroup u) msa).map fun (b, k, _) => (ai, unitGroup u, b, k)

def State.stripesAt (s : State) (l : List (Nat × Nat × Nat)) : List Stripe :=
  (l.filterMap fun x => s.stripeAt x.2.1 x.2.2).eraseDups

/-- Runs of consecutive stripe groups of one band: the first of each and their number. -/
def stripeRuns : List Stripe → List (Stripe × Nat)
  | [] => []
  | x :: rest =>
    match stripeRuns rest with
    | (y, n) :: t =>
      if y.1 == x.1 && y.2.1 == x.2.1 && y.2.2.1 == x.2.2.1 && y.2.2.2 == x.2.2.2 + 1 then (x, n + 1) :: t
      else (x, 1) :: (y, n) :: t
    | [] => [(x, 1)]

/-- Requests of a kind for stripe groups, at the end of their formatters' queues; the answer is their number. -/
def State.pushReqs (s : State) (kind n : Nat) (verify : Bool) (gs : List Stripe) : State × Nat :=
  let runs := stripeRuns gs
  (runs.foldl (fun s (x, k) =>
    let f := s.fmt x.1
    let s := s.setFmt x.1 { f with queue := f.queue ++ [⟨kind, n, x.2.1, x.2.2.1, x.2.2.2, k, verify, false, 0, 0⟩] }
    (s.demand (actHalf x.1) (14 + x.1 % 8)).demand (actHalf x.1) (22 + actHda x.1 % 4)) s, runs.length)

/-- Media operations queued for an HDA, of which the module keeps at most 256 (R352). -/
def State.mediaQueued (s : State) (hd : Nat) : Nat :=
  (s.fmt (2 * hd)).queue.length + (s.fmt (2 * hd + 1)).queue.length

/-- The stripe groups, run by run, for which their HDAs' queues have room (R352). DEDUCED (log 175). -/
def State.fitting (s : State) (gs : List Stripe) : List Stripe :=
  ((stripeRuns gs).foldl (fun (acc : List (Stripe × Nat)) x =>
    if s.mediaQueued (actHda x.1.1) + (acc.filter fun y => actHda y.1.1 == actHda x.1.1).length < 256 then acc ++ [x]
    else acc) []).flatMap fun (x, k) => (List.range k).map fun i => (x.1, x.2.1, x.2.2.1, x.2.2.2 + i)

/-- Whether STAGING data of a stripe group is still needed by its formatter (R156). -/
def State.stripeBusy (s : State) (x : Stripe) : Bool := s.stripeHeld x.1 x.2.2.1 x.2.1 x.2.2.2

/-- The keys of lost stripe positions of an operation. -/
def State.lostKeys (s : State) (d : OpDone) : List Nat :=
  d.lost.map fun x => sectorKey (unitOf d.act d.group) (s.stripeMsa d.act d.band d.group (x / 64) (x % 64))

/-- Whether a buffered write has media work queued or to be queued. -/
def BufWrite.pending (b : BufWrite) : Bool := b.left != 0 || !b.todo.isEmpty

/-- Media writes of buffered writes are queued in their order, as far as the queues of their HDAs have room (R352, R356). -/
def State.bufferedPump (s : State) : State :=
  (s.buffered.filter fun b => !b.todo.isEmpty).foldl (fun s b =>
    let fit := s.fitting b.todo
    let (s, k) := s.pushReqs 1 b.n b.verify fit
    let upd := s.buffered.map fun (x : BufWrite) =>
      if x.n == b.n then { x with left := x.left + k, todo := x.todo.filter fun g => !fit.contains g } else x
    { s with buffered := upd }) s

/-- The end of one formatter operation at the buffered write it served (R356): WRITE_FAULT is kept until a retry succeeds;
another failure asks for the write again. A write that ends well lets the faulted writes of its actuator try again.
DEDUCED (log 86). -/
def State.bufferedEnd (s : State) (d : OpDone) : State :=
  let retry := d.status != .ok && d.status != .writeFault
  let mine := fun (b : BufWrite) => b.n == d.cmd
  let set := s.buffered.map fun (b : BufWrite) =>
    if mine b then
      { b with left := b.left - bitNat d.counted, fault := if d.status == .writeFault then true else b.fault }
    else b
  let s := { s with buffered := set }
  let again := fun (s : State) (b : BufWrite) =>
    let gs := b.groups.filter fun g => g.1 == d.act && (mine b == false || (g.2.1 == d.group && g.2.2.1 == d.band))
    let upd := s.buffered.map fun (x : BufWrite) =>
      if x.n == b.n then { x with todo := (x.todo ++ gs).eraseDups, fault := false } else x
    { s with buffered := upd }
  if retry then (s.buffered.filter mine).foldl again s
  else if d.kind == 1 && d.status == .ok then
    (s.buffered.filter fun b => b.fault && b.pending == false && !mine b && b.groups.any (·.1 == d.act)).foldl again s
  else s

/-- The end of one formatter operation at the command it served; WRITE_FAULT of a rewrite made for it ends it too (R153). -/
def State.opTake (s : State) (d : OpDone) : State :=
  let one := fun (s : State) (h : Half) =>
    match s.cmd h d.cmd with
    | none => s
    | some c =>
      let (st, det) := s.opStatus d.act d.status
      let fail := if st == stOk || st == stLost then c.fail else c.fail.or (some (st, det))
      s.setCmd h { c with left := c.left - bitNat d.counted, lost := c.lost ++ s.lostKeys d, fail := fail }
  if s.buffered.any (·.n == d.cmd) then s.bufferedEnd d else one (one s .a) .b

/-- Formatter operations that have ended are taken by their commands; buffered writes whose stripe groups are on media leave
STAGING (R158, R354, R356). -/
def State.hostSettle (s : State) : State :=
  let l := s.opDone
  let s := (l.foldl State.opTake { s with opDone := [] }).bufferedPump
  { s with buffered := s.buffered.filter fun b => b.pending || b.fault || !b.posted || b.groups.any s.stripeBusy }

/-- Requests of a command that wait on an actuator which cannot run them any more are withdrawn (R346). -/
def State.withdrawReqs (s : State) (h : Half) (n : Nat) : State :=
  (List.range 16).foldl (fun s ai =>
    let f := s.fmt ai
    let mine := f.queue.filter (·.cmd == n)
    match mine, s.mediaBar h ai with
    | _ :: _, some bar =>
      let s := s.setFmt ai { f with queue := f.queue.filter (·.cmd != n) }
      match s.cmd h n with
      | some c => s.setCmd h { c with left := c.left - mine.length, fail := c.fail.or (some bar) }
      | none => s
    | _, _ => s) s

/-! ### Residency (R335, R336, R355) -/

/-- The newest source of a sector of a media unit in the buffer, or zeros of the trim map (R335). -/
def State.resident (s : State) (u msa : Nat) : Option Sector :=
  let k := sectorKey u msa
  match smFind s.staging k with
  | some d => some d
  | none => match smFind s.pinned k with
    | some d => some d
    | none => match smFind s.segment k with
      | some d => some d
      | none => if smGet false s.trims (stripeKey u msa) then some 0 else none

/-- SEGMENT room of a half in stripe groups (R355). DEDUCED (log 84). -/
def State.segRoom (s : State) (h : Half) : Nat := (s.bufPart h 1).2 * 16384 / 60

/-- Stripe groups used by a command become the most recently used, and what exceeds SEGMENT leaves it, least recently used
first (R355). -/
def State.segUse (s : State) (ks : List Nat) : State :=
  let inSeg := fun (k : Nat) => (List.range 60).any fun i => (smFind s.segment (k / 2 ^ 40 * 2 ^ 40 + k % 2 ^ 40 * 60 + i)).isSome
  let lru := ((s.segLru.filter fun k => !ks.contains k) ++ ks).filter inSeg
  let over_ := fun (h : Half) =>
    let mine := lru.filter fun k => hdaHalf (k / 2 ^ 40 / 4) == h
    mine.take (mine.length - s.segRoom h)
  let gone := over_ .a ++ over_ .b
  let seg := gone.foldl (fun m k => smClear m (k / 2 ^ 40 * 2 ^ 40 + k % 2 ^ 40 * 60) (k / 2 ^ 40 * 2 ^ 40 + k % 2 ^ 40 * 60 + 60))
    s.segment
  { s with segment := seg, segLru := lru.filter fun k => !gone.contains k }

/-- Sectors that leave SEGMENT. -/
def State.segDrop (s : State) (keys : List Nat) : State :=
  { s with segment := keys.foldl (fun m k => smErase m k) s.segment }

/-- The 4,096 bytes of a sector. -/
def sectorBytes (d : Sector) : List Byte := (List.range 4096).map fun i => d.extractLsb' (8 * i) 8
/-- The sector made of 4,096 bytes. -/
def sectorFrom (bs : List Byte) : Sector := BitVec.ofNat 32768 (bytesLE (bs.take 4096))

/-- A sector's bytes with every byte of some of its 64-byte words set to 0xFF (R267). -/
def failWords (bs : List Byte) (ws : List Nat) : List Byte :=
  (bs.zipIdx).map fun (b, i) => if ws.contains (i / 64) then 0xFF else b

/-- Words of a sector that meet a UE, from a list of (sector index, word). -/
def wordsOf (ues : List (Nat × Nat)) (i : Nat) : List Nat := (ues.filter (·.1 == i)).map (·.2)

/-- Keys of sectors. -/
def keysOf (l : List (Nat × Nat × Nat)) : List Nat := l.map fun x => sectorKey x.2.1 x.2.2

/-! ### Start (R349, R352 to R355) -/

/-- Halves that a command needs: of the HDA, the units or the RAM range that it names (R358). -/
def State.needsHalf (s : State) (h : Half) (c : Cmd) (x : Half) : Bool :=
  if c.namesHda then hdaHalf c.hda == x
  else if c.op == opAdmin || c.op == opFlush then false
  else match s.ns h c.nsid with
    | none => false
    | some m => if m.ram then m.half == x
      else (m.sectors c.lba c.count).any fun e => hdaHalf (e.2.1 / 4) == x

/-- Whether a HDA_DETACH that is under way has a later doorbell than a command, which it then waits for (R343). -/
def State.detachAwaits (s : State) (c : Cmd) (hd : Nat) : Bool :=
  [Half.a, Half.b].any fun x => (s.hif x).held.any fun d =>
    d.op == opAdmin && d.subop == 4 && d.hda == hd && d.phase != 0 && d.result.isNone && decide (c.n < d.n)

/-- Whether a command names sectors of an HDA that is detached, or that a HDA_DETACH of an earlier doorbell is detaching (R343). -/
def State.detached (s : State) (h : Half) (c : Cmd) : Bool :=
  c.ranged && match s.ns h c.nsid with
    | none => false
    | some m => !m.ram && (m.sectors c.lba c.count).any fun x =>
        !s.isAttached (x.2.1 / 4) && !s.detachAwaits c (x.2.1 / 4)

/-- What refuses a command as it starts (R343, R347, R349, R358, R345). -/
def State.startBar (s : State) (h : Half) (c : Cmd) : Option (Nat × Nat) :=
  let again := if c.wasBehind then s.checkNs h c else none
  if again.isSome then again
  else if s.detached h c then some (stUnavail, 1)
  else if s.needsHalf h c h.other && !s.peerUp h then some (stUnavail, 6)
  else if c.ranged && [Half.a, Half.b].any fun x => s.needsHalf h c x && !s.bufReady x then some (stOffline, 0)
  else none

/-- COMMAND_START (R349, R352 to R354): the first held command that no earlier command, credit or admission holds back. -/
def commandStart (h : Half) (s : State) : State :=
  let s := s.hostSettle
  let can := fun (c : Cmd) => !c.started && c.result.isNone && !c.listWait && c.behind.isEmpty &&
    decide (s.startedOf h c.sq < s.credits h c.sq) && s.admitted h c
  if !s.coreUp h then s
  else match (s.hif h).held.find? can with
    | none => s.hifShow h
    | some c =>
      match s.startBar h c with
      | some (st, det) => (s.cmdFail h c.n st det).hifShow h
      | none =>
        let s := s.setCmd h { c with started := true, room := s.roomNeed h c }
        (if s.needsHalf h c h.other then s.hifCount h 7 1 else s).hifShow h

def execCommandStart (h : Half) (s : State) : Host.Outcome State Fault Refusal := .next (commandStart h s)

/-- A command of an opcode that is started and has not ended. -/
def State.running (s : State) (h : Half) (n op : Nat) : Option Cmd :=
  match s.cmd h n with
  | some c => if c.started && c.result.isNone && c.op == op && s.coreUp h then some c else none
  | none => none

/-- Media operations of a command over stripe groups: queued when every actuator can run them and the queues of their HDAs
have room for all (R352), else the command ends with what bars it, or waits. -/
def State.issue (s : State) (h : Half) (c : Cmd) (kind : Nat) (verify : Bool) (gs : List Stripe) : State :=
  match gs.findSome? fun g => s.mediaBar h g.1 with
  | some (st, det) => s.cmdFail h c.n st det
  | none =>
    if s.fitting gs != gs then s
    else
    let (s, k) := s.pushReqs kind c.n verify gs
    match s.cmd h c.n with
    | some c => s.setCmd h { c with issued := true, left := c.left + k }
    | none => s

/-- The end of a command whose sectors, by index, were lost or met a UE (R345): the lowest affected sector decides.
DEDUCED (log 89). -/
def State.endSectors (s : State) (h : Half) (c : Cmd) (lost ue : List Nat) (n : Nat) : State :=
  let bad := (lost ++ ue).eraseDups
  if bad.isEmpty then s.cmdEnd h c.n stOk 0 n
  else
    let i := bad.foldl min (bad.headD 0)
    s.cmdEnd h c.n (if ue.contains i then stData else stLost) (min i 0xFFFF) bad.length

/-! ### READ, PREFETCH, VERIFY, PIN, UNPIN -/

/-- Half address of an LBA of a RAM namespace (R332). -/
def Ns.ramHa (m : Ns) (lba : Nat) : Nat := m.base * 2 ^ 26 + 4096 * lba

/-- A READ of a RAM namespace (R335): words that are poisoned or that the codes cannot correct are 0xFF. -/
def State.readRam (s : State) (h : Half) (c : Cmd) (m : Ns) (ues : List (Nat × Nat)) : State :=
  let rows := (List.range c.count).map fun i =>
    let ha := m.ramHa (c.lba + i)
    let bad := ((List.range 64).filter fun w => s.poisoned m.half (ha / 4096) w) ++ wordsOf ues i
    (i, failWords ((List.range 4096).map fun j => s.bufByte (bufBa m.half (ha + j))) bad, !bad.isEmpty)
  let s := s.payloadWrite h c.segments (rows.flatMap (·.2.1))
  s.endSectors h c [] ((rows.filter (·.2.2)).map (·.1)) c.count

/-- The media sectors of a command that no source of the buffer holds and that are not lost. -/
def State.missing (s : State) (c : Cmd) (secs : List (Nat × Nat × Nat)) : List (Nat × Nat × Nat) :=
  secs.filter fun x => (s.resident x.2.1 x.2.2).isNone && !c.lost.contains (sectorKey x.2.1 x.2.2)

/-- Loading a range from media into SEGMENT (R335, R340): missing sectors are read by whole stripe groups, as many as the
queues of their HDAs take at a time (R352); the answer is whether all that can be had is there. `brought` keeps every sector
that these reads bring into SEGMENT. -/
def State.load (s : State) (h : Half) (c : Cmd) (secs : List (Nat × Nat × Nat)) : State × Bool :=
  match c.fail with
  | some (st, det) => if c.left == 0 then (s.cmdFail h c.n st det, false) else (s, false)
  | none =>
    let miss := s.missing c secs
    if c.left != 0 then (s, false)
    else if miss.isEmpty then (s, true)
    else
      let gs := s.stripesAt miss
      let fit := s.fitting gs
      let new := (stripesOf (miss.filter fun x => match s.stripeAt x.2.1 x.2.2 with
        | some g => fit.contains g
        | none => false)).flatMap fun k => (List.range 60).map fun i => k / 2 ^ 40 * 2 ^ 40 + k % 2 ^ 40 * 60 + i
      let c' := { c with brought := (c.brought ++ new.filter fun k => (smFind s.segment k).isNone).eraseDups }
      if fit.isEmpty then (s, false) else ((s.setCmd h c').issue h c' 0 false fit, false)

/-- Indices of the lost sectors of a command. -/
def Cmd.lostIdx (c : Cmd) (secs : List (Nat × Nat × Nat)) : List Nat :=
  (secs.filter fun x => c.lost.contains (sectorKey x.2.1 x.2.2)).map (·.1)

/-- READ (R335): from the newest source of each sector; `ues` are words that meet a UE as the payload is read from the
buffer. -/
def read (h : Half) (n : Nat) (ues : List (Nat × Nat)) (s : State) : State :=
  let s := (s.hostSettle).withdrawReqs h n
  match s.running h n opRead with
  | none => s
  | some c => match s.ns h c.nsid with
    | none => (s.cmdFail h n stNs 0).hifShow h
    | some m =>
      if m.ram then (s.readRam h c m ues).hifShow h
      else
        let secs := m.sectors c.lba c.count
        let (s, done) := s.load h c secs
        if !done then s.hifShow h
        else
          let lost := c.lostIdx secs
          let bytes := secs.flatMap fun x =>
            if lost.contains x.1 then List.replicate 4096 0xFF
            else failWords (sectorBytes ((s.resident x.2.1 x.2.2).getD 0)) (wordsOf ues x.1)
          let s := s.payloadWrite h c.segments bytes
          let s := if c.flags.testBit 4 then s.segDrop c.brought else s
          let s := s.segUse (stripesOf secs)
          (s.endSectors h c lost ((secs.filter fun x => !(wordsOf ues x.1).isEmpty).map (·.1)) c.count).hifShow h

def execRead (h : Half) (n : Nat) (ues : List (Nat × Nat)) (s : State) : Host.Outcome State Fault Refusal :=
  .next (read h n ues s)

/-- PREFETCH (R340): the range is loaded into SEGMENT. DEDUCED (log 88). -/
def prefetch (h : Half) (n : Nat) (s : State) : State :=
  let s := (s.hostSettle).withdrawReqs h n
  match s.running h n opPrefetch with
  | none => s
  | some c => match s.ns h c.nsid with
    | none => (s.cmdFail h n stNs 0).hifShow h
    | some m =>
      let secs := m.sectors c.lba c.count
      let (s, done) := s.load h c secs
      if !done then s.hifShow h
      else
        let lost := c.lostIdx secs
        ((s.segUse (stripesOf secs)).endSectors h c lost [] ((secs.filter fun x => c.brought.contains (sectorKey x.2.1 x.2.2)).length - lost.length)).hifShow h

def execPrefetch (h : Half) (n : Nat) (s : State) : Host.Outcome State Fault Refusal := .next (prefetch h n s)

/-- VERIFY (R337): its sectors are read from media; trimmed stripe groups have none to read (R339). DEDUCED (log 87). -/
def verify (h : Half) (n : Nat) (s : State) : State :=
  let s := (s.hostSettle).withdrawReqs h n
  match s.running h n opVerify with
  | none => s
  | some c => match s.ns h c.nsid with
    | none => (s.cmdFail h n stNs 0).hifShow h
    | some m =>
      let secs := (m.sectors c.lba c.count).filter fun x => !smGet false s.trims (stripeKey x.2.1 x.2.2)
      if !c.issued && !secs.isEmpty then (s.issue h c 2 false (s.stripesAt secs)).hifShow h
      else if c.left != 0 then s
      else match c.fail with
        | some (st, det) => (s.cmdFail h n st det).hifShow h
        | none => (s.endSectors h c (c.lostIdx secs) [] c.count).hifShow h

def execVerify (h : Half) (n : Nat) (s : State) : Host.Outcome State Fault Refusal := .next (verify h n s)

/-- Sectors of PINNED that a half has left beside its RAM namespaces and what is pinned (R340, R355). -/
def State.pinRoom (s : State) (h : Half) : Nat :=
  let ram := (List.range 64).foldl (fun a i => match s.ns h (i + 1) with
    | some m => if m.ram && m.half == h then a + m.size else a
    | none => a) 0
  let used := (s.pinned.filter fun (e : Nat × Sector) => hdaHalf (e.1 / 2 ^ 40 / 4) == h).length
  ((s.bufPart h 0).2 - ram) * 16384 - used

/-- PIN (R340): all or nothing. -/
def pin (h : Half) (n : Nat) (s : State) : State :=
  let s := (s.hostSettle).withdrawReqs h n
  match s.running h n opPin with
  | none => s
  | some c => match s.ns h c.nsid with
    | none => (s.cmdFail h n stNs 0).hifShow h
    | some m =>
      let secs := m.sectors c.lba c.count
      let new := secs.filter fun x => (smFind s.pinned (sectorKey x.2.1 x.2.2)).isNone
      let short := fun (x : Half) => (new.filter fun e => hdaHalf (e.2.1 / 4) == x).length > s.pinRoom x
      if short .a || short .b then (s.cmdFail h n stSpace 0).hifShow h
      else
        let (s, done) := s.load h c secs
        if !done then s.hifShow h
        else
          let lost := c.lostIdx secs
          if !lost.isEmpty then ((s.segDrop c.brought).endSectors h c lost [] 0).hifShow h
          else
            let p := new.foldl (fun p x => smInsert p (sectorKey x.2.1 x.2.2) ((s.resident x.2.1 x.2.2).getD 0)) s.pinned
            let s := { s with pinned := p }
            ((s.segDrop c.brought).cmdEnd h n stOk 0 new.length).hifShow h

def execPin (h : Half) (n : Nat) (s : State) : Host.Outcome State Fault Refusal := .next (pin h n s)

/-- UNPIN (R340). -/
def unpin (h : Half) (n : Nat) (s : State) : State :=
  match s.running h n opUnpin with
  | none => s
  | some c => match s.ns h c.nsid with
    | none => (s.cmdFail h n stNs 0).hifShow h
    | some m =>
      let keys := (keysOf (m.sectors c.lba c.count)).filter fun k => (smFind s.pinned k).isSome
      let s := { s with pinned := keys.foldl (fun p k => smErase p k) s.pinned }
      (s.cmdEnd h n stOk 0 keys.length).hifShow h

def execUnpin (h : Half) (n : Nat) (s : State) : Host.Outcome State Fault Refusal := .next (unpin h n s)

/-! ### WRITE, TRIM, FLUSH -/

/-- A sector staged. A write to a trimmed stripe group clears its bit, and its other sectors are staged as zeros (R339). -/
def State.stage (s : State) (u msa : Nat) (d : Sector) : State :=
  let k := stripeKey u msa
  let s := if smGet false s.trims k then
      let base := sectorKey u (msa / 60 * 60)
      { s with trims := smPut false s.trims k false,
               staging := (List.range 60).foldl (fun m i =>
                 if (smFind m (base + i)).isSome then m else smInsert m (base + i) 0) s.staging }
    else s
  { s with staging := smInsert s.staging (sectorKey u msa) d }

/-- A sector's data within a payload. -/
def payloadSector (data : List Byte) (i : Nat) : Sector := sectorFrom ((data.drop (4096 * i)).take 4096)

/-- WRITE_STAGED (R336, R356): the whole payload has come. A RAM namespace has its data; a buffered write completes and
its media write is queued. `ue` is a sector whose staged data meets a UE before any write pass (R267). -/
def writeStaged (h : Half) (n : Nat) (data : List Byte) (ue : Option Nat) (s : State) : State :=
  let s := s.hostSettle
  match s.running h n opWrite with
  | none => s
  | some c =>
    if c.staged || data.length != 4096 * c.count then s
    else match s.ns h c.nsid with
      | none => (s.cmdFail h n stNs 0).hifShow h
      | some m =>
        if m.ram then
          let s := (List.range c.count).foldl (fun s i =>
            s.sdmStore (bufBa m.half (m.ramHa (c.lba + i))) ((data.drop (4096 * i)).take 4096)) s
          (s.cmdEnd h n stOk 0 c.count).hifShow h
        else match ue with
          | some i => (s.endSectors h c [] [i] 0).hifShow h
          | none =>
            let secs := m.sectors c.lba c.count
            let s := secs.foldl (fun s x => s.stage x.2.1 x.2.2 (payloadSector data x.1)) s
            if !c.buffered then (s.setCmd h { c with staged := true, stripes := s.stripesAt secs }).hifShow h
            else
              let gs := s.stripesAt secs
              let b : BufWrite := ⟨n, h, c.nsid, gs, 0, false, false, c.flags.testBit 2, c.room, gs⟩
              let s := { s with buffered := s.buffered ++ [b] }.bufferedPump
              ((s.setCmd h { c with staged := true, room := [] }).cmdEnd h n stOk 0 c.count).hifShow h

def execWriteStaged (h : Half) (n : Nat) (data : List Byte) (ue : Option Nat) (s : State) :
    Host.Outcome State Fault Refusal := .next (writeStaged h n data ue s)

/-- A command that writes media completes once its operations have ended well and nothing of its stripe groups waits in a
rewrite queue (R156, R336). DEDUCED (log 85). -/
def State.writeEnd (s : State) (h : Half) (c : Cmd) (gs : List Stripe) (res : Nat) : State :=
  if c.left != 0 then s
  else match c.fail with
    | some (st, det) => s.cmdFail h c.n st det
    | none =>
      if !c.lost.isEmpty then s.cmdFail h c.n stLost 0
      else if gs.any s.stripeBusy then s else s.cmdEnd h c.n stOk 0 res

/-- WRITE (R336): a write-through write that is staged has its stripe groups written, and completes when they are on
media. -/
def write (h : Half) (n : Nat) (s : State) : State :=
  let s := (s.hostSettle).withdrawReqs h n
  match s.running h n opWrite with
  | none => s
  | some c =>
    if !c.staged then s
    else match s.ns h c.nsid with
      | none => (s.cmdFail h n stNs 0).hifShow h
      | some m =>
        let secs := m.sectors c.lba c.count
        let gs := s.stripesAt secs
        if !c.issued then (s.issue h c 1 (c.flags.testBit 2) gs).hifShow h
        else (s.writeEnd h c gs c.count).hifShow h

def execWrite (h : Half) (n : Nat) (s : State) : Host.Outcome State Fault Refusal := .next (write h n s)

/-- A stripe group that a TRIM discards leaves the requests that would write it (R339). -/
def State.reqDrop (s : State) (x : Stripe) : State :=
  let (ai, g, b, k) := x
  let f := s.fmt ai
  let hit := fun (r : FmtReq) => r.kind == 1 && r.group == g && r.band == b && decide (r.stripe ≤ k ∧ k < r.stripe + r.count)
  let parts := fun (r : FmtReq) =>
    ([{ r with count := k - r.stripe }, { r with stripe := k + 1, count := r.stripe + r.count - (k + 1) }]).filter (·.count != 0)
  let bufs := (f.queue.filter hit).foldl (fun (bs : List BufWrite) (r : FmtReq) =>
    bs.map fun (w : BufWrite) => if w.n == r.cmd then { w with left := w.left + (parts r).length - 1 } else w) s.buffered
  let bufs := bufs.map fun (w : BufWrite) => { w with groups := w.groups.filter (· != x), todo := w.todo.filter (· != x) }
  { s.setFmt ai { f with queue := f.queue.flatMap fun r => if hit r then parts r else [r] } with buffered := bufs }

/-- A whole stripe group trimmed: its bit is set, and every copy in the buffer is discarded (R339). -/
def State.trimStripe (s : State) (k : Nat) : State :=
  let u := k / 2 ^ 40
  let lo := u * 2 ^ 40 + k % 2 ^ 40 * 60
  let s := match s.stripeAt u (k % 2 ^ 40 * 60) with | some x => s.reqDrop x | none => s
  { s with trims := smPut false s.trims k true, staging := smClear s.staging lo (lo + 60),
           pinned := smClear s.pinned lo (lo + 60), segment := smClear s.segment lo (lo + 60) }

/-- A TRIM of a RAM namespace (R339): whole regions are released, the rest of the range is written with zeros. -/
def State.trimRam (s : State) (m : Ns) (lba count : Nat) : State :=
  let lo := m.ramHa lba
  let hi := m.ramHa (lba + count)
  let r0 := (lo + 65535) / 65536
  let r1 := hi / 65536
  let zero := fun (s : State) (a b : Nat) => if a < b then s.sdmStore (bufBa m.half a) (List.replicate (b - a) 0) else s
  if r0 ≥ r1 then zero s lo hi
  else
    let s := s.release m.half r0 (r1 - r0)
    zero (zero s lo (r0 * 65536)) (r1 * 65536) hi

/-- TRIM (R339). -/
def trim (h : Half) (n : Nat) (s : State) : State :=
  let s := (s.hostSettle).withdrawReqs h n
  match s.running h n opTrim with
  | none => s
  | some c => match s.ns h c.nsid with
    | none => (s.cmdFail h n stNs 0).hifShow h
    | some m =>
      if m.ram then ((s.trimRam m c.lba c.count).cmdEnd h n stOk 0 c.count).hifShow h
      else
        let secs := m.sectors c.lba c.count
        let ks := stripesOf secs
        let whole := ks.filter fun k => (secs.filter fun x => stripeKey x.2.1 x.2.2 == k).length == 60
        let ends := secs.filter fun x => !whole.contains (stripeKey x.2.1 x.2.2)
        let endGs := s.stripesAt ends
        if c.issued then (s.writeEnd h c endGs c.count).hifShow h
        else
          let s := whole.foldl State.trimStripe s
          let part := ends.filter fun x => !smGet false s.trims (stripeKey x.2.1 x.2.2)
          let s := part.foldl (fun s x =>
            let k := sectorKey x.2.1 x.2.2
            { s.stage x.2.1 x.2.2 0 with pinned := smErase s.pinned k, segment := smErase s.segment k }) s
          let gs := s.stripesAt part
          if gs.isEmpty then (s.cmdEnd h n stOk 0 c.count).hifShow h
          else (s.issue h c 1 false gs).hifShow h

def execTrim (h : Half) (n : Nat) (s : State) : Host.Outcome State Fault Refusal := .next (trim h n s)

/-- Buffered writes that a FLUSH covers (R338). -/
def State.coverOf (s : State) (h : Half) (c : Cmd) : List Nat :=
  (s.buffered.filter fun b => (c.nsid == 0 || b.nsid == c.nsid) &&
    ((b.port == h && decide (b.n < c.n)) || c.cover.contains b.n)).map (·.n)

/-- FLUSH (R338, R356): complete once every covered write is on media; a covered write that met WRITE_FAULT makes it
WRITE_FAULT. -/
def flush (h : Half) (n : Nat) (s : State) : State :=
  let s := s.hostSettle
  match s.running h n opFlush with
  | none => s
  | some c =>
    let ram := c.nsid != 0 && (match s.ns h c.nsid with | some m => m.ram | none => false)
    if ram then (s.cmdEnd h n stOk 0 0).hifShow h
    else
      let c := if c.issued then c else { c with issued := true, cover := s.coverOf h c }
      let s := s.setCmd h c
      let open_ := s.buffered.filter fun b => c.cover.contains b.n && (b.pending || b.fault || b.groups.any s.stripeBusy)
      if open_.any fun b => !b.fault || b.pending then s.hifShow h
      else if open_.any (·.fault) then (s.cmdFail h n stWrite 0).hifShow h
      else (s.cmdEnd h n stOk 0 c.cover.length).hifShow h

def execFlush (h : Half) (n : Nat) (s : State) : Host.Outcome State Fault Refusal := .next (flush h n s)

/-! ### SET_CLASS and SET_EMBER_RATE (R341) -/

/-- The target after the write; SUCCESS_LIMITED when KE_CAP holds it below the one asked for. DEDUCED (log 180). -/
def State.setTarget (s : State) (h : Half) (c : Cmd) : State :=
  let hd := c.hda
  let s := if c.op == opClass then s.put (spnB hd) F.SPN_CTL_EMBER (c.dw 8 % 2)
    else s.put (spnB hd) F.SPN_TARGET_EMBER_RPM (c.dw 8 % 2 ^ 13)
  let asked := (s.put (spnB hd) F.SPN_STAT_KE_CAP 0).spnTarget hd
  let s := s.targetWrite hd
  let t := s.spnTarget hd
  s.cmdEnd h c.n (if t < asked then stLimited else stOk) 0 t

/-- SET_CLASS (R341). -/
def setClass (h : Half) (n : Nat) (s : State) : State :=
  match s.running h n opClass with
  | none => s
  | some c => (s.setTarget h c).hifShow h

def execSetClass (h : Half) (n : Nat) (s : State) : Host.Outcome State Fault Refusal := .next (setClass h n s)

/-- SET_EMBER_RATE (R341). -/
def setEmberRate (h : Half) (n : Nat) (s : State) : State :=
  match s.running h n opEmber with
  | none => s
  | some c => (s.setTarget h c).hifShow h

def execSetEmberRate (h : Half) (n : Nat) (s : State) : Host.Outcome State Fault Refusal := .next (setEmberRate h n s)

/-! ### Completion, timeouts and errors -/

/-- COMPLETION_POST (R328, R329): a command that has ended is posted; one whose media operations have ended ends first. -/
def completionPost (h : Half) (n : Nat) (s : State) : State :=
  let s := verify h n (trim h n (write h n s))
  match s.cmd h n with
  | none => s
  | some c => match c.result with
    | none => s
    | some (st, det, res) => s.postCmd h c st det res

def execCompletionPost (h : Half) (n : Nat) (s : State) : Host.Outcome State Fault Refusal := .next (completionPost h n s)

/-- Whether a command has a host read outstanding: of its scatter list, or of its payload (R359). -/
def Cmd.hostReads (c : Cmd) : Bool :=
  c.result.isNone && (c.listWait || (c.started && ((c.op == opWrite && !c.staged) ||
    (c.op == opAdmin && (c.subop == 8 || c.subop == 9) && c.phase == 0))))

/-- PAYLOAD_TIMEOUT (R359). -/
def payloadTimeout (h : Half) (n : Nat) (s : State) : State :=
  match s.cmd h n with
  | none => s
  | some c =>
    if !c.hostReads then s
    else (((s.cmdFail h n stPayTmo 0).flag (B.hif h) F.HIF_EVENTS_PAYLOAD_TMO).hifCount h 3 1).hifShow h

def execPayloadTimeout (h : Half) (n : Nat) (s : State) : Host.Outcome State Fault Refusal := .next (payloadTimeout h n s)

/-- HOST_ACCESS (R345, R386): a host read of command n, or of Service DMA when n is 0, answers with Unsupported Request or
Completer Abort; `data` is what Service DMA's descriptor had read before it. -/
def hostAccess (h : Half) (n : Nat) (data : List Byte) (s : State) : State :=
  if n == 0 then s.sdmHostFail h 0x05 data
  else match s.cmd h n with
    | none => s
    | some c => if !c.hostReads then s else (s.cmdFail h n stHost 0).hifShow h

def execHostAccess (h : Half) (n : Nat) (data : List Byte) (s : State) : Host.Outcome State Fault Refusal :=
  .next (hostAccess h n data s)

/-- RATE_RANGE_TIMEOUT (R346): the speed has been out of range for 1 s, and the formatter stops repeating the pass. -/
def rateRangeTimeout (h : Half) (u : Nat) (s : State) : State :=
  let ai := actId h u
  if (s.fmt ai).op.any (·.rangeWait) && (s.wick ai).desc.isNone then (s.fmtEnd ai .rateRange []).hostSettle else s

def execRateRangeTimeout (h : Half) (u : Nat) (s : State) : Host.Outcome State Fault Refusal := .next (rateRangeTimeout h u s)

/-! ### The half link (R67, R358) -/

/-- PEER_UP and REMOTE_UP of both halves follow the half link (R55, R366). -/
def State.linkShow (s : State) : State :=
  let one := fun (s : State) (h : Half) =>
    (s.putB (B.hif h) F.HIF_STAT_PEER_UP (s.peerUp h)).putB (B.hif h) F.HIF_REGIONCFG_REMOTE_UP (s.peerUp h)
  one (one s .a) .b

/-- Commands of a port that run on the other half when it is lost complete with HALF_DOWN (R358). -/
def State.peerLost (s : State) (h : Half) : State :=
  ((s.hif h).held.foldl (fun s c =>
    if c.started && c.result.isNone && s.needsHalf h c h.other then
      let s := (List.range 16).foldl (fun s ai =>
        s.setFmt ai { s.fmt ai with queue := (s.fmt ai).queue.filter (·.cmd != c.n) }) s
      s.cmdFail h c.n stUnavail 6
    else s) s).hifShow h

/-- HALF_LINK_DOWN (R358): for a cause other than a reset. -/
def halfLinkDown (s : State) : State :=
  let s := { s with board := { s.board with halfLinkDown := true } }
  ((s.peerLost .a).peerLost .b).linkShow

def execHalfLinkDown (s : State) : Host.Outcome State Fault Refusal := .next (halfLinkDown s)

/-- HALF_LINK_UP (R67). -/
def halfLinkUp (s : State) : State := ({ s with board := { s.board with halfLinkDown := false } }).linkShow

def execHalfLinkUp (s : State) : Host.Outcome State Fault Refusal := .next (halfLinkUp s)

/-! ### The loss of a port's host (R362, R364) -/

/-- How one held command ends when its port is lost. DEDUCED (log 83). -/
def State.cmdLost (s : State) (h : Half) (c : Cmd) : State :=
  let keep := s.setCmd h { c with dropped := true }
  let drop := s.cmdGone h c.n
  if c.op == opWrite then
    if c.staged then (match c.result with
      | some (st, det, res) => (s.logLost h c st det res).cmdGone h c.n
      | none => keep)
    else drop
  else if c.op == opAdmin then
    (match c.result with
      | some (st, det, res) => if c.started then (s.logLost h c st det res).cmdGone h c.n else drop
      | none => if c.started then keep else drop)
  else if c.op == opClass || c.op == opEmber then
    let t := if c.result.isSome then s else s.setTarget h c
    (match t.cmd h c.n with
      | some d => (match d.result with
        | some (st, det, res) => (t.logLost h d st det res).cmdGone h c.n
        | none => t.cmdGone h c.n)
      | none => t)
  else drop

/-- What a surprise removal or another port reset does to a port's commands and reads (R362, R364, R387, R510). -/
def State.portLost (s : State) (h : Half) : State :=
  let s := s.hostSettle
  let s := s.setHif h { s.hif h with entries := [], stopped := true }
  let s := (s.hif h).held.foldl (fun s c => s.cmdLost h c) s
  let bufs := s.buffered.map fun (b : BufWrite) => if b.port == h then { b with posted := true } else b
  ({ s with buffered := bufs }.sdmPortReset h).hifShow h

/-- A surprise removal (R28, R319, R362). -/
def State.surprise (s : State) (h : Half) : State :=
  let held := s.heldCount h
  let s := (s.flag (B.hif h) F.HIF_EVENTS_SURPRISE_REMOVAL).chimney h 1 0 26 held
  s.portLost h

/-- What a port reset clears of the host interface (R364): pages 0 to 3, the MSI-X table and the pending bits; the
namespace table and the lost-completions log with HIF_LOSTCNT stay. -/
def State.portClear (s : State) (h : Half) : State :=
  let b := B.hif h
  let lost := s.word (b + 0x14)
  let s := (s.clearRange b (b + 0x4000)).clearRange (b + 0x8000) (b + 0xB000)
  let s := s.setWord (b + 0x14) lost
  let s := s.setHif h { s.hif h with entries := [], tails := [], cqs := [] }
  let s := s.putB b F.HIF_STAT_FAILOVER (s.strapBit 1)
  (s.linkShow).hifShow h

end Sys2Proof.Machine
end

