-- ==== Sys2Proof/Machine/HostAdmin.lean ====
section
/-! DEFINITION. The ADMIN sub-commands (R342 to R344, R333): IDENTIFY, LOG_READ, attach and detach of an HDA, namespaces,
retirement of buffer memory, and signed images. -/

namespace Sys2Proof.Machine

/-! ### IDENTIFY and LOG_READ -/

/-- An ADMIN sub-command that is started and has not ended. -/
def State.admin (s : State) (h : Half) (n sub : Nat) : Option Cmd :=
  (s.running h n opAdmin).bind fun c => if c.subop == sub then some c else none

/-- A command that has done its work, whose RESULT the spec does not state. -/
def State.adminOk (s : State) (h : Half) (n : Nat) : State := (s.cmdFail h n stOk 0).hifShow h

def State.adminRejected (s : State) (h : Half) (n det : Nat) : State := (s.cmdFail h n stRejected det).hifShow h

/-- The 8 bytes of an HDA in IDENTIFY (R344). -/
def State.identifyHda (s : State) (hd : Nat) : List Byte :=
  let b := spnB hd
  let flag := fun (x : Bool) (i : Nat) => if x then 2 ^ i else 0
  leBytes 8 (s.portState hd % 8 + flag (s.isAttached hd) 3 + s.get b F.SPN_CTL_EMBER % 2 * 16 +
    s.get b F.SPN_STAT_KE_CAP % 2 * 32 + flag (s.spnState hd == spFailed) 6 + (s.spn hd).emf / 64 % 65536 * 2 ^ 16 +
    s.get b F.SPN_TARGET_TARGET % 65536 * 2 ^ 32)

/-- What IDENTIFY returns (R344). -/
def State.identifyData (s : State) (h : Half) : List Byte :=
  let w1 := s.get B.mnt F.MNT_STRAP_CODE % 256 + h.toNat * 256 + (if s.coreUp h.other then 512 else 0)
  let head := leBytes 4 (s.word (B.hif h + 0xF000)).toNat ++ leBytes 4 w1 ++ leBytes 8 (8192 + 4096 * 65536)
  let units := (List.range 32).flatMap fun u => leBytes 8 (s.unitCap u)
  let hdas := (List.range 8).flatMap fun hd => s.identifyHda hd
  let body := head ++ units ++ hdas
  body ++ List.replicate (4096 - body.length) 0

def identify (h : Half) (n : Nat) (s : State) : State :=
  match s.admin h n 1 with
  | none => s
  | some c => (s.payloadWrite h c.segments (s.identifyData h)).adminOk h n

def execIdentify (h : Half) (n : Nat) (s : State) : Host.Outcome State Fault Refusal := .next (identify h n s)

/-- The bytes of words of the register space. -/
def State.wordBytes (s : State) (a count : Nat) : List Byte :=
  (List.range count).flatMap fun i => leBytes 4 (s.word (a + 4 * i)).toNat

/-- Bytes cut, or filled with zeros, to a length. -/
def cutTo (len : Nat) (l : List Byte) : List Byte := (l ++ List.replicate (len - l.length) 0).take len

/-- The 128 entries of HIF page 5 (R372). -/
def State.lostLogBytes (s : State) (h : Half) : List Byte :=
  (List.range 128).flatMap fun e => s.wordBytes (B.hif h + 0x5000 + 32 * e) 8

/-- The bytes of a log (R342): lost completions as on HIF page 5, the buffer error log as on BUF page 4 with its oldest entry
first. The spec states no layout for the lost sectors of the last MEDIA_LOST completions: their bytes are free values.
DESIGN CHOICE (log 96). -/
def State.logBytes (s : State) (h : Half) (log len : Nat) : State × List Byte :=
  if log == 1 then (s, cutTo len (s.lostLogBytes h))
  else if log == 2 then (s, cutTo len ((s.resv h).logOrder.flatMap fun e => s.wordBytes (logAddr h e 0) 4))
  else
    let (k, s) := s.takeFree
    (s, leBytes len (Config.freeNat k))

/-- LOG_READ (R342): the log is returned, and with CLEAR emptied after the read. -/
def logRead (h : Half) (n : Nat) (s : State) : State :=
  match s.admin h n 2 with
  | none => s
  | some c =>
    let (s, bs) := s.logBytes h (c.dw 8) (c.dw 9)
    let s := s.payloadWrite h c.segments bs
    let s := if c.dw 10 % 2 == 0 then s
      else if c.dw 8 == 1 then s.lostClear h
      else if c.dw 8 == 2 then s.logClear h
      else s.setHif h { s.hif h with lostLog := [] }
    s.adminOk h n

def execLogRead (h : Half) (n : Nat) (s : State) : Host.Outcome State Fault Refusal := .next (logRead h n s)

/-! ### HDA_ATTACH (R343) -/

def State.setPhase (s : State) (h : Half) (n k : Nat) : State :=
  match s.cmd h n with
  | some c => s.setCmd h { c with phase := k }
  | none => s

/-- Step 2: the identity values of the page that the port holds (R84, R212, R248). KE_CAP is lifted (R226). -/
def State.loadIdentity (s : State) (hd : Nat) : State :=
  let s := s.put (spnB hd) F.SPN_KEREF_KE_REF (s.ident hd 0x52 2)
  let s := s.put (spnB hd) F.SPN_ILIM_I_RUN (s.ident hd 0x58 2)
  let s := s.put (spnB hd) F.SPN_STAT_KE_CAP 0
  [0, 1].foldl (fun s a =>
    let s := s.put (srvB (2 * hd + a)) F.SRV_MAGAIN_MA_GAIN (s.ident hd 0x62 2)
    s.put (srvB (2 * hd + a)) F.SRV_PLANT_KT (s.ident hd (0x5A + 2 * a) 2)) s

/-- The engines that the attach works with are enabled: the spindle, and of each actuator the servo, the formatter, the Wick
and its four channels. DEDUCED (log 94). -/
def State.attachEnable (s : State) (hd : Nat) : State :=
  let h := hdaHalf hd
  let s := spindleEnSet h (hd % 4) s
  [0, 1].foldl (fun s a =>
    let u := 2 * (hd % 4) + a
    let s := servoEnSet h u s
    let s := (s.put (B.fmt h u) F.FMT_CTL_EN 1).put (B.wck h u) F.WCK_CTL_EN 1
    (List.range 4).foldl (fun s k => s.put (B.rch h (4 * u + k)) F.RCH_CTL_EN 1) s) s

/-- Steps 1 to 3: lease, identity, ATTACHED, and the start under Taper. The preamplifiers are given head slot 0 of group 0,
the one head of a pass of mode 2. -/
def State.attachBegin (s : State) (h : Half) (c : Cmd) : State :=
  let hd := c.hda
  if s.portState hd != 3 then s.adminRejected h c.n 0x23
  else if !s.mantleServes then s
  else
    let (st, s) := s.claimOne (homeHalf hd) hd
    if st != 0 then (s.cmdFail h c.n stUnavail 2).hifShow h
    else
      let s := { s with attached := s.attached &&& (0xFF - 2 ^ hd) }
      let s := (s.loadIdentity hd).setPortState hd 4
      let s := s.demand (hdaHalf hd) (22 + hd % 4)
      let s := s.attachEnable hd
      let s := [2 * hd, 2 * hd + 1].foldl (fun s ai =>
        (s.paIssue ai .sleep (writeFrame 1 2)).paIssue ai .sleep (writeFrame 2 0x10)) s
      (s.spnStart hd).setPhase h c.n 1

/-- What ends an attach in any step: its HDA removed or no longer attached, not owned, failed, or switched off. -/
def State.attachBar (s : State) (hd : Nat) : Option (Nat × Nat) :=
  if s.portState hd != 4 then some (stUnavail, 1)
  else if !s.ownLine hd then some (stUnavail, 2)
  else if s.spnState hd == spFailed then some (stUnavail, 3)
  else if s.spnState hd == spOff then some (stConfig, 6)
  else if s.srvState (2 * hd) == svOff || s.srvState (2 * hd + 1) == svOff then some (stConfig, 5)
  else none

/-- An attach ends with what a read of its tables failed with (R343): HDA_UNAVAILABLE, whose DETAIL the spec does not give for
another formatter status, so that it is a free value then; an ABORT-class write keeps its own status (R345). DESIGN CHOICE
(log 178). -/
def State.attachFail (s : State) (h : Half) (n st det : Nat) : State :=
  if st == stUnavail || st == stConfig then (s.cmdFail h n st det).hifShow h
  else
    let (k, s) := s.takeFree
    (s.cmdFail h n stUnavail (Config.freeNat k % 2 ^ 16)).hifShow h

/-- Reading the system bands of an actuator: one request whose band number the spec does not give.
DESIGN CHOICE (log 91). -/
def State.attachReadReq (s : State) (n ai : Nat) : State :=
  let (k, s) := s.takeFree
  let f := s.fmt ai
  s.setFmt ai { f with queue := f.queue ++ [⟨5, n, 0, Config.freeNat k % 128, 0, 1, false, false, 0, 0⟩] }

/-- The tables read into SYSTEM (step 5): for each actuator its band alignment table, its defect table, and the trimmed
stripe groups of its two groups. -/
def State.attachTables (s : State) (hd : Nat) (tables : List (List Byte × List Byte × List (Nat × Nat))) : State :=
  let one := fun (s : State) (a : Nat) =>
    match tables[a]? with
    | none => s
    | some (bat, dft, trimmed) =>
      let ai := 2 * hd + a
      let at_ := fun (lo hi : Fld) => s.get (fmtB ai) lo + s.get (fmtB ai) hi * 0x100000000
      let s1 := s.bufStore (at_ F.FMT_BATBASE_LO_ADDR F.FMT_BATBASE_HI_ADDR) bat
      let s1 := s1.bufStore (at_ F.FMT_DEFBASE_LO_ADDR F.FMT_DEFBASE_HI_ADDR) dft
      let old := [0, 1].foldl (fun m g => smClear m (unitOf ai g * 2 ^ 40) ((unitOf ai g + 1) * 2 ^ 40)) s1.trims
      { s1 with trims := trimmed.foldl (fun m x => smPut false m (unitOf ai x.1 * 2 ^ 40 + x.2) true) old }
  let s := one (one s 0) 1
  { s with attached := s.attached ||| 2 ^ hd }

/-- Pages of the tables of an HDA (R302), as half and page. -/
def State.tablePages (s : State) (hd : Nat) : List (Half × Nat) :=
  ([2 * hd, 2 * hd + 1].flatMap fun ai => (s.tableRanges ai).flatMap fun r =>
    let first := r.1 / 4096
    (List.range ((r.1 + r.2 + 4095) / 4096 - first)).map fun i =>
      (halfOf ((first + i) * 4096 / 2 ^ 41 % 2), (first + i) % 2 ^ 29)).eraseDups

/-- Whether a page's line is locked and filled. -/
def State.pageLocked (s : State) (h : Half) (page : Nat) : Bool :=
  let c := s.cache h
  match c.wayOf page with
  | some w => (match c.line page w with | some l => l.locked && l.pend == 0 | none => false)
  | none => false

/-- The tables are locked, as far as the lock of each page can go on now; the answer is whether all are. A page whose lock
fails, because both ways of its set are locked already, counts as done (R303). -/
def State.lockTables (s : State) (hd : Nat) : State × Bool :=
  (s.tablePages hd).foldl (fun acc x =>
    let s := acc.1
    if s.pageLocked x.1 x.2 then acc
    else
      let c := s.cache x.1
      let full := [0, 1].all fun w => smGet false c.disabled (lineKey x.2 w) ||
        (match c.line x.2 w with | some l => l.locked && l.page != x.2 | none => false)
      if full then (s.flag (B.bca x.1) F.BCA_EVENTS_LOCK_FAIL, acc.2)
      else if (c.missOf x.2).isSome then (s, false)
      else match s.lockPage x.1 x.2 with
        | some t => (t, false)
        | none => (s, false)) (s, true)

/-- HDA_ATTACH (R343): one step further, if what the step waits for has come. `tables` is what the reads of the system bands
have brought: for each actuator the band alignment table, the defect table, and its trimmed stripe groups. -/
def hdaAttach (h : Half) (n : Nat) (tables : List (List Byte × List Byte × List (Nat × Nat))) (s : State) : State :=
  let s := s.hostSettle
  match s.admin h n 3 with
  | none => s
  | some c =>
    let hd := c.hda
    let ais := [2 * hd, 2 * hd + 1]
    if c.phase == 0 then s.attachBegin h c
    else match s.attachBar hd, c.fail with
      | some (st, det), _ => (s.cmdFail h n st det).hifShow h
      | none, some (st, det) => s.attachFail h n st det
      | none, none =>
        if c.phase == 1 then
          if ais.all s.loadOk then
            (ais.foldl (fun s ai => cmdLoad (actHalf ai) (ai % 8) s) s).setPhase h n 2
          else if ais.any fun ai => (s.pa ai).cur.isNone && (s.pa ai).queue.isEmpty && s.ackMask ai == 0 then
            (s.cmdFail h n stUnavail 5).hifShow h
          else s
        else if c.phase == 2 then
          if ais.any fun ai => s.srvState ai == svParked || s.srvState ai == svRetract then
            (s.cmdFail h n stUnavail 5).hifShow h
          else if ais.all fun ai => s.srvState ai == svFollow then
            let s := s.setCmd h { c with left := 2, phase := 3 }
            ais.foldl (fun s ai => s.attachReadReq n ai) s
          else s
        else if c.phase == 3 then
          if c.left != 0 || tables.length != 2 then s else ((s.attachTables hd tables).setPhase h n 4)
        else
          let (s, done) := s.lockTables hd
          if done && ais.all fun ai => s.srvState ai == svFollow then s.adminOk h n else s.cacheGo (hdaHalf hd)

def execHdaAttach (h : Half) (n : Nat) (tables : List (List Byte × List Byte × List (Nat × Nat))) (s : State) :
    Host.Outcome State Fault Refusal := .next (hdaAttach h n tables s)

/-! ### HDA_DETACH (R343) -/

/-- Commands of both ports that a detach waits for: those started, and those of an earlier doorbell, on the HDA's units, and
its buffered writes. -/
def State.hdaInUse (s : State) (n hd : Nat) : Bool :=
  [Half.a, Half.b].any (fun x => (s.hif x).held.any fun c =>
    c.n != n && (c.started || decide (c.n < n)) && c.result.isNone && c.ranged && match s.ns x c.nsid with
      | some m => !m.ram && (m.sectors c.lba c.count).any fun e => e.2.1 / 4 == hd
      | none => false) ||
  s.buffered.any fun b => b.groups.any fun g => actHda g.1 == hd

/-- HDA_DETACH (R343), one step further. DEDUCED (log 92). DEDUCED (log 98). DEDUCED (log 177). -/
def hdaDetach (h : Half) (n : Nat) (s : State) : State :=
  let s := s.hostSettle
  match s.admin h n 4 with
  | none => s
  | some c =>
    let hd := c.hda
    let ais := [2 * hd, 2 * hd + 1]
    if c.phase == 0 then
      if s.portState hd != 4 then (s.cmdFail h n stUnavail 1).hifShow h
      else ({ s with attached := s.attached &&& (0xFF - 2 ^ hd) }).setPhase h n 1
    else if s.portState hd != 4 then (s.cmdFail h n stHda 8).hifShow h
    else if c.phase == 1 then
      if s.hdaInUse n hd then s
      else (ais.foldl State.servoParkCmd s).setPhase h n 2
    else if c.phase == 2 then
      if ais.any s.loaded then s
      else
        let s := ais.foldl (fun s ai => s.paIssue ai .sleep (writeFrame 1 0)) s
        (s.spnStop hd false).setPhase h n 3
    else
      let framing := ais.any fun ai => (s.pa ai).cur.isSome || !(s.pa ai).queue.isEmpty
      let awake := ais.any fun ai => (s.port hd).supply && smGet 0 (s.pa ai).regs 1 != 0
      if framing then s
      else if awake then s.adminRejected h n 0x24
      else if c.phase == 3 then
        if s.spnState hd == spStopped || s.spnState hd == spFailed || s.spnState hd == spOff then
          (if s.owns (homeHalf hd) hd then s.withdraw hd 2 else s).setPhase h n 4
        else s
      else if s.quiet hd then
        let trims := ais.foldl (fun m ai =>
          [0, 1].foldl (fun m g => smClear m (unitOf ai g * 2 ^ 40) ((unitOf ai g + 1) * 2 ^ 40)) m) s.trims
        (({ s with trims := trims }).setPortState hd 3).adminOk h n
      else s

def execHdaDetach (h : Half) (n : Nat) (s : State) : Host.Outcome State Fault Refusal := .next (hdaDetach h n s)

/-! ### Namespaces (R332, R333, R371) -/

/-- The half whose table decides namespace commands (R333). -/
def State.nsDecides (s : State) : Half := if s.coreUp .a then .a else .b

/-- Base of the entry of an NSID in a half's table (R371). -/
def nsB (h : Half) (nsid : Nat) : Nat := B.hif h + 0x4000 + 64 * (nsid - 1)

/-- An entry written in the tables of both halves that are up (R333). -/
def State.nsWrite (s : State) (nsid : Nat) (ws : List Nat) (caps : List Nat) : State :=
  let one := fun (s : State) (x : Half) =>
    if !s.coreUp x then s
    else
      let s := (List.range 16).foldl (fun s i => s.setWord (nsB x nsid + 4 * i) (BitVec.ofNat 32 (ws.getD i 0))) s
      { s with nsCaps := smPut [] s.nsCaps (64 * x.toNat + nsid - 1) caps }
  one (one s .a) .b

/-- What refuses an NS_CREATE (R332, R333, R346). -/
def State.nsRefuse (s : State) (nsid : Nat) (ram : Bool) (half : Half) (units : List Nat) (base size : Nat) :
    Option (Nat × Nat) :=
  let t := s.nsDecides
  let all := (List.range 64).filterMap fun i => s.ns t (i + 1)
  if (s.ns t nsid).isSome then some (stRejected, 0x20)
  else if !ram && all.any (fun m => !m.ram && m.units.any units.contains) then some (stRejected, 0x21)
  else if !ram && units.any (fun u => !s.isAttached (u / 4)) then some (stRejected, 0x25)
  else if ram && (base < (s.bufPart half 0).1 || base + size > (s.bufPart half 0).1 + (s.bufPart half 0).2) then
    some (stField, 0)
  else if ram && all.any (fun m => m.ram && m.half == half && decide (base < m.base + m.size ∧ m.base < base + size))
    then some (stRejected, 0x22)
  else none

/-- NS_CREATE (R332, R333). DEDUCED (log 95). DEDUCED (log 99). -/
def nsCreate (h : Half) (n : Nat) (s : State) : State :=
  match s.admin h n 5 with
  | none => s
  | some c =>
    let ram := c.dw 8 % 2 == 1
    let chunk := c.dw 8 / 256 % 256
    let half := halfOf (c.dw 10 % 2)
    let units := (List.range 32).filter (c.dw 9).testBit
    let base := c.dw 11 % 65536
    let size := c.dw 11 / 65536
    match s.nsRefuse c.nsid ram half units base size with
    | some (st, det) => (s.cmdFail h n st det).hifShow h
    | none =>
      let caps := if ram then [] else units.map s.unitCap
      let cap := if ram then size * 16384 else mediaCap chunk caps
      let ws := [1 + c.dw 8 % 2 * 2 + c.dw 10 % 2 * 4 + chunk * 256, c.dw 9, c.dw 11, 0, cap % 2 ^ 32, cap / 2 ^ 32]
      (s.nsWrite c.nsid ws caps).adminOk h n

def execNsCreate (h : Half) (n : Nat) (s : State) : Host.Outcome State Fault Refusal := .next (nsCreate h n s)

/-- NS_DELETE (R342): once its buffered writes are on media, a RAM namespace's regions are released and the entry is empty. The
held commands of the namespace have ended before it started (R348, R349). -/
def nsDelete (h : Half) (n : Nat) (s : State) : State :=
  let s := s.hostSettle
  match s.admin h n 6 with
  | none => s
  | some c =>
    match s.ns s.nsDecides c.nsid with
    | none => (s.cmdFail h n stNs 0).hifShow h
    | some m =>
      if s.buffered.any (·.nsid == c.nsid) then s
      else
        let s := if m.ram then s.release m.half (m.base * 1024) (m.size * 1024) else s
        (s.nsWrite c.nsid [] []).adminOk h n

def execNsDelete (h : Half) (n : Nat) (s : State) : Host.Outcome State Fault Refusal := .next (nsDelete h n s)

/-! ### RETIRE -/

/-- RETIRE (R279, R280, R342): runs on the port's half, and completes at DONE or REJECTED; `errs` are the errors that a flush
of the page's merge entry meets. -/
def retire (h : Half) (n : Nat) (errs : List WordErr) (s : State) : State :=
  match s.admin h n 7 with
  | none => s
  | some c =>
    let b := B.buf h 0
    let bank := c.dw 8 == 2
    let s := if c.phase != 0 then s
      else
        let s := (s.put b F.BUF_RETFROM_FROM (c.dw 9)).setPhase h n 1
        if bank then bankRetire h s else pageRetire h errs s
    let st := s.get b F.BUF_RETSTAT_STATE
    if st == 2 then s.adminOk h n
    else if st == 3 then s.adminRejected h n (0x10 + s.get b F.BUF_RETSTAT_REASON)
    else s

def execRetire (h : Half) (n : Nat) (errs : List WordErr) (s : State) : Host.Outcome State Fault Refusal :=
  .next (retire h n errs s)

/-! ### Signed images -/

/-- Whether an image can be passed to Mantle now: it serves, its intake is closed, Service DMA is out of reset, and the
payload has come whole. -/
def State.imageReady (s : State) (h : Half) (c : Cmd) (bytes : List Byte) : Bool :=
  s.mantleServes && s.mcore.intake.isNone && s.sdmUp h && bytes.length == c.dw 9

/-- FIRMWARE_LOAD (R342, R416, R417). DEDUCED (log 97). -/
def firmwareLoad (h : Half) (n : Nat) (bytes : List Byte) (s : State) : State :=
  match s.admin h n 8 with
  | none => s
  | some c =>
    if !s.imageReady h c bytes then s
    else
      let st := s.imageStatus 1 bytes
      let svn := leAt (imageCheckBlock bytes (bytes.length - 160)) 8 4
      if st != 0 then (s.imageReject h 1 svn st).adminRejected h n (st - 8)
      else ((s.imageAccept 1 (c.dw 8 % 2) bytes).cmdEnd h n stOk 0 svn).hifShow h

def execFirmwareLoad (h : Half) (n : Nat) (bytes : List Byte) (s : State) : Host.Outcome State Fault Refusal :=
  .next (firmwareLoad h n bytes s)

/-- MICROCODE_LOAD (R177, R178, R342): completes when every Wick that can be written has the patch, or at its rejection. -/
def microcodeLoad (h : Half) (n : Nat) (bytes : List Byte) (s : State) : State :=
  match s.admin h n 9 with
  | none => s
  | some c =>
    if c.phase == 0 then
      if !s.imageReady h c bytes then s
      else
        let st := s.imageStatus 3 bytes
        let svn := leAt (imageCheckBlock bytes (bytes.length - 160)) 8 4
        if st != 0 then (s.imageReject h 3 svn st).adminRejected h n (st - 8)
        else (s.imageAccept 3 0 bytes).setPhase h n 1
    else
      let level := match s.mcore.wickPatch with | some img => patchLevel img.bytes | none => 0
      if (List.range 16).all fun ai => !s.patchable ai || s.get (wckB ai) F.WCK_ID_PATCH_LEVEL == level then s.adminOk h n
      else s

def execMicrocodeLoad (h : Half) (n : Nat) (bytes : List Byte) (s : State) : Host.Outcome State Fault Refusal :=
  .next (microcodeLoad h n bytes s)

end Sys2Proof.Machine
end

