-- ==== Sys2Proof/Machine/Lamplighter.lean ====
section
/-! DEFINITION. Lamplighter (R423 to R444): reset sources and their reach, what each clears, the cause register, releases
and the boot of a Lantern, with the strap, the supplies and the host ports' resets (R22 to R43, R317 to R319, R446). -/

namespace Sys2Proof.Machine

/-! ### Sources (R423, R430) -/

def Source.code : Source → Nat
  | .cold => 1 | .auxBo => 2 | .mainBo => 3 | .mrst => 4 | .half _ => 5 | .port _ => 6 | .hda _ => 7 | .block _ _ => 8

/-- TARGET of LMP_CAUSE (R443). -/
def Source.target : Source → Nat
  | .half h => h.toNat | .port h => h.toNat | .hda n => n | .block h c => 128 * h.toNat + c % 128 | _ => 0

/-- The blocks that a source holds in reset, as numbers: Mantle, a half's socket switches, a Lantern, its port, its Service
DMA, an HDA's set, a channel, a Wick. -/
def hdaReach (n : Nat) : List Nat := [10 + n, 200 + 2 * n, 201 + 2 * n] ++ (List.range 8).map (100 + 8 * n + ·)
def halfReach (h : Half) : List Nat :=
  let x := h.toNat
  [3 + x, 5 + x, 7 + x] ++ (List.range 4).flatMap fun k => hdaReach (4 * x + k)
def Source.reach : Source → List Nat
  | .cold | .auxBo => [0, 1, 2] ++ halfReach .a ++ halfReach .b
  | .mainBo => [1, 2] ++ halfReach .a ++ halfReach .b
  | .mrst => halfReach .a ++ halfReach .b
  | .half h => halfReach h
  | .port h => [5 + h.toNat]
  | .hda n => hdaReach n
  | .block h c => if c < 0x20 then [100 + 32 * h.toNat + c] else if c < 0x28 then [200 + 8 * h.toNat + (c - 0x20)]
      else [7 + h.toNat]

/-- Whether every block of a source is already held by asserted sources (R430). -/
def State.covered (s : State) (src : Source) : Bool :=
  src.reach.all fun p => s.asserted.any fun a => a.reach.contains p

/-- The count of a source's recorded assertions (R443). -/
def Source.cntFld : Source → Option Fld
  | .mainBo => some F.LMP_CNT0_MAIN_BO
  | .mrst => some F.LMP_CNT0_MRST
  | .half h => some (if h = .a then F.LMP_CNT0_HALF_A else F.LMP_CNT0_HALF_B)
  | .port h => some (if h = .a then F.LMP_CNT1_PORT_A else F.LMP_CNT1_PORT_B)
  | .hda _ => some F.LMP_CNT1_HDA
  | .block _ _ => some F.LMP_CNT1_BLOCK
  | _ => none

def State.srcCount (s : State) (src : Source) : State :=
  match src.cntFld with
  | some f => s.satAdd B.lmp f 1
  | none => s

/-- LMP_CAUSE and its time written for an assertion (R430), with its RESET event (R479). DESIGN CHOICE (log 102). -/
def State.causeWrite (s : State) (src : Source) (sub : Nat) (multi : Bool) : State :=
  let s := ((s.put B.lmp F.LMP_CAUSE_SOURCE src.code).put B.lmp F.LMP_CAUSE_SUB sub).put B.lmp F.LMP_CAUSE_TARGET src.target
  let s := s.putB B.lmp F.LMP_CAUSE_MULTI multi
  let s := (s.put B.lmp F.LMP_CAUSETIME_LO_TIME s.usTime).put B.lmp F.LMP_CAUSETIME_HI_TIME (s.usTime / 2 ^ 32)
  let s := { s with board := { s.board with causeTick := some s.ticks } }
  (s.srcCount src).event 0x0002 (s.word B.lmp).toNat 0 0

/-- What was recorded in this Glim tick gives way to an assertion of wider reach, or of a lower target: its event and its
count go. -/
def State.causeUndo (s : State) : State :=
  let code := s.get B.lmp F.LMP_CAUSE_SOURCE
  let t := s.get B.lmp F.LMP_CAUSE_TARGET
  let old : Source := if code == 3 then .mainBo else if code == 4 then .mrst else if code == 5 then .half (halfOf t)
    else if code == 6 then .port (halfOf t) else if code == 7 then .hda t else .block (halfOf (t / 128)) (t % 128)
  let s := { s with evQueue := s.evQueue.filter fun (e : EvRec) => !(e.code == 2 && e.time == s.usTime) }
  match old.cntFld with
  | some f => if s.get B.lmp f == 0xFF then s else s.put B.lmp f (s.get B.lmp f - 1)
  | none => s

/-- The recording of an assertion that changes state (R430): in one Glim tick the widest reach is kept, and of equal reach
the lowest target, with MULTI. -/
def State.record (s : State) (src : Source) (sub : Nat) : State :=
  if s.board.causeTick != some s.ticks then s.causeWrite src sub false
  else
    let code := s.get B.lmp F.LMP_CAUSE_SOURCE
    let t := s.get B.lmp F.LMP_CAUSE_TARGET
    if code < src.code then s
    else if src.code < code then s.causeUndo.causeWrite src sub false
    else if src.target < t then s.causeUndo.causeWrite src sub true
    else if src.target == t then s
    else s.put B.lmp F.LMP_CAUSE_MULTI 1

/-! ### What the registers show (R431, R443, R444) -/

/-- Whether Mantle's hold keeps a half in reset, with its reason: 1 strap unstable, 2 lid mismatch, 3 both slots failed
(R425, R443). -/
def State.holdReason (s : State) (h : Half) : Nat :=
  if s.bit B.mnt F.MNT_STRAP_UNSTABLE then 1 else if s.bit B.mnt F.MNT_STRAP_MISMATCH then 2
  else if (s.mh h.toNat).bootHeld then 3 else 0

def State.lanternState (s : State) (h : Half) : Nat :=
  if s.coreUp h then (if s.bit (B.pwr h) F.LMP_CONFIG_CONFIGURED then 2 else 1)
  else if s.holdReason h != 0 then 3 else 0

/-- LMP_ASSERTED, LMP_STAT, LMP_HELD and LMP_RCHHELD follow the sources. -/
def State.lmpShow (s : State) : State :=
  let l := s.asserted
  let bits := fun (n : Nat) (p : Nat → Bool) => (List.range n).foldl (fun m i => if p i then m + 2 ^ i else m) 0
  let s := s.put B.lmp F.LMP_ASSERTED_SOURCES (bits 8 fun i => l.any (·.code == i + 1))
  let s := s.put B.lmp F.LMP_ASSERTED_HALF (bits 2 fun i => !s.coreUp (halfOf i))
  let s := s.put B.lmp F.LMP_ASSERTED_PORT (bits 2 fun i => l.contains (.port (halfOf i)))
  let s := s.put B.lmp F.LMP_ASSERTED_HDA (bits 8 fun i => l.contains (.hda i))
  let s := (s.put B.lmp F.LMP_STAT_STATE_A (s.lanternState .a)).put B.lmp F.LMP_STAT_STATE_B (s.lanternState .b)
  let s := (s.putB B.lmp F.LMP_STAT_MOTOR_A (s.motorUp.testBit 0)).putB B.lmp F.LMP_STAT_MOTOR_B (s.motorUp.testBit 1)
  let s := s.put B.lmp F.LMP_STAT_HOLD (if s.holdReason .a != 0 then s.holdReason .a else s.holdReason .b)
  let page := fun (s : State) (h : Half) =>
    if !s.coreUp h then s
    else
      let b := B.pwr h
      let k := h.toNat
      let s := s.put b F.LMP_HELD_HDA (bits 4 fun i => l.contains (.hda (4 * k + i)))
      let s := s.put b F.LMP_HELD_WCK (bits 8 fun i => l.contains (.block h (0x20 + i)))
      let s := (s.putB b F.LMP_HELD_SDM (l.contains (.block h 0x30))).putB b F.LMP_HELD_PORT (l.contains (.port h))
      s.put b F.LMP_RCHHELD_RCH (bits 32 fun i => l.contains (.block h i) || l.contains (.hda (4 * k + i / 8)))
  page (page s .a) .b

/-- PWR_RAIL.GOOD of a half (R446). -/
def State.railShow (s : State) (h : Half) : State := s.put (B.pwr h) F.PWR_RAIL_GOOD (smGet 0 s.rails h.toNat)

/-- The trace lanes run while a probe is present and the half's outputs are enabled (R36, R436). -/
def State.probeShow (s : State) (h : Half) : State :=
  if s.coreUp h then s.putB (B.cri h) F.CRI_TRCSTAT_LANES_UP (s.board.probe && s.outEnable h) else s

/-! ### Power domains and clocks (R448, R450, R456, R457) -/

/-- The domains that a clock feeds (R456). TRACE feeds the lanes of AON alone. -/
def clockFeeds (c : Nat) : List Nat :=
  if c == 0 || c == 20 then [0] else if c == 1 then [1] else if c == 2 || c == 3 then [2] else if c == 4 then [3]
  else if c == 5 then [4, 5, 6, 7, 8, 9, 10, 11, 12] else if c == 6 || c == 7 then [13]
  else if 10 ≤ c && c ≤ 17 then [c + 4] else [22, 23, 24, 25]

/-- Whether a clock's PLL runs (R457): some domain it feeds is GATED or ON; DDRPHY's also in RETAIN; TRACE only with a
probe. -/
def State.pllRuns (s : State) (h : Half) (c : Nat) : Bool :=
  (clockFeeds c).any (fun d => s.domState h d ≥ (if c == 7 then 1 else 2)) && (c != 20 || s.board.probe)

/-- CLK_RUN and CLK_LOCK follow the domains from a state before: a PLL that starts locks, one that stops shows neither, and
one that has lost lock stays cut from its domains until it starts anew, as does a clock that has stopped until a domain it feeds comes
back (R457). -/
def State.clkFollow (s old : State) (h : Half) : State :=
  let b := B.clk h
  (List.range 22).foldl (fun s c =>
    let now := s.pllRuns h c
    let lock := if !now then false else if old.pllRuns h c then s.maskBit b F.CLK_LOCK_LOCK c else true
    let on := fun (x : State) => (clockFeeds c).any fun d => x.domState h d == 3
    let run := lock && on s && (!on old || s.maskBit b F.CLK_RUN_RUN c)
    (s.putMaskBit b F.CLK_LOCK_LOCK c lock).putMaskBit b F.CLK_RUN_RUN c run) s

/-- A domain's new state, with the clocks that follow it. -/
def State.setDom (s : State) (h : Half) (d st : Nat) : State := (s.put (B.pwr h) (domFld d) st).clkFollow s h

/-- HLINK is OFF by hardware while the other half is in reset, and back at its release (R450). -/
def State.hlinkFollow (s : State) (h : Half) : State :=
  if !s.coreUp h then s
  else if !s.coreUp h.other then s.setDom h 3 0
  else if s.domState h 3 == 0 then s.setDom h 3 3 else s

/-- The clocks of a Lantern as it leaves reset. -/
def State.clkStart (s : State) (h : Half) : State :=
  (List.range 22).foldl (fun s c =>
    (s.putMaskBit (B.clk h) F.CLK_LOCK_LOCK c (s.pllRuns h c)).putMaskBit (B.clk h) F.CLK_RUN_RUN c (s.pllRuns h c)) s

/-! ### What a reset clears (R424, R429, R432) -/

/-- What a formatter was asked to do ends with FORMAT_OFF as its wrapper closes (R432). DEDUCED (log 109). -/
def State.fmtFlush (s : State) (ai : Nat) : State :=
  let s := (s.opKill ai .formatOff).fmtEnd ai .formatOff []
  let f := s.fmt ai
  f.queue.foldl (fun s r => s.endReq ai r .formatOff []) (s.setFmt ai { f with queue := [] })

/-- A Wick at its state at reset: an accepted patch must be written again before it takes a descriptor (R178, R429). -/
def State.wickClear (s : State) (ai : Nat) : State :=
  let s := s.clearRange (wckB ai) (wckB ai + 0x10000)
  s.setWick ai { Wick.reset with patchDue := s.mcore.wickPatch.isSome }

/-- An HDA is no longer attached, and no sector of its media is trimmed. -/
def State.forgetHda (s : State) (hd : Nat) : State :=
  { s with
    attached := s.attached &&& (0xFF - 2 ^ hd)
    trims := (List.range 4).foldl (fun m k => smClear m ((4 * hd + k) * 2 ^ 40) ((4 * hd + k + 1) * 2 ^ 40)) s.trims }

/-- The units of an HDA's power domain (R450) at their state at reset, but for the rewrite queues with the work that waits for an entry (R157, R423,
R429): what the back-EMF shows is the
rotor's own. DESIGN CHOICE (log 108). -/
def State.hdaUnitsClear (s : State) (hd : Nat) : State :=
  let s := (s.dropTaper hd).dropBrake hd
  let emf := (s.spn hd).emf
  let s := (s.clearRange (grzB hd) (grzB hd + 0x10000)).clearRange (spnB hd) (spnB hd + 0x10000)
  let s := s.clearRange (brgB hd + F.BRG_SPN_MODE.off) (brgB hd + F.BRG_SPN_MODE.off + 4)
  let s := (s.setPort hd Grz.reset).setSpn hd { Spn.reset with emf := emf }
  ([2 * hd, 2 * hd + 1].foldl (fun s ai =>
    let f := s.fmt ai
    let s := (s.clearRange (srvB ai) (srvB ai + 0x10000)).clearRange (fmtB ai) (fmtB ai + 0x10000)
    let s := ((s.setSrv ai Srv.reset).setPa ai Preamp.reset).wickClear ai
    let s := (s.setFmt ai { Fmt.reset with spill := f.spill, relocWait := f.relocWait }).setRwq ai f.rwq
    if s.retracting ai then s.put (brgB hd) (vcmFld ai) 2 else s) s).forgetHda hd

/-- All of an HDA's set: its units and its eight channels (R429). -/
def State.hdaClear (s : State) (hd : Nat) : State :=
  (List.range 8).foldl (fun s k =>
    let ci := 8 * hd + k
    let b := B.rch (halfOf (ci / 32)) (ci % 32)
    (s.clearRange b (b + 0x10000)).setRch ci Rch.reset) (s.hdaUnitsClear hd)

/-- Whether a key of a table of media sectors belongs to a half. -/
def keyHalf (k : Nat) : Nat := k / 2 ^ 40 / 16

/-- Everything that a Lantern holds, at its state at reset (R429): registers, counters, rewrite queues, buffer memory and its
data, cache, namespace table, rings, logs, lamps, Chimney. -/
def State.lanternClear (s : State) (h : Half) : State :=
  let k := h.toNat
  let emfs := (List.range 4).map fun n => (4 * k + n, (s.spn (4 * k + n)).emf)
  let s := { s with board := { s.board with socketTripped := s.board.socketTripped &&& (0xFFFF - 0xFF * 256 ^ k) } }
  let s := s.clearRange (B.half h) (B.half h + 0x1000000)
  let two := fun (m : SMap Sector) => smClear m (16 * k * 2 ^ 40) (16 * (k + 1) * 2 ^ 40)
  let s := { s with
    collectors := smErase s.collectors k
    lamps := smClear s.lamps (256 * k) (256 * k + 256)
    lampHours := smErase s.lampHours k
    traces := smClear s.traces (0x10000 * k) (0x10000 * (k + 1))
    traceOut := smErase s.traceOut k
    traceTurn := smErase s.traceTurn k
    preamps := smClear s.preamps (8 * k) (8 * k + 8)
    ports := smClear s.ports (4 * k) (4 * k + 4)
    wicks := smClear s.wicks (8 * k) (8 * k + 8)
    rchs := smClear s.rchs (32 * k) (32 * k + 32)
    fmts := smClear s.fmts (8 * k) (8 * k + 8)
    srvs := smClear s.srvs (8 * k) (8 * k + 8)
    spns := smClear s.spns (4 * k) (4 * k + 4)
    staging := two s.staging
    parity := smClear s.parity (64 * k * 2 ^ 40) (64 * (k + 1) * 2 ^ 40)
    segment := two s.segment
    pinned := two s.pinned }
  let s := { s with
    dram := smClear s.dram (2 ^ 41 * k) (2 ^ 41 * (k + 1))
    mergeBytes := smClear s.mergeBytes (2 ^ 41 * k) (2 ^ 41 * (k + 1))
    cacheBytes := smClear s.cacheBytes (2 ^ 41 * k) (2 ^ 41 * (k + 1))
    resvs := smErase s.resvs k
    caches := smErase s.caches k
    poison := smClear s.poison (2 ^ 36 * k) (2 ^ 36 * (k + 1))
    garbage := smClear s.garbage (2 ^ 29 * k) (2 ^ 29 * (k + 1))
    answers := s.answers.filter fun (a : BufAnswer) => a.half != h
    waking := smClear s.waking (32 * k) (32 * k + 32)
    polOld := smClear s.polOld (32 * k) (32 * k + 32)
    sdms := smErase s.sdms k
    hifs := smErase s.hifs k }
  let s := { s with
    buffered := s.buffered.filter fun (b : BufWrite) => !b.groups.any fun g => g.1 / 8 == k
    opDone := s.opDone.filter fun (d : OpDone) => d.act / 8 != k
    coreriEvents := s.coreriEvents.filter fun (e : Nat × Nat) => e.1 / 8 != k
    trims := smClear s.trims (16 * k * 2 ^ 40) (16 * (k + 1) * 2 ^ 40)
    nsCaps := smClear s.nsCaps (64 * k) (64 * k + 64)
    attached := s.attached &&& (0xFF - 0xF * 16 ^ k)
    segLru := s.segLru.filter fun x => keyHalf x != k }
  let s := emfs.foldl (fun s e => s.setSpn e.1 { Spn.reset with emf := e.2 }) s
  let s := (List.range 4).foldl (fun s n => (s.dropTaper (4 * k + n)).dropBrake (4 * k + n)) s
  (List.range 8).foldl (fun s u =>
    let ai := actId h u
    let s := s.setWick ai { Wick.reset with patchDue := s.mcore.wickPatch.isSome }
    if s.retracting ai then s.put (brgB (actHda ai)) (vcmFld ai) 2 else s) s

/-- What Mantle keeps for a half as the half goes into reset (R411, R413, R429): the watchdog is DISARMED with its settings
at reset, requests and polls are gone; slots and failures stay. DEDUCED (log 105). DEDUCED (log 106). -/
def State.mantleHalfReset (s : State) (h : Half) : State :=
  let v := s.mh h.toNat
  let s := s.setMh h.toNat { MantleHalf.reset with failedSlot := v.failedSlot, bootHeld := v.bootHeld, lastGood := v.lastGood, nextSlot := v.nextSlot, slot := v.slot, kicked := v.kicked, bootFailed := v.bootFailed }
  let s := { s with mcore := { s.mcore with order := s.mcore.order.filter (· != h) } }
  let s := match s.mcore.intake with
    | some k => if k.half == h && !k.checking then s.intakeClose else s
    | none => s
  let s := (s.put B.mnt (wdState h) wdDisarmed).put B.mnt (wdKey h) 0
  let s := (s.put B.mnt (wdWarns h) 0).put B.mnt (wdPeriod h) 100
  s.put B.mnt (disagreeMask h) 0

/-- A Lantern and its motor die go into reset (R423, R424, R433): ownership is withdrawn, which starts the retracts; the other
half's requests are answered; then everything is cleared. -/
def State.halfDown (s : State) (h : Half) : State :=
  if !s.coreUp h then s
  else
    let s := s.withdrawHalf h 3
    let s := { s with up := s.up &&& (3 - 2 ^ h.toNat), motorUp := s.motorUp &&& (3 - 2 ^ h.toNat) }
    let s := s.peerLost h.other
    let s := (s.mantleHalfReset h).lanternClear h
    let bufs := s.buffered.map fun (b : BufWrite) => if b.port == h then { b with posted := true } else b
    let s := { s with buffered := bufs }
    (((s.linkShow).railShow h).patchSettle).hlinkFollow h.other

/-- MRST and every wider source forget the boot failures of both halves (R413). -/
def State.bootForget (s : State) : State :=
  let one := fun (s : State) (h : Half) =>
    s.setMh h.toNat { s.mh h.toNat with failedSlot := none, bootHeld := false, bootFailed := false }
  one (one s .a) .b

/-- What a source does as it asserts. -/
def State.srcEffect (s : State) (src : Source) : State :=
  match src with
  | .cold | .auxBo | .mrst => (s.bootForget.halfDown .a).halfDown .b
  | .mainBo =>
    let s := s.retractAll
    let s := { s with rails := [], board := { s.board with socketClosed := 0 } }
    (s.bootForget.halfDown .a).halfDown .b
  | .half h => s.halfDown h
  | .port h => (s.portLost h).portClear h
  | .hda hd =>
    let s := s.withdraw hd 3
    let s := (s.fmtFlush (2 * hd)).fmtFlush (2 * hd + 1)
    ((s.hdaClear hd).hostSettle).patchSettle
  | .block h c =>
    if c < 0x20 then
      let ci := chId h c
      let s := s.chAbort ci .channelOff
      let rest := ((s.rch ci).secs.zipIdx).filter fun e => e.1.phase != 5
      let s := rest.foldl (fun s e => s.chErased ci e.2 e.1 0xE 0 0 e.1.p0) s
      (s.clearRange (B.rch h c) (B.rch h c + 0x10000)).setRch ci Rch.reset
    else if c < 0x28 then
      let ai := actId h (c - 0x20)
      ((s.opKill ai .wickOff).wickClear ai).patchSettle
    else
      let s := (List.range 4).foldl (fun s c => s.sdmDisable h c 0 []) s
      (s.clearRange (B.sdm h) (B.sdm h + 0x10000)).setSdm h Sdm.reset

/-- The assertion of a source, with its sub-cause (R423, R430): covered in full it is only counted. -/
def State.assertSrc (s : State) (src : Source) (sub : Nat) : State :=
  if s.asserted.contains src then s
  else
    let drains := match src with | .hda _ => true | .block _ _ => true | _ => false
    let add := fun (s : State) =>
      ({ s with asserted := s.asserted ++ [src], draining := if drains then s.draining ++ [src] else s.draining }).lmpShow
    if s.covered src then add (s.satAdd B.lmp F.LMP_COVERED_COUNT 1)
    else add ((s.record src sub).srcEffect src)

/-! ### Releases (R425, R438, R440) -/

/-- The slot that Mantle boots a half from (R413). -/
def State.bootSlot (s : State) (h : Half) : Nat :=
  let v := s.mh h.toNat
  match v.nextSlot, v.failedSlot, v.lastGood with
  | some k, _, _ => k
  | none, some k, _ => 1 - k
  | none, none, some k => k
  | none, none, none => if s.strapBit 2 then 1 else 0

/-- Link training begins once the half is configured, its port out of reset, and PERST# deasserted (R436, R444). -/
def State.linkTrain (s : State) (h : Half) : State :=
  if s.outEnable h && !s.asserted.contains (.port h) && !s.board.perst.testBit h.toNat && s.get (B.hif h) F.HIF_STAT_LINK == 0
  then s.put (B.hif h) F.HIF_STAT_LINK 1 else s

/-- A Lantern and its motor die leave reset when nothing holds them (R424, R425, R438): Mantle begins the slot check, the
watchdog enters BOOT, and the harness ports restart (R440). -/
def State.releaseLantern (s : State) (h : Half) : State :=
  let railsGood := smGet 0 s.rails 0 == 0x3F && smGet 0 s.rails 1 == 0x3F
  if s.coreUp h || s.asserted.any (·.coversCore h) || !s.mantleUp || !railsGood || !s.board.chopTested ||
      !s.bit B.mnt F.MNT_STRAP_LATCHED || s.holdReason h != 0 then s
  else
    let s := { s with up := s.up ||| 2 ^ h.toNat, motorUp := s.motorUp ||| 2 ^ h.toNat }
    let slot := s.bootSlot h
    let s := s.setMh h.toNat { s.mh h.toNat with nextSlot := none, slot := slot, running := false, kicked := false, bootFailed := false }
    let s := s.put B.mnt (fwNext h) 0
    let s := (s.put B.mnt (wdState h) wdBoot).put B.mnt (wdKey h) 0
    let s := (List.range 4).foldl (fun s n => s.portRelease (hdaId h n)) s
    let s := (s.railShow h).lampSchedule h
    let s := s.putB (B.hif h) F.HIF_STAT_FAILOVER (s.strapBit 1)
    let s := s.put (B.hif h) F.HIF_REGIONCFG_MANTLE_UP 1
    ((((s.clkStart h).hlinkFollow h).hlinkFollow h.other).linkShow).lmpShow

/-- A source releases. A request of a request page shows DONE (R426). -/
def State.releaseSrc (s : State) (src : Source) : State :=
  let mine := s.board.reqOpen.filter fun e => e.2 == src
  let long := match src with | .mrst | .port _ | .block _ _ => false | _ => true
  let board := { s.board with reqOpen := s.board.reqOpen.filter fun e => !(e.2 == src)
                              causeTick := if long then none else s.board.causeTick }
  let s := { s with asserted := s.asserted.filter fun x => !(x == src), board := board }
  let s := mine.foldl (fun s e => if s.coreUp e.1 then s.put (B.pwr e.1) F.LMP_REQSTAT_STATE 2 else s) s
  s.lmpShow

/-- LANTERN_RELEASE (R438). -/
def lanternRelease (s : State) : State := (s.releaseLantern .a).releaseLantern .b

def execLanternRelease (s : State) : Host.Outcome State Fault Refusal := .next (lanternRelease s)

/-- MRST (R423): MRST_N low for 1 µs. DESIGN CHOICE (log 152). -/
def mrst (s : State) : State :=
  if !s.mantleUp then { s with board := { s.board with mrstLow := true } }
  else ({ s with board := { s.board with mrstLow := true } }).assertSrc .mrst 0

def execMrst (s : State) : Host.Outcome State Fault Refusal := .next (mrst s)

/-- MRST_RELEASE (R425). -/
def mrstRelease (s : State) : State :=
  lanternRelease (({ s with board := { s.board with mrstLow := false } }).releaseSrc .mrst)

def execMrstRelease (s : State) : Host.Outcome State Fault Refusal := .next (mrstRelease s)

/-- HALF_RELEASE (R425, R433). -/
def halfRelease (h : Half) (s : State) : State :=
  if s.asserted.contains (.half h) then (s.releaseSrc (.half h)).releaseLantern h else s

def execHalfRelease (h : Half) (s : State) : Host.Outcome State Fault Refusal := .next (halfRelease h s)

/-- Whether the main supply meets MAIN_BO's release condition, but for its 10 ms (R425). -/
def State.mainGood (s : State) : Bool :=
  s.board.hotSwap && s.board.rampEnded && s.board.psenLow && smGet 0 s.rails 0 == 0x3F && smGet 0 s.rails 1 == 0x3F

/-- MAIN_BO_RELEASE (R425). -/
def mainBoRelease (s : State) : State :=
  if s.asserted.contains .mainBo && s.mainGood then lanternRelease (s.releaseSrc .mainBo) else s

def execMainBoRelease (s : State) : Host.Outcome State Fault Refusal := .next (mainBoRelease s)

/-- HDA_RESET_RELEASE (R425, R440): the hold has passed and the wrappers have drained. -/
def hdaResetRelease (h : Half) (n : Nat) (s : State) : State :=
  let hd := hdaId h n
  let src : Source := .hda hd
  if !s.asserted.contains src || s.draining.contains src then s
  else
    let s := s.releaseSrc src
    if s.hdaUp hd then s.portRelease hd else s

def execHdaResetRelease (h : Half) (n : Nat) (s : State) : Host.Outcome State Fault Refusal :=
  .next (hdaResetRelease h n s)

/-- BLOCK_RELEASE (R425), by the code of R434. -/
def blockRelease (h : Half) (code : Nat) (s : State) : State :=
  let src : Source := .block h code
  if s.asserted.contains src && !s.draining.contains src then s.releaseSrc src else s

def execBlockRelease (h : Half) (code : Nat) (s : State) : Host.Outcome State Fault Refusal := .next (blockRelease h code s)

/-- WRAPPER_DRAINED (R432): the wrapper of a block of R434, or those of an HDA's set, code 0x40 + local HDA. -/
def wrapperDrained (h : Half) (code : Nat) (s : State) : State :=
  let src : Source := if code ≥ 0x40 then .hda (hdaId h (code % 4)) else .block h code
  { s with draining := s.draining.filter fun x => !(x == src) }

def execWrapperDrained (h : Half) (code : Nat) (s : State) : Host.Outcome State Fault Refusal :=
  .next (wrapperDrained h code s)

/-! ### Requests (R426, R434, R444) -/

/-- The source that a request names: kind 1 HALF, 2 HDA, 3 BLOCK; none where KIND or TARGET is not valid. -/
def requestSource (h : Half) (kind target : Nat) : Option Source :=
  if kind == 1 then (if target == 0 then some (.half h) else none)
  else if kind == 2 then (if target < 4 then some (.hda (hdaId h target)) else none)
  else if kind == 3 then (if target < 0x28 || target == 0x30 then some (.block h target) else none)
  else none

/-- Whether a source's target is dark (R35, R426 step 3). -/
def State.srcDark (s : State) : Source → Bool
  | .hda n => s.hdaDark n
  | .block .b c => s.strapBit 0 && c < 0x28
  | _ => false

/-- Whether the other half owns the HDA of a request (R426 step 4). -/
def State.srcOther (s : State) (h : Half) : Source → Bool
  | .hda n => s.owns h.other n
  | _ => false

/-- A request of a Chimney action (R426): steps 2 to 4 and 6. The answer is whether it was accepted. -/
def State.chimneyRequest (s : State) (h : Half) (kind target : Nat) : State × Bool :=
  match requestSource h kind target with
  | none => (s, false)
  | some src => if s.srcDark src || s.srcOther h src then (s, false) else (s.assertSrc src 3, true)

/-- A request of the half's firmware with GO = 1 (R426), decided in the order of its steps. -/
def State.resetRequest (s : State) (h : Half) (kind target key : Nat) : State :=
  if !s.coreUp h then s
  else
    let b := B.pwr h
    let s := ((s.put b F.LMP_REQ_KIND kind).put b F.LMP_REQ_TARGET target).put b F.LMP_REQ_KEY key
    let refuse := fun (s : State) (why : Nat) => (s.put b F.LMP_REQSTAT_STATE 3).put b F.LMP_REQSTAT_REASON why
    if key % 256 != 0x5C then refuse s 1
    else match requestSource h (kind % 4) (target % 256) with
      | none => refuse s 2
      | some src =>
        if s.srcDark src then refuse s 3
        else if s.srcOther h src then refuse s 4
        else if s.board.reqOpen.any (·.1 == h) then refuse s 5
        else
          let s := (s.put b F.LMP_REQSTAT_STATE 1).put b F.LMP_REQSTAT_REASON 0
          let s := { s with board := { s.board with reqOpen := s.board.reqOpen ++ [(h, src)] } }
          s.assertSrc src 2

def execHalfResetRequest (h : Half) (target key : Nat) (s : State) : Host.Outcome State Fault Refusal :=
  .next (s.resetRequest h 1 target key)
def execHdaResetRequest (h : Half) (target key : Nat) (s : State) : Host.Outcome State Fault Refusal :=
  .next (s.resetRequest h 2 target key)
def execBlockResetRequest (h : Half) (target key : Nat) (s : State) : Host.Outcome State Fault Refusal :=
  .next (s.resetRequest h 3 target key)

/-- CONFIGURED (R435, R444): the outputs are enabled, and the port may train. -/
def configured (h : Half) (s : State) : State :=
  if !s.coreUp h then s
  else
    let s := s.flag (B.pwr h) F.LMP_CONFIG_CONFIGURED
    let s := (List.range 8).foldl (fun s u => s.vcmShow (actId h u)) s
    let s := (List.range 4).foldl (fun s n => s.showBridge (hdaId h n)) s
    ((s.linkTrain h).probeShow h).lmpShow

def execConfigured (h : Half) (s : State) : Host.Outcome State Fault Refusal := .next (configured h s)

/-! ### Watchdog stage 2 and the boot (R412, R413) -/

/-- A boot fails (R413): once for a boot; when the boots of both slots have failed the half is held, with an event, a message
and MOD_FAULT_N low. -/
def State.bootFail (s : State) (h : Half) : State :=
  let v := s.mh h.toNat
  if v.kicked || v.bootFailed then s
  else
    let both := v.failedSlot == some (1 - v.slot)
    let s := s.setMh h.toNat { v with bootFailed := true, failedSlot := some v.slot, bootHeld := both, running := false }
    if both then (s.event 0x0061 h.toNat v.slot 0).mantleMsg h 29 1 58 v.slot else s

/-- WD_STAGE2 (R412): the grace, or the boot window without a first correct kick, has ended. -/
def wdStage2 (h : Half) (s : State) : State :=
  let st := s.get B.mnt (wdState h)
  if !(st == wdWarned || (st == wdBoot && !(s.mh h.toNat).kicked)) then s
  else
    let s := s.withdrawHalf h 4
    let s := (s.satAdd B.mnt F.MNT_CNT_WDEXP_COUNT 1).event 0x0041 h.toNat 0 0
    let s := s.mantleMsg h 28 h.toNat 55 1
    (s.bootFail h).assertSrc (.half h) 1

def execWdStage2 (h : Half) (s : State) : Host.Outcome State Fault Refusal := .next (wdStage2 h s)

/-- Whether the check of a half's boot slot passes (R413): as R416 gives for TYPE 1 without the comparison of its SVN. Whether a slot
that no INTAKE_CHECK has written holds an image is the command's word. DESIGN CHOICE (log 75). -/
def State.slotPasses (s : State) (slot : Nat) (ok : Bool) : Bool :=
  match smFind s.mcore.slots slot with
  | some img => s.imageGenuine 1 img.bytes == 0
  | none => ok

/-- SLOT_CHECK_DONE (R413): the firmware runs, or the boot fails; a half whose boots of both slots have failed goes back into
reset, where Mantle holds it. DEDUCED (log 107). -/
def slotCheckDone (h : Half) (ok : Bool) (s : State) : State :=
  let v := s.mh h.toNat
  if !s.coreUp h || v.running || v.bootFailed || !s.mantleUp then s
  else if s.slotPasses v.slot ok then (s.setMh h.toNat { v with running := true }).put B.mnt (fwRun h) v.slot
  else
    let s := s.bootFail h
    if (s.mh h.toNat).bootHeld then (s.halfDown h).lmpShow else s

def execSlotCheckDone (h : Half) (ok : Bool) (s : State) : Host.Outcome State Fault Refusal := .next (slotCheckDone h ok s)

/-! ### Cold power-on and aux brown-out (R425, R427, R429) -/

/-- Mantle and everything else at the state of COLD; what survives is what has no source that clears it: accepted images,
slot validity and fuses (R429), the pins, the rotors, and what lies outside the module. DEDUCED (log 110). -/
def State.coldClear (s : State) (src : Source) : State :=
  let o := s.board
  let s' : State := { State.reset with
    pending := s.pending, free := s.free, asserted := [src], hostMem := s.hostMem, msis := s.msis
    board := { (default : Board) with
      auxGood := o.auxGood, psenLow := o.psenLow, mrstLow := o.mrstLow, pins := o.pins, probe := o.probe
      perst := o.perst, cableOut := o.cableOut, cableRef := o.cableRef, halfLinkDown := o.halfLinkDown }
    mcore := { State.reset.mcore with slots := s.mcore.slots, wickPatch := s.mcore.wickPatch, mantlePatch := s.mcore.mantlePatch } }
  let s' := (List.range 8).foldl (fun t hd => t.setSpn hd { Spn.reset with emf := (s.spn hd).emf }) s'
  let keep := [fwValid 0, fwValid 1, fwSvn 0, fwSvn 1, F.MNT_SVNMIN_FW, F.MNT_SVNMIN_MANTLE, F.MNT_SVNMIN_WICK,
    F.MNT_KEYS_REVOKED, F.MNT_ID_PATCH_LEVEL]
  let s' := keep.foldl (fun t f => t.put B.mnt f (s.get B.mnt f)) s'
  s'.lmpShow

/-- AUX_POWER_GOOD (R41): the strap measurement timeline starts while COLD or AUX_BO is asserted. -/
def auxPowerGood (s : State) : State :=
  let run := s.asserted.contains Source.cold || s.asserted.contains Source.auxBo
  { s with board := { s.board with auxGood := true, strapRun := s.board.strapRun || run,
                                   conversions := if run then [] else s.board.conversions } }

def execAuxPowerGood (s : State) : Host.Outcome State Fault Refusal := .next (auxPowerGood s)

/-- COLD (R423): Mantle's rail rises from below 1.0 V. -/
def cold (s : State) : State :=
  let s := s.coldClear .cold
  { s with board := { s.board with strapRun := s.board.auxGood } }

def execCold (s : State) : Host.Outcome State Fault Refusal := .next (cold s)

/-- MRST_N and PERST# pins that are low as COLD or AUX_BO is about to release assert their sources, which the wider one still
covers (R423, R424, R430). DEDUCED (log 155). -/
def State.pinSources (s : State) : State :=
  let s := if s.board.mrstLow then s.assertSrc .mrst 0 else s
  let one := fun (s : State) (h : Half) => if s.board.perst.testBit h.toNat then s.assertSrc (.port h) 4 else s
  one (one s .a) .b

/-- COLD_RELEASE (R425). -/
def coldRelease (s : State) : State :=
  if s.asserted.contains Source.cold && s.board.auxGood then s.pinSources.releaseSrc .cold else s

def execColdRelease (s : State) : Host.Outcome State Fault Refusal := .next (coldRelease s)

/-- AUX_BO (R26, R427): the retracts start, the Lanterns and motor dies go into reset, the hot-swap switch opens. It is
recorded as its reset completes. -/
def auxBo (s : State) : State :=
  if s.asserted.contains Source.auxBo || s.asserted.contains Source.cold then { s with board := { s.board with auxGood := false } }
  else
    let b := { s.board with auxGood := false, hotSwap := false, rampEnded := false, backfeedBlocked := true, mainBoArmed := false }
    let s := ({ s with board := b }).retractAll
    let s := s.srcEffect .auxBo
    let s := { s with rails := [], asserted := s.asserted ++ [Source.auxBo], mcore := { s.mcore with auxBoPending := true } }
    s.lmpShow

def execAuxBo (s : State) : Host.Outcome State Fault Refusal := .next (auxBo s)

/-- AUX_BO_MANTLE_RESET (R427): every retract has ended, and the reset reaches Mantle. -/
def auxBoMantleReset (s : State) : State :=
  if !s.asserted.contains Source.auxBo || !s.mcore.auxBoPending || s.get B.mnt F.MNT_RETACT_ACTIVE != 0 then s
  else
    let t := s.coldClear .auxBo
    { t with board := { t.board with strapRun := t.board.auxGood } }

def execAuxBoMantleReset (s : State) : Host.Outcome State Fault Refusal := .next (auxBoMantleReset s)

/-- AUX_BO_RELEASE (R425, R443): the cause is written as the reset completes. -/
def auxBoRelease (s : State) : State :=
  if s.asserted.contains Source.auxBo && !s.mcore.auxBoPending && s.board.auxGood then
    (s.pinSources.releaseSrc .auxBo).put B.lmp F.LMP_CAUSE_SOURCE 2
  else s

def execAuxBoRelease (s : State) : Host.Outcome State Fault Refusal := .next (auxBoRelease s)

/-- MANTLE_RAIL_LOSS (R393, R427): with AUX_3V3 absent the bus no longer holds Mantle's rail; what it was doing stops, and the
next rise of the rail is a COLD. DEDUCED (log 111). -/
def mantleRailLoss (s : State) : State := if s.board.auxGood then s else s.coldClear .cold

def execMantleRailLoss (s : State) : Host.Outcome State Fault Refusal := .next (mantleRailLoss s)

/-! ### The strap (R22, R38 to R43) -/

/-- The code of a resistance in ohms (R39). Code 0 ends below 300 ohm and code 15 begins above 200 kohm; a resistance on a
boundary that two windows share takes the upper code. DESIGN CHOICE (log 156). -/
def strapCode (ohm : Nat) : Nat :=
  ([300, 1410, 2450, 3560, 4870, 6340, 8060, 10200, 13000, 16600, 21300, 27700, 36500, 50500, 200001].filter (· ≤ ohm)).length

/-- STRAP_CONVERSION (R41): one of the eight conversions of a set, with the resistance that the converter sees.
DEDUCED (log 112). -/
def strapConversion (ohm : Nat) (s : State) : State :=
  if !s.mantleUp || !s.board.strapRun || s.board.conversions.length ≥ 8 then s
  else { s with board := { s.board with conversions := s.board.conversions ++ [strapCode ohm] } }

def execStrapConversion (ohm : Nat) (s : State) : Host.Outcome State Fault Refusal := .next (strapConversion ohm s)

/-- STRAP_SET_END (R22, R41, R42, R476): all eight agree and the code is latched, or the strap-unstable hold stands. The fitted
lid is compared with b3 of the code latched. -/
def strapSetEnd (coldPlate : Bool) (s : State) : State :=
  let l := s.board.conversions
  if !s.mantleUp || !s.board.strapRun || l.length != 8 then s
  else
    let c := l.headD 0
    let agree := l.all (· == c)
    let first := !s.board.firstSet
    let s := { s with board := { s.board with strapRun := false, conversions := [], firstSet := true } }
    let s := if first then s.event 0x0001 (s.get B.lmp F.LMP_CAUSE_SOURCE) (if agree then c else 0xFF) (s.word B.mnt).toNat
      else s
    let s := s.putB B.mnt F.MNT_STRAP_LID coldPlate
    let s := if agree then
        let s := ((s.put B.mnt F.MNT_STRAP_CODE c).put B.mnt F.MNT_STRAP_LATCHED 1).put B.mnt F.MNT_STRAP_UNSTABLE 0
        let s := s.putB B.mnt F.MNT_FWSLOT_FIRST (c.testBit 2)
        if c.testBit 3 == coldPlate then s
        else
          let s := s.put B.mnt F.MNT_STRAP_MISMATCH 1
          (s.event 0x0010 (if coldPlate then 1 else 0) c 0).mantleMsg .a 30 0 59 0
      else
        let s := (s.put B.mnt F.MNT_STRAP_UNSTABLE 1).satAdd B.mnt F.MNT_STRAP_FAILSETS 1
        (s.event 0x0011 0 0 0).mantleMsg .a 30 0 59 1
    s.lmpShow

def execStrapSetEnd (coldPlate : Bool) (s : State) : Host.Outcome State Fault Refusal := .next (strapSetEnd coldPlate s)

/-- STRAP_RETRY (R42). -/
def strapRetry (s : State) : State :=
  if s.mantleUp && s.bit B.mnt F.MNT_STRAP_UNSTABLE && !s.board.strapRun then
    { s with board := { s.board with strapRun := true, conversions := [] } }
  else s

def execStrapRetry (s : State) : Host.Outcome State Fault Refusal := .next (strapRetry s)

/-! ### The main supply (R25, R26, R428, R446) -/

/-- HOT_SWAP_CLOSE (R25): the module is seated, and AUX_3V3 has been good for 10 ms. DEDUCED (log 103). -/
def hotSwapClose (s : State) : State :=
  if s.board.auxGood && s.mantleUp && !s.mcore.auxBoPending && s.bit B.mnt F.MNT_STRAP_LATCHED && !s.board.hotSwap then
    { s with board := { s.board with psenLow := true, hotSwap := true, rampEnded := false, backfeedBlocked := false } }
  else s

def execHotSwapClose (s : State) : Host.Outcome State Fault Refusal := .next (hotSwapClose s)

/-- HOT_SWAP_RAMP_END (R26, R446, R509). DEDUCED (log 104). -/
def hotSwapRampEnd (s : State) : State :=
  if s.board.hotSwap && !s.board.rampEnded then
    { s with board := { s.board with rampEnded := true, mainBoArmed := true } }
  else s

def execHotSwapRampEnd (s : State) : Host.Outcome State Fault Refusal := .next (hotSwapRampEnd s)

/-- RAIL_GOOD (R446): a Lantern rail is good, and the next is enabled. -/
def railGood (h : Half) (rail : Nat) (s : State) : State :=
  let m := smGet 0 s.rails h.toNat
  if !s.board.rampEnded || rail ≥ 6 || m != 2 ^ rail - 1 then s
  else ({ s with rails := smPut 0 s.rails h.toNat (m + 2 ^ rail) }).railShow h

def execRailGood (h : Half) (rail : Nat) (s : State) : Host.Outcome State Fault Refusal := .next (railGood h rail s)

/-- MOD_PG (R24): the 12 V input and every internal rail are good. -/
def State.modPg (s : State) : Bool := s.mainGood

/-- PSEN_N_HIGH (R26, R407, R428): the switch opens, back-feed is blocked, the retracts start; MAIN_BO asserts with
sub-cause REMOVAL when it is armed (R509). -/
def psenNHigh (s : State) : State :=
  let b := { s.board with psenLow := false, hotSwap := false, rampEnded := false, backfeedBlocked := true }
  let s := ({ s with board := b }).retractAll
  let s := if s.board.mainBoArmed then s.assertSrc .mainBo 7 else s
  { s with rails := [] }

def execPsenNHigh (s : State) : Host.Outcome State Fault Refusal := .next (psenNHigh s)

/-- BUS_BROWN_OUT (R423, R428, R509). -/
def busBrownOut (s : State) : State := if s.board.mainBoArmed then s.assertSrc .mainBo 0 else s

def execBusBrownOut (s : State) : Host.Outcome State Fault Refusal := .next (busBrownOut s)

/-! ### Host ports (R28, R318, R319, R364) -/

/-- The link of a port leaves the up state. -/
def State.linkLost (s : State) (h : Half) : State :=
  if s.get (B.hif h) F.HIF_STAT_LINK == 2 then (s.put (B.hif h) F.HIF_STAT_LINK 0).flag (B.hif h) F.HIF_EVENTS_LINK_DOWN
  else s

/-- PERST_ASSERT (R28, R423): with the link up it is a surprise removal first. -/
def perstAssert (h : Half) (s : State) : State :=
  let up := s.get (B.hif h) F.HIF_STAT_LINK == 2
  let s := { s with board := { s.board with perst := s.board.perst ||| 2 ^ h.toNat } }
  if !s.mantleUp then s
  else
    let s := if up && s.coreUp h then (s.surprise h).linkLost h else s
    s.assertSrc (.port h) 4

def execPerstAssert (h : Half) (s : State) : Host.Outcome State Fault Refusal := .next (perstAssert h s)

/-- HOT_RESET (R319): received in band, it acts as PERST#. DEDUCED (log 101). -/
def hotReset (h : Half) (s : State) : State := if s.mantleUp then s.assertSrc (.port h) 5 else s
def execHotReset (h : Half) (s : State) : Host.Outcome State Fault Refusal := .next (hotReset h s)

/-- FLR (R319). -/
def flr (h : Half) (s : State) : State := if s.mantleUp then s.assertSrc (.port h) 6 else s
def execFlr (h : Half) (s : State) : Host.Outcome State Fault Refusal := .next (flr h s)

/-- PORT_RELEASE (R425): PERST# is deasserted, or the hold of a hot reset or an FLR has ended. -/
def portResetRelease (h : Half) (s : State) : State :=
  let s := { s with board := { s.board with perst := s.board.perst &&& (3 - 2 ^ h.toNat) } }
  if s.asserted.contains (.port h) then (s.releaseSrc (.port h)).linkTrain h else s.linkTrain h

def execPortRelease (h : Half) (s : State) : Host.Outcome State Fault Refusal := .next (portResetRelease h s)

/-- CABLE_PRESENCE_HIGH (R28): a surprise removal. -/
def cablePresenceHigh (h : Half) (s : State) : State :=
  let s := { s with board := { s.board with cableOut := s.board.cableOut ||| 2 ^ h.toNat } }
  if s.coreUp h then (s.surprise h).linkLost h else s

def execCablePresenceHigh (h : Half) (s : State) : Host.Outcome State Fault Refusal := .next (cablePresenceHigh h s)

/-- LINK_DOWN (R319): the data link layer leaves the up state. -/
def linkDown (h : Half) (s : State) : State :=
  if !s.coreUp h || s.get (B.hif h) F.HIF_STAT_LINK != 2 then s
  else ({ s with board := { s.board with dlDown := s.board.dlDown ||| 2 ^ h.toNat } }).linkLost h

def execLinkDown (h : Half) (s : State) : Host.Outcome State Fault Refusal := .next (linkDown h s)

/-- LINK_DOWN_TIMEOUT (R319): out of the up state for 10 ms. -/
def linkDownTimeout (h : Half) (s : State) : State :=
  if s.board.dlDown.testBit h.toNat && s.coreUp h then
    ({ s with board := { s.board with dlDown := s.board.dlDown &&& (3 - 2 ^ h.toNat) } }).surprise h
  else s

def execLinkDownTimeout (h : Half) (s : State) : Host.Outcome State Fault Refusal := .next (linkDownTimeout h s)

/-- LINK_TRAINED (R318): the link is up at a SPEED (0 64, 1 32, 2 16 GT/s), x8 or x16, in FLIT mode or not. Below 64 GT/s or
below x16 it is SPEED_DOWN. `cable` says whether the cable reference was present as training started (R458). The port runs
again. -/
def linkTrained (h : Half) (speed : Nat) (x8 flit cable : Bool) (s : State) : State :=
  let ref := s.get (B.clk h) F.CLK_REFCFG_PCIE_REF
  if !s.outEnable h || s.asserted.contains (.port h) || s.board.perst.testBit h.toNat || speed > 2 ||
      (ref == 1 && !cable) then s
  else
    let b := B.hif h
    let s := s.putB (B.clk h) F.CLK_REFCFG_CABLE (ref != 2 && cable)
    let brd := { s.board with dlDown := s.board.dlDown &&& (3 - 2 ^ h.toNat),
                              cableRef := (s.board.cableRef &&& (3 - 2 ^ h.toNat)) + (if cable then 2 ^ h.toNat else 0),
                              cableOut := s.board.cableOut &&& (3 - 2 ^ h.toNat) }
    let s := ({ s with board := brd }).setHif h { s.hif h with stopped := false }
    let s := ((s.put b F.HIF_STAT_LINK 2).put b F.HIF_STAT_SPEED speed).putB b F.HIF_STAT_WIDTH x8
    let s := s.putB b F.HIF_STAT_FLIT flit
    if speed == 0 && !x8 then s
    else (s.flag b F.HIF_EVENTS_SPEED_DOWN).chimney h 1 0 25 (speed + (if x8 then 4 else 0))

def execLinkTrained (h : Half) (speed : Nat) (x8 flit cable : Bool) (s : State) : Host.Outcome State Fault Refusal :=
  .next (linkTrained h speed x8 flit cable s)

/-! ### Sockets and probe (R30, R36) -/

/-- SOCKET_TRIP (R30): the switch opens, the trip is reported and not retried until software clears SWITCH_TRIP. -/
def socketTrip (h : Half) (n : Nat) (s : State) : State :=
  let k := 2 ^ (8 * h.toNat + n)
  if n ≥ 8 || !s.board.socketClosed.testBit (8 * h.toNat + n) then s
  else
    let b := { s.board with socketClosed := s.board.socketClosed - k, socketTripped := s.board.socketTripped ||| k }
    let s := { s with board := b }
    if s.coreUp h then (s.flag (B.buf h n) F.BUF_CHEVENTS_SWITCH_TRIP).chimney h 3 n 21 0 else s

def execSocketTrip (h : Half) (n : Nat) (s : State) : Host.Outcome State Fault Refusal := .next (socketTrip h n s)

/-- TRACE_PROBE_CHANGE (R36). -/
def traceProbeChange (low : Bool) (s : State) : State :=
  let t := { s with board := { s.board with probe := low } }
  let one := fun (t : State) (h : Half) => if t.coreUp h then (t.clkFollow s h).probeShow h else t
  one (one t .a) .b

def execTraceProbeChange (low : Bool) (s : State) : Host.Outcome State Fault Refusal := .next (traceProbeChange low s)

end Sys2Proof.Machine
end

