-- ==== Sys2Proof/Machine/Power.lean ====
section
/-! DEFINITION. Power domains, the policy and the meter, clocks, and the Glim time base (R447 to R465). -/

namespace Sys2Proof.Machine

/-! ### Domains (R448, R450, R451, R464) -/

/-- The states that a domain has (R451). -/
def domStates (d : Nat) : List Nat :=
  if d == 0 then [3] else if d == 1 then [1, 2, 3] else if d == 2 || d == 4 then [2, 3] else if d == 3 then [0, 2, 3]
  else if d ≤ 12 then [0, 3] else if d ≤ 21 then [0, 1, 2, 3] else [0, 2, 3]

/-- Whether the policy switches a domain (R450). -/
def domPolicy (d : Nat) : Bool := 1 ≤ d && d ≤ 25 && !(5 ≤ d && d ≤ 12)

/-- The policy register of a domain (R464). -/
def polB (h : Half) (d : Nat) : Nat := B.pwr h + 4 * d - 4

/-- FLOOR of a policy word: a state that the domain does not have acts as the next higher one it has (R464). -/
def domFloorOf (d w : Nat) : Nat := ((domStates d).find? (· ≥ w % 4)).getD 3

/-- FLOOR in force. -/
def State.domFloor (s : State) (h : Half) (d : Nat) : Nat := domFloorOf d (s.get (polB h d) F.PWR_POL1_FLOOR)

/-- Busy indications of the blocks of a domain (R52, R448). -/
def State.domBusy (s : State) (h : Half) (d : Nat) : Bool :=
  if d == 2 then s.bit (B.hif h) F.HIF_STAT_BUSY || s.bit (B.sdm h) F.SDM_STAT_BUSY || (s.sdm h).turn.isSome
  else if d == 4 then s.bit (B.bca h) F.BCA_STAT_BUSY
  else if d == 13 then s.bit (B.buf h 0) F.BUF_STAT_BUSY
  else if 14 ≤ d && d ≤ 21 then (List.range 4).any fun k => s.chBusy (chId h (4 * (d - 14) + k))
  else if 22 ≤ d then
    let hd := hdaId h (d - 22)
    s.grzBusy hd || s.bit (spnB hd) F.SPN_STAT_BUSY || [2 * hd, 2 * hd + 1].any fun ai =>
      s.bit (srvB ai) F.SRV_STAT_BUSY || s.bit (fmtB ai) F.FMT_STAT_BUSY || s.bit (wckB ai) F.WCK_STAT_BUSY
  else false

/-- A power-down refused (R451): REFUSED, with the domain and the reason. -/
def State.domRefuse (s : State) (h : Half) (d why : Nat) : State :=
  ((s.flag (B.pwr h) F.PWR_EVENTS_REFUSED).put (B.pwr h) F.PWR_REFUSE_DOMAIN d).put (B.pwr h) F.PWR_REFUSE_REASON why

/-- Why an HDA's domain may not be GATED (R451): 1 not stopped or parked, 2 a formatter busy. -/
def State.hdaNoGate (s : State) (hd : Nat) : Nat :=
  let sp := s.spnState hd
  let parked := [2 * hd, 2 * hd + 1].all fun ai => s.srvState ai == svOff || s.srvState ai == svParked
  if !(sp == spOff || sp == spStopped || sp == spFailed) || !parked then 1
  else if s.bit (fmtB (2 * hd)) F.FMT_STAT_BUSY || s.bit (fmtB (2 * hd + 1)) F.FMT_STAT_BUSY then 2
  else 0

/-- The policy words that an idle period of some microseconds answers to: the present one and those that a write replaced since it
began, as a lowered FLOOR or a shortened timer applies from the next idle period (R464). -/
def State.polWords (s : State) (h : Half) (d us : Nat) : List Nat :=
  (s.word (polB h d + F.PWR_POL1_FLOOR.off)).toNat ::
    ((smGet [] s.polOld (32 * h.toNat + d)).filter fun e => s.usTime < e.2 + us).map (·.1)

/-- Whether all timers of an idle period, none of them 0, have run: T_GATE, and with `deep` T_DEEP after it (R448, R464). -/
def State.polRun (s : State) (h : Half) (d us : Nat) (deep : Bool) : Bool :=
  (s.polWords h d us).all fun w =>
    let gate := w / 16 % 256
    let more := w / 65536 % 65536
    gate != 0 && if deep then more != 0 && gate + 1000 * more ≤ us else gate ≤ us

/-- The highest FLOOR of an idle period (R464). -/
def State.polFloor (s : State) (h : Half) (d us : Nat) : Nat :=
  ((s.polWords h d us).map (domFloorOf d)).foldl max 0

/-- DOMAIN_GATE (R448): idle for `us` microseconds, at least T_GATE. What R451 puts against GATED is refused before it is judged
idle. DEDUCED (log 116). -/
def domainGate (h : Half) (d us : Nat) (s : State) : State :=
  if !domPolicy d || !s.coreUp h || s.domState h d != 3 || s.bit (polB h d) F.PWR_POL1_HOLD || !s.polRun h d us false ||
      s.polFloor h d us == 3 || smGet false s.waking (32 * h.toNat + d) then s
  else
    let why := if 22 ≤ d then s.hdaNoGate (hdaId h (d - 22)) else 0
    if why != 0 then s.domRefuse h d why
    else if s.domBusy h d then s
    else s.setDom h d 2

def execDomainGate (h : Half) (d us : Nat) (s : State) : Host.Outcome State Fault Refusal := .next (domainGate h d us s)

/-- What a domain loses as it enters RETAIN or OFF (R451). DESIGN CHOICE (log 183). -/
def State.domLose (s : State) (h : Half) (d st : Nat) : State :=
  if 14 ≤ d && d ≤ 21 then
    (List.range 4).foldl (fun s k =>
      let n := 4 * (d - 14) + k
      let lost : SMap SampleSlot := (List.range 4).map fun i => (i, { seed := some (s.free + i), have_ := slotLen, prev := none })
      let s := { s with free := s.free + 4 }
      let c := s.rch (chId h n)
      if st == 0 then
        (s.clearRange (B.rch h n + 0x1000) (B.rch h n + 0x10000)).setRch (chId h n) { Rch.reset with slots := lost }
      else s.setRch (chId h n) { c with secs := [], slots := lost }) s
  else if 22 ≤ d && st == 0 then s.hdaUnitsClear (hdaId h (d - 22))
  else if d == 13 && st == 0 then
    let k := h.toNat
    { s.setResv h Resv.reset with
      dram := smClear s.dram (2 ^ 41 * k) (2 ^ 41 * (k + 1))
      mergeBytes := smClear s.mergeBytes (2 ^ 41 * k) (2 ^ 41 * (k + 1))
      poison := smClear s.poison (2 ^ 36 * k) (2 ^ 36 * (k + 1))
      garbage := smClear s.garbage (2 ^ 29 * k) (2 ^ 29 * (k + 1)) }.clearRange (B.buf h 0) (B.buf h 0 + 0x80000)
  else s

/-- A domain enters a state below GATED. -/
def State.domDrop (s : State) (h : Half) (d st : Nat) : State := (s.domLose h d st).setDom h d st

/-- The state that a domain may drop to, for a FLOOR, and the reason for which it stays above it, 0 for none (R451). -/
def State.domDeep (s : State) (h : Half) (d f : Nat) : Nat × Nat :=
  if d == 13 then
    let active := !(s.resv h).merge.isEmpty || !(s.resv h).fills.isEmpty || (s.resv h).retire.isSome
    let st := s.get (B.buf h 0) F.BUF_STAT_STATE
    if f ≤ 1 && active then (2, 6)
    else if f == 0 && !(st == 0 || st == 4) then (1, 5)
    else (f, 0)
  else if 22 ≤ d && f == 0 then
    let hd := hdaId h (d - 22)
    if !(s.portState hd == 0 || s.portState hd == 5) then (2, 4)
    else if !(s.fmt (2 * hd)).rwq.isEmpty || !(s.fmt (2 * hd + 1)).rwq.isEmpty then (2, 3)
    else (f, 0)
  else (f, 0)

/-- DOMAIN_FLOOR (R448, R451): idle for `us` microseconds in all, T_GATE and then T_DEEP. -/
def domainFloor (h : Half) (d us : Nat) (s : State) : State :=
  if !domPolicy d || !s.coreUp h || s.domState h d != 2 || s.bit (polB h d) F.PWR_POL1_HOLD || !s.polRun h d us true ||
      s.polFloor h d us ≥ 2 || s.domBusy h d || smGet false s.waking (32 * h.toNat + d) then s
  else
    let (st, why) := s.domDeep h d (s.polFloor h d us)
    let s := if why != 0 then s.domRefuse h d why else s
    if st < 2 then s.domDrop h d st else s

def execDomainFloor (h : Half) (d us : Nat) (s : State) : Host.Outcome State Fault Refusal := .next (domainFloor h d us s)

/-- DOMAIN_WAKE (R450): a demand. `late` says that it met a power-down past isolation: the power-down completes first. -/
def domainWake (h : Half) (d : Nat) (late : Bool) (s : State) : State :=
  if !domPolicy d || !s.coreUp h then s
  else if late && s.domState h d == 2 && s.domFloor h d < 2 && (s.domDeep h d (s.domFloor h d)).1 < 2 then
    let s := s.domDrop h d (s.domDeep h d (s.domFloor h d)).1
    let s := (s.flag (B.pwr h) F.PWR_EVENTS_LATE_WAKE).count (B.pwr h) F.PWR_CNT_LATE_COUNT h 585 1
    s.demand h d
  else s.demand h d

def execDomainWake (h : Half) (d : Nat) (late : Bool) (s : State) : Host.Outcome State Fault Refusal :=
  .next (domainWake h d late s)

/-- DOMAIN_WAKE_DONE (R451): the domain is ON. An HDA's port that leaves OFF starts in ABSENT. -/
def domainWakeDone (h : Half) (d : Nat) (s : State) : State :=
  let k := 32 * h.toNat + d
  if !smGet false s.waking k || !s.coreUp h then s
  else
    let off := s.domState h d == 0
    let s := { s with waking := smPut false s.waking k false }
    let s := s.setDom h d 3
    if off && 22 ≤ d then s.portRelease (hdaId h (d - 22)) else s

def execDomainWakeDone (h : Half) (d : Nat) (s : State) : Host.Outcome State Fault Refusal := .next (domainWakeDone h d s)

/-- POLICY_WRITE (R464): HOLD, or a FLOOR above the present state, acts as a demand; the word replaced stands beside the new one
for the rest of the domain's idle period. -/
def State.policyWrite (s : State) (h : Half) (d : Nat) (w : Word) : State :=
  if !domPolicy d || !s.coreUp h then s
  else
    let p := polB h d
    let k := 32 * h.toNat + d
    let old := if s.domBusy h d then [] else
      smGet [] s.polOld k ++ [((s.word (p + F.PWR_POL1_FLOOR.off)).toNat, s.usTime)]
    let s := { s with polOld := smPut [] s.polOld k old }
    let v := w.toNat
    let s := ((s.put p F.PWR_POL1_FLOOR v).put p F.PWR_POL1_HOLD (v / 4)).put p F.PWR_POL1_T_GATE (v / 16)
    let s := s.put p F.PWR_POL1_T_DEEP (v / 65536)
    if s.bit p F.PWR_POL1_HOLD || s.domFloor h d > s.domState h d then s.demand h d else s

def execPolicyWrite (h : Half) (d : Nat) (w : Word) (s : State) : Host.Outcome State Fault Refusal :=
  .next (s.policyWrite h d w)

/-! ### Rails and the meter (R447, R453) -/

/-- RAIL_FAULT (R447). DEDUCED (log 114). -/
def railFault (h : Half) (rail : Nat) (s : State) : State :=
  if rail ≥ 6 || !s.coreUp h then s
  else ((s.flag (B.pwr h) F.PWR_EVENTS_RAIL_FAULT).put (B.pwr h) F.PWR_RAIL_FAULT (2 ^ rail)).mantleMsg h 13 0 48 (2 ^ rail)

def execRailFault (h : Half) (rail : Nat) (s : State) : Host.Outcome State Fault Refusal := .next (railFault h rail s)

/-- METER_OVER (R453): the 1 ms mean of a half's power, in 0.1 W, has been measured; above 120.0 W it is reported.
DEDUCED (log 117). -/
def meterOver (h : Half) (mean : Nat) (s : State) : State :=
  if !s.coreUp h then s
  else
    let m := min mean 0xFFFF
    let s := s.put (B.pwr h) F.PWR_HALFP_MEAN m
    if m > 1200 then (s.flag (B.pwr h) F.PWR_EVENTS_METER_OVER).chimney h 13 0 32 m else s

def execMeterOver (h : Half) (mean : Nat) (s : State) : Host.Outcome State Fault Refusal := .next (meterOver h mean s)

/-! ### Clocks (R456 to R458) -/

/-- PLL_UNLOCK (R457): the PLL is cut from its domains, counted and reported; of SRV, FMT, SPN, GRZ and MOTLINK it is a
Mantle-level fault. DEDUCED (log 115). -/
def pllUnlock (h : Half) (c : Nat) (s : State) : State :=
  if c == 0 || c ≥ 22 || !s.coreUp h || !s.maskBit (B.clk h) F.CLK_LOCK_LOCK c then s
  else
    let b := B.clk h
    let s := (s.putMaskBit b F.CLK_LOCK_LOCK c false).putMaskBit b F.CLK_RUN_RUN c false
    let s := ((s.flag b F.CLK_EVENTS_UNLOCK).count b F.CLK_CNT_UNLOCK_COUNT h 586 1).chimney h 14 0 31 c
    if [8, 9, 18, 19, 21].contains c then s.mantleMsg h 14 0 49 c else s

def execPllUnlock (h : Half) (c : Nat) (s : State) : Host.Outcome State Fault Refusal := .next (pllUnlock h c s)

/-- REF_FAIL (R457). -/
def refFail (h : Half) (s : State) : State :=
  if !s.coreUp h then s
  else
    let b := B.clk h
    let s := (s.putMaskBit b F.CLK_LOCK_LOCK 0 false).putMaskBit b F.CLK_RUN_RUN 0 false
    (s.flag b F.CLK_EVENTS_REF_FAIL).mantleMsg h 14 0 49 0

def execRefFail (h : Half) (s : State) : Host.Outcome State Fault Refusal := .next (refFail h s)

/-- MOTLINK_STOP (R457): the motor die coasts its bridges, until the link's clock runs again. -/
def motlinkStop (h : Half) (s : State) : State :=
  let s := s.putMaskBit (B.clk h) F.CLK_RUN_RUN 21 false
  (List.range 4).foldl (fun s n =>
    let hd := hdaId h n
    let s := s.put (brgB hd) F.BRG_SPN_MODE 0
    [2 * hd, 2 * hd + 1].foldl (fun s ai =>
      if s.get (brgB hd) (vcmFld ai) == 1 then s.put (brgB hd) (vcmFld ai) 0 else s) s) s

def execMotlinkStop (h : Half) (s : State) : Host.Outcome State Fault Refusal := .next (motlinkStop h s)

/-- PCIE_REF_LOST (R458): the link goes down, and the loss is treated under R319. -/
def pcieRefLost (h : Half) (s : State) : State :=
  let s := { s with board := { s.board with cableRef := s.board.cableRef &&& (3 - 2 ^ h.toNat) } }
  if !s.coreUp h || !s.bit (B.clk h) F.CLK_REFCFG_CABLE || s.get (B.hif h) F.HIF_STAT_LINK != 2 then s
  else linkDown h ((s.flag (B.clk h) F.CLK_EVENTS_PCIE_REF_LOST).put (B.clk h) F.CLK_REFCFG_CABLE 0)

def execPcieRefLost (h : Half) (s : State) : Host.Outcome State Fault Refusal := .next (pcieRefLost h s)

/-! ### The Glim time base (R460, R461) -/

/-- CLK_TIME of a half follows the time that Mantle sends. -/
def State.timeShow (s : State) (h : Half) : State :=
  if !s.coreUp h then s
  else (s.put (B.clk h) F.CLK_TIME_LO_TIME s.usTime).put (B.clk h) F.CLK_TIME_HI_TIME (s.usTime / 2 ^ 32)

/-- CLK_REFPPM of a half is measured anew (R465). DESIGN CHOICE (log 143). -/
def State.refPpm (s : State) (h : Half) : State :=
  if !s.coreUp h then s
  else
    let (n, s) := s.takeFree
    s.put (B.clk h) F.CLK_REFPPM_PPM (Config.freeNat n)

/-- GLIM_TICK (R460): the count starts from 0 when COLD or AUX_BO releases; every second each half measures REF against it
(R465). -/
def glimTick (s : State) : State :=
  if !s.mantleUp then s
  else
    let s := (({ s with ticks := s.ticks + 1 }).timeShow .a).timeShow .b
    if s.ticks % 32768 == 0 then (s.refPpm .a).refPpm .b else s

def execGlimTick (s : State) : Host.Outcome State Fault Refusal := .next (glimTick s)

/-- GLIM_FAIL (R461): the time goes on from MOSC. -/
def glimFail (s : State) : State :=
  if !s.mantleUp then s
  else
    let s := (s.event 0x0070 0 0 0).mantleMsg .a 31 0 57 0
    let one := fun (s : State) (h : Half) => if s.coreUp h then s.flag (B.clk h) F.CLK_EVENTS_GLIM_FAIL else s
    one (one s .a) .b

def execGlimFail (s : State) : Host.Outcome State Fault Refusal := .next (glimFail s)

end Sys2Proof.Machine
end

