-- ==== Sys2Proof/Machine/Chimney.lean ====
section
/-! DEFINITION. Chimney and Mantle's collector (R466 to R475, R488 to R492), the event recorder (R476 to R480, R493,
R494), and the trace streams as they leave the module (R484 to R486, R499). -/

namespace Sys2Proof.Machine

/-! ### Records and classification (R469 to R472, R490, R491) -/

/-- A collector by its key, 0 and 1 for the halves' Chimneys and 2 for Mantle's: its records' address and number, and its
classification entry of a kind. -/
def recAddr (k r : Nat) : Nat := (if k == 2 then B.evt + 0x3000 else B.chm (halfOf k) + 0x2000) + 32 * r
def recCount (k : Nat) : Nat := if k == 2 then 16 else 64
def clsAddr (k kind : Nat) : Nat :=
  if k == 2 then B.evt + 0x2000 + 8 * (kind - 48) else B.chm (halfOf k) + 0x1000 + 8 * kind

/-- Fields of a record, from its address. -/
def recKind : Fld := ⟨0, 10, 6⟩
def recMerge : Fld := ⟨8, 0, 16⟩
def recLastKind : Fld := ⟨8, 16, 6⟩
def recMixed : Fld := ⟨8, 22, 1⟩
def recSevere : Fld := ⟨8, 23, 1⟩
def recActions : Fld := ⟨8, 24, 8⟩
def recOpen : Fld := ⟨12, 0, 1⟩
def recSkipped : Fld := ⟨12, 1, 1⟩
def recRefused : Fld := ⟨12, 2, 1⟩

/-- Fields of a message (R466). -/
def msgSource (m : BitVec 64) : Nat := (m.extractLsb' 0 10).toNat
def msgKind (m : BitVec 64) : Nat := (m.extractLsb' 10 6).toNat
def msgHalf (m : BitVec 64) : Half := if m.getLsbD 55 then .b else .a

/-- Whether a message's CHECK holds (R466). -/
def msgCheck (m : BitVec 64) : Bool := crc8 (m.extractLsb' 0 56) 56 == m.extractLsb' 56 8

/-- Whether a kind is valid for a collector (R468). -/
def kindValid (k kind : Nat) : Bool := if k == 2 then 48 ≤ kind && kind ≤ 60 else 1 ≤ kind && kind ≤ 34

/-- COUNT, WSTART and the class of a message (R471): its source's new state, whether it is severe, and whether its source
becomes severe with it. N and T of 0 act as 1. -/
def classify (t n tms : Nat) (x : SrcState) : SrcState × Bool × Bool :=
  let len := min1 tms * 1000
  let newWindow := x.count == 0 || (t + 2 ^ 48 - x.wstart) % 2 ^ 48 ≥ len
  let wstart := if newWindow then t else x.wstart
  let count := if newWindow then 1 else min (x.count + 1) 255
  let severe := count ≥ min1 n
  ({ x with count := count, wstart := wstart, severe := severe, winEnd := (wstart + len) % 2 ^ 48 }, severe,
    severe && (newWindow || !x.severe))

/-- Open records of a collector. -/
def State.recIsOpen (s : State) (k r : Nat) : Bool := s.bit (recAddr k r) recOpen
def State.openRecs (s : State) (k : Nat) : List Nat := (List.range (recCount k)).filter fun r => s.recIsOpen k r

/-- CHM_STAT.OPEN and CHM_OPEN, or EVT_MFSTAT.OPEN and EVT_MFOPEN, follow the records. -/
def State.recShow (s : State) (k : Nat) : State :=
  let l := s.openRecs k
  let m := l.foldl (fun m r => m + 2 ^ r) 0
  if k == 2 then (s.put B.evt F.EVT_MFSTAT_OPEN l.length).put B.evt F.EVT_MFOPEN_OPEN m
  else
    let b := B.chm (halfOf k)
    ((s.put b F.CHM_STAT_OPEN l.length).put b F.CHM_OPEN_LO_OPEN m).put b F.CHM_OPEN_HI_OPEN (m / 2 ^ 32)

def State.setSrc (s : State) (k src : Nat) (x : SrcState) : State :=
  let c := s.coll k
  s.setColl k { c with srcs := smPut default c.srcs src x }

def State.srcOf (s : State) (k src : Nat) : SrcState := smGet default (s.coll k).srcs src

/-- Opening record r with a message (R473, R491). -/
def State.recStart (s : State) (k r : Nat) (m : BitVec 64) (severe : Bool) : State :=
  let a := recAddr k r
  let s := s.clearRange a (a + 32)
  let s := s.set64 a m.toNat
  let s := ((s.put a recLastKind (msgKind m)).putB a recSevere severe).put a recActions 1
  let s := s.put a recOpen 1
  let s := (s.set64 (a + 16) s.usTime).set64 (a + 24) s.usTime
  let s := s.setSrc k (msgSource m) { s.srcOf k (msgSource m) with record := some r }
  (if k == 2 then s else s.put (B.chm (halfOf k)) F.CHM_STAT_NEWEST r).recShow k

/-- Merging a message into record r (R472). -/
def State.recMergeMsg (s : State) (k r : Nat) (m : BitVec 64) : State :=
  let a := recAddr k r
  let s := s.satAdd a recMerge 1
  let s := s.put a recLastKind (msgKind m)
  let s := if s.get a recKind != msgKind m then s.put a recMixed 1 else s
  s.set64 (a + 24) s.usTime

/-- Closing record r (R472, R491): its content stays, with OPEN = 0. -/
def State.recClose (s : State) (k r : Nat) : State :=
  if s.recIsOpen k r then
    let a := recAddr k r
    let src := s.get a ⟨0, 0, 10⟩
    let s := s.put a recOpen 0
    (s.setSrc k src { s.srcOf k src with record := none }).recShow k
  else s

/-- Action bits taken, marked in a record if there is one. -/
def State.recMark (s : State) (k : Nat) (r : Option Nat) (acts : Nat) : State :=
  match r with
  | none => s
  | some r => s.put (recAddr k r) recActions (s.get (recAddr k r) recActions ||| acts)

def State.recFlag (s : State) (k : Nat) (r : Option Nat) (f : Fld) : State :=
  match r with
  | none => s
  | some r => s.put (recAddr k r) f 1

/-! ### Chimney (R472, R473) -/

/-- The local HDA whose set a source belongs to: GRZ and SPN by HDA, SRV, FMT and WCK by actuator, RCH by channel (R16,
R467). -/
def srcHda (src : Nat) : Option Nat :=
  let i := src % 32
  match src / 32 with
  | 4 | 9 => some (i % 4)
  | 6 | 7 | 8 => some (i / 2 % 4)
  | 5 => some (i / 8)
  | _ => none

/-- The TARGET code of a source that can be reset alone (R434). -/
def srcBlock (src : Nat) : Option Nat :=
  match src / 32 with
  | 5 => some (src % 32)
  | 7 => some (0x20 + src % 8)
  | 11 => some 0x30
  | _ => none

/-- The widest of F, H and B that applies: its action bit, KIND and TARGET, and whether one was skipped (R472).
DEDUCED (log 121). -/
def resetAction (acts src : Nat) : Option (Nat × Nat × Nat) × Bool :=
  if acts.testBit 6 then (some (0x40, 1, 0), false)
  else
    let hda := if acts.testBit 5 then srcHda src else none
    match hda with
    | some n => (some (0x20, 2, n), false)
    | none =>
      let skip := acts.testBit 5
      if acts.testBit 4 then
        match srcBlock src with
        | some c => (some (0x10, 3, c), skip)
        | none => (none, true)
      else (none, skip)

/-- The actions of a class, beyond R, in the order E, I, C, then the widest reset that applies (R472), with the CHM trace
packet of the message (R485) before a reset may clear the half. DEDUCED (log 120). DEDUCED (log 122). -/
def State.chmActions (s : State) (h : Half) (m : BitVec 64) (acts : Nat) (severe merged opened : Bool) (r : Option Nat) :
    State :=
  let k := h.toNat
  let s := if acts.testBit 2 then
      s.event (0x100 + msgKind m) (m.toNat % 2 ^ 32) (m.toNat / 2 ^ 32) (if severe then 1 else 0) else s
  let s := if acts.testBit 1 && s.bit (B.chm h) F.CHM_CTL_IRQ_EN then s.irq h else s
  let en := s.bit (B.chm h) F.CHM_CTL_RESET_EN
  let s := if en && acts.testBit 3 then s.recovery h else s
  let (req, skip) := if en then resetAction acts (msgSource m) else (none, false)
  let ok := match req with
    | some (_, kind, target) => (s.chimneyRequest h kind target).2
    | none => false
  let taken := (acts &&& 6) ||| (if en then acts &&& 8 else 0) ||| (match req with
    | some (b, _, _) => if ok then b else 0
    | none => 0)
  let s := s.recMark k r taken
  let s := if skip then s.recFlag k r recSkipped else s
  let s := if req.isSome && !ok then s.recFlag k r recRefused else s
  let s := if s.bit (B.cri h) F.CRI_TRCCFG_CHM then
      s.trace h 0x20 0 (leBytes 8 m.toNat ++ [BitVec.ofNat 8 ((if severe then 1 else 0) + (if merged then 2 else 0) +
        (if opened then 4 else 0)), BitVec.ofNat 8 (taken + (if opened then 1 else 0))]) else s
  match req with
  | some (_, kind, target) => if ok then (s.chimneyRequest h kind target).1 else s
  | none => s

/-- A message that leaves Chimney's FIFO with a good CHECK and a valid kind (R471 to R473). DEDUCED (log 123). -/
def State.chmProcess (s : State) (h : Half) (m : BitVec 64) : State :=
  let k := h.toNat
  let b := B.chm h
  let kind := msgKind m
  let src := msgSource m
  let w0 := (s.word (clsAddr k kind)).toNat
  let w1 := (s.word (clsAddr k kind + 4)).toNat
  let (x, severe, turned) := classify s.usTime (w0 % 256) (w0 / 65536) (s.srcOf k src)
  let s := (s.setSrc k src x).bump48 h 588 1
  let s := if severe then s.bump48 h 590 1 else s
  let s := if turned then s.flag b F.CHM_EVENTS_SEVERE else s
  let acts := if severe then w1 / 256 % 256 else w1 % 256
  match x.record with
  | some r =>
    let first := severe && !s.bit (recAddr k r) recSevere
    let s := (s.recMergeMsg k r m).bump48 h 589 1
    let s := if first then s.put (recAddr k r) recSevere 1 else s
    s.chmActions h m (if first then acts - acts % 2 else 0) severe true false (some r)
  | none =>
    if acts.testBit 0 then
      match (List.range 64).find? fun r => !s.recIsOpen k r with
      | some r => (s.recStart k r m severe).chmActions h m acts severe false true (some r)
      | none => ((s.flag b F.CHM_EVENTS_REC_OVF).bump48 h 591 1).chmActions h m acts severe false false none
    else s.chmActions h m acts severe false false none

/-- CHIMNEY_MESSAGE (R468, R471 to R473): Chimney takes the message at the head of its FIFO. -/
def chimneyMessage (h : Half) (s : State) : State :=
  if !s.coreUp h then s
  else
    let c := s.coll h.toNat
    match c.fifo with
    | [] => s
    | m :: rest =>
      let s := s.setColl h.toNat { c with fifo := rest }
      if msgCheck m && kindValid 0 (msgKind m) then s.chmProcess h m
      else (s.flag (B.chm h) F.CHM_EVENTS_BAD_MSG).bump48 h 592 1

def execChimneyMessage (h : Half) (s : State) : Host.Outcome State Fault Refusal := .next (chimneyMessage h s)

/-- RECORD_CLOSE (R472, R489): CHM_CLOSE with GO; a record not open is ignored. DESIGN CHOICE (log 127). -/
def recordClose (h : Half) (index : Nat) (s : State) : State :=
  if s.coreUp h then s.recClose h.toNat (index % 64) else s

def execRecordClose (h : Half) (index : Nat) (s : State) : Host.Outcome State Fault Refusal := .next (recordClose h index s)

/-- CHM_RAISE (R489): a write of CHM_RAISE_HI submits the firmware's message, of source type 17. -/
def chmRaise (h : Half) (hintHi : Nat) (s : State) : State :=
  if s.coreUp h then
    let b := B.chm h
    s.chimney h 17 (s.get b F.CHM_RAISE_LO_INSTANCE) (s.get b F.CHM_RAISE_LO_KIND)
      (s.get b F.CHM_RAISE_LO_HINT_LO + hintHi % 2 ^ 23 * 65536)
  else s

def execChmRaise (h : Half) (hintHi : Nat) (s : State) : Host.Outcome State Fault Refusal := .next (chmRaise h hintHi s)

/-! ### Mantle's collector (R475) -/

/-- Whether the latch that a record of a kind reports is clear: CHOP_FAILED, RETTMO, the boot hold, the strap hold; other
kinds report none. DEDUCED (log 126). -/
def State.latchClear (s : State) (kind src : Nat) : Bool :=
  match kind with
  | 51 => !s.mot.chopFailed
  | 54 => !s.maskBit B.mnt F.MNT_RETSTAT_RETTMO (src % 32)
  | 58 => !(s.mh 0).bootHeld && !(s.mh 1).bootHeld
  | 59 => !s.bit B.mnt F.MNT_STRAP_UNSTABLE && !s.bit B.mnt F.MNT_STRAP_MISMATCH
  | _ => true

/-- The actions S and W of a class (R469, R475). S without a record is kept by itself until the record would have closed;
W withdraws the entries of the message's half, or of both where the source is inside Mantle. -/
def State.mantleActions (s : State) (m : BitVec 64) (acts : Nat) (r : Option Nat) : State :=
  let src := msgSource m
  let s := s.recMark 2 r (acts &&& 6)
  let s := if acts.testBit 1 && r.isNone then
      let c := s.coll 2
      s.setColl 2 { c with unrec := c.unrec.filter (fun (u : Nat × Nat × Nat) => u.1 != src) ++ [(src, msgKind m, s.usTime)] }
    else s
  if acts.testBit 2 then
    if 24 ≤ src / 32 then (s.withdrawHalf .a 6).withdrawHalf .b 6 else s.withdrawHalf (msgHalf m) 6
  else s

/-- A message processed in Mantle's collector (R475). A record that merges messages keeps the kind of the first. DEDUCED (log 125). -/
def State.mantleProcess (s : State) (m : BitVec 64) : State :=
  let kind := msgKind m
  let src := msgSource m
  let w0 := (s.word (clsAddr 2 kind)).toNat
  let w1 := (s.word (clsAddr 2 kind + 4)).toNat
  let (x, severe, _) := classify s.usTime (w0 % 256) (w0 / 65536) (s.srcOf 2 src)
  let s := (s.setSrc 2 src x).satAdd B.evt F.EVT_MFCNT_MSGS 1
  let c := s.coll 2
  let s := s.setColl 2 { c with unrec := c.unrec.map fun (u : Nat × Nat × Nat) => if u.1 == src then (u.1, u.2.1, s.usTime) else u }
  let acts := if severe then w1 / 256 % 256 else w1 % 256
  match x.record with
  | some r =>
    let first := severe && !s.bit (recAddr 2 r) recSevere
    let s := s.recMergeMsg 2 r m
    if first then (s.put (recAddr 2 r) recSevere 1).mantleActions m (acts - acts % 2) (some r) else s
  | none =>
    if acts.testBit 0 then
      match (List.range 16).find? fun r => !s.recIsOpen 2 r with
      | some r => (s.recStart 2 r m severe).mantleActions m acts (some r)
      | none => (s.satAdd B.evt F.EVT_MFCNT_NOREC 1).mantleActions m acts none
    else s.mantleActions m acts none

/-- MANTLE_MESSAGE (R475): Mantle's collector takes the message at the head of its FIFO; one of a bad CHECK or kind is
discarded, which no register of R494 shows. -/
def mantleMessage (s : State) : State :=
  if !s.mantleUp then s
  else
    let c := s.coll 2
    match c.fifo with
    | [] => s
    | m :: rest =>
      let s := s.setColl 2 { c with fifo := rest }
      if msgCheck m && kindValid 2 (msgKind m) then s.mantleProcess m else s

def execMantleMessage (s : State) : Host.Outcome State Fault Refusal := .next (mantleMessage s)

/-- Whether the point at which a source's record closes has come (R475): its kind's latch is clear, or, for a kind that reports
none, a second has gone by since the source's last message. -/
def State.closePoint (s : State) (kind src last : Nat) : Bool :=
  if [51, 54, 58, 59].contains kind then s.latchClear kind src else 1000000 ≤ (s.usTime + 2 ^ 48 - last) % 2 ^ 48

/-- MANTLE_RECORD_CLOSE (R475): the record of a source closes, and S kept without a record for it ends, at that point. -/
def mantleRecordClose (src : Nat) (s : State) : State :=
  let s := match (s.srcOf 2 src).record with
    | some r =>
      let a := recAddr 2 r
      if s.closePoint (s.get a recKind) src ((s.word (a + 24)).toNat + (s.word (a + 28)).toNat * 2 ^ 32) then s.recClose 2 r else s
    | none => s
  let c := s.coll 2
  s.setColl 2 { c with unrec := c.unrec.filter fun (u : Nat × Nat × Nat) => !(u.1 == src && s.closePoint u.2.1 src u.2.2) }

def execMantleRecordClose (src : Nat) (s : State) : Host.Outcome State Fault Refusal := .next (mantleRecordClose src s)

/-- What holds MOD_FAULT_N low (R475, R494 EVT_MFSTAT): a record that has taken S, a hold of R22, R42 or R413, S without a
record, and a retract timeout. -/
def State.mfSled (s : State) : Bool := (s.openRecs 2).any fun r => (s.get (recAddr 2 r) recActions).testBit 1
def State.mfHold (s : State) : Bool := s.holdReason .a != 0 || s.holdReason .b != 0
def State.mfUnrec (s : State) : Bool := !(s.coll 2).unrec.isEmpty
def State.mfRettmo (s : State) : Bool := s.get B.mnt F.MNT_RETSTAT_RETTMO != 0

/-- Whether MOD_FAULT_N is low. -/
def State.modFault (s : State) : Bool := s.mfSled || s.mfHold || s.mfUnrec || s.mfRettmo

/-! ### The event recorder (R476 to R480) -/

/-- The place of the k-th record (R476); `full` says that the permanent area is. -/
def recordPlace (full : Bool) (k : Nat) : Nat :=
  if full then 256 + (k + 2 ^ 32 - 256) % 2048 else k

/-- EVT packets of both halves (R485). -/
def State.evtPackets (s : State) (e : EvRec) (folded : Bool) : State :=
  let one := fun (s : State) (h : Half) =>
    if s.coreUp h && s.bit (B.cri h) F.CRI_TRCCFG_EVT then
      s.trace h 0x21 0 (leBytes 2 e.code ++ leBytes 4 e.p0 ++ leBytes 4 e.p1 ++ [if folded then 1 else 0])
    else s
  one (one s .a) .b

/-- Whether an event equals the last record written (R478). PARAM3 is 0 in every code of R479. -/
def State.eventFolds (s : State) (e : EvRec) : Bool :=
  let last := s.get B.evt F.EVT_LAST_INDEX
  let a := B.evr + 32 * last
  let w := fun i => (s.word (a + i)).toNat
  last != 0xFFF && w 0 % 65536 == e.code && w 16 == e.p0 % 2 ^ 32 && w 20 == e.p1 % 2 ^ 32 && w 24 == e.p2 % 2 ^ 32 && w 28 == 0

/-- EVENT_RECORD_WRITE (R476 to R480): the recorder takes the event at the head of its queue and folds it into the last
record or writes a new one. -/
def eventRecordWrite (s : State) : State :=
  if !s.mantleUp then s
  else match s.evQueue with
    | [] => s
    | e :: rest =>
      let s := { s with evQueue := rest }
      if s.eventFolds e then
        let a := B.evr + 32 * s.get B.evt F.EVT_LAST_INDEX
        let s := (s.satAdd a ⟨0, 16, 16⟩ 1).setWord (a + 12) (BitVec.ofNat 32 e.time)
        (s.satAdd B.evt F.EVT_CNT_REPEAT_COUNT 1).evtPackets e true
      else
        let k := s.get B.evt F.EVT_SEQ_SEQ
        let full := s.bit B.evt F.EVT_STAT_PERM_FULL
        let wrapped := s.bit B.evt F.EVT_STAT_WRAPPED
        let r := recordPlace full k
        let a := B.evr + 32 * r
        let over_ := full && (wrapped || k == 256 + 2048)
        let words := [e.code % 65536, e.time, e.time / 2 ^ 32 % 65536 + k % 65536 * 65536, e.time, e.p0, e.p1, e.p2, 0]
        let s := words.zipIdx.foldl (fun (s : State) (w : Nat × Nat) => s.setWord (a + 4 * w.2) (BitVec.ofNat 32 w.1)) s
        let full := full || k == 255
        let next := recordPlace full (k + 1)
        let s := s.put B.evt F.EVT_SEQ_SEQ (k + 1)
        let s := (s.put B.evt F.EVT_STAT_NEXT next).putB B.evt F.EVT_STAT_PERM_FULL full
        let s := s.put B.evt F.EVT_LAST_INDEX r
        let s := if over_ then
            ((s.put B.evt F.EVT_STAT_WRAPPED 1).satAdd B.evt F.EVT_CNT_OVERWRITE_COUNT 1).put B.evt F.EVT_OLDEST_INDEX next
          else s
        s.evtPackets e false

def execEventRecordWrite (s : State) : Host.Outcome State Fault Refusal := .next (eventRecordWrite s)

/-! ### Trace (R484 to R486) -/

/-- The multiple of 1,000 µs that lies within the Glim tick in progress, if one does (R460, R485).
DESIGN CHOICE (log 130). -/
def State.timeMark (s : State) : Option Nat :=
  let m := (s.ticks * 15625 + 511999) / 512000 * 1000
  if m * 512 < (s.ticks + 1) * 15625 then some (m % 2 ^ 48) else none

/-- TRACE_TIME_PACKET (R485): a TIME packet for the lanes that run. -/
def traceTimePacket (h : Half) (s : State) : State :=
  if s.coreUp h && s.bit (B.cri h) F.CRI_TRCSTAT_LANES_UP then
    match s.timeMark with
    | some t => s.trace h 1 0 (leBytes 6 t)
    | none => s
  else s

def execTraceTimePacket (h : Half) (s : State) : Host.Outcome State Fault Refusal := .next (traceTimePacket h s)

/-- The head of a stream leaves on the lanes. -/
def State.tracePop (s : State) (h : Half) (k : Nat) : State :=
  let t := smGet TraceStream.reset s.traces k
  match t.fifo with
  | [] => s
  | p :: rest => { s with
      traces := smPut TraceStream.reset s.traces k { t with fifo := rest }
      traceOut := smPut .idle s.traceOut h.toNat (.packet p) }

/-- TRACE_PACKET_SEND (R484, R486): in a block period the half sends its TIME packet, else a CHM or EVT packet, else a LOSS
packet that is due, else one packet of the WICK and SRV streams in turn, else idle. DESIGN CHOICE (log 129).
DESIGN CHOICE (log 131). -/
def tracePacketSend (h : Half) (s : State) : State :=
  if !(s.coreUp h && s.bit (B.cri h) F.CRI_TRCSTAT_LANES_UP) then s
  else
    let mine := s.traces.filter fun (e : Nat × TraceStream) => e.1 / 0x10000 == h.toNat
    let ready := mine.filter fun (e : Nat × TraceStream) => !e.2.fifo.isEmpty
    let ofType := fun (t : Nat) => ready.find? fun (e : Nat × TraceStream) => e.1 % 0x10000 / 0x100 == t
    match ofType 1, ofType 0x20, ofType 0x21 with
    | some e, _, _ => s.tracePop h e.1
    | none, some e, _ => s.tracePop h e.1
    | none, none, some e => s.tracePop h e.1
    | none, none, none =>
      match mine.find? fun (e : Nat × TraceStream) => e.2.lossDue with
      | some e =>
        let (n, s) := s.takeFree
        let body := (leBytes 1 (e.1 % 0x100) ++ leBytes 4 e.2.lost ++ List.replicate 6 (0 : Byte))
        let p : TracePacket := ⟨2, e.1 % 0x10000 / 0x100, Config.freeNat n % 2 ^ 24, body⟩
        { s with
          traces := smPut TraceStream.reset s.traces e.1 { e.2 with lost := 0, lossDue := false }
          traceOut := smPut .idle s.traceOut h.toNat (.packet p) }
      | none =>
        let turn := smGet 0 s.traceTurn h.toNat
        let pick := match ready.find? fun (e : Nat × TraceStream) => turn < e.1 with
          | some e => some e
          | none => ready.head?
        match pick with
        | some e => { s.tracePop h e.1 with traceTurn := smPut 0 s.traceTurn h.toNat e.1 }
        | none => { s with traceOut := smPut .idle s.traceOut h.toNat .idle }

def execTracePacketSend (h : Half) (s : State) : Host.Outcome State Fault Refusal := .next (tracePacketSend h s)

/-- DESKEW_BLOCK (R484): both lanes of a half send the ordered-set control block. -/
def deskewBlock (h : Half) (s : State) : State :=
  if s.coreUp h && s.bit (B.cri h) F.CRI_TRCSTAT_LANES_UP then
    { s with traceOut := smPut .idle s.traceOut h.toNat .deskew }
  else s

def execDeskewBlock (h : Half) (s : State) : Host.Outcome State Fault Refusal := .next (deskewBlock h s)

end Sys2Proof.Machine
end

