-- ==== Sys2Proof/Machine/RegAccess.lean ====
section
/-! DEFINITION. Register accesses (R13, R14, R46 to R72, R449): which word an access reaches, what a write does there and
what a read returns, the register access page that records accesses which reach nothing, and the snapshot of the
counters. -/

namespace Sys2Proof.Machine

/-! ### The register access page (R57) -/

/-- An event of HIF_ACCSTAT, recorded in half t with the BAR0 offset of the access: the address of the first since the
register was zero, MULTI, and the count. DEDUCED (log 135). DEDUCED (log 136). -/
def State.accEvent (s : State) (t : Half) (f : Fld) (remote write : Bool) (off : Nat) : State :=
  if !s.coreUp t then s
  else
    let b := B.hif t
    let old := (s.word (b + f.off)).toNat
    let s := if old == 0 then
        ((s.putB b F.HIF_ACCADDR_ORIGIN remote).putB b F.HIF_ACCADDR_WRITE write).put b F.HIF_ACCADDR_OFFSET (off / 4)
      else s
    let s := if old % 32 != 0 then s.flag b F.HIF_ACCSTAT_MULTI else s
    (s.flag b f).count b F.HIF_ACCCNT_COUNT t 587 1

/-! ### Decoding (R54, R55, R66 to R72) -/

/-- Index of the register that a page offset reaches, on a page of span S with N registers (R55): the smallest power of
two not below N, then one halving at most. -/
def aliasIndex (span n o : Nat) : Nat :=
  let p := 2 ^ (n - 1).log2 * (if n ≤ 1 then 1 else 2)
  let j := o % span / 4 % p
  if j ≥ n then j - p / 2 else j

/-- What an access reaches: nothing, with the flag it sets and the half that records it; a reserved offset (R54); a
register; or a word of an array page. -/
inductive Reach where
  | nothing (t : Half) (f : Fld)
  | reserved
  | reg (l : Loc) (a : Nat) (r : RegSpec)
  | array (l : Loc) (a : Nat)
  deriving DecidableEq, Repr

/-- Whether a block is dark: held in reset, in a domain that is RETAIN or OFF, or without a cable (R35, R69, R71, R449). -/
def State.blockDark (s : State) (h : Half) (b : Blk) (n : Nat) : Bool :=
  let asleep := fun d => s.domState h d ≤ 1
  let cut := h == .b && s.strapBit 0
  match b with
  | .grz | .spn => cut || !s.hdaUp (hdaId h n) || asleep (22 + n)
  | .srv | .fmt => cut || !s.hdaUp (hdaId h (n / 2)) || asleep (22 + n / 2)
  | .wck => cut || !s.wckUp (actId h n) || asleep (22 + n / 2)
  | .rch => cut || !s.rchUp (chId h n) || asleep (14 + n / 4)
  | .mot => cut || !s.motorUp.testBit h.toNat
  | .buf => asleep 13
  | .bca => asleep 4
  | .sdm => !s.sdmUp h || asleep 2
  | _ => false

/-- The BAR0 offset as an absolute address of the register space, as the half `own` sees it (R66). -/
def absAddr (own : Half) (off : Nat) : Nat :=
  if off < 0x1000000 then B.half own + off
  else if off < 0x2000000 then B.half own.other + (off - 0x1000000)
  else off

/-- The pages of the host interface that a PORT reset holds (R364): 0 to 3, the MSI-X table and the pending bits. -/
def portReach (page : Nat) : Bool := page ≤ 3 || (8 ≤ page && page ≤ 10)

/-- Where an access goes whose window is assigned. -/
def State.reachLoc (s : State) (t : Half) (l : Loc) (base : Nat) : Reach :=
  let dark : Bool := match l.half with
    | none => !s.mantleUp
    | some h => s.blockDark h l.blk l.inst || (l.blk == .hif && l.off / 0x1000 != 15 && s.domState h 2 ≤ 1) ||
        (l.blk == .hif && s.asserted.contains (.port h) && portReach (l.off / 0x1000))
  if dark then .nothing t F.HIF_ACCSTAT_DARK
  else
    let page := l.off / 0x1000
    match pageSpec l.blk l.inst page with
    | some p =>
      let i := aliasIndex p.span p.count (l.off % 0x1000)
      match regAt p (4 * i) with
      | some r => .reg { l with off := 0x1000 * page + 4 * i } (base + 0x1000 * page + 4 * i) r
      | none => .reserved
    | none =>
      match arrayLen l.blk l.inst page with
      | some len => if l.off % 0x1000 < len then .array l (base + l.off) else .nothing t F.HIF_ACCSTAT_STRAY
      | none => .nothing t F.HIF_ACCSTAT_STRAY

/-- What an aligned word access of the half `own` at a BAR0 offset reaches. DEDUCED (log 146). -/
def State.reach (s : State) (own : Half) (off : Nat) : Reach :=
  let t := if 0x1000000 ≤ off && off < 0x2000000 then own.other else own
  if off ≥ 0x2100000 then .nothing own F.HIF_ACCSTAT_STRAY
  else if t != own && !s.peerUp own then .nothing own F.HIF_ACCSTAT_REMOTE_FAIL
  else
    let a := absAddr own off
    match locOf a with
    | none => .nothing t F.HIF_ACCSTAT_STRAY
    | some l => s.reachLoc t l (a - l.off)

/-! ### Reads (R14, R50, R53) -/

/-- The words whose value the spec leaves to the analogue world: power meters (R462) and TS
(R485). The result says which bits the free value fills. DESIGN CHOICE (log 143). -/
def freeWord (l : Loc) : Option (Nat → Nat) :=
  let o := l.off % 0x1000
  match l.blk, l.off / 0x1000 with
  | .pwr, 2 => if o < 4 * 26 then some (· % 65536) else none
  | .cri, 1 => if o == 0xC then some (· % 2 ^ 24) else none
  | _, _ => none

/-- Words of a half that follow from its state as they are read. -/
def State.liveHalf (s : State) (h : Half) (l : Loc) (w : Word) : Word :=
  let o := l.off % 0x1000
  let set := fun (f : Fld) (v : Nat) (w : Word) => fput w f v
  let hd := hdaId h l.inst
  match l.blk, l.off / 0x1000 with
  | .hif, 15 => if o == 4 then set F.HIF_REGIONCFG_REMOTE_WR (if s.strapBit 1 then 1 else 0) w else w
  | .grz, 0 => if o == 4 then set F.GRZ_PORTSTAT_QUIET (if s.quiet hd then 1 else 0) w else w
  | .rch, 0 => if o == 4 then set F.RCH_STAT_BUSY (if s.chBusy (chId h l.inst) then 1 else 0) w else w
  | .rch, 2 => s.adaptWord (chId h l.inst) o
  | .rch, 8 | .rch, 9 | .rch, 10 | .rch, 11 | .rch, 12 | .rch, 13 | .rch, 14 | .rch, 15 =>
    s.sampleWord (chId h l.inst) (l.off - 0x8000)
  | .mot, 0 =>
    let m := s.mot
    let bit := fun (b : Bool) => if b then 1 else 0
    if o == 0 then BitVec.ofNat 32 (min m.vbus 65535)
    else if o == 4 then BitVec.ofNat 32 (min m.pmot 65535)
    else if o == 8 then
      BitVec.ofNat 32 (m.step % 4 + 4 * bit m.chopFailed + 8 * bit m.chopHot + 16 * bit m.feedOpen + 32 * (m.failKind % 4) +
        128 * bit m.seekLimit)
    else if o == 0xC then
      BitVec.ofNat 32 (m.taper % 256 + m.brake % 256 * 0x100 + (m.waitT.foldl (fun n e => n ||| 2 ^ (e.2 % 8)) 0) * 0x10000)
    else if o == 0x1C then BitVec.ofNat 32 (min m.energy 0xFFFFFFFF)
    else w
  | .bca, 3 =>
    match smFind (s.cache h).miss (o / 8) with
    | none => 0
    | some m =>
      if o % 8 == 0 then BitVec.ofNat 32 (m.page % 2 ^ 29 + 2 ^ 31)
      else BitVec.ofNat 32 (m.way % 16 + 16 * (min 16 (m.reqs.length - 1)) + 0x10000 * (m.first % 64) + 0x400000 * (m.count % 128))
  | .wck, 3 =>
    let k := s.wick (actId h l.inst)
    if o < 0x20 then BitVec.ofNat 32 (smGet 0 k.x (o / 4)).toNat
    else if o < 0x40 then BitVec.ofNat 32 (k.stack.reverse.getD (o / 4 - 8) 0)
    else if o < 0x44 then
      BitVec.ofNat 32 (bitNat k.z + 2 * bitNat k.ers + 4 * bitNat k.spl + 8 * (k.tags.length % 8) + 64 * (k.edges.length % 8))
    else 0
  | .fmt, 3 =>
    match (s.fmt (actId h l.inst)).rwq[o / 16]? with
    | none => 0
    | some e =>
      let j := o / 4 % 4
      if j == 0 then
        BitVec.ofNat 32 (e.band % 2 ^ 24 + e.group % 2 * 2 ^ 24 + e.kind % 4 * 2 ^ 25 + e.attempts % 16 * 2 ^ 27 + 2 ^ 31)
      else if j == 1 then BitVec.ofNat 32 (e.stripe % 65536)
      else if j == 2 then BitVec.ofNat 32 e.mask
      else BitVec.ofNat 32 (e.mask / 2 ^ 32)
  | .chm, 0 =>
    if o == 4 then
      let n := (s.coll h.toNat).fifo.length
      set F.CHM_STAT_BUSY (if n == 0 then 0 else 1) (set F.CHM_STAT_FIFO n w)
    else w
  | .chm, 3 =>
    let x := s.srcOf h.toNat (o / 4)
    let age := (s.usTime + 2 ^ 48 - x.wstart) % 2 ^ 48
    let len := (x.winEnd + 2 ^ 48 - x.wstart) % 2 ^ 48
    if x.count == 0 then 0
    else BitVec.ofNat 32 (x.count + (if x.severe && age < len then 0x100 else 0) +
      (match x.record with | some r => 0x200 + 0x400 * r | none => 0) + 0x10000 * min (age / 1000) 0xFFFF)
  | .cri, 1 =>
    if o == 4 then
      let any := s.traces.any fun (e : Nat × TraceStream) => e.1 / 0x10000 == h.toNat && !e.2.fifo.isEmpty
      set F.CRI_TRCSTAT_BUSY (if any then 1 else 0) w
    else w
  | _, _ => w

/-- Words of Mantle that follow from its state as they are read. -/
def State.liveMantle (s : State) (l : Loc) (w : Word) : Word :=
  let bit := fun (b : Bool) => if b then 1 else 0
  match l.blk, l.off with
  | .evt, 0 => fput w F.EVT_STAT_QUEUE s.evQueue.length
  | .evt, 0x1000 =>
    fput (fput (fput (fput w F.EVT_MFSTAT_SLED (bit s.mfSled)) F.EVT_MFSTAT_HOLD (bit s.mfHold)) F.EVT_MFSTAT_UNREC
      (bit s.mfUnrec)) F.EVT_MFSTAT_RETTMO (bit s.mfRettmo)
  | _, _ => w

/-- The value that a word holds as it is read, with the state in which its free value has been used.
DESIGN CHOICE (log 144). -/
def State.liveWord (s : State) (l : Loc) (a : Nat) : Word × State :=
  match freeWord l with
  | some f =>
    let (n, t) := s.takeFree
    (BitVec.ofNat 32 (f (Config.freeNat n)), t)
  | none => match l.half with
    | some h => (s.liveHalf h l (s.word a), s)
    | none => (s.liveMantle l (s.word a), s)

/-- A read of one word (R14, R47, R50): WO bits read 0, RC bits are cleared; what reaches nothing reads 0 and is recorded.
An access through the half link is a demand on HLINK (R449). -/
def State.readWord (s : State) (own : Half) (off : Nat) : Word × State :=
  let remote := 0x1000000 ≤ off && off < 0x2000000
  let s := if remote then s.demand own 3 else s
  match s.reach own off with
  | .nothing t f => (0, s.accEvent t f (t != own) false off)
  | .reserved => (0, s)
  | .array l a => s.liveWord l a
  | .reg l a r =>
    let (w, s) := s.liveWord l a
    let w := w &&& ~~~BitVec.ofNat 32 r.wo
    (w, if r.rc == 0 then s else s.setWord a (s.word a &&& ~~~BitVec.ofNat 32 r.rc))

/-- READ_CLEAR (R14, R46, R53): a read of n words from an aligned BAR0 offset, by the port or the firmware of a half; the
words are taken in ascending order. -/
def State.readWords (s : State) (own : Half) (off : Nat) : Nat → List Word × State
  | 0 => ([], s)
  | n + 1 =>
    let (w, s) := s.readWord own off
    let (ws, s) := State.readWords s own (off + 4) n
    (w :: ws, s)

def Accessor.half : Accessor → Half
  | .port h => h
  | .firmware h => h
  | .mantle h => h

/-- Whether Mantle's firmware makes the access. -/
def Accessor.isMantle : Accessor → Bool
  | .mantle _ => true
  | _ => false

/-- Where Mantle's firmware reaches an offset that half h would use: it needs no half link, and no half records its accesses
(R57). None while the half addressed is in reset, or where nothing is reached. DESIGN CHOICE (log 162). -/
def State.mantleReach (s : State) (h : Half) (off : Nat) : Option (Half × Nat) :=
  let (t, o) := if 0x1000000 ≤ off && off < 0x2000000 then (h.other, off - 0x1000000) else (h, off)
  if !s.mantleServes || (o < 0x1000000 && !s.coreUp t) then none
  else match s.reach t o with
    | .nothing _ _ => none
    | _ => some (t, o)

/-- A read of words by Mantle's firmware. -/
def State.mantleReads (s : State) (h : Half) (off : Nat) : Nat → List Word × State
  | 0 => ([], s)
  | n + 1 =>
    let (w, s) := match s.mantleReach h off with
      | none => ((0 : Word), s)
      | some (t, o) => s.readWord t o
    let (ws, s) := State.mantleReads s h (off + 4) n
    (w :: ws, s)

def readClear (who : Accessor) (off n : Nat) (s : State) : State :=
  let own := Accessor.half who
  if Accessor.isMantle who then
    if !s.mantleServes then s
    else
      let (ws, s) := s.mantleReads own (off / 4 * 4) (min n 16)
      { s with lastRead := ws }
  else if !s.coreUp own then s
  else
    let (ws, s) := s.readWords own (off / 4 * 4) (min n 16)
    { s with lastRead := ws }

def execReadClear (who : Accessor) (off n : Nat) (s : State) : Host.Outcome State Fault Refusal := .next (readClear who off n s)

/-! ### Snapshots (R58 to R64) -/

/-- SNAPSHOT (R62): every live slot copied to the holding array, with SEQ and TIME. -/
def snapshot (h : Half) (s : State) : State :=
  if !s.coreUp h then s
  else
    let c := B.cnt h
    let live := s.regs.filter fun (e : Nat × Word) => c ≤ e.1 && e.1 < c + 0x8000
    let s := s.clearRange (c + 0x8000) (c + 0x10000)
    let s := live.foldl (fun (s : State) (e : Nat × Word) => s.setWord (e.1 + 0x8000) e.2) s
    let b := B.cri h
    let s := s.put b F.CRI_SNAP_SEQ_SEQ (s.get b F.CRI_SNAP_SEQ_SEQ + 1)
    (s.put b F.CRI_SNAP_TIME_LO_TIME s.usTime).put b F.CRI_SNAP_TIME_HI_TIME (s.usTime / 2 ^ 32)

def execSnapshot (h : Half) (s : State) : Host.Outcome State Fault Refusal := .next (snapshot h s)

/-! ### Writes (R14, R51, R52) -/

/-- The bits of a word that a write changes by access type alone (R14). -/
def writeBits (r : RegSpec) (old v : Word) : Word :=
  let rw := BitVec.ofNat 32 r.rw
  let w := (old &&& ~~~rw) ||| (v &&& rw)
  (w &&& ~~~(v &&& BitVec.ofNat 32 r.w1c)) ||| (v &&& BitVec.ofNat 32 r.w1s)

/-- A write by access type alone. -/
def State.plainWrite (s : State) (a : Nat) (r : RegSpec) (v : Word) : State := s.setWord a (writeBits r (s.word a) v)

/-- Some bits of a word written. -/
def State.maskWrite (s : State) (a mask : Nat) (v : Word) : State :=
  let m := BitVec.ofNat 32 mask
  s.setWord a ((s.word a &&& ~~~m) ||| (v &&& m))

/-- Bits [lo + n - 1 : lo] of a word written. -/
def bitsOf (v : Word) (lo n : Nat) : Nat := (v.extractLsb' lo n).toNat

/-- A write to word j of ring q (R369, R370): BASE, and DEPTH when it changes, are ABORT class while the ring stays enabled;
EN cleared disables the ring before the rest is stored, EN set enables it after. DEDUCED (log 141). -/
def State.ringWrite (s : State) (h : Half) (cq : Bool) (q j : Nat) (v : Word) : State :=
  let a := sqB h q + (if cq then 0x3000 else 0x2000) + 4 * j
  let on := if cq then s.cqOn h q else s.sqOn h q
  if j ≤ 1 then
    let v' := if j == 0 then v &&& 0xFFFFFFC0 else v
    if v' == s.word a then s else s.ringChanged h cq q j v
  else if j == 3 then s.maskWrite a (if cq then 0x00FFFFFF else 0x1FFF) v
  else
    let rest := if cq then 0x21FF0000 else 0x00FF0000
    let en := v.getLsbD 31
    if on && en then
      let s := if bitsOf v 0 13 == s.get (sqB h q) (if cq then F.CQ_DEPTH else F.SQ_DEPTH) then s else s.ringChanged h cq q 2 v
      s.maskWrite a rest v
    else
      let s := if on then s.ringDisable h cq q else s
      let s := s.maskWrite a (rest + 0x1FFF) v
      if en then (if cq then s.cqEnable h q else s.sqEnable h q) else s

/-- A write to word j of an MSI-X table entry (R365): address, data, and the mask; a vector unmasked with its pending bit set
sends its message. PRESUMED (log 93). -/
def State.msixWrite (s : State) (h : Half) (v j : Nat) (w : Word) : State :=
  let s := s.maskWrite (B.hif h + 0x8000 + 16 * v + 4 * j) (if j == 0 then 0xFFFFFFFC else if j == 3 then 1 else 0xFFFFFFFF) w
  let a := B.hif h + 0xA000 + v / 32 * 4
  if j == 3 && !w.getLsbD 0 && (s.word a).getLsbD (v % 32) then
    (s.setWord a (s.word a &&& ~~~BitVec.ofNat 32 (2 ^ (v % 32)))).msix h v
  else s

/-- A write to an array page; none where the page takes no write from outside, which drops it as a read-only region.
DEDUCED (log 134). DEDUCED (log 142). -/
def State.arrayWrite (s : State) (h : Half) (l : Loc) (a : Nat) (v : Word) : Option State :=
  let o := l.off % 0x1000
  match l.blk, l.off / 0x1000 with
  | .hif, 2 => some (s.ringWrite h false (o / 16) (o / 4 % 4) v)
  | .hif, 3 => some (s.ringWrite h true (o / 16) (o / 4 % 4) v)
  | .hif, 8 => some (s.msixWrite h (o / 16) (o / 4 % 4) v)
  | .hif, 9 => some (s.msixWrite h (256 + o / 16) (o / 4 % 4) v)
  | .chm, 1 =>
    let k := o / 8
    some (if 1 ≤ k && k ≤ 34 then s.maskWrite a (if o % 8 == 0 then 0xFFFF00FF else 0x0000FFFF) v else s)
  | .wlp, p =>
    if s.bit (B.wlp h) F.WLP_CTL_EN then none
    else if p == 1 then
      if o % 16 == 8 && o / 16 < 163 then some (s.maskWrite a 0xFFFF003F v) else none
    else if 3 ≤ p && p ≤ 6 && 64 * (p - 3) + o / 64 < 163 then some (s.setWord a v)
    else none
  | _, _ => none

/-- Registers of the channel, formatter, Wick, servo, spindle and port units whose write does more than store (R89, R90, R123,
R161, R180, R211, R213, R247); none for the others. DEDUCED (log 138). -/
def State.mediaWrite (s : State) (h : Half) (l : Loc) (a : Nat) (r : RegSpec) (v : Word) : Option State :=
  let n := l.inst
  let bit := fun i => v.getLsbD i
  match l.blk, l.off with
  | .grz, 0 =>
    let s := portModeWrite h n (bitsOf v 0 2) s
    some (s.maskWrite a 4 v)
  | .grz, 0x1004 => some (pago h n (bit 0) (bit 1) s)
  | .rch, 0 =>
    let was := s.word a
    let s := if was.getLsbD 0 && !bit 0 then channelOff h n s else s
    let s := if bitsOf was 1 2 == bitsOf v 1 2 then s else channelCfg h n (bitsOf v 1 2) s
    let s := if was.getLsbD 4 && !bit 4 then s.realignOff (chId h n) else s
    some (s.plainWrite a r v)
  | .rch, 0x24 => some ((freeze h n (bit 0) s).plainWrite a r v)
  | .fmt, 0 =>
    let s := if (s.word a).getLsbD 0 && !bit 0 then formatOff h n s else s
    some (s.plainWrite a r v)
  | .fmt, 0x10 => some (formatTables h n false (v.toNat + (s.word (a + 4)).toNat * 2 ^ 32) s)
  | .fmt, 0x14 => some (formatTables h n false ((s.word (a - 4)).toNat + bitsOf v 0 10 * 2 ^ 32) s)
  | .fmt, 0x18 => some (formatTables h n true (v.toNat + (s.word (a + 4)).toNat * 2 ^ 32) s)
  | .fmt, 0x1C => some (formatTables h n true ((s.word (a - 4)).toNat + bitsOf v 0 10 * 2 ^ 32) s)
  | .wck, 0 =>
    let s := if (s.word a).getLsbD 0 && !bit 0 then wickOff h n s else s
    let s := s.plainWrite a r v
    some (if bit 1 then wickRestart h n s else s)
  | .srv, 0 =>
    let s := if bit 0 then servoEnSet h n s else if (s.word a).getLsbD 0 then servoOff h n s else s
    let s := s.plainWrite a r v
    let cmd := bitsOf v 3 2
    some (if cmd == 1 then cmdLoad h n s
      else if cmd == 2 then s.servoParkCmd (actId h n)
      else if cmd == 3 then s.servoRetract (actId h n) 4
      else s)
  | .srv, 0x2008 =>
    let s := if bit 0 then calSweep h n s else s
    some (if bit 1 then calOne h n (bitsOf v 16 12) s else s)
  | .spn, 0 =>
    let on := (s.word a).getLsbD 0
    let s := if on && !bit 0 then spindleOff h n s else if !on && bit 0 then spindleEnSet h n s else s
    let s := (s.plainWrite a r v).targetWrite (hdaId h n)
    let cmd := bitsOf v 1 2
    some (if cmd == 1 then s.spnStart (hdaId h n) else if cmd == 2 then s.spnStop (hdaId h n) false else s)
  | .spn, 0xC => some ((s.plainWrite a r v).targetWrite (hdaId h n))
  | _, _ => none

/-- Software has cleared the trip of a socket's switch (R30): the switch is tried again. DEDUCED (log 157). -/
def State.socketRetry (s : State) (h : Half) (n : Nat) : State :=
  let k := 8 * h.toNat + n
  if s.board.socketTripped.testBit k then
    { s with board := { s.board with socketTripped := s.board.socketTripped - 2 ^ k,
                                     socketClosed := s.board.socketClosed ||| 2 ^ k } }
  else s

/-- Registers of the buffer and the cache whose write does more than store (R30, R285, R286, R301, R304, R313, R314). -/
def State.storeWrite (s : State) (h : Half) (l : Loc) (a : Nat) (r : RegSpec) (v : Word) : Option State :=
  let bit := fun i => v.getLsbD i
  match l.blk, l.off with
  | .buf, 8 =>
    let s := s.plainWrite a r v
    some (if bit 1 then s.socketRetry h l.inst else s)
  | .buf, 0x2000 =>
    let s := s.maskWrite a 0xFF17 v
    some (if bit 3 == s.bit (B.buf h 0) F.BUF_CTL_BANK_SPARE then s else s.bankSpare h (bit 3))
  | .buf, 0x2014 => some (s.partitionWrite h 0 v)
  | .buf, 0x2018 => some (s.partitionWrite h 1 v)
  | .buf, 0x201C => some (s.partitionWrite h 2 v)
  | .buf, 0x2020 => some (s.partitionWrite h 3 v)
  | .buf, 0x2028 => some (s.partitionWrite h 4 v)
  | .buf, 0x202C => some (s.partitionWrite h 5 v)
  | .buf, 0x2034 => some (if bit 31 then s.regionRelease h (bitsOf v 0 26) else s.plainWrite a r v)
  | .buf, 0x3004 =>
    some (if bit 31 && bitsOf v 0 2 == 1 then pageRetire h [] s
      else if bit 31 && bitsOf v 0 2 == 2 then bankRetire h s else s)
  | .buf, 0x300C => some (if bit 0 then s.logClear h else s)
  | .bca, 0 => some ((s.cacheMode h (bitsOf v 0 2)).plainWrite a r v)
  | .bca, 0x10 =>
    some ((List.range 8).foldl (fun s k => if bit k then s.wayPowerDown h k else s.wayPowerUp h k) s)
  | .bca, 0x1008 => some (if bit 31 then s.maintStart h (bitsOf v 0 3) (bit 3) (bit 4) (bit 5) else s)
  | _, _ => none

/-- Registers of Service DMA whose write does more than store (R386, R390, R391). Channel 0's page takes no write from
outside, which none of the inner option says. DESIGN CHOICE (log 79). -/
def State.dmaWrite (s : State) (h : Half) (l : Loc) (a : Nat) (r : RegSpec) (v : Word) : Option (Option State) :=
  let page := l.off / 0x1000
  let o := l.off % 0x1000
  if l.blk != .sdm || page == 0 then none
  else if page == 1 then some none
  else
    let c := page - 1
    let b := sdmCh h c
    if o ≤ 0x10 then some (some (s.sdmReconfig h c (o / 4) v 0 []))
    else if o == 0x14 then
      let on := s.bit b F.SDM_CHCTL_EN
      let s := s.maskWrite a 0x01FF0010 v
      let s := if on && !v.getLsbD 0 then s.sdmDisable h c 0 [] else if !on && v.getLsbD 0 then s.sdmEnable h c else s
      some (some (if v.getLsbD 1 then s.sdmResume h c else s))
    else if o == 0x18 then
      some (some (if bitsOf v 0 10 ≥ s.ddepth h c then s.flag (B.sdm h) F.SDM_EVENTS_CFG_CHANGED
        else (s.plainWrite a r v).sdmShow h))
    else some (some (s.plainWrite a r v))

/-- Registers of the host interface, Coreri, the power domains, Chimney, the lamps, the request page and the mailbox whose
write does more than store (R62, R363, R366, R395, R401, R411, R426, R435, R464, R489, R496). DESIGN CHOICE (log 139). -/
def State.controlWrite (s : State) (h : Half) (l : Loc) (a : Nat) (r : RegSpec) (v : Word) : Option State :=
  let bit := fun i => v.getLsbD i
  match l.blk, l.off with
  | .hif, 0x10 => some (if bit 31 then s.setWord a 0 else s)
  | .hif, 0x14 => some (if bit 31 then s.lostClear h else s)
  | .cri, 0 => some (if bit 0 then snapshot h s else s)
  | .chm, 0xC => some (if bit 31 then recordClose h (bitsOf v 0 6) s else s)
  | .chm, 0x14 => some (chmRaise h (bitsOf v 0 23) s)
  | .wlp, 0x18 => some (s.wlpFeed h (bitsOf v 0 8) (bitsOf v 16 16))
  | .pwr, 0xF000 =>
    let s := s.plainWrite a r v
    some (if bit 31 then s.resetRequest h (bitsOf v 0 2) (bitsOf v 2 8) (bitsOf v 16 8) else s)
  | .pwr, 0xF008 => some (if bit 0 then configured h s else s)
  | .mbx, 8 =>
    let s := s.plainWrite a r v
    some (if bit 31 then
        s.mailbox h (bitsOf v 0 8) (bitsOf v 8 4) (s.get (B.mbx h) F.MNT_MBARG0_ARG0) (s.get (B.mbx h) F.MNT_MBARG1_ARG1)
      else s)
  | .mbx, 0x14 => some (leaseWrite h (bitsOf v 0 8) (bitsOf v 8 8) s)
  | .mbx, 0x18 => some (kick h (bitsOf v 0 16) s)
  | .pwr, o => if 0x1000 ≤ o && o < 0x1068 then some (s.policyWrite h ((o - 0x1000) / 4) v) else none
  | _, _ => none

/-- Whether only the half's control firmware may write: the mailbox and the request page (R394, R444). -/
def firmwareOnly (l : Loc) : Bool := l.blk == .mbx || (l.blk == .pwr && l.off / 0x1000 == 15)

/-- A write that reaches a register of a half; none where it is dropped as R57 RDONLY. DESIGN CHOICE (log 140). -/
def State.regWrite (s : State) (who : Accessor) (h : Half) (l : Loc) (a : Nat) (r : RegSpec) (v : Word) : Option State :=
  if r.mnt != 0 || (firmwareOnly l && who != .firmware h) then none
  else match s.dmaWrite h l a r v with
    | some t => t
    | none => some (((s.mediaWrite h l a r v).or ((s.storeWrite h l a r v).or (s.controlWrite h l a r v))).getD
        (s.plainWrite a r v))

/-- A write of one word with its byte enables (R47, R51, R67 to R69); every write to the Mantle region is dropped with RDONLY.
DEDUCED (log 133). -/
def State.writeWord (s : State) (who : Accessor) (off : Nat) (v : Word) (be : Nat) : State :=
  let own := Accessor.half who
  let remote := 0x1000000 ≤ off && off < 0x2000000
  let t := if remote then own.other else own
  let s := if remote then s.demand own 3 else s
  if remote && !s.peerUp own then s.accEvent own F.HIF_ACCSTAT_REMOTE_FAIL false true off
  else if be % 16 != 15 then s.accEvent t F.HIF_ACCSTAT_PARTIAL remote true off
  else if (remote && !s.strapBit 1) || (0x2000000 ≤ off && off < 0x2100000) then
    s.accEvent t F.HIF_ACCSTAT_RDONLY remote true off
  else
    let drop := s.accEvent t F.HIF_ACCSTAT_RDONLY remote true off
    match s.reach own off with
    | .nothing t' f => s.accEvent t' f (t' != own) true off
    | .reserved => s
    | .array l a => match l.half with
      | none => drop
      | some h => (s.arrayWrite h l a v).getD drop
    | .reg l a r => match l.half with
      | none => drop
      | some h => (s.regWrite who h l a r v).getD drop

/-- REGISTER_WRITE (R46, R51): a write of words with their byte enables from an aligned BAR0 offset, by the port or the
firmware of a half, taken in ascending order. DESIGN CHOICE (log 137). -/
def State.writeWords (s : State) (who : Accessor) (off : Nat) : List (Word × Nat) → State
  | [] => s
  | (v, be) :: ws => State.writeWords (s.writeWord who off v be) who (off + 4) ws

/-- The MNT bits of a word that Mantle's firmware writes (R14): those of a register, or the words of Mantle's classification
array (R493). Both motor dies show the same motor bus (R251). -/
def State.mntWord (s : State) (h : Half) (off : Nat) (v : Word) : State :=
  match s.mantleReach h off with
  | none => s
  | some (t, o) => match s.reach t o with
    | .reg l a r =>
      if r.mnt == 0 then s
      else if l.blk == .mot then (s.maskWrite (B.mot .a + l.off) r.mnt v).maskWrite (B.mot .b + l.off) r.mnt v
      else s.maskWrite a r.mnt v
    | .array l a =>
      if l.blk == .evt && l.off / 0x1000 == 2 then s.maskWrite a (if l.off % 8 == 0 then 0xFFFF00FF else 0x0000FFFF) v else s
    | _ => s

/-- The writes of Mantle's firmware: whole words, in ascending order. -/
def State.mntWords (s : State) (h : Half) (off : Nat) : List (Word × Nat) → State
  | [] => s
  | (v, be) :: ws => State.mntWords (if be % 16 == 15 then s.mntWord h off v else s) h (off + 4) ws

/-- An 8-byte access to both words of a pair of partition registers (R46): SEGMENT with STAGING, or the two quota words. The
half, and the address of the first. -/
def State.partPair (s : State) (who : Accessor) (off : Nat) : Option (Half × Nat) :=
  let own := Accessor.half who
  let remote := 0x1000000 ≤ off && off < 0x2000000
  if off % 8 != 0 || (remote && !s.strapBit 1) then none
  else match s.reach own off, s.reach own (off + 4) with
    | .reg l a _, .reg l' a' _ =>
      match l.half with
      | some h =>
        if l.blk == .buf && (l.off == 0x2018 || l.off == 0x2028) && l'.off == l.off + 4 && a' == a + 4 then some (h, a) else none
      | none => none
    | _, _ => none

/-- The words of a write, applied in one block clock where R46 says so: two full words of a partition pair are checked together.
Elsewhere a unit sees no difference. -/
def State.writeAll (s : State) (who : Accessor) (off : Nat) (words : List (Word × Nat)) : State :=
  match words with
  | [(v, 15), (w, 15)] =>
    match s.partPair who off with
    | some (h, a) =>
      let s := if 0x1000000 ≤ off then s.demand (Accessor.half who) 3 else s
      ((s.setWord a v).setWord (a + 4) w).partCheck h
    | none => s.writeWords who off words
  | _ => s.writeWords who off words

def registerWrite (who : Accessor) (off : Nat) (words : List (Word × Nat)) (s : State) : State :=
  let own := Accessor.half who
  if Accessor.isMantle who then (if s.mantleServes then s.mntWords own (off / 4 * 4) words else s)
  else if s.coreUp own then s.writeAll who (off / 4 * 4) words
  else s

def execRegisterWrite (who : Accessor) (off : Nat) (words : List (Word × Nat)) (s : State) :
    Host.Outcome State Fault Refusal := .next (registerWrite who off words s)

/-- STRAY_ACCESS (R50, R69, R321): an access of one word that reaches nothing in BAR0, or one to BAR2 that is no doorbell:
reads return 0, writes are dropped and set STRAY. DEDUCED (log 145). -/
def strayAccess (who : Accessor) (bar2 write : Bool) (off : Nat) (s : State) : State :=
  let own := Accessor.half who
  let off := off / 4 * 4
  if Accessor.isMantle who || !s.coreUp own then s
  else if bar2 then
    if !write then { s with lastRead := [0] }
    else if off % 64 == 0 && (off / 64 < 256 || (0x80000 ≤ off && off / 64 - 0x2000 < 256)) then s
    else s.accEvent own F.HIF_ACCSTAT_STRAY false true off
  else match s.reach own off with
    | .nothing _ _ =>
      if write then s.writeWord who off 0 15
      else
        let (w, s) := s.readWord own off
        { s with lastRead := [w] }
    | _ => s

def execStrayAccess (who : Accessor) (bar2 write : Bool) (off : Nat) (s : State) : Host.Outcome State Fault Refusal :=
  .next (strayAccess who bar2 write off s)

end Sys2Proof.Machine
end

