-- ==== Sys2Proof/Machine/Dispatch.lean ====
section
/-! DEFINITION. The meaning of every command, one direct call each. -/

namespace Sys2Proof.Machine

/-- The effect of a command on everything but the queue. -/
def exec (i : Instr) (s : State) : Host.Outcome State Fault Refusal :=
  match i with
  | .auxPowerGood => Sys2Proof.Machine.execAuxPowerGood s
  | .strapConversion ohm => Sys2Proof.Machine.execStrapConversion ohm s
  | .strapSetEnd coldPlate => Sys2Proof.Machine.execStrapSetEnd coldPlate s
  | .strapRetry => Sys2Proof.Machine.execStrapRetry s
  | .hotSwapClose => Sys2Proof.Machine.execHotSwapClose s
  | .hotSwapRampEnd => Sys2Proof.Machine.execHotSwapRampEnd s
  | .psenNHigh => Sys2Proof.Machine.execPsenNHigh s
  | .busBrownOut => Sys2Proof.Machine.execBusBrownOut s
  | .auxBo => Sys2Proof.Machine.execAuxBo s
  | .auxBoMantleReset => Sys2Proof.Machine.execAuxBoMantleReset s
  | .cold => Sys2Proof.Machine.execCold s
  | .mrst => Sys2Proof.Machine.execMrst s
  | .perstAssert h => Sys2Proof.Machine.execPerstAssert h s
  | .hotReset h => Sys2Proof.Machine.execHotReset h s
  | .flr h => Sys2Proof.Machine.execFlr h s
  | .cablePresenceHigh h => Sys2Proof.Machine.execCablePresenceHigh h s
  | .linkDownTimeout h => Sys2Proof.Machine.execLinkDownTimeout h s
  | .linkTrained h speed x8 flit cable => Sys2Proof.Machine.execLinkTrained h speed x8 flit cable s
  | .socketTrip h n => Sys2Proof.Machine.execSocketTrip h n s
  | .traceProbeChange low => Sys2Proof.Machine.execTraceProbeChange low s
  | .shockSample p => Sys2Proof.Machine.execShockSample p s
  | .feedforwardTimeout h => Sys2Proof.Machine.execFeedforwardTimeout h s
  | .snufferShock h level => Sys2Proof.Machine.execSnufferShock h level s
  | .snufferRearm h u cause peak => Sys2Proof.Machine.execSnufferRearm h u cause peak s
  | .registerWrite who off words => Sys2Proof.Machine.execRegisterWrite who off words s
  | .strayAccess who bar2 write off => Sys2Proof.Machine.execStrayAccess who bar2 write off s
  | .readClear who off n => Sys2Proof.Machine.execReadClear who off n s
  | .snapshot h => Sys2Proof.Machine.execSnapshot h s
  | .presenceLow h n => Sys2Proof.Machine.execPresenceLow h n s
  | .presenceHigh h n pin => Sys2Proof.Machine.execPresenceHigh h n pin s
  | .debounceElapsed h n => Sys2Proof.Machine.execDebounceElapsed h n s
  | .eepromReadStart h n => Sys2Proof.Machine.execEepromReadStart h n s
  | .eepromReadDone h n bytes => Sys2Proof.Machine.execEepromReadDone h n bytes s
  | .preampFrameEnd h u resp => Sys2Proof.Machine.execPreampFrameEnd h u resp s
  | .pago h n act0 act1 => Sys2Proof.Machine.execPago h n act0 act1 s
  | .portModeWrite h n mode => Sys2Proof.Machine.execPortModeWrite h n mode s
  | .preampSupplyOverload h n neg => Sys2Proof.Machine.execPreampSupplyOverload h n neg s
  | .preampFault h u fault => Sys2Proof.Machine.execPreampFault h u fault s
  | .persistentFaultCheck h u fault => Sys2Proof.Machine.execPersistentFaultCheck h u fault s
  | .readGateRise h n => Sys2Proof.Machine.execReadGateRise h n s
  | .lockCheck h n phase errs => Sys2Proof.Machine.execLockCheck h n phase errs s
  | .syncWindowClose h n rx last errs => Sys2Proof.Machine.execSyncWindowClose h n rx last errs s
  | .readGateFall h n errs => Sys2Proof.Machine.execReadGateFall h n errs s
  | .servoGateRise h u => Sys2Proof.Machine.execServoGateRise h u s
  | .servoGateFall h u => Sys2Proof.Machine.execServoGateFall h u s
  | .resyncWindowClose h n phase rx errs => Sys2Proof.Machine.execResyncWindowClose h n phase rx errs s
  | .lastCodewordSymbol h n amp0 amp1 errs => Sys2Proof.Machine.execLastCodewordSymbol h n amp0 amp1 errs s
  | .firstDecodeEnd h n iters cw => Sys2Proof.Machine.execFirstDecodeEnd h n iters cw s
  | .redetectionDone h n => Sys2Proof.Machine.execRedetectionDone h n s
  | .hypothesisDecodeEnd h n iters cw => Sys2Proof.Machine.execHypothesisDecodeEnd h n iters cw s
  | .recoveryRoundEnd h n iters cw => Sys2Proof.Machine.execRecoveryRoundEnd h n iters cw s
  | .verifyStart h n => Sys2Proof.Machine.execVerifyStart h n s
  | .verifyDecodeEnd h n frame rx iters cw => Sys2Proof.Machine.execVerifyDecodeEnd h n frame rx iters cw s
  | .channelOff h n => Sys2Proof.Machine.execChannelOff h n s
  | .channelCfg h n readers => Sys2Proof.Machine.execChannelCfg h n readers s
  | .freeze h n on => Sys2Proof.Machine.execFreeze h n on s
  | .frozen h n => Sys2Proof.Machine.execFrozen h n s
  | .bandSplit h u => Sys2Proof.Machine.execBandSplit h u s
  | .grownListWrite h u => Sys2Proof.Machine.execGrownListWrite h u s
  | .heaterFrameUpdate h u => Sys2Proof.Machine.execHeaterFrameUpdate h u s
  | .formatOff h u => Sys2Proof.Machine.execFormatOff h u s
  | .formatTables h u defects addr => Sys2Proof.Machine.execFormatTables h u defects addr s
  | .readPass h u => Sys2Proof.Machine.execReadPass h u s
  | .writePass h u ues => Sys2Proof.Machine.execWritePass h u ues s
  | .verifyPass h u => Sys2Proof.Machine.execVerifyPass h u s
  | .rewriteEntry h u => Sys2Proof.Machine.execRewriteEntry h u s
  | .retryRevolution h u => Sys2Proof.Machine.execRetryRevolution h u s
  | .systemBandRead h u => Sys2Proof.Machine.execSystemBandRead h u s
  | .seekOnly h u band => Sys2Proof.Machine.execSeekOnly h u band s
  | .park h u => Sys2Proof.Machine.execPark h u s
  | .nop h u cond => Sys2Proof.Machine.execNop h u cond s
  | .jmp h u cond target => Sys2Proof.Machine.execJmp h u cond target s
  | .call h u cond target => Sys2Proof.Machine.execCall h u cond target s
  | .ret h u cond => Sys2Proof.Machine.execRet h u cond s
  | .loop h u cond xd target => Sys2Proof.Machine.execLoop h u cond xd target s
  | .ldi h u cond xd imm => Sys2Proof.Machine.execLdi h u cond xd imm s
  | .addi h u cond xd imm => Sys2Proof.Machine.execAddi h u cond xd imm s
  | .alu h u cond xd xs fn => Sys2Proof.Machine.execAlu h u cond xd xs fn s
  | .ldop h u cond xd fld => Sys2Proof.Machine.execLdop h u cond xd fld s
  | .loc h u cond xs => Sys2Proof.Machine.execLoc h u cond xs s
  | .wwed h u cond xs => Sys2Proof.Machine.execWwed h u cond xs s
  | .wsym h u cond base pos at_ => Sys2Proof.Machine.execWsym h u cond base pos at_ s
  | .edge h u cond base wg rg pos at_ => Sys2Proof.Machine.execEdge h u cond base wg rg pos at_ s
  | .sect h u cond last write xs at_ => Sys2Proof.Machine.execSect h u cond last write xs at_ s
  | .wch h u cond => Sys2Proof.Machine.execWch h u cond s
  | .recov h u cond xs => Sys2Proof.Machine.execRecov h u cond xs s
  | .frm h u cond frame => Sys2Proof.Machine.execFrm h u cond frame s
  | .frmx h u cond rw addr xs => Sys2Proof.Machine.execFrmx h u cond rw addr xs s
  | .seek h u cond xs kind => Sys2Proof.Machine.execSeek h u cond xs kind s
  | .wcond h u cond timeout => Sys2Proof.Machine.execWcond h u cond timeout s
  | .post h u cond status => Sys2Proof.Machine.execPost h u cond status s
  | .evt h u cond code => Sys2Proof.Machine.execEvt h u cond code s
  | .halt h u cond => Sys2Proof.Machine.execHalt h u cond s
  | .illegal h u cond op operand => Sys2Proof.Machine.execIllegal h u cond op operand s
  | .stallRelease h u cycles at_ => Sys2Proof.Machine.execStallRelease h u cycles at_ s
  | .wcondTimeout h u => Sys2Proof.Machine.execWcondTimeout h u s
  | .edgeApply h u ev => Sys2Proof.Machine.execEdgeApply h u ev s
  | .abortVector h u at_ => Sys2Proof.Machine.execAbortVector h u at_ s
  | .restart h u => Sys2Proof.Machine.execRestart h u s
  | .wickOff h u => Sys2Proof.Machine.execWickOff h u s
  | .patchApply h u => Sys2Proof.Machine.execPatchApply h u s
  | .patchRewrite h u => Sys2Proof.Machine.execPatchRewrite h u s
  | .servoDemodEnd h u samples interval => Sys2Proof.Machine.execServoDemodEnd h u samples interval s
  | .servoComputationEnd h u ns => Sys2Proof.Machine.execServoComputationEnd h u ns s
  | .servoOutputApply h u => Sys2Proof.Machine.execServoOutputApply h u s
  | .implausRetract h u => Sys2Proof.Machine.execImplausRetract h u s
  | .reachAlarm h u => Sys2Proof.Machine.execReachAlarm h u s
  | .profileEnd h u => Sys2Proof.Machine.execProfileEnd h u s
  | .seekSettled h u => Sys2Proof.Machine.execSeekSettled h u s
  | .seekTimeout h u => Sys2Proof.Machine.execSeekTimeout h u s
  | .cmdLoad h u => Sys2Proof.Machine.execCmdLoad h u s
  | .loadLock h u => Sys2Proof.Machine.execLoadLock h u s
  | .loadFail h u => Sys2Proof.Machine.execLoadFail h u s
  | .cmdPark h u => Sys2Proof.Machine.execCmdPark h u s
  | .cmdRetract h u => Sys2Proof.Machine.execCmdRetract h u s
  | .stopReached h u vel => Sys2Proof.Machine.execStopReached h u vel s
  | .latchPushEnd h u => Sys2Proof.Machine.execLatchPushEnd h u s
  | .retractTmo h u => Sys2Proof.Machine.execRetractTmo h u s
  | .servoEnSet h u => Sys2Proof.Machine.execServoEnSet h u s
  | .servoOff h u => Sys2Proof.Machine.execServoOff h u s
  | .calOne h u seg => Sys2Proof.Machine.execCalOne h u seg s
  | .calSweep h u => Sys2Proof.Machine.execCalSweep h u s
  | .calBackground h u => Sys2Proof.Machine.execCalBackground h u s
  | .calMeasureEnd h u => Sys2Proof.Machine.execCalMeasureEnd h u s
  | .commutationStep h n o => Sys2Proof.Machine.execCommutationStep h n o s
  | .skipRun h n => Sys2Proof.Machine.execSkipRun h n s
  | .rotorLost h n => Sys2Proof.Machine.execRotorLost h n s
  | .bridgeOcp h n => Sys2Proof.Machine.execBridgeOcp h n s
  | .electricalCycle h n duty id => Sys2Proof.Machine.execElectricalCycle h n duty id s
  | .keMeasure h n keRaw temp => Sys2Proof.Machine.execKeMeasure h n keRaw temp s
  | .keRepeat h n keRaw temp => Sys2Proof.Machine.execKeRepeat h n keRaw temp s
  | .start h n => Sys2Proof.Machine.execStart h n s
  | .stop h n => Sys2Proof.Machine.execStop h n s
  | .spindleEnSet h n => Sys2Proof.Machine.execSpindleEnSet h n s
  | .spindleOff h n => Sys2Proof.Machine.execSpindleOff h n s
  | .taperSlotGrant => Sys2Proof.Machine.execTaperSlotGrant s
  | .alignEnd h n => Sys2Proof.Machine.execAlignEnd h n s
  | .senseEnd h n peaks => Sys2Proof.Machine.execSenseEnd h n peaks s
  | .rampHandover h n => Sys2Proof.Machine.execRampHandover h n s
  | .rampTimeout h n => Sys2Proof.Machine.execRampTimeout h n s
  | .taperEnd h n rdson => Sys2Proof.Machine.execTaperEnd h n rdson s
  | .coastEnd h n => Sys2Proof.Machine.execCoastEnd h n s
  | .catchEstimate h n speed1 angle1 speed2 angle2 => Sys2Proof.Machine.execCatchEstimate h n speed1 angle1 speed2 angle2 s
  | .catchOk h n => Sys2Proof.Machine.execCatchOk h n s
  | .catchFail h n => Sys2Proof.Machine.execCatchFail h n s
  | .parkRpmReached h n => Sys2Proof.Machine.execParkRpmReached h n s
  | .brakeStart h n => Sys2Proof.Machine.execBrakeStart h n s
  | .brakeSlotGrant => Sys2Proof.Machine.execBrakeSlotGrant s
  | .stopRpmReached h n => Sys2Proof.Machine.execStopRpmReached h n s
  | .speedBelow30rpm h n => Sys2Proof.Machine.execSpeedBelow30rpm h n s
  | .ladderStep1 mv => Sys2Proof.Machine.execLadderStep1 mv s
  | .chopperOff mv joules => Sys2Proof.Machine.execChopperOff mv joules s
  | .ladderStep2 mv => Sys2Proof.Machine.execLadderStep2 mv s
  | .ladderStep3 mv => Sys2Proof.Machine.execLadderStep3 mv s
  | .ladderRelease mv => Sys2Proof.Machine.execLadderRelease mv s
  | .chopperFail kind => Sys2Proof.Machine.execChopperFail kind s
  | .chopperTest pass => Sys2Proof.Machine.execChopperTest pass s
  | .chopHot => Sys2Proof.Machine.execChopHot s
  | .chopCool => Sys2Proof.Machine.execChopCool s
  | .budgetWindow watts mv => Sys2Proof.Machine.execBudgetWindow watts mv s
  | .seekLimit => Sys2Proof.Machine.execSeekLimit s
  | .budgetLift => Sys2Proof.Machine.execBudgetLift s
  | .dimmIdentify h dimms => Sys2Proof.Machine.execDimmIdentify h dimms s
  | .pmicPowerGood h => Sys2Proof.Machine.execPmicPowerGood h s
  | .trainingAttemptEnd h failed => Sys2Proof.Machine.execTrainingAttemptEnd h failed s
  | .dimmTempRead h n temp => Sys2Proof.Machine.execDimmTempRead h n temp s
  | .bufferRead h cls ha len errs bitmap => Sys2Proof.Machine.execBufferRead h cls ha len errs bitmap s
  | .bufferWrite h cls ha bytes errs => Sys2Proof.Machine.execBufferWrite h cls ha bytes errs s
  | .zeroFillDone h region => Sys2Proof.Machine.execZeroFillDone h region s
  | .mergeFlush h page idle errs => Sys2Proof.Machine.execMergeFlush h page idle errs s
  | .regionRelease h count => Sys2Proof.Machine.execRegionRelease h count s
  | .scrubStep h ch us errs => Sys2Proof.Machine.execScrubStep h ch us errs s
  | .pageRetire h errs => Sys2Proof.Machine.execPageRetire h errs s
  | .bankRetire h => Sys2Proof.Machine.execBankRetire h s
  | .retireDone h errs => Sys2Proof.Machine.execRetireDone h errs s
  | .logClear h => Sys2Proof.Machine.execLogClear h s
  | .partitionWrite h k w => Sys2Proof.Machine.execPartitionWrite h k w s
  | .bankSpare h on => Sys2Proof.Machine.execBankSpare h on s
  | .cacheRequest h cls write ha len bytes sram errs => Sys2Proof.Machine.execCacheRequest h cls write ha len bytes sram errs s
  | .cacheFillDone h reg errs => Sys2Proof.Machine.execCacheFillDone h reg errs s
  | .writebackAccepted h page => Sys2Proof.Machine.execWritebackAccepted h page s
  | .cacheModeWrite h mode => Sys2Proof.Machine.execCacheModeWrite h mode s
  | .clean h range all incl => Sys2Proof.Machine.execClean h range all incl s
  | .inv h range all incl => Sys2Proof.Machine.execInv h range all incl s
  | .cleanInv h range all incl => Sys2Proof.Machine.execCleanInv h range all incl s
  | .lock h range all incl => Sys2Proof.Machine.execLock h range all incl s
  | .unlock h range all incl => Sys2Proof.Machine.execUnlock h range all incl s
  | .maintenanceDone h => Sys2Proof.Machine.execMaintenanceDone h s
  | .wayPowerDown h k => Sys2Proof.Machine.execWayPowerDown h k s
  | .wayWalkEnd h k => Sys2Proof.Machine.execWayWalkEnd h k s
  | .wayPowerUp h k => Sys2Proof.Machine.execWayPowerUp h k s
  | .wayOnDone h k => Sys2Proof.Machine.execWayOnDone h k s
  | .sqDoorbell h q tail => Sys2Proof.Machine.execSqDoorbell h q tail s
  | .cqDoorbell h q head => Sys2Proof.Machine.execCqDoorbell h q head s
  | .descriptorFetch h words list => Sys2Proof.Machine.execDescriptorFetch h words list s
  | .commandStart h => Sys2Proof.Machine.execCommandStart h s
  | .read h n ues => Sys2Proof.Machine.execRead h n ues s
  | .write h n => Sys2Proof.Machine.execWrite h n s
  | .writeStaged h n data ue => Sys2Proof.Machine.execWriteStaged h n data ue s
  | .verify h n => Sys2Proof.Machine.execVerify h n s
  | .flush h n => Sys2Proof.Machine.execFlush h n s
  | .trim h n => Sys2Proof.Machine.execTrim h n s
  | .pin h n => Sys2Proof.Machine.execPin h n s
  | .unpin h n => Sys2Proof.Machine.execUnpin h n s
  | .prefetch h n => Sys2Proof.Machine.execPrefetch h n s
  | .setClass h n => Sys2Proof.Machine.execSetClass h n s
  | .setEmberRate h n => Sys2Proof.Machine.execSetEmberRate h n s
  | .identify h n => Sys2Proof.Machine.execIdentify h n s
  | .logRead h n => Sys2Proof.Machine.execLogRead h n s
  | .hdaAttach h n tables => Sys2Proof.Machine.execHdaAttach h n tables s
  | .hdaDetach h n => Sys2Proof.Machine.execHdaDetach h n s
  | .nsCreate h n => Sys2Proof.Machine.execNsCreate h n s
  | .nsDelete h n => Sys2Proof.Machine.execNsDelete h n s
  | .retire h n errs => Sys2Proof.Machine.execRetire h n errs s
  | .firmwareLoad h n bytes => Sys2Proof.Machine.execFirmwareLoad h n bytes s
  | .microcodeLoad h n bytes => Sys2Proof.Machine.execMicrocodeLoad h n bytes s
  | .completionPost h n => Sys2Proof.Machine.execCompletionPost h n s
  | .interruptAggTimeout h q us => Sys2Proof.Machine.execInterruptAggTimeout h q us s
  | .payloadTimeout h n => Sys2Proof.Machine.execPayloadTimeout h n s
  | .lateCpl h dma => Sys2Proof.Machine.execLateCpl h dma s
  | .sqEnable h q => Sys2Proof.Machine.execSqEnable h q s
  | .cqEnable h q => Sys2Proof.Machine.execCqEnable h q s
  | .ringChanged h cq q w v => Sys2Proof.Machine.execRingChanged h cq q w v s
  | .ringDisable h cq q => Sys2Proof.Machine.execRingDisable h cq q s
  | .lostLogClear h => Sys2Proof.Machine.execLostLogClear h s
  | .sdmTakeChannel h words ue => Sys2Proof.Machine.execSdmTakeChannel h words ue s
  | .sdmDescriptorEnd h data ue next => Sys2Proof.Machine.execSdmDescriptorEnd h data ue next s
  | .sdmHostTimeout h data => Sys2Proof.Machine.execSdmHostTimeout h data s
  | .sdmChannelEnable h c => Sys2Proof.Machine.execSdmChannelEnable h c s
  | .resume h c => Sys2Proof.Machine.execResume h c s
  | .sdmChannelDisable h c moved data => Sys2Proof.Machine.execSdmChannelDisable h c moved data s
  | .sdmChannelReconfig h c w v moved data => Sys2Proof.Machine.execSdmChannelReconfig h c w v moved data s
  | .claim h seq arg0 arg1 => Sys2Proof.Machine.execClaim h seq arg0 arg1 s
  | .release h seq arg0 arg1 => Sys2Proof.Machine.execRelease h seq arg0 arg1 s
  | .retract h seq arg0 arg1 => Sys2Proof.Machine.execRetract h seq arg0 arg1 s
  | .wdConfig h seq arg0 arg1 => Sys2Proof.Machine.execWdConfig h seq arg0 arg1 s
  | .intakeOpen h seq arg0 arg1 => Sys2Proof.Machine.execIntakeOpen h seq arg0 arg1 s
  | .intakeCheck h seq arg0 arg1 => Sys2Proof.Machine.execIntakeCheck h seq arg0 arg1 s
  | .intakeCancel h seq arg0 arg1 => Sys2Proof.Machine.execIntakeCancel h seq arg0 arg1 s
  | .nextSlot h seq arg0 arg1 => Sys2Proof.Machine.execNextSlot h seq arg0 arg1 s
  | .badOp h op seq arg0 arg1 => Sys2Proof.Machine.execBadOp h op seq arg0 arg1 s
  | .intakeTimeout => Sys2Proof.Machine.execIntakeTimeout s
  | .pollTick => Sys2Proof.Machine.execPollTick s
  | .leaseWrite h held echo => Sys2Proof.Machine.execLeaseWrite h held echo s
  | .leaseDeadline => Sys2Proof.Machine.execLeaseDeadline s
  | .lapse hd => Sys2Proof.Machine.execLapse hd s
  | .sequencerStop h u vel => Sys2Proof.Machine.execSequencerStop h u vel s
  | .retdone h u => Sys2Proof.Machine.execRetdone h u s
  | .rettmo h u us => Sys2Proof.Machine.execRettmo h u us s
  | .kick h key => Sys2Proof.Machine.execKick h key s
  | .wdWarn h ms => Sys2Proof.Machine.execWdWarn h ms s
  | .wdStage2 h => Sys2Proof.Machine.execWdStage2 h s
  | .slotCheckDone h ok => Sys2Proof.Machine.execSlotCheckDone h ok s
  | .lockstepMismatch => Sys2Proof.Machine.execLockstepMismatch s
  | .halfResetRequest h target key => Sys2Proof.Machine.execHalfResetRequest h target key s
  | .hdaResetRequest h target key => Sys2Proof.Machine.execHdaResetRequest h target key s
  | .blockResetRequest h target key => Sys2Proof.Machine.execBlockResetRequest h target key s
  | .coldRelease => Sys2Proof.Machine.execColdRelease s
  | .auxBoRelease => Sys2Proof.Machine.execAuxBoRelease s
  | .mainBoRelease => Sys2Proof.Machine.execMainBoRelease s
  | .mrstRelease => Sys2Proof.Machine.execMrstRelease s
  | .halfRelease h => Sys2Proof.Machine.execHalfRelease h s
  | .portRelease h => Sys2Proof.Machine.execPortRelease h s
  | .hdaResetRelease h n => Sys2Proof.Machine.execHdaResetRelease h n s
  | .blockRelease h code => Sys2Proof.Machine.execBlockRelease h code s
  | .wrapperDrained h code => Sys2Proof.Machine.execWrapperDrained h code s
  | .lanternRelease => Sys2Proof.Machine.execLanternRelease s
  | .configured h => Sys2Proof.Machine.execConfigured h s
  | .railGood h rail => Sys2Proof.Machine.execRailGood h rail s
  | .railFault h rail => Sys2Proof.Machine.execRailFault h rail s
  | .domainGate h d us => Sys2Proof.Machine.execDomainGate h d us s
  | .domainFloor h d us => Sys2Proof.Machine.execDomainFloor h d us s
  | .domainWake h d late => Sys2Proof.Machine.execDomainWake h d late s
  | .domainWakeDone h d => Sys2Proof.Machine.execDomainWakeDone h d s
  | .policyWrite h d w => Sys2Proof.Machine.execPolicyWrite h d w s
  | .meterOver h mean => Sys2Proof.Machine.execMeterOver h mean s
  | .pllUnlock h c => Sys2Proof.Machine.execPllUnlock h c s
  | .refFail h => Sys2Proof.Machine.execRefFail h s
  | .motlinkStop h => Sys2Proof.Machine.execMotlinkStop h s
  | .pcieRefLost h => Sys2Proof.Machine.execPcieRefLost h s
  | .glimTick => Sys2Proof.Machine.execGlimTick s
  | .glimFail => Sys2Proof.Machine.execGlimFail s
  | .chimneyMessage h => Sys2Proof.Machine.execChimneyMessage h s
  | .recordClose h index => Sys2Proof.Machine.execRecordClose h index s
  | .chmRaise h hintHi => Sys2Proof.Machine.execChmRaise h hintHi s
  | .mantleMessage => Sys2Proof.Machine.execMantleMessage s
  | .mantleRecordClose src => Sys2Proof.Machine.execMantleRecordClose src s
  | .eventRecordWrite => Sys2Proof.Machine.execEventRecordWrite s
  | .lampMeasurement h k raw secs => Sys2Proof.Machine.execLampMeasurement h k raw secs s
  | .sampleIntervalClose h => Sys2Proof.Machine.execSampleIntervalClose h s
  | .wlpFeed h k power => Sys2Proof.Machine.execWlpFeed h k power s
  | .traceTimePacket h => Sys2Proof.Machine.execTraceTimePacket h s
  | .tracePacketSend h => Sys2Proof.Machine.execTracePacketSend h s
  | .deskewBlock h => Sys2Proof.Machine.execDeskewBlock h s
  | .linkDown h => Sys2Proof.Machine.execLinkDown h s
  | .halfLinkDown => Sys2Proof.Machine.execHalfLinkDown s
  | .halfLinkUp => Sys2Proof.Machine.execHalfLinkUp s
  | .hostAccess h n data => Sys2Proof.Machine.execHostAccess h n data s
  | .mantleRailLoss => Sys2Proof.Machine.execMantleRailLoss s
  | .rateRangeTimeout h u => Sys2Proof.Machine.execRateRangeTimeout h u s
  | .coreRestartDone => Sys2Proof.Machine.execCoreRestartDone s

end Sys2Proof.Machine
end

