-- ==== Sys2Proof/WellFormed.lean ====
section
/-! DEFINITION. Well-formed microwords and commands: every unit number, register number, index and field within the bounds
that the spec gives it (R16, R46, R65, R71, R168, R366, R390, R448, R467, R481). -/

namespace Sys2Proof

/-- The operands of a microword fit the fields of its layout (R168); `illegal` carries a reserved OPCODE. -/
def Micro.wf : Micro → Bool
  | .nop | .ret | .wch | .halt => true
  | .jmp t | .call t => decide (t < 0x8000)
  | .loop xd t => decide (xd < 8 ∧ t < 0x8000)
  | .ldi xd imm | .addi xd imm => decide (xd < 8 ∧ imm < 0x200000)
  | .alu xd xs fn => decide (xd < 8 ∧ xs < 8 ∧ fn < 4)
  | .ldop xd fld => decide (xd < 8 ∧ fld < 16)
  | .loc xs | .wwed xs | .recov xs => decide (xs < 8)
  | .wsym _ pos => decide (pos < 0x20000)
  | .edge _ _ rg pos => decide (rg < 16 ∧ pos < 0x20000)
  | .sect _ _ xs => decide (xs < 8)
  | .frm f => decide (f < 0x1000000)
  | .frmx _ addr xs => decide (addr < 128 ∧ xs < 8)
  | .seek xs kind => decide (xs < 8 ∧ kind < 4)
  | .wcond t => decide (t < 0x1000000)
  | .post st => decide (st < 256)
  | .evt code => decide (code < 0x10000)
  | .illegal op v => decide (0x16 ≤ op ∧ op ≤ 0x1E ∧ v < 0x1000000)

/-- The operands of a command lie within the bounds that the spec gives them. What its environment answers is not bounded
here. -/
def Instr.wf : Instr → Bool
  | .auxPowerGood => true
  | .strapConversion _ => true
  | .strapSetEnd _ => true
  | .strapRetry => true
  | .hotSwapClose => true
  | .hotSwapRampEnd => true
  | .psenNHigh => true
  | .busBrownOut => true
  | .auxBo => true
  | .auxBoMantleReset => true
  | .cold => true
  | .mrst => true
  | .perstAssert _ => true
  | .hotReset _ => true
  | .flr _ => true
  | .cablePresenceHigh _ => true
  | .linkDownTimeout _ => true
  | .linkTrained _ speed _ _ _ => decide (speed < 3)
  | .socketTrip _ n => decide (n < 8)
  | .traceProbeChange _ => true
  | .shockSample _ => true
  | .feedforwardTimeout _ => true
  | .snufferShock _ _ => true
  | .snufferRearm _ u cause _ => decide (u < 8 ∧ cause < 4)
  | .registerWrite _ off words => decide (off < 0x4000000 ∧ off % 4 = 0 ∧ words.length ≤ 16)
  | .strayAccess _ _ _ off => decide (off < 0x4000000)
  | .readClear _ off n => decide (off < 0x4000000 ∧ off % 4 = 0 ∧ n ≤ 16)
  | .snapshot _ => true
  | .presenceLow _ n => decide (n < 4)
  | .presenceHigh _ n pin_ => decide (n < 4 ∧ pin_ < 2)
  | .debounceElapsed _ n => decide (n < 4)
  | .eepromReadStart _ n => decide (n < 4)
  | .eepromReadDone _ n bytes => decide (n < 4 ∧ bytes.length = 1024)
  | .preampFrameEnd _ u _ => decide (u < 8)
  | .pago _ n _ _ => decide (n < 4)
  | .portModeWrite _ n mode => decide (n < 4 ∧ mode < 4)
  | .preampSupplyOverload _ n _ => decide (n < 4)
  | .preampFault _ u fault => decide (u < 8 ∧ fault < 256)
  | .persistentFaultCheck _ u fault => decide (u < 8 ∧ fault < 256)
  | .readGateRise _ n => decide (n < 32)
  | .lockCheck _ n _ _ => decide (n < 32)
  | .syncWindowClose _ n _ _ _ => decide (n < 32)
  | .readGateFall _ n _ => decide (n < 32)
  | .servoGateRise _ u => decide (u < 8)
  | .servoGateFall _ u => decide (u < 8)
  | .resyncWindowClose _ n _ _ _ => decide (n < 32)
  | .lastCodewordSymbol _ n _ _ _ => decide (n < 32)
  | .firstDecodeEnd _ n _ _ => decide (n < 32)
  | .redetectionDone _ n => decide (n < 32)
  | .hypothesisDecodeEnd _ n _ _ => decide (n < 32)
  | .recoveryRoundEnd _ n _ _ => decide (n < 32)
  | .verifyStart _ n => decide (n < 32)
  | .verifyDecodeEnd _ n _ _ _ _ => decide (n < 32)
  | .channelOff _ n => decide (n < 32)
  | .channelCfg _ n readers => decide (n < 32 ∧ readers < 4)
  | .freeze _ n _ => decide (n < 32)
  | .frozen _ n => decide (n < 32)
  | .bandSplit _ u => decide (u < 8)
  | .grownListWrite _ u => decide (u < 8)
  | .heaterFrameUpdate _ u => decide (u < 8)
  | .formatOff _ u => decide (u < 8)
  | .formatTables _ u _ addr => decide (u < 8 ∧ addr < 2 ^ 42)
  | .readPass _ u => decide (u < 8)
  | .writePass _ u _ => decide (u < 8)
  | .verifyPass _ u => decide (u < 8)
  | .rewriteEntry _ u => decide (u < 8)
  | .retryRevolution _ u => decide (u < 8)
  | .systemBandRead _ u => decide (u < 8)
  | .seekOnly _ u band => decide (u < 8 ∧ band < 0x1000000)
  | .park _ u => decide (u < 8)
  | .nop _ u cond => decide (u < 8 ∧ cond < 8) && (Micro.nop).wf
  | .jmp _ u cond target => decide (u < 8 ∧ cond < 8) && (Micro.jmp target).wf
  | .call _ u cond target => decide (u < 8 ∧ cond < 8) && (Micro.call target).wf
  | .ret _ u cond => decide (u < 8 ∧ cond < 8) && (Micro.ret).wf
  | .loop _ u cond xd target => decide (u < 8 ∧ cond < 8) && (Micro.loop xd target).wf
  | .ldi _ u cond xd imm => decide (u < 8 ∧ cond < 8) && (Micro.ldi xd imm).wf
  | .addi _ u cond xd imm => decide (u < 8 ∧ cond < 8) && (Micro.addi xd imm).wf
  | .alu _ u cond xd xs fn => decide (u < 8 ∧ cond < 8) && (Micro.alu xd xs fn).wf
  | .ldop _ u cond xd fld => decide (u < 8 ∧ cond < 8) && (Micro.ldop xd fld).wf
  | .loc _ u cond xs => decide (u < 8 ∧ cond < 8) && (Micro.loc xs).wf
  | .wwed _ u cond xs => decide (u < 8 ∧ cond < 8) && (Micro.wwed xs).wf
  | .wsym _ u cond base pos _ => decide (u < 8 ∧ cond < 8) && (Micro.wsym base pos).wf
  | .edge _ u cond base wg rg pos _ => decide (u < 8 ∧ cond < 8) && (Micro.edge base wg rg pos).wf
  | .sect _ u cond last write_ xs _ => decide (u < 8 ∧ cond < 8) && (Micro.sect last write_ xs).wf
  | .wch _ u cond => decide (u < 8 ∧ cond < 8) && (Micro.wch).wf
  | .recov _ u cond xs => decide (u < 8 ∧ cond < 8) && (Micro.recov xs).wf
  | .frm _ u cond frame => decide (u < 8 ∧ cond < 8) && (Micro.frm frame).wf
  | .frmx _ u cond rw addr xs => decide (u < 8 ∧ cond < 8) && (Micro.frmx rw addr xs).wf
  | .seek _ u cond xs kind => decide (u < 8 ∧ cond < 8) && (Micro.seek xs kind).wf
  | .wcond _ u cond timeout => decide (u < 8 ∧ cond < 8) && (Micro.wcond timeout).wf
  | .post _ u cond status => decide (u < 8 ∧ cond < 8) && (Micro.post status).wf
  | .evt _ u cond code => decide (u < 8 ∧ cond < 8) && (Micro.evt code).wf
  | .halt _ u cond => decide (u < 8 ∧ cond < 8) && (Micro.halt).wf
  | .illegal _ u cond op operand => decide (u < 8 ∧ cond < 8) && (Micro.illegal op operand).wf
  | .stallRelease _ u _ _ => decide (u < 8)
  | .wcondTimeout _ u => decide (u < 8)
  | .edgeApply _ u _ => decide (u < 8)
  | .abortVector _ u _ => decide (u < 8)
  | .restart _ u => decide (u < 8)
  | .wickOff _ u => decide (u < 8)
  | .patchApply _ u => decide (u < 8)
  | .patchRewrite _ u => decide (u < 8)
  | .servoDemodEnd _ u _ _ => decide (u < 8)
  | .servoComputationEnd _ u _ => decide (u < 8)
  | .servoOutputApply _ u => decide (u < 8)
  | .implausRetract _ u => decide (u < 8)
  | .reachAlarm _ u => decide (u < 8)
  | .profileEnd _ u => decide (u < 8)
  | .seekSettled _ u => decide (u < 8)
  | .seekTimeout _ u => decide (u < 8)
  | .cmdLoad _ u => decide (u < 8)
  | .loadLock _ u => decide (u < 8)
  | .loadFail _ u => decide (u < 8)
  | .cmdPark _ u => decide (u < 8)
  | .cmdRetract _ u => decide (u < 8)
  | .stopReached _ u _ => decide (u < 8)
  | .latchPushEnd _ u => decide (u < 8)
  | .retractTmo _ u => decide (u < 8)
  | .servoEnSet _ u => decide (u < 8)
  | .servoOff _ u => decide (u < 8)
  | .calOne _ u seg => decide (u < 8 ∧ seg < 4096)
  | .calSweep _ u => decide (u < 8)
  | .calBackground _ u => decide (u < 8)
  | .calMeasureEnd _ u => decide (u < 8)
  | .commutationStep _ n _ => decide (n < 4)
  | .skipRun _ n => decide (n < 4)
  | .rotorLost _ n => decide (n < 4)
  | .bridgeOcp _ n => decide (n < 4)
  | .electricalCycle _ n _ _ => decide (n < 4)
  | .keMeasure _ n _ _ => decide (n < 4)
  | .keRepeat _ n _ _ => decide (n < 4)
  | .start _ n => decide (n < 4)
  | .stop _ n => decide (n < 4)
  | .spindleEnSet _ n => decide (n < 4)
  | .spindleOff _ n => decide (n < 4)
  | .taperSlotGrant => true
  | .alignEnd _ n => decide (n < 4)
  | .senseEnd _ n _ => decide (n < 4)
  | .rampHandover _ n => decide (n < 4)
  | .rampTimeout _ n => decide (n < 4)
  | .taperEnd _ n _ => decide (n < 4)
  | .coastEnd _ n => decide (n < 4)
  | .catchEstimate _ n _ _ _ _ => decide (n < 4)
  | .catchOk _ n => decide (n < 4)
  | .catchFail _ n => decide (n < 4)
  | .parkRpmReached _ n => decide (n < 4)
  | .brakeStart _ n => decide (n < 4)
  | .brakeSlotGrant => true
  | .stopRpmReached _ n => decide (n < 4)
  | .speedBelow30rpm _ n => decide (n < 4)
  | .ladderStep1 _ => true
  | .chopperOff _ _ => true
  | .ladderStep2 _ => true
  | .ladderStep3 _ => true
  | .ladderRelease _ => true
  | .chopperFail kind => decide (kind < 4)
  | .chopperTest _ => true
  | .chopHot => true
  | .chopCool => true
  | .budgetWindow _ _ => true
  | .seekLimit => true
  | .budgetLift => true
  | .dimmIdentify _ dimms => decide (dimms.length = 8)
  | .pmicPowerGood _ => true
  | .trainingAttemptEnd _ _ => true
  | .dimmTempRead _ n _ => decide (n < 8)
  | .bufferRead _ _ ha _ _ _ => decide (ha < 2 ^ 41)
  | .bufferWrite _ _ ha _ _ => decide (ha < 2 ^ 41)
  | .zeroFillDone _ _ => true
  | .mergeFlush _ _ _ _ => true
  | .regionRelease _ _ => true
  | .scrubStep _ ch _ _ => decide (ch < 8)
  | .pageRetire _ _ => true
  | .bankRetire _ => true
  | .retireDone _ _ => true
  | .logClear _ => true
  | .partitionWrite _ i _ => decide (i < 6)
  | .bankSpare _ _ => true
  | .cacheRequest _ _ _ ha _ _ _ _ => decide (ha < 2 ^ 41)
  | .cacheFillDone _ reg _ => decide (reg < 512)
  | .writebackAccepted _ _ => true
  | .cacheModeWrite _ mode => decide (mode < 4)
  | .clean _ _ _ _ => true
  | .inv _ _ _ _ => true
  | .cleanInv _ _ _ _ => true
  | .lock _ _ _ _ => true
  | .unlock _ _ _ _ => true
  | .maintenanceDone _ => true
  | .wayPowerDown _ k => decide (k < 8)
  | .wayWalkEnd _ k => decide (k < 8)
  | .wayPowerUp _ k => decide (k < 8)
  | .wayOnDone _ k => decide (k < 8)
  | .sqDoorbell _ q tail => decide (q < 256 ∧ tail < 8192)
  | .cqDoorbell _ q head => decide (q < 256 ∧ head < 8192)
  | .descriptorFetch _ _ _ => true
  | .commandStart _ => true
  | .read _ _ _ => true
  | .write _ _ => true
  | .writeStaged _ _ _ _ => true
  | .verify _ _ => true
  | .flush _ _ => true
  | .trim _ _ => true
  | .pin _ _ => true
  | .unpin _ _ => true
  | .prefetch _ _ => true
  | .setClass _ _ => true
  | .setEmberRate _ _ => true
  | .identify _ _ => true
  | .logRead _ _ => true
  | .hdaAttach _ _ _ => true
  | .hdaDetach _ _ => true
  | .nsCreate _ _ => true
  | .nsDelete _ _ => true
  | .retire _ _ _ => true
  | .firmwareLoad _ _ _ => true
  | .microcodeLoad _ _ _ => true
  | .completionPost _ _ => true
  | .interruptAggTimeout _ q _ => decide (q < 256)
  | .payloadTimeout _ _ => true
  | .lateCpl _ _ => true
  | .sqEnable _ q => decide (q < 256)
  | .cqEnable _ q => decide (q < 256)
  | .ringChanged _ _ q w _ => decide (q < 256 ∧ w < 3)
  | .ringDisable _ _ q => decide (q < 256)
  | .lostLogClear _ => true
  | .sdmTakeChannel _ _ _ => true
  | .sdmDescriptorEnd _ _ _ _ => true
  | .sdmHostTimeout _ _ => true
  | .sdmChannelEnable _ c => decide (c < 4)
  | .resume _ c => decide (c < 4)
  | .sdmChannelDisable _ c _ _ => decide (c < 4)
  | .sdmChannelReconfig _ c w _ _ _ => decide (w < 5 ∧ c < 4)
  | .claim _ seq arg0 arg1 => decide (seq < 16 ∧ arg0 < 2 ^ 32 ∧ arg1 < 2 ^ 32)
  | .release _ seq arg0 arg1 => decide (seq < 16 ∧ arg0 < 2 ^ 32 ∧ arg1 < 2 ^ 32)
  | .retract _ seq arg0 arg1 => decide (seq < 16 ∧ arg0 < 2 ^ 32 ∧ arg1 < 2 ^ 32)
  | .wdConfig _ seq arg0 arg1 => decide (seq < 16 ∧ arg0 < 2 ^ 32 ∧ arg1 < 2 ^ 32)
  | .intakeOpen _ seq arg0 arg1 => decide (seq < 16 ∧ arg0 < 2 ^ 32 ∧ arg1 < 2 ^ 32)
  | .intakeCheck _ seq arg0 arg1 => decide (seq < 16 ∧ arg0 < 2 ^ 32 ∧ arg1 < 2 ^ 32)
  | .intakeCancel _ seq arg0 arg1 => decide (seq < 16 ∧ arg0 < 2 ^ 32 ∧ arg1 < 2 ^ 32)
  | .nextSlot _ seq arg0 arg1 => decide (seq < 16 ∧ arg0 < 2 ^ 32 ∧ arg1 < 2 ^ 32)
  | .badOp _ op seq arg0 arg1 => decide (seq < 16 ∧ op < 256 ∧ (op = 0 ∨ 8 < op) ∧ arg0 < 2 ^ 32 ∧ arg1 < 2 ^ 32)
  | .intakeTimeout => true
  | .pollTick => true
  | .leaseWrite _ held echo => decide (held < 256 ∧ echo < 256)
  | .leaseDeadline => true
  | .lapse hd => decide (hd < 8)
  | .sequencerStop _ u _ => decide (u < 8)
  | .retdone _ u => decide (u < 8)
  | .rettmo _ u _ => decide (u < 8)
  | .kick _ key => decide (key < 65536)
  | .wdWarn _ _ => true
  | .wdStage2 _ => true
  | .slotCheckDone _ _ => true
  | .lockstepMismatch => true
  | .halfResetRequest _ target key => decide (target < 256 ∧ key < 256)
  | .hdaResetRequest _ target key => decide (target < 256 ∧ key < 256)
  | .blockResetRequest _ target key => decide (target < 256 ∧ key < 256)
  | .coldRelease => true
  | .auxBoRelease => true
  | .mainBoRelease => true
  | .mrstRelease => true
  | .halfRelease _ => true
  | .portRelease _ => true
  | .hdaResetRelease _ n => decide (n < 4)
  | .blockRelease _ code => decide ((code < 0x28 ∨ code = 0x30))
  | .wrapperDrained _ code => decide ((code < 0x28 ∨ code = 0x30 ∨ (0x40 ≤ code ∧ code < 0x44)))
  | .lanternRelease => true
  | .configured _ => true
  | .railGood _ rail => decide (rail < 6)
  | .railFault _ rail => decide (rail < 6)
  | .domainGate _ d _ => decide (d < 26)
  | .domainFloor _ d _ => decide (d < 26)
  | .domainWake _ d _ => decide (d < 26)
  | .domainWakeDone _ d => decide (d < 26)
  | .policyWrite _ d _ => decide (d < 26)
  | .meterOver _ _ => true
  | .pllUnlock _ c => decide (c < 22)
  | .refFail _ => true
  | .motlinkStop _ => true
  | .pcieRefLost _ => true
  | .glimTick => true
  | .glimFail => true
  | .chimneyMessage _ => true
  | .recordClose _ index => decide (index < 64)
  | .chmRaise _ hintHi => decide (hintHi < 0x800000)
  | .mantleMessage => true
  | .mantleRecordClose src => decide (src < 1024)
  | .eventRecordWrite => true
  | .lampMeasurement _ i _ _ => decide (i < 163)
  | .sampleIntervalClose _ => true
  | .wlpFeed _ i power => decide (i < 256 ∧ power < 65536)
  | .traceTimePacket _ => true
  | .tracePacketSend _ => true
  | .deskewBlock _ => true
  | .linkDown _ => true
  | .halfLinkDown => true
  | .halfLinkUp => true
  | .hostAccess _ _ _ => true
  | .mantleRailLoss => true
  | .rateRangeTimeout _ u => decide (u < 8)
  | .coreRestartDone => true

end Sys2Proof
end

