-- ==== Sys2Proof/Safety.lean ====
section
/-! DEFINITION. What a sound state and a sound run are: every table of State in its one canonical form, so that equal machines
are equal data; and what the ownership rules promise about outputs (R404, R435). -/

namespace Sys2Proof.Machine

/-- Keys strictly rising: the form of the tables in which any value may be listed. -/
def smSorted {α : Type} (m : SMap α) : Bool := decide (m.Pairwise fun x y => x.1 < y.1)

/-- The register space is in canonical form: addresses rising, and no word listed that equals its value at reset. -/
def State.regsWf (s : State) : Bool := smWf regReset s.regs

/-- Buffer memory and host memory are in canonical form. -/
def State.memWf (s : State) : Bool :=
  smWf (fun _ => (0 : Byte)) s.dram && smSorted s.mergeBytes && smSorted s.cacheBytes && smSorted s.hostMem

/-- The tables of the units are in canonical form. -/
def State.unitsWf (s : State) : Bool :=
  smWf (fun _ => Preamp.reset) s.preamps && smWf (fun _ => Grz.reset) s.ports && smWf (fun _ => Wick.reset) s.wicks &&
  smWf (fun _ => Rch.reset) s.rchs && smWf (fun _ => Fmt.reset) s.fmts && smWf (fun _ => Srv.reset) s.srvs &&
  smWf (fun _ => Spn.reset) s.spns && smWf (fun _ => Resv.reset) s.resvs && smWf (fun _ => Cache.reset) s.caches &&
  smWf (fun _ => Sdm.reset) s.sdms && smWf (fun _ => Hif.reset) s.hifs && smWf (fun _ => MantleHalf.reset) s.mhalf &&
  smWf (fun _ => Collector.reset) s.collectors && smWf (fun _ => TraceStream.reset) s.traces &&
  smWf (fun _ => Lamp.reset) s.lamps

/-- A sound state. -/
def State.wf (s : State) : Bool := s.regsWf && s.memWf && s.unitsWf

/-- No write gate of an actuator is at the pin while its home half does not own the HDA, or while that half's outputs are
disabled (R404, R435). -/
def State.gatesOwned (s : State) : Bool :=
  (List.range 16).all fun ai => [0, 1].all fun g =>
    !s.wgPin ai g || (s.ownLine (actHda ai) && s.outEnable (actHalf ai))

/-- Every condition under which Lamplighter takes a Lantern out of reset (R424, R438): it is in reset, no source that covers
it is asserted, Mantle is up, every rail of both halves is good, the chopper test has run, the strap is latched, and nothing
holds the half. -/
def State.mayLeaveReset (s : State) (h : Half) : Bool :=
  !s.coreUp h && !s.asserted.any (·.coversCore h) && s.mantleUp && smGet 0 s.rails 0 == 0x3F && smGet 0 s.rails 1 == 0x3F &&
    s.board.chopTested && s.bit B.mnt F.MNT_STRAP_LATCHED && s.holdReason h == 0

/-- The register of a half's own register space that an access of that half at an offset of it reaches, if one does. -/
def State.ownReg (s : State) (own : Half) (off : Nat) : Option (Loc × Nat × RegSpec) :=
  if off < 0x1000000 then
    match s.reach own off with
    | .reg l a r => if l.half = some own then some (l, a, r) else none
    | _ => none
  else none

/-- Whether a write to a register of the accessing half does no more than store (R14). -/
def State.storesOnly (s : State) (who : Accessor) (l : Loc) (a : Nat) (r : RegSpec) (v : Word) : Bool :=
  let h := Accessor.half who
  r.mnt == 0 && !firmwareOnly l && (s.dmaWrite h l a r v).isNone && (s.mediaWrite h l a r v).isNone &&
    (s.storeWrite h l a r v).isNone && (s.controlWrite h l a r v).isNone

/-- The register that Mantle's firmware reaches at an offset that a half would use, if it reaches one. -/
def State.mntReg (s : State) (h : Half) (off : Nat) : Option (Loc × Nat × RegSpec) :=
  (s.mantleReach h off).bind fun x => match s.reach x.1 x.2 with
    | .reg l a r => some (l, a, r)
    | _ => none

/-- FRAME of a harness port's preamplifier frame page (R90). -/
def State.softBits (s : State) (h : Half) (n : Nat) : BitVec 24 := BitVec.ofNat 24 (s.get (B.grz h n) F.GRZ_PAFRAME_FRAME)

/-- A formatter can hand the next pass of the operation in progress to its Wick: everything that the hand-over asks for holds, no
reach alarm is being measured, the preamplifier has acknowledged the pass's group and mask, and the pass reaches something. -/
def State.passReady (s : State) (ai : Nat) (op : FmtOp) : Bool :=
  s.handReady ai && !(s.srv ai).cal.any (·.why == 0) && (s.fmt ai).op == some op && s.wckState ai != wkFaulted &&
    (nextPass op.mode ((s.fmt ai).wanted op)).map (fun p => p.2.1) == some (s.ackMask ai) &&
    s.ackGroup ai == op.req.group

/-- Where a fetch from an address leaves PC (R170). -/
def State.lands (s : State) (ai addr : Nat) : Nat :=
  match s.patchMatch ai (addr % 0x8000) with
  | some t => 0x6000 + t
  | none => addr % 0x8000

/-- Whether a fetch from an address finds an implemented word (R166, R170). -/
def State.fetchOk (s : State) (ai addr : Nat) : Bool :=
  (s.patchMatch ai (addr % 0x8000)).isSome || decide (addr % 0x8000 < 0x6200)

/-- A Wick out of reset runs, or stands at the idle vector, and the word at its PC can be this microword with this COND
(R166). -/
def State.fetched (s : State) (ai cond : Nat) (m : Micro) : Bool :=
  (s.wckState ai == wkRun || s.wckState ai == wkIdle) && s.wckUp ai && (s.wordAt ai (s.wckPc ai) cond m).isSome

/-- The same, and the condition is true: the word is executed (R167). -/
def State.executes (s : State) (ai cond : Nat) (m : Micro) : Bool := s.fetched ai cond m && s.wickCond ai cond

/-- A Wick as a microword finds it: announced frames of a write whose sync window has closed have left the tag queue (R165). -/
def State.wickHere (s : State) (ai : Nat) : Wick := (s.atPlace ai (s.lastPlace ai)).wick ai

/-- The state as WCH and POST judge it: frames of a write that have gone out are settled (R168). -/
def State.settledHere (s : State) (ai : Nat) : State := (s.atPlace ai (s.lastPlace ai)).settleWrites ai (s.lastPlace ai)

/-- What LOOP leaves in XD: one less, modulo 2^24 (R168). -/
def State.loopLeft (s : State) (ai xd : Nat) : Nat := ((s.wick ai).reg xd + 2 ^ 24 - 1) % 2 ^ 24

/-- A held command that COMMAND_START can start: nothing that it waits for is left, and its SQ has a credit (R349, R352 to
R354). -/
def State.canStart (s : State) (h : Half) (c : Cmd) : Bool :=
  !c.started && c.result.isNone && !c.listWait && c.behind.isEmpty && decide (s.startedOf h c.sq < s.credits h c.sq) &&
    s.admitted h c

/-- The state as a command's next step finds it: formatter operations that have ended are taken, and requests of the command
that no actuator can run are withdrawn (R158, R346). -/
def State.taken (s : State) (h : Half) (n : Nat) : State := s.hostSettle.withdrawReqs h n

/-- STATUS, DETAIL and RESULT of a held command that has ended. -/
def State.outcome (s : State) (h : Half) (n : Nat) : Option (Nat × Nat × Nat) := (s.cmd h n).bind (·.result)

/-- Bytes of sectors of a RAM namespace, as the buffer holds them (R335). -/
def State.ramBytes (s : State) (m : Ns) (lba count : Nat) : List Byte :=
  (List.range count).flatMap fun i => (List.range 4096).map fun j => s.bufByte (bufBa m.half (m.ramHa (lba + i) + j))

/-- A step is safe when it answers a next state, or stops only where the module promises nothing. -/
def SafeStep (s : State) : Prop :=
  match step s with
  | .next _ => True
  | .fault (.outsideSpecification _) => True
  | .refused _ => False

/-- A half's mailbox is free and Mantle serves it: a request of its firmware is answered in the command that makes it
(R392, R395). -/
def State.mbIdle (s : State) (h : Half) : Bool := s.coreUp h && s.mantleServes && s.bit (B.mbx h) F.MNT_MBRESP_DONE

/-- The mailbox of a half shows an answer: DONE, the status, and SEQ of the request (R395). -/
def State.mbAnswered (s : State) (h : Half) (seq st : Nat) : Bool :=
  s.bit (B.mbx h) F.MNT_MBRESP_DONE && s.get (B.mbx h) F.MNT_MBRESP_STATUS == st &&
    s.get (B.mbx h) F.MNT_MBRESP_SEQ == seq % 16

/-- The commands that store nothing, neither into buffer memory nor into host memory. -/
def storesNothing : Instr → Bool
  | .hotSwapRampEnd .. | .linkTrained .. | .socketTrip .. | .traceProbeChange .. | .shockSample ..
  | .feedforwardTimeout .. | .snufferShock .. | .snufferRearm .. | .snapshot .. | .presenceLow ..
  | .debounceElapsed .. | .eepromReadStart .. | .preampSupplyOverload .. | .lockCheck .. | .syncWindowClose ..
  | .readGateFall .. | .servoGateRise .. | .resyncWindowClose .. | .firstDecodeEnd .. | .redetectionDone ..
  | .hypothesisDecodeEnd .. | .recoveryRoundEnd .. | .verifyDecodeEnd .. | .freeze .. | .frozen ..
  | .grownListWrite .. | .restart .. | .patchApply .. | .patchRewrite .. | .servoOutputApply .. | .reachAlarm ..
  | .seekSettled .. | .seekTimeout .. | .cmdLoad .. | .loadLock .. | .stopReached .. | .latchPushEnd ..
  | .servoEnSet .. | .skipRun .. | .rotorLost .. | .bridgeOcp .. | .electricalCycle .. | .keMeasure .. | .keRepeat ..
  | .start .. | .spindleEnSet .. | .taperSlotGrant .. | .alignEnd .. | .senseEnd .. | .rampHandover ..
  | .rampTimeout .. | .taperEnd .. | .coastEnd .. | .catchEstimate .. | .catchOk .. | .brakeStart ..
  | .brakeSlotGrant .. | .stopRpmReached .. | .speedBelow30rpm .. | .chopHot .. | .chopCool .. | .budgetWindow ..
  | .seekLimit .. | .budgetLift .. | .dimmIdentify .. | .pmicPowerGood .. | .trainingAttemptEnd .. | .dimmTempRead ..
  | .logClear .. | .partitionWrite .. | .bankSpare .. | .maintenanceDone .. | .wayWalkEnd .. | .sqDoorbell ..
  | .descriptorFetch .. | .unpin .. | .setClass .. | .setEmberRate .. | .nsCreate .. | .payloadTimeout ..
  | .lateCpl .. | .sqEnable .. | .cqEnable .. | .ringChanged .. | .ringDisable .. | .lostLogClear ..
  | .sdmChannelEnable .. | .resume .. | .intakeTimeout .. | .sequencerStop .. | .retdone .. | .railGood ..
  | .railFault .. | .domainGate .. | .domainWakeDone .. | .policyWrite .. | .meterOver .. | .pllUnlock ..
  | .refFail .. | .motlinkStop .. | .pcieRefLost .. | .chmRaise .. | .lampMeasurement .. | .sampleIntervalClose ..
  | .wlpFeed .. | .traceTimePacket .. | .tracePacketSend .. | .deskewBlock .. | .linkDown .. | .halfLinkDown ..
  | .halfLinkUp .. => true
  | _ => false

/-- The 64 KiB window of the register space that a unit's base begins. -/
def win (base : Nat) : Nat := base / 0x10000

/-- The windows that a message of a half's blocks can reach: Chimney's, for a FIFO that is full, and the counters. -/
def msgWins (h : Half) : List Nat := [win (B.chm h), win (B.cnt h)]

/-- The windows of the register space that a command can write, for commands whose effect stays in a few of them. -/
def windowsOf : Instr → Option (List Nat)
  | .hotSwapRampEnd .. | .seekLimit .. | .budgetLift .. | .sequencerStop .. | .deskewBlock .. | .grownListWrite ..
  | .redetectionDone .. => some []
  | .linkTrained h .. => some (win (B.hif h) :: win (B.clk h) :: msgWins h)
  | .linkDown h | .lostLogClear h => some [win (B.hif h)]
  | .pcieRefLost h => some [win (B.hif h), win (B.clk h)]
  | .socketTrip h n => some (win (B.buf h 0) :: win (B.buf h n) :: msgWins h)
  | .dimmIdentify h .. | .pmicPowerGood h | .trainingAttemptEnd h .. | .logClear h | .partitionWrite h .. | .bankSpare h .. =>
    some ((List.range 9).map (fun n => win (B.buf h n)) ++ msgWins h)
  | .dimmTempRead h n .. => some (win (B.buf h n) :: [win (B.buf h 0)])
  | .shockSample _ => some (((List.range 16).map fun ai => win (srvB ai)) ++ msgWins .a ++ msgWins .b)
  | .feedforwardTimeout h => some (((List.range 16).map fun ai => win (srvB ai)) ++ msgWins h)
  | .seekTimeout h u => some (win (B.srv h u) :: msgWins h)
  | .reachAlarm h u => some (win (B.srv h u) :: win (B.mot h) :: win B.mnt :: msgWins h)
  | .stopReached h u _ => some [win (B.srv h u)]
  | .snufferRearm h u .. => some [win (B.fmt h u)]
  | .snapshot h => some [win (B.cnt h), win (B.cri h)]
  | .presenceLow h n => some (win (B.grz h n) :: win (B.pwr h) :: msgWins h)
  | .debounceElapsed h n | .preampSupplyOverload h n _ => some (win (B.grz h n) :: msgWins h)
  | .eepromReadStart h n => some [win (B.grz h n)]
  | .lockCheck h n .. | .readGateFall h n _ | .resyncWindowClose h n .. | .freeze h n _ | .frozen h n =>
    some (win (B.rch h n) :: msgWins h)
  | .restart h u => some (win (B.wck h u) :: msgWins h)
  | .skipRun h n => some [win (B.spn h n)]
  | .bridgeOcp h n | .alignEnd h n | .catchEstimate h n .. | .stopRpmReached h n =>
    some [win (B.spn h n), win (B.mot h)]
  | .budgetWindow .. => some [win (B.mot .a), win (B.mot .b)]
  | .maintenanceDone h => some [win (B.bca h)]
  | .wayWalkEnd h _ => some [win (B.bca h), win (B.pwr h)]
  | .lateCpl h _ => some (win (B.hif h) :: win (B.sdm h) :: msgWins h)
  | .sdmChannelEnable h _ | .resume h _ => some (win (B.sdm h) :: msgWins h)
  | .intakeTimeout => some [win B.mnt]
  | .railGood h _ => some [win (B.pwr h)]
  | .railFault h _ | .policyWrite h .. | .meterOver h _ => some (win (B.pwr h) :: msgWins h)
  | .pllUnlock h _ | .refFail h => some (win (B.clk h) :: msgWins h)
  | .motlinkStop h => some (win (B.mot h) :: win (B.clk h) :: msgWins h)
  | .chmRaise h _ => some (msgWins h)
  | .lampMeasurement h .. | .wlpFeed h .. | .sampleIntervalClose h => some (win (B.wlp h) :: msgWins h)
  | .traceTimePacket h | .tracePacketSend h => some (win (B.cri h) :: msgWins h)
  | _ => none

/-- The same register words but for those of some windows. -/
def State.sameOutside (s : State) (ws : List Nat) (t : State) : Prop := ∀ a, a / 0x10000 ∉ ws → t.word a = s.word a

/-- The same bytes of buffer memory and of host memory. -/
def State.sameStore (s t : State) : Prop :=
  ∀ a, t.bufByte a = s.bufByte a ∧ smGet 0 t.hostMem a = smGet 0 s.hostMem a

/-- The most significant set bit of a number cleared again and again until it is below n (R55); the first argument bounds the
number of times. -/
def clearTop (n : Nat) : Nat → Nat → Nat
  | 0, i => i
  | k + 1, i => if i < n then i else clearTop n k (i - 2 ^ i.log2)

/-- Whether a host address is one of the n bytes from an address of a half's host memory. -/
def hostIn (h : Half) (base n a : Nat) : Bool := (List.range n).any fun i => a == 2 ^ 64 * h.toNat + (base + i) % 2 ^ 64

/-- The microwords of one Wick that reach no other unit, with the actuator whose Wick it is. -/
def plainWord : Instr → Option (Half × Nat)
  | .nop h u _ | .jmp h u _ _ | .call h u _ _ | .ret h u _ | .loop h u _ _ _ | .ldi h u _ _ _ | .addi h u _ _ _
  | .alu h u _ _ _ _ | .ldop h u _ _ _ | .loc h u _ _ | .wwed h u _ _ | .wsym h u _ _ _ _ | .evt h u _ _ => some (h, u)
  | _ => none

/-- All but one Wick as it was: every register outside its own window and the trace registers of its half (R485), the other
Wicks, memory, and the other units. -/
def State.sameButWick (s : State) (ai : Nat) (t : State) : Prop :=
  s.sameOutside [win (wckB ai), win (B.cri (actHalf ai))] t ∧ s.sameStore t ∧ (∀ x, x ≠ ai → t.wick x = s.wick x) ∧
  t.fmts = s.fmts ∧ t.srvs = s.srvs ∧ t.rchs = s.rchs ∧ t.preamps = s.preamps ∧ t.mcore = s.mcore ∧ t.mhalf = s.mhalf ∧
  t.board = s.board ∧ t.collectors = s.collectors ∧ t.hifs = s.hifs

end Sys2Proof.Machine
end

