-- ==== Sys2Proof/Certificates/Slice0/Obligations.lean ====
section
/-! DEFINITION. The statements of this model: what each family of commands does, the frames of the commands, the invariants that
every step keeps, and the rules of the spec that are stated whole. -/

open Sys2Proof Sys2Proof.Machine

/-- The step and the queue: the model's own form of a block (log entries 1 and 2). -/
def Obligations.StepTakesFrontCommand : Prop :=
  (∀ (c : Instr) (s : State) (rest : List Instr), step { s with pending := c :: rest } = exec c { s with pending := rest }) ∧
  (∀ (s : State), s.pending = [] → step s = .next s)

/-- What reset leaves (R25, R41, R42, R399, R411, R423, R424, R476). -/
def Obligations.ResetIsSoundAndDark : Prop :=
  State.reset.pending = [] ∧ State.reset.wf = true ∧ State.reset.evQueue.length ≤ 32 ∧
  State.reset.asserted.contains .cold = true ∧ State.reset.mantleUp = false ∧
  (∀ h, State.reset.coreUp h = false ∧ State.reset.get B.mnt (wdState h) = 0) ∧
  State.reset.bit B.mnt F.MNT_STRAP_LATCHED = false ∧
  (∀ hd, hd < 8 → State.reset.ownerOf hd = 0 ∧ State.reset.portState hd = 0 ∧
    State.reset.get (spnB hd) F.SPN_STAT_STATE = 0) ∧
  (∀ ai, ai < 16 → State.reset.srvState ai = 0 ∧ State.reset.loaded ai = false)

/-- The invariant of the machine (R13, R480): kept by every command. -/
def Obligations.EveryStepKeepsTheMachineSound : Prop :=
  ∀ (s t : State), s.regsWf = true → s.evQueue.length ≤ 32 → step s = .next t →
    t.regsWf = true ∧ t.evQueue.length ≤ 32 ∧ t.pending = s.pending.tail ∧ s.free ≤ t.free

/-- Decode of encode over the microwords (R167, R168). -/
def Obligations.MicrowordsRoundTrip : Prop :=
  (∀ (cond : Nat) (m : Micro), cond < 8 → m.wf = true →
    microEncode cond m < 2 ^ 32 ∧ microDecode (microEncode cond m) = (cond, m)) ∧
  (∀ (c d : Nat) (m k : Micro), c < 8 → d < 8 → m.wf = true → k.wf = true → microEncode c m = microEncode d k →
    c = d ∧ m = k)

/-- The alias rule (R55). -/
def Obligations.PageOffsetsAlias : Prop :=
  (∀ (span n o k : Nat), 1 ≤ n → n ≤ 2 ^ k → (∀ m, m < k → 2 ^ m < n) →
    aliasIndex span n o = (if o % span / 4 % 2 ^ k ≥ n then o % span / 4 % 2 ^ k - 2 ^ (k - 1) else o % span / 4 % 2 ^ k)) ∧
  (∀ (span n o : Nat), 1 ≤ n → aliasIndex span n o < n ∧
    aliasIndex span n o = clearTop n (o % span / 4) (o % span / 4)) ∧
  (∀ (span k o : Nat), aliasIndex span (2 ^ k) o = o % span / 4 % 2 ^ k) ∧
  (∀ (s : State) (h : Half) (l l' : Loc) (base a : Nat) (r : RegSpec), s.reachLoc h l base = .reg l' a r →
    ∀ p, pageSpec l.blk l.inst (l.off / 0x1000) = some p →
    a = base + 0x1000 * (l.off / 0x1000) + 4 * aliasIndex p.span p.count (l.off % 0x1000) ∧
    r ∈ p.regs ∧ r.off = 4 * aliasIndex p.span p.count (l.off % 0x1000))

/-- Invalid descriptors (R378). -/
def Obligations.InvalidDescriptorsMoveNothing : Prop :=
  (∀ (w : List Nat), (sdmDesc w).bad = true ↔
    (w.getD 4 0 % 2 ^ 32 / 2 ^ 24 ≠ 0 ∨ w.getD 5 0 % 2 ^ 32 / 2 ^ 7 ≠ 0 ∨ w.getD 6 0 % 2 ^ 32 / 2 ^ 16 ≠ 0 ∨
      w.getD 7 0 % 2 ^ 32 ≠ 0) ∨ (sdmDesc w).srcSpace = 3 ∨ (sdmDesc w).dstSpace = 3 ∨
    (sdmDesc w).src % 4 ≠ 0 ∨ (sdmDesc w).dst % 4 ≠ 0 ∨ (sdmDesc w).len % 4 ≠ 0 ∨ (sdmDesc w).len = 0 ∨
    ((sdmDesc w).srcSpace = 0 ∧ (sdmDesc w).dstSpace = 0) ∨ (sdmDesc w).srcSpace = 2 ∨
    ((sdmDesc w).srcSpace = 1 ∧ (sdmDesc w).dstSpace = 1 ∧ (sdmDesc w).src < (sdmDesc w).dst + (sdmDesc w).len ∧
      (sdmDesc w).dst < (sdmDesc w).src + (sdmDesc w).len) ∨
    ((sdmDesc w).dstSpace = 2 ∧ 4194304 < (sdmDesc w).dst + (sdmDesc w).len)) ∧
  (∀ (s : State) (h : Half) (data : List Byte) (ue : Option Nat) (next : List Nat), ∀ r, (s.sdm h).turn = some r →
    r.1 < 4 → ∀ w, (s.sdm h).desc = some w → (sdmDesc w).bad = true →
    ∃ t, exec (.sdmDescriptorEnd h data ue next) s = .next t ∧ t.get (B.sdm h) F.SDM_ERRINFO_STATUS = 1 ∧
      t.mcore.intake = s.mcore.intake ∧
      (s.sdmCqFull h r.1 = true →
        ((smFind (t.sdm h).held r.1).map fun x => x.1.getD 0 0 / 2 ^ 24) = some 1) ∧
      (s.sdmCqFull h r.1 = true ∨ s.bit (sdmCh h r.1) F.SDM_CHCFG_CSPACE = false → ∀ a, t.bufByte a = s.bufByte a) ∧
      (s.sdmCqFull h r.1 = true ∨ (s.bit (sdmCh h r.1) F.SDM_CHCFG_CSPACE = true ∧
        s.bit (sdmCh h r.1) F.SDM_CHCTL_IEN = false) → t.hostMem = s.hostMem))

/-- Saturation of the counters (R59). -/
def Obligations.CountersSaturate : Prop :=
  (∀ (s : State) (h : Half) (c n : Nat), c < 4096 → 0 < n → s.cntSat h c = false → 2 ^ 48 - 1 ≤ s.cnt48 h c + n →
    (s.coll h.toNat).fifo.length < 256 →
    (s.bump48 h c n).cnt48 h c = 2 ^ 48 - 1 ∧ (s.bump48 h c n).cntSat h c = true ∧
      ((s.bump48 h c n).coll h.toNat).fifo = (s.coll h.toNat).fifo ++ [message h (32 * 12) 1 c]) ∧
  (∀ (s : State) (h : Half) (c n : Nat), c < 4096 → s.cntSat h c = false → s.cnt48 h c + n < 2 ^ 48 - 1 →
    (s.bump48 h c n).cnt48 h c = s.cnt48 h c + n ∧ (s.bump48 h c n).cntSat h c = false ∧
      (s.bump48 h c n).collectors = s.collectors) ∧
  (∀ (s : State) (h : Half) (c n : Nat), s.cntSat h c = true → s.bump48 h c n = s)

/-- The memory frame of the commands that store nothing (R257, R317, R374). -/
def Obligations.CommandsThatStoreNothing : Prop :=
  ∀ (c : Instr) (s t : State), storesNothing c = true → exec c s = .next t → s.sameStore t

/-- The register frame of commands whose effect stays in a few windows (R67, R71, R72). -/
def Obligations.CommandsWriteTheirWindows : Prop :=
  ∀ (c : Instr) (s t : State) (ws : List Nat), c.wf = true → windowsOf c = some ws → exec c s = .next t → s.sameOutside ws t

/-- The frame of the plain microwords (R165, R168, R485). -/
def Obligations.PlainMicrowordsTouchOneWick : Prop :=
  ∀ (c : Instr) (s t : State) (h : Half) (u : Nat), plainWord c = some (h, u) → u < 8 → exec c s = .next t →
    t.wckState (actId h u) ≠ 3 → s.sameButWick (actId h u) t

/-- The stored bytes (R270, R271, R328, R379, R380, R382). -/
def Obligations.StoresReachOnlyTheirBytes : Prop :=
  (∀ (s : State) (h : Half) (cls : BufCls) (ha : Nat) (bytes : List Byte) (a : Nat),
    (∀ i, i < bytes.length → s.touched h ((ha + i) / 4096) = true) → ha + bytes.length ≤ 2 ^ 41 →
    (a < bufBa h ha ∨ bufBa h ha + bytes.length ≤ a) →
    ∃ t, exec (.bufferWrite h cls ha bytes []) s = .next t ∧ t.bufByte a = s.bufByte a ∧ t.hostMem = s.hostMem) ∧
  (∀ (s : State) (h : Half) (data : List Byte) (next : List Nat) (a : Nat), ∀ r, (s.sdm h).turn = some r → r.1 < 4 →
    ∀ w, (s.sdm h).desc = some w → (sdmDesc w).bad = false → (sdmDesc w).dstSpace = 1 →
    s.tableHit (sdmDesc w).dst (sdmDesc w).len = false → s.bit (sdmCh h r.1) F.SDM_CHCFG_CSPACE = false →
    (a < (sdmDesc w).dst ∨ (sdmDesc w).dst + (sdmDesc w).len ≤ a) →
    ∃ t, exec (.sdmDescriptorEnd h data none next) s = .next t ∧ t.bufByte a = s.bufByte a) ∧
  (∀ (s : State) (h : Half) (data : List Byte) (next : List Nat) (a : Nat), ∀ r, (s.sdm h).turn = some r → r.1 < 4 →
    ∀ w, (s.sdm h).desc = some w → (sdmDesc w).bad = false → (sdmDesc w).dstSpace = 0 → s.sdmCqFull h r.1 = true →
    hostIn h (sdmDesc w).dst (sdmDesc w).len a = false →
    ∃ t, exec (.sdmDescriptorEnd h data none next) s = .next t ∧ smGet 0 t.hostMem a = smGet 0 s.hostMem a ∧
      t.dram = s.dram) ∧
  (∀ (s : State) (h : Half) (n a : Nat), ∀ c, s.cmd h n = some c → c.result.isSome = true → c.sq < 256 →
    s.bit (cqB h (s.get (sqB h c.sq) F.SQ_CQID)) F.CQ_IEN = false →
    hostIn h (s.get (cqB h (s.get (sqB h c.sq) F.SQ_CQID)) F.CQ_BASE_LO +
      s.get (cqB h (s.get (sqB h c.sq) F.SQ_CQID)) F.CQ_BASE_HI * 2 ^ 32 +
      16 * (s.cq h (s.get (sqB h c.sq) F.SQ_CQID)).post) 16 a = false →
    ∃ t, exec (.completionPost h n) s = .next t ∧ smGet 0 t.hostMem a = smGet 0 s.hostMem a ∧ t.dram = s.dram)

/-- The strap measurement timeline (R41, R42) and the main supply (R25, R26, R425, R428, R446, R509). -/
def Obligations.StrapAndSupplyEvents : Prop :=
  (∀ (s : State), .cold ∈ s.asserted ∨ .auxBo ∈ s.asserted →
    exec .auxPowerGood s =
      .next { s with board := { s.board with auxGood := true, strapRun := true, conversions := [] } }) ∧
  (∀ (s : State) (ohm : Nat), s.mantleUp = true → s.board.strapRun = true → s.board.conversions.length < 8 →
    exec (.strapConversion ohm) s =
      .next { s with board := { s.board with conversions := s.board.conversions ++ [strapCode ohm] } }) ∧
  (∀ (s : State) (c : Nat), c < 16 → s.mantleUp = true → s.board.strapRun = true →
    s.board.conversions = List.replicate 8 c →
    ∃ t, exec (.strapSetEnd (c.testBit 3)) s = .next t ∧ t.get B.mnt F.MNT_STRAP_CODE = c ∧
      t.get B.mnt F.MNT_STRAP_LATCHED = 1 ∧ t.get B.mnt F.MNT_STRAP_UNSTABLE = 0 ∧ t.board.strapRun = false) ∧
  (∀ (s : State) (p : Bool), s.mantleUp = true → s.board.strapRun = true → s.board.conversions.length = 8 →
    (∃ x ∈ s.board.conversions, x ≠ s.board.conversions.headD 0) →
    ∃ t, exec (.strapSetEnd p) s = .next t ∧ t.get B.mnt F.MNT_STRAP_UNSTABLE = 1 ∧ t.board.strapRun = false ∧
      t.get B.mnt F.MNT_STRAP_CODE = s.get B.mnt F.MNT_STRAP_CODE) ∧
  (∀ (s : State), s.mantleUp = true → s.bit B.mnt F.MNT_STRAP_UNSTABLE = true → s.board.strapRun = false →
    exec .strapRetry s = .next { s with board := { s.board with strapRun := true, conversions := [] } }) ∧
  (∀ (s : State), s.board.auxGood = true → s.mantleUp = true → s.bit B.mnt F.MNT_STRAP_LATCHED = true →
    s.board.hotSwap = false →
    exec .hotSwapClose s = .next { s with board := { s.board with
      psenLow := true, hotSwap := true, rampEnded := false, backfeedBlocked := false } }) ∧
  (∀ (s : State), s.board.hotSwap = true → s.board.rampEnded = false →
    exec .hotSwapRampEnd s = .next { s with board := { s.board with rampEnded := true, mainBoArmed := true } }) ∧
  (∀ (s : State) (h : Half) (rail : Nat), rail < 6 → s.board.rampEnded = true →
    smGet 0 s.rails h.toNat = 2 ^ rail - 1 →
    ∃ t, exec (.railGood h rail) s = .next t ∧ smGet 0 t.rails h.toNat = 2 ^ (rail + 1) - 1 ∧
      t.get (B.pwr h) F.PWR_RAIL_GOOD = 2 ^ (rail + 1) - 1) ∧
  (∀ (s : State), ∃ t, exec .psenNHigh s = .next t ∧ t.rails = [] ∧
      (s.board.mainBoArmed = true → .mainBo ∈ t.asserted)) ∧
  (∀ (s : State), s.board.mainBoArmed = true → ∃ t, exec .busBrownOut s = .next t ∧ .mainBo ∈ t.asserted) ∧
  (∀ (s : State), .mainBo ∈ s.asserted → s.mainGood = true →
    ∃ t, exec .mainBoRelease s = .next t ∧ .mainBo ∉ t.asserted)

/-- The sources that reach the whole module (R423, R425, R427, R429, R443). -/
def Obligations.ModuleResetEvents : Prop :=
  (∀ (s : State), ∃ t, exec .cold s = .next t ∧ t.asserted = [.cold] ∧ t.up = 0 ∧
      t.board.strapRun = s.board.auxGood ∧ t.mcore.slots = s.mcore.slots) ∧
  (∀ (s : State), .cold ∈ s.asserted → s.board.auxGood = true →
    ∃ t, exec .coldRelease s = .next t ∧ .cold ∉ t.asserted ∧
      (∀ x ∈ s.asserted, x ≠ .cold → x ∈ t.asserted)) ∧
  (∀ (s : State), .auxBo ∉ s.asserted → .cold ∉ s.asserted →
    ∃ t, exec .auxBo s = .next t ∧ .auxBo ∈ t.asserted ∧ t.rails = [] ∧ t.mcore.auxBoPending = true) ∧
  (∀ (s : State), .auxBo ∈ s.asserted → s.mcore.auxBoPending = true → s.get B.mnt F.MNT_RETACT_ACTIVE = 0 →
    ∃ t, exec .auxBoMantleReset s = .next t ∧ t.asserted = [.auxBo] ∧ t.up = 0 ∧ t.mcore.auxBoPending = false) ∧
  (∀ (s : State), .auxBo ∈ s.asserted → s.mcore.auxBoPending = false → s.board.auxGood = true →
    ∃ t, exec .auxBoRelease s = .next t ∧ .auxBo ∉ t.asserted ∧ t.get B.lmp F.LMP_CAUSE_SOURCE = 2) ∧
  (∀ (s : State), s.board.auxGood = false →
    ∃ t, exec .mantleRailLoss s = .next t ∧ t.asserted = [.cold] ∧ t.up = 0) ∧
  (∀ (s : State), s.mantleUp = true → ∃ t, exec .mrst s = .next t ∧ .mrst ∈ t.asserted) ∧
  (∀ (s : State), ∃ t, exec .mrstRelease s = .next t ∧ .mrst ∉ t.asserted ∧ t.board.mrstLow = false)

/-- Events of the host ports (R28, R318, R319, R362, R425, R458). -/
def Obligations.HostPortEvents : Prop :=
  (∀ (s : State) (h : Half), s.mantleUp = true →
    (∃ t, exec (.perstAssert h) s = .next t ∧ .port h ∈ t.asserted) ∧
    (∃ t, exec (.hotReset h) s = .next t ∧ .port h ∈ t.asserted) ∧
    (∃ t, exec (.flr h) s = .next t ∧ .port h ∈ t.asserted)) ∧
  (∀ (s : State) (h : Half), s.coreUp h = true →
    ∃ t, exec (.cablePresenceHigh h) s = .next t ∧ (t.hif h).stopped = true) ∧
  (∀ (s : State) (h : Half), s.coreUp h = true → s.get (B.hif h) F.HIF_STAT_LINK = 2 →
    ∃ t, exec (.linkDown h) s = .next t ∧ t.get (B.hif h) F.HIF_STAT_LINK = 0 ∧
      t.get (B.hif h) F.HIF_EVENTS_LINK_DOWN = 1 ∧ t.board.dlDown.testBit h.toNat = true) ∧
  (∀ (s : State) (h : Half), s.coreUp h = true → s.board.dlDown.testBit h.toNat = true →
    ∃ t, exec (.linkDownTimeout h) s = .next t ∧ (t.hif h).stopped = true) ∧
  (∀ (s : State) (h : Half) (speed : Nat) (x8 flit cable : Bool), speed < 3 → s.outEnable h = true →
    .port h ∉ s.asserted → s.board.perst.testBit h.toNat = false →
    (s.get (B.clk h) F.CLK_REFCFG_PCIE_REF = 1 → cable = true) →
    ∃ t, exec (.linkTrained h speed x8 flit cable) s = .next t ∧ t.get (B.hif h) F.HIF_STAT_LINK = 2 ∧
      t.get (B.hif h) F.HIF_STAT_SPEED = speed ∧ (t.hif h).stopped = false ∧
      (speed ≠ 0 ∨ x8 = true → t.get (B.hif h) F.HIF_EVENTS_SPEED_DOWN = 1)) ∧
  (∀ (s : State) (h : Half), ∃ t, exec (.portRelease h) s = .next t ∧ .port h ∉ t.asserted) ∧
  (∀ (s : State) (h : Half), s.coreUp h = true → s.bit (B.clk h) F.CLK_REFCFG_CABLE = true →
    s.get (B.hif h) F.HIF_STAT_LINK = 2 →
    ∃ t, exec (.pcieRefLost h) s = .next t ∧ t.get (B.hif h) F.HIF_STAT_LINK = 0 ∧
      t.get (B.clk h) F.CLK_EVENTS_PCIE_REF_LOST = 1)

/-- Releases (R425, R432, R435, R438, R440). -/
def Obligations.LanternReleaseEvents : Prop :=
  (∀ (s : State) (h : Half), s.mayLeaveReset h = true → (h = .b → s.coreUp .a = true) →
    ∃ t, exec .lanternRelease s = .next t ∧ t.coreUp h = true) ∧
  (∀ (s : State) (h : Half), .half h ∈ s.asserted →
    ∃ t, exec (.halfRelease h) s = .next t ∧ .half h ∉ t.asserted) ∧
  (∀ (s : State) (h : Half) (n : Nat), .hda (hdaId h n) ∈ s.asserted → .hda (hdaId h n) ∉ s.draining →
    ∃ t, exec (.hdaResetRelease h n) s = .next t ∧ .hda (hdaId h n) ∉ t.asserted) ∧
  (∀ (s : State) (h : Half) (code : Nat), .block h code ∈ s.asserted → .block h code ∉ s.draining →
    ∃ t, exec (.blockRelease h code) s = .next t ∧ .block h code ∉ t.asserted) ∧
  (∀ (s : State) (h : Half) (code : Nat), code < 0x40 →
    exec (.wrapperDrained h code) s = .next { s with draining := s.draining.filter (· ≠ .block h code) }) ∧
  (∀ (s : State) (h : Half) (n : Nat), n < 4 →
    exec (.wrapperDrained h (0x40 + n)) s = .next { s with draining := s.draining.filter (· ≠ .hda (hdaId h n)) }) ∧
  (∀ (s : State) (h : Half), s.coreUp h = true →
    ∃ t, exec (.configured h) s = .next t ∧ t.outEnable h = true)

/-- The request page (R426, R434). -/
def Obligations.ResetRequests : Prop :=
  (∀ (s : State) (h : Half), s.coreUp h = true → s.board.reqOpen.any (·.1 == h) = false →
    ∃ t, exec (.halfResetRequest h 0 0x5C) s = .next t ∧ .half h ∈ t.asserted) ∧
  (∀ (s : State) (h : Half) (n : Nat), n < 4 → s.coreUp h = true → s.board.reqOpen.any (·.1 == h) = false →
    s.hdaDark (hdaId h n) = false → s.owns h.other (hdaId h n) = false →
    ∃ t, exec (.hdaResetRequest h n 0x5C) s = .next t ∧ .hda (hdaId h n) ∈ t.asserted) ∧
  (∀ (s : State) (h : Half) (code : Nat), code < 0x28 ∨ code = 0x30 → s.coreUp h = true →
    s.board.reqOpen.any (·.1 == h) = false → s.srcDark (.block h code) = false →
    ∃ t, exec (.blockResetRequest h code 0x5C) s = .next t ∧ .block h code ∈ t.asserted) ∧
  (∀ (s : State) (h : Half) (target key : Nat), s.coreUp h = true → key % 256 ≠ 0x5C →
    (∃ t, exec (.halfResetRequest h target key) s = .next t ∧ t.get (B.pwr h) F.LMP_REQSTAT_STATE = 3 ∧
      t.get (B.pwr h) F.LMP_REQSTAT_REASON = 1 ∧ t.asserted = s.asserted) ∧
    (∃ t, exec (.hdaResetRequest h target key) s = .next t ∧ t.get (B.pwr h) F.LMP_REQSTAT_STATE = 3 ∧
      t.get (B.pwr h) F.LMP_REQSTAT_REASON = 1 ∧ t.asserted = s.asserted) ∧
    (∃ t, exec (.blockResetRequest h target key) s = .next t ∧ t.get (B.pwr h) F.LMP_REQSTAT_STATE = 3 ∧
      t.get (B.pwr h) F.LMP_REQSTAT_REASON = 1 ∧ t.asserted = s.asserted)) ∧
  (∀ (s : State) (h : Half) (n : Nat), s.coreUp h = true → 4 ≤ n → n < 256 →
    ∃ t, exec (.hdaResetRequest h n 0x5C) s = .next t ∧ t.get (B.pwr h) F.LMP_REQSTAT_STATE = 3 ∧
      t.get (B.pwr h) F.LMP_REQSTAT_REASON = 2 ∧ t.asserted = s.asserted)

/-- Power domains (R448, R450, R451, R464). -/
def Obligations.PowerDomainEvents : Prop :=
  (∀ (s : State) (h : Half) (d us : Nat), domPolicy d = true → s.coreUp h = true → s.domState h d = 3 →
    s.bit (polB h d) F.PWR_POL1_HOLD = false → s.polRun h d us false = true → s.polFloor h d us ≠ 3 →
    smGet false s.waking (32 * h.toNat + d) = false → (22 ≤ d → s.hdaNoGate (hdaId h (d - 22)) = 0) →
    s.domBusy h d = false →
    ∃ t, exec (.domainGate h d us) s = .next t ∧ t.domState h d = 2) ∧
  (∀ (s : State) (h : Half) (d us : Nat), domPolicy d = true → s.coreUp h = true → s.domState h d = 2 →
    s.bit (polB h d) F.PWR_POL1_HOLD = false → s.polRun h d us true = true → s.polFloor h d us < 2 →
    smGet false s.waking (32 * h.toNat + d) = false → s.domBusy h d = false →
    s.domDeep h d (s.polFloor h d us) = (s.polFloor h d us, 0) →
    ∃ t, exec (.domainFloor h d us) s = .next t ∧ t.domState h d = s.polFloor h d us) ∧
  (∀ (s : State) (h : Half) (d : Nat) (late : Bool), domPolicy d = true → s.coreUp h = true → s.domState h d ≠ 3 →
    ∃ t, exec (.domainWake h d late) s = .next t ∧ smGet false t.waking (32 * h.toNat + d) = true) ∧
  (∀ (s : State) (h : Half) (d : Nat), d < 26 → s.coreUp h = true →
    smGet false s.waking (32 * h.toNat + d) = true →
    ∃ t, exec (.domainWakeDone h d) s = .next t ∧ t.domState h d = 3 ∧
      smGet false t.waking (32 * h.toNat + d) = false) ∧
  (∀ (s : State) (h : Half) (d : Nat) (w : Word), domPolicy d = true → s.coreUp h = true →
    ∃ t, exec (.policyWrite h d w) s = .next t ∧ t.get (polB h d) F.PWR_POL1_FLOOR = w.toNat % 4 ∧
      t.get (polB h d) F.PWR_POL1_HOLD = w.toNat / 4 % 2 ∧ t.get (polB h d) F.PWR_POL1_T_GATE = w.toNat / 16 % 256 ∧
      t.get (polB h d) F.PWR_POL1_T_DEEP = w.toNat / 65536)

/-- Rails, meter, clocks, time, sockets and probe (R30, R36, R447, R453, R457, R460, R461). -/
def Obligations.RailMeterAndClockEvents : Prop :=
  (∀ (s : State) (h : Half) (rail : Nat), rail < 6 → s.coreUp h = true →
    ∃ t, exec (.railFault h rail) s = .next t ∧ t.get (B.pwr h) F.PWR_EVENTS_RAIL_FAULT = 1 ∧
      t.get (B.pwr h) F.PWR_RAIL_FAULT = 2 ^ rail) ∧
  (∀ (s : State) (h : Half) (mean : Nat), 1200 < mean → s.coreUp h = true →
    ∃ t, exec (.meterOver h mean) s = .next t ∧ t.get (B.pwr h) F.PWR_HALFP_MEAN = min mean 0xFFFF ∧
      t.get (B.pwr h) F.PWR_EVENTS_METER_OVER = 1) ∧
  (∀ (s : State) (h : Half) (c : Nat), 0 < c → c < 22 → s.coreUp h = true →
    s.maskBit (B.clk h) F.CLK_LOCK_LOCK c = true →
    ∃ t, exec (.pllUnlock h c) s = .next t ∧ t.maskBit (B.clk h) F.CLK_LOCK_LOCK c = false ∧
      t.get (B.clk h) F.CLK_EVENTS_UNLOCK = 1) ∧
  (∀ (s : State) (h : Half), s.coreUp h = true →
    ∃ t, exec (.refFail h) s = .next t ∧ t.maskBit (B.clk h) F.CLK_LOCK_LOCK 0 = false ∧
      t.get (B.clk h) F.CLK_EVENTS_REF_FAIL = 1) ∧
  (∀ (s : State) (h : Half) (n : Nat), n < 4 →
    ∃ t, exec (.motlinkStop h) s = .next t ∧ t.get (brgB (hdaId h n)) F.BRG_SPN_MODE = 0 ∧
      t.get (brgB (hdaId h n)) F.BRG_VCM0_MODE ≠ 1 ∧ t.get (brgB (hdaId h n)) F.BRG_VCM1_MODE ≠ 1) ∧
  (∀ (s : State) (h : Half), s.mantleUp = true →
    ∃ t, exec .glimTick s = .next t ∧ t.ticks = s.ticks + 1 ∧
      (s.coreUp h = true → t.get (B.clk h) F.CLK_TIME_LO_TIME = t.usTime % 2 ^ 32)) ∧
  (∀ (s : State) (h : Half), s.mantleUp = true → s.coreUp h = true →
    ∃ t, exec .glimFail s = .next t ∧ t.get (B.clk h) F.CLK_EVENTS_GLIM_FAIL = 1) ∧
  (∀ (s : State) (h : Half) (n : Nat), n < 8 → s.coreUp h = true →
    s.board.socketClosed.testBit (8 * h.toNat + n) = true →
    ∃ t, exec (.socketTrip h n) s = .next t ∧ t.board.socketClosed.testBit (8 * h.toNat + n) = false ∧
      t.get (B.buf h n) F.BUF_CHEVENTS_SWITCH_TRIP = 1) ∧
  (∀ (s : State) (h : Half) (low : Bool), s.coreUp h = true →
    ∃ t, exec (.traceProbeChange low) s = .next t ∧ t.board.probe = low ∧
      t.bit (B.cri h) F.CRI_TRCSTAT_LANES_UP = (low && s.outEnable h))

/-- Shock and Snuffer events (R45, R150, R153, R199). -/
def Obligations.ShockAndSnufferEvents : Prop :=
  (∀ (s : State) (p : ShockSample) (ai : Nat), ai < 16 →
    ∃ t, exec (.shockSample p) s = .next t ∧ (t.srv ai).alpha1 = alphaOf p ∧
      (t.srv ai).alpha0 = (if (s.srv ai).rvFresh then (s.srv ai).alpha1 else alphaOf p) ∧ (t.srv ai).rvFresh = true) ∧
  (∀ (s : State) (h : Half) (u : Nat), u < 8 →
    ∃ t, exec (.feedforwardTimeout h) s = .next t ∧ (t.srv (actId h u)).rvFresh = false) ∧
  (∀ (s : State) (h : Half) (u level : Nat), u < 8 → s.coreUp h = true → s.shockTh (actId h u) < level →
    ∃ t, exec (.snufferShock h level) s = .next t ∧ (t.fmt (actId h u)).shock = true) ∧
  (∀ (s : State) (h : Half) (u peak : Nat), u < 8 → (s.fmt (actId h u)).pos = true →
    min1 (s.get (fmtB (actId h u)) F.FMT_SNFCFG_REARM) ≤ (s.fmt (actId h u)).cleanPos →
    ∃ t, exec (.snufferRearm h u 0 peak) s = .next t ∧ (t.fmt (actId h u)).pos = false) ∧
  (∀ (s : State) (h : Half) (u peak : Nat), u < 8 → (s.fmt (actId h u)).shock = true → peak ≤ s.shockTh (actId h u) →
    ∃ t, exec (.snufferRearm h u 1 peak) s = .next t ∧ (t.fmt (actId h u)).shock = false) ∧
  (∀ (s : State) (h : Half) (u peak : Nat), u < 8 → (s.fmt (actId h u)).implaus = true →
    min1 (s.get (fmtB (actId h u)) F.FMT_SNFCFG_REARM) ≤ (s.fmt (actId h u)).cleanImplaus →
    ∃ t, exec (.snufferRearm h u 2 peak) s = .next t ∧ (t.fmt (actId h u)).implaus = false) ∧
  (∀ (s : State) (h : Half) (u peak : Nat), u < 8 → (s.fmt (actId h u)).owner = true →
    s.ownLine (actHda (actId h u)) = true →
    ∃ t, exec (.snufferRearm h u 3 peak) s = .next t ∧ (t.fmt (actId h u)).owner = false)

/-- Register accesses (R14, R47, R50, R57, R62, R69). -/
def Obligations.RegisterAccessCommands : Prop :=
  (∀ (s : State) (who : Accessor) (off : Nat) (v : Word), off % 4 = 0 → Accessor.isMantle who = false →
    s.coreUp (Accessor.half who) = true → ∀ x, s.ownReg (Accessor.half who) off = some x → s.storesOnly who x.1 x.2.1 x.2.2 v = true →
    exec (.registerWrite who off [(v, 15)]) s = .next (s.setWord x.2.1 (writeBits x.2.2 (s.word x.2.1) v))) ∧
  (∀ (s : State) (who : Accessor) (off be : Nat) (v : Word),
    off % 4 = 0 → off < 0x1000000 → Accessor.isMantle who = false → s.coreUp (Accessor.half who) = true → be < 15 →
    ∃ t, exec (.registerWrite who off [(v, be)]) s = .next t ∧
      t.get (B.hif (Accessor.half who)) F.HIF_ACCSTAT_PARTIAL = 1) ∧
  (∀ (s : State) (who : Accessor) (off : Nat), off % 4 = 0 → Accessor.isMantle who = false →
    s.coreUp (Accessor.half who) = true →
    ∀ x, s.ownReg (Accessor.half who) off = some x → (freeWord x.1).isNone = true →
    ∃ t, exec (.readClear who off 1) s = .next t ∧
      t.lastRead = [s.liveHalf (Accessor.half who) x.1 (s.word x.2.1) &&& ~~~BitVec.ofNat 32 x.2.2.wo] ∧
      t.word x.2.1 = s.word x.2.1 &&& ~~~BitVec.ofNat 32 x.2.2.rc) ∧
  (∀ (s : State) (who : Accessor) (off : Nat) (write : Bool),
    off % 4 = 0 → off < 0x1000000 → Accessor.isMantle who = false → s.coreUp (Accessor.half who) = true →
    s.reach (Accessor.half who) off = .nothing (Accessor.half who) F.HIF_ACCSTAT_STRAY →
    ∃ t, exec (.strayAccess who false write off) s = .next t ∧
      t.get (B.hif (Accessor.half who)) F.HIF_ACCSTAT_STRAY = 1 ∧ (write = false → t.lastRead = [0])) ∧
  (∀ (s : State) (h : Half) (off : Nat) (v : Word), off % 4 = 0 → s.mantleServes = true →
    ∀ x, s.mntReg h off = some x → x.2.2.mnt ≠ 0 → x.1.blk ≠ .mot →
    exec (.registerWrite (.mantle h) off [(v, 15)]) s = .next (s.maskWrite x.2.1 x.2.2.mnt v)) ∧
  (∀ (s : State) (h : Half) (c : Nat), s.coreUp h = true → s.regsWf = true → c < 4096 →
    ∃ t, exec (.snapshot h) s = .next t ∧ t.get64 (cntAddr h c + 0x8000) = s.get64 (cntAddr h c) ∧
      t.get (B.cri h) F.CRI_SNAP_SEQ_SEQ = (s.get (B.cri h) F.CRI_SNAP_SEQ_SEQ + 1) % 2 ^ 32)

/-- Presence, identification and PORT_MODE (R34, R85, R87). -/
def Obligations.HarnessPresenceAndIdentity : Prop :=
  (∀ (s : State) (h : Half) (n : Nat), n < 4 → s.hdaUp (hdaId h n) = true → s.hdaDark (hdaId h n) = false →
    s.domState h (22 + n) ≠ 0 → s.portState (hdaId h n) = 0 →
    ∃ t, exec (.presenceLow h n) s = .next t ∧ t.portState (hdaId h n) = 1 ∧
      t.get (B.grz h n) F.GRZ_PORTSTAT_PRES0 = 1 ∧ t.get (B.grz h n) F.GRZ_PORTSTAT_PRES1 = 1) ∧
  (∀ (s : State) (h : Half) (n pin : Nat), n < 4 → s.hdaUp (hdaId h n) = true → s.hdaDark (hdaId h n) = false →
    2 ≤ s.portState (hdaId h n) →
    ∃ t, exec (.presenceHigh h n pin) s = .next t ∧ t.portState (hdaId h n) = 0 ∧
      t.get (B.grz h n) F.GRZ_PORTSTAT_PRESENT = 0 ∧ t.get (B.grz h n) F.GRZ_PORTSTAT_ID_VALID = 0) ∧
  (∀ (s : State) (h : Half) (n : Nat), n < 4 → s.portState (hdaId h n) = 1 → s.seated (hdaId h n) = true →
    ∃ t, exec (.debounceElapsed h n) s = .next t ∧ t.portState (hdaId h n) = 2 ∧
      t.get (B.grz h n) F.GRZ_PORTSTAT_PRESENT = 1 ∧ t.get (B.grz h n) F.GRZ_EVENTS_INSERTED = 1 ∧
      (t.port (hdaId h n)).supply = true) ∧
  (∀ (s : State) (h : Half) (n : Nat), n < 4 → s.portState (hdaId h n) = 2 → (s.port (hdaId h n)).supply = true →
    ∃ t, exec (.eepromReadStart h n) s = .next t ∧ (t.port (hdaId h n)).eeprom = true ∧
      t.get (B.grz h n) F.GRZ_PORTSTAT_SUP_OK = 1) ∧
  (∀ (s : State) (h : Half) (n : Nat) (bytes : List Byte), n < 4 → s.portState (hdaId h n) = 2 →
    (s.port (hdaId h n)).eeprom = true → identCrcOk bytes = false →
    ∃ t, exec (.eepromReadDone h n bytes) s = .next t ∧ t.portState (hdaId h n) = 5 ∧
      t.get (B.grz h n) F.GRZ_EVENTS_ID_CRC_ERR = 1) ∧
  (∀ (s : State) (h : Half) (n a : Nat) (bytes : List Byte), n < 4 → a < 2 → s.portState (hdaId h n) = 2 →
    (s.port (hdaId h n)).eeprom = true → identCrcOk bytes = true → identFieldsOk bytes = true →
    (s.pa (2 * hdaId h n + a)).cur = none → (s.pa (2 * hdaId h n + a)).queue = [] →
    ∃ t, exec (.eepromReadDone h n bytes) s = .next t ∧
      (t.pa (2 * hdaId h n + a)).cur = some ⟨.identify, readFrame 0, false⟩) ∧
  (∀ (s : State) (h : Half) (n : Nat), n < 4 → 3 ≤ s.portState (hdaId h n) → s.portState (hdaId h n) ≤ 5 →
    ∃ t, exec (.portModeWrite h n 0) s = .next t ∧ t.portState (hdaId h n) = 5) ∧
  (∀ (s : State) (h : Half) (n : Nat), n < 4 → s.portState (hdaId h n) = 4 →
    ∃ t, exec (.portModeWrite h n 1) s = .next t ∧ t.portState (hdaId h n) = 3) ∧
  (∀ (s : State) (h : Half) (n mode : Nat), n < 4 → mode = 1 ∨ mode = 2 → s.portState (hdaId h n) = 5 →
    s.seated (hdaId h n) = true →
    ∃ t, exec (.portModeWrite h n mode) s = .next t ∧ t.portState (hdaId h n) = 2 ∧
      (t.port (hdaId h n)).supply = true)

/-- Frames and faults (R33, R77, R79, R80, R82, R90). -/
def Obligations.PreampFramesAndFaults : Prop :=
  (∀ (s : State) (h : Half) (u : Nat) (resp : PaResp), u < 8 →
    ∀ f, (s.pa (actId h u)).cur = some f → f.owner = .wick → (s.pa (actId h u)).queue = [] →
    (frameAddr f.bits = 2 → s.frameHeld (actId h u) f.bits = false) → respOk f.bits resp = true →
    ∃ t, exec (.preampFrameEnd h u resp) s = .next t ∧
      (t.wick (actId h u)).frameAns = some ((s.paHeld (actId h u) (frameAddr f.bits)).getD (respData resp)) ∧
      (t.pa (actId h u)).cur = none) ∧
  (∀ (s : State) (h : Half) (u : Nat) (resp : PaResp), u < 8 →
    ∀ f, (s.pa (actId h u)).cur = some f → f.repeated = false → respOk f.bits resp = false →
    s.frameReady (actId h u) f = true → (gateFrame f.bits = true → s.ownLine (actHda (actId h u)) = true) →
    ∃ t, exec (.preampFrameEnd h u resp) s = .next t ∧
      (t.pa (actId h u)).cur = some { f with repeated := true }) ∧
  (∀ (s : State) (h : Half) (n a : Nat), n < 4 → a < 2 →
    (s.pa (2 * hdaId h n + a)).cur = none → (s.pa (2 * hdaId h n + a)).queue = [] →
    s.frameHeld (2 * hdaId h n + a) (s.softBits h n) = false → (a = 1 → (s.port (hdaId h n)).second = false) →
    (gateFrame (s.softBits h n) = true → s.ownLine (hdaId h n) = true) →
    ∃ t, exec (.pago h n (a == 0) (a == 1)) s = .next t ∧
      (t.pa (2 * hdaId h n + a)).cur = some ⟨.software, s.softBits h n, false⟩ ∧
      t.get (B.grz h n) F.GRZ_PARESP_DONE = 0) ∧
  (∀ (s : State) (h : Half) (n : Nat) (neg : Bool), n < 4 → (s.port (hdaId h n)).supply = true →
    ∃ t, exec (.preampSupplyOverload h n neg) s = .next t ∧ (t.port (hdaId h n)).supply = false ∧
      t.get (B.grz h n) F.GRZ_EVENTS_SUP_OVL = 1) ∧
  (∀ (s : State) (h : Half) (u fault : Nat), u < 8 → fault < 256 → fault % 128 ≠ 0 →
    (s.port (actHda (actId h u))).supply = true →
    ∃ t, exec (.preampFault h u fault) s = .next t ∧ (t.wick (actId h u)).wg = false ∧ (t.wick (actId h u)).rg = 0 ∧
      t.get (grzB (actHda (actId h u))) (paFltLog (actId h u)) =
        fault % 128 + smGet 0 (s.pa (actId h u)).regs 3 / 128 % 2 * 128 ∧
      t.maskBit (grzB (actHda (actId h u))) F.GRZ_PORTSTAT_FLT (u % 2) = true ∧ (t.pa (actId h u)).persistDue = true) ∧
  (∀ (s : State) (h : Half) (u fault : Nat), u < 8 → fault < 256 → (s.pa (actId h u)).persistDue = true →
    ∃ t, exec (.persistentFaultCheck h u fault) s = .next t ∧ (t.pa (actId h u)).persistDue = false ∧
      t.get (grzB (actHda (actId h u))) (paFltLog (actId h u)) =
        fault % 128 + smGet 0 (s.pa (actId h u)).regs 3 / 128 % 2 * 128 ∧
      t.maskBit (grzB (actHda (actId h u))) F.GRZ_PORTSTAT_FLT (u % 2) = decide (fault % 128 ≠ 0))

/-- A read on a channel (R99 to R103, R112, R117, R172). -/
def Obligations.ChannelReadGates : Prop :=
  (∀ (s : State) (h : Half) (n : Nat), n < 32 → s.chOn (chId h n) = true →
    s.rgPin (chAct (chId h n)) (chSlot (chId h n)) = true → (s.pa (chAct (chId h n))).sg = false →
    s.chState (chId h n) = 0 → s.rateOk (chId h n) = true →
    ∃ t, exec (.readGateRise h n) s = .next t ∧ t.chState (chId h n) = 1) ∧
  (∀ (s : State) (h : Half) (n : Nat), n < 32 → s.chOn (chId h n) = true →
    s.rgPin (chAct (chId h n)) (chSlot (chId h n)) = true → (s.pa (chAct (chId h n))).sg = false →
    s.chState (chId h n) = 4 → ∀ x, (s.rch (chId h n)).secs.getLast? = some x → x.live = true → x.phase = 0 →
    ∃ t, exec (.readGateRise h n) s = .next t ∧ t.chState (chId h n) = 5) ∧
  (∀ (s : State) (h : Half) (n : Nat) (phase : Int) (errs : List Int), n < 32 → (s.rch (chId h n)).secs ≠ [] →
    s.chState (chId h n) = 1 →
    ∃ t, exec (.lockCheck h n phase errs) s = .next t ∧ t.chState (chId h n) = 2 ∧
      (t.rch (chId h n)).locked = decide (((errs.drop 192).take 64).foldl (fun (m : Int) e => m + e * e) 0 ≤
        ((64 * s.get (chB (chId h n)) F.RCH_TLOOP_LOCK_TH ^ 2 : Nat) : Int)) ∧
      t.bit (chB (chId h n)) F.RCH_STAT_LOCK = (t.rch (chId h n)).lockShown) ∧
  (∀ (s : State) (h : Half) (n : Nat) (rx : BitVec 160) (last : Nat) (errs : List Int), n < 32 → s.chState (chId h n) = 2 →
    ∀ x, (s.rch (chId h n)).secs.getLast? = some x → x.lockBad = false →
    ∃ t, exec (.syncWindowClose h n rx last errs) s = .next t ∧ t.chState (chId h n) = 3 ∧
      (t.rch (chId h n)).secs.getLast?.map (fun y => (y.p0, y.miss)) =
        some (choosePosition 384 (s.get (chB (chId h n)) F.RCH_SYNCCFG_THRESH)
          (candidates syncMark 272 rx x.winLo (min 432 (max last (384 + s.winOf (chId h n))))))) ∧
  (∀ (s : State) (h : Half) (n : Nat) (errs : List Int), n < 32 → (s.rch (chId h n)).secs ≠ [] →
    s.chState (chId h n) = 3 →
    ∃ t, exec (.readGateFall h n errs) s = .next t ∧ t.chState (chId h n) = 4 ∧
      (t.rch (chId h n)).secs.getLast?.map (·.split) = some true) ∧
  (∀ (s : State) (h : Half) (n : Nat) (phase : Int) (rx : BitVec 94) (errs : List Int), n < 32 →
    (s.rch (chId h n)).secs ≠ [] → s.chState (chId h n) = 5 →
    ∃ t, exec (.resyncWindowClose h n phase rx errs) s = .next t ∧ t.chState (chId h n) = 3 ∧
      (t.rch (chId h n)).secs.getLast?.map (·.rsMiss) =
        some (choosePosition 192 (s.get (chB (chId h n)) F.RCH_SYNCCFG_THRESH)
          (candidates resyncMark 113 rx (192 - max 2 (s.get (chB (chId h n)) F.RCH_SYNCCFG_RS_WIN))
            (192 + max 2 (s.get (chB (chId h n)) F.RCH_SYNCCFG_RS_WIN)))).2) ∧
  (∀ (s : State) (h : Half) (n amp0 amp1 : Nat) (errs : List Int), n < 32 → s.chState (chId h n) = 3 →
    s.rgPin (chAct (chId h n)) (chSlot (chId h n)) = false →
    ∀ x, (s.rch (chId h n)).secs.getLast? = some x → x.phase = 0 → x.frame.isSome = true →
    s.get (chB (chId h n)) F.RCH_ADAPT_DROP_LVL ≤ amp0 →
    ∃ t, exec (.lastCodewordSymbol h n amp0 amp1 errs) s = .next t ∧ t.chState (chId h n) = 0 ∧
      (t.rch (chId h n)).secs.getLast?.map (·.phase) = some 1) ∧
  (∀ (s : State) (h : Half) (u : Nat), u < 8 → s.wckUp (actId h u) = true →
    s.get (wckB (actId h u)) F.WCK_SGCFG_SG_ON < s.get (wckB (actId h u)) F.WCK_SGCFG_SG_OFF → s.outEnable h = true →
    s.ownLine (actHda (actId h u)) = true →
    ∃ t, exec (.servoGateRise h u) s = .next t ∧ (t.pa (actId h u)).sg = true ∧ (t.wick (actId h u)).blank = true) ∧
  (∀ (s : State) (h : Half) (u k : Nat), u < 8 → k < 4 → (s.pa (actId h u)).sg = true →
    ∃ t, exec (.servoGateFall h u) s = .next t ∧ (t.pa (actId h u)).sg = false ∧
      (s.rchUp (4 * actId h u + k) = true → t.get (chB (4 * actId h u + k)) F.RCH_STAT_RATE_RATIO =
        rateRatio ((s.srv (actId h u)).intervals.take
          (2 ^ min 4 (s.get (chB (4 * actId h u + k)) F.RCH_RATECFG_AVG)))))

/-- Decodes (R97, R98, R105, R106, R108 to R110, R118). -/
def Obligations.ChannelDecodes : Prop :=
  (∀ (s : State) (h : Half) (n iters : Nat) (w : BitVec 39936), n < 32 →
    ∀ x, s.secIn (chId h n) 1 = some x →
    converged (iterMax (s.get (chB (chId h n)) F.RCH_ITER_OTF_MAX)) iters (some w) = some w →
    ∃ t, exec (.firstDecodeEnd h n iters (some w)) s = .next t ∧
      ((t.rch (chId h n)).secs[x.1]?).map (fun y => (y.phase, y.status)) = some (5,
        if (s.readCodeword (chAct (chId h n)) x.2.desc (chSlot (chId h n)) (x.2.frame.getD 0) w).1 then
          (if x.2.miss then 1 else 0) else 0xA)) ∧
  (∀ (s : State) (h : Half) (n iters : Nat), n < 32 →
    ∀ x, s.secIn (chId h n) 1 = some x → x.2.inMem = true → x.2.nextDone = false →
    s.bit (chB (chId h n)) F.RCH_CTL_REALIGN = true →
    ∀ p, nextHypothesis (s.get (chB (chId h n)) F.RCH_SYNCCFG_THRESH) (s.get (chB (chId h n)) F.RCH_SYNCCFG_MAX_HYP)
      { x.2 with failed := x.2.failed ++ [x.2.p0] } = some p →
    ∃ t, exec (.firstDecodeEnd h n iters none) s = .next t ∧
      ((t.rch (chId h n)).secs[x.1]?).map (fun y => (y.phase, y.next)) = some (2, some p)) ∧
  (∀ (s : State) (h : Half) (n : Nat), n < 32 →
    ∀ x, s.secWhere (chId h n) (fun x => x.phase == 2 || (x.phase == 3 && x.next.isSome && !x.nextDone)) = some x →
    ∀ p, x.2.next = some p →
    ∃ t, exec (.redetectionDone h n) s = .next t ∧
      (if x.2.phase = 2 then
        ((t.rch (chId h n)).secs[x.1]?).map (fun y => (y.phase, y.tried)) = some (3, x.2.tried ++ [p])
      else ((t.rch (chId h n)).secs[x.1]?).map (fun y => (y.phase, y.nextDone)) = some (3, true))) ∧
  (∀ (s : State) (h : Half) (n iters : Nat) (cw : Option (BitVec 39936)), n < 32 →
    (s.secIn (chId h n) 1).isSome = true → exec (.hypothesisDecodeEnd h n iters cw) s = .next s) ∧
  (∀ (s : State) (h : Half) (n iters : Nat) (w : BitVec 39936), n < 32 →
    s.secIn (chId h n) 1 = none → ∀ x, s.secIn (chId h n) 3 = some x →
    converged (iterMax (s.get (chB (chId h n)) F.RCH_ITER_OTF_MAX)) iters (some w) = some w →
    ∃ t, exec (.hypothesisDecodeEnd h n iters (some w)) s = .next t ∧
      ((t.rch (chId h n)).secs[x.1]?).map (fun y => (y.phase, y.status)) = some (5,
        if (s.readCodeword (chAct (chId h n)) x.2.desc (chSlot (chId h n)) (x.2.frame.getD 0) w).1 then 2 else 0xA)) ∧
  (∀ (s : State) (h : Half) (n iters : Nat) (w : BitVec 39936), n < 32 →
    ∀ x, s.secIn (chId h n) 4 = some x → converged 20 iters (some w) = some w →
    ∃ t, exec (.recoveryRoundEnd h n iters (some w)) s = .next t ∧
      ((t.rch (chId h n)).secs[x.1]?).map (fun y => (y.phase, y.status)) = some (5,
        if (s.readCodeword (chAct (chId h n)) x.2.desc (chSlot (chId h n)) (x.2.frame.getD 0) w).1 then 3 else 0xA)) ∧
  (∀ (s : State) (h : Half) (n iters : Nat), n < 32 → ∀ x, s.secIn (chId h n) 4 = some x →
    x.2.round + 1 < recRounds (s.get (chB (chId h n)) F.RCH_ITER_REC_ROUNDS) →
    ∃ t, exec (.recoveryRoundEnd h n iters none) s = .next t ∧
      ((t.rch (chId h n)).secs[x.1]?).map (fun y => (y.phase, y.round)) = some (4, x.2.round + 1))

/-- Verify and control (R111, R118, R122, R123, R126, R154). -/
def Obligations.ChannelVerifyAndControl : Prop :=
  (∀ (s : State) (h : Half) (n : Nat), n < 32 → ∀ g, s.writingGroup (chAct (chId h n)) = some g →
    s.chOn (chId h n) = true → s.chState (chId h n) = 0 →
    s.verifyReader (chAct (chId h n)) (4 * g + chSlot (chId h n)) = true → s.rateOk (chId h n) = true →
    ∃ t, exec (.verifyStart h n) s = .next t ∧ t.chState (chId h n) = 7) ∧
  (∀ (s : State) (h : Half) (n frame : Nat) (rx : BitVec 160) (iters : Nat), n < 32 →
    (s.wick (chAct (chId h n))).desc.isSome = true → s.chState (chId h n) = 7 →
    ((s.fmt (chAct (chId h n))).op.map (·.ues)).getD [] = [] →
    (smGet 0 (s.wick (chAct (chId h n))).open_ frame).testBit (chSlot (chId h n)) = true →
    ∃ t, exec (.verifyDecodeEnd h n frame rx iters none) s = .next t ∧
      (t.rch (chId h n)).seq = (s.rch (chId h n)).seq + 1 ∧
      (t.word (chB (chId h n) + 0x3000 + 16 * ((s.rch (chId h n)).seq % 16))).toNat % 16 = 0xF ∧
      t.get (fmtB (chAct (chId h n))) F.FMT_EVENTS_VERIFY_FAIL = 1) ∧
  (∀ (s : State) (h : Half) (n : Nat), n < 32 →
    ∃ t, exec (.channelOff h n) s = .next t ∧ t.get (chB (chId h n)) F.RCH_CTL_EN = 0 ∧ t.chState (chId h n) = 0) ∧
  (∀ (s : State) (h : Half) (n readers : Nat), n < 32 → readers < 4 →
    ∃ t, exec (.channelCfg h n readers) s = .next t ∧ t.get (chB (chId h n)) F.RCH_CTL_READERS = readers) ∧
  (∀ (s : State) (h : Half) (n : Nat) (on : Bool), n < 32 → s.chBusy (chId h n) = false →
    ∃ t, exec (.freeze h n on) s = .next t ∧ t.bit (chB (chId h n)) F.RCH_SMCTL_FREEZE = on ∧
      t.bit (chB (chId h n)) F.RCH_STAT_FROZEN = on) ∧
  (∀ (s : State) (h : Half) (n : Nat), n < 32 → s.bit (chB (chId h n)) F.RCH_SMCTL_FREEZE = true →
    (s.wick (chAct (chId h n))).desc = none → s.chBusy (chId h n) = false →
    ∃ t, exec (.frozen h n) s = .next t ∧ t.bit (chB (chId h n)) F.RCH_STAT_FROZEN = true)

/-- Control of a formatter (R134, R143, R145, R146, R160, R161). -/
def Obligations.FormatterControl : Prop :=
  (∀ (s : State) (h : Half) (u : Nat), u < 8 → ∀ d, (s.wick (actId h u)).desc = some d → d.kind < 6 →
    (s.srv (actId h u)).alarm = true → (s.fmt (actId h u)).op.isSome = true →
    (s.wick (actId h u)).abort = none → (s.wick (actId h u)).aborting = false →
    (s.fmt (actId h u)).splitting = false →
    ∃ t, exec (.bandSplit h u) s = .next t ∧ (t.wick (actId h u)).abort = some 1 ∧
      (if s.bit (fmtB (actId h u)) F.FMT_CTL_AUTO_SPLIT = true then (t.fmt (actId h u)).splitting = true
      else (t.wick (actId h u)).abortStatus = .bandReach)) ∧
  (∀ (s : State) (h : Half) (u : Nat), u < 8 →
    exec (.grownListWrite h u) s = .next (s.setFmt (actId h u) { s.fmt (actId h u) with grownDue := false })) ∧
  (∀ (s : State) (h : Half) (u : Nat), u < 8 → s.bit (spnB (actHda (actId h u))) F.SPN_CTL_EMBER = true →
    s.gateHigh (actId h u) = false → (s.port (actHda (actId h u))).supply = true →
    s.get (spnB (actHda (actId h u))) F.SPN_SPEED_RPM / 64 ≥ (s.fmt (actId h u)).heaterRpm + 100 →
    ∃ t, exec (.heaterFrameUpdate h u) s = .next t ∧
      (t.fmt (actId h u)).heaterRpm = s.get (spnB (actHda (actId h u))) F.SPN_SPEED_RPM / 64) ∧
  (∀ (s : State) (h : Half) (u : Nat), u < 8 →
    ∃ t, exec (.formatOff h u) s = .next t ∧ t.get (fmtB (actId h u)) F.FMT_CTL_EN = 0 ∧
      (s.bit (fmtB (actId h u)) F.FMT_STAT_BUSY = true → t.get (fmtB (actId h u)) F.FMT_EVENTS_CFG_CHANGED = 1)) ∧
  (∀ (s : State) (h : Half) (u addr : Nat), u < 8 → addr < 2 ^ 42 →
    ∃ t, exec (.formatTables h u true addr) s = .next t ∧
      t.get (fmtB (actId h u)) F.FMT_DEFBASE_LO_ADDR = addr % 2 ^ 32 ∧
      t.get (fmtB (actId h u)) F.FMT_DEFBASE_HI_ADDR = addr / 2 ^ 32) ∧
  (∀ (s : State) (h : Half) (u addr : Nat), u < 8 → addr < 2 ^ 42 →
    ∃ t, exec (.formatTables h u false addr) s = .next t ∧
      t.get (fmtB (actId h u)) F.FMT_BATBASE_LO_ADDR = addr % 2 ^ 32 ∧
      t.get (fmtB (actId h u)) F.FMT_BATBASE_HI_ADDR = addr / 2 ^ 32)

/-- Passes (R133, R140, R147, R148, R155 to R157, R171). -/
def Obligations.FormatterPasses : Prop :=
  (∀ (s : State) (h : Half) (u : Nat), u < 8 → ∀ op, (s.fmt (actId h u)).op = some op →
    s.passReady (actId h u) op = true → op.isRead 0 = true →
    ∃ t, exec (.readPass h u) s = .next t ∧
      (t.wick (actId h u)).desc.map (fun d => (d.kind, d.band, d.group, d.mask)) =
        some (0, op.req.band, op.req.group, s.ackMask (actId h u))) ∧
  (∀ (s : State) (h : Half) (u : Nat), u < 8 → ∀ op, (s.fmt (actId h u)).op = some op →
    s.passReady (actId h u) op = true → op.isRead 2 = true →
    ∃ t, exec (.verifyPass h u) s = .next t ∧
      (t.wick (actId h u)).desc.map (fun d => (d.kind, d.band, d.group, d.mask)) =
        some (2, op.req.band, op.req.group, s.ackMask (actId h u))) ∧
  (∀ (s : State) (h : Half) (u : Nat), u < 8 → ∀ op, (s.fmt (actId h u)).op = some op →
    s.passReady (actId h u) op = true → op.isRead 5 = true →
    ∃ t, exec (.systemBandRead h u) s = .next t ∧
      (t.wick (actId h u)).desc.map (fun d => (d.kind, d.band, d.group, d.mask)) =
        some (5, op.req.band, op.req.group, s.ackMask (actId h u))) ∧
  (∀ (s : State) (h : Half) (u : Nat), u < 8 → ∀ op, (s.fmt (actId h u)).op = some op →
    s.passReady (actId h u) op = true → 0 < op.retries →
    ∃ t, exec (.retryRevolution h u) s = .next t ∧
      (t.wick (actId h u)).desc.map (fun d => (d.kind, d.band, d.group, d.mask)) =
        some (4, op.req.band, op.req.group, s.ackMask (actId h u))) ∧
  (∀ (s : State) (h : Half) (u : Nat) (ues : List (Nat × Nat)), u < 8 →
    ∀ op, (s.fmt (actId h u)).op = some op → s.passReady (actId h u) op = true →
    s.writeReady (actId h u) = true → op.entry = none → op.req.kind = 1 →
    ∃ t, exec (.writePass h u ues) s = .next t ∧
      (t.wick (actId h u)).desc.map (fun d => (d.kind, d.band, d.group, d.mask)) =
        some (1, op.req.band, op.req.group, s.ackMask (actId h u))) ∧
  (∀ (s : State) (h : Half) (u : Nat), u < 8 → ∀ op, (s.fmt (actId h u)).op = some op →
    s.passReady (actId h u) op = true → op.entry.isSome = true → op.retries = 0 →
    (s.fmt (actId h u)).snuffedNow = false → s.ownLine (actHda (actId h u)) = true →
    ∃ t, exec (.rewriteEntry h u) s = .next t ∧
      (t.wick (actId h u)).desc.map (fun d => (d.kind, d.band, d.group, d.mask)) =
        some (3, op.req.band, op.req.group, s.ackMask (actId h u))) ∧
  (∀ (s : State) (h : Half) (u band : Nat), u < 8 → s.handReady (actId h u) = true →
    (s.fmt (actId h u)).op = none → s.wckState (actId h u) ≠ 3 →
    bandRetired (s.batRd (actId h u)) (s.defects (actId h u)) band (s.ackGroup (actId h u)) = false →
    ∃ t, exec (.seekOnly h u band) s = .next t ∧
      (t.wick (actId h u)).desc.map (fun d => (d.kind, d.band)) = some (6, band)) ∧
  (∀ (s : State) (h : Half) (u : Nat), u < 8 → s.handReady (actId h u) = true →
    (s.fmt (actId h u)).op = none → s.wckState (actId h u) ≠ 3 →
    bandRetired (s.batRd (actId h u)) (s.defects (actId h u)) 0 (s.ackGroup (actId h u)) = false →
    ∃ t, exec (.park h u) s = .next t ∧ (t.wick (actId h u)).desc.map (·.kind) = some 7)

/-- Words of control (R165 to R168, R170). -/
def Obligations.WickControlWords : Prop :=
  (∀ (s : State) (h : Half) (u cond : Nat), u < 8 → s.executes (actId h u) cond .nop = true →
    s.fetchOk (actId h u) (s.wckPc (actId h u) + 1) = true →
    ∃ t, exec (.nop h u cond) s = .next t ∧ t.wckPc (actId h u) = s.lands (actId h u) (s.wckPc (actId h u) + 1) ∧
      t.wick (actId h u) = s.wickHere (actId h u)) ∧
  (∀ (s : State) (h : Half) (u cond target : Nat), u < 8 → s.executes (actId h u) cond (.jmp target) = true →
    s.fetchOk (actId h u) target = true →
    ∃ t, exec (.jmp h u cond target) s = .next t ∧ t.wckPc (actId h u) = s.lands (actId h u) target ∧
      t.wick (actId h u) = s.wickHere (actId h u)) ∧
  (∀ (s : State) (h : Half) (u cond target : Nat), u < 8 → s.executes (actId h u) cond (.call target) = true →
    s.fetchOk (actId h u) target = true → (s.wick (actId h u)).stack.length < 8 →
    ∃ t, exec (.call h u cond target) s = .next t ∧ t.wckPc (actId h u) = s.lands (actId h u) target ∧
      t.wick (actId h u) = { s.wickHere (actId h u) with
        stack := (s.wckPc (actId h u) + 1) % 0x8000 :: (s.wick (actId h u)).stack }) ∧
  (∀ (s : State) (h : Half) (u cond : Nat), u < 8 → s.executes (actId h u) cond .ret = true →
    (s.wick (actId h u)).stack ≠ [] → s.fetchOk (actId h u) ((s.wick (actId h u)).stack.headD 0) = true →
    ∃ t, exec (.ret h u cond) s = .next t ∧
      t.wckPc (actId h u) = s.lands (actId h u) ((s.wick (actId h u)).stack.headD 0) ∧
      t.wick (actId h u) = { s.wickHere (actId h u) with stack := (s.wick (actId h u)).stack.tail }) ∧
  (∀ (s : State) (h : Half) (u cond xd target : Nat), u < 8 → s.executes (actId h u) cond (.loop xd target) = true →
    s.fetchOk (actId h u) (if s.loopLeft (actId h u) xd = 0 then s.wckPc (actId h u) + 1 else target) = true →
    ∃ t, exec (.loop h u cond xd target) s = .next t ∧
      t.wckPc (actId h u) = s.lands (actId h u) (if s.loopLeft (actId h u) xd = 0 then s.wckPc (actId h u) + 1 else target) ∧
      (t.wick (actId h u)).reg xd = s.loopLeft (actId h u) xd ∧ (t.wick (actId h u)).z = (s.loopLeft (actId h u) xd == 0)) ∧
  (∀ (s : State) (h : Half) (u cond target : Nat), u < 8 → s.fetched (actId h u) cond (.jmp target) = true →
    s.wickCond (actId h u) cond = false → s.fetchOk (actId h u) (s.wckPc (actId h u) + 1) = true →
    ∃ t, exec (.jmp h u cond target) s = .next t ∧
      t.wckPc (actId h u) = s.lands (actId h u) (s.wckPc (actId h u) + 1) ∧
      t.wick (actId h u) = s.wickHere (actId h u))

/-- Words of arithmetic (R129, R165, R168, R171). -/
def Obligations.WickArithmeticWords : Prop :=
  (∀ (s : State) (h : Half) (u cond xd imm : Nat), u < 8 → s.executes (actId h u) cond (.ldi xd imm) = true →
    s.fetchOk (actId h u) (s.wckPc (actId h u) + 1) = true →
    ∃ t, exec (.ldi h u cond xd imm) s = .next t ∧ t.wick (actId h u) = (s.wickHere (actId h u)).setRegZ xd imm ∧
      t.wckPc (actId h u) = s.lands (actId h u) (s.wckPc (actId h u) + 1)) ∧
  (∀ (s : State) (h : Half) (u cond xd imm : Nat), u < 8 → imm < 2 ^ 21 →
    s.executes (actId h u) cond (.addi xd imm) = true → s.fetchOk (actId h u) (s.wckPc (actId h u) + 1) = true →
    ∃ t, exec (.addi h u cond xd imm) s = .next t ∧
      (t.wick (actId h u)).reg xd =
        ((s.wick (actId h u)).reg xd + (if imm < 2 ^ 20 then imm else imm + 2 ^ 24 - 2 ^ 21)) % 2 ^ 24 ∧
      (t.wick (actId h u)).z = ((t.wick (actId h u)).reg xd == 0) ∧
      (∀ i, i ≠ xd → (t.wick (actId h u)).reg i = (s.wick (actId h u)).reg i) ∧
      t.wckPc (actId h u) = s.lands (actId h u) (s.wckPc (actId h u) + 1)) ∧
  (∀ (s : State) (h : Half) (u cond xd xs fn : Nat), u < 8 → s.executes (actId h u) cond (.alu xd xs fn) = true →
    s.fetchOk (actId h u) (s.wckPc (actId h u) + 1) = true →
    ∃ t, exec (.alu h u cond xd xs fn) s = .next t ∧
      t.wick (actId h u) = (s.wickHere (actId h u)).setRegZ xd
        (aluFn fn ((s.wick (actId h u)).reg xd) ((s.wick (actId h u)).reg xs)) ∧
      t.wckPc (actId h u) = s.lands (actId h u) (s.wckPc (actId h u) + 1)) ∧
  (∀ (s : State) (h : Half) (u cond xd fld : Nat), u < 8 →
    ∀ d, (s.wick (actId h u)).desc = some d → s.executes (actId h u) cond (.ldop xd fld) = true →
    s.fetchOk (actId h u) (s.wckPc (actId h u) + 1) = true →
    ∃ t, exec (.ldop h u cond xd fld) s = .next t ∧
      t.wick (actId h u) = (s.wickHere (actId h u)).setRegZ xd (descField d fld) ∧
      t.wckPc (actId h u) = s.lands (actId h u) (s.wckPc (actId h u) + 1)) ∧
  (∀ (s : State) (h : Half) (u cond xs : Nat), u < 8 →
    ∀ d, (s.wick (actId h u)).desc = some d → s.executes (actId h u) cond (.loc xs) = true →
    (s.wick (actId h u)).reg xs < zS d.zone → s.fetchOk (actId h u) (s.wckPc (actId h u) + 1) = true →
    ∃ t, exec (.loc h u cond xs) s = .next t ∧
      (t.wick (actId h u)).reg 5 = ((framePos d.zone ((s.wick (actId h u)).reg xs)).wedge +
        d.band * batSkew (s.batRd (actId h u))) % 512 ∧
      (t.wick (actId h u)).reg 6 = (framePos d.zone ((s.wick (actId h u)).reg xs)).start % 2 ^ 24 ∧
      (t.wick (actId h u)).reg 4 = (framePos d.zone ((s.wick (actId h u)).reg xs)).split % 2 ^ 24 ∧
      (t.wick (actId h u)).spl = ((framePos d.zone ((s.wick (actId h u)).reg xs)).split != 0))

/-- Words of rotation (R168, R172). -/
def Obligations.WickRotationWords : Prop :=
  (∀ (s : State) (h : Half) (u cond xs : Nat), u < 8 → s.executes (actId h u) cond (.wwed xs) = true →
    ∃ t, exec (.wwed h u cond xs) s = .next t ∧ t.wckState (actId h u) = 2 ∧
      (t.wick (actId h u)).stall = .wwed ((s.wick (actId h u)).reg xs % 512)) ∧
  (∀ (s : State) (h : Half) (u cond pos : Nat) (base : Bool) (p : Place), u < 8 →
    s.executes (actId h u) cond (.wsym base pos) = true →
    s.fetchOk (actId h u) (s.wckPc (actId h u) + 1) = true →
    ∃ t, exec (.wsym h u cond base pos p) s = .next t ∧
      (p.sym < pos + (if base then (s.wick (actId h u)).reg 6 else 0) → t.wckState (actId h u) = 2 ∧
        (t.wick (actId h u)).stall = .wsym (pos + (if base then (s.wick (actId h u)).reg 6 else 0))) ∧
      (pos + (if base then (s.wick (actId h u)).reg 6 else 0) ≤ p.sym →
        t.wckPc (actId h u) = s.lands (actId h u) (s.wckPc (actId h u) + 1))) ∧
  (∀ (s : State) (h : Half) (u cond pos rg : Nat) (base wg : Bool) (p : Place), u < 8 →
    ∀ d, (s.wick (actId h u)).desc = some d → s.executes (actId h u) cond (.edge base wg rg pos) = true →
    s.fetchOk (actId h u) (s.wckPc (actId h u) + 1) = true → (s.wick (actId h u)).edges.length < 4 →
    ∃ t, exec (.edge h u cond base wg rg pos p) s = .next t ∧
      t.wckPc (actId h u) = s.lands (actId h u) (s.wckPc (actId h u) + 1) ∧
      (if edgeLate (pos + (if base then (s.wick (actId h u)).reg 6 else 0)) p.sym d.nw (s.wedgeNs (actId h u)) = true then
        (t.wick (actId h u)).wg = wg ∧ (t.wick (actId h u)).rg = rg ∧
          t.get (wckB (actId h u)) F.WCK_EVENTS_LATE_EDGE = 1
      else (t.wick (actId h u)).edges = (s.wick (actId h u)).edges ++
        [⟨wg, rg, pos + (if base then (s.wick (actId h u)).reg 6 else 0)⟩])) ∧
  (∀ (s : State) (h : Half) (u cond pos rg : Nat) (base wg : Bool) (p : Place), u < 8 →
    s.executes (actId h u) cond (.edge base wg rg pos) = true → 4 ≤ (s.wick (actId h u)).edges.length →
    ∃ t, exec (.edge h u cond base wg rg pos p) s = .next t ∧ t.wckState (actId h u) = 2) ∧
  (∀ (s : State) (h : Half) (u cond xs : Nat) (last write : Bool) (p : Place), u < 8 →
    (s.wick (actId h u)).desc.isSome = true → s.executes (actId h u) cond (.sect last write xs) = true →
    s.fetchOk (actId h u) (s.wckPc (actId h u) + 1) = true → ((s.atPlace (actId h u) p).wick (actId h u)).tags.length < 4 →
    ∃ t, exec (.sect h u cond last write xs p) s = .next t ∧
      t.wckPc (actId h u) = s.lands (actId h u) (s.wckPc (actId h u) + 1) ∧
      (t.wick (actId h u)).tags.length = ((s.atPlace (actId h u) p).wick (actId h u)).tags.length +
        (if write && (s.fmt (actId h u)).cutting then 0 else 1)) ∧
  (∀ (s : State) (h : Half) (u cond xs : Nat) (last write : Bool) (p : Place), u < 8 →
    s.executes (actId h u) cond (.sect last write xs) = true → 4 ≤ ((s.atPlace (actId h u) p).wick (actId h u)).tags.length →
    ∃ t, exec (.sect h u cond last write xs p) s = .next t ∧ t.wckState (actId h u) = 2)

/-- Words that wait (R110, R168, R169, R175). -/
def Obligations.WickWaitingWords : Prop :=
  (∀ (s : State) (h : Half) (u cond : Nat), u < 8 → s.executes (actId h u) cond .wch = true →
    s.fetchOk (actId h u) (s.wckPc (actId h u) + 1) = true →
    ∃ t, exec (.wch h u cond) s = .next t ∧
      (if (s.settledHere (actId h u)).allSettled (actId h u) = true then
        (t.wick (actId h u)).ers = !((s.settledHere (actId h u)).wick (actId h u)).bad.isEmpty ∧
        t.wckPc (actId h u) = s.lands (actId h u) (s.wckPc (actId h u) + 1)
      else t.wckState (actId h u) = 2 ∧ (t.wick (actId h u)).stall = .wch)) ∧
  (∀ (s : State) (h : Half) (u cond xs : Nat), u < 8 → s.executes (actId h u) cond (.recov xs) = true →
    s.fetchOk (actId h u) (s.wckPc (actId h u) + 1) = true →
    ∃ t, exec (.recov h u cond xs) s = .next t ∧
      (if (s.askRecovery (actId h u) ((s.wick (actId h u)).reg xs)).recovering (actId h u)
          ((s.wick (actId h u)).reg xs) = true then
        t.wckState (actId h u) = 2 ∧ (t.wick (actId h u)).stall = .recov ((s.wick (actId h u)).reg xs)
      else t.wckPc (actId h u) = s.lands (actId h u) (s.wckPc (actId h u) + 1))) ∧
  (∀ (s : State) (h : Half) (u cond f : Nat), u < 8 → s.executes (actId h u) cond (.frm f) = true →
    ∃ t, exec (.frm h u cond f) s = .next t ∧ t.wckState (actId h u) = 2 ∧ (t.wick (actId h u)).stall = .frame) ∧
  (∀ (s : State) (h : Half) (u cond addr xs : Nat) (rw : Bool), u < 8 →
    s.executes (actId h u) cond (.frmx rw addr xs) = true →
    ∃ t, exec (.frmx h u cond rw addr xs) s = .next t ∧ t.wckState (actId h u) = 2 ∧
      (t.wick (actId h u)).stall = (if rw then .frameRead xs else .frame)) ∧
  (∀ (s : State) (h : Half) (u cond xs kind : Nat), u < 8 → s.executes (actId h u) cond (.seek xs kind) = true →
    ∃ t, exec (.seek h u cond xs kind) s = .next t ∧ t.wckState (actId h u) = 2 ∧
      (t.wick (actId h u)).stall = .seek) ∧
  (∀ (s : State) (h : Half) (u cond timeout : Nat), u < 8 → s.fetched (actId h u) cond (.wcond timeout) = true →
    s.fetchOk (actId h u) (s.wckPc (actId h u) + 1) = true →
    ∃ t, exec (.wcond h u cond timeout) s = .next t ∧
      (if s.wickCond (actId h u) cond = true then (t.wick (actId h u)).z = false ∧
        t.wckPc (actId h u) = s.lands (actId h u) (s.wckPc (actId h u) + 1)
      else t.wckState (actId h u) = 2 ∧ (t.wick (actId h u)).stall = .wcond cond ∧
        (t.wick (actId h u)).stallCycles = max timeout 1)) ∧
  (∀ (s : State) (h : Half) (u cond status : Nat), u < 8 → (s.wick (actId h u)).desc.isSome = true →
    s.executes (actId h u) cond (.post status) = true →
    ∃ t, exec (.post h u cond status) s = .next t ∧
      (if (s.settledHere (actId h u)).allSettled (actId h u) = true then
        (t.wick (actId h u)).desc = none ∧ t.wckPc (actId h u) = s.lands (actId h u) 0
      else t.wckState (actId h u) = 2 ∧ (t.wick (actId h u)).stall = .post status))

/-- Faults, and ends of stalls (R168, R169, R173). -/
def Obligations.WickFaultsAndStallEnds : Prop :=
  (∀ (s : State) (h : Half) (u cond code : Nat), u < 8 → s.executes (actId h u) cond (.evt code) = true →
    s.fetchOk (actId h u) (s.wckPc (actId h u) + 1) = true →
    ∃ t, exec (.evt h u cond code) s = .next t ∧
      t.coreriEvents = s.coreriEvents ++ [(actId h u, code % 0x10000)] ∧
      t.wckPc (actId h u) = s.lands (actId h u) (s.wckPc (actId h u) + 1)) ∧
  (∀ (s : State) (h : Half) (u cond : Nat), u < 8 → s.executes (actId h u) cond .halt = true →
    ∃ t, exec (.halt h u cond) s = .next t ∧ t.wckState (actId h u) = 3 ∧
      t.get (wckB (actId h u)) F.WCK_FAULT_CAUSE = 5 ∧ t.get (wckB (actId h u)) F.WCK_FAULT_PC = s.wckPc (actId h u) ∧
      (t.wick (actId h u)).wg = false ∧ (t.wick (actId h u)).rg = 0) ∧
  (∀ (s : State) (h : Half) (u cond op v : Nat), u < 8 → 0x16 ≤ op → op ≤ 0x1E →
    s.executes (actId h u) cond (.illegal op v) = true →
    ∃ t, exec (.illegal h u cond op v) s = .next t ∧ t.wckState (actId h u) = 3 ∧
      t.get (wckB (actId h u)) F.WCK_FAULT_CAUSE = 1 ∧ t.get (wckB (actId h u)) F.WCK_FAULT_PC = s.wckPc (actId h u) ∧
      (t.wick (actId h u)).wg = false ∧ (t.wick (actId h u)).rg = 0) ∧
  (∀ (s : State) (h : Half) (u cycles n : Nat), u < 8 → s.wckState (actId h u) = 2 → s.wckUp (actId h u) = true →
    (s.wick (actId h u)).stall = .wwed n → s.fetchOk (actId h u) (s.wckPc (actId h u) + 1) = true →
    ∃ t, exec (.stallRelease h u cycles ⟨n, 0⟩) s = .next t ∧
      t.wckState (actId h u) = (if (s.wick (actId h u)).desc.isSome then 1 else 0) ∧
      (t.wick (actId h u)).stall = .none ∧
      t.wckPc (actId h u) = s.lands (actId h u) (s.wckPc (actId h u) + 1)) ∧
  (∀ (s : State) (h : Half) (u cycles xs : Nat) (p : Place), u < 8 → s.wckState (actId h u) = 2 →
    s.wckUp (actId h u) = true → (s.wick (actId h u)).stall = .frameRead xs →
    ∀ v, (s.wick (actId h u)).frameAns = some v → s.fetchOk (actId h u) (s.wckPc (actId h u) + 1) = true →
    ∃ t, exec (.stallRelease h u cycles p) s = .next t ∧
      t.wckState (actId h u) = (if (s.wick (actId h u)).desc.isSome then 1 else 0) ∧
      (t.wick (actId h u)).reg xs = v % 0x10000) ∧
  (∀ (s : State) (h : Half) (u c : Nat), u < 8 → s.wckState (actId h u) = 2 →
    (s.wick (actId h u)).stall = .wcond c → s.wickCond (actId h u) c = false →
    s.fetchOk (actId h u) (s.wckPc (actId h u) + 1) = true →
    ∃ t, exec (.wcondTimeout h u) s = .next t ∧
      t.wckState (actId h u) = (if (s.wick (actId h u)).desc.isSome then 1 else 0) ∧ (t.wick (actId h u)).z = true ∧
      (t.wick (actId h u)).stall = .none)

/-- Gates, aborts, RESTART, EN and patches (R172 to R174, R178, R180). -/
def Obligations.WickControlCommands : Prop :=
  (∀ (s : State) (h : Half) (u : Nat), u < 8 → ∀ e, (s.wick (actId h u)).edges.head? = some e →
    (∀ x ∈ (s.wick (actId h u)).edges.tail, e.pos < x.pos) →
    ∃ t, exec (.edgeApply h u .edge) s = .next t ∧ (t.wick (actId h u)).wg = e.wg ∧
      (t.wick (actId h u)).rg = e.rg ∧ (t.wick (actId h u)).edges = (s.wick (actId h u)).edges.tail) ∧
  (∀ (s : State) (h : Half) (u : Nat), u < 8 → ∀ f, (s.wick (actId h u)).lastFrame = some f →
    ∃ t, exec (.edgeApply h u .last) s = .next t ∧ (t.wick (actId h u)).lastFrame = none ∧
      (if f.write then (t.wick (actId h u)).wg = false else (t.wick (actId h u)).rg = 0)) ∧
  (∀ (s : State) (h : Half) (u wedge : Nat), u < 8 →
    ∃ t, exec (.edgeApply h u (.keepOut wedge)) s = .next t ∧ (t.wick (actId h u)).blank = true ∧
      ((s.wick (actId h u)).blank = false → (t.fmt (actId h u)).passed = false) ∧
      (t.wick (actId h u)).wg = (s.wick (actId h u)).wg ∧ (t.wick (actId h u)).rg = (s.wick (actId h u)).rg) ∧
  (∀ (s : State) (h : Half) (u : Nat), u < 8 → (s.pa (actId h u)).sg = false →
    ∃ t, exec (.edgeApply h u .keepIn) s = .next t ∧ (t.wick (actId h u)).blank = false ∧
      (t.wick (actId h u)).wg = (s.wick (actId h u)).wg ∧ (t.wick (actId h u)).rg = (s.wick (actId h u)).rg) ∧
  (∀ (s : State) (h : Half) (u : Nat) (p : Place), u < 8 → ∀ r, (s.wick (actId h u)).abort = some r →
    (s.wick (actId h u)).desc.isSome = true → s.wckState (actId h u) ≠ 3 →
    ∃ t, exec (.abortVector h u p) s = .next t ∧ (t.wick (actId h u)).aborting = true ∧
      (t.wick (actId h u)).abort = none ∧ t.wckPc (actId h u) = s.lands (actId h u) 1 ∧
      t.get (wckB (actId h u)) F.WCK_STAT_LAST_ABORT = abortRow r) ∧
  (∀ (s : State) (h : Half) (u : Nat), u < 8 → s.wckState (actId h u) = 3 →
    ∃ t, exec (.restart h u) s = .next t ∧ t.wckState (actId h u) = 0 ∧ t.wckPc (actId h u) = s.lands (actId h u) 0 ∧
      t.wick (actId h u) = s.wick (actId h u)) ∧
  (∀ (s : State) (h : Half) (u : Nat), u < 8 →
    ∃ t, exec (.wickOff h u) s = .next t ∧ t.get (wckB (actId h u)) F.WCK_CTL_EN = 0 ∧
      (s.bit (wckB (actId h u)) F.WCK_STAT_BUSY = true → t.get (wckB (actId h u)) F.WCK_EVENTS_CFG_CHANGED = 1)) ∧
  (∀ (s : State) (h : Half) (u : Nat), u < 8 → ∀ img, s.mcore.wickPatch = some img → s.patchable (actId h u) = true →
    s.patchTurn (actId h u) (patchLevel img.bytes) = true → s.bit (wckB (actId h u)) F.WCK_STAT_BUSY = false →
    ∃ t, exec (.patchApply h u) s = .next t ∧
      t.get (wckB (actId h u)) F.WCK_ID_PATCH_LEVEL = patchLevel img.bytes % 0x10000 ∧
      t.get (wckB (actId h u)) F.WCK_EVENTS_PATCHED = 1 ∧ (t.wick (actId h u)).held = false) ∧
  (∀ (s : State) (h : Half) (u : Nat), u < 8 → ∀ img, s.mcore.wickPatch = some img → s.patchable (actId h u) = true →
    (s.wick (actId h u)).patchDue = true →
    ∃ t, exec (.patchRewrite h u) s = .next t ∧
      t.get (wckB (actId h u)) F.WCK_ID_PATCH_LEVEL = patchLevel img.bytes % 0x10000 ∧
      (t.wick (actId h u)).patchDue = false)

/-- A wedge (R187, R188, R191 to R194, R214). -/
def Obligations.ServoWedge : Prop :=
  (∀ (s : State) (h : Half) (u : Nat) (samples : List DemodSample) (interval : Nat), u < 8 →
    (s.srv (actId h u)).ownLost = false →
    ∃ t, exec (.servoDemodEnd h u samples interval) s = .next t ∧ (t.srv (actId h u)).computing = true) ∧
  (∀ (s : State) (h : Half) (u : Nat) (samples : List DemodSample) (interval : Nat), u < 8 →
    (s.srv (actId h u)).ownLost = true → s.ownLine (actHda (actId h u)) = false →
    ∃ t, exec (.servoDemodEnd h u samples interval) s = .next t ∧ t.srvState (actId h u) = 0 ∧
      t.get (srvB (actId h u)) F.SRV_VCMOUT_I_CMD = 0 ∧ (t.srv (actId h u)).ownLost = false) ∧
  (∀ (s : State) (h : Half) (u : Nat) (samples : List DemodSample) (interval : Nat), u < 8 →
    (s.srv (actId h u)).ownLost = false → (s.srvState (actId h u) = 3 ∨ s.srvState (actId h u) = 4 ∨ s.srvState (actId h u) = 5) →
    ∃ t, exec (.servoDemodEnd h u samples interval) s = .next t ∧
      t.get (srvB (actId h u)) F.SRV_WEDGE_INDEX = (s.get (srvB (actId h u)) F.SRV_WEDGE_INDEX + 1) % 512) ∧
  (∀ (s : State) (h : Half) (u ns : Nat), u < 8 → (s.srv (actId h u)).computing = true →
    ∃ t, exec (.servoComputationEnd h u ns) s = .next t ∧
      (t.srv (actId h u)).due = true ∧ (t.srv (actId h u)).computing = false ∧
      ((s.srvState (actId h u) = 0 ∨ s.srvState (actId h u) = 1) → (t.srv (actId h u)).outCur = 0) ∧
      ((t.srv (actId h u)).outCur.natAbs ≤
        max 2000 (min (s.par (actId h u) F.SRV_IMAX_I_MAX) 0x7530))) ∧
  (∀ (s : State) (h : Half) (u : Nat), u < 8 → (s.srv (actId h u)).due = true →
    ∃ t, exec (.servoOutputApply h u) s = .next t ∧ (t.srv (actId h u)).due = false ∧
      t.get (srvB (actId h u)) F.SRV_VCMOUT_I_CMD = unsigned 16 (s.srv (actId h u)).outCur ∧
      (t.pa (actId h u)).maZero = (s.srv (actId h u)).outMa.isEmpty) ∧
  (∀ (s : State) (h : Half) (u : Nat), u < 8 → s.get (srvB (actId h u)) F.SRV_STAT_IMPL_RUN = 4 →
    loadedState (s.srvState (actId h u)) = true →
    ∃ t, exec (.implausRetract h u) s = .next t ∧ t.srvState (actId h u) = 7 ∧
      t.get (srvB (actId h u)) F.SRV_RETCAUSE_CAUSE = 1 ∧ (t.srv (actId h u)).ramp = true) ∧
  (∀ (s : State) (h : Half) (u k : Nat), u < 8 → k ∈ s.srvSlots (actId h u) →
    min1 (s.par (actId h u) F.SRV_FOLCFG_REACH_CNT) ≤
      s.get (headB (actId h u) (4 * s.srvGroup (actId h u) + k)) F.HEAD_REACH_RUN →
    (s.srv (actId h u)).alarm = false → (s.srv (actId h u)).cal = none → s.srvState (actId h u) = 3 →
    ∃ t, exec (.reachAlarm h u) s = .next t ∧ (t.srv (actId h u)).alarm = true ∧
      t.get (srvB (actId h u)) F.SRV_EVENTS_REACH_ALARM = 1 ∧
      (2 ^ s.srvGroup (actId h u) &&& s.calGroups (actId h u) (s.srvBand (actId h u) / 256) ≠ 0 →
        (t.srv (actId h u)).cal.map (fun r => (r.seg, r.groups, r.why)) =
          some (s.srvBand (actId h u) / 256, 2 ^ s.srvGroup (actId h u), 0))) ∧
  (∀ (s : State) (h : Half) (u k : Nat), u < 8 → k ∈ s.srvSlots (actId h u) →
    min1 (s.par (actId h u) F.SRV_FOLCFG_REACH_CNT) ≤
      s.get (headB (actId h u) (4 * s.srvGroup (actId h u) + k)) F.HEAD_REACH_RUN →
    (s.srv (actId h u)).alarm = false → (s.srv (actId h u)).cal = none → s.srvState (actId h u) = 5 →
    exec (.reachAlarm h u) s = .next (s.setSrv (actId h u) { s.srv (actId h u) with alarmHeld := true }))

/-- Ends of profiles and seeks (R195 to R198, R206). -/
def Obligations.ServoSeeks : Prop :=
  (∀ (s : State) (h : Half) (u : Nat), u < 8 → ∀ p, (s.srv (actId h u)).profile = some p →
    p.acc + p.coast + p.dec ≤ p.run → (s.srv (actId h u)).allReplaced = false → s.srvState (actId h u) = 4 →
    ratAbs (s.passTarget (actId h u) - (s.srv (actId h u)).comb) ≤ s.handover (actId h u) →
    ∃ t, exec (.profileEnd h u) s = .next t ∧ t.srvState (actId h u) = 5 ∧ (t.srv (actId h u)).profile = none ∧
      (t.srv (actId h u)).seek = (s.srv (actId h u)).seek) ∧
  (∀ (s : State) (h : Half) (u : Nat), u < 8 → ∀ p, (s.srv (actId h u)).profile = some p →
    p.acc + p.coast + p.dec ≤ p.run → (s.srv (actId h u)).allReplaced = false → s.srvState (actId h u) = 4 →
    s.handover (actId h u) < ratAbs (s.passTarget (actId h u) - (s.srv (actId h u)).comb) → p.correction = false →
    ∃ t, exec (.profileEnd h u) s = .next t ∧ t.srvState (actId h u) = 4 ∧
      (t.srv (actId h u)).profile.map (fun q => (q.correction, q.run)) = some (true, 0)) ∧
  (∀ (s : State) (h : Half) (u : Nat), u < 8 → ∀ p, (s.srv (actId h u)).profile = some p →
    p.acc + p.coast + p.dec ≤ p.run → (s.srv (actId h u)).allReplaced = false → s.srvState (actId h u) = 4 →
    s.handover (actId h u) < ratAbs (s.passTarget (actId h u) - (s.srv (actId h u)).comb) → p.correction = true →
    ∃ t, exec (.profileEnd h u) s = .next t ∧ t.srvState (actId h u) = 5 ∧ (t.srv (actId h u)).profile = none ∧
      ((s.srv (actId h u)).seek ≠ some 2 → (t.srv (actId h u)).seek = none) ∧
      t.get (srvB (actId h u)) F.SRV_EVENTS_SEEK_FAIL = 1) ∧
  (∀ (s : State) (h : Half) (u : Nat), u < 8 →
    min1 (s.par (actId h u) F.SRV_FOLCFG_SETTLE_CNT) ≤ (s.srv (actId h u)).settleRun →
    (s.srv (actId h u)).profile = none → (s.srv (actId h u)).ramp = false → s.srvState (actId h u) = 5 →
    ∃ t, exec (.seekSettled h u) s = .next t ∧
      ((s.srv (actId h u)).alarmHeld = false →
        t.srvState (actId h u) = 3 ∧ t.get (srvB (actId h u)) F.SRV_STAT_ON_TRACK = 1) ∧
      ((s.srv (actId h u)).seek = some 0 →
        (t.srv (actId h u)).seek = none ∧ (t.wick (actId h u)).seekAns = some false) ∧
      ((s.srv (actId h u)).alarmHeld = true → (t.srv (actId h u)).alarm = true)) ∧
  (∀ (s : State) (h : Half) (u : Nat), u < 8 →
    min1 (s.par (actId h u) F.SRV_FOLCFG_SETTLE_CNT) ≤ (s.srv (actId h u)).settleRun →
    (s.srv (actId h u)).profile = none → (s.srv (actId h u)).ramp = false → s.srvState (actId h u) = 6 →
    s.srvBand (actId h u) = 0 →
    ∃ t, exec (.seekSettled h u) s = .next t ∧ t.srvState (actId h u) = 6 ∧ (t.srv (actId h u)).ramp = true ∧
      (t.pa (actId h u)).maZero = true) ∧
  (∀ (s : State) (h : Half) (u : Nat), u < 8 → (s.srv (actId h u)).seekRun = true →
    min1 (s.par (actId h u) F.SRV_SEEKCFG_SEEK_TMO) ≤ (s.srv (actId h u)).seekWedges →
    ∃ t, exec (.seekTimeout h u) s = .next t ∧ (t.srv (actId h u)).seekRun = false ∧
      t.get (srvB (actId h u)) F.SRV_EVENTS_SEEK_FAIL = 1 ∧ t.srvState (actId h u) = s.srvState (actId h u) ∧
      (∀ k, (s.srv (actId h u)).seek = some k →
        if k = 2 then (t.srv (actId h u)).seek = some 2
        else (t.srv (actId h u)).seek = none ∧ (t.wick (actId h u)).seekAns = some true))

/-- Load, park, retract, EN (R205 to R207, R209, R211, R406). -/
def Obligations.ServoLoadAndPark : Prop :=
  (∀ (s : State) (h : Half) (u : Nat), u < 8 → s.loadOk (actId h u) = true →
    ∃ t, exec (.cmdLoad h u) s = .next t ∧ t.srvState (actId h u) = 2 ∧ t.loaded (actId h u) = true ∧
      (t.srv (actId h u)).locked = false ∧ (t.pa (actId h u)).maZero = true) ∧
  (∀ (s : State) (h : Half) (u k : Nat), u < 8 → s.srvState (actId h u) = 2 → (s.srv (actId h u)).locked = false →
    (k, 16) ∈ (s.srv (actId h u)).lockRun →
    ∃ t, exec (.loadLock h u) s = .next t ∧ (t.srv (actId h u)).locked = true ∧ t.srvState (actId h u) = 2 ∧
      (t.srv (actId h u)).coefPeriod = coefLimit (s.get (srvB (actId h u)) F.SRV_WEDGE_PERIOD)) ∧
  (∀ (s : State) (h : Half) (u : Nat), u < 8 → s.srvState (actId h u) = 2 → (s.srv (actId h u)).locked = false →
    s.msPassed (actId h u) 50 = true →
    ∃ t, exec (.loadFail h u) s = .next t ∧ t.srvState (actId h u) = 7 ∧
      t.get (srvB (actId h u)) F.SRV_RETCAUSE_CAUSE = 5 ∧ t.get (srvB (actId h u)) F.SRV_EVENTS_LOAD_FAIL = 1) ∧
  (∀ (s : State) (h : Half) (u : Nat), u < 8 → s.srvState (actId h u) = 2 →
    ∃ t, exec (.cmdPark h u) s = .next t ∧ t.srvState (actId h u) = 7 ∧
      t.get (srvB (actId h u)) F.SRV_RETCAUSE_CAUSE = 4) ∧
  (∀ (s : State) (h : Half) (u : Nat), u < 8 →
    (s.srvState (actId h u) = 3 ∨ s.srvState (actId h u) = 4 ∨ s.srvState (actId h u) = 5) →
    ∃ t, exec (.cmdPark h u) s = .next t ∧ t.srvState (actId h u) = 6 ∧ t.srvBand (actId h u) = 0) ∧
  (∀ (s : State) (h : Half) (u : Nat), u < 8 → loadedState (s.srvState (actId h u)) = true →
    ∃ t, exec (.cmdRetract h u) s = .next t ∧ t.srvState (actId h u) = 7 ∧
      t.get (srvB (actId h u)) F.SRV_RETCAUSE_CAUSE = 4 ∧ (t.srv (actId h u)).ramp = true) ∧
  (∀ (s : State) (h : Half) (u vel : Nat), u < 8 → s.driving (actId h u) = true → (s.srv (actId h u)).latch = false →
    vel < 5 * min1 (s.get (srvB (actId h u)) F.SRV_RETCFG_RET_VEL) →
    exec (.stopReached h u vel) s =
      .next (s.setSrv (actId h u) { s.srv (actId h u) with latch := true, outCur := -2000 })) ∧
  (∀ (s : State) (h : Half) (u : Nat), u < 8 → s.driving (actId h u) = true → (s.srv (actId h u)).latch = true →
    ∃ t, exec (.latchPushEnd h u) s = .next t ∧ t.loaded (actId h u) = false ∧ (t.srv (actId h u)).outCur = 0 ∧
      t.get (srvB (actId h u)) F.SRV_VCMOUT_I_CMD = 0 ∧ (t.srv (actId h u)).latch = false ∧
      t.srvState (actId h u) = if s.bit (srvB (actId h u)) F.SRV_CTL_EN = true then 1 else 0) ∧
  (∀ (s : State) (h : Half) (u : Nat), u < 8 → (s.srvState (actId h u) = 6 ∨ s.srvState (actId h u) = 7) →
    s.msPassed (actId h u) (min1 (s.get (srvB (actId h u)) F.SRV_RETCFG_RET_TMO)) = true →
    ∃ t, exec (.retractTmo h u) s = .next t ∧ t.srvState (actId h u) = 0 ∧
      t.get (srvB (actId h u)) F.SRV_EVENTS_RETRACT_TMO = 1 ∧ t.get (srvB (actId h u)) F.SRV_VCMOUT_I_CMD = 0 ∧
      (s.loaded (actId h u) = true → t.retracting (actId h u) = true)) ∧
  (∀ (s : State) (h : Half) (u : Nat), u < 8 → s.srvState (actId h u) = 0 → s.ownLine (actHda (actId h u)) = true →
    s.retracting (actId h u) = false → s.loaded (actId h u) = false →
    ∃ t, exec (.servoEnSet h u) s = .next t ∧ t.srvState (actId h u) = 1 ∧
      t.get (srvB (actId h u)) F.SRV_CTL_EN = 1 ∧
      (s.mot.step ≠ 3 → t.get (brgB (actHda (actId h u))) (vcmFld (actId h u)) =
        if s.outEnable h && s.motlink h then 1 else 0)) ∧
  (∀ (s : State) (h : Half) (u : Nat), u < 8 → s.srvState (actId h u) = 0 → s.ownLine (actHda (actId h u)) = true →
    s.retracting (actId h u) = false → s.loaded (actId h u) = true →
    ∃ t, exec (.servoEnSet h u) s = .next t ∧ t.srvState (actId h u) = 7 ∧
      t.get (srvB (actId h u)) F.SRV_RETCAUSE_CAUSE = 6) ∧
  (∀ (s : State) (h : Half) (u : Nat), u < 8 → loadedState (s.srvState (actId h u)) = true →
    ∃ t, exec (.servoOff h u) s = .next t ∧ t.srvState (actId h u) = 7 ∧ t.get (srvB (actId h u)) F.SRV_CTL_EN = 0 ∧
      t.get (srvB (actId h u)) F.SRV_RETCAUSE_CAUSE = 3) ∧
  (∀ (s : State) (h : Half) (u : Nat), u < 8 → s.srvState (actId h u) = 1 →
    ∃ t, exec (.servoOff h u) s = .next t ∧ t.srvState (actId h u) = 0 ∧ t.get (srvB (actId h u)) F.SRV_CTL_EN = 0)

/-- Measurements and feedforward (R199, R202, R203, R213). -/
def Obligations.ServoCalibrationAndFeedforward : Prop :=
  (∀ (s : State) (h : Half) (u seg : Nat), u < 8 → (s.calSegs (actId h u)).contains seg = true →
    s.servoIdle (actId h u) = true → s.srvState (actId h u) = 3 → (s.srv (actId h u)).cal = none →
    ∃ t, exec (.calOne h u seg) s = .next t ∧
      (t.srv (actId h u)).cal.map (fun r => (r.seg, r.groups, r.why)) =
        some (seg, 3 &&& s.calGroups (actId h u) seg, 1) ∧
      t.get (srvB (actId h u)) F.SRV_STAT_CAL_ACTIVE = 1 ∧ t.srvBand (actId h u) = (256 * seg + 128) % 2 ^ 24) ∧
  (∀ (s : State) (h : Half) (u seg : Nat), u < 8 → (s.calSegs (actId h u)).contains seg = true →
    (s.srv (actId h u)).cal.isSome = true →
    exec (.calOne h u seg) s = .next (s.setSrv (actId h u) { s.srv (actId h u) with calOne := some seg })) ∧
  (∀ (s : State) (h : Half) (u seg : Nat), u < 8 → (s.calSegs (actId h u)).contains seg = false →
    exec (.calOne h u seg) s = .next s) ∧
  (∀ (s : State) (h : Half) (u e : Nat), u < 8 → s.bit (srvB (actId h u)) F.SRV_CALSTAT_SWEEP = false →
    s.servoIdle (actId h u) = true → s.srvState (actId h u) = 3 → (s.srv (actId h u)).cal = none →
    (s.srv (actId h u)).calOne = none → (s.calSegs (actId h u)).head? = some e →
    ∃ t, exec (.calSweep h u) s = .next t ∧
      (t.srv (actId h u)).cal.map (fun r => (r.seg, r.groups, r.why)) =
        some (e, 3 &&& s.calGroups (actId h u) e, 2) ∧
      t.get (srvB (actId h u)) F.SRV_CALSTAT_SWEEP = 1) ∧
  (∀ (s : State) (h : Half) (u : Nat), u < 8 → s.bit (srvB (actId h u)) F.SRV_CTL_CAL_EN = true →
    s.servoIdle (actId h u) = true → s.srvState (actId h u) = 3 → (s.srv (actId h u)).cal = none →
    s.calSegs (actId h u) ≠ [] →
    1000 * min1 (s.get (srvB (actId h u)) F.SRV_CALCFG_CAL_INT) / (if (s.srv (actId h u)).fast then 16 else 1) ≤
      (s.usTime + 2 ^ 48 - (s.srv (actId h u)).calAt) % 2 ^ 48 →
    ∃ t, exec (.calBackground h u) s = .next t ∧
      (t.srv (actId h u)).cal.map (fun r => (r.seg, r.why)) =
        some (oldestSegment (s.batRd (actId h u)) (s.calSegs (actId h u)), 3)) ∧
  (∀ (s : State) (h : Half) (u : Nat), u < 8 → ∀ r, (s.srv (actId h u)).cal = some r → r.full = true → r.why = 1 →
    ∃ t, exec (.calMeasureEnd h u) s = .next t ∧ (t.srv (actId h u)).cal = none ∧
      t.get (srvB (actId h u)) F.SRV_STAT_CAL_ACTIVE = 0 ∧
      t.get (srvB (actId h u)) F.SRV_CALSTAT_SEG = r.seg % 2 ^ F.SRV_CALSTAT_SEG.width ∧
      t.dram = (s.bufStore (s.batEntryAddr (actId h u) r.seg)
        (calEntry (s.batRd (actId h u)) r.seg s.seconds r.groups fun head =>
          if r.groups.testBit (head / 4) then
            some (-((smGet 0 r.sums head : Int) : Rat) / (r.span : Rat)).floor
          else none)).dram) ∧
  (∀ (s : State) (h : Half) (u : Nat), u < 8 →
    ∃ t, exec (.feedforwardTimeout h) s = .next t ∧ (t.srv (actId h u)).rvFresh = false) ∧
  (∀ (s : State) (p : ShockSample) (ai : Nat), ai < 16 →
    ∃ t, exec (.shockSample p) s = .next t ∧ (t.srv ai).rvFresh = true ∧ (t.srv ai).alpha1 = alphaOf p ∧
      (t.srv ai).alpha0 = (if (s.srv ai).rvFresh then (s.srv ai).alpha1 else alphaOf p) ∧ t.get (srvB ai) F.SRV_RVGAIN_ALPHA = sat16 (alphaOf p).floor)

/-- Starts and stops of a spindle (R223, R227 to R233, R237, R244). -/
def Obligations.SpindleStarts : Prop :=
  (∀ (s : State) (h : Half) (n : Nat), n < 4 → s.spnState (hdaId h n) = 0 →
    ∃ t, exec (.spindleEnSet h n) s = .next t ∧ t.spnState (hdaId h n) = 1 ∧
      t.get (spnB (hdaId h n)) F.SPN_CTL_EN = 1 ∧
      t.get (spnB (hdaId h n)) F.SPN_TARGET_TARGET = t.spnTarget (hdaId h n)) ∧
  (∀ (s : State) (h : Half) (n : Nat), n < 4 → s.spnState (hdaId h n) = 1 → s.mot.step ≠ 3 →
    s.startOk (hdaId h n) = true → ((s.spn (hdaId h n)).emf < 1920 ∨ 19200 < (s.spn (hdaId h n)).emf) →
    ∃ t, exec (.start h n) s = .next t ∧ t.spnState (hdaId h n) = 2 ∧
      (s.ticks, hdaId h n) ∈ t.mot.waitT ∧ t.get (spnB (hdaId h n)) F.SPN_TAPSTAT_ATTEMPT = 0) ∧
  (∀ (s : State) (h : Half) (n : Nat), n < 4 → s.spnState (hdaId h n) = 12 →
    exec (.start h n) s = .next (s.setSpn (hdaId h n) { s.spn (hdaId h n) with startWaits := true })) ∧
  (∀ (s : State) (x : Nat × Nat), s.mot.waitT.head? = some x → x.2 < 8 →
    ((List.range 8).filter s.mot.taper.testBit).length < 2 → s.mot.overBudget = false →
    s.mot.pmot + s.mot.taperP ≤ s.mot.budget →
    s.spnState x.2 = 2 →
    ∃ t, exec .taperSlotGrant s = .next t ∧ t.mot.taper.testBit x.2 = true ∧ t.mot.waitT = s.mot.waitT.tail ∧
      t.spnState x.2 = if 19200 < (s.spn x.2).emf then 8
        else if s.ident x.2 0x67 1 % 2 = 1 ∨ s.bit (spnB x.2) F.SPN_TAPCFG_FORCE_INDUCT = true then 4 else 3) ∧
  (∀ (s : State) (h : Half) (n : Nat), n < 4 → s.spnState (hdaId h n) = 3 →
    s.phaseOver (hdaId h n) (s.spn (hdaId h n)).phaseUs = true →
    ∃ t, exec (.alignEnd h n) s = .next t ∧ t.spnState (hdaId h n) = 5 ∧ (t.spn (hdaId h n)).step = 0 ∧
      (t.spn (hdaId h n)).conf = 0) ∧
  (∀ (s : State) (h : Half) (n a b c d e f k : Nat), n < 4 → s.spnState (hdaId h n) = 4 → k < 6 →
    s.phaseOver (hdaId h n) (s.spn (hdaId h n)).phaseUs = true →
    (∀ j, j < 6 → j ≠ k → 3 * min (s.spn (hdaId h n)).pulseLim ([a, b, c, d, e, f].getD k 0) ≤
      (min (s.spn (hdaId h n)).pulseLim ([a, b, c, d, e, f].getD k 0) -
        min (s.spn (hdaId h n)).pulseLim ([a, b, c, d, e, f].getD j 0)) * 100) →
    0 < min (s.spn (hdaId h n)).pulseLim ([a, b, c, d, e, f].getD k 0) →
    ∃ t, exec (.senseEnd h n [a, b, c, d, e, f]) s = .next t ∧ t.spnState (hdaId h n) = 5 ∧
      (t.spn (hdaId h n)).step = k ∧ t.get (spnB (hdaId h n)) F.SPN_TAPSTAT_SECTOR = k) ∧
  (∀ (s : State) (h : Half) (n : Nat), n < 4 → s.spnState (hdaId h n) = 4 →
    s.phaseOver (hdaId h n) (s.spn (hdaId h n)).phaseUs = true →
    ∃ t, exec (.senseEnd h n [0, 0, 0, 0, 0, 0]) s = .next t ∧ t.spnState (hdaId h n) = 9) ∧
  (∀ (s : State) (h : Half) (n : Nat), n < 4 → s.spnState (hdaId h n) = 5 → 12 ≤ (s.spn (hdaId h n)).conf →
    (s.spn (hdaId h n)).rampDone = true →
    ∃ t, exec (.rampHandover h n) s = .next t ∧ t.spnState (hdaId h n) = 6 ∧
      (t.spn (hdaId h n)).ref = 64 * s.spnTarget (hdaId h n)) ∧
  (∀ (s : State) (h : Half) (n : Nat), n < 4 → s.spnState (hdaId h n) = 5 →
    s.phaseOver (hdaId h n) (1000 * ((s.spn (hdaId h n)).rampT + 500)) = true →
    ∃ t, exec (.rampTimeout h n) s = .next t ∧ t.spnState (hdaId h n) = 9 ∧
      (s.bit (spnB (hdaId h n)) F.SPN_TAPSTAT_METHOD = false →
        t.get (spnB (hdaId h n)) F.SPN_EVENTS_ALIGN_FAIL = 1)) ∧
  (∀ (s : State) (h : Half) (n rdson : Nat), n < 4 → s.spnState (hdaId h n) = 6 →
    s.bit (spnB (hdaId h n)) F.SPN_STAT_AT_SPEED = true → ∀ t0, (s.spn (hdaId h n)).nearAt = some t0 →
    1000000 ≤ (s.usTime + 2 ^ 48 - t0) % 2 ^ 48 →
    ∃ t, exec (.taperEnd h n rdson) s = .next t ∧ t.spnState (hdaId h n) = 7 ∧
      t.get (brgB (hdaId h n)) F.BRG_RDSON = min 0xFFFF rdson ∧
      t.mot.taper.testBit (hdaId h n) = false ∧ t.get (spnB (hdaId h n)) F.SPN_EVENTS_START_DONE = 1 ∧
      (t.spn (hdaId h n)).keWaits = true) ∧
  (∀ (s : State) (h : Half) (n : Nat), n < 4 → s.spnState (hdaId h n) = 9 →
    (s.spn (hdaId h n)).emf < 1920 → s.phaseOver (hdaId h n) 2000000 = true →
    s.get (spnB (hdaId h n)) F.SPN_TAPSTAT_ATTEMPT < 3 →
    ∃ t, exec (.coastEnd h n) s = .next t ∧ t.spnState (hdaId h n) = 4 ∧
      t.get (spnB (hdaId h n)) F.SPN_TAPSTAT_ATTEMPT = s.get (spnB (hdaId h n)) F.SPN_TAPSTAT_ATTEMPT + 1 ∧
      t.get (spnB (hdaId h n)) F.SPN_TAPSTAT_METHOD = 1) ∧
  (∀ (s : State) (h : Half) (n : Nat), n < 4 → s.spnState (hdaId h n) = 9 →
    (s.spn (hdaId h n)).emf < 1920 → s.phaseOver (hdaId h n) 2000000 = true →
    s.get (spnB (hdaId h n)) F.SPN_TAPSTAT_ATTEMPT = 3 →
    ∃ t, exec (.coastEnd h n) s = .next t ∧ t.spnState (hdaId h n) = 13 ∧
      t.get (spnB (hdaId h n)) F.SPN_EVENTS_START_FAIL = 1 ∧ t.mot.taper.testBit (hdaId h n) = false) ∧
  (∀ (s : State) (h : Half) (n : Nat), n < 4 → s.spnState (hdaId h n) = 7 →
    ∃ t, exec (.stop h n) s = .next t ∧ t.spnState (hdaId h n) = 10) ∧
  (∀ (s : State) (h : Half) (n : Nat), n < 4 → s.spnState (hdaId h n) = 3 →
    ∃ t, exec (.stop h n) s = .next t ∧ t.spnState (hdaId h n) = 11 ∧ t.mot.taper.testBit (hdaId h n) = false) ∧
  (∀ (s : State) (h : Half) (n : Nat), n < 4 → s.spnState (hdaId h n) = 1 →
    ∃ t, exec (.spindleOff h n) s = .next t ∧ t.spnState (hdaId h n) = 0 ∧
      t.get (spnB (hdaId h n)) F.SPN_CTL_EN = 0) ∧
  (∀ (s : State) (h : Half) (n : Nat), n < 4 → s.spnState (hdaId h n) = 7 →
    ∃ t, exec (.spindleOff h n) s = .next t ∧ t.spnState (hdaId h n) = 10 ∧ (t.spn (hdaId h n)).endOff = true ∧
      t.get (spnB (hdaId h n)) F.SPN_CTL_EN = 0)

/-- A running spindle (R216 to R222, R225, R226, R234 to R236, R252). -/
def Obligations.SpindleRunning : Prop :=
  (∀ (s : State) (h : Half) (n : Nat) (o : StepObs), n < 4 → s.spnState (hdaId h n) ≠ 0 →
    s.commutates (hdaId h n) = false →
    ∃ t, exec (.commutationStep h n o) s = .next t ∧ (t.spn (hdaId h n)).emf = o.emf ∧
      t.get (spnB (hdaId h n)) F.SPN_SPEED_RPM = min o.emf 0xFFFFF ∧
      t.get (brgB (hdaId h n)) F.BRG_TEMP = min 0xFF o.temp) ∧
  (∀ (s : State) (h : Half) (n : Nat) (o : StepObs), n < 4 → s.commutates (hdaId h n) = true →
    ∃ t, exec (.commutationStep h n o) s = .next t ∧
      (t.spn (hdaId h n)).step = ((s.spn (hdaId h n)).step + 1) % 36 ∧
      (t.spn (hdaId h n)).emf = speedOf (t.spn (hdaId h n)).periods ∧
      (t.spn (hdaId h n)).periods.tail = (s.spn (hdaId h n)).periods.take 35 ∧
      t.get (spnB (hdaId h n)) F.SPN_SPEED_RPM = min (t.spn (hdaId h n)).emf 0xFFFFF ∧
      t.get (brgB (hdaId h n)) F.BRG_TEMP = min 0xFF o.temp) ∧
  (∀ (s : State) (h : Half) (n : Nat), n < 4 → 4 ≤ (s.spn (hdaId h n)).skips → (s.spn (hdaId h n)).skipOn = false →
    ∃ t, exec (.skipRun h n) s = .next t ∧ (t.spn (hdaId h n)).skipOn = true ∧
      t.get (spnB (hdaId h n)) F.SPN_EVENTS_SKIP_RUN = 1) ∧
  (∀ (s : State) (h : Half) (n : Nat), n < 4 →
    ∃ t, exec (.bridgeOcp h n) s = .next t ∧ (t.spn (hdaId h n)).ocpNow = true ∧
      t.get (brgB (hdaId h n)) F.BRG_OCP = 1 ∧
      (s.motorUp.testBit h.toNat = true → t.get (B.mot h) F.MOT_EVENTS_BRIDGE_OCP = 1)) ∧
  (∀ (s : State) (h : Half) (n : Nat), n < 4 → s.spnState (hdaId h n) = 7 → 12 ≤ (s.spn (hdaId h n)).unconf →
    ∃ t, exec (.rotorLost h n) s = .next t ∧ t.spnState (hdaId h n) = 8 ∧
      t.get (spnB (hdaId h n)) F.SPN_EVENTS_ROTOR_LOST = 1 ∧ t.get (spnB (hdaId h n)) F.SPN_STAT_CATCH_TRY = 1 ∧
      t.get (spnB (hdaId h n)) F.SPN_STAT_HOLD_WR = 1 ∧ (t.spn (hdaId h n)).left = 7) ∧
  (∀ (s : State) (h : Half) (n duty : Nat) (id : Int), n < 4 → s.spnState (hdaId h n) = 7 →
    ∃ t, exec (.electricalCycle h n duty id) s = .next t ∧
      t.get (spnB (hdaId h n)) F.SPN_ID_ID_MEAS = unsigned 16 id ∧ (t.spn (hdaId h n)).cur ≤ s.iRun (hdaId h n)) ∧
  (∀ (s : State) (h : Half) (n keRaw : Nat) (temp : Int), n < 4 → s.spnState (hdaId h n) = 7 →
    (s.spn (hdaId h n)).keHold = false → s.bit (spnB (hdaId h n)) F.SPN_STAT_FW_ACTIVE = false →
    s.writeRuns (hdaId h n) = false → s.keDue (hdaId h n) = true →
    ∃ t, exec (.keMeasure h n keRaw temp) s = .next t ∧ (t.spn (hdaId h n)).keWaits = false ∧
      t.get (spnB (hdaId h n)) F.SPN_KE_KE_CORR = unsigned 16 ((keRaw : Int) * (975 + temp) / 1000) ∧
      (t.spn (hdaId h n)).keHold = decide (((keRaw : Int) * (975 + temp) -
        1000 * (s.get (spnB (hdaId h n)) F.SPN_KEREF_KE_REF : Int)).natAbs * 100 >
          15 * (1000 * s.get (spnB (hdaId h n)) F.SPN_KEREF_KE_REF))) ∧
  (∀ (s : State) (h : Half) (n keRaw : Nat) (temp : Int), n < 4 → s.spnState (hdaId h n) = 7 →
    (s.spn (hdaId h n)).keHold = true → s.bit (spnB (hdaId h n)) F.SPN_STAT_FW_ACTIVE = false →
    s.writeRuns (hdaId h n) = false → (s.spn (hdaId h n)).keRepeats = 0 → s.keSince (hdaId h n) 10 = true →
    ∃ t, exec (.keRepeat h n keRaw temp) s = .next t ∧ (t.spn (hdaId h n)).keRepeats = 1 ∧
      (t.spn (hdaId h n)).keHold = true) ∧
  (∀ (s : State) (h : Half) (n speed1 angle1 speed2 angle2 : Nat), n < 4 → s.spnState (hdaId h n) = 8 →
    (s.spn (hdaId h n)).resumed = false → 0 < speed2 → 100 * speed1 ≤ 102 * speed2 → 98 * speed2 ≤ 100 * speed1 →
    ((angle1 + 36000 - angle2 % 36000) % 36000 ≤ 1000 ∨ 35000 ≤ (angle1 + 36000 - angle2 % 36000) % 36000) →
    ∃ t, exec (.catchEstimate h n speed1 angle1 speed2 angle2) s = .next t ∧ (t.spn (hdaId h n)).resumed = true ∧
      (t.spn (hdaId h n)).step =
        (angle2 + 25 * min 120 (s.get (spnB (hdaId h n)) F.SPN_ID_ADV)) % 36000 / 6000 ∧
      (t.spn (hdaId h n)).period = stepNs speed2 ∧ t.spnState (hdaId h n) = 8) ∧
  (∀ (s : State) (h : Half) (n speed1 angle1 speed2 angle2 : Nat), n < 4 → 102 * speed2 < 100 * speed1 →
    exec (.catchEstimate h n speed1 angle1 speed2 angle2) s = .next s) ∧
  (∀ (s : State) (h : Half) (n : Nat), n < 4 → s.spnState (hdaId h n) = 8 → (s.spn (hdaId h n)).resumed = true →
    36 ≤ (s.spn (hdaId h n)).conf → (s.spn (hdaId h n)).startCatch = false → (s.spn (hdaId h n)).left < 14 →
    ∃ t, exec (.catchOk h n) s = .next t ∧ t.spnState (hdaId h n) = (s.spn (hdaId h n)).left ∧
      t.get (spnB (hdaId h n)) F.SPN_EVENTS_CATCH_OK = 1 ∧ t.get (spnB (hdaId h n)) F.SPN_STAT_HOLD_WR = 0) ∧
  (∀ (s : State) (h : Half) (n : Nat), n < 4 → s.spnState (hdaId h n) = 8 →
    ((s.spn (hdaId h n)).resumed = false ∨ (s.spn (hdaId h n)).lost = true) →
    s.get (spnB (hdaId h n)) F.SPN_STAT_CATCH_TRY < 3 →
    ∃ t, exec (.catchFail h n) s = .next t ∧ t.spnState (hdaId h n) = 8 ∧
      t.get (spnB (hdaId h n)) F.SPN_STAT_CATCH_TRY = s.get (spnB (hdaId h n)) F.SPN_STAT_CATCH_TRY + 1) ∧
  (∀ (s : State) (h : Half) (n : Nat), n < 4 → s.spnState (hdaId h n) = 8 →
    ((s.spn (hdaId h n)).resumed = false ∨ (s.spn (hdaId h n)).lost = true) →
    s.get (spnB (hdaId h n)) F.SPN_STAT_CATCH_TRY = 3 →
    ∃ t, exec (.catchFail h n) s = .next t ∧ t.spnState (hdaId h n) = 10 ∧ (t.spn (hdaId h n)).endFailed = true ∧
      t.get (spnB (hdaId h n)) F.SPN_EVENTS_SPINDLE_FAIL = 1) ∧
  (∀ (s : State) (h : Half) (n : Nat), n < 4 → s.spnState (hdaId h n) = 8 → (s.spn (hdaId h n)).resumed = false →
    (s.spn (hdaId h n)).parkAsked = false → (s.spn (hdaId h n)).emf ≤ 64 * max 3800 (s.get (spnB (hdaId h n)) F.SPN_PARKRPM_PARK_RPM) →
    ∃ t, exec (.parkRpmReached h n) s = .next t ∧ (t.spn (hdaId h n)).parkAsked = true ∧ t.spnState (hdaId h n) = 8)

/-- Braking (R228, R237, R238, R242). -/
def Obligations.SpindleBrakes : Prop :=
  (∀ (s : State) (h : Half) (n : Nat), n < 4 → s.spnState (hdaId h n) = 10 → s.srvState (2 * hdaId h n) ≤ 1 →
    s.srvState (2 * hdaId h n + 1) ≤ 1 →
    ∃ t, exec (.brakeStart h n) s = .next t ∧ t.spnState (hdaId h n) = 11 ∧
      ((s.spn (hdaId h n)).emf ≤ 64 * s.get (spnB (hdaId h n)) F.SPN_BRKCFG_STOP_RPM →
        (t.spn (hdaId h n)).short = true)) ∧
  (∀ (s : State) (hd : Nat), s.mot.waitB.head? = some hd →
    ((List.range 8).filter s.mot.brake.testBit).length < 4 → s.mot.chopFailed = false → s.mot.chopHot = false →
    (s.spn hd).forcedShort = false →
    ∃ t, exec .brakeSlotGrant s = .next t ∧ t.mot.brake.testBit hd = true ∧ (t.spn hd).regen = true ∧
      (t.spn hd).short = false) ∧
  (∀ (s : State) (h : Half) (n : Nat), n < 4 → s.spnState (hdaId h n) = 11 →
    (s.spn (hdaId h n)).emf ≤ 64 * s.get (spnB (hdaId h n)) F.SPN_BRKCFG_STOP_RPM →
    ∃ t, exec (.stopRpmReached h n) s = .next t ∧ (t.spn (hdaId h n)).regen = false ∧
      (t.spn (hdaId h n)).short = true ∧ t.mot.brake.testBit (hdaId h n) = false ∧
      t.get (brgB (hdaId h n)) F.BRG_SPN_MODE = (if s.outEnable h && s.motlink h then 3 else 0)) ∧
  (∀ (s : State) (h : Half) (n : Nat), n < 4 → s.spnState (hdaId h n) = 11 → (s.spn (hdaId h n)).emf < 1920 →
    (s.spn (hdaId h n)).endOff = true →
    ∃ t, exec (.speedBelow30rpm h n) s = .next t ∧ t.spnState (hdaId h n) = 0) ∧
  (∀ (s : State) (h : Half) (n : Nat), n < 4 → s.spnState (hdaId h n) = 11 → (s.spn (hdaId h n)).emf < 1920 →
    (s.spn (hdaId h n)).endOff = false → (s.spn (hdaId h n)).endFailed = true →
    ∃ t, exec (.speedBelow30rpm h n) s = .next t ∧ t.spnState (hdaId h n) = 13) ∧
  (∀ (s : State) (h : Half) (n : Nat), n < 4 → s.spnState (hdaId h n) = 2 → (s.spn (hdaId h n)).emf < 1920 →
    (s.spn (hdaId h n)).lateRequest = true →
    ∃ t, exec (.speedBelow30rpm h n) s = .next t ∧ (s.ticks, hdaId h n) ∈ t.mot.waitT ∧
      (t.spn (hdaId h n)).lateRequest = false)

/-- The motor bus (R239 to R243, R252). -/
def Obligations.MotorBusSupervision : Prop :=
  (∀ (s : State) (mv : Nat),
    ∃ t, exec (.ladderStep1 mv) s = .next t ∧ t.mot.vbus = mv ∧ t.mot.step = max s.mot.step 1 ∧ t.mot.chopOn = true) ∧
  (∀ (s : State) (mv : Nat),
    ∃ t, exec (.ladderStep2 mv) s = .next t ∧ t.mot.vbus = mv ∧ t.mot.step = max s.mot.step 2 ∧ t.mot.chopOn = true ∧
      ∀ hd, hd < 8 → (t.spn hd).regen = false) ∧
  (∀ (s : State) (mv : Nat),
    ∃ t, exec (.ladderStep3 mv) s = .next t ∧ t.mot.vbus = mv ∧ t.mot.step = max s.mot.step 3 ∧ t.mot.feedOpen = true ∧
      ∀ hd, hd < 8 → t.spnState hd = 0 ∨ t.spnState hd = 12) ∧
  (∀ (s : State) (mv joules : Nat), s.mot.chopOn = true →
    ∃ t, exec (.chopperOff mv joules) s = .next t ∧ t.mot.chopOn = false ∧
      t.mot.energy = min 0xFFFFFFFF (s.mot.energy + joules) ∧ t.mot.step = if s.mot.step = 3 then 3 else 0) ∧
  (∀ (s : State) (mv : Nat), s.mot.step = 3 →
    ∃ t, exec (.ladderRelease mv) s = .next t ∧ t.mot.step = 0 ∧ t.mot.feedOpen = false ∧ t.mot.vbus = mv) ∧
  (∀ (s : State), s.mot.chopFailed = false → s.mot.chopOn = true →
    ∃ t, exec (.chopperFail 1) s = .next t ∧ t.mot.chopFailed = true ∧ t.mot.failKind = 1 ∧
      t.mot.seriesOpen = s.mot.seriesOpen) ∧
  (∀ (s : State), s.mot.chopFailed = false → s.mot.chopOn = false →
    ∃ t, exec (.chopperFail 2) s = .next t ∧ t.mot.chopFailed = true ∧ t.mot.failKind = 2 ∧ t.mot.seriesOpen = true) ∧
  (∀ (s : State) (pass : Bool), s.mot.chopFailed = false →
    ∃ t, exec (.chopperTest pass) s = .next t ∧ t.board.chopTested = true ∧ t.mot.chopFailed = !pass) ∧
  (∀ (s : State), ∃ t, exec .chopHot s = .next t ∧ t.mot.chopHot = true) ∧
  (∀ (s : State), exec .chopCool s = .next { s with mot := { s.mot with chopHot := false } }) ∧
  (∀ (s : State) (watts mv : Nat),
    ∃ t, exec (.budgetWindow watts mv) s = .next t ∧ t.mot.pmot = watts ∧ t.mot.vbus = mv ∧
      t.mot.overBudget = (s.mot.overBudget || decide (s.mot.budget < watts)) ∧
      t.mot.budget = s.get (B.mot .a) F.MOT_BUDGET_BUDGET ∧ t.mot.taperP = s.get (B.mot .a) F.MOT_BUDGET_TAPER_P) ∧
  (∀ (s : State), s.mot.overBudget = true → s.mot.budget < s.mot.pmot →
    exec .seekLimit s = .next { s with mot := { s.mot with seekLimit := true } }) ∧
  (∀ (s : State), s.mot.pmot * 10 < 9 * s.mot.budget →
    exec .budgetLift s = .next { s with mot := { s.mot with overBudget := false, seekLimit := false } })

/-- Bring-up (R254 to R256) and the registers of R278, R280, R285. -/
def Obligations.BufferBringUp : Prop :=
  (∀ (s : State) (h : Half) (d : DimmInfo), s.coreUp h = true → s.get (B.buf h 0) F.BUF_STAT_STATE = 0 →
    dimmGood d = true →
    ∃ t, exec (.dimmIdentify h (List.replicate 8 (some d))) s = .next t ∧
      t.get (B.buf h 0) F.BUF_STAT_STATE = 1 ∧ (t.resv h).rate = d.rate ∧
      (∀ n, n < 8 → t.get (B.buf h n) F.BUF_CHSTAT_PRESENT = 1) ∧
      t.get (B.buf h 0) F.BUF_DATATOP_TOP = t.dataTop h % 2 ^ F.BUF_DATATOP_TOP.width) ∧
  (∀ (s : State) (h : Half) (l : List (Option DimmInfo)), s.coreUp h = true →
    s.get (B.buf h 0) F.BUF_STAT_STATE = 0 →
    ∃ t, exec (.dimmIdentify h (none :: l)) s = .next t ∧ t.get (B.buf h 0) F.BUF_STAT_STATE = 4 ∧
      t.get (B.buf h 0) F.BUF_EVENTS_OFFLINE = 1) ∧
  (∀ (s : State) (h : Half), s.coreUp h = true → s.get (B.buf h 0) F.BUF_STAT_STATE = 1 →
    ∃ t, exec (.pmicPowerGood h) s = .next t ∧ t.get (B.buf h 0) F.BUF_STAT_STATE = 2 ∧
      (t.resv h).rate = max (s.resv h).rate (s.get (B.buf h 0) F.BUF_CTL_RATE_CAP)) ∧
  (∀ (s : State) (h : Half), s.coreUp h = true → s.get (B.buf h 0) F.BUF_STAT_STATE = 2 →
    ∃ t, exec (.trainingAttemptEnd h []) s = .next t ∧ t.get (B.buf h 0) F.BUF_STAT_STATE = 3 ∧
      ∀ n, n < 8 → t.get (B.buf h n) F.BUF_CHSTAT_TRAINED = 1) ∧
  (∀ (s : State) (h : Half) (n : Nat), n < 8 → s.coreUp h = true → s.get (B.buf h 0) F.BUF_STAT_STATE = 2 →
    (s.resv h).rate < 3 →
    ∃ t, exec (.trainingAttemptEnd h [n]) s = .next t ∧ t.get (B.buf h 0) F.BUF_STAT_STATE = 2 ∧
      (t.resv h).rate = (s.resv h).rate + 1 ∧ t.get (B.buf h 0) F.BUF_EVENTS_TRAIN_DOWN = 1) ∧
  (∀ (s : State) (h : Half) (n : Nat), n < 8 → s.coreUp h = true → s.get (B.buf h 0) F.BUF_STAT_STATE = 2 →
    3 ≤ (s.resv h).rate →
    ∃ t, exec (.trainingAttemptEnd h [n]) s = .next t ∧ t.get (B.buf h 0) F.BUF_STAT_STATE = 4 ∧
      t.get (B.buf h n) F.BUF_CHEVENTS_TRAIN_FAIL = 1) ∧
  (∀ (s : State) (h : Half) (n temp : Nat), n < 8 → temp < 256 → s.coreUp h = true →
    s.bit (B.buf h n) F.BUF_CHSTAT_PRESENT = true →
    ∃ t, exec (.dimmTempRead h n temp) s = .next t ∧ t.get (B.buf h n) F.BUF_CHTEMP_TEMP = temp ∧
      t.bit (B.buf h n) F.BUF_CHSTAT_HOT =
        (decide (85 < temp) || (decide (82 ≤ temp) && s.bit (B.buf h n) F.BUF_CHSTAT_HOT))) ∧
  (∀ (s : State) (h : Half) (k : Nat) (w : Word), k < 6 → s.coreUp h = true →
    ∃ t, exec (.partitionWrite h k w) s = .next t ∧
      t.word (B.buf h 0 + (if k < 4 then 0x2014 + 4 * k else 0x2028 + 4 * (k - 4))) = w) ∧
  (∀ (s : State) (h : Half) (on : Bool), s.coreUp h = true → (on = true ∨ (s.resv h).banks = []) →
    ∃ t, exec (.bankSpare h on) s = .next t ∧ t.bit (B.buf h 0) F.BUF_STAT_SPARING = on ∧
      t.get (B.buf h 0) F.BUF_DATATOP_TOP = t.dataTop h % 2 ^ F.BUF_DATATOP_TOP.width)

/-- Requests at the Reservoir (R265 to R267, R270 to R274, R277, R285). -/
def Obligations.BufferRequests : Prop :=
  (∀ (s : State) (h : Half) (cls : BufCls) (p o n : Nat) (errs : List WordErr), s.coreUp h = true →
    0 < n → o + n ≤ 4096 → s.bufRefuse h cls (4096 * p + o) = .ok →
    s.bufBlocked h ⟨cls, false, 4096 * p + o, n, [], errs, false⟩ = false → s.touched h p = false →
    (∀ i, i < n → smFind s.mergeBytes (bufBa h (4096 * p + o + i)) = none) →
    ∃ t, exec (.bufferRead h cls (4096 * p + o) n errs false) s = .next t ∧
      t.answers = [⟨h, cls, false, 4096 * p + o, List.replicate n 0, .ok⟩] ∧ t.dram = s.dram) ∧
  (∀ (s : State) (h : Half) (cls : BufCls) (p o n : Nat) (errs : List WordErr), s.coreUp h = true →
    0 < n → o + n ≤ 4096 → s.bufRefuse h cls (4096 * p + o) ≠ .ok →
    ∃ t, exec (.bufferRead h cls (4096 * p + o) n errs false) s = .next t ∧
      t.answers = [⟨h, cls, false, 4096 * p + o, if cls = .host then List.replicate n 0xFF else [],
        s.bufRefuse h cls (4096 * p + o)⟩] ∧ t.dram = s.dram) ∧
  (∀ (s : State) (h : Half) (cls : BufCls) (p o : Nat) (bs : List Byte), s.coreUp h = true →
    bs ≠ [] → o + bs.length ≤ 4096 → s.bufRefuse h cls (4096 * p + o) = .ok →
    s.bufBlocked h ⟨cls, true, 4096 * p + o, bs.length, bs, [], false⟩ = false → s.touched h p = true →
    (∀ i, i < bs.length → smFind s.cacheBytes (bufBa h (4096 * p + o + i)) = none) →
    ∃ t, exec (.bufferWrite h cls (4096 * p + o) bs []) s = .next t ∧
      t.answers = [⟨h, cls, true, 4096 * p + o, [], .ok⟩] ∧
      ∀ i, i < bs.length → t.bufByte (bufBa h (4096 * p + o + i)) = bs.getD i 0) ∧
  (∀ (s : State) (h : Half) (cls : BufCls) (p o : Nat) (bs : List Byte), s.coreUp h = true →
    bs ≠ [] → o + bs.length ≤ 4096 → s.bufRefuse h cls (4096 * p + o) = .ok →
    s.bufBlocked h ⟨cls, true, 4096 * p + o, bs.length, bs, [], false⟩ = false → s.touched h p = false →
    ∃ t, exec (.bufferWrite h cls (4096 * p + o) bs []) s = .next t ∧ t.answers = [] ∧ t.dram = s.dram ∧
      (t.resv h).fills = (s.resv h).fills ++ [p / 16] ∧
      (t.resv h).waiting = (s.resv h).waiting ++ [⟨cls, true, 4096 * p + o, bs.length, bs, [], false⟩]) ∧
  (∀ (s : State) (h : Half) (r : Nat), r ∈ (s.resv h).fills.take 16 →
    ∃ t, exec (.zeroFillDone h r) s = .next t ∧ smGet false (t.resv h).touched r = true ∧
      r ∉ (t.resv h).fills) ∧
  (∀ (s : State) (h : Half) (p idle : Nat) (errs : List WordErr), p ∈ (s.resv h).merge →
    min1 (s.get (B.buf h 0) F.BUF_CTL_MERGE_IDLE) ≤ idle →
    ∃ t, exec (.mergeFlush h p idle errs) s = .next t ∧ p ∉ (t.resv h).merge ∧
      ∀ o, o < 4096 → smFind t.mergeBytes (bufBa h (4096 * p + o)) = none) ∧
  (∀ (s : State) (h : Half) (count r : Nat), s.coreUp h = true →
    (s.resv h).fills = [] → (s.resv h).waiting = [] → (s.cache h).miss = [] → (s.cache h).waiting = [] →
    (s.cache h).maint = none → (s.cache h).walks = [] → s.get (B.buf h 0) F.BUF_RELBASE_REGION ≤ r →
    r < s.get (B.buf h 0) F.BUF_RELBASE_REGION + count →
    ∃ t, exec (.regionRelease h count) s = .next t ∧ smGet false (t.resv h).touched r = false ∧
      t.get (B.buf h 0) F.BUF_RELCNT_COUNT = 0 ∧
      (smGet false (s.resv h).touched r = true → ∀ o, o < 65536 → smGet 0 t.dram (bufBa h (65536 * r + o)) = 0))

/-- Scrub, retirement, log (R266, R276, R279, R280, R286). -/
def Obligations.BufferScrubAndRetirement : Prop :=
  (∀ (s : State) (h : Half) (us : Nat) (errs : List WordErr), s.coreUp h = true → s.bufReady h = true →
    s.bit (B.buf h 0) F.BUF_CTL_SCRUB_EN = true → (s.resv h).retire = none →
    min1 (s.get (B.buf h 0) F.BUF_SCRUBCFG_PERIOD) * 3600000000 ≤ us * s.bufD h →
    s.get (B.buf h 0) F.BUF_SCRUBSTAT_CP + 1 < s.bufD h →
    ∃ t, exec (.scrubStep h 7 us errs) s = .next t ∧
      t.get (B.buf h 0) F.BUF_SCRUBSTAT_CP =
        (s.get (B.buf h 0) F.BUF_SCRUBSTAT_CP + 1) % 2 ^ F.BUF_SCRUBSTAT_CP.width) ∧
  (∀ (s : State) (h : Half) (us : Nat) (errs : List WordErr), s.coreUp h = true → s.bufReady h = true →
    s.bit (B.buf h 0) F.BUF_CTL_SCRUB_EN = true → (s.resv h).retire = none →
    min1 (s.get (B.buf h 0) F.BUF_SCRUBCFG_PERIOD) * 3600000000 ≤ us * s.bufD h →
    s.bufD h ≤ s.get (B.buf h 0) F.BUF_SCRUBSTAT_CP + 1 →
    ∃ t, exec (.scrubStep h 7 us errs) s = .next t ∧ t.get (B.buf h 0) F.BUF_SCRUBSTAT_CP = 0 ∧
      t.get (B.buf h 0) F.BUF_EVENTS_SCRUB_PASS = 1) ∧
  (∀ (s : State) (h : Half) (errs : List WordErr), s.coreUp h = true → (s.resv h).retire = none →
    s.get (B.buf h 0) F.BUF_RETFROM_FROM / 2 ^ 14 < s.get (B.buf h 0) F.BUF_DATATOP_TOP →
    s.get (B.buf h 0) F.BUF_RETFROM_FROM ∉ (s.resv h).remap → (s.resv h).remap.length < 4096 →
    s.touched h (s.get (B.buf h 0) F.BUF_RETFROM_FROM) = false →
    ∃ t, exec (.pageRetire h errs) s = .next t ∧ t.get (B.buf h 0) F.BUF_RETSTAT_STATE = 2 ∧
      (t.resv h).remap = (s.resv h).remap ++ [s.get (B.buf h 0) F.BUF_RETFROM_FROM] ∧
      t.get (B.buf h 0) F.BUF_EVENTS_RETIRE_DONE = 1) ∧
  (∀ (s : State) (h : Half) (errs : List WordErr), s.coreUp h = true → (s.resv h).retire = none →
    s.get (B.buf h 0) F.BUF_RETFROM_FROM / 2 ^ 14 < s.get (B.buf h 0) F.BUF_DATATOP_TOP →
    s.get (B.buf h 0) F.BUF_RETFROM_FROM ∉ (s.resv h).remap → (s.resv h).remap.length < 4096 →
    s.touched h (s.get (B.buf h 0) F.BUF_RETFROM_FROM) = true →
    ∃ t, exec (.pageRetire h errs) s = .next t ∧ t.get (B.buf h 0) F.BUF_RETSTAT_STATE = 1 ∧
      (t.resv h).retire = some ⟨false, s.get (B.buf h 0) F.BUF_RETFROM_FROM, (s.resv h).remap.length⟩) ∧
  (∀ (s : State) (h : Half) (errs : List WordErr), s.coreUp h = true → (s.resv h).retire.isSome = true →
    ∃ t, exec (.pageRetire h errs) s = .next t ∧ t.get (B.buf h 0) F.BUF_RETSTAT_REASON = 5 ∧
      t.get (B.buf h 0) F.BUF_EVENTS_RETIRE_REJ = 1 ∧ (t.resv h).retire = (s.resv h).retire) ∧
  (∀ (s : State) (h : Half) (ch bidx : Nat), s.coreUp h = true → (s.resv h).retire = none →
    s.bit (B.buf h 0) F.BUF_STAT_SPARING = true → ch < 8 → bidx < 32 * s.bufRanks h → bidx ≠ s.slotBank h →
    s.get (B.buf h 0) F.BUF_RETFROM_FROM % 0x200 = bankCode ch bidx → bankCode ch bidx ∉ (s.resv h).banks →
    (s.resv h).banks.length < 8 →
    ∃ t, exec (.bankRetire h) s = .next t ∧ t.get (B.buf h 0) F.BUF_RETSTAT_STATE = 1 ∧
      (t.resv h).retire = some ⟨true, bankCode ch bidx, (s.resv h).banks.length⟩ ∧
      (t.resv h).banks = (s.resv h).banks ++ [bankCode ch bidx]) ∧
  (∀ (s : State) (h : Half) (errs : List WordErr), s.coreUp h = true → (s.resv h).retire.isSome = true →
    ∃ t, exec (.retireDone h errs) s = .next t ∧ t.get (B.buf h 0) F.BUF_RETSTAT_STATE = 2 ∧
      (t.resv h).retire = none ∧ t.get (B.buf h 0) F.BUF_EVENTS_RETIRE_DONE = 1) ∧
  (∀ (s : State) (h : Half),
    ∃ t, exec (.logClear h) s = .next t ∧ (t.resv h).logOrder = [] ∧ t.get (B.buf h 0) F.BUF_LOGCTL_USED = 0 ∧
      ∀ e j, e < 64 → j < 4 → t.word (logAddr h e j) = regReset (logAddr h e j))

/-- Requests to the cache (R290, R293 to R298, R301, R313). -/
def Obligations.CacheRequests : Prop :=
  (∀ (s : State) (h : Half) (p o n : Nat), s.coreUp h = true → 0 < n → o + n ≤ 4096 →
    s.bufRefuse h .host (4096 * p + o) = .ok → (s.cache h).waiting = [] → (s.cache h).maint = none →
    (s.cache h).walks = [] → ∀ w, (s.cache h).wayOf p = some w → ∀ l, (s.cache h).line p w = some l →
    l.evict = false → l.serves ⟨.host, false, 4096 * p + o, n, [], [], false⟩ = true →
    ∃ t, exec (.cacheRequest h .host false (4096 * p + o) n [] [] []) s = .next t ∧
      t.answers = [⟨h, .host, false, 4096 * p + o,
        (List.range n).map (fun i => s.bufByte (bufBa h (4096 * p + o + i))), .ok⟩]) ∧
  (∀ (s : State) (h : Half) (p o : Nat) (bs : List Byte), s.coreUp h = true → bs ≠ [] → o + bs.length ≤ 4096 →
    s.bufRefuse h .host (4096 * p + o) = .ok → (s.cache h).waiting = [] → (s.cache h).maint = none →
    (s.cache h).walks = [] → ∀ w, (s.cache h).wayOf p = some w → ∀ l, (s.cache h).line p w = some l →
    l.evict = false → l.serves ⟨.host, true, 4096 * p + o, bs.length, bs, [], false⟩ = true →
    ∃ t, exec (.cacheRequest h .host true (4096 * p + o) 0 bs [] []) s = .next t ∧
      t.answers = [⟨h, .host, true, 4096 * p + o, [], .ok⟩] ∧
      ∀ i, i < bs.length → t.bufByte (bufBa h (4096 * p + o + i)) = bs.getD i 0) ∧
  (∀ (s : State) (h : Half) (p o n : Nat), s.coreUp h = true → 0 < n → o + n ≤ 4096 →
    s.bufRefuse h .host (4096 * p + o) = .ok → (s.cache h).waiting = [] → (s.cache h).maint = none →
    (s.cache h).walks = [] → (s.cache h).wayOf p = none →
    s.allocates h ⟨.host, false, 4096 * p + o, n, [], [], false⟩ = true →
    (s.cache h).miss.length < s.missLimit h →
    ∀ w, (List.range 16).find? (fun w => s.eligible h p w && ((s.cache h).line p w).isNone) = some w →
    ∃ t, exec (.cacheRequest h .host false (4096 * p + o) n [] [] []) s = .next t ∧ t.answers = [] ∧
      smFind (t.cache h).miss (s.cache h).freeMiss = some ⟨p, w,
        (fillRun (s.get (B.bca h) F.BCA_CTL_FILL_GRAN) ⟨.host, false, 4096 * p + o, n, [], [], false⟩).1,
        (fillRun (s.get (B.bca h) F.BCA_CTL_FILL_GRAN) ⟨.host, false, 4096 * p + o, n, [], [], false⟩).2,
        [⟨.host, false, 4096 * p + o, n, [], [], false⟩], false⟩) ∧
  (∀ (s : State) (h : Half) (k : Nat) (errs : List WordErr), (s.cache h).waiting = [] → (s.cache h).maint = none →
    (s.cache h).walks = [] → ∀ m, smFind (s.cache h).miss k = some m →
    ((s.cache h).line m.page m.way).isSome = true →
    s.bufBlocked h ⟨(m.reqs.map (·.cls)).headD .table, false, 4096 * m.page, 4096, [], [], false⟩ = false →
    ∃ t, exec (.cacheFillDone h k errs) s = .next t ∧ smFind (t.cache h).miss k = none ∧
      t.answers.map (fun a => (a.ha, a.write)) = m.reqs.map (fun r => (r.ha, r.write))) ∧
  (∀ (s : State) (h : Half) (p : Nat), (s.cache h).waiting = [] → (s.cache h).maint = none →
    (s.cache h).walks = [] → ∀ w, (s.cache h).wayOf p = some w → ∀ l, (s.cache h).line p w = some l →
    l.evict = true →
    ∃ t, exec (.writebackAccepted h p) s = .next t ∧ (t.cache h).line p w = none) ∧
  (∀ (s : State) (h : Half) (mode : Nat), mode < 4 → s.coreUp h = true →
    ∃ t, exec (.cacheModeWrite h mode) s = .next t ∧ t.get (B.bca h) F.BCA_STAT_MODE_NOW = mode ∧
      t.get (B.bca h) F.BCA_CTL_MODE = mode)

/-- Maintenance (R303 to R305, R314) and ways (R308, R309, R312). -/
def Obligations.CacheMaintenance : Prop :=
  (∀ (s : State) (h : Half), s.coreUp h = true → (s.cache h).waiting = [] → (s.cache h).walks = [] →
    s.get (B.bca h) F.BCA_MSTAT_STATE ≠ 1 →
    s.get (B.bca h) F.BCA_MBASE_PAGE < s.get (B.buf h 0) F.BUF_DATATOP_TOP * 16384 →
    ∀ w, (s.cache h).wayOf (s.get (B.bca h) F.BCA_MBASE_PAGE) = some w →
    ∀ l, (s.cache h).line (s.get (B.bca h) F.BCA_MBASE_PAGE) w = some l → (s.cache h).lineBusy l = false →
    ∃ t, exec (.clean h false false false) s = .next t ∧ t.get (B.bca h) F.BCA_MSTAT_STATE = 1 ∧
      t.get (B.bca h) F.BCA_MSTAT_OP = 1 ∧ t.get (B.bca h) F.BCA_MDONE_LINES = 1 ∧
      ∀ l', (t.cache h).line (s.get (B.bca h) F.BCA_MBASE_PAGE) w = some l' → maskCount l'.dirty = 0) ∧
  (∀ (s : State) (h : Half), s.coreUp h = true → (s.cache h).waiting = [] → (s.cache h).walks = [] →
    s.get (B.bca h) F.BCA_MSTAT_STATE ≠ 1 →
    s.get (B.bca h) F.BCA_MBASE_PAGE < s.get (B.buf h 0) F.BUF_DATATOP_TOP * 16384 →
    ∀ w, (s.cache h).wayOf (s.get (B.bca h) F.BCA_MBASE_PAGE) = some w →
    ∀ l, (s.cache h).line (s.get (B.bca h) F.BCA_MBASE_PAGE) w = some l → (s.cache h).lineBusy l = false →
    l.locked = false →
    ∃ t, exec (.inv h false false false) s = .next t ∧ t.get (B.bca h) F.BCA_MSTAT_STATE = 1 ∧
      t.get (B.bca h) F.BCA_MSTAT_OP = 2 ∧ t.get (B.bca h) F.BCA_MDONE_LINES = 1 ∧
      (t.cache h).line (s.get (B.bca h) F.BCA_MBASE_PAGE) w = none) ∧
  (∀ (s : State) (h : Half), s.coreUp h = true → (s.cache h).waiting = [] → (s.cache h).walks = [] →
    s.get (B.bca h) F.BCA_MSTAT_STATE ≠ 1 →
    s.get (B.bca h) F.BCA_MBASE_PAGE < s.get (B.buf h 0) F.BUF_DATATOP_TOP * 16384 →
    ∀ w, (s.cache h).wayOf (s.get (B.bca h) F.BCA_MBASE_PAGE) = some w →
    ∀ l, (s.cache h).line (s.get (B.bca h) F.BCA_MBASE_PAGE) w = some l → (s.cache h).lineBusy l = false →
    l.locked = false →
    ∃ t, exec (.cleanInv h false false false) s = .next t ∧ t.get (B.bca h) F.BCA_MSTAT_STATE = 1 ∧
      t.get (B.bca h) F.BCA_MSTAT_OP = 3 ∧ t.get (B.bca h) F.BCA_MDONE_LINES = 1 ∧
      (t.cache h).line (s.get (B.bca h) F.BCA_MBASE_PAGE) w = none) ∧
  (∀ (s : State) (h : Half), s.coreUp h = true → (s.cache h).waiting = [] → (s.cache h).walks = [] →
    s.get (B.bca h) F.BCA_MSTAT_STATE ≠ 1 →
    s.get (B.bca h) F.BCA_MBASE_PAGE < s.get (B.buf h 0) F.BUF_DATATOP_TOP * 16384 →
    ∀ w, (s.cache h).wayOf (s.get (B.bca h) F.BCA_MBASE_PAGE) = some w →
    ∀ l, (s.cache h).line (s.get (B.bca h) F.BCA_MBASE_PAGE) w = some l → (s.cache h).lineBusy l = false →
    l.locked = true →
    ∃ t, exec (.unlock h false false false) s = .next t ∧ t.get (B.bca h) F.BCA_MSTAT_STATE = 1 ∧
      t.get (B.bca h) F.BCA_MSTAT_OP = 5 ∧ t.get (B.bca h) F.BCA_MDONE_LINES = 1 ∧
      ∀ l', (t.cache h).line (s.get (B.bca h) F.BCA_MBASE_PAGE) w = some l' → l'.locked = false) ∧
  (∀ (s : State) (h : Half), s.coreUp h = true → (s.cache h).waiting = [] → (s.cache h).walks = [] →
    s.get (B.bca h) F.BCA_MSTAT_STATE ≠ 1 →
    s.get (B.bca h) F.BCA_MBASE_PAGE < s.get (B.buf h 0) F.BUF_DATATOP_TOP * 16384 →
    (s.cache h).wayOf (s.get (B.bca h) F.BCA_MBASE_PAGE) = none →
    (s.cache h).line (s.get (B.bca h) F.BCA_MBASE_PAGE) 0 = none →
    smGet false (s.cache h).disabled (lineKey (s.get (B.bca h) F.BCA_MBASE_PAGE) 0) = false →
    (s.cache h).miss.length < s.missLimit h →
    ∃ t, exec (.lock h false false false) s = .next t ∧ t.get (B.bca h) F.BCA_MSTAT_STATE = 1 ∧
      t.get (B.bca h) F.BCA_MSTAT_OP = 4 ∧
      smFind (t.cache h).miss (s.cache h).freeMiss =
        some ⟨s.get (B.bca h) F.BCA_MBASE_PAGE, 0, 0, 64, [], true⟩) ∧
  (∀ (s : State) (h : Half) (range all incl : Bool), s.coreUp h = true → s.get (B.bca h) F.BCA_MSTAT_STATE = 1 →
    exec (.clean h range all incl) s = .next (s.put (B.bca h) F.BCA_MSTAT_REASON 1)) ∧
  (∀ (s : State) (h : Half), ∀ m, (s.cache h).maint = some m → m.walked = true →
    (s.cache h).miss.any (·.2.lock) = false →
    ∃ t, exec (.maintenanceDone h) s = .next t ∧ t.get (B.bca h) F.BCA_MSTAT_STATE = 2 ∧ (t.cache h).maint = none) ∧
  (∀ (s : State) (h : Half) (k : Nat), k < 8 → s.coreUp h = true →
    s.maskBit (B.bca h) F.BCA_WAYPWR_OFF_REQ k = false →
    ∃ t, exec (.wayPowerDown h k) s = .next t ∧ t.maskBit (B.bca h) F.BCA_WAYPWR_OFF_REQ k = true ∧
      t.maskBit (B.bca h) F.BCA_WAYSTAT_WALKING k = true ∧ (smFind (t.cache h).walks (8 + k)).isSome = true) ∧
  (∀ (s : State) (h : Half) (k : Nat), k < 8 → smFind (s.cache h).walks (8 + k) = some 1024 →
    ∃ t, exec (.wayWalkEnd h k) s = .next t ∧ t.maskBit (B.bca h) F.BCA_WAYSTAT_OFF k = true ∧
      t.maskBit (B.bca h) F.BCA_WAYSTAT_WALKING k = false ∧ t.get (B.bca h) F.BCA_EVENTS_WAY_OFF_DONE = 1 ∧
      t.domState h (5 + k) = 0) ∧
  (∀ (s : State) (h : Half) (k : Nat), k < 8 → s.coreUp h = true →
    s.maskBit (B.bca h) F.BCA_WAYPWR_OFF_REQ k = true → s.maskBit (B.bca h) F.BCA_WAYSTAT_OFF k = true →
    ∃ t, exec (.wayPowerUp h k) s = .next t ∧ t.maskBit (B.bca h) F.BCA_WAYPWR_OFF_REQ k = false ∧
      t.maskBit (B.bca h) F.BCA_WAYSTAT_OFF k = false ∧ t.maskBit (B.bca h) F.BCA_WAYSTAT_WAKING k = true) ∧
  (∀ (s : State) (h : Half) (k : Nat), k < 8 → s.maskBit (B.bca h) F.BCA_WAYSTAT_WAKING k = true →
    ∃ t, exec (.wayOnDone h k) s = .next t ∧ t.maskBit (B.bca h) F.BCA_WAYSTAT_WAKING k = false ∧
      t.get (B.bca h) F.BCA_EVENTS_WAY_ON_DONE = 1 ∧ t.domState h (5 + k) = 3)

/-- Rings (R321 to R324, R329, R330, R360, R363, R366, R369, R370, R510). -/
def Obligations.HostRings : Prop :=
  (∀ (s : State) (h : Half) (q tail : Nat), q < 256 → s.takesDoorbells h = true → s.sqOn h q = true →
    s.sqErr h q = false → tail < s.get (sqB h q) F.SQ_DEPTH → tail ≠ smGet 0 (s.hif h).tails q →
    (tail + s.get (sqB h q) F.SQ_DEPTH - smGet 0 (s.hif h).tails q) % s.get (sqB h q) F.SQ_DEPTH +
      ((s.hif h).entries.filter (·.sq == q)).length ≤ s.get (sqB h q) F.SQ_DEPTH - 1 →
    ∃ t, exec (.sqDoorbell h q tail) s = .next t ∧ smGet 0 (t.hif h).tails q = tail ∧
      (t.hif h).entries.length = (s.hif h).entries.length +
        (tail + s.get (sqB h q) F.SQ_DEPTH - smGet 0 (s.hif h).tails q) % s.get (sqB h q) F.SQ_DEPTH ∧
      (t.hif h).held = (s.hif h).held) ∧
  (∀ (s : State) (h : Half) (q tail : Nat), q < 256 → tail < 2 ^ 13 → s.takesDoorbells h = true → s.sqOn h q = true →
    s.sqErr h q = false → s.get (sqB h q) F.SQ_DEPTH ≤ tail →
    ∃ t, exec (.sqDoorbell h q tail) s = .next t ∧ t.sqErr h q = true ∧
      t.get (B.hif h) F.HIF_EVENTS_RING_ERR = 1 ∧ (t.hif h).tails = (s.hif h).tails ∧
      (s.bit (B.hif h) F.HIF_RINGERR_VALID = false → t.get (B.hif h) F.HIF_RINGERR_CAUSE = 1 ∧
        t.get (B.hif h) F.HIF_RINGERR_RING = q)) ∧
  (∀ (s : State) (h : Half) (q head : Nat), q < 256 → s.takesDoorbells h = true → s.cqOn h q = true →
    s.cqErr h q = false → head < s.get (cqB h q) F.CQ_DEPTH →
    (head + s.get (cqB h q) F.CQ_DEPTH - (s.cq h q).head) % s.get (cqB h q) F.CQ_DEPTH ≤
      ((s.cq h q).post + s.get (cqB h q) F.CQ_DEPTH - (s.cq h q).head) % s.get (cqB h q) F.CQ_DEPTH →
    ∃ t, exec (.cqDoorbell h q head) s = .next t ∧ (t.cq h q).head = head) ∧
  (∀ (s : State) (h : Half) (words : List Nat) (list : List (Nat × Nat)), words.length = 16 → s.coreUp h = true →
    (s.hif h).stopped = false → ∀ e, (s.hif h).entries.head? = some e → e.sq < 256 → s.sqOn h e.sq = true →
    s.sqErr h e.sq = false →
    ∃ t, exec (.descriptorFetch h words list) s = .next t ∧ (t.hif h).entries = (s.hif h).entries.tail ∧
      (t.hif h).held.map (·.n) = (s.hif h).held.map (·.n) ++ [e.n] ∧
      t.get (sqB h e.sq) F.SQ_HEAD = (e.idx + 1) % max 1 (s.get (sqB h e.sq) F.SQ_DEPTH)) ∧
  (∀ (s : State) (h : Half) (words : List Nat) (list : List (Nat × Nat)), words.length = 16 → s.coreUp h = true →
    (s.hif h).stopped = false → ∀ e, (s.hif h).entries.head? = some e → e.sq < 256 → s.sqOn h e.sq = true →
    s.sqErr h e.sq = false → e.excess = true → s.cmd h e.n = none →
    ∃ t, exec (.descriptorFetch h words list) s = .next t ∧
      (t.outcome h e.n).map (fun r => (r.1, r.2.1)) = some (0x15, 0) ∧
      t.get (B.hif h) F.HIF_EVENTS_OVERCOMMIT = 1) ∧
  (∀ (s : State) (h : Half), s.coreUp h = true →
    (s.hif h).stopped = false → ∀ e, (s.hif h).entries.head? = some e → e.sq < 256 → s.sqOn h e.sq = true →
    s.sqErr h e.sq = false → e.excess = false → s.cmd h e.n = none →
    ∃ t, exec (.descriptorFetch h (List.replicate 16 0) []) s = .next t ∧
      (t.outcome h e.n).map (fun r => (r.1, r.2.1)) = some (0x10, 0)) ∧
  (∀ (s : State) (h : Half) (q : Nat), q < 256 → s.coreUp h = true → s.sqOn h q = false → s.sqErr h q = false →
    ∃ t, exec (.sqEnable h q) s = .next t ∧ t.sqOn h q = true ∧ t.get (sqB h q) F.SQ_HEAD = 0 ∧
      smGet 0 (t.hif h).tails q = 0 ∧
      t.sqErr h q = !(ringDepthOk (s.get (sqB h q) F.SQ_DEPTH) && s.cqOn h (s.get (sqB h q) F.SQ_CQID))) ∧
  (∀ (s : State) (h : Half) (q : Nat), q < 256 → s.coreUp h = true → s.cqOn h q = false → s.cqErr h q = false →
    ∃ t, exec (.cqEnable h q) s = .next t ∧ t.cqOn h q = true ∧ t.cq h q = Cq.reset ∧
      t.cqErr h q = !ringDepthOk (s.get (cqB h q) F.CQ_DEPTH)) ∧
  (∀ (s : State) (h : Half) (q : Nat), q < 256 → s.coreUp h = true → s.sqOn h q = true →
    ∃ t, exec (.ringDisable h false q) s = .next t ∧ t.sqOn h q = false ∧ t.sqErr h q = false ∧
      (t.hif h).held = (s.hif h).held ∧ (t.hif h).entries = (s.hif h).entries.filter (·.sq != q)) ∧
  (∀ (s : State) (h : Half) (q : Nat), q < 256 → s.coreUp h = true → s.cqOn h q = true →
    ∃ t, exec (.ringDisable h true q) s = .next t ∧ t.cqOn h q = false ∧ t.cqErr h q = false ∧
      (t.cq h q).waiting = []) ∧
  (∀ (s : State) (h : Half) (q : Nat) (v : Word), q < 256 → s.coreUp h = true → s.sqOn h q = false →
    exec (.ringChanged h false q 1 v) s = .next (s.put (sqB h q) F.SQ_BASE_HI v.toNat)) ∧
  (∀ (s : State) (h : Half) (q w : Nat) (v : Word), q < 256 → w < 3 → s.coreUp h = true → s.cqOn h q = true →
    ∃ t, exec (.ringChanged h true q w v) s = .next t ∧ t.cqErr h q = true ∧ (t.cq h q).waiting = [] ∧
      (w = 2 → t.get (cqB h q) F.CQ_DEPTH = v.toNat % 2 ^ 13)) ∧
  (∀ (s : State) (h : Half), s.coreUp h = true →
    ∃ t, exec (.lostLogClear h) s = .next t ∧ t.get (B.hif h) F.HIF_LOSTCNT_COUNT = 0 ∧
      t.get (B.hif h) F.HIF_LOSTCNT_OVF = 0 ∧
      ∀ i, i < 1024 → t.word (B.hif h + 0x5000 + 4 * i) = regReset (B.hif h + 0x5000 + 4 * i)) ∧
  (∀ (s : State) (h : Half) (q us : Nat), q < 256 → (s.cq h q).uncovered ≠ 0 → s.cqOn h q = true →
    s.bit (cqB h q) F.CQ_IEN = true → min1 (s.get (cqB h q) F.CQ_AGG_US) ≤ us →
    ∃ t, exec (.interruptAggTimeout h q us) s = .next t ∧ (t.cq h q).uncovered = 0 ∧
      (s.portUp h = true → s.msixWord h (s.get (cqB h q) F.CQ_VECTOR) 3 % 2 = 0 →
        smGet 0 t.msis (512 * h.toNat + s.get (cqB h q) F.CQ_VECTOR) =
          smGet 0 s.msis (512 * h.toNat + s.get (cqB h q) F.CQ_VECTOR) + 1)) ∧
  (∀ (s : State) (h : Half), s.coreUp h = true →
    ∃ t, exec (.lateCpl h true) s = .next t ∧ t.get (B.sdm h) F.SDM_EVENTS_LATE_CPL = 1) ∧
  (∀ (s : State) (h : Half), s.coreUp h = true →
    ∃ t, exec (.lateCpl h false) s = .next t ∧ t.get (B.hif h) F.HIF_EVENTS_LATE_CPL = 1)

/-- Starts and ends of commands (R328, R329, R345, R346, R349, R352 to R354, R358, R359, R362). -/
def Obligations.HostStartsAndEnds : Prop :=
  (∀ (s : State) (h : Half), s.coreUp h = true →
    ∀ c, (s.hostSettle.hif h).held.find? (s.hostSettle.canStart h) = some c → s.hostSettle.startBar h c = none →
    ∃ t, exec (.commandStart h) s = .next t ∧ (t.cmd h c.n).map (fun d => (d.started, d.words)) = some (true, c.words)) ∧
  (∀ (s : State) (h : Half) (n : Nat), ∀ c, s.cmd h n = some c → ∀ r, c.result = some r → c.dropped = false →
    s.portUp h = true → c.sq < 256 →
    s.cqOn h (s.get (sqB h c.sq) F.SQ_CQID) = true → s.cqErr h (s.get (sqB h c.sq) F.SQ_CQID) = false →
    s.cqFull h (s.get (sqB h c.sq) F.SQ_CQID) = false → (s.cq h (s.get (sqB h c.sq) F.SQ_CQID)).waiting = [] →
    ∃ t, exec (.completionPost h n) s = .next t ∧ t.cmd h n = none ∧
      (t.cq h (s.get (sqB h c.sq) F.SQ_CQID)).post =
        ((s.cq h (s.get (sqB h c.sq) F.SQ_CQID)).post + 1) %
          max 1 (s.get (cqB h (s.get (sqB h c.sq) F.SQ_CQID)) F.CQ_DEPTH)) ∧
  (∀ (s : State) (h : Half) (n : Nat), ∀ c, s.cmd h n = some c → c.hostReads = true →
    ∃ t, exec (.payloadTimeout h n) s = .next t ∧
      (t.outcome h n).map (fun r => (r.1, r.2.1)) = some (0x31, 0) ∧
      t.get (B.hif h) F.HIF_EVENTS_PAYLOAD_TMO = 1) ∧
  (∀ (s : State) (h : Half) (n : Nat) (data : List Byte), n ≠ 0 → ∀ c, s.cmd h n = some c → c.hostReads = true →
    ∃ t, exec (.hostAccess h n data) s = .next t ∧
      (t.outcome h n).map (fun r => (r.1, r.2.1)) = some (0x32, 0)) ∧
  (∀ (s : State) (h : Half) (u : Nat), u < 8 → ∀ op, (s.fmt (actId h u)).op = some op → op.rangeWait = true →
    (s.wick (actId h u)).desc = none →
    ∃ t, exec (.rateRangeTimeout h u) s = .next t ∧ (t.fmt (actId h u)).op = none) ∧
  (∀ (s : State) (h : Half),
    ∃ t, exec .halfLinkDown s = .next t ∧ t.board.halfLinkDown = true ∧ t.peerUp h = false ∧
      t.bit (B.hif h) F.HIF_STAT_PEER_UP = false) ∧
  (∀ (s : State) (h : Half),
    ∃ t, exec .halfLinkUp s = .next t ∧ t.board.halfLinkDown = false ∧
      t.bit (B.hif h) F.HIF_STAT_PEER_UP = s.coreUp h.other)

/-- Data commands (R332, R335 to R341, R345, R355, R356). -/
def Obligations.HostDataCommands : Prop :=
  (∀ (s : State) (h : Half) (n : Nat), ∀ c, (s.taken h n).running h n 1 = some c → ∀ m, (s.taken h n).ns h c.nsid = some m →
    m.ram = true →
    (List.range c.count).all (fun i => (List.range 64).all fun w =>
      !s.poisoned m.half (m.ramHa (c.lba + i) / 4096) w) = true →
    ∃ t, exec (.read h n []) s = .next t ∧ t.outcome h n = some (0, 0, c.count) ∧
      t.hostMem = (s.payloadWrite h c.segments (s.ramBytes m c.lba c.count)).hostMem) ∧
  (∀ (s : State) (h : Half) (n : Nat), ∀ c, (s.taken h n).running h n 1 = some c → ∀ m, (s.taken h n).ns h c.nsid = some m →
    m.ram = false → c.fail = none → c.left = 0 → c.lost = [] →
    (m.sectors c.lba c.count).all (fun x => ((s.taken h n).resident x.2.1 x.2.2).isSome) = true →
    ∃ t, exec (.read h n []) s = .next t ∧ t.outcome h n = some (0, 0, c.count)) ∧
  (∀ (s : State) (h : Half) (n : Nat) (data : List Byte), ∀ c, s.hostSettle.running h n 2 = some c →
    c.staged = false → data.length = 4096 * c.count → ∀ m, s.hostSettle.ns h c.nsid = some m → m.ram = true →
    ∃ t, exec (.writeStaged h n data none) s = .next t ∧ t.outcome h n = some (0, 0, c.count)) ∧
  (∀ (s : State) (h : Half) (n : Nat) (data : List Byte), ∀ c, s.hostSettle.running h n 2 = some c →
    c.staged = false → data.length = 4096 * c.count → ∀ m, s.hostSettle.ns h c.nsid = some m → m.ram = false →
    c.buffered = false →
    ∃ t, exec (.writeStaged h n data none) s = .next t ∧ (t.cmd h n).map (·.staged) = some true ∧
      t.outcome h n = none ∧
      (m.sectors c.lba c.count).all (fun x => (smFind t.staging (sectorKey x.2.1 x.2.2)).isSome) = true) ∧
  (∀ (s : State) (h : Half) (n : Nat) (data : List Byte), ∀ c, s.hostSettle.running h n 2 = some c →
    c.staged = false → data.length = 4096 * c.count → ∀ m, s.hostSettle.ns h c.nsid = some m → m.ram = false →
    c.buffered = true →
    ∃ t, exec (.writeStaged h n data none) s = .next t ∧ t.outcome h n = some (0, 0, c.count) ∧
      t.buffered.getLast?.map (fun b => (b.n, b.port, b.posted)) = some (n, h, false)) ∧
  (∀ (s : State) (h : Half) (n : Nat), ∀ c, (s.taken h n).running h n 2 = some c → ∀ m, (s.taken h n).ns h c.nsid = some m →
    c.staged = true → c.issued = false →
    ((s.taken h n).stripesAt (m.sectors c.lba c.count)).all (fun g => ((s.taken h n).mediaBar h g.1).isNone) = true →
    ∃ t, exec (.write h n) s = .next t ∧ (t.cmd h n).map (fun d => (d.issued, d.left)) =
      some (true, c.left + (stripeRuns ((s.taken h n).stripesAt (m.sectors c.lba c.count))).length)) ∧
  (∀ (s : State) (h : Half) (n : Nat), ∀ c, (s.taken h n).running h n 2 = some c → ∀ m, (s.taken h n).ns h c.nsid = some m →
    c.staged = true → c.issued = true → c.left = 0 → c.fail = none → c.lost = [] →
    ((s.taken h n).stripesAt (m.sectors c.lba c.count)).any (s.taken h n).stripeBusy = false →
    ∃ t, exec (.write h n) s = .next t ∧ t.outcome h n = some (0, 0, c.count)) ∧
  (∀ (s : State) (h : Half) (n : Nat), ∀ c, (s.taken h n).running h n 3 = some c → ∀ m, (s.taken h n).ns h c.nsid = some m →
    c.issued = true → c.left = 0 → c.fail = none → c.lost = [] →
    ∃ t, exec (.verify h n) s = .next t ∧ t.outcome h n = some (0, 0, c.count)) ∧
  (∀ (s : State) (h : Half) (n : Nat), ∀ c, s.hostSettle.running h n 4 = some c → c.issued = false →
    s.hostSettle.coverOf h c = [] →
    ∃ t, exec (.flush h n) s = .next t ∧ t.outcome h n = some (0, 0, 0)) ∧
  (∀ (s : State) (h : Half) (n : Nat), ∀ c, (s.taken h n).running h n 5 = some c → ∀ m, (s.taken h n).ns h c.nsid = some m →
    m.ram = true →
    ∃ t, exec (.trim h n) s = .next t ∧ t.outcome h n = some (0, 0, c.count)) ∧
  (∀ (s : State) (h : Half) (n : Nat), ∀ c, (s.taken h n).running h n 5 = some c → ∀ m, (s.taken h n).ns h c.nsid = some m →
    m.ram = false → c.issued = false →
    (stripesOf (m.sectors c.lba c.count)).all (fun k =>
      ((m.sectors c.lba c.count).filter fun x => stripeKey x.2.1 x.2.2 == k).length == 60) = true →
    ∃ t, exec (.trim h n) s = .next t ∧ t.outcome h n = some (0, 0, c.count) ∧
      (stripesOf (m.sectors c.lba c.count)).all (fun k => smGet false t.trims k) = true) ∧
  (∀ (s : State) (h : Half) (n : Nat), ∀ c, (s.taken h n).running h n 8 = some c → ∀ m, (s.taken h n).ns h c.nsid = some m →
    c.fail = none → c.left = 0 → c.lost = [] → (m.sectors c.lba c.count).length ≤ (s.taken h n).pinRoom .a →
    (m.sectors c.lba c.count).length ≤ (s.taken h n).pinRoom .b →
    (m.sectors c.lba c.count).all (fun x => ((s.taken h n).resident x.2.1 x.2.2).isSome) = true →
    ∃ t, exec (.pin h n) s = .next t ∧ t.outcome h n = some (0, 0,
        ((m.sectors c.lba c.count).filter fun x => (smFind s.pinned (sectorKey x.2.1 x.2.2)).isNone).length) ∧
      (m.sectors c.lba c.count).all (fun x => (smFind t.pinned (sectorKey x.2.1 x.2.2)).isSome) = true) ∧
  (∀ (s : State) (h : Half) (n : Nat), ∀ c, s.running h n 9 = some c → ∀ m, s.ns h c.nsid = some m →
    ∃ t, exec (.unpin h n) s = .next t ∧ t.outcome h n = some (0, 0,
        ((keysOf (m.sectors c.lba c.count)).filter fun k => (smFind s.pinned k).isSome).length) ∧
      (keysOf (m.sectors c.lba c.count)).all (fun k => (smFind t.pinned k).isNone) = true) ∧
  (∀ (s : State) (h : Half) (n : Nat), ∀ c, (s.taken h n).running h n 10 = some c → ∀ m, (s.taken h n).ns h c.nsid = some m →
    c.fail = none → c.left = 0 → c.lost = [] →
    (m.sectors c.lba c.count).all (fun x => ((s.taken h n).resident x.2.1 x.2.2).isSome) = true →
    ∃ t, exec (.prefetch h n) s = .next t ∧ t.outcome h n = some (0, 0, c.brought.length)) ∧
  (∀ (s : State) (h : Half) (n : Nat), ∀ c, s.running h n 16 = some c →
    ∃ t, exec (.setClass h n) s = .next t ∧
      t.get (spnB c.hda) F.SPN_CTL_EMBER = c.dw 8 % 2 ∧
      (t.outcome h n).map (fun r => (r.2.1, r.2.2)) = some (0, t.spnTarget c.hda)) ∧
  (∀ (s : State) (h : Half) (n : Nat), ∀ c, s.running h n 17 = some c →
    ∃ t, exec (.setEmberRate h n) s = .next t ∧
      t.get (spnB c.hda) F.SPN_TARGET_EMBER_RPM = c.dw 8 % 2 ^ 13 ∧
      (t.outcome h n).map (fun r => (r.2.1, r.2.2)) = some (0, t.spnTarget c.hda))

/-- ADMIN (R177, R178, R332, R333, R342 to R344, R416, R417). -/
def Obligations.HostAdministration : Prop :=
  (∀ (s : State) (h : Half) (n : Nat), ∀ c, s.admin h n 1 = some c →
    ∃ t, exec (.identify h n) s = .next t ∧ (t.outcome h n).map (fun r => (r.1, r.2.1)) = some (0, 0) ∧
      t.hostMem = (s.payloadWrite h c.segments (s.identifyData h)).hostMem) ∧
  (∀ (s : State) (h : Half) (n : Nat), ∀ c, s.admin h n 2 = some c → c.dw 8 = 1 →
    ∃ t, exec (.logRead h n) s = .next t ∧ (t.outcome h n).map (fun r => (r.1, r.2.1)) = some (0, 0) ∧
      t.hostMem = (s.payloadWrite h c.segments (cutTo (c.dw 9) (s.lostLogBytes h))).hostMem ∧
      (c.dw 10 % 2 = 1 → t.get (B.hif h) F.HIF_LOSTCNT_COUNT = 0)) ∧
  (∀ (s : State) (h : Half) (n : Nat) (tables : List (List Byte × List Byte × List (Nat × Nat))),
    ∀ c, s.hostSettle.admin h n 3 = some c → c.phase = 0 → c.hda < 8 → s.hostSettle.portState c.hda = 3 →
    s.mantleServes = true → (s.hostSettle.claimOne (homeHalf c.hda) c.hda).1 = 0 →
    ∃ t, exec (.hdaAttach h n tables) s = .next t ∧ (t.cmd h n).map (·.phase) = some 1 ∧ t.portState c.hda = 4) ∧
  (∀ (s : State) (h : Half) (n : Nat), ∀ c, s.hostSettle.admin h n 3 = some c →
    c.phase = 4 → s.hostSettle.attachBar c.hda = none → c.fail = none → (s.hostSettle.lockTables c.hda).2 = true →
    s.srvState (2 * c.hda) = 3 → s.srvState (2 * c.hda + 1) = 3 →
    ∃ t, exec (.hdaAttach h n []) s = .next t ∧ (t.outcome h n).map (fun r => (r.1, r.2.1)) = some (0, 0)) ∧
  (∀ (s : State) (h : Half) (n : Nat), ∀ c, s.hostSettle.admin h n 4 = some c → c.phase = 0 → c.hda < 8 →
    s.hostSettle.portState c.hda = 4 →
    ∃ t, exec (.hdaDetach h n) s = .next t ∧ (t.cmd h n).map (·.phase) = some 1 ∧ t.isAttached c.hda = false) ∧
  (∀ (s : State) (h : Half) (n : Nat), ∀ c, s.hostSettle.admin h n 4 = some c → c.phase = 4 → c.hda < 8 →
    s.hostSettle.portState c.hda = 4 → s.hostSettle.quiet c.hda = true → (s.hostSettle.port c.hda).supply = false →
    (s.pa (2 * c.hda)).cur = none → (s.pa (2 * c.hda)).queue = [] → (s.pa (2 * c.hda + 1)).cur = none →
    (s.pa (2 * c.hda + 1)).queue = [] →
    ∃ t, exec (.hdaDetach h n) s = .next t ∧ t.portState c.hda = 3 ∧
      (t.outcome h n).map (fun r => (r.1, r.2.1)) = some (0, 0)) ∧
  (∀ (s : State) (h x : Half) (n : Nat), ∀ c, s.admin h n 5 = some c → 0 < c.nsid → c.nsid ≤ 64 → s.coreUp x = true →
    s.nsRefuse c.nsid (c.dw 8 % 2 == 1) (halfOf (c.dw 10 % 2)) ((List.range 32).filter (c.dw 9).testBit)
      (c.dw 11 % 65536) (c.dw 11 / 65536) = none →
    ∃ t, exec (.nsCreate h n) s = .next t ∧ (t.outcome h n).map (fun r => (r.1, r.2.1)) = some (0, 0) ∧
      (t.ns x c.nsid).map (fun m => (m.ram, m.half, m.units, m.base, m.size)) =
        some (c.dw 8 % 2 == 1, halfOf (c.dw 10 % 2), (List.range 32).filter (c.dw 9).testBit, c.dw 11 % 65536,
          c.dw 11 / 65536)) ∧
  (∀ (s : State) (h x : Half) (n : Nat), ∀ c, s.hostSettle.admin h n 6 = some c → s.coreUp x = true →
    (s.hostSettle.ns s.hostSettle.nsDecides c.nsid).isSome = true →
    s.hostSettle.buffered.any (·.nsid == c.nsid) = false →
    ∃ t, exec (.nsDelete h n) s = .next t ∧ (t.outcome h n).map (fun r => (r.1, r.2.1)) = some (0, 0) ∧
      t.ns x c.nsid = none) ∧
  (∀ (s : State) (h : Half) (n : Nat) (errs : List WordErr), ∀ c, s.admin h n 7 = some c → c.phase = 0 → c.dw 8 = 1 →
    c.dw 9 < 2 ^ 29 → (s.resv h).retire = none → c.dw 9 / 2 ^ 14 < s.get (B.buf h 0) F.BUF_DATATOP_TOP →
    c.dw 9 ∉ (s.resv h).remap → (s.resv h).remap.length < 4096 → s.touched h (c.dw 9) = false →
    ∃ t, exec (.retire h n errs) s = .next t ∧ (t.outcome h n).map (fun r => (r.1, r.2.1)) = some (0, 0) ∧
      c.dw 9 ∈ (t.resv h).remap) ∧
  (∀ (s : State) (h : Half) (n : Nat) (bytes : List Byte), ∀ c, s.admin h n 8 = some c →
    s.imageReady h c bytes = true →
    ∃ t, exec (.firmwareLoad h n bytes) s = .next t ∧
      (t.outcome h n).map (fun r => (r.1, r.2.1)) =
        some (if s.imageStatus 1 bytes = 0 then (0, 0) else (0x40, s.imageStatus 1 bytes - 8))) ∧
  (∀ (s : State) (h : Half) (n : Nat) (bytes : List Byte), ∀ c, s.admin h n 9 = some c → c.phase = 0 →
    s.imageReady h c bytes = true →
    ∃ t, exec (.microcodeLoad h n bytes) s = .next t ∧
      (if s.imageStatus 3 bytes = 0 then (t.cmd h n).map (·.phase) = some 1
       else (t.outcome h n).map (fun r => (r.1, r.2.1)) = some (0x40, s.imageStatus 3 bytes - 8))) ∧
  (∀ (s : State) (h : Half) (n : Nat), ∀ c, s.admin h n 9 = some c → c.phase = 1 →
    ∀ img, s.mcore.wickPatch = some img →
    (List.range 16).all (fun ai => !s.patchable ai ||
      s.get (wckB ai) F.WCK_ID_PATCH_LEVEL == patchLevel img.bytes) = true →
    ∃ t, exec (.microcodeLoad h n []) s = .next t ∧ (t.outcome h n).map (fun r => (r.1, r.2.1)) = some (0, 0))

/-- Descriptors of the service DMA (R374 to R382, R385 to R387). -/
def Obligations.SdmDescriptors : Prop :=
  (∀ (s : State) (h : Half) (words : List Nat) (ue : Option Nat), words.length = 8 → s.sdmUp h = true →
    s.bit (B.sdm h) F.SDM_CTL_EN = true → (s.sdm h).turn = none → (s.sdm h).desc = none → (s.sdm h).held = [] →
    s.portUp h = true →
    ∀ c, ((List.range 4).map fun i => (s.get (B.sdm h) F.SDM_STAT_CH_NOW + 1 + i) % 4).find?
      (fun c => s.sdmChState h c == 1 && s.sdmWaits h c) = some c →
    s.bit (sdmCh h c) F.SDM_CHCFG_DSPACE = false →
    ∃ t, exec (.sdmTakeChannel h words ue) s = .next t ∧
      (t.sdm h).turn = some (c, s.get (sdmCh h c) F.SDM_DRTAIL_TAIL) ∧ (t.sdm h).desc = some words ∧
      t.sdmChState h c = 2 ∧ t.get (B.sdm h) F.SDM_STAT_CH_NOW = c) ∧
  (∀ (s : State) (h : Half) (ue : Option Nat), s.sdmUp h = true →
    s.bit (B.sdm h) F.SDM_CTL_EN = true → (s.sdm h).turn = none → (s.sdm h).desc = none → (s.sdm h).held = [] →
    ∀ c, ((List.range 4).map fun i => (s.get (B.sdm h) F.SDM_STAT_CH_NOW + 1 + i) % 4).find?
      (fun c => s.sdmChState h c == 1 && s.sdmWaits h c) = some c →
    s.bit (sdmCh h c) F.SDM_CHCFG_DSPACE = true →
    s.sdmWordFail h (s.sdmRing h c false (s.get (sdmCh h c) F.SDM_DRTAIL_HEAD)) true ue = none →
    ∃ t, exec (.sdmTakeChannel h [] ue) s = .next t ∧ t.sdmChState h c = 2 ∧
      (t.sdm h).desc = some ((List.range 8).map fun i => bytesLE ((List.range 4).map fun j =>
        s.bufByte (s.sdmRing h c false (s.get (sdmCh h c) F.SDM_DRTAIL_HEAD) + 4 * i + j)))) ∧
  (∀ (s : State) (h : Half) (data : List Byte) (ue : Option Nat) (next : List Nat), ∀ r, (s.sdm h).turn = some r →
    r.1 < 4 → ∀ w, (s.sdm h).desc = some w → (sdmDesc w).bad = true →
    ∃ t, exec (.sdmDescriptorEnd h data ue next) s = .next t ∧ t.sdmChState h r.1 = 3 ∧ (t.sdm h).turn = none ∧
      (t.sdm h).desc = none ∧ t.get (B.sdm h) F.SDM_ERRINFO_STATUS = 1 ∧ t.get (B.sdm h) F.SDM_ERRINFO_CH = r.1 ∧
      t.get (B.sdm h) F.SDM_EVENTS_ERROR = 1 ∧
      (s.bit (sdmCh h r.1) F.SDM_CHCFG_CSPACE = false → t.dram = s.dram)) ∧
  (∀ (s : State) (h : Half) (data : List Byte) (next : List Nat), ∀ r, (s.sdm h).turn = some r → r.1 < 4 →
    ∀ w, (s.sdm h).desc = some w → (sdmDesc w).bad = false → (sdmDesc w).srcSpace = 1 → (sdmDesc w).dstSpace = 1 →
    s.sdmFails h (sdmDesc w) none = none → s.tableHit (sdmDesc w).dst (sdmDesc w).len = false →
    s.bit (sdmCh h r.1) F.SDM_CHCFG_CSPACE = false → s.sdmCqFull h r.1 = false →
    ∃ t, exec (.sdmDescriptorEnd h data none next) s = .next t ∧
      t.get (sdmCh h r.1) F.SDM_DRTAIL_HEAD = (s.get (sdmCh h r.1) F.SDM_DRTAIL_HEAD + 1) % max 1 (s.ddepth h r.1) ∧
      t.dram = (s.sdmStore (sdmDesc w).dst (swapBytes (sdmDesc w).swap
        ((List.range (sdmDesc w).len).map fun i => s.bufByte ((sdmDesc w).src + i)))).dram) ∧
  (∀ (s : State) (h : Half) (data : List Byte) (next : List Nat), ∀ r, (s.sdm h).turn = some r → r.1 < 4 →
    ∀ w, (s.sdm h).desc = some w → (sdmDesc w).bad = false → (sdmDesc w).srcSpace = 0 → (sdmDesc w).dstSpace = 1 →
    (sdmDesc w).len ≤ data.length → s.bit (sdmCh h r.1) F.SDM_CHCFG_DSPACE = false →
    s.sdmFails h (sdmDesc w) none = none → s.tableHit (sdmDesc w).dst (sdmDesc w).len = false →
    s.bit (sdmCh h r.1) F.SDM_CHCFG_CSPACE = false → s.sdmCqFull h r.1 = false →
    ∃ t, exec (.sdmDescriptorEnd h data none next) s = .next t ∧
      t.get (sdmCh h r.1) F.SDM_CQHEAD_POST = (s.get (sdmCh h r.1) F.SDM_CQHEAD_POST + 1) % max 1 (s.cdepth h r.1) ∧
      t.dram = (s.sdmStore (sdmDesc w).dst (swapBytes (sdmDesc w).swap (data.take (sdmDesc w).len))).dram) ∧
  (∀ (s : State) (h : Half) (data : List Byte) (next : List Nat), ∀ r, (s.sdm h).turn = some r → r.1 < 4 →
    ∀ w, (s.sdm h).desc = some w → (sdmDesc w).bad = false → (sdmDesc w).srcSpace = 1 → (sdmDesc w).dstSpace = 0 →
    s.sdmFails h (sdmDesc w) none = none → s.sdmCqFull h r.1 = true →
    ∃ t, exec (.sdmDescriptorEnd h data none next) s = .next t ∧ t.dram = s.dram ∧
      t.get (B.sdm h) F.SDM_EVENTS_CQ_FULL = 1 ∧ (smFind (t.sdm h).held r.1).isSome = true ∧
      t.hostMem = (s.hostWrite h (sdmDesc w).dst (swapBytes (sdmDesc w).swap
        ((List.range (sdmDesc w).len).map fun i => s.bufByte ((sdmDesc w).src + i)))).hostMem) ∧
  (∀ (s : State) (h : Half) (data : List Byte) (ue : Option Nat) (next : List Nat), ∀ w, (s.sdm h).desc = some w →
    (sdmDesc w).bad = false → (sdmDesc w).srcSpace = 0 → data.length < (sdmDesc w).len →
    s.sdmFails h (sdmDesc w) ue = none → s.tableHit (sdmDesc w).dst (sdmDesc w).len = false →
    exec (.sdmDescriptorEnd h data ue next) s = .next s) ∧
  (∀ (s : State) (h : Half) (data : List Byte) (ue : Option Nat) (next : List Nat), (s.sdm h).turn ≠ none →
    ∀ w, (s.sdm h).desc = some w → (sdmDesc w).bad = false → (sdmDesc w).dstSpace = 1 →
    s.tableHit (sdmDesc w).dst (sdmDesc w).len = true →
    exec (.sdmDescriptorEnd h data ue next) s = .fault (.outsideSpecification "R381")) ∧
  (∀ (s : State) (h : Half) (data : List Byte), ∀ r, (s.sdm h).turn = some r → r.1 < 4 →
    ∀ w, (s.sdm h).desc = some w → (sdmDesc w).bad = false → (sdmDesc w).srcSpace = 0 →
    s.sdmFails h (sdmDesc w) none = none → data.length < (sdmDesc w).len →
    ∃ t, exec (.sdmHostTimeout h data) s = .next t ∧ t.sdmChState h r.1 = 3 ∧
      t.get (B.sdm h) F.SDM_EVENTS_HOST_TMO = 1 ∧ t.get (B.sdm h) F.SDM_ERRINFO_STATUS = 6 ∧
      (t.sdm h).turn = none ∧ (t.sdm h).desc = none) ∧
  (∀ (s : State) (h : Half) (data : List Byte), ∀ r, (s.sdm h).turn = some r → r.1 < 4 → (s.sdm h).desc = none →
    s.bit (sdmCh h r.1) F.SDM_CHCFG_DSPACE = false →
    ∃ t, exec (.sdmHostTimeout h data) s = .next t ∧ t.sdmChState h r.1 = 3 ∧
      t.get (B.sdm h) F.SDM_EVENTS_HOST_TMO = 1 ∧ t.get (B.sdm h) F.SDM_ERRINFO_STATUS = 6 ∧
      t.get (sdmCh h r.1) F.SDM_DRTAIL_HEAD = s.get (sdmCh h r.1) F.SDM_DRTAIL_HEAD)

/-- Channel control of the service DMA (R386, R390, R391). -/
def Obligations.SdmChannelControl : Prop :=
  (∀ (s : State) (h : Half) (c : Nat), c < 4 → s.sdmUp h = true → s.bit (sdmCh h c) F.SDM_CHCTL_EN = false →
    ∃ t, exec (.sdmChannelEnable h c) s = .next t ∧ t.bit (sdmCh h c) F.SDM_CHCTL_EN = true ∧
      t.get (sdmCh h c) F.SDM_DRTAIL_TAIL = 0 ∧ t.get (sdmCh h c) F.SDM_DRTAIL_HEAD = 0 ∧
      t.get (sdmCh h c) F.SDM_CQHEAD_HEAD = 0 ∧ t.get (sdmCh h c) F.SDM_CQHEAD_POST = 0 ∧
      (if sdmDepthOk (s.ddepth h c) = true ∧ sdmDepthOk (s.cdepth h c) = true then t.sdmChState h c = 1
       else t.sdmChState h c = 3 ∧ t.get (B.sdm h) F.SDM_ERRINFO_STATUS = 1 ∧
        t.get (B.sdm h) F.SDM_ERRINFO_CH = c)) ∧
  (∀ (s : State) (h : Half) (c : Nat), c < 4 → s.sdmUp h = true → s.sdmChState h c = 3 →
    sdmDepthOk (s.ddepth h c) = true → sdmDepthOk (s.cdepth h c) = true →
    ∃ t, exec (.resume h c) s = .next t ∧ t.sdmChState h c = 1 ∧
      t.get (sdmCh h c) F.SDM_DRTAIL_HEAD = s.get (sdmCh h c) F.SDM_DRTAIL_HEAD ∧
      (t.get (B.sdm h) F.SDM_STAT_HALTED).testBit c = false) ∧
  (∀ (s : State) (h : Half) (c moved : Nat) (data : List Byte), c < 4 → s.sdmUp h = true →
    s.bit (sdmCh h c) F.SDM_CHCTL_EN = true →
    ∃ t, exec (.sdmChannelDisable h c moved data) s = .next t ∧ t.bit (sdmCh h c) F.SDM_CHCTL_EN = false ∧
      t.sdmChState h c = 0 ∧ t.get (sdmCh h c) F.SDM_DRTAIL_HEAD = 0 ∧ t.get (sdmCh h c) F.SDM_DRTAIL_TAIL = 0 ∧
      smFind (t.sdm h).held c = none ∧
      (∀ r, (s.sdm h).turn = some r → r.1 = c → (t.sdm h).turn = none ∧
        ((s.sdm h).desc ≠ none → t.get (B.sdm h) F.SDM_ERRINFO_STATUS = 0x0A))) ∧
  (∀ (s : State) (h : Half) (c : Nat) (v : Word) (moved : Nat) (data : List Byte), c < 4 → s.sdmUp h = true →
    s.bit (sdmCh h c) F.SDM_CHCTL_EN = false →
    exec (.sdmChannelReconfig h c 2 v moved data) s =
      .next (s.setWord (sdmCh h c + 0x1008) (v &&& 0xFFFFFFF0))) ∧
  (∀ (s : State) (h : Half) (c w : Nat) (v : Word) (moved : Nat) (data : List Byte), c < 4 → w < 5 → s.sdmUp h = true →
    s.bit (sdmCh h c) F.SDM_CHCTL_EN = true →
    ∃ t, exec (.sdmChannelReconfig h c w v moved data) s = .next t ∧ t.sdmChState h c = 3 ∧
      t.get (sdmCh h c) F.SDM_DRTAIL_HEAD = 0 ∧ t.get (sdmCh h c) F.SDM_DRTAIL_TAIL = 0 ∧
      (w = 1 → t.word (sdmCh h c + 0x1004) = v))

/-- CLAIM, RELEASE, RETRACT and the mailbox itself (R395 to R397, R399, R400, R402, R406 to R408). -/
def Obligations.MailboxOwnership : Prop :=
  (∀ (s : State) (h : Half) (seq hd : Nat), hd < 8 → s.mbIdle h = true →
    ∃ t, exec (.claim h seq (2 ^ hd) 0) s = .next t ∧
      t.mbAnswered h seq (if s.hdaDark hd = true then 2 else if s.seated hd = false then 4
        else if homeHalf hd ≠ h ∧ s.strapBit 1 = false then 5 else if s.owns h.other hd = true then 3 else 0) = true) ∧
  (∀ (s : State) (h : Half) (seq hd : Nat), hd < 8 → s.mbIdle h = true → s.hdaDark hd = false → s.seated hd = true →
    (homeHalf hd = h ∨ s.strapBit 1 = true) → s.ownerOf hd = 0 →
    ∃ t, exec (.claim h seq (2 ^ hd) 0) s = .next t ∧ t.owns h hd = true ∧ t.mbAnswered h seq 0 = true ∧
      t.get (B.mbx h) F.MNT_MBRESP_RESULT = t.ownedMask h ∧
      t.maskBit B.mnt F.MNT_RETSTAT_RETDONE (2 * hd) = false ∧
      t.maskBit B.mnt F.MNT_RETSTAT_RETTMO (2 * hd + 1) = false) ∧
  (∀ (s : State) (h : Half) (seq hd : Nat), hd < 8 → s.mbIdle h = true → s.hdaDark hd = false → s.owns h hd = true →
    ∃ t, exec (.release h seq (2 ^ hd) 0) s = .next t ∧ t.ownerOf hd = 0 ∧ t.mbAnswered h seq 0 = true ∧
      t.get (B.mbx h) F.MNT_MBRESP_RESULT = 2 ^ hd ∧ t.get B.mnt F.MNT_LASTCAUSE_CAUSE = 2 ∧
      t.get B.mnt F.MNT_LASTCAUSE_HDA = hd ∧ t.bit (B.mbx h) F.MNT_MBEVENTS_REVOKED = true) ∧
  (∀ (s : State) (h : Half) (seq hd : Nat), hd < 8 → s.mbIdle h = true → s.hdaDark hd = false → s.owns h hd = false →
    ∃ t, exec (.release h seq (2 ^ hd) 0) s = .next t ∧ t.ownerOf hd = s.ownerOf hd ∧ t.mbAnswered h seq 6 = true ∧
      t.get (B.mbx h) F.MNT_MBRESP_RESULT = 0) ∧
  (∀ (s : State) (h : Half) (seq ai : Nat), ai < 16 → s.mbIdle h = true → s.hdaDark (actHda ai) = false →
    s.owns h (actHda ai) = true → s.loaded ai = true → s.retracting ai = false →
    ∃ t, exec (.retract h seq (2 ^ ai) 0) s = .next t ∧ t.retracting ai = true ∧ t.mbAnswered h seq 0 = true ∧
      t.get (B.mbx h) F.MNT_MBRESP_RESULT = 2 ^ ai ∧ t.get (brgB (actHda ai)) (vcmFld ai) = 2) ∧
  (∀ (s : State) (h : Half) (seq a0 a1 : Nat), s.coreUp h = true → s.mantleUp = true →
    s.bit (B.mbx h) F.MNT_MBRESP_DONE = false →
    ∃ t, exec (.claim h seq a0 a1) s = .next t ∧ t.bit (B.mbx h) F.MNT_MBEVENTS_MB_OVERRUN = true ∧
      t.mcore = s.mcore ∧ t.mhalf = s.mhalf ∧ ∀ hd, hd < 8 → t.ownerOf hd = s.ownerOf hd) ∧
  (∀ (s : State) (h : Half) (seq a0 a1 : Nat), s.coreUp h = true → s.mantleUp = true → s.mantleServes = false →
    s.bit (B.mbx h) F.MNT_MBRESP_DONE = true →
    ∃ t, exec (.release h seq a0 a1) s = .next t ∧ t.bit (B.mbx h) F.MNT_MBRESP_DONE = false ∧
      t.mcore.order = s.mcore.order ++ [h] ∧
      (t.mh h.toNat).req = some ⟨2, seq % 16, a0 % 2 ^ 32, a1 % 2 ^ 32⟩)

/-- WD_CONFIG, the intake, NEXT_SLOT and BAD_OP (R395, R396, R411, R413 to R417). -/
def Obligations.MailboxServices : Prop :=
  (∀ (s : State) (h : Half) (seq p : Nat), s.mbIdle h = true → 10 ≤ p → p ≤ 1000 →
    ∃ t, exec (.wdConfig h seq p 0) s = .next t ∧ t.get B.mnt (wdPeriod h) = p ∧ t.mbAnswered h seq 0 = true ∧
      t.get (B.mbx h) F.MNT_MBRESP_RESULT = p) ∧
  (∀ (s : State) (h : Half) (seq p : Nat), s.mbIdle h = true → (p < 10 ∨ 1000 < p) → p < 2 ^ 32 →
    ∃ t, exec (.wdConfig h seq p 0) s = .next t ∧ t.get B.mnt (wdPeriod h) = s.get B.mnt (wdPeriod h) ∧
      t.mbAnswered h seq 2 = true) ∧
  (∀ (s : State) (h : Half) (seq type len : Nat), s.mbIdle h = true → 1 ≤ type → type ≤ 3 → 164 ≤ len → len ≤ 4194304 →
    len % 4 = 0 → (∀ k, s.mcore.intake = some k → k.half = h ∧ k.checking = false) →
    ∃ t, exec (.intakeOpen h seq type len) s = .next t ∧ t.mbAnswered h seq 0 = true ∧
      t.mcore.intake = some ⟨h, type, len, [], false⟩ ∧ t.get B.mnt F.MNT_INTAKE_STATE = h.toNat + 1 ∧
      t.get B.mnt F.MNT_INTAKE_TYPE = type) ∧
  (∀ (s : State) (h : Half) (seq type len : Nat), s.mbIdle h = true → 1 ≤ type → type ≤ 3 → 164 ≤ len → len ≤ 4194304 →
    len % 4 = 0 → ∀ k, s.mcore.intake = some k → (k.half ≠ h ∨ k.checking = true) →
    ∃ t, exec (.intakeOpen h seq type len) s = .next t ∧ t.mbAnswered h seq 7 = true ∧ t.mcore.intake = some k) ∧
  (∀ (s : State) (h : Half) (seq slot : Nat), s.mbIdle h = true → slot < 2 →
    ∀ k, s.mcore.intake = some k → k.half = h → k.checking = false → k.type = 1 →
    ∃ t, exec (.intakeCheck h seq slot 0) s = .next t ∧ t.mbAnswered h seq (s.imageStatus 1 k.data) = true ∧
      t.mcore.intake = none ∧ t.get B.mnt F.MNT_INTAKE_STATE = 0 ∧
      (s.imageStatus 1 k.data = 0 → t.bit B.mnt (fwValid slot) = true ∧
        (smFind t.mcore.slots slot).map (·.bytes) = some k.data)) ∧
  (∀ (s : State) (h : Half) (seq : Nat), s.mbIdle h = true →
    ∀ k, s.mcore.intake = some k → k.half = h → k.checking = false → s.imageStatus k.type k.data ≠ 0 →
    ∃ t, exec (.intakeCheck h seq 0 0) s = .next t ∧ t.mbAnswered h seq (s.imageStatus k.type k.data) = true ∧
      t.mcore.intake = none ∧ t.mcore.slots = s.mcore.slots ∧ t.mcore.wickPatch = s.mcore.wickPatch ∧
      t.get B.mnt F.MNT_LASTREJ_TYPE = k.type % 4) ∧
  (∀ (s : State) (h : Half) (seq : Nat), s.mbIdle h = true →
    ∀ k, s.mcore.intake = some k → k.half = h → k.checking = false → k.type = 2 →
    ∃ t, exec (.intakeCheck h seq 0 0) s = .next t ∧ (s.imageStatus 2 k.data = 0 → t.mcore.coreUp = false ∧
      t.bit (B.mbx h) F.MNT_MBRESP_DONE = false ∧ t.get B.mnt F.MNT_INTAKE_STATE = 3)) ∧
  (∀ (s : State) (h : Half) (seq : Nat), s.mbIdle h = true → (s.intakeOf h).isSome = true →
    ∃ t, exec (.intakeCancel h seq 0 0) s = .next t ∧ t.mbAnswered h seq 0 = true ∧ t.mcore.intake = none ∧
      t.get B.mnt F.MNT_INTAKE_STATE = 0) ∧
  (∀ (s : State) (h : Half) (seq : Nat), s.mbIdle h = true → s.intakeOf h = none →
    ∃ t, exec (.intakeCancel h seq 0 0) s = .next t ∧ t.mbAnswered h seq 8 = true ∧ t.mcore.intake = s.mcore.intake) ∧
  (∀ (s : State) (h : Half) (seq k : Nat), s.mbIdle h = true → k < 2 →
    ∃ t, exec (.nextSlot h seq k 0) s = .next t ∧ t.mbAnswered h seq 0 = true ∧ (t.mh h.toNat).nextSlot = some k ∧
      t.bit B.mnt (fwNext h) = true) ∧
  (∀ (s : State) (h : Half) (op seq a0 a1 : Nat), s.mbIdle h = true → (op = 0 ∨ 9 ≤ op) → op < 256 →
    ∃ t, exec (.badOp h op seq a0 a1) s = .next t ∧ t.mbAnswered h seq 1 = true ∧
      t.mcore = s.mcore ∧ ∀ hd, hd < 8 → t.ownerOf hd = s.ownerOf hd)

/-- Polls and leases (R401, R402, R405) and the intake's timeout (R415). -/
def Obligations.LeasesAndPolls : Prop :=
  (∀ (s : State), ∀ k, s.mcore.intake = some k → k.checking = false →
    ∃ t, exec .intakeTimeout s = .next t ∧ t.mcore.intake = none ∧ t.get B.mnt F.MNT_INTAKE_STATE = 0 ∧
      t.get B.mnt F.MNT_INTAKE_LEN = 0) ∧
  (∀ (s : State), ∀ k, s.mcore.intake = some k → k.checking = true → exec .intakeTimeout s = .next s) ∧
  (∀ (s : State) (h : Half), s.mantleUp = true →
    ∃ t, exec .pollTick s = .next t ∧ t.get B.mnt F.MNT_MISS_POLL = (s.get B.mnt F.MNT_MISS_POLL + 1) % 256 ∧
      (t.mh h.toNat).windowOpen = true ∧ (t.mh h.toNat).answer = none ∧
      (s.coreUp h = true → t.get (B.mbx h) F.MNT_POLL_POLL = t.get B.mnt F.MNT_MISS_POLL ∧
        t.get (B.mbx h) F.MNT_POLL_OWNED = s.ownedMask h ∧ t.bit (B.mbx h) F.MNT_MBEVENTS_POLL = true)) ∧
  (∀ (s : State) (h : Half) (held echo : Nat), s.coreUp h = true → (s.mh h.toNat).windowOpen = true →
    echo % 256 = s.get B.mnt F.MNT_MISS_POLL →
    ∃ t, exec (.leaseWrite h held echo) s = .next t ∧ (t.mh h.toNat).answer = some (held % 256) ∧
      t.bit (B.mbx h) F.MNT_MBEVENTS_LATE_LEASE = s.bit (B.mbx h) F.MNT_MBEVENTS_LATE_LEASE) ∧
  (∀ (s : State) (h : Half) (held echo : Nat), s.coreUp h = true →
    ((s.mh h.toNat).windowOpen = false ∨ echo % 256 ≠ s.get B.mnt F.MNT_MISS_POLL) →
    ∃ t, exec (.leaseWrite h held echo) s = .next t ∧ t.mhalf = s.mhalf ∧
      t.bit (B.mbx h) F.MNT_MBEVENTS_LATE_LEASE = true) ∧
  (∀ (s : State) (h : Half) (hd : Nat), hd < 8 → s.mantleUp = true → (s.mh h.toNat).windowOpen = true →
    s.owns h hd = true → (s.mh h.toNat).fresh.testBit hd = false →
    ∃ t, exec .leaseDeadline s = .next t ∧ (t.mh h.toNat).windowOpen = false ∧
      (if ((s.mh h.toNat).answer.getD 0).testBit hd = true then t.owns h hd = true ∧ t.get B.mnt (missFld hd) = 0
       else if s.get B.mnt (missFld hd) < 2 then
        t.owns h hd = true ∧ t.get B.mnt (missFld hd) = s.get B.mnt (missFld hd) + 1
       else t.ownerOf hd = 0 ∧ t.get B.mnt (missFld hd) = 0)) ∧
  (∀ (s : State) (h : Half) (hd : Nat), hd < 8 → (s.mh h.toNat).windowOpen = true → s.owns h hd = true →
    (s.mh h.toNat).fresh.testBit hd = false → ((s.mh h.toNat).answer.getD 0).testBit hd = false →
    2 ≤ s.get B.mnt (missFld hd) →
    ∃ t, exec (.lapse hd) s = .next t ∧ t.ownerOf hd = 0 ∧ t.get B.mnt F.MNT_LASTCAUSE_CAUSE = 1 ∧
      t.get B.mnt F.MNT_LASTCAUSE_HDA = hd ∧ t.get B.mnt F.MNT_LASTCAUSE_HALF = h.toNat)

/-- Retract ends (R406, R408), watchdogs (R402, R411 to R413, R423), the core (R392, R417). -/
def Obligations.RetractsWatchdogsAndCore : Prop :=
  (∀ (s : State) (h : Half) (u vel : Nat), u < 8 → s.retracting (actId h u) = true →
    s.mcore.latchPush.testBit (actId h u) = false → vel < 5 * (s.retractOf (actId h u)).vel →
    ∃ t, exec (.sequencerStop h u vel) s = .next t ∧ t.mcore.latchPush.testBit (actId h u) = true ∧
      (t.retractOf (actId h u)).cur = -(100 * ((s.retractOf (actId h u)).latchMa : Int)) ∧ t.regs = s.regs) ∧
  (∀ (s : State) (h : Half) (u : Nat), u < 8 → s.retracting (actId h u) = true →
    s.mcore.latchPush.testBit (actId h u) = true →
    ∃ t, exec (.retdone h u) s = .next t ∧ t.retracting (actId h u) = false ∧ t.loaded (actId h u) = false ∧
      t.maskBit B.mnt F.MNT_RETSTAT_RETDONE (actId h u) = true ∧
      t.bit (B.mbx h) F.MNT_MBEVENTS_RETRACT_END = true ∧
      (s.mcore.latchPush < 65536 → t.mcore.latchPush.testBit (actId h u) = false)) ∧
  (∀ (s : State) (h : Half) (u us : Nat), u < 8 → s.retracting (actId h u) = true →
    s.mcore.latchPush.testBit (actId h u) = false → 1000 * (s.retractOf (actId h u)).tmo ≤ us →
    ∃ t, exec (.rettmo h u us) s = .next t ∧ t.retracting (actId h u) = false ∧
      t.loaded (actId h u) = s.loaded (actId h u) ∧
      t.maskBit B.mnt F.MNT_RETSTAT_RETTMO (actId h u) = true ∧
      t.bit (B.mbx h) F.MNT_MBEVENTS_RETRACT_END = true) ∧
  (∀ (s : State) (h : Half) (key : Nat), s.coreUp h = true → s.get B.mnt (wdState h) ≠ 0 →
    key % 65536 = (if s.bit B.mnt (wdKey h) = true then 0xA5A5 else 0x5A5A) →
    ∃ t, exec (.kick h key) s = .next t ∧ t.get B.mnt (wdState h) = 2 ∧
      t.get B.mnt (wdKey h) = 1 - s.get B.mnt (wdKey h) ∧ (t.mh h.toNat).kicked = true ∧
      (t.mh h.toNat).period = s.get B.mnt (wdPeriod h) ∧
      ((s.mh h.toNat).kicked = false → (t.mh h.toNat).lastGood = some (s.mh h.toNat).slot)) ∧
  (∀ (s : State) (h : Half) (key : Nat), s.coreUp h = true →
    (s.get B.mnt (wdState h) = 1 ∨ s.get B.mnt (wdState h) = 2) →
    key % 65536 ≠ (if s.bit B.mnt (wdKey h) = true then 0xA5A5 else 0x5A5A) →
    ∃ t, exec (.kick h key) s = .next t ∧ t.get B.mnt (wdState h) = 3 ∧
      t.bit (B.mbx h) F.MNT_MBEVENTS_WD_WARN = true) ∧
  (∀ (s : State) (h : Half) (ms : Nat), s.get B.mnt (wdState h) = 2 → (s.mh h.toNat).period ≤ ms →
    ∃ t, exec (.wdWarn h ms) s = .next t ∧ t.get B.mnt (wdState h) = 3 ∧
      t.bit (B.mbx h) F.MNT_MBEVENTS_WD_WARN = true ∧ (t.mh h.toNat).warnedFromBoot = false) ∧
  (∀ (s : State) (h : Half), s.get B.mnt (wdState h) = 3 →
    ∃ t, exec (.wdStage2 h) s = .next t ∧ t.asserted.contains (.half h) = true ∧
      (∀ hd, hd < 8 → t.owns h hd = false) ∧
      ((s.mh h.toNat).kicked = true → s.asserted.contains (.half h) = false →
        (t.mh h.toNat).bootFailed = (s.mh h.toNat).bootFailed)) ∧
  (∀ (s : State) (h : Half), s.coreUp h = true → (s.mh h.toNat).running = false →
    (s.mh h.toNat).bootFailed = false → s.mantleUp = true →
    ∃ t, exec (.slotCheckDone h true) s = .next t ∧ (t.mh h.toNat).running = true ∧
      ((s.mh h.toNat).slot < 2 → t.get B.mnt (fwRun h) = (s.mh h.toNat).slot)) ∧
  (∀ (s : State) (h : Half), s.mantleUp = true →
    ∃ t, exec .lockstepMismatch s = .next t ∧ t.mcore.coreUp = false ∧ t.mcore.order = [] ∧
      (∀ r, (s.mh h.toNat).req = some r → t.mbAnswered h r.seq 0x0D = true ∧
        t.bit (B.mbx h) F.MNT_MBEVENTS_RESTARTED = true)) ∧
  (∀ (s : State), s.mantleUp = true → s.mcore.coreUp = false → s.mcore.order = [] →
    ∃ t, exec .coreRestartDone s = .next t ∧ t.mcore.coreUp = true ∧
      (∀ k, s.mcore.intake = some k → k.checking = true → k.type = 2 → ∀ i, s.mcore.mantlePatch = some i →
        ∀ r, (s.mh k.half.toNat).req = some r →
        t.mcore.intake = none ∧ t.mbAnswered k.half r.seq 0 = true))

/-- Chimney's collector (R466 to R469, R471 to R473, R489). -/
def Obligations.ChimneyRecords : Prop :=
  (∀ (s : State) (h : Half), s.coreUp h = true → ∀ m, (s.coll h.toNat).fifo.head? = some m →
    (msgCheck m && kindValid 0 (msgKind m)) = false →
    ∃ t, exec (.chimneyMessage h) s = .next t ∧ (t.coll h.toNat).fifo = (s.coll h.toNat).fifo.tail ∧
      t.bit (B.chm h) F.CHM_EVENTS_BAD_MSG = true ∧ t.openRecs h.toNat = s.openRecs h.toNat ∧
      (t.coll h.toNat).srcs = (s.coll h.toNat).srcs) ∧
  (∀ (s : State) (h : Half), s.coreUp h = true → ∀ m, (s.coll h.toNat).fifo.head? = some m →
    (msgCheck m && kindValid 0 (msgKind m)) = true → s.bit (B.chm h) F.CHM_CTL_RESET_EN = false →
    (s.srcOf h.toNat (msgSource m)).record = none →
    (s.word (clsAddr h.toNat (msgKind m) + 4)).getLsbD 0 = true →
    (s.word (clsAddr h.toNat (msgKind m) + 4)).getLsbD 8 = true →
    ∀ r, (List.range 64).find? (fun r => !s.recIsOpen h.toNat r) = some r →
    ∃ t, exec (.chimneyMessage h) s = .next t ∧ t.recIsOpen h.toNat r = true ∧
      t.get64 (recAddr h.toNat r) = m.toNat ∧ t.get (recAddr h.toNat r) recMerge = 0 ∧
      (t.srcOf h.toNat (msgSource m)).record = some r ∧ t.get (B.chm h) F.CHM_STAT_NEWEST = r) ∧
  (∀ (s : State) (h : Half), s.coreUp h = true → ∀ m, (s.coll h.toNat).fifo.head? = some m →
    (msgCheck m && kindValid 0 (msgKind m)) = true → s.bit (B.chm h) F.CHM_CTL_RESET_EN = false →
    ∀ r, (s.srcOf h.toNat (msgSource m)).record = some r → r < 64 →
    ∃ t, exec (.chimneyMessage h) s = .next t ∧
      t.get (recAddr h.toNat r) recMerge = min (s.get (recAddr h.toNat r) recMerge + 1) 0xFFFF ∧
      t.get (recAddr h.toNat r) recLastKind = msgKind m ∧ t.openRecs h.toNat = s.openRecs h.toNat ∧
      t.get64 (recAddr h.toNat r) = s.get64 (recAddr h.toNat r)) ∧
  (∀ (s : State) (h : Half) (i : Nat), i < 64 → s.coreUp h = true → s.recIsOpen h.toNat i = true →
    ∃ t, exec (.recordClose h i) s = .next t ∧ t.recIsOpen h.toNat i = false ∧
      t.get64 (recAddr h.toNat i) = s.get64 (recAddr h.toNat i) ∧
      t.word (recAddr h.toNat i + 8) = s.word (recAddr h.toNat i + 8) ∧
      (t.srcOf h.toNat (s.get (recAddr h.toNat i) ⟨0, 0, 10⟩)).record = none) ∧
  (∀ (s : State) (h : Half) (i : Nat), s.coreUp h = true → s.recIsOpen h.toNat (i % 64) = false →
    exec (.recordClose h i) s = .next s) ∧
  (∀ (s : State) (h : Half) (x : Nat), s.coreUp h = true → (s.coll h.toNat).fifo.length < 256 →
    ∃ t, exec (.chmRaise h x) s = .next t ∧ (t.coll h.toNat).fifo = (s.coll h.toNat).fifo ++
      [message h (32 * 17 + s.get (B.chm h) F.CHM_RAISE_LO_INSTANCE) (s.get (B.chm h) F.CHM_RAISE_LO_KIND)
        (s.get (B.chm h) F.CHM_RAISE_LO_HINT_LO + x % 2 ^ 23 * 65536)])

/-- Mantle's collector (R468, R469, R475) and a new record (R476, R477, R479, R480). -/
def Obligations.MantleCollectorAndRecorder : Prop :=
  (∀ (s : State), s.mantleUp = true → ∀ m, (s.coll 2).fifo.head? = some m →
    (msgCheck m && kindValid 2 (msgKind m)) = false →
    ∃ t, exec .mantleMessage s = .next t ∧ (t.coll 2).fifo = (s.coll 2).fifo.tail ∧ t.regs = s.regs ∧
      (t.coll 2).srcs = (s.coll 2).srcs) ∧
  (∀ (s : State), s.mantleUp = true → ∀ m, (s.coll 2).fifo.head? = some m →
    (msgCheck m && kindValid 2 (msgKind m)) = true → (s.srcOf 2 (msgSource m)).record = none →
    (s.word (clsAddr 2 (msgKind m) + 4)).getLsbD 0 = true → (s.word (clsAddr 2 (msgKind m) + 4)).getLsbD 2 = false →
    (s.word (clsAddr 2 (msgKind m) + 4)).getLsbD 8 = true → (s.word (clsAddr 2 (msgKind m) + 4)).getLsbD 10 = false →
    ∀ r, (List.range 16).find? (fun r => !s.recIsOpen 2 r) = some r →
    ∃ t, exec .mantleMessage s = .next t ∧ t.recIsOpen 2 r = true ∧ t.get64 (recAddr 2 r) = m.toNat ∧
      (t.srcOf 2 (msgSource m)).record = some r ∧
      t.get B.evt F.EVT_MFCNT_MSGS = min (s.get B.evt F.EVT_MFCNT_MSGS + 1) (2 ^ F.EVT_MFCNT_MSGS.width - 1)) ∧
  (∀ (s : State) (src : Nat), ∀ r, (s.srcOf 2 src).record = some r → r < 16 →
    s.get (recAddr 2 r) ⟨0, 0, 10⟩ = src → s.recIsOpen 2 r = true →
    s.closePoint (s.get (recAddr 2 r) recKind) src (s.get64 (recAddr 2 r + 24)) = true →
    ∃ t, exec (.mantleRecordClose src) s = .next t ∧ t.recIsOpen 2 r = false ∧ (t.srcOf 2 src).record = none ∧
      t.get64 (recAddr 2 r) = s.get64 (recAddr 2 r)) ∧
  (∀ (s : State) (src : Nat), ∀ r, (s.srcOf 2 src).record = some r →
    s.closePoint (s.get (recAddr 2 r) recKind) src (s.get64 (recAddr 2 r + 24)) = false →
    ∃ t, exec (.mantleRecordClose src) s = .next t ∧ t.regs = s.regs ∧ (t.srcOf 2 src).record = some r) ∧
  (∀ (s : State), s.mantleUp = true → ∀ e, s.evQueue.head? = some e → s.eventFolds e = false →
    s.bit B.evt F.EVT_STAT_PERM_FULL = false → s.get B.evt F.EVT_SEQ_SEQ < 256 →
    ∃ t, exec .eventRecordWrite s = .next t ∧ t.evQueue = s.evQueue.tail ∧
      t.get B.evt F.EVT_SEQ_SEQ = s.get B.evt F.EVT_SEQ_SEQ + 1 ∧
      t.get B.evt F.EVT_LAST_INDEX = s.get B.evt F.EVT_SEQ_SEQ ∧
      (t.word (B.evr + 32 * s.get B.evt F.EVT_SEQ_SEQ)).toNat = e.code % 65536 ∧
      (t.word (B.evr + 32 * s.get B.evt F.EVT_SEQ_SEQ + 4)).toNat = e.time % 2 ^ 32 ∧
      (t.word (B.evr + 32 * s.get B.evt F.EVT_SEQ_SEQ + 16)).toNat = e.p0 % 2 ^ 32 ∧
      (t.word (B.evr + 32 * s.get B.evt F.EVT_SEQ_SEQ + 24)).toNat = e.p2 % 2 ^ 32 ∧
      t.bit B.evt F.EVT_STAT_PERM_FULL = (s.get B.evt F.EVT_SEQ_SEQ == 255)) ∧
  (∀ (s : State), s.mantleUp = true → ∀ e, s.evQueue.head? = some e → s.eventFolds e = false →
    s.bit B.evt F.EVT_STAT_PERM_FULL = true → 256 ≤ s.get B.evt F.EVT_SEQ_SEQ →
    s.get B.evt F.EVT_SEQ_SEQ < 2 ^ 32 - 1 →
    ∃ t, exec .eventRecordWrite s = .next t ∧ t.evQueue = s.evQueue.tail ∧
      t.get B.evt F.EVT_SEQ_SEQ = s.get B.evt F.EVT_SEQ_SEQ + 1 ∧
      t.get B.evt F.EVT_LAST_INDEX = 256 + (s.get B.evt F.EVT_SEQ_SEQ - 256) % 2048 ∧
      t.get B.evt F.EVT_STAT_NEXT = 256 + (s.get B.evt F.EVT_SEQ_SEQ - 255) % 2048 ∧
      (t.word (B.evr + 32 * (256 + (s.get B.evt F.EVT_SEQ_SEQ - 256) % 2048))).toNat = e.code % 65536 ∧
      (t.word (B.evr + 32 * (256 + (s.get B.evt F.EVT_SEQ_SEQ - 256) % 2048) + 20)).toNat = e.p1 % 2 ^ 32) ∧
  (∀ (s : State), s.evQueue = [] → exec .eventRecordWrite s = .next s)

/-- Folding (R478). -/
def Obligations.EventsAreFolded : Prop :=
  ∀ (s : State), s.mantleUp = true → ∀ e, s.evQueue.head? = some e →
  (s.get B.evt F.EVT_LAST_INDEX < 2304 ∨ s.get B.evt F.EVT_LAST_INDEX = 0xFFF) →
  ∃ t, exec .eventRecordWrite s = .next t ∧
    (if s.get B.evt F.EVT_LAST_INDEX ≠ 0xFFF ∧
        (s.word (B.evr + 32 * s.get B.evt F.EVT_LAST_INDEX)).toNat % 65536 = e.code ∧
        (s.word (B.evr + 32 * s.get B.evt F.EVT_LAST_INDEX + 16)).toNat = e.p0 % 2 ^ 32 ∧
        (s.word (B.evr + 32 * s.get B.evt F.EVT_LAST_INDEX + 20)).toNat = e.p1 % 2 ^ 32 ∧
        (s.word (B.evr + 32 * s.get B.evt F.EVT_LAST_INDEX + 24)).toNat = e.p2 % 2 ^ 32 ∧
        (s.word (B.evr + 32 * s.get B.evt F.EVT_LAST_INDEX + 28)).toNat = 0
      then
        (t.word (B.evr + 32 * s.get B.evt F.EVT_LAST_INDEX)).toNat / 65536 =
          min ((s.word (B.evr + 32 * s.get B.evt F.EVT_LAST_INDEX)).toNat / 65536 + 1) 0xFFFF ∧
        (t.word (B.evr + 32 * s.get B.evt F.EVT_LAST_INDEX)).toNat % 65536 = e.code ∧
        (t.word (B.evr + 32 * s.get B.evt F.EVT_LAST_INDEX + 12)).toNat = e.time % 2 ^ 32 ∧
        (∀ i, i < 8 → i ≠ 0 → i ≠ 3 → t.word (B.evr + 32 * s.get B.evt F.EVT_LAST_INDEX + 4 * i) =
          s.word (B.evr + 32 * s.get B.evt F.EVT_LAST_INDEX + 4 * i)) ∧
        t.get B.evt F.EVT_SEQ_SEQ = s.get B.evt F.EVT_SEQ_SEQ ∧
        t.get B.evt F.EVT_LAST_INDEX = s.get B.evt F.EVT_LAST_INDEX
      else
        t.get B.evt F.EVT_SEQ_SEQ = (s.get B.evt F.EVT_SEQ_SEQ + 1) % 2 ^ 32 ∧
        (t.word (B.evr + 32 * recordPlace (s.bit B.evt F.EVT_STAT_PERM_FULL) (s.get B.evt F.EVT_SEQ_SEQ))).toNat =
          e.code % 65536)

/-- Wear lamps (R481 to R483, R496, R498) and trace (R484 to R486, R499). -/
def Obligations.WearLampsAndTrace : Prop :=
  (∀ (s : State) (h : Half) (i secs : Nat) (raw : Int), i < 163 → s.bit (B.wlp h) F.WLP_CTL_EN = true →
    lampType i ∉ [0, 2, 3, 5, 7, 10] →
    ∃ t, exec (.lampMeasurement h i raw secs) s = .next t ∧ t.get (lampB h i) F.LAMP_VALUE = (raw % 0x10000).toNat ∧
      t.get (lampB h i) F.LAMP_TIME = s.usTime / 1000000 % 2 ^ F.LAMP_TIME.width ∧ (t.lamp h i).seen = true ∧
      (t.lamp h i).num = (s.lamp h i).num + 1 ∧ (t.lamp h i).sum = (s.lamp h i).sum + raw) ∧
  (∀ (s : State) (h : Half) (i secs : Nat) (raw : Int), i < 163 → s.bit (B.wlp h) F.WLP_CTL_EN = true →
    lampType i = 0 →
    ∃ t, exec (.lampMeasurement h i raw secs) s = .next t ∧
      t.get (lampB h i) F.LAMP_BASE = s.get (lampB h i) F.LAMP_BASE ∧
      t.get (lampB h i) F.LAMP_VALUE = (if s.get (lampB h i) F.LAMP_BASE = 0 then 0
        else (relBase (s.get (lampB h i) F.LAMP_BASE) raw % 0x10000).toNat) ∧
      (t.lamp h i).events = (s.lamp h i).events + secs) ∧
  (∀ (s : State) (h : Half) (i secs : Nat) (raw : Int), (163 ≤ i ∨ lampType i ∈ [2, 3, 5, 7, 10]) →
    exec (.lampMeasurement h i raw secs) s = .next s) ∧
  (∀ (s : State) (h : Half) (i p : Nat), 24 ≤ i → i < 88 → s.bit (B.wlp h) F.WLP_CTL_EN = true →
    ∃ t, exec (.wlpFeed h i p) s = .next t ∧ (t.lamp h i).seen = true ∧
      (8 * smGet 0 (s.pa (actId h ((i - 24) / 8))).regs (0x10 + (i - 24) % 8) ≤ p →
        t.get (lampB h i) F.LAMP_VALUE =
          (p - 8 * smGet 0 (s.pa (actId h ((i - 24) / 8))).regs (0x10 + (i - 24) % 8)) % 0x10000)) ∧
  (∀ (s : State) (h : Half) (i p : Nat), (i < 24 ∨ 88 ≤ i) → exec (.wlpFeed h i p) s = .next s) ∧
  (∀ (s : State) (h : Half) (i j : Nat), i < 163 → j < 31 → s.bit (B.wlp h) F.WLP_CTL_EN = true →
    s.get (B.wlp h) F.WLP_NEXT_SECONDS ≤ s.seconds →
    ∃ t, exec (.sampleIntervalClose h) s = .next t ∧ t.lampHist h i j = s.lampHist h i (j + 1) ∧
      t.bit (B.wlp h) F.WLP_EVENTS_SAMPLE = true ∧ (t.lamp h i).num = 0 ∧
      t.get (B.wlp h) F.WLP_NEXT_SECONDS = (s.seconds + 3600 * max 1 (s.get (B.wlp h) F.WLP_CTL_SAMPLE_H)) % 2 ^ 32) ∧
  (∀ (s : State) (h : Half), s.bit (B.wlp h) F.WLP_CTL_EN = false →
    s.get (B.wlp h) F.WLP_NEXT_SECONDS ≤ s.seconds →
    ∃ t, exec (.sampleIntervalClose h) s = .next t ∧ t.lamps = s.lamps ∧
      t.hoursNow h = max 1 (s.get (B.wlp h) F.WLP_CTL_SAMPLE_H) ∧
      t.get (B.wlp h) F.WLP_NEXT_SECONDS = (s.seconds + 3600 * max 1 (s.get (B.wlp h) F.WLP_CTL_SAMPLE_H)) % 2 ^ 32) ∧
  (∀ (s : State) (h : Half), s.seconds < s.get (B.wlp h) F.WLP_NEXT_SECONDS →
    exec (.sampleIntervalClose h) s = .next s) ∧
  (∀ (s : State) (h : Half), s.coreUp h = true → s.bit (B.cri h) F.CRI_TRCSTAT_LANES_UP = true →
    ∀ m, s.timeMark = some m →
    ∃ t, exec (.traceTimePacket h) s = .next t ∧
      ((smGet TraceStream.reset t.traces (traceKey h 1 0)).fifo.getLast?).map (fun p => (p.type, p.body)) =
        some (1, leBytes 6 m ++ List.replicate 5 0)) ∧
  (∀ (s : State) (h : Half), s.coreUp h = true → s.bit (B.cri h) F.CRI_TRCSTAT_LANES_UP = true →
    ∀ p, (smGet TraceStream.reset s.traces (traceKey h 1 0)).fifo.head? = some p →
    smSorted s.traces = true →
    ∃ t, exec (.tracePacketSend h) s = .next t ∧ smGet .idle t.traceOut h.toNat = .packet p ∧
      (smGet TraceStream.reset t.traces (traceKey h 1 0)).fifo =
        (smGet TraceStream.reset s.traces (traceKey h 1 0)).fifo.tail) ∧
  (∀ (s : State) (h : Half), s.coreUp h = true → s.bit (B.cri h) F.CRI_TRCSTAT_LANES_UP = true → s.traces = [] →
    exec (.tracePacketSend h) s = .next { s with traceOut := smPut .idle s.traceOut h.toNat .idle }) ∧
  (∀ (s : State) (h : Half), s.coreUp h = true → s.bit (B.cri h) F.CRI_TRCSTAT_LANES_UP = true →
    exec (.deskewBlock h) s = .next { s with traceOut := smPut .idle s.traceOut h.toNat .deskew }) ∧
  (∀ (s : State) (h : Half), s.bit (B.cri h) F.CRI_TRCSTAT_LANES_UP = false →
    exec (.traceTimePacket h) s = .next s ∧ exec (.tracePacketSend h) s = .next s ∧ exec (.deskewBlock h) s = .next s)
end

