-- ==== Sys2Proof/Laws/Sparse.lean ====
section
/-! SUPPORT. Laws of the sparse tables: a read after a write, and the canonical form that every operation keeps. -/

namespace Sys2Proof.Machine

variable {α : Type}

theorem smFind_smInsert (m : SMap α) (k k' : Nat) (v : α) :
    smFind (smInsert m k v) k' = if k' = k then some v else smFind m k' := by
  induction m with
  | nil => simp [smInsert, smFind]
  | cons e t ih =>
    obtain ⟨x, y⟩ := e
    simp only [smInsert]
    split
    · simp [smFind]
    · split
      · subst_vars; simp only [smFind]; split <;> simp_all
      · simp only [smFind, ih]; split <;> split <;> simp_all

theorem smFind_smErase (m : SMap α) (k k' : Nat) :
    smFind (smErase m k) k' = if k' = k then none else smFind m k' := by
  induction m with
  | nil => simp [smErase, smFind]
  | cons e t ih =>
    obtain ⟨x, y⟩ := e
    simp only [smErase, smFind]
    split
    · subst_vars; rw [ih]; split <;> simp_all
    · simp only [smFind, ih]; split <;> split <;> simp_all

/-- A read after a write of the same key, and of another key; `d` and `d'` are what the two keys read as unlisted. -/
theorem smGet_smPut [DecidableEq α] (d d' : α) (m : SMap α) (k k' : Nat) (v : α) (h : k' = k → d' = d) :
    smGet d' (smPut d m k v) k' = if k' = k then v else smGet d' m k' := by
  unfold smGet smPut
  split
  · rw [smFind_smErase]; split <;> simp_all
  · rw [smFind_smInsert]; split <;> simp_all

@[simp] theorem smGet_smPut_same [DecidableEq α] (d : α) (m : SMap α) (k : Nat) (v : α) :
    smGet d (smPut d m k v) k = v := by simp [smGet_smPut]

theorem smGet_smPut_ne [DecidableEq α] (d d' : α) (m : SMap α) (k k' : Nat) (v : α) (h : k' ≠ k) :
    smGet d' (smPut d m k v) k' = smGet d' m k' := by
  rw [smGet_smPut] <;> simp_all

theorem smFind_smClear (m : SMap α) (lo hi k : Nat) :
    smFind (smClear m lo hi) k = if lo ≤ k ∧ k < hi then none else smFind m k := by
  induction m with
  | nil => simp [smClear, smFind]
  | cons e t ih =>
    obtain ⟨x, y⟩ := e
    simp only [smClear] at ih ⊢
    simp only [List.filter_cons]
    by_cases hk : k = x
    · subst hk
      split <;> rename_i hx <;> simp only [smFind, ih] <;> simp_all
      · exact fun _ => by omega
    · split <;> simp only [smFind, if_neg hk, ih]

theorem smGet_smClear (d : α) (m : SMap α) (lo hi k : Nat) :
    smGet d (smClear m lo hi) k = if lo ≤ k ∧ k < hi then d else smGet d m k := by
  simp only [smGet, smFind_smClear]; split <;> simp

/-! ### The canonical form -/

theorem mem_smErase {m : SMap α} {k : Nat} {e : Nat × α} (h : e ∈ smErase m k) : e ∈ m := by
  induction m with
  | nil => simp [smErase] at h
  | cons x t ih =>
    obtain ⟨a, b⟩ := x
    simp only [smErase] at h
    split at h <;> simp_all
    rcases h with h | h <;> simp_all

theorem mem_smInsert {m : SMap α} {k : Nat} {v : α} {e : Nat × α} (h : e ∈ smInsert m k v) : e = (k, v) ∨ e ∈ m := by
  induction m with
  | nil => simp [smInsert] at h; simp [h]
  | cons x t ih =>
    obtain ⟨a, b⟩ := x
    simp only [smInsert] at h
    split at h
    · simpa using h
    · split at h
      · simp at h; rcases h with h | h <;> simp [h]
      · simp at h
        rcases h with h | h
        · simp [h]
        · rcases ih h with h | h <;> simp [h]

theorem sorted_smErase {m : SMap α} {k : Nat} (h : m.Pairwise fun x y => x.1 < y.1) :
    (smErase m k).Pairwise fun x y => x.1 < y.1 := by
  induction m with
  | nil => simp [smErase]
  | cons x t ih =>
    obtain ⟨a, b⟩ := x
    simp only [smErase]
    rw [List.pairwise_cons] at h
    split
    · exact ih h.2
    · rw [List.pairwise_cons]
      exact ⟨fun e he => h.1 e (mem_smErase he), ih h.2⟩

theorem sorted_smInsert {m : SMap α} {k : Nat} {v : α} (h : m.Pairwise fun x y => x.1 < y.1) :
    (smInsert m k v).Pairwise fun x y => x.1 < y.1 := by
  induction m with
  | nil => simp [smInsert]
  | cons x t ih =>
    obtain ⟨a, b⟩ := x
    simp only [smInsert]
    have h' := List.pairwise_cons.mp h
    split
    · rename_i hlt
      rw [List.pairwise_cons]
      refine ⟨fun e he => ?_, h⟩
      rcases List.mem_cons.mp he with rfl | he
      · exact hlt
      · exact Nat.lt_trans hlt (h'.1 e he)
    · split
      · subst_vars
        rw [List.pairwise_cons]
        exact ⟨fun e he => h'.1 e he, h'.2⟩
      · rw [List.pairwise_cons]
        refine ⟨fun e he => ?_, ih h'.2⟩
        rcases mem_smInsert he with rfl | he
        · simp; omega
        · exact h'.1 e he

theorem sorted_smClear {m : SMap α} {lo hi : Nat} (h : m.Pairwise fun x y => x.1 < y.1) :
    (smClear m lo hi).Pairwise fun x y => x.1 < y.1 := List.Pairwise.filter _ h

variable [DecidableEq α]

theorem smWf_iff {d : Nat → α} {m : SMap α} :
    smWf d m = true ↔ (∀ e ∈ m, e.2 ≠ d e.1) ∧ m.Pairwise fun x y => x.1 < y.1 := by
  simp [smWf]

/-- A write keeps the canonical form. -/
theorem smWf_smPut {d : Nat → α} {m : SMap α} (k : Nat) (v : α) (h : smWf d m = true) :
    smWf d (smPut (d k) m k v) = true := by
  rw [smWf_iff] at h ⊢
  unfold smPut
  split
  · exact ⟨fun e he => h.1 e (mem_smErase he), sorted_smErase h.2⟩
  · refine ⟨fun e he => ?_, sorted_smInsert h.2⟩
    rcases mem_smInsert he with rfl | he
    · simpa
    · exact h.1 e he

/-- Clearing a range keeps the canonical form. -/
theorem smWf_smClear {d : Nat → α} {m : SMap α} (lo hi : Nat) (h : smWf d m = true) :
    smWf d (smClear m lo hi) = true := by
  rw [smWf_iff] at h ⊢
  exact ⟨fun e he => h.1 e (List.mem_filter.mp he |>.1), sorted_smClear h.2⟩

end Sys2Proof.Machine
end

