-- ==== Sys2Proof/Laws/Regs.lean ====
section
/-! SUPPORT. Laws of register words and fields: a read after a write of the same word or field, and of another. -/

namespace Sys2Proof.Machine

@[simp] theorem State.word_setWord_same (s : State) (a : Nat) (w : Word) : (s.setWord a w).word a = w := by
  simp [State.word, State.setWord]

theorem State.word_setWord_ne (s : State) (a b : Nat) (w : Word) (h : b ≠ a) : (s.setWord a w).word b = s.word b := by
  simp [State.word, State.setWord, smGet_smPut_ne _ _ _ _ _ _ h]

theorem State.word_setWord (s : State) (a b : Nat) (w : Word) :
    (s.setWord a w).word b = if b = a then w else s.word b := by
  split
  · subst_vars; simp
  · exact State.word_setWord_ne _ _ _ _ ‹_›

theorem State.word_clearRange (s : State) (lo hi a : Nat) :
    (s.clearRange lo hi).word a = if lo ≤ a ∧ a < hi then regReset a else s.word a := by
  simp [State.word, State.clearRange, smGet_smClear]

theorem fput_getLsbD (w : Word) (f : Fld) (v i : Nat) (hi : i < 32) :
    (fput w f v).getLsbD i = if f.lo ≤ i ∧ i < f.lo + f.width then v.testBit (i - f.lo) else w.getLsbD i := by
  unfold fput
  simp only [BitVec.getLsbD_or, BitVec.getLsbD_and, BitVec.getLsbD_not, BitVec.getLsbD_shiftLeft,
    BitVec.getLsbD_ofNat, Nat.testBit_two_pow_sub_one]
  split
  · rename_i h
    have h1 : ¬ i < f.lo := by omega
    have h2 : i - f.lo < f.width := by omega
    have h3 : i - f.lo < 32 := by omega
    simp [hi, h1, h2, h3]
  · rename_i h
    by_cases h1 : i < f.lo
    · simp [hi, h1]
    · have h2 : ¬ i - f.lo < f.width := by omega
      simp [hi, h2]

/-- Reading a field after it was written: the number cut to the field's width. -/
theorem fget_fput_same (w : Word) (f : Fld) (v : Nat) (h : f.lo + f.width ≤ 32) :
    fget (fput w f v) f = v % 2 ^ f.width := by
  apply Nat.eq_of_testBit_eq
  intro i
  simp only [fget, BitVec.testBit_toNat, BitVec.getLsbD_extractLsb', Nat.testBit_mod_two_pow]
  by_cases hi : i < f.width
  · rw [fput_getLsbD _ _ _ _ (by omega)]
    simp [hi]
  · simp [hi]

/-- Reading a field of a word after a field beside it was written. -/
theorem fget_fput_ne (w : Word) (f g : Fld) (v : Nat) (hg : g.lo + g.width ≤ 32)
    (h : g.lo + g.width ≤ f.lo ∨ f.lo + f.width ≤ g.lo) : fget (fput w f v) g = fget w g := by
  apply Nat.eq_of_testBit_eq
  intro i
  simp only [fget, BitVec.testBit_toNat, BitVec.getLsbD_extractLsb']
  by_cases hi : i < g.width
  · rw [fput_getLsbD _ _ _ _ (by omega)]
    have : ¬ (f.lo ≤ g.lo + i ∧ g.lo + i < f.lo + f.width) := by omega
    simp [hi, this]
  · simp [hi]

theorem fget_lt (w : Word) (f : Fld) : fget w f < 2 ^ f.width := by
  unfold fget; exact BitVec.isLt _

theorem State.get_lt (s : State) (b : Nat) (f : Fld) : s.get b f < 2 ^ f.width := fget_lt _ _

/-- A field read after it was written. -/
theorem State.get_put_same (s : State) (b : Nat) (f : Fld) (v : Nat) (h : f.lo + f.width ≤ 32) :
    (s.put b f v).get b f = v % 2 ^ f.width := by
  simp [State.get, State.put, fget_fput_same _ _ _ h]

/-- Two fields do not share a bit. -/
abbrev apart (b : Nat) (f : Fld) (c : Nat) (g : Fld) : Prop :=
  b + f.off ≠ c + g.off ∨ f.lo + f.width ≤ g.lo ∨ g.lo + g.width ≤ f.lo

/-- A field read after another was written. -/
theorem State.get_put_ne (s : State) (b c : Nat) (f g : Fld) (v : Nat) (hg : g.lo + g.width ≤ 32)
    (h : apart c g b f) : (s.put b f v).get c g = s.get c g := by
  unfold State.get State.put
  by_cases e : c + g.off = b + f.off
  · rw [e, State.word_setWord_same]
    rcases h with h | h
    · exact absurd e h
    · rw [fget_fput_ne _ _ _ _ hg (by omega)]
  · rw [State.word_setWord_ne _ _ _ _ e]

/-- Every field is unchanged in a word that was not written. -/
theorem State.get_setWord_ne (s : State) (a c : Nat) (g : Fld) (w : Word) (h : c + g.off ≠ a) :
    (s.setWord a w).get c g = s.get c g := by
  simp [State.get, State.word_setWord_ne _ _ _ _ h]

theorem State.get_clearRange_out (s : State) (lo hi c : Nat) (g : Fld) (h : c + g.off < lo ∨ hi ≤ c + g.off) :
    (s.clearRange lo hi).get c g = s.get c g := by
  simp only [State.get, State.word_clearRange]
  rw [if_neg (by omega)]

theorem State.get_clearRange_in (s : State) (lo hi c : Nat) (g : Fld) (h : lo ≤ c + g.off ∧ c + g.off < hi) :
    (s.clearRange lo hi).get c g = fget (regReset (c + g.off)) g := by
  simp only [State.get, State.word_clearRange]
  rw [if_pos h]

end Sys2Proof.Machine
end

