-- ==== Sys2Proof/Laws/State.lean ====
section
/-! SUPPORT. One lemma for each field of State and each shared update that leaves it alone, so that no later proof unfolds a
record update. -/

namespace Sys2Proof.Machine

@[simp] theorem State.setWord_pending (s : State) (a : Nat) (w : Word) : (s.setWord a w).pending = s.pending := rfl
@[simp] theorem State.setWord_free (s : State) (a : Nat) (w : Word) : (s.setWord a w).free = s.free := rfl
@[simp] theorem State.setWord_ticks (s : State) (a : Nat) (w : Word) : (s.setWord a w).ticks = s.ticks := rfl
@[simp] theorem State.setWord_board (s : State) (a : Nat) (w : Word) : (s.setWord a w).board = s.board := rfl
@[simp] theorem State.setWord_asserted (s : State) (a : Nat) (w : Word) : (s.setWord a w).asserted = s.asserted := rfl
@[simp] theorem State.setWord_draining (s : State) (a : Nat) (w : Word) : (s.setWord a w).draining = s.draining := rfl
@[simp] theorem State.setWord_up (s : State) (a : Nat) (w : Word) : (s.setWord a w).up = s.up := rfl
@[simp] theorem State.setWord_motorUp (s : State) (a : Nat) (w : Word) : (s.setWord a w).motorUp = s.motorUp := rfl
@[simp] theorem State.setWord_rails (s : State) (a : Nat) (w : Word) : (s.setWord a w).rails = s.rails := rfl
@[simp] theorem State.setWord_collectors (s : State) (a : Nat) (w : Word) : (s.setWord a w).collectors = s.collectors := rfl
@[simp] theorem State.setWord_evQueue (s : State) (a : Nat) (w : Word) : (s.setWord a w).evQueue = s.evQueue := rfl
@[simp] theorem State.setWord_lamps (s : State) (a : Nat) (w : Word) : (s.setWord a w).lamps = s.lamps := rfl
@[simp] theorem State.setWord_lampHours (s : State) (a : Nat) (w : Word) : (s.setWord a w).lampHours = s.lampHours := rfl
@[simp] theorem State.setWord_traces (s : State) (a : Nat) (w : Word) : (s.setWord a w).traces = s.traces := rfl
@[simp] theorem State.setWord_traceOut (s : State) (a : Nat) (w : Word) : (s.setWord a w).traceOut = s.traceOut := rfl
@[simp] theorem State.setWord_traceTurn (s : State) (a : Nat) (w : Word) : (s.setWord a w).traceTurn = s.traceTurn := rfl
@[simp] theorem State.setWord_lastRead (s : State) (a : Nat) (w : Word) : (s.setWord a w).lastRead = s.lastRead := rfl
@[simp] theorem State.setWord_mhalf (s : State) (a : Nat) (w : Word) : (s.setWord a w).mhalf = s.mhalf := rfl
@[simp] theorem State.setWord_mcore (s : State) (a : Nat) (w : Word) : (s.setWord a w).mcore = s.mcore := rfl
@[simp] theorem State.setWord_preamps (s : State) (a : Nat) (w : Word) : (s.setWord a w).preamps = s.preamps := rfl
@[simp] theorem State.setWord_ports (s : State) (a : Nat) (w : Word) : (s.setWord a w).ports = s.ports := rfl
@[simp] theorem State.setWord_wicks (s : State) (a : Nat) (w : Word) : (s.setWord a w).wicks = s.wicks := rfl
@[simp] theorem State.setWord_rchs (s : State) (a : Nat) (w : Word) : (s.setWord a w).rchs = s.rchs := rfl
@[simp] theorem State.setWord_fmts (s : State) (a : Nat) (w : Word) : (s.setWord a w).fmts = s.fmts := rfl
@[simp] theorem State.setWord_srvs (s : State) (a : Nat) (w : Word) : (s.setWord a w).srvs = s.srvs := rfl
@[simp] theorem State.setWord_spns (s : State) (a : Nat) (w : Word) : (s.setWord a w).spns = s.spns := rfl
@[simp] theorem State.setWord_mot (s : State) (a : Nat) (w : Word) : (s.setWord a w).mot = s.mot := rfl
@[simp] theorem State.setWord_opDone (s : State) (a : Nat) (w : Word) : (s.setWord a w).opDone = s.opDone := rfl
@[simp] theorem State.setWord_staging (s : State) (a : Nat) (w : Word) : (s.setWord a w).staging = s.staging := rfl
@[simp] theorem State.setWord_parity (s : State) (a : Nat) (w : Word) : (s.setWord a w).parity = s.parity := rfl
@[simp] theorem State.setWord_segment (s : State) (a : Nat) (w : Word) : (s.setWord a w).segment = s.segment := rfl
@[simp] theorem State.setWord_pinned (s : State) (a : Nat) (w : Word) : (s.setWord a w).pinned = s.pinned := rfl
@[simp] theorem State.setWord_coreriEvents (s : State) (a : Nat) (w : Word) : (s.setWord a w).coreriEvents = s.coreriEvents := rfl
@[simp] theorem State.setWord_dram (s : State) (a : Nat) (w : Word) : (s.setWord a w).dram = s.dram := rfl
@[simp] theorem State.setWord_mergeBytes (s : State) (a : Nat) (w : Word) : (s.setWord a w).mergeBytes = s.mergeBytes := rfl
@[simp] theorem State.setWord_cacheBytes (s : State) (a : Nat) (w : Word) : (s.setWord a w).cacheBytes = s.cacheBytes := rfl
@[simp] theorem State.setWord_resvs (s : State) (a : Nat) (w : Word) : (s.setWord a w).resvs = s.resvs := rfl
@[simp] theorem State.setWord_caches (s : State) (a : Nat) (w : Word) : (s.setWord a w).caches = s.caches := rfl
@[simp] theorem State.setWord_poison (s : State) (a : Nat) (w : Word) : (s.setWord a w).poison = s.poison := rfl
@[simp] theorem State.setWord_garbage (s : State) (a : Nat) (w : Word) : (s.setWord a w).garbage = s.garbage := rfl
@[simp] theorem State.setWord_answers (s : State) (a : Nat) (w : Word) : (s.setWord a w).answers = s.answers := rfl
@[simp] theorem State.setWord_waking (s : State) (a : Nat) (w : Word) : (s.setWord a w).waking = s.waking := rfl
@[simp] theorem State.setWord_polOld (s : State) (a : Nat) (w : Word) : (s.setWord a w).polOld = s.polOld := rfl
@[simp] theorem State.setWord_sdms (s : State) (a : Nat) (w : Word) : (s.setWord a w).sdms = s.sdms := rfl
@[simp] theorem State.setWord_hostMem (s : State) (a : Nat) (w : Word) : (s.setWord a w).hostMem = s.hostMem := rfl
@[simp] theorem State.setWord_msis (s : State) (a : Nat) (w : Word) : (s.setWord a w).msis = s.msis := rfl
@[simp] theorem State.setWord_hifs (s : State) (a : Nat) (w : Word) : (s.setWord a w).hifs = s.hifs := rfl
@[simp] theorem State.setWord_cmdSeq (s : State) (a : Nat) (w : Word) : (s.setWord a w).cmdSeq = s.cmdSeq := rfl
@[simp] theorem State.setWord_buffered (s : State) (a : Nat) (w : Word) : (s.setWord a w).buffered = s.buffered := rfl
@[simp] theorem State.setWord_trims (s : State) (a : Nat) (w : Word) : (s.setWord a w).trims = s.trims := rfl
@[simp] theorem State.setWord_nsCaps (s : State) (a : Nat) (w : Word) : (s.setWord a w).nsCaps = s.nsCaps := rfl
@[simp] theorem State.setWord_attached (s : State) (a : Nat) (w : Word) : (s.setWord a w).attached = s.attached := rfl
@[simp] theorem State.setWord_segLru (s : State) (a : Nat) (w : Word) : (s.setWord a w).segLru = s.segLru := rfl

@[simp] theorem State.put_pending (s : State) (b : Nat) (f : Fld) (v : Nat) : (s.put b f v).pending = s.pending := rfl
@[simp] theorem State.put_free (s : State) (b : Nat) (f : Fld) (v : Nat) : (s.put b f v).free = s.free := rfl
@[simp] theorem State.put_ticks (s : State) (b : Nat) (f : Fld) (v : Nat) : (s.put b f v).ticks = s.ticks := rfl
@[simp] theorem State.put_board (s : State) (b : Nat) (f : Fld) (v : Nat) : (s.put b f v).board = s.board := rfl
@[simp] theorem State.put_asserted (s : State) (b : Nat) (f : Fld) (v : Nat) : (s.put b f v).asserted = s.asserted := rfl
@[simp] theorem State.put_draining (s : State) (b : Nat) (f : Fld) (v : Nat) : (s.put b f v).draining = s.draining := rfl
@[simp] theorem State.put_up (s : State) (b : Nat) (f : Fld) (v : Nat) : (s.put b f v).up = s.up := rfl
@[simp] theorem State.put_motorUp (s : State) (b : Nat) (f : Fld) (v : Nat) : (s.put b f v).motorUp = s.motorUp := rfl
@[simp] theorem State.put_rails (s : State) (b : Nat) (f : Fld) (v : Nat) : (s.put b f v).rails = s.rails := rfl
@[simp] theorem State.put_collectors (s : State) (b : Nat) (f : Fld) (v : Nat) : (s.put b f v).collectors = s.collectors := rfl
@[simp] theorem State.put_evQueue (s : State) (b : Nat) (f : Fld) (v : Nat) : (s.put b f v).evQueue = s.evQueue := rfl
@[simp] theorem State.put_lamps (s : State) (b : Nat) (f : Fld) (v : Nat) : (s.put b f v).lamps = s.lamps := rfl
@[simp] theorem State.put_lampHours (s : State) (b : Nat) (f : Fld) (v : Nat) : (s.put b f v).lampHours = s.lampHours := rfl
@[simp] theorem State.put_traces (s : State) (b : Nat) (f : Fld) (v : Nat) : (s.put b f v).traces = s.traces := rfl
@[simp] theorem State.put_traceOut (s : State) (b : Nat) (f : Fld) (v : Nat) : (s.put b f v).traceOut = s.traceOut := rfl
@[simp] theorem State.put_traceTurn (s : State) (b : Nat) (f : Fld) (v : Nat) : (s.put b f v).traceTurn = s.traceTurn := rfl
@[simp] theorem State.put_lastRead (s : State) (b : Nat) (f : Fld) (v : Nat) : (s.put b f v).lastRead = s.lastRead := rfl
@[simp] theorem State.put_mhalf (s : State) (b : Nat) (f : Fld) (v : Nat) : (s.put b f v).mhalf = s.mhalf := rfl
@[simp] theorem State.put_mcore (s : State) (b : Nat) (f : Fld) (v : Nat) : (s.put b f v).mcore = s.mcore := rfl
@[simp] theorem State.put_preamps (s : State) (b : Nat) (f : Fld) (v : Nat) : (s.put b f v).preamps = s.preamps := rfl
@[simp] theorem State.put_ports (s : State) (b : Nat) (f : Fld) (v : Nat) : (s.put b f v).ports = s.ports := rfl
@[simp] theorem State.put_wicks (s : State) (b : Nat) (f : Fld) (v : Nat) : (s.put b f v).wicks = s.wicks := rfl
@[simp] theorem State.put_rchs (s : State) (b : Nat) (f : Fld) (v : Nat) : (s.put b f v).rchs = s.rchs := rfl
@[simp] theorem State.put_fmts (s : State) (b : Nat) (f : Fld) (v : Nat) : (s.put b f v).fmts = s.fmts := rfl
@[simp] theorem State.put_srvs (s : State) (b : Nat) (f : Fld) (v : Nat) : (s.put b f v).srvs = s.srvs := rfl
@[simp] theorem State.put_spns (s : State) (b : Nat) (f : Fld) (v : Nat) : (s.put b f v).spns = s.spns := rfl
@[simp] theorem State.put_mot (s : State) (b : Nat) (f : Fld) (v : Nat) : (s.put b f v).mot = s.mot := rfl
@[simp] theorem State.put_opDone (s : State) (b : Nat) (f : Fld) (v : Nat) : (s.put b f v).opDone = s.opDone := rfl
@[simp] theorem State.put_staging (s : State) (b : Nat) (f : Fld) (v : Nat) : (s.put b f v).staging = s.staging := rfl
@[simp] theorem State.put_parity (s : State) (b : Nat) (f : Fld) (v : Nat) : (s.put b f v).parity = s.parity := rfl
@[simp] theorem State.put_segment (s : State) (b : Nat) (f : Fld) (v : Nat) : (s.put b f v).segment = s.segment := rfl
@[simp] theorem State.put_pinned (s : State) (b : Nat) (f : Fld) (v : Nat) : (s.put b f v).pinned = s.pinned := rfl
@[simp] theorem State.put_coreriEvents (s : State) (b : Nat) (f : Fld) (v : Nat) : (s.put b f v).coreriEvents = s.coreriEvents := rfl
@[simp] theorem State.put_dram (s : State) (b : Nat) (f : Fld) (v : Nat) : (s.put b f v).dram = s.dram := rfl
@[simp] theorem State.put_mergeBytes (s : State) (b : Nat) (f : Fld) (v : Nat) : (s.put b f v).mergeBytes = s.mergeBytes := rfl
@[simp] theorem State.put_cacheBytes (s : State) (b : Nat) (f : Fld) (v : Nat) : (s.put b f v).cacheBytes = s.cacheBytes := rfl
@[simp] theorem State.put_resvs (s : State) (b : Nat) (f : Fld) (v : Nat) : (s.put b f v).resvs = s.resvs := rfl
@[simp] theorem State.put_caches (s : State) (b : Nat) (f : Fld) (v : Nat) : (s.put b f v).caches = s.caches := rfl
@[simp] theorem State.put_poison (s : State) (b : Nat) (f : Fld) (v : Nat) : (s.put b f v).poison = s.poison := rfl
@[simp] theorem State.put_garbage (s : State) (b : Nat) (f : Fld) (v : Nat) : (s.put b f v).garbage = s.garbage := rfl
@[simp] theorem State.put_answers (s : State) (b : Nat) (f : Fld) (v : Nat) : (s.put b f v).answers = s.answers := rfl
@[simp] theorem State.put_waking (s : State) (b : Nat) (f : Fld) (v : Nat) : (s.put b f v).waking = s.waking := rfl
@[simp] theorem State.put_polOld (s : State) (b : Nat) (f : Fld) (v : Nat) : (s.put b f v).polOld = s.polOld := rfl
@[simp] theorem State.put_sdms (s : State) (b : Nat) (f : Fld) (v : Nat) : (s.put b f v).sdms = s.sdms := rfl
@[simp] theorem State.put_hostMem (s : State) (b : Nat) (f : Fld) (v : Nat) : (s.put b f v).hostMem = s.hostMem := rfl
@[simp] theorem State.put_msis (s : State) (b : Nat) (f : Fld) (v : Nat) : (s.put b f v).msis = s.msis := rfl
@[simp] theorem State.put_hifs (s : State) (b : Nat) (f : Fld) (v : Nat) : (s.put b f v).hifs = s.hifs := rfl
@[simp] theorem State.put_cmdSeq (s : State) (b : Nat) (f : Fld) (v : Nat) : (s.put b f v).cmdSeq = s.cmdSeq := rfl
@[simp] theorem State.put_buffered (s : State) (b : Nat) (f : Fld) (v : Nat) : (s.put b f v).buffered = s.buffered := rfl
@[simp] theorem State.put_trims (s : State) (b : Nat) (f : Fld) (v : Nat) : (s.put b f v).trims = s.trims := rfl
@[simp] theorem State.put_nsCaps (s : State) (b : Nat) (f : Fld) (v : Nat) : (s.put b f v).nsCaps = s.nsCaps := rfl
@[simp] theorem State.put_attached (s : State) (b : Nat) (f : Fld) (v : Nat) : (s.put b f v).attached = s.attached := rfl
@[simp] theorem State.put_segLru (s : State) (b : Nat) (f : Fld) (v : Nat) : (s.put b f v).segLru = s.segLru := rfl

@[simp] theorem State.flag_pending (s : State) (b : Nat) (f : Fld) : (s.flag b f).pending = s.pending := rfl
@[simp] theorem State.flag_free (s : State) (b : Nat) (f : Fld) : (s.flag b f).free = s.free := rfl
@[simp] theorem State.flag_ticks (s : State) (b : Nat) (f : Fld) : (s.flag b f).ticks = s.ticks := rfl
@[simp] theorem State.flag_board (s : State) (b : Nat) (f : Fld) : (s.flag b f).board = s.board := rfl
@[simp] theorem State.flag_asserted (s : State) (b : Nat) (f : Fld) : (s.flag b f).asserted = s.asserted := rfl
@[simp] theorem State.flag_draining (s : State) (b : Nat) (f : Fld) : (s.flag b f).draining = s.draining := rfl
@[simp] theorem State.flag_up (s : State) (b : Nat) (f : Fld) : (s.flag b f).up = s.up := rfl
@[simp] theorem State.flag_motorUp (s : State) (b : Nat) (f : Fld) : (s.flag b f).motorUp = s.motorUp := rfl
@[simp] theorem State.flag_rails (s : State) (b : Nat) (f : Fld) : (s.flag b f).rails = s.rails := rfl
@[simp] theorem State.flag_collectors (s : State) (b : Nat) (f : Fld) : (s.flag b f).collectors = s.collectors := rfl
@[simp] theorem State.flag_evQueue (s : State) (b : Nat) (f : Fld) : (s.flag b f).evQueue = s.evQueue := rfl
@[simp] theorem State.flag_lamps (s : State) (b : Nat) (f : Fld) : (s.flag b f).lamps = s.lamps := rfl
@[simp] theorem State.flag_lampHours (s : State) (b : Nat) (f : Fld) : (s.flag b f).lampHours = s.lampHours := rfl
@[simp] theorem State.flag_traces (s : State) (b : Nat) (f : Fld) : (s.flag b f).traces = s.traces := rfl
@[simp] theorem State.flag_traceOut (s : State) (b : Nat) (f : Fld) : (s.flag b f).traceOut = s.traceOut := rfl
@[simp] theorem State.flag_traceTurn (s : State) (b : Nat) (f : Fld) : (s.flag b f).traceTurn = s.traceTurn := rfl
@[simp] theorem State.flag_lastRead (s : State) (b : Nat) (f : Fld) : (s.flag b f).lastRead = s.lastRead := rfl
@[simp] theorem State.flag_mhalf (s : State) (b : Nat) (f : Fld) : (s.flag b f).mhalf = s.mhalf := rfl
@[simp] theorem State.flag_mcore (s : State) (b : Nat) (f : Fld) : (s.flag b f).mcore = s.mcore := rfl
@[simp] theorem State.flag_preamps (s : State) (b : Nat) (f : Fld) : (s.flag b f).preamps = s.preamps := rfl
@[simp] theorem State.flag_ports (s : State) (b : Nat) (f : Fld) : (s.flag b f).ports = s.ports := rfl
@[simp] theorem State.flag_wicks (s : State) (b : Nat) (f : Fld) : (s.flag b f).wicks = s.wicks := rfl
@[simp] theorem State.flag_rchs (s : State) (b : Nat) (f : Fld) : (s.flag b f).rchs = s.rchs := rfl
@[simp] theorem State.flag_fmts (s : State) (b : Nat) (f : Fld) : (s.flag b f).fmts = s.fmts := rfl
@[simp] theorem State.flag_srvs (s : State) (b : Nat) (f : Fld) : (s.flag b f).srvs = s.srvs := rfl
@[simp] theorem State.flag_spns (s : State) (b : Nat) (f : Fld) : (s.flag b f).spns = s.spns := rfl
@[simp] theorem State.flag_mot (s : State) (b : Nat) (f : Fld) : (s.flag b f).mot = s.mot := rfl
@[simp] theorem State.flag_opDone (s : State) (b : Nat) (f : Fld) : (s.flag b f).opDone = s.opDone := rfl
@[simp] theorem State.flag_staging (s : State) (b : Nat) (f : Fld) : (s.flag b f).staging = s.staging := rfl
@[simp] theorem State.flag_parity (s : State) (b : Nat) (f : Fld) : (s.flag b f).parity = s.parity := rfl
@[simp] theorem State.flag_segment (s : State) (b : Nat) (f : Fld) : (s.flag b f).segment = s.segment := rfl
@[simp] theorem State.flag_pinned (s : State) (b : Nat) (f : Fld) : (s.flag b f).pinned = s.pinned := rfl
@[simp] theorem State.flag_coreriEvents (s : State) (b : Nat) (f : Fld) : (s.flag b f).coreriEvents = s.coreriEvents := rfl
@[simp] theorem State.flag_dram (s : State) (b : Nat) (f : Fld) : (s.flag b f).dram = s.dram := rfl
@[simp] theorem State.flag_mergeBytes (s : State) (b : Nat) (f : Fld) : (s.flag b f).mergeBytes = s.mergeBytes := rfl
@[simp] theorem State.flag_cacheBytes (s : State) (b : Nat) (f : Fld) : (s.flag b f).cacheBytes = s.cacheBytes := rfl
@[simp] theorem State.flag_resvs (s : State) (b : Nat) (f : Fld) : (s.flag b f).resvs = s.resvs := rfl
@[simp] theorem State.flag_caches (s : State) (b : Nat) (f : Fld) : (s.flag b f).caches = s.caches := rfl
@[simp] theorem State.flag_poison (s : State) (b : Nat) (f : Fld) : (s.flag b f).poison = s.poison := rfl
@[simp] theorem State.flag_garbage (s : State) (b : Nat) (f : Fld) : (s.flag b f).garbage = s.garbage := rfl
@[simp] theorem State.flag_answers (s : State) (b : Nat) (f : Fld) : (s.flag b f).answers = s.answers := rfl
@[simp] theorem State.flag_waking (s : State) (b : Nat) (f : Fld) : (s.flag b f).waking = s.waking := rfl
@[simp] theorem State.flag_polOld (s : State) (b : Nat) (f : Fld) : (s.flag b f).polOld = s.polOld := rfl
@[simp] theorem State.flag_sdms (s : State) (b : Nat) (f : Fld) : (s.flag b f).sdms = s.sdms := rfl
@[simp] theorem State.flag_hostMem (s : State) (b : Nat) (f : Fld) : (s.flag b f).hostMem = s.hostMem := rfl
@[simp] theorem State.flag_msis (s : State) (b : Nat) (f : Fld) : (s.flag b f).msis = s.msis := rfl
@[simp] theorem State.flag_hifs (s : State) (b : Nat) (f : Fld) : (s.flag b f).hifs = s.hifs := rfl
@[simp] theorem State.flag_cmdSeq (s : State) (b : Nat) (f : Fld) : (s.flag b f).cmdSeq = s.cmdSeq := rfl
@[simp] theorem State.flag_buffered (s : State) (b : Nat) (f : Fld) : (s.flag b f).buffered = s.buffered := rfl
@[simp] theorem State.flag_trims (s : State) (b : Nat) (f : Fld) : (s.flag b f).trims = s.trims := rfl
@[simp] theorem State.flag_nsCaps (s : State) (b : Nat) (f : Fld) : (s.flag b f).nsCaps = s.nsCaps := rfl
@[simp] theorem State.flag_attached (s : State) (b : Nat) (f : Fld) : (s.flag b f).attached = s.attached := rfl
@[simp] theorem State.flag_segLru (s : State) (b : Nat) (f : Fld) : (s.flag b f).segLru = s.segLru := rfl

@[simp] theorem State.putB_pending (s : State) (b : Nat) (f : Fld) (x : Bool) : (s.putB b f x).pending = s.pending := rfl
@[simp] theorem State.putB_free (s : State) (b : Nat) (f : Fld) (x : Bool) : (s.putB b f x).free = s.free := rfl
@[simp] theorem State.putB_ticks (s : State) (b : Nat) (f : Fld) (x : Bool) : (s.putB b f x).ticks = s.ticks := rfl
@[simp] theorem State.putB_board (s : State) (b : Nat) (f : Fld) (x : Bool) : (s.putB b f x).board = s.board := rfl
@[simp] theorem State.putB_asserted (s : State) (b : Nat) (f : Fld) (x : Bool) : (s.putB b f x).asserted = s.asserted := rfl
@[simp] theorem State.putB_draining (s : State) (b : Nat) (f : Fld) (x : Bool) : (s.putB b f x).draining = s.draining := rfl
@[simp] theorem State.putB_up (s : State) (b : Nat) (f : Fld) (x : Bool) : (s.putB b f x).up = s.up := rfl
@[simp] theorem State.putB_motorUp (s : State) (b : Nat) (f : Fld) (x : Bool) : (s.putB b f x).motorUp = s.motorUp := rfl
@[simp] theorem State.putB_rails (s : State) (b : Nat) (f : Fld) (x : Bool) : (s.putB b f x).rails = s.rails := rfl
@[simp] theorem State.putB_collectors (s : State) (b : Nat) (f : Fld) (x : Bool) : (s.putB b f x).collectors = s.collectors := rfl
@[simp] theorem State.putB_evQueue (s : State) (b : Nat) (f : Fld) (x : Bool) : (s.putB b f x).evQueue = s.evQueue := rfl
@[simp] theorem State.putB_lamps (s : State) (b : Nat) (f : Fld) (x : Bool) : (s.putB b f x).lamps = s.lamps := rfl
@[simp] theorem State.putB_lampHours (s : State) (b : Nat) (f : Fld) (x : Bool) : (s.putB b f x).lampHours = s.lampHours := rfl
@[simp] theorem State.putB_traces (s : State) (b : Nat) (f : Fld) (x : Bool) : (s.putB b f x).traces = s.traces := rfl
@[simp] theorem State.putB_traceOut (s : State) (b : Nat) (f : Fld) (x : Bool) : (s.putB b f x).traceOut = s.traceOut := rfl
@[simp] theorem State.putB_traceTurn (s : State) (b : Nat) (f : Fld) (x : Bool) : (s.putB b f x).traceTurn = s.traceTurn := rfl
@[simp] theorem State.putB_lastRead (s : State) (b : Nat) (f : Fld) (x : Bool) : (s.putB b f x).lastRead = s.lastRead := rfl
@[simp] theorem State.putB_mhalf (s : State) (b : Nat) (f : Fld) (x : Bool) : (s.putB b f x).mhalf = s.mhalf := rfl
@[simp] theorem State.putB_mcore (s : State) (b : Nat) (f : Fld) (x : Bool) : (s.putB b f x).mcore = s.mcore := rfl
@[simp] theorem State.putB_preamps (s : State) (b : Nat) (f : Fld) (x : Bool) : (s.putB b f x).preamps = s.preamps := rfl
@[simp] theorem State.putB_ports (s : State) (b : Nat) (f : Fld) (x : Bool) : (s.putB b f x).ports = s.ports := rfl
@[simp] theorem State.putB_wicks (s : State) (b : Nat) (f : Fld) (x : Bool) : (s.putB b f x).wicks = s.wicks := rfl
@[simp] theorem State.putB_rchs (s : State) (b : Nat) (f : Fld) (x : Bool) : (s.putB b f x).rchs = s.rchs := rfl
@[simp] theorem State.putB_fmts (s : State) (b : Nat) (f : Fld) (x : Bool) : (s.putB b f x).fmts = s.fmts := rfl
@[simp] theorem State.putB_srvs (s : State) (b : Nat) (f : Fld) (x : Bool) : (s.putB b f x).srvs = s.srvs := rfl
@[simp] theorem State.putB_spns (s : State) (b : Nat) (f : Fld) (x : Bool) : (s.putB b f x).spns = s.spns := rfl
@[simp] theorem State.putB_mot (s : State) (b : Nat) (f : Fld) (x : Bool) : (s.putB b f x).mot = s.mot := rfl
@[simp] theorem State.putB_opDone (s : State) (b : Nat) (f : Fld) (x : Bool) : (s.putB b f x).opDone = s.opDone := rfl
@[simp] theorem State.putB_staging (s : State) (b : Nat) (f : Fld) (x : Bool) : (s.putB b f x).staging = s.staging := rfl
@[simp] theorem State.putB_parity (s : State) (b : Nat) (f : Fld) (x : Bool) : (s.putB b f x).parity = s.parity := rfl
@[simp] theorem State.putB_segment (s : State) (b : Nat) (f : Fld) (x : Bool) : (s.putB b f x).segment = s.segment := rfl
@[simp] theorem State.putB_pinned (s : State) (b : Nat) (f : Fld) (x : Bool) : (s.putB b f x).pinned = s.pinned := rfl
@[simp] theorem State.putB_coreriEvents (s : State) (b : Nat) (f : Fld) (x : Bool) : (s.putB b f x).coreriEvents = s.coreriEvents := rfl
@[simp] theorem State.putB_dram (s : State) (b : Nat) (f : Fld) (x : Bool) : (s.putB b f x).dram = s.dram := rfl
@[simp] theorem State.putB_mergeBytes (s : State) (b : Nat) (f : Fld) (x : Bool) : (s.putB b f x).mergeBytes = s.mergeBytes := rfl
@[simp] theorem State.putB_cacheBytes (s : State) (b : Nat) (f : Fld) (x : Bool) : (s.putB b f x).cacheBytes = s.cacheBytes := rfl
@[simp] theorem State.putB_resvs (s : State) (b : Nat) (f : Fld) (x : Bool) : (s.putB b f x).resvs = s.resvs := rfl
@[simp] theorem State.putB_caches (s : State) (b : Nat) (f : Fld) (x : Bool) : (s.putB b f x).caches = s.caches := rfl
@[simp] theorem State.putB_poison (s : State) (b : Nat) (f : Fld) (x : Bool) : (s.putB b f x).poison = s.poison := rfl
@[simp] theorem State.putB_garbage (s : State) (b : Nat) (f : Fld) (x : Bool) : (s.putB b f x).garbage = s.garbage := rfl
@[simp] theorem State.putB_answers (s : State) (b : Nat) (f : Fld) (x : Bool) : (s.putB b f x).answers = s.answers := rfl
@[simp] theorem State.putB_waking (s : State) (b : Nat) (f : Fld) (x : Bool) : (s.putB b f x).waking = s.waking := rfl
@[simp] theorem State.putB_polOld (s : State) (b : Nat) (f : Fld) (x : Bool) : (s.putB b f x).polOld = s.polOld := rfl
@[simp] theorem State.putB_sdms (s : State) (b : Nat) (f : Fld) (x : Bool) : (s.putB b f x).sdms = s.sdms := rfl
@[simp] theorem State.putB_hostMem (s : State) (b : Nat) (f : Fld) (x : Bool) : (s.putB b f x).hostMem = s.hostMem := rfl
@[simp] theorem State.putB_msis (s : State) (b : Nat) (f : Fld) (x : Bool) : (s.putB b f x).msis = s.msis := rfl
@[simp] theorem State.putB_hifs (s : State) (b : Nat) (f : Fld) (x : Bool) : (s.putB b f x).hifs = s.hifs := rfl
@[simp] theorem State.putB_cmdSeq (s : State) (b : Nat) (f : Fld) (x : Bool) : (s.putB b f x).cmdSeq = s.cmdSeq := rfl
@[simp] theorem State.putB_buffered (s : State) (b : Nat) (f : Fld) (x : Bool) : (s.putB b f x).buffered = s.buffered := rfl
@[simp] theorem State.putB_trims (s : State) (b : Nat) (f : Fld) (x : Bool) : (s.putB b f x).trims = s.trims := rfl
@[simp] theorem State.putB_nsCaps (s : State) (b : Nat) (f : Fld) (x : Bool) : (s.putB b f x).nsCaps = s.nsCaps := rfl
@[simp] theorem State.putB_attached (s : State) (b : Nat) (f : Fld) (x : Bool) : (s.putB b f x).attached = s.attached := rfl
@[simp] theorem State.putB_segLru (s : State) (b : Nat) (f : Fld) (x : Bool) : (s.putB b f x).segLru = s.segLru := rfl

@[simp] theorem State.satAdd_pending (s : State) (b : Nat) (f : Fld) (n : Nat) : (s.satAdd b f n).pending = s.pending := rfl
@[simp] theorem State.satAdd_free (s : State) (b : Nat) (f : Fld) (n : Nat) : (s.satAdd b f n).free = s.free := rfl
@[simp] theorem State.satAdd_ticks (s : State) (b : Nat) (f : Fld) (n : Nat) : (s.satAdd b f n).ticks = s.ticks := rfl
@[simp] theorem State.satAdd_board (s : State) (b : Nat) (f : Fld) (n : Nat) : (s.satAdd b f n).board = s.board := rfl
@[simp] theorem State.satAdd_asserted (s : State) (b : Nat) (f : Fld) (n : Nat) : (s.satAdd b f n).asserted = s.asserted := rfl
@[simp] theorem State.satAdd_draining (s : State) (b : Nat) (f : Fld) (n : Nat) : (s.satAdd b f n).draining = s.draining := rfl
@[simp] theorem State.satAdd_up (s : State) (b : Nat) (f : Fld) (n : Nat) : (s.satAdd b f n).up = s.up := rfl
@[simp] theorem State.satAdd_motorUp (s : State) (b : Nat) (f : Fld) (n : Nat) : (s.satAdd b f n).motorUp = s.motorUp := rfl
@[simp] theorem State.satAdd_rails (s : State) (b : Nat) (f : Fld) (n : Nat) : (s.satAdd b f n).rails = s.rails := rfl
@[simp] theorem State.satAdd_collectors (s : State) (b : Nat) (f : Fld) (n : Nat) : (s.satAdd b f n).collectors = s.collectors := rfl
@[simp] theorem State.satAdd_evQueue (s : State) (b : Nat) (f : Fld) (n : Nat) : (s.satAdd b f n).evQueue = s.evQueue := rfl
@[simp] theorem State.satAdd_lamps (s : State) (b : Nat) (f : Fld) (n : Nat) : (s.satAdd b f n).lamps = s.lamps := rfl
@[simp] theorem State.satAdd_lampHours (s : State) (b : Nat) (f : Fld) (n : Nat) : (s.satAdd b f n).lampHours = s.lampHours := rfl
@[simp] theorem State.satAdd_traces (s : State) (b : Nat) (f : Fld) (n : Nat) : (s.satAdd b f n).traces = s.traces := rfl
@[simp] theorem State.satAdd_traceOut (s : State) (b : Nat) (f : Fld) (n : Nat) : (s.satAdd b f n).traceOut = s.traceOut := rfl
@[simp] theorem State.satAdd_traceTurn (s : State) (b : Nat) (f : Fld) (n : Nat) : (s.satAdd b f n).traceTurn = s.traceTurn := rfl
@[simp] theorem State.satAdd_lastRead (s : State) (b : Nat) (f : Fld) (n : Nat) : (s.satAdd b f n).lastRead = s.lastRead := rfl
@[simp] theorem State.satAdd_mhalf (s : State) (b : Nat) (f : Fld) (n : Nat) : (s.satAdd b f n).mhalf = s.mhalf := rfl
@[simp] theorem State.satAdd_mcore (s : State) (b : Nat) (f : Fld) (n : Nat) : (s.satAdd b f n).mcore = s.mcore := rfl
@[simp] theorem State.satAdd_preamps (s : State) (b : Nat) (f : Fld) (n : Nat) : (s.satAdd b f n).preamps = s.preamps := rfl
@[simp] theorem State.satAdd_ports (s : State) (b : Nat) (f : Fld) (n : Nat) : (s.satAdd b f n).ports = s.ports := rfl
@[simp] theorem State.satAdd_wicks (s : State) (b : Nat) (f : Fld) (n : Nat) : (s.satAdd b f n).wicks = s.wicks := rfl
@[simp] theorem State.satAdd_rchs (s : State) (b : Nat) (f : Fld) (n : Nat) : (s.satAdd b f n).rchs = s.rchs := rfl
@[simp] theorem State.satAdd_fmts (s : State) (b : Nat) (f : Fld) (n : Nat) : (s.satAdd b f n).fmts = s.fmts := rfl
@[simp] theorem State.satAdd_srvs (s : State) (b : Nat) (f : Fld) (n : Nat) : (s.satAdd b f n).srvs = s.srvs := rfl
@[simp] theorem State.satAdd_spns (s : State) (b : Nat) (f : Fld) (n : Nat) : (s.satAdd b f n).spns = s.spns := rfl
@[simp] theorem State.satAdd_mot (s : State) (b : Nat) (f : Fld) (n : Nat) : (s.satAdd b f n).mot = s.mot := rfl
@[simp] theorem State.satAdd_opDone (s : State) (b : Nat) (f : Fld) (n : Nat) : (s.satAdd b f n).opDone = s.opDone := rfl
@[simp] theorem State.satAdd_staging (s : State) (b : Nat) (f : Fld) (n : Nat) : (s.satAdd b f n).staging = s.staging := rfl
@[simp] theorem State.satAdd_parity (s : State) (b : Nat) (f : Fld) (n : Nat) : (s.satAdd b f n).parity = s.parity := rfl
@[simp] theorem State.satAdd_segment (s : State) (b : Nat) (f : Fld) (n : Nat) : (s.satAdd b f n).segment = s.segment := rfl
@[simp] theorem State.satAdd_pinned (s : State) (b : Nat) (f : Fld) (n : Nat) : (s.satAdd b f n).pinned = s.pinned := rfl
@[simp] theorem State.satAdd_coreriEvents (s : State) (b : Nat) (f : Fld) (n : Nat) : (s.satAdd b f n).coreriEvents = s.coreriEvents := rfl
@[simp] theorem State.satAdd_dram (s : State) (b : Nat) (f : Fld) (n : Nat) : (s.satAdd b f n).dram = s.dram := rfl
@[simp] theorem State.satAdd_mergeBytes (s : State) (b : Nat) (f : Fld) (n : Nat) : (s.satAdd b f n).mergeBytes = s.mergeBytes := rfl
@[simp] theorem State.satAdd_cacheBytes (s : State) (b : Nat) (f : Fld) (n : Nat) : (s.satAdd b f n).cacheBytes = s.cacheBytes := rfl
@[simp] theorem State.satAdd_resvs (s : State) (b : Nat) (f : Fld) (n : Nat) : (s.satAdd b f n).resvs = s.resvs := rfl
@[simp] theorem State.satAdd_caches (s : State) (b : Nat) (f : Fld) (n : Nat) : (s.satAdd b f n).caches = s.caches := rfl
@[simp] theorem State.satAdd_poison (s : State) (b : Nat) (f : Fld) (n : Nat) : (s.satAdd b f n).poison = s.poison := rfl
@[simp] theorem State.satAdd_garbage (s : State) (b : Nat) (f : Fld) (n : Nat) : (s.satAdd b f n).garbage = s.garbage := rfl
@[simp] theorem State.satAdd_answers (s : State) (b : Nat) (f : Fld) (n : Nat) : (s.satAdd b f n).answers = s.answers := rfl
@[simp] theorem State.satAdd_waking (s : State) (b : Nat) (f : Fld) (n : Nat) : (s.satAdd b f n).waking = s.waking := rfl
@[simp] theorem State.satAdd_polOld (s : State) (b : Nat) (f : Fld) (n : Nat) : (s.satAdd b f n).polOld = s.polOld := rfl
@[simp] theorem State.satAdd_sdms (s : State) (b : Nat) (f : Fld) (n : Nat) : (s.satAdd b f n).sdms = s.sdms := rfl
@[simp] theorem State.satAdd_hostMem (s : State) (b : Nat) (f : Fld) (n : Nat) : (s.satAdd b f n).hostMem = s.hostMem := rfl
@[simp] theorem State.satAdd_msis (s : State) (b : Nat) (f : Fld) (n : Nat) : (s.satAdd b f n).msis = s.msis := rfl
@[simp] theorem State.satAdd_hifs (s : State) (b : Nat) (f : Fld) (n : Nat) : (s.satAdd b f n).hifs = s.hifs := rfl
@[simp] theorem State.satAdd_cmdSeq (s : State) (b : Nat) (f : Fld) (n : Nat) : (s.satAdd b f n).cmdSeq = s.cmdSeq := rfl
@[simp] theorem State.satAdd_buffered (s : State) (b : Nat) (f : Fld) (n : Nat) : (s.satAdd b f n).buffered = s.buffered := rfl
@[simp] theorem State.satAdd_trims (s : State) (b : Nat) (f : Fld) (n : Nat) : (s.satAdd b f n).trims = s.trims := rfl
@[simp] theorem State.satAdd_nsCaps (s : State) (b : Nat) (f : Fld) (n : Nat) : (s.satAdd b f n).nsCaps = s.nsCaps := rfl
@[simp] theorem State.satAdd_attached (s : State) (b : Nat) (f : Fld) (n : Nat) : (s.satAdd b f n).attached = s.attached := rfl
@[simp] theorem State.satAdd_segLru (s : State) (b : Nat) (f : Fld) (n : Nat) : (s.satAdd b f n).segLru = s.segLru := rfl

@[simp] theorem State.peak_pending (s : State) (b : Nat) (f : Fld) (v : Nat) : (s.peak b f v).pending = s.pending := rfl
@[simp] theorem State.peak_free (s : State) (b : Nat) (f : Fld) (v : Nat) : (s.peak b f v).free = s.free := rfl
@[simp] theorem State.peak_ticks (s : State) (b : Nat) (f : Fld) (v : Nat) : (s.peak b f v).ticks = s.ticks := rfl
@[simp] theorem State.peak_board (s : State) (b : Nat) (f : Fld) (v : Nat) : (s.peak b f v).board = s.board := rfl
@[simp] theorem State.peak_asserted (s : State) (b : Nat) (f : Fld) (v : Nat) : (s.peak b f v).asserted = s.asserted := rfl
@[simp] theorem State.peak_draining (s : State) (b : Nat) (f : Fld) (v : Nat) : (s.peak b f v).draining = s.draining := rfl
@[simp] theorem State.peak_up (s : State) (b : Nat) (f : Fld) (v : Nat) : (s.peak b f v).up = s.up := rfl
@[simp] theorem State.peak_motorUp (s : State) (b : Nat) (f : Fld) (v : Nat) : (s.peak b f v).motorUp = s.motorUp := rfl
@[simp] theorem State.peak_rails (s : State) (b : Nat) (f : Fld) (v : Nat) : (s.peak b f v).rails = s.rails := rfl
@[simp] theorem State.peak_collectors (s : State) (b : Nat) (f : Fld) (v : Nat) : (s.peak b f v).collectors = s.collectors := rfl
@[simp] theorem State.peak_evQueue (s : State) (b : Nat) (f : Fld) (v : Nat) : (s.peak b f v).evQueue = s.evQueue := rfl
@[simp] theorem State.peak_lamps (s : State) (b : Nat) (f : Fld) (v : Nat) : (s.peak b f v).lamps = s.lamps := rfl
@[simp] theorem State.peak_lampHours (s : State) (b : Nat) (f : Fld) (v : Nat) : (s.peak b f v).lampHours = s.lampHours := rfl
@[simp] theorem State.peak_traces (s : State) (b : Nat) (f : Fld) (v : Nat) : (s.peak b f v).traces = s.traces := rfl
@[simp] theorem State.peak_traceOut (s : State) (b : Nat) (f : Fld) (v : Nat) : (s.peak b f v).traceOut = s.traceOut := rfl
@[simp] theorem State.peak_traceTurn (s : State) (b : Nat) (f : Fld) (v : Nat) : (s.peak b f v).traceTurn = s.traceTurn := rfl
@[simp] theorem State.peak_lastRead (s : State) (b : Nat) (f : Fld) (v : Nat) : (s.peak b f v).lastRead = s.lastRead := rfl
@[simp] theorem State.peak_mhalf (s : State) (b : Nat) (f : Fld) (v : Nat) : (s.peak b f v).mhalf = s.mhalf := rfl
@[simp] theorem State.peak_mcore (s : State) (b : Nat) (f : Fld) (v : Nat) : (s.peak b f v).mcore = s.mcore := rfl
@[simp] theorem State.peak_preamps (s : State) (b : Nat) (f : Fld) (v : Nat) : (s.peak b f v).preamps = s.preamps := rfl
@[simp] theorem State.peak_ports (s : State) (b : Nat) (f : Fld) (v : Nat) : (s.peak b f v).ports = s.ports := rfl
@[simp] theorem State.peak_wicks (s : State) (b : Nat) (f : Fld) (v : Nat) : (s.peak b f v).wicks = s.wicks := rfl
@[simp] theorem State.peak_rchs (s : State) (b : Nat) (f : Fld) (v : Nat) : (s.peak b f v).rchs = s.rchs := rfl
@[simp] theorem State.peak_fmts (s : State) (b : Nat) (f : Fld) (v : Nat) : (s.peak b f v).fmts = s.fmts := rfl
@[simp] theorem State.peak_srvs (s : State) (b : Nat) (f : Fld) (v : Nat) : (s.peak b f v).srvs = s.srvs := rfl
@[simp] theorem State.peak_spns (s : State) (b : Nat) (f : Fld) (v : Nat) : (s.peak b f v).spns = s.spns := rfl
@[simp] theorem State.peak_mot (s : State) (b : Nat) (f : Fld) (v : Nat) : (s.peak b f v).mot = s.mot := rfl
@[simp] theorem State.peak_opDone (s : State) (b : Nat) (f : Fld) (v : Nat) : (s.peak b f v).opDone = s.opDone := rfl
@[simp] theorem State.peak_staging (s : State) (b : Nat) (f : Fld) (v : Nat) : (s.peak b f v).staging = s.staging := rfl
@[simp] theorem State.peak_parity (s : State) (b : Nat) (f : Fld) (v : Nat) : (s.peak b f v).parity = s.parity := rfl
@[simp] theorem State.peak_segment (s : State) (b : Nat) (f : Fld) (v : Nat) : (s.peak b f v).segment = s.segment := rfl
@[simp] theorem State.peak_pinned (s : State) (b : Nat) (f : Fld) (v : Nat) : (s.peak b f v).pinned = s.pinned := rfl
@[simp] theorem State.peak_coreriEvents (s : State) (b : Nat) (f : Fld) (v : Nat) : (s.peak b f v).coreriEvents = s.coreriEvents := rfl
@[simp] theorem State.peak_dram (s : State) (b : Nat) (f : Fld) (v : Nat) : (s.peak b f v).dram = s.dram := rfl
@[simp] theorem State.peak_mergeBytes (s : State) (b : Nat) (f : Fld) (v : Nat) : (s.peak b f v).mergeBytes = s.mergeBytes := rfl
@[simp] theorem State.peak_cacheBytes (s : State) (b : Nat) (f : Fld) (v : Nat) : (s.peak b f v).cacheBytes = s.cacheBytes := rfl
@[simp] theorem State.peak_resvs (s : State) (b : Nat) (f : Fld) (v : Nat) : (s.peak b f v).resvs = s.resvs := rfl
@[simp] theorem State.peak_caches (s : State) (b : Nat) (f : Fld) (v : Nat) : (s.peak b f v).caches = s.caches := rfl
@[simp] theorem State.peak_poison (s : State) (b : Nat) (f : Fld) (v : Nat) : (s.peak b f v).poison = s.poison := rfl
@[simp] theorem State.peak_garbage (s : State) (b : Nat) (f : Fld) (v : Nat) : (s.peak b f v).garbage = s.garbage := rfl
@[simp] theorem State.peak_answers (s : State) (b : Nat) (f : Fld) (v : Nat) : (s.peak b f v).answers = s.answers := rfl
@[simp] theorem State.peak_waking (s : State) (b : Nat) (f : Fld) (v : Nat) : (s.peak b f v).waking = s.waking := rfl
@[simp] theorem State.peak_polOld (s : State) (b : Nat) (f : Fld) (v : Nat) : (s.peak b f v).polOld = s.polOld := rfl
@[simp] theorem State.peak_sdms (s : State) (b : Nat) (f : Fld) (v : Nat) : (s.peak b f v).sdms = s.sdms := rfl
@[simp] theorem State.peak_hostMem (s : State) (b : Nat) (f : Fld) (v : Nat) : (s.peak b f v).hostMem = s.hostMem := rfl
@[simp] theorem State.peak_msis (s : State) (b : Nat) (f : Fld) (v : Nat) : (s.peak b f v).msis = s.msis := rfl
@[simp] theorem State.peak_hifs (s : State) (b : Nat) (f : Fld) (v : Nat) : (s.peak b f v).hifs = s.hifs := rfl
@[simp] theorem State.peak_cmdSeq (s : State) (b : Nat) (f : Fld) (v : Nat) : (s.peak b f v).cmdSeq = s.cmdSeq := rfl
@[simp] theorem State.peak_buffered (s : State) (b : Nat) (f : Fld) (v : Nat) : (s.peak b f v).buffered = s.buffered := rfl
@[simp] theorem State.peak_trims (s : State) (b : Nat) (f : Fld) (v : Nat) : (s.peak b f v).trims = s.trims := rfl
@[simp] theorem State.peak_nsCaps (s : State) (b : Nat) (f : Fld) (v : Nat) : (s.peak b f v).nsCaps = s.nsCaps := rfl
@[simp] theorem State.peak_attached (s : State) (b : Nat) (f : Fld) (v : Nat) : (s.peak b f v).attached = s.attached := rfl
@[simp] theorem State.peak_segLru (s : State) (b : Nat) (f : Fld) (v : Nat) : (s.peak b f v).segLru = s.segLru := rfl

@[simp] theorem State.putMaskBit_pending (s : State) (b : Nat) (f : Fld) (i : Nat) (x : Bool) : (s.putMaskBit b f i x).pending = s.pending := rfl
@[simp] theorem State.putMaskBit_free (s : State) (b : Nat) (f : Fld) (i : Nat) (x : Bool) : (s.putMaskBit b f i x).free = s.free := rfl
@[simp] theorem State.putMaskBit_ticks (s : State) (b : Nat) (f : Fld) (i : Nat) (x : Bool) : (s.putMaskBit b f i x).ticks = s.ticks := rfl
@[simp] theorem State.putMaskBit_board (s : State) (b : Nat) (f : Fld) (i : Nat) (x : Bool) : (s.putMaskBit b f i x).board = s.board := rfl
@[simp] theorem State.putMaskBit_asserted (s : State) (b : Nat) (f : Fld) (i : Nat) (x : Bool) : (s.putMaskBit b f i x).asserted = s.asserted := rfl
@[simp] theorem State.putMaskBit_draining (s : State) (b : Nat) (f : Fld) (i : Nat) (x : Bool) : (s.putMaskBit b f i x).draining = s.draining := rfl
@[simp] theorem State.putMaskBit_up (s : State) (b : Nat) (f : Fld) (i : Nat) (x : Bool) : (s.putMaskBit b f i x).up = s.up := rfl
@[simp] theorem State.putMaskBit_motorUp (s : State) (b : Nat) (f : Fld) (i : Nat) (x : Bool) : (s.putMaskBit b f i x).motorUp = s.motorUp := rfl
@[simp] theorem State.putMaskBit_rails (s : State) (b : Nat) (f : Fld) (i : Nat) (x : Bool) : (s.putMaskBit b f i x).rails = s.rails := rfl
@[simp] theorem State.putMaskBit_collectors (s : State) (b : Nat) (f : Fld) (i : Nat) (x : Bool) : (s.putMaskBit b f i x).collectors = s.collectors := rfl
@[simp] theorem State.putMaskBit_evQueue (s : State) (b : Nat) (f : Fld) (i : Nat) (x : Bool) : (s.putMaskBit b f i x).evQueue = s.evQueue := rfl
@[simp] theorem State.putMaskBit_lamps (s : State) (b : Nat) (f : Fld) (i : Nat) (x : Bool) : (s.putMaskBit b f i x).lamps = s.lamps := rfl
@[simp] theorem State.putMaskBit_lampHours (s : State) (b : Nat) (f : Fld) (i : Nat) (x : Bool) : (s.putMaskBit b f i x).lampHours = s.lampHours := rfl
@[simp] theorem State.putMaskBit_traces (s : State) (b : Nat) (f : Fld) (i : Nat) (x : Bool) : (s.putMaskBit b f i x).traces = s.traces := rfl
@[simp] theorem State.putMaskBit_traceOut (s : State) (b : Nat) (f : Fld) (i : Nat) (x : Bool) : (s.putMaskBit b f i x).traceOut = s.traceOut := rfl
@[simp] theorem State.putMaskBit_traceTurn (s : State) (b : Nat) (f : Fld) (i : Nat) (x : Bool) : (s.putMaskBit b f i x).traceTurn = s.traceTurn := rfl
@[simp] theorem State.putMaskBit_lastRead (s : State) (b : Nat) (f : Fld) (i : Nat) (x : Bool) : (s.putMaskBit b f i x).lastRead = s.lastRead := rfl
@[simp] theorem State.putMaskBit_mhalf (s : State) (b : Nat) (f : Fld) (i : Nat) (x : Bool) : (s.putMaskBit b f i x).mhalf = s.mhalf := rfl
@[simp] theorem State.putMaskBit_mcore (s : State) (b : Nat) (f : Fld) (i : Nat) (x : Bool) : (s.putMaskBit b f i x).mcore = s.mcore := rfl
@[simp] theorem State.putMaskBit_preamps (s : State) (b : Nat) (f : Fld) (i : Nat) (x : Bool) : (s.putMaskBit b f i x).preamps = s.preamps := rfl
@[simp] theorem State.putMaskBit_ports (s : State) (b : Nat) (f : Fld) (i : Nat) (x : Bool) : (s.putMaskBit b f i x).ports = s.ports := rfl
@[simp] theorem State.putMaskBit_wicks (s : State) (b : Nat) (f : Fld) (i : Nat) (x : Bool) : (s.putMaskBit b f i x).wicks = s.wicks := rfl
@[simp] theorem State.putMaskBit_rchs (s : State) (b : Nat) (f : Fld) (i : Nat) (x : Bool) : (s.putMaskBit b f i x).rchs = s.rchs := rfl
@[simp] theorem State.putMaskBit_fmts (s : State) (b : Nat) (f : Fld) (i : Nat) (x : Bool) : (s.putMaskBit b f i x).fmts = s.fmts := rfl
@[simp] theorem State.putMaskBit_srvs (s : State) (b : Nat) (f : Fld) (i : Nat) (x : Bool) : (s.putMaskBit b f i x).srvs = s.srvs := rfl
@[simp] theorem State.putMaskBit_spns (s : State) (b : Nat) (f : Fld) (i : Nat) (x : Bool) : (s.putMaskBit b f i x).spns = s.spns := rfl
@[simp] theorem State.putMaskBit_mot (s : State) (b : Nat) (f : Fld) (i : Nat) (x : Bool) : (s.putMaskBit b f i x).mot = s.mot := rfl
@[simp] theorem State.putMaskBit_opDone (s : State) (b : Nat) (f : Fld) (i : Nat) (x : Bool) : (s.putMaskBit b f i x).opDone = s.opDone := rfl
@[simp] theorem State.putMaskBit_staging (s : State) (b : Nat) (f : Fld) (i : Nat) (x : Bool) : (s.putMaskBit b f i x).staging = s.staging := rfl
@[simp] theorem State.putMaskBit_parity (s : State) (b : Nat) (f : Fld) (i : Nat) (x : Bool) : (s.putMaskBit b f i x).parity = s.parity := rfl
@[simp] theorem State.putMaskBit_segment (s : State) (b : Nat) (f : Fld) (i : Nat) (x : Bool) : (s.putMaskBit b f i x).segment = s.segment := rfl
@[simp] theorem State.putMaskBit_pinned (s : State) (b : Nat) (f : Fld) (i : Nat) (x : Bool) : (s.putMaskBit b f i x).pinned = s.pinned := rfl
@[simp] theorem State.putMaskBit_coreriEvents (s : State) (b : Nat) (f : Fld) (i : Nat) (x : Bool) : (s.putMaskBit b f i x).coreriEvents = s.coreriEvents := rfl
@[simp] theorem State.putMaskBit_dram (s : State) (b : Nat) (f : Fld) (i : Nat) (x : Bool) : (s.putMaskBit b f i x).dram = s.dram := rfl
@[simp] theorem State.putMaskBit_mergeBytes (s : State) (b : Nat) (f : Fld) (i : Nat) (x : Bool) : (s.putMaskBit b f i x).mergeBytes = s.mergeBytes := rfl
@[simp] theorem State.putMaskBit_cacheBytes (s : State) (b : Nat) (f : Fld) (i : Nat) (x : Bool) : (s.putMaskBit b f i x).cacheBytes = s.cacheBytes := rfl
@[simp] theorem State.putMaskBit_resvs (s : State) (b : Nat) (f : Fld) (i : Nat) (x : Bool) : (s.putMaskBit b f i x).resvs = s.resvs := rfl
@[simp] theorem State.putMaskBit_caches (s : State) (b : Nat) (f : Fld) (i : Nat) (x : Bool) : (s.putMaskBit b f i x).caches = s.caches := rfl
@[simp] theorem State.putMaskBit_poison (s : State) (b : Nat) (f : Fld) (i : Nat) (x : Bool) : (s.putMaskBit b f i x).poison = s.poison := rfl
@[simp] theorem State.putMaskBit_garbage (s : State) (b : Nat) (f : Fld) (i : Nat) (x : Bool) : (s.putMaskBit b f i x).garbage = s.garbage := rfl
@[simp] theorem State.putMaskBit_answers (s : State) (b : Nat) (f : Fld) (i : Nat) (x : Bool) : (s.putMaskBit b f i x).answers = s.answers := rfl
@[simp] theorem State.putMaskBit_waking (s : State) (b : Nat) (f : Fld) (i : Nat) (x : Bool) : (s.putMaskBit b f i x).waking = s.waking := rfl
@[simp] theorem State.putMaskBit_polOld (s : State) (b : Nat) (f : Fld) (i : Nat) (x : Bool) : (s.putMaskBit b f i x).polOld = s.polOld := rfl
@[simp] theorem State.putMaskBit_sdms (s : State) (b : Nat) (f : Fld) (i : Nat) (x : Bool) : (s.putMaskBit b f i x).sdms = s.sdms := rfl
@[simp] theorem State.putMaskBit_hostMem (s : State) (b : Nat) (f : Fld) (i : Nat) (x : Bool) : (s.putMaskBit b f i x).hostMem = s.hostMem := rfl
@[simp] theorem State.putMaskBit_msis (s : State) (b : Nat) (f : Fld) (i : Nat) (x : Bool) : (s.putMaskBit b f i x).msis = s.msis := rfl
@[simp] theorem State.putMaskBit_hifs (s : State) (b : Nat) (f : Fld) (i : Nat) (x : Bool) : (s.putMaskBit b f i x).hifs = s.hifs := rfl
@[simp] theorem State.putMaskBit_cmdSeq (s : State) (b : Nat) (f : Fld) (i : Nat) (x : Bool) : (s.putMaskBit b f i x).cmdSeq = s.cmdSeq := rfl
@[simp] theorem State.putMaskBit_buffered (s : State) (b : Nat) (f : Fld) (i : Nat) (x : Bool) : (s.putMaskBit b f i x).buffered = s.buffered := rfl
@[simp] theorem State.putMaskBit_trims (s : State) (b : Nat) (f : Fld) (i : Nat) (x : Bool) : (s.putMaskBit b f i x).trims = s.trims := rfl
@[simp] theorem State.putMaskBit_nsCaps (s : State) (b : Nat) (f : Fld) (i : Nat) (x : Bool) : (s.putMaskBit b f i x).nsCaps = s.nsCaps := rfl
@[simp] theorem State.putMaskBit_attached (s : State) (b : Nat) (f : Fld) (i : Nat) (x : Bool) : (s.putMaskBit b f i x).attached = s.attached := rfl
@[simp] theorem State.putMaskBit_segLru (s : State) (b : Nat) (f : Fld) (i : Nat) (x : Bool) : (s.putMaskBit b f i x).segLru = s.segLru := rfl

@[simp] theorem State.set64_pending (s : State) (a v : Nat) : (s.set64 a v).pending = s.pending := rfl
@[simp] theorem State.set64_free (s : State) (a v : Nat) : (s.set64 a v).free = s.free := rfl
@[simp] theorem State.set64_ticks (s : State) (a v : Nat) : (s.set64 a v).ticks = s.ticks := rfl
@[simp] theorem State.set64_board (s : State) (a v : Nat) : (s.set64 a v).board = s.board := rfl
@[simp] theorem State.set64_asserted (s : State) (a v : Nat) : (s.set64 a v).asserted = s.asserted := rfl
@[simp] theorem State.set64_draining (s : State) (a v : Nat) : (s.set64 a v).draining = s.draining := rfl
@[simp] theorem State.set64_up (s : State) (a v : Nat) : (s.set64 a v).up = s.up := rfl
@[simp] theorem State.set64_motorUp (s : State) (a v : Nat) : (s.set64 a v).motorUp = s.motorUp := rfl
@[simp] theorem State.set64_rails (s : State) (a v : Nat) : (s.set64 a v).rails = s.rails := rfl
@[simp] theorem State.set64_collectors (s : State) (a v : Nat) : (s.set64 a v).collectors = s.collectors := rfl
@[simp] theorem State.set64_evQueue (s : State) (a v : Nat) : (s.set64 a v).evQueue = s.evQueue := rfl
@[simp] theorem State.set64_lamps (s : State) (a v : Nat) : (s.set64 a v).lamps = s.lamps := rfl
@[simp] theorem State.set64_lampHours (s : State) (a v : Nat) : (s.set64 a v).lampHours = s.lampHours := rfl
@[simp] theorem State.set64_traces (s : State) (a v : Nat) : (s.set64 a v).traces = s.traces := rfl
@[simp] theorem State.set64_traceOut (s : State) (a v : Nat) : (s.set64 a v).traceOut = s.traceOut := rfl
@[simp] theorem State.set64_traceTurn (s : State) (a v : Nat) : (s.set64 a v).traceTurn = s.traceTurn := rfl
@[simp] theorem State.set64_lastRead (s : State) (a v : Nat) : (s.set64 a v).lastRead = s.lastRead := rfl
@[simp] theorem State.set64_mhalf (s : State) (a v : Nat) : (s.set64 a v).mhalf = s.mhalf := rfl
@[simp] theorem State.set64_mcore (s : State) (a v : Nat) : (s.set64 a v).mcore = s.mcore := rfl
@[simp] theorem State.set64_preamps (s : State) (a v : Nat) : (s.set64 a v).preamps = s.preamps := rfl
@[simp] theorem State.set64_ports (s : State) (a v : Nat) : (s.set64 a v).ports = s.ports := rfl
@[simp] theorem State.set64_wicks (s : State) (a v : Nat) : (s.set64 a v).wicks = s.wicks := rfl
@[simp] theorem State.set64_rchs (s : State) (a v : Nat) : (s.set64 a v).rchs = s.rchs := rfl
@[simp] theorem State.set64_fmts (s : State) (a v : Nat) : (s.set64 a v).fmts = s.fmts := rfl
@[simp] theorem State.set64_srvs (s : State) (a v : Nat) : (s.set64 a v).srvs = s.srvs := rfl
@[simp] theorem State.set64_spns (s : State) (a v : Nat) : (s.set64 a v).spns = s.spns := rfl
@[simp] theorem State.set64_mot (s : State) (a v : Nat) : (s.set64 a v).mot = s.mot := rfl
@[simp] theorem State.set64_opDone (s : State) (a v : Nat) : (s.set64 a v).opDone = s.opDone := rfl
@[simp] theorem State.set64_staging (s : State) (a v : Nat) : (s.set64 a v).staging = s.staging := rfl
@[simp] theorem State.set64_parity (s : State) (a v : Nat) : (s.set64 a v).parity = s.parity := rfl
@[simp] theorem State.set64_segment (s : State) (a v : Nat) : (s.set64 a v).segment = s.segment := rfl
@[simp] theorem State.set64_pinned (s : State) (a v : Nat) : (s.set64 a v).pinned = s.pinned := rfl
@[simp] theorem State.set64_coreriEvents (s : State) (a v : Nat) : (s.set64 a v).coreriEvents = s.coreriEvents := rfl
@[simp] theorem State.set64_dram (s : State) (a v : Nat) : (s.set64 a v).dram = s.dram := rfl
@[simp] theorem State.set64_mergeBytes (s : State) (a v : Nat) : (s.set64 a v).mergeBytes = s.mergeBytes := rfl
@[simp] theorem State.set64_cacheBytes (s : State) (a v : Nat) : (s.set64 a v).cacheBytes = s.cacheBytes := rfl
@[simp] theorem State.set64_resvs (s : State) (a v : Nat) : (s.set64 a v).resvs = s.resvs := rfl
@[simp] theorem State.set64_caches (s : State) (a v : Nat) : (s.set64 a v).caches = s.caches := rfl
@[simp] theorem State.set64_poison (s : State) (a v : Nat) : (s.set64 a v).poison = s.poison := rfl
@[simp] theorem State.set64_garbage (s : State) (a v : Nat) : (s.set64 a v).garbage = s.garbage := rfl
@[simp] theorem State.set64_answers (s : State) (a v : Nat) : (s.set64 a v).answers = s.answers := rfl
@[simp] theorem State.set64_waking (s : State) (a v : Nat) : (s.set64 a v).waking = s.waking := rfl
@[simp] theorem State.set64_polOld (s : State) (a v : Nat) : (s.set64 a v).polOld = s.polOld := rfl
@[simp] theorem State.set64_sdms (s : State) (a v : Nat) : (s.set64 a v).sdms = s.sdms := rfl
@[simp] theorem State.set64_hostMem (s : State) (a v : Nat) : (s.set64 a v).hostMem = s.hostMem := rfl
@[simp] theorem State.set64_msis (s : State) (a v : Nat) : (s.set64 a v).msis = s.msis := rfl
@[simp] theorem State.set64_hifs (s : State) (a v : Nat) : (s.set64 a v).hifs = s.hifs := rfl
@[simp] theorem State.set64_cmdSeq (s : State) (a v : Nat) : (s.set64 a v).cmdSeq = s.cmdSeq := rfl
@[simp] theorem State.set64_buffered (s : State) (a v : Nat) : (s.set64 a v).buffered = s.buffered := rfl
@[simp] theorem State.set64_trims (s : State) (a v : Nat) : (s.set64 a v).trims = s.trims := rfl
@[simp] theorem State.set64_nsCaps (s : State) (a v : Nat) : (s.set64 a v).nsCaps = s.nsCaps := rfl
@[simp] theorem State.set64_attached (s : State) (a v : Nat) : (s.set64 a v).attached = s.attached := rfl
@[simp] theorem State.set64_segLru (s : State) (a v : Nat) : (s.set64 a v).segLru = s.segLru := rfl

@[simp] theorem State.clearRange_pending (s : State) (lo hi : Nat) : (s.clearRange lo hi).pending = s.pending := rfl
@[simp] theorem State.clearRange_free (s : State) (lo hi : Nat) : (s.clearRange lo hi).free = s.free := rfl
@[simp] theorem State.clearRange_ticks (s : State) (lo hi : Nat) : (s.clearRange lo hi).ticks = s.ticks := rfl
@[simp] theorem State.clearRange_board (s : State) (lo hi : Nat) : (s.clearRange lo hi).board = s.board := rfl
@[simp] theorem State.clearRange_asserted (s : State) (lo hi : Nat) : (s.clearRange lo hi).asserted = s.asserted := rfl
@[simp] theorem State.clearRange_draining (s : State) (lo hi : Nat) : (s.clearRange lo hi).draining = s.draining := rfl
@[simp] theorem State.clearRange_up (s : State) (lo hi : Nat) : (s.clearRange lo hi).up = s.up := rfl
@[simp] theorem State.clearRange_motorUp (s : State) (lo hi : Nat) : (s.clearRange lo hi).motorUp = s.motorUp := rfl
@[simp] theorem State.clearRange_rails (s : State) (lo hi : Nat) : (s.clearRange lo hi).rails = s.rails := rfl
@[simp] theorem State.clearRange_collectors (s : State) (lo hi : Nat) : (s.clearRange lo hi).collectors = s.collectors := rfl
@[simp] theorem State.clearRange_evQueue (s : State) (lo hi : Nat) : (s.clearRange lo hi).evQueue = s.evQueue := rfl
@[simp] theorem State.clearRange_lamps (s : State) (lo hi : Nat) : (s.clearRange lo hi).lamps = s.lamps := rfl
@[simp] theorem State.clearRange_lampHours (s : State) (lo hi : Nat) : (s.clearRange lo hi).lampHours = s.lampHours := rfl
@[simp] theorem State.clearRange_traces (s : State) (lo hi : Nat) : (s.clearRange lo hi).traces = s.traces := rfl
@[simp] theorem State.clearRange_traceOut (s : State) (lo hi : Nat) : (s.clearRange lo hi).traceOut = s.traceOut := rfl
@[simp] theorem State.clearRange_traceTurn (s : State) (lo hi : Nat) : (s.clearRange lo hi).traceTurn = s.traceTurn := rfl
@[simp] theorem State.clearRange_lastRead (s : State) (lo hi : Nat) : (s.clearRange lo hi).lastRead = s.lastRead := rfl
@[simp] theorem State.clearRange_mhalf (s : State) (lo hi : Nat) : (s.clearRange lo hi).mhalf = s.mhalf := rfl
@[simp] theorem State.clearRange_mcore (s : State) (lo hi : Nat) : (s.clearRange lo hi).mcore = s.mcore := rfl
@[simp] theorem State.clearRange_preamps (s : State) (lo hi : Nat) : (s.clearRange lo hi).preamps = s.preamps := rfl
@[simp] theorem State.clearRange_ports (s : State) (lo hi : Nat) : (s.clearRange lo hi).ports = s.ports := rfl
@[simp] theorem State.clearRange_wicks (s : State) (lo hi : Nat) : (s.clearRange lo hi).wicks = s.wicks := rfl
@[simp] theorem State.clearRange_rchs (s : State) (lo hi : Nat) : (s.clearRange lo hi).rchs = s.rchs := rfl
@[simp] theorem State.clearRange_fmts (s : State) (lo hi : Nat) : (s.clearRange lo hi).fmts = s.fmts := rfl
@[simp] theorem State.clearRange_srvs (s : State) (lo hi : Nat) : (s.clearRange lo hi).srvs = s.srvs := rfl
@[simp] theorem State.clearRange_spns (s : State) (lo hi : Nat) : (s.clearRange lo hi).spns = s.spns := rfl
@[simp] theorem State.clearRange_mot (s : State) (lo hi : Nat) : (s.clearRange lo hi).mot = s.mot := rfl
@[simp] theorem State.clearRange_opDone (s : State) (lo hi : Nat) : (s.clearRange lo hi).opDone = s.opDone := rfl
@[simp] theorem State.clearRange_staging (s : State) (lo hi : Nat) : (s.clearRange lo hi).staging = s.staging := rfl
@[simp] theorem State.clearRange_parity (s : State) (lo hi : Nat) : (s.clearRange lo hi).parity = s.parity := rfl
@[simp] theorem State.clearRange_segment (s : State) (lo hi : Nat) : (s.clearRange lo hi).segment = s.segment := rfl
@[simp] theorem State.clearRange_pinned (s : State) (lo hi : Nat) : (s.clearRange lo hi).pinned = s.pinned := rfl
@[simp] theorem State.clearRange_coreriEvents (s : State) (lo hi : Nat) : (s.clearRange lo hi).coreriEvents = s.coreriEvents := rfl
@[simp] theorem State.clearRange_dram (s : State) (lo hi : Nat) : (s.clearRange lo hi).dram = s.dram := rfl
@[simp] theorem State.clearRange_mergeBytes (s : State) (lo hi : Nat) : (s.clearRange lo hi).mergeBytes = s.mergeBytes := rfl
@[simp] theorem State.clearRange_cacheBytes (s : State) (lo hi : Nat) : (s.clearRange lo hi).cacheBytes = s.cacheBytes := rfl
@[simp] theorem State.clearRange_resvs (s : State) (lo hi : Nat) : (s.clearRange lo hi).resvs = s.resvs := rfl
@[simp] theorem State.clearRange_caches (s : State) (lo hi : Nat) : (s.clearRange lo hi).caches = s.caches := rfl
@[simp] theorem State.clearRange_poison (s : State) (lo hi : Nat) : (s.clearRange lo hi).poison = s.poison := rfl
@[simp] theorem State.clearRange_garbage (s : State) (lo hi : Nat) : (s.clearRange lo hi).garbage = s.garbage := rfl
@[simp] theorem State.clearRange_answers (s : State) (lo hi : Nat) : (s.clearRange lo hi).answers = s.answers := rfl
@[simp] theorem State.clearRange_waking (s : State) (lo hi : Nat) : (s.clearRange lo hi).waking = s.waking := rfl
@[simp] theorem State.clearRange_polOld (s : State) (lo hi : Nat) : (s.clearRange lo hi).polOld = s.polOld := rfl
@[simp] theorem State.clearRange_sdms (s : State) (lo hi : Nat) : (s.clearRange lo hi).sdms = s.sdms := rfl
@[simp] theorem State.clearRange_hostMem (s : State) (lo hi : Nat) : (s.clearRange lo hi).hostMem = s.hostMem := rfl
@[simp] theorem State.clearRange_msis (s : State) (lo hi : Nat) : (s.clearRange lo hi).msis = s.msis := rfl
@[simp] theorem State.clearRange_hifs (s : State) (lo hi : Nat) : (s.clearRange lo hi).hifs = s.hifs := rfl
@[simp] theorem State.clearRange_cmdSeq (s : State) (lo hi : Nat) : (s.clearRange lo hi).cmdSeq = s.cmdSeq := rfl
@[simp] theorem State.clearRange_buffered (s : State) (lo hi : Nat) : (s.clearRange lo hi).buffered = s.buffered := rfl
@[simp] theorem State.clearRange_trims (s : State) (lo hi : Nat) : (s.clearRange lo hi).trims = s.trims := rfl
@[simp] theorem State.clearRange_nsCaps (s : State) (lo hi : Nat) : (s.clearRange lo hi).nsCaps = s.nsCaps := rfl
@[simp] theorem State.clearRange_attached (s : State) (lo hi : Nat) : (s.clearRange lo hi).attached = s.attached := rfl
@[simp] theorem State.clearRange_segLru (s : State) (lo hi : Nat) : (s.clearRange lo hi).segLru = s.segLru := rfl

@[simp] theorem State.setMh_pending (s : State) (k : Nat) (v : MantleHalf) : (s.setMh k v).pending = s.pending := rfl
@[simp] theorem State.setMh_free (s : State) (k : Nat) (v : MantleHalf) : (s.setMh k v).free = s.free := rfl
@[simp] theorem State.setMh_ticks (s : State) (k : Nat) (v : MantleHalf) : (s.setMh k v).ticks = s.ticks := rfl
@[simp] theorem State.setMh_regs (s : State) (k : Nat) (v : MantleHalf) : (s.setMh k v).regs = s.regs := rfl
@[simp] theorem State.setMh_board (s : State) (k : Nat) (v : MantleHalf) : (s.setMh k v).board = s.board := rfl
@[simp] theorem State.setMh_asserted (s : State) (k : Nat) (v : MantleHalf) : (s.setMh k v).asserted = s.asserted := rfl
@[simp] theorem State.setMh_draining (s : State) (k : Nat) (v : MantleHalf) : (s.setMh k v).draining = s.draining := rfl
@[simp] theorem State.setMh_up (s : State) (k : Nat) (v : MantleHalf) : (s.setMh k v).up = s.up := rfl
@[simp] theorem State.setMh_motorUp (s : State) (k : Nat) (v : MantleHalf) : (s.setMh k v).motorUp = s.motorUp := rfl
@[simp] theorem State.setMh_rails (s : State) (k : Nat) (v : MantleHalf) : (s.setMh k v).rails = s.rails := rfl
@[simp] theorem State.setMh_collectors (s : State) (k : Nat) (v : MantleHalf) : (s.setMh k v).collectors = s.collectors := rfl
@[simp] theorem State.setMh_evQueue (s : State) (k : Nat) (v : MantleHalf) : (s.setMh k v).evQueue = s.evQueue := rfl
@[simp] theorem State.setMh_lamps (s : State) (k : Nat) (v : MantleHalf) : (s.setMh k v).lamps = s.lamps := rfl
@[simp] theorem State.setMh_lampHours (s : State) (k : Nat) (v : MantleHalf) : (s.setMh k v).lampHours = s.lampHours := rfl
@[simp] theorem State.setMh_traces (s : State) (k : Nat) (v : MantleHalf) : (s.setMh k v).traces = s.traces := rfl
@[simp] theorem State.setMh_traceOut (s : State) (k : Nat) (v : MantleHalf) : (s.setMh k v).traceOut = s.traceOut := rfl
@[simp] theorem State.setMh_traceTurn (s : State) (k : Nat) (v : MantleHalf) : (s.setMh k v).traceTurn = s.traceTurn := rfl
@[simp] theorem State.setMh_lastRead (s : State) (k : Nat) (v : MantleHalf) : (s.setMh k v).lastRead = s.lastRead := rfl
@[simp] theorem State.setMh_mcore (s : State) (k : Nat) (v : MantleHalf) : (s.setMh k v).mcore = s.mcore := rfl
@[simp] theorem State.setMh_preamps (s : State) (k : Nat) (v : MantleHalf) : (s.setMh k v).preamps = s.preamps := rfl
@[simp] theorem State.setMh_ports (s : State) (k : Nat) (v : MantleHalf) : (s.setMh k v).ports = s.ports := rfl
@[simp] theorem State.setMh_wicks (s : State) (k : Nat) (v : MantleHalf) : (s.setMh k v).wicks = s.wicks := rfl
@[simp] theorem State.setMh_rchs (s : State) (k : Nat) (v : MantleHalf) : (s.setMh k v).rchs = s.rchs := rfl
@[simp] theorem State.setMh_fmts (s : State) (k : Nat) (v : MantleHalf) : (s.setMh k v).fmts = s.fmts := rfl
@[simp] theorem State.setMh_srvs (s : State) (k : Nat) (v : MantleHalf) : (s.setMh k v).srvs = s.srvs := rfl
@[simp] theorem State.setMh_spns (s : State) (k : Nat) (v : MantleHalf) : (s.setMh k v).spns = s.spns := rfl
@[simp] theorem State.setMh_mot (s : State) (k : Nat) (v : MantleHalf) : (s.setMh k v).mot = s.mot := rfl
@[simp] theorem State.setMh_opDone (s : State) (k : Nat) (v : MantleHalf) : (s.setMh k v).opDone = s.opDone := rfl
@[simp] theorem State.setMh_staging (s : State) (k : Nat) (v : MantleHalf) : (s.setMh k v).staging = s.staging := rfl
@[simp] theorem State.setMh_parity (s : State) (k : Nat) (v : MantleHalf) : (s.setMh k v).parity = s.parity := rfl
@[simp] theorem State.setMh_segment (s : State) (k : Nat) (v : MantleHalf) : (s.setMh k v).segment = s.segment := rfl
@[simp] theorem State.setMh_pinned (s : State) (k : Nat) (v : MantleHalf) : (s.setMh k v).pinned = s.pinned := rfl
@[simp] theorem State.setMh_coreriEvents (s : State) (k : Nat) (v : MantleHalf) : (s.setMh k v).coreriEvents = s.coreriEvents := rfl
@[simp] theorem State.setMh_dram (s : State) (k : Nat) (v : MantleHalf) : (s.setMh k v).dram = s.dram := rfl
@[simp] theorem State.setMh_mergeBytes (s : State) (k : Nat) (v : MantleHalf) : (s.setMh k v).mergeBytes = s.mergeBytes := rfl
@[simp] theorem State.setMh_cacheBytes (s : State) (k : Nat) (v : MantleHalf) : (s.setMh k v).cacheBytes = s.cacheBytes := rfl
@[simp] theorem State.setMh_resvs (s : State) (k : Nat) (v : MantleHalf) : (s.setMh k v).resvs = s.resvs := rfl
@[simp] theorem State.setMh_caches (s : State) (k : Nat) (v : MantleHalf) : (s.setMh k v).caches = s.caches := rfl
@[simp] theorem State.setMh_poison (s : State) (k : Nat) (v : MantleHalf) : (s.setMh k v).poison = s.poison := rfl
@[simp] theorem State.setMh_garbage (s : State) (k : Nat) (v : MantleHalf) : (s.setMh k v).garbage = s.garbage := rfl
@[simp] theorem State.setMh_answers (s : State) (k : Nat) (v : MantleHalf) : (s.setMh k v).answers = s.answers := rfl
@[simp] theorem State.setMh_waking (s : State) (k : Nat) (v : MantleHalf) : (s.setMh k v).waking = s.waking := rfl
@[simp] theorem State.setMh_polOld (s : State) (k : Nat) (v : MantleHalf) : (s.setMh k v).polOld = s.polOld := rfl
@[simp] theorem State.setMh_sdms (s : State) (k : Nat) (v : MantleHalf) : (s.setMh k v).sdms = s.sdms := rfl
@[simp] theorem State.setMh_hostMem (s : State) (k : Nat) (v : MantleHalf) : (s.setMh k v).hostMem = s.hostMem := rfl
@[simp] theorem State.setMh_msis (s : State) (k : Nat) (v : MantleHalf) : (s.setMh k v).msis = s.msis := rfl
@[simp] theorem State.setMh_hifs (s : State) (k : Nat) (v : MantleHalf) : (s.setMh k v).hifs = s.hifs := rfl
@[simp] theorem State.setMh_cmdSeq (s : State) (k : Nat) (v : MantleHalf) : (s.setMh k v).cmdSeq = s.cmdSeq := rfl
@[simp] theorem State.setMh_buffered (s : State) (k : Nat) (v : MantleHalf) : (s.setMh k v).buffered = s.buffered := rfl
@[simp] theorem State.setMh_trims (s : State) (k : Nat) (v : MantleHalf) : (s.setMh k v).trims = s.trims := rfl
@[simp] theorem State.setMh_nsCaps (s : State) (k : Nat) (v : MantleHalf) : (s.setMh k v).nsCaps = s.nsCaps := rfl
@[simp] theorem State.setMh_attached (s : State) (k : Nat) (v : MantleHalf) : (s.setMh k v).attached = s.attached := rfl
@[simp] theorem State.setMh_segLru (s : State) (k : Nat) (v : MantleHalf) : (s.setMh k v).segLru = s.segLru := rfl

@[simp] theorem State.setPa_pending (s : State) (k : Nat) (v : Preamp) : (s.setPa k v).pending = s.pending := rfl
@[simp] theorem State.setPa_free (s : State) (k : Nat) (v : Preamp) : (s.setPa k v).free = s.free := rfl
@[simp] theorem State.setPa_ticks (s : State) (k : Nat) (v : Preamp) : (s.setPa k v).ticks = s.ticks := rfl
@[simp] theorem State.setPa_regs (s : State) (k : Nat) (v : Preamp) : (s.setPa k v).regs = s.regs := rfl
@[simp] theorem State.setPa_board (s : State) (k : Nat) (v : Preamp) : (s.setPa k v).board = s.board := rfl
@[simp] theorem State.setPa_asserted (s : State) (k : Nat) (v : Preamp) : (s.setPa k v).asserted = s.asserted := rfl
@[simp] theorem State.setPa_draining (s : State) (k : Nat) (v : Preamp) : (s.setPa k v).draining = s.draining := rfl
@[simp] theorem State.setPa_up (s : State) (k : Nat) (v : Preamp) : (s.setPa k v).up = s.up := rfl
@[simp] theorem State.setPa_motorUp (s : State) (k : Nat) (v : Preamp) : (s.setPa k v).motorUp = s.motorUp := rfl
@[simp] theorem State.setPa_rails (s : State) (k : Nat) (v : Preamp) : (s.setPa k v).rails = s.rails := rfl
@[simp] theorem State.setPa_collectors (s : State) (k : Nat) (v : Preamp) : (s.setPa k v).collectors = s.collectors := rfl
@[simp] theorem State.setPa_evQueue (s : State) (k : Nat) (v : Preamp) : (s.setPa k v).evQueue = s.evQueue := rfl
@[simp] theorem State.setPa_lamps (s : State) (k : Nat) (v : Preamp) : (s.setPa k v).lamps = s.lamps := rfl
@[simp] theorem State.setPa_lampHours (s : State) (k : Nat) (v : Preamp) : (s.setPa k v).lampHours = s.lampHours := rfl
@[simp] theorem State.setPa_traces (s : State) (k : Nat) (v : Preamp) : (s.setPa k v).traces = s.traces := rfl
@[simp] theorem State.setPa_traceOut (s : State) (k : Nat) (v : Preamp) : (s.setPa k v).traceOut = s.traceOut := rfl
@[simp] theorem State.setPa_traceTurn (s : State) (k : Nat) (v : Preamp) : (s.setPa k v).traceTurn = s.traceTurn := rfl
@[simp] theorem State.setPa_lastRead (s : State) (k : Nat) (v : Preamp) : (s.setPa k v).lastRead = s.lastRead := rfl
@[simp] theorem State.setPa_mhalf (s : State) (k : Nat) (v : Preamp) : (s.setPa k v).mhalf = s.mhalf := rfl
@[simp] theorem State.setPa_mcore (s : State) (k : Nat) (v : Preamp) : (s.setPa k v).mcore = s.mcore := rfl
@[simp] theorem State.setPa_ports (s : State) (k : Nat) (v : Preamp) : (s.setPa k v).ports = s.ports := rfl
@[simp] theorem State.setPa_wicks (s : State) (k : Nat) (v : Preamp) : (s.setPa k v).wicks = s.wicks := rfl
@[simp] theorem State.setPa_rchs (s : State) (k : Nat) (v : Preamp) : (s.setPa k v).rchs = s.rchs := rfl
@[simp] theorem State.setPa_fmts (s : State) (k : Nat) (v : Preamp) : (s.setPa k v).fmts = s.fmts := rfl
@[simp] theorem State.setPa_srvs (s : State) (k : Nat) (v : Preamp) : (s.setPa k v).srvs = s.srvs := rfl
@[simp] theorem State.setPa_spns (s : State) (k : Nat) (v : Preamp) : (s.setPa k v).spns = s.spns := rfl
@[simp] theorem State.setPa_mot (s : State) (k : Nat) (v : Preamp) : (s.setPa k v).mot = s.mot := rfl
@[simp] theorem State.setPa_opDone (s : State) (k : Nat) (v : Preamp) : (s.setPa k v).opDone = s.opDone := rfl
@[simp] theorem State.setPa_staging (s : State) (k : Nat) (v : Preamp) : (s.setPa k v).staging = s.staging := rfl
@[simp] theorem State.setPa_parity (s : State) (k : Nat) (v : Preamp) : (s.setPa k v).parity = s.parity := rfl
@[simp] theorem State.setPa_segment (s : State) (k : Nat) (v : Preamp) : (s.setPa k v).segment = s.segment := rfl
@[simp] theorem State.setPa_pinned (s : State) (k : Nat) (v : Preamp) : (s.setPa k v).pinned = s.pinned := rfl
@[simp] theorem State.setPa_coreriEvents (s : State) (k : Nat) (v : Preamp) : (s.setPa k v).coreriEvents = s.coreriEvents := rfl
@[simp] theorem State.setPa_dram (s : State) (k : Nat) (v : Preamp) : (s.setPa k v).dram = s.dram := rfl
@[simp] theorem State.setPa_mergeBytes (s : State) (k : Nat) (v : Preamp) : (s.setPa k v).mergeBytes = s.mergeBytes := rfl
@[simp] theorem State.setPa_cacheBytes (s : State) (k : Nat) (v : Preamp) : (s.setPa k v).cacheBytes = s.cacheBytes := rfl
@[simp] theorem State.setPa_resvs (s : State) (k : Nat) (v : Preamp) : (s.setPa k v).resvs = s.resvs := rfl
@[simp] theorem State.setPa_caches (s : State) (k : Nat) (v : Preamp) : (s.setPa k v).caches = s.caches := rfl
@[simp] theorem State.setPa_poison (s : State) (k : Nat) (v : Preamp) : (s.setPa k v).poison = s.poison := rfl
@[simp] theorem State.setPa_garbage (s : State) (k : Nat) (v : Preamp) : (s.setPa k v).garbage = s.garbage := rfl
@[simp] theorem State.setPa_answers (s : State) (k : Nat) (v : Preamp) : (s.setPa k v).answers = s.answers := rfl
@[simp] theorem State.setPa_waking (s : State) (k : Nat) (v : Preamp) : (s.setPa k v).waking = s.waking := rfl
@[simp] theorem State.setPa_polOld (s : State) (k : Nat) (v : Preamp) : (s.setPa k v).polOld = s.polOld := rfl
@[simp] theorem State.setPa_sdms (s : State) (k : Nat) (v : Preamp) : (s.setPa k v).sdms = s.sdms := rfl
@[simp] theorem State.setPa_hostMem (s : State) (k : Nat) (v : Preamp) : (s.setPa k v).hostMem = s.hostMem := rfl
@[simp] theorem State.setPa_msis (s : State) (k : Nat) (v : Preamp) : (s.setPa k v).msis = s.msis := rfl
@[simp] theorem State.setPa_hifs (s : State) (k : Nat) (v : Preamp) : (s.setPa k v).hifs = s.hifs := rfl
@[simp] theorem State.setPa_cmdSeq (s : State) (k : Nat) (v : Preamp) : (s.setPa k v).cmdSeq = s.cmdSeq := rfl
@[simp] theorem State.setPa_buffered (s : State) (k : Nat) (v : Preamp) : (s.setPa k v).buffered = s.buffered := rfl
@[simp] theorem State.setPa_trims (s : State) (k : Nat) (v : Preamp) : (s.setPa k v).trims = s.trims := rfl
@[simp] theorem State.setPa_nsCaps (s : State) (k : Nat) (v : Preamp) : (s.setPa k v).nsCaps = s.nsCaps := rfl
@[simp] theorem State.setPa_attached (s : State) (k : Nat) (v : Preamp) : (s.setPa k v).attached = s.attached := rfl
@[simp] theorem State.setPa_segLru (s : State) (k : Nat) (v : Preamp) : (s.setPa k v).segLru = s.segLru := rfl

@[simp] theorem State.setPort_pending (s : State) (k : Nat) (v : Grz) : (s.setPort k v).pending = s.pending := rfl
@[simp] theorem State.setPort_free (s : State) (k : Nat) (v : Grz) : (s.setPort k v).free = s.free := rfl
@[simp] theorem State.setPort_ticks (s : State) (k : Nat) (v : Grz) : (s.setPort k v).ticks = s.ticks := rfl
@[simp] theorem State.setPort_regs (s : State) (k : Nat) (v : Grz) : (s.setPort k v).regs = s.regs := rfl
@[simp] theorem State.setPort_board (s : State) (k : Nat) (v : Grz) : (s.setPort k v).board = s.board := rfl
@[simp] theorem State.setPort_asserted (s : State) (k : Nat) (v : Grz) : (s.setPort k v).asserted = s.asserted := rfl
@[simp] theorem State.setPort_draining (s : State) (k : Nat) (v : Grz) : (s.setPort k v).draining = s.draining := rfl
@[simp] theorem State.setPort_up (s : State) (k : Nat) (v : Grz) : (s.setPort k v).up = s.up := rfl
@[simp] theorem State.setPort_motorUp (s : State) (k : Nat) (v : Grz) : (s.setPort k v).motorUp = s.motorUp := rfl
@[simp] theorem State.setPort_rails (s : State) (k : Nat) (v : Grz) : (s.setPort k v).rails = s.rails := rfl
@[simp] theorem State.setPort_collectors (s : State) (k : Nat) (v : Grz) : (s.setPort k v).collectors = s.collectors := rfl
@[simp] theorem State.setPort_evQueue (s : State) (k : Nat) (v : Grz) : (s.setPort k v).evQueue = s.evQueue := rfl
@[simp] theorem State.setPort_lamps (s : State) (k : Nat) (v : Grz) : (s.setPort k v).lamps = s.lamps := rfl
@[simp] theorem State.setPort_lampHours (s : State) (k : Nat) (v : Grz) : (s.setPort k v).lampHours = s.lampHours := rfl
@[simp] theorem State.setPort_traces (s : State) (k : Nat) (v : Grz) : (s.setPort k v).traces = s.traces := rfl
@[simp] theorem State.setPort_traceOut (s : State) (k : Nat) (v : Grz) : (s.setPort k v).traceOut = s.traceOut := rfl
@[simp] theorem State.setPort_traceTurn (s : State) (k : Nat) (v : Grz) : (s.setPort k v).traceTurn = s.traceTurn := rfl
@[simp] theorem State.setPort_lastRead (s : State) (k : Nat) (v : Grz) : (s.setPort k v).lastRead = s.lastRead := rfl
@[simp] theorem State.setPort_mhalf (s : State) (k : Nat) (v : Grz) : (s.setPort k v).mhalf = s.mhalf := rfl
@[simp] theorem State.setPort_mcore (s : State) (k : Nat) (v : Grz) : (s.setPort k v).mcore = s.mcore := rfl
@[simp] theorem State.setPort_preamps (s : State) (k : Nat) (v : Grz) : (s.setPort k v).preamps = s.preamps := rfl
@[simp] theorem State.setPort_wicks (s : State) (k : Nat) (v : Grz) : (s.setPort k v).wicks = s.wicks := rfl
@[simp] theorem State.setPort_rchs (s : State) (k : Nat) (v : Grz) : (s.setPort k v).rchs = s.rchs := rfl
@[simp] theorem State.setPort_fmts (s : State) (k : Nat) (v : Grz) : (s.setPort k v).fmts = s.fmts := rfl
@[simp] theorem State.setPort_srvs (s : State) (k : Nat) (v : Grz) : (s.setPort k v).srvs = s.srvs := rfl
@[simp] theorem State.setPort_spns (s : State) (k : Nat) (v : Grz) : (s.setPort k v).spns = s.spns := rfl
@[simp] theorem State.setPort_mot (s : State) (k : Nat) (v : Grz) : (s.setPort k v).mot = s.mot := rfl
@[simp] theorem State.setPort_opDone (s : State) (k : Nat) (v : Grz) : (s.setPort k v).opDone = s.opDone := rfl
@[simp] theorem State.setPort_staging (s : State) (k : Nat) (v : Grz) : (s.setPort k v).staging = s.staging := rfl
@[simp] theorem State.setPort_parity (s : State) (k : Nat) (v : Grz) : (s.setPort k v).parity = s.parity := rfl
@[simp] theorem State.setPort_segment (s : State) (k : Nat) (v : Grz) : (s.setPort k v).segment = s.segment := rfl
@[simp] theorem State.setPort_pinned (s : State) (k : Nat) (v : Grz) : (s.setPort k v).pinned = s.pinned := rfl
@[simp] theorem State.setPort_coreriEvents (s : State) (k : Nat) (v : Grz) : (s.setPort k v).coreriEvents = s.coreriEvents := rfl
@[simp] theorem State.setPort_dram (s : State) (k : Nat) (v : Grz) : (s.setPort k v).dram = s.dram := rfl
@[simp] theorem State.setPort_mergeBytes (s : State) (k : Nat) (v : Grz) : (s.setPort k v).mergeBytes = s.mergeBytes := rfl
@[simp] theorem State.setPort_cacheBytes (s : State) (k : Nat) (v : Grz) : (s.setPort k v).cacheBytes = s.cacheBytes := rfl
@[simp] theorem State.setPort_resvs (s : State) (k : Nat) (v : Grz) : (s.setPort k v).resvs = s.resvs := rfl
@[simp] theorem State.setPort_caches (s : State) (k : Nat) (v : Grz) : (s.setPort k v).caches = s.caches := rfl
@[simp] theorem State.setPort_poison (s : State) (k : Nat) (v : Grz) : (s.setPort k v).poison = s.poison := rfl
@[simp] theorem State.setPort_garbage (s : State) (k : Nat) (v : Grz) : (s.setPort k v).garbage = s.garbage := rfl
@[simp] theorem State.setPort_answers (s : State) (k : Nat) (v : Grz) : (s.setPort k v).answers = s.answers := rfl
@[simp] theorem State.setPort_waking (s : State) (k : Nat) (v : Grz) : (s.setPort k v).waking = s.waking := rfl
@[simp] theorem State.setPort_polOld (s : State) (k : Nat) (v : Grz) : (s.setPort k v).polOld = s.polOld := rfl
@[simp] theorem State.setPort_sdms (s : State) (k : Nat) (v : Grz) : (s.setPort k v).sdms = s.sdms := rfl
@[simp] theorem State.setPort_hostMem (s : State) (k : Nat) (v : Grz) : (s.setPort k v).hostMem = s.hostMem := rfl
@[simp] theorem State.setPort_msis (s : State) (k : Nat) (v : Grz) : (s.setPort k v).msis = s.msis := rfl
@[simp] theorem State.setPort_hifs (s : State) (k : Nat) (v : Grz) : (s.setPort k v).hifs = s.hifs := rfl
@[simp] theorem State.setPort_cmdSeq (s : State) (k : Nat) (v : Grz) : (s.setPort k v).cmdSeq = s.cmdSeq := rfl
@[simp] theorem State.setPort_buffered (s : State) (k : Nat) (v : Grz) : (s.setPort k v).buffered = s.buffered := rfl
@[simp] theorem State.setPort_trims (s : State) (k : Nat) (v : Grz) : (s.setPort k v).trims = s.trims := rfl
@[simp] theorem State.setPort_nsCaps (s : State) (k : Nat) (v : Grz) : (s.setPort k v).nsCaps = s.nsCaps := rfl
@[simp] theorem State.setPort_attached (s : State) (k : Nat) (v : Grz) : (s.setPort k v).attached = s.attached := rfl
@[simp] theorem State.setPort_segLru (s : State) (k : Nat) (v : Grz) : (s.setPort k v).segLru = s.segLru := rfl

@[simp] theorem State.setWick_pending (s : State) (k : Nat) (v : Wick) : (s.setWick k v).pending = s.pending := rfl
@[simp] theorem State.setWick_free (s : State) (k : Nat) (v : Wick) : (s.setWick k v).free = s.free := rfl
@[simp] theorem State.setWick_ticks (s : State) (k : Nat) (v : Wick) : (s.setWick k v).ticks = s.ticks := rfl
@[simp] theorem State.setWick_regs (s : State) (k : Nat) (v : Wick) : (s.setWick k v).regs = s.regs := rfl
@[simp] theorem State.setWick_board (s : State) (k : Nat) (v : Wick) : (s.setWick k v).board = s.board := rfl
@[simp] theorem State.setWick_asserted (s : State) (k : Nat) (v : Wick) : (s.setWick k v).asserted = s.asserted := rfl
@[simp] theorem State.setWick_draining (s : State) (k : Nat) (v : Wick) : (s.setWick k v).draining = s.draining := rfl
@[simp] theorem State.setWick_up (s : State) (k : Nat) (v : Wick) : (s.setWick k v).up = s.up := rfl
@[simp] theorem State.setWick_motorUp (s : State) (k : Nat) (v : Wick) : (s.setWick k v).motorUp = s.motorUp := rfl
@[simp] theorem State.setWick_rails (s : State) (k : Nat) (v : Wick) : (s.setWick k v).rails = s.rails := rfl
@[simp] theorem State.setWick_collectors (s : State) (k : Nat) (v : Wick) : (s.setWick k v).collectors = s.collectors := rfl
@[simp] theorem State.setWick_evQueue (s : State) (k : Nat) (v : Wick) : (s.setWick k v).evQueue = s.evQueue := rfl
@[simp] theorem State.setWick_lamps (s : State) (k : Nat) (v : Wick) : (s.setWick k v).lamps = s.lamps := rfl
@[simp] theorem State.setWick_lampHours (s : State) (k : Nat) (v : Wick) : (s.setWick k v).lampHours = s.lampHours := rfl
@[simp] theorem State.setWick_traces (s : State) (k : Nat) (v : Wick) : (s.setWick k v).traces = s.traces := rfl
@[simp] theorem State.setWick_traceOut (s : State) (k : Nat) (v : Wick) : (s.setWick k v).traceOut = s.traceOut := rfl
@[simp] theorem State.setWick_traceTurn (s : State) (k : Nat) (v : Wick) : (s.setWick k v).traceTurn = s.traceTurn := rfl
@[simp] theorem State.setWick_lastRead (s : State) (k : Nat) (v : Wick) : (s.setWick k v).lastRead = s.lastRead := rfl
@[simp] theorem State.setWick_mhalf (s : State) (k : Nat) (v : Wick) : (s.setWick k v).mhalf = s.mhalf := rfl
@[simp] theorem State.setWick_mcore (s : State) (k : Nat) (v : Wick) : (s.setWick k v).mcore = s.mcore := rfl
@[simp] theorem State.setWick_preamps (s : State) (k : Nat) (v : Wick) : (s.setWick k v).preamps = s.preamps := rfl
@[simp] theorem State.setWick_ports (s : State) (k : Nat) (v : Wick) : (s.setWick k v).ports = s.ports := rfl
@[simp] theorem State.setWick_rchs (s : State) (k : Nat) (v : Wick) : (s.setWick k v).rchs = s.rchs := rfl
@[simp] theorem State.setWick_fmts (s : State) (k : Nat) (v : Wick) : (s.setWick k v).fmts = s.fmts := rfl
@[simp] theorem State.setWick_srvs (s : State) (k : Nat) (v : Wick) : (s.setWick k v).srvs = s.srvs := rfl
@[simp] theorem State.setWick_spns (s : State) (k : Nat) (v : Wick) : (s.setWick k v).spns = s.spns := rfl
@[simp] theorem State.setWick_mot (s : State) (k : Nat) (v : Wick) : (s.setWick k v).mot = s.mot := rfl
@[simp] theorem State.setWick_opDone (s : State) (k : Nat) (v : Wick) : (s.setWick k v).opDone = s.opDone := rfl
@[simp] theorem State.setWick_staging (s : State) (k : Nat) (v : Wick) : (s.setWick k v).staging = s.staging := rfl
@[simp] theorem State.setWick_parity (s : State) (k : Nat) (v : Wick) : (s.setWick k v).parity = s.parity := rfl
@[simp] theorem State.setWick_segment (s : State) (k : Nat) (v : Wick) : (s.setWick k v).segment = s.segment := rfl
@[simp] theorem State.setWick_pinned (s : State) (k : Nat) (v : Wick) : (s.setWick k v).pinned = s.pinned := rfl
@[simp] theorem State.setWick_coreriEvents (s : State) (k : Nat) (v : Wick) : (s.setWick k v).coreriEvents = s.coreriEvents := rfl
@[simp] theorem State.setWick_dram (s : State) (k : Nat) (v : Wick) : (s.setWick k v).dram = s.dram := rfl
@[simp] theorem State.setWick_mergeBytes (s : State) (k : Nat) (v : Wick) : (s.setWick k v).mergeBytes = s.mergeBytes := rfl
@[simp] theorem State.setWick_cacheBytes (s : State) (k : Nat) (v : Wick) : (s.setWick k v).cacheBytes = s.cacheBytes := rfl
@[simp] theorem State.setWick_resvs (s : State) (k : Nat) (v : Wick) : (s.setWick k v).resvs = s.resvs := rfl
@[simp] theorem State.setWick_caches (s : State) (k : Nat) (v : Wick) : (s.setWick k v).caches = s.caches := rfl
@[simp] theorem State.setWick_poison (s : State) (k : Nat) (v : Wick) : (s.setWick k v).poison = s.poison := rfl
@[simp] theorem State.setWick_garbage (s : State) (k : Nat) (v : Wick) : (s.setWick k v).garbage = s.garbage := rfl
@[simp] theorem State.setWick_answers (s : State) (k : Nat) (v : Wick) : (s.setWick k v).answers = s.answers := rfl
@[simp] theorem State.setWick_waking (s : State) (k : Nat) (v : Wick) : (s.setWick k v).waking = s.waking := rfl
@[simp] theorem State.setWick_polOld (s : State) (k : Nat) (v : Wick) : (s.setWick k v).polOld = s.polOld := rfl
@[simp] theorem State.setWick_sdms (s : State) (k : Nat) (v : Wick) : (s.setWick k v).sdms = s.sdms := rfl
@[simp] theorem State.setWick_hostMem (s : State) (k : Nat) (v : Wick) : (s.setWick k v).hostMem = s.hostMem := rfl
@[simp] theorem State.setWick_msis (s : State) (k : Nat) (v : Wick) : (s.setWick k v).msis = s.msis := rfl
@[simp] theorem State.setWick_hifs (s : State) (k : Nat) (v : Wick) : (s.setWick k v).hifs = s.hifs := rfl
@[simp] theorem State.setWick_cmdSeq (s : State) (k : Nat) (v : Wick) : (s.setWick k v).cmdSeq = s.cmdSeq := rfl
@[simp] theorem State.setWick_buffered (s : State) (k : Nat) (v : Wick) : (s.setWick k v).buffered = s.buffered := rfl
@[simp] theorem State.setWick_trims (s : State) (k : Nat) (v : Wick) : (s.setWick k v).trims = s.trims := rfl
@[simp] theorem State.setWick_nsCaps (s : State) (k : Nat) (v : Wick) : (s.setWick k v).nsCaps = s.nsCaps := rfl
@[simp] theorem State.setWick_attached (s : State) (k : Nat) (v : Wick) : (s.setWick k v).attached = s.attached := rfl
@[simp] theorem State.setWick_segLru (s : State) (k : Nat) (v : Wick) : (s.setWick k v).segLru = s.segLru := rfl

@[simp] theorem State.setRch_pending (s : State) (k : Nat) (v : Rch) : (s.setRch k v).pending = s.pending := rfl
@[simp] theorem State.setRch_free (s : State) (k : Nat) (v : Rch) : (s.setRch k v).free = s.free := rfl
@[simp] theorem State.setRch_ticks (s : State) (k : Nat) (v : Rch) : (s.setRch k v).ticks = s.ticks := rfl
@[simp] theorem State.setRch_regs (s : State) (k : Nat) (v : Rch) : (s.setRch k v).regs = s.regs := rfl
@[simp] theorem State.setRch_board (s : State) (k : Nat) (v : Rch) : (s.setRch k v).board = s.board := rfl
@[simp] theorem State.setRch_asserted (s : State) (k : Nat) (v : Rch) : (s.setRch k v).asserted = s.asserted := rfl
@[simp] theorem State.setRch_draining (s : State) (k : Nat) (v : Rch) : (s.setRch k v).draining = s.draining := rfl
@[simp] theorem State.setRch_up (s : State) (k : Nat) (v : Rch) : (s.setRch k v).up = s.up := rfl
@[simp] theorem State.setRch_motorUp (s : State) (k : Nat) (v : Rch) : (s.setRch k v).motorUp = s.motorUp := rfl
@[simp] theorem State.setRch_rails (s : State) (k : Nat) (v : Rch) : (s.setRch k v).rails = s.rails := rfl
@[simp] theorem State.setRch_collectors (s : State) (k : Nat) (v : Rch) : (s.setRch k v).collectors = s.collectors := rfl
@[simp] theorem State.setRch_evQueue (s : State) (k : Nat) (v : Rch) : (s.setRch k v).evQueue = s.evQueue := rfl
@[simp] theorem State.setRch_lamps (s : State) (k : Nat) (v : Rch) : (s.setRch k v).lamps = s.lamps := rfl
@[simp] theorem State.setRch_lampHours (s : State) (k : Nat) (v : Rch) : (s.setRch k v).lampHours = s.lampHours := rfl
@[simp] theorem State.setRch_traces (s : State) (k : Nat) (v : Rch) : (s.setRch k v).traces = s.traces := rfl
@[simp] theorem State.setRch_traceOut (s : State) (k : Nat) (v : Rch) : (s.setRch k v).traceOut = s.traceOut := rfl
@[simp] theorem State.setRch_traceTurn (s : State) (k : Nat) (v : Rch) : (s.setRch k v).traceTurn = s.traceTurn := rfl
@[simp] theorem State.setRch_lastRead (s : State) (k : Nat) (v : Rch) : (s.setRch k v).lastRead = s.lastRead := rfl
@[simp] theorem State.setRch_mhalf (s : State) (k : Nat) (v : Rch) : (s.setRch k v).mhalf = s.mhalf := rfl
@[simp] theorem State.setRch_mcore (s : State) (k : Nat) (v : Rch) : (s.setRch k v).mcore = s.mcore := rfl
@[simp] theorem State.setRch_preamps (s : State) (k : Nat) (v : Rch) : (s.setRch k v).preamps = s.preamps := rfl
@[simp] theorem State.setRch_ports (s : State) (k : Nat) (v : Rch) : (s.setRch k v).ports = s.ports := rfl
@[simp] theorem State.setRch_wicks (s : State) (k : Nat) (v : Rch) : (s.setRch k v).wicks = s.wicks := rfl
@[simp] theorem State.setRch_fmts (s : State) (k : Nat) (v : Rch) : (s.setRch k v).fmts = s.fmts := rfl
@[simp] theorem State.setRch_srvs (s : State) (k : Nat) (v : Rch) : (s.setRch k v).srvs = s.srvs := rfl
@[simp] theorem State.setRch_spns (s : State) (k : Nat) (v : Rch) : (s.setRch k v).spns = s.spns := rfl
@[simp] theorem State.setRch_mot (s : State) (k : Nat) (v : Rch) : (s.setRch k v).mot = s.mot := rfl
@[simp] theorem State.setRch_opDone (s : State) (k : Nat) (v : Rch) : (s.setRch k v).opDone = s.opDone := rfl
@[simp] theorem State.setRch_staging (s : State) (k : Nat) (v : Rch) : (s.setRch k v).staging = s.staging := rfl
@[simp] theorem State.setRch_parity (s : State) (k : Nat) (v : Rch) : (s.setRch k v).parity = s.parity := rfl
@[simp] theorem State.setRch_segment (s : State) (k : Nat) (v : Rch) : (s.setRch k v).segment = s.segment := rfl
@[simp] theorem State.setRch_pinned (s : State) (k : Nat) (v : Rch) : (s.setRch k v).pinned = s.pinned := rfl
@[simp] theorem State.setRch_coreriEvents (s : State) (k : Nat) (v : Rch) : (s.setRch k v).coreriEvents = s.coreriEvents := rfl
@[simp] theorem State.setRch_dram (s : State) (k : Nat) (v : Rch) : (s.setRch k v).dram = s.dram := rfl
@[simp] theorem State.setRch_mergeBytes (s : State) (k : Nat) (v : Rch) : (s.setRch k v).mergeBytes = s.mergeBytes := rfl
@[simp] theorem State.setRch_cacheBytes (s : State) (k : Nat) (v : Rch) : (s.setRch k v).cacheBytes = s.cacheBytes := rfl
@[simp] theorem State.setRch_resvs (s : State) (k : Nat) (v : Rch) : (s.setRch k v).resvs = s.resvs := rfl
@[simp] theorem State.setRch_caches (s : State) (k : Nat) (v : Rch) : (s.setRch k v).caches = s.caches := rfl
@[simp] theorem State.setRch_poison (s : State) (k : Nat) (v : Rch) : (s.setRch k v).poison = s.poison := rfl
@[simp] theorem State.setRch_garbage (s : State) (k : Nat) (v : Rch) : (s.setRch k v).garbage = s.garbage := rfl
@[simp] theorem State.setRch_answers (s : State) (k : Nat) (v : Rch) : (s.setRch k v).answers = s.answers := rfl
@[simp] theorem State.setRch_waking (s : State) (k : Nat) (v : Rch) : (s.setRch k v).waking = s.waking := rfl
@[simp] theorem State.setRch_polOld (s : State) (k : Nat) (v : Rch) : (s.setRch k v).polOld = s.polOld := rfl
@[simp] theorem State.setRch_sdms (s : State) (k : Nat) (v : Rch) : (s.setRch k v).sdms = s.sdms := rfl
@[simp] theorem State.setRch_hostMem (s : State) (k : Nat) (v : Rch) : (s.setRch k v).hostMem = s.hostMem := rfl
@[simp] theorem State.setRch_msis (s : State) (k : Nat) (v : Rch) : (s.setRch k v).msis = s.msis := rfl
@[simp] theorem State.setRch_hifs (s : State) (k : Nat) (v : Rch) : (s.setRch k v).hifs = s.hifs := rfl
@[simp] theorem State.setRch_cmdSeq (s : State) (k : Nat) (v : Rch) : (s.setRch k v).cmdSeq = s.cmdSeq := rfl
@[simp] theorem State.setRch_buffered (s : State) (k : Nat) (v : Rch) : (s.setRch k v).buffered = s.buffered := rfl
@[simp] theorem State.setRch_trims (s : State) (k : Nat) (v : Rch) : (s.setRch k v).trims = s.trims := rfl
@[simp] theorem State.setRch_nsCaps (s : State) (k : Nat) (v : Rch) : (s.setRch k v).nsCaps = s.nsCaps := rfl
@[simp] theorem State.setRch_attached (s : State) (k : Nat) (v : Rch) : (s.setRch k v).attached = s.attached := rfl
@[simp] theorem State.setRch_segLru (s : State) (k : Nat) (v : Rch) : (s.setRch k v).segLru = s.segLru := rfl

@[simp] theorem State.setFmt_pending (s : State) (k : Nat) (v : Fmt) : (s.setFmt k v).pending = s.pending := rfl
@[simp] theorem State.setFmt_free (s : State) (k : Nat) (v : Fmt) : (s.setFmt k v).free = s.free := rfl
@[simp] theorem State.setFmt_ticks (s : State) (k : Nat) (v : Fmt) : (s.setFmt k v).ticks = s.ticks := rfl
@[simp] theorem State.setFmt_regs (s : State) (k : Nat) (v : Fmt) : (s.setFmt k v).regs = s.regs := rfl
@[simp] theorem State.setFmt_board (s : State) (k : Nat) (v : Fmt) : (s.setFmt k v).board = s.board := rfl
@[simp] theorem State.setFmt_asserted (s : State) (k : Nat) (v : Fmt) : (s.setFmt k v).asserted = s.asserted := rfl
@[simp] theorem State.setFmt_draining (s : State) (k : Nat) (v : Fmt) : (s.setFmt k v).draining = s.draining := rfl
@[simp] theorem State.setFmt_up (s : State) (k : Nat) (v : Fmt) : (s.setFmt k v).up = s.up := rfl
@[simp] theorem State.setFmt_motorUp (s : State) (k : Nat) (v : Fmt) : (s.setFmt k v).motorUp = s.motorUp := rfl
@[simp] theorem State.setFmt_rails (s : State) (k : Nat) (v : Fmt) : (s.setFmt k v).rails = s.rails := rfl
@[simp] theorem State.setFmt_collectors (s : State) (k : Nat) (v : Fmt) : (s.setFmt k v).collectors = s.collectors := rfl
@[simp] theorem State.setFmt_evQueue (s : State) (k : Nat) (v : Fmt) : (s.setFmt k v).evQueue = s.evQueue := rfl
@[simp] theorem State.setFmt_lamps (s : State) (k : Nat) (v : Fmt) : (s.setFmt k v).lamps = s.lamps := rfl
@[simp] theorem State.setFmt_lampHours (s : State) (k : Nat) (v : Fmt) : (s.setFmt k v).lampHours = s.lampHours := rfl
@[simp] theorem State.setFmt_traces (s : State) (k : Nat) (v : Fmt) : (s.setFmt k v).traces = s.traces := rfl
@[simp] theorem State.setFmt_traceOut (s : State) (k : Nat) (v : Fmt) : (s.setFmt k v).traceOut = s.traceOut := rfl
@[simp] theorem State.setFmt_traceTurn (s : State) (k : Nat) (v : Fmt) : (s.setFmt k v).traceTurn = s.traceTurn := rfl
@[simp] theorem State.setFmt_lastRead (s : State) (k : Nat) (v : Fmt) : (s.setFmt k v).lastRead = s.lastRead := rfl
@[simp] theorem State.setFmt_mhalf (s : State) (k : Nat) (v : Fmt) : (s.setFmt k v).mhalf = s.mhalf := rfl
@[simp] theorem State.setFmt_mcore (s : State) (k : Nat) (v : Fmt) : (s.setFmt k v).mcore = s.mcore := rfl
@[simp] theorem State.setFmt_preamps (s : State) (k : Nat) (v : Fmt) : (s.setFmt k v).preamps = s.preamps := rfl
@[simp] theorem State.setFmt_ports (s : State) (k : Nat) (v : Fmt) : (s.setFmt k v).ports = s.ports := rfl
@[simp] theorem State.setFmt_wicks (s : State) (k : Nat) (v : Fmt) : (s.setFmt k v).wicks = s.wicks := rfl
@[simp] theorem State.setFmt_rchs (s : State) (k : Nat) (v : Fmt) : (s.setFmt k v).rchs = s.rchs := rfl
@[simp] theorem State.setFmt_srvs (s : State) (k : Nat) (v : Fmt) : (s.setFmt k v).srvs = s.srvs := rfl
@[simp] theorem State.setFmt_spns (s : State) (k : Nat) (v : Fmt) : (s.setFmt k v).spns = s.spns := rfl
@[simp] theorem State.setFmt_mot (s : State) (k : Nat) (v : Fmt) : (s.setFmt k v).mot = s.mot := rfl
@[simp] theorem State.setFmt_opDone (s : State) (k : Nat) (v : Fmt) : (s.setFmt k v).opDone = s.opDone := rfl
@[simp] theorem State.setFmt_staging (s : State) (k : Nat) (v : Fmt) : (s.setFmt k v).staging = s.staging := rfl
@[simp] theorem State.setFmt_parity (s : State) (k : Nat) (v : Fmt) : (s.setFmt k v).parity = s.parity := rfl
@[simp] theorem State.setFmt_segment (s : State) (k : Nat) (v : Fmt) : (s.setFmt k v).segment = s.segment := rfl
@[simp] theorem State.setFmt_pinned (s : State) (k : Nat) (v : Fmt) : (s.setFmt k v).pinned = s.pinned := rfl
@[simp] theorem State.setFmt_coreriEvents (s : State) (k : Nat) (v : Fmt) : (s.setFmt k v).coreriEvents = s.coreriEvents := rfl
@[simp] theorem State.setFmt_dram (s : State) (k : Nat) (v : Fmt) : (s.setFmt k v).dram = s.dram := rfl
@[simp] theorem State.setFmt_mergeBytes (s : State) (k : Nat) (v : Fmt) : (s.setFmt k v).mergeBytes = s.mergeBytes := rfl
@[simp] theorem State.setFmt_cacheBytes (s : State) (k : Nat) (v : Fmt) : (s.setFmt k v).cacheBytes = s.cacheBytes := rfl
@[simp] theorem State.setFmt_resvs (s : State) (k : Nat) (v : Fmt) : (s.setFmt k v).resvs = s.resvs := rfl
@[simp] theorem State.setFmt_caches (s : State) (k : Nat) (v : Fmt) : (s.setFmt k v).caches = s.caches := rfl
@[simp] theorem State.setFmt_poison (s : State) (k : Nat) (v : Fmt) : (s.setFmt k v).poison = s.poison := rfl
@[simp] theorem State.setFmt_garbage (s : State) (k : Nat) (v : Fmt) : (s.setFmt k v).garbage = s.garbage := rfl
@[simp] theorem State.setFmt_answers (s : State) (k : Nat) (v : Fmt) : (s.setFmt k v).answers = s.answers := rfl
@[simp] theorem State.setFmt_waking (s : State) (k : Nat) (v : Fmt) : (s.setFmt k v).waking = s.waking := rfl
@[simp] theorem State.setFmt_polOld (s : State) (k : Nat) (v : Fmt) : (s.setFmt k v).polOld = s.polOld := rfl
@[simp] theorem State.setFmt_sdms (s : State) (k : Nat) (v : Fmt) : (s.setFmt k v).sdms = s.sdms := rfl
@[simp] theorem State.setFmt_hostMem (s : State) (k : Nat) (v : Fmt) : (s.setFmt k v).hostMem = s.hostMem := rfl
@[simp] theorem State.setFmt_msis (s : State) (k : Nat) (v : Fmt) : (s.setFmt k v).msis = s.msis := rfl
@[simp] theorem State.setFmt_hifs (s : State) (k : Nat) (v : Fmt) : (s.setFmt k v).hifs = s.hifs := rfl
@[simp] theorem State.setFmt_cmdSeq (s : State) (k : Nat) (v : Fmt) : (s.setFmt k v).cmdSeq = s.cmdSeq := rfl
@[simp] theorem State.setFmt_buffered (s : State) (k : Nat) (v : Fmt) : (s.setFmt k v).buffered = s.buffered := rfl
@[simp] theorem State.setFmt_trims (s : State) (k : Nat) (v : Fmt) : (s.setFmt k v).trims = s.trims := rfl
@[simp] theorem State.setFmt_nsCaps (s : State) (k : Nat) (v : Fmt) : (s.setFmt k v).nsCaps = s.nsCaps := rfl
@[simp] theorem State.setFmt_attached (s : State) (k : Nat) (v : Fmt) : (s.setFmt k v).attached = s.attached := rfl
@[simp] theorem State.setFmt_segLru (s : State) (k : Nat) (v : Fmt) : (s.setFmt k v).segLru = s.segLru := rfl

@[simp] theorem State.setSrv_pending (s : State) (k : Nat) (v : Srv) : (s.setSrv k v).pending = s.pending := rfl
@[simp] theorem State.setSrv_free (s : State) (k : Nat) (v : Srv) : (s.setSrv k v).free = s.free := rfl
@[simp] theorem State.setSrv_ticks (s : State) (k : Nat) (v : Srv) : (s.setSrv k v).ticks = s.ticks := rfl
@[simp] theorem State.setSrv_regs (s : State) (k : Nat) (v : Srv) : (s.setSrv k v).regs = s.regs := rfl
@[simp] theorem State.setSrv_board (s : State) (k : Nat) (v : Srv) : (s.setSrv k v).board = s.board := rfl
@[simp] theorem State.setSrv_asserted (s : State) (k : Nat) (v : Srv) : (s.setSrv k v).asserted = s.asserted := rfl
@[simp] theorem State.setSrv_draining (s : State) (k : Nat) (v : Srv) : (s.setSrv k v).draining = s.draining := rfl
@[simp] theorem State.setSrv_up (s : State) (k : Nat) (v : Srv) : (s.setSrv k v).up = s.up := rfl
@[simp] theorem State.setSrv_motorUp (s : State) (k : Nat) (v : Srv) : (s.setSrv k v).motorUp = s.motorUp := rfl
@[simp] theorem State.setSrv_rails (s : State) (k : Nat) (v : Srv) : (s.setSrv k v).rails = s.rails := rfl
@[simp] theorem State.setSrv_collectors (s : State) (k : Nat) (v : Srv) : (s.setSrv k v).collectors = s.collectors := rfl
@[simp] theorem State.setSrv_evQueue (s : State) (k : Nat) (v : Srv) : (s.setSrv k v).evQueue = s.evQueue := rfl
@[simp] theorem State.setSrv_lamps (s : State) (k : Nat) (v : Srv) : (s.setSrv k v).lamps = s.lamps := rfl
@[simp] theorem State.setSrv_lampHours (s : State) (k : Nat) (v : Srv) : (s.setSrv k v).lampHours = s.lampHours := rfl
@[simp] theorem State.setSrv_traces (s : State) (k : Nat) (v : Srv) : (s.setSrv k v).traces = s.traces := rfl
@[simp] theorem State.setSrv_traceOut (s : State) (k : Nat) (v : Srv) : (s.setSrv k v).traceOut = s.traceOut := rfl
@[simp] theorem State.setSrv_traceTurn (s : State) (k : Nat) (v : Srv) : (s.setSrv k v).traceTurn = s.traceTurn := rfl
@[simp] theorem State.setSrv_lastRead (s : State) (k : Nat) (v : Srv) : (s.setSrv k v).lastRead = s.lastRead := rfl
@[simp] theorem State.setSrv_mhalf (s : State) (k : Nat) (v : Srv) : (s.setSrv k v).mhalf = s.mhalf := rfl
@[simp] theorem State.setSrv_mcore (s : State) (k : Nat) (v : Srv) : (s.setSrv k v).mcore = s.mcore := rfl
@[simp] theorem State.setSrv_preamps (s : State) (k : Nat) (v : Srv) : (s.setSrv k v).preamps = s.preamps := rfl
@[simp] theorem State.setSrv_ports (s : State) (k : Nat) (v : Srv) : (s.setSrv k v).ports = s.ports := rfl
@[simp] theorem State.setSrv_wicks (s : State) (k : Nat) (v : Srv) : (s.setSrv k v).wicks = s.wicks := rfl
@[simp] theorem State.setSrv_rchs (s : State) (k : Nat) (v : Srv) : (s.setSrv k v).rchs = s.rchs := rfl
@[simp] theorem State.setSrv_fmts (s : State) (k : Nat) (v : Srv) : (s.setSrv k v).fmts = s.fmts := rfl
@[simp] theorem State.setSrv_spns (s : State) (k : Nat) (v : Srv) : (s.setSrv k v).spns = s.spns := rfl
@[simp] theorem State.setSrv_mot (s : State) (k : Nat) (v : Srv) : (s.setSrv k v).mot = s.mot := rfl
@[simp] theorem State.setSrv_opDone (s : State) (k : Nat) (v : Srv) : (s.setSrv k v).opDone = s.opDone := rfl
@[simp] theorem State.setSrv_staging (s : State) (k : Nat) (v : Srv) : (s.setSrv k v).staging = s.staging := rfl
@[simp] theorem State.setSrv_parity (s : State) (k : Nat) (v : Srv) : (s.setSrv k v).parity = s.parity := rfl
@[simp] theorem State.setSrv_segment (s : State) (k : Nat) (v : Srv) : (s.setSrv k v).segment = s.segment := rfl
@[simp] theorem State.setSrv_pinned (s : State) (k : Nat) (v : Srv) : (s.setSrv k v).pinned = s.pinned := rfl
@[simp] theorem State.setSrv_coreriEvents (s : State) (k : Nat) (v : Srv) : (s.setSrv k v).coreriEvents = s.coreriEvents := rfl
@[simp] theorem State.setSrv_dram (s : State) (k : Nat) (v : Srv) : (s.setSrv k v).dram = s.dram := rfl
@[simp] theorem State.setSrv_mergeBytes (s : State) (k : Nat) (v : Srv) : (s.setSrv k v).mergeBytes = s.mergeBytes := rfl
@[simp] theorem State.setSrv_cacheBytes (s : State) (k : Nat) (v : Srv) : (s.setSrv k v).cacheBytes = s.cacheBytes := rfl
@[simp] theorem State.setSrv_resvs (s : State) (k : Nat) (v : Srv) : (s.setSrv k v).resvs = s.resvs := rfl
@[simp] theorem State.setSrv_caches (s : State) (k : Nat) (v : Srv) : (s.setSrv k v).caches = s.caches := rfl
@[simp] theorem State.setSrv_poison (s : State) (k : Nat) (v : Srv) : (s.setSrv k v).poison = s.poison := rfl
@[simp] theorem State.setSrv_garbage (s : State) (k : Nat) (v : Srv) : (s.setSrv k v).garbage = s.garbage := rfl
@[simp] theorem State.setSrv_answers (s : State) (k : Nat) (v : Srv) : (s.setSrv k v).answers = s.answers := rfl
@[simp] theorem State.setSrv_waking (s : State) (k : Nat) (v : Srv) : (s.setSrv k v).waking = s.waking := rfl
@[simp] theorem State.setSrv_polOld (s : State) (k : Nat) (v : Srv) : (s.setSrv k v).polOld = s.polOld := rfl
@[simp] theorem State.setSrv_sdms (s : State) (k : Nat) (v : Srv) : (s.setSrv k v).sdms = s.sdms := rfl
@[simp] theorem State.setSrv_hostMem (s : State) (k : Nat) (v : Srv) : (s.setSrv k v).hostMem = s.hostMem := rfl
@[simp] theorem State.setSrv_msis (s : State) (k : Nat) (v : Srv) : (s.setSrv k v).msis = s.msis := rfl
@[simp] theorem State.setSrv_hifs (s : State) (k : Nat) (v : Srv) : (s.setSrv k v).hifs = s.hifs := rfl
@[simp] theorem State.setSrv_cmdSeq (s : State) (k : Nat) (v : Srv) : (s.setSrv k v).cmdSeq = s.cmdSeq := rfl
@[simp] theorem State.setSrv_buffered (s : State) (k : Nat) (v : Srv) : (s.setSrv k v).buffered = s.buffered := rfl
@[simp] theorem State.setSrv_trims (s : State) (k : Nat) (v : Srv) : (s.setSrv k v).trims = s.trims := rfl
@[simp] theorem State.setSrv_nsCaps (s : State) (k : Nat) (v : Srv) : (s.setSrv k v).nsCaps = s.nsCaps := rfl
@[simp] theorem State.setSrv_attached (s : State) (k : Nat) (v : Srv) : (s.setSrv k v).attached = s.attached := rfl
@[simp] theorem State.setSrv_segLru (s : State) (k : Nat) (v : Srv) : (s.setSrv k v).segLru = s.segLru := rfl

@[simp] theorem State.setSpn_pending (s : State) (k : Nat) (v : Spn) : (s.setSpn k v).pending = s.pending := rfl
@[simp] theorem State.setSpn_free (s : State) (k : Nat) (v : Spn) : (s.setSpn k v).free = s.free := rfl
@[simp] theorem State.setSpn_ticks (s : State) (k : Nat) (v : Spn) : (s.setSpn k v).ticks = s.ticks := rfl
@[simp] theorem State.setSpn_regs (s : State) (k : Nat) (v : Spn) : (s.setSpn k v).regs = s.regs := rfl
@[simp] theorem State.setSpn_board (s : State) (k : Nat) (v : Spn) : (s.setSpn k v).board = s.board := rfl
@[simp] theorem State.setSpn_asserted (s : State) (k : Nat) (v : Spn) : (s.setSpn k v).asserted = s.asserted := rfl
@[simp] theorem State.setSpn_draining (s : State) (k : Nat) (v : Spn) : (s.setSpn k v).draining = s.draining := rfl
@[simp] theorem State.setSpn_up (s : State) (k : Nat) (v : Spn) : (s.setSpn k v).up = s.up := rfl
@[simp] theorem State.setSpn_motorUp (s : State) (k : Nat) (v : Spn) : (s.setSpn k v).motorUp = s.motorUp := rfl
@[simp] theorem State.setSpn_rails (s : State) (k : Nat) (v : Spn) : (s.setSpn k v).rails = s.rails := rfl
@[simp] theorem State.setSpn_collectors (s : State) (k : Nat) (v : Spn) : (s.setSpn k v).collectors = s.collectors := rfl
@[simp] theorem State.setSpn_evQueue (s : State) (k : Nat) (v : Spn) : (s.setSpn k v).evQueue = s.evQueue := rfl
@[simp] theorem State.setSpn_lamps (s : State) (k : Nat) (v : Spn) : (s.setSpn k v).lamps = s.lamps := rfl
@[simp] theorem State.setSpn_lampHours (s : State) (k : Nat) (v : Spn) : (s.setSpn k v).lampHours = s.lampHours := rfl
@[simp] theorem State.setSpn_traces (s : State) (k : Nat) (v : Spn) : (s.setSpn k v).traces = s.traces := rfl
@[simp] theorem State.setSpn_traceOut (s : State) (k : Nat) (v : Spn) : (s.setSpn k v).traceOut = s.traceOut := rfl
@[simp] theorem State.setSpn_traceTurn (s : State) (k : Nat) (v : Spn) : (s.setSpn k v).traceTurn = s.traceTurn := rfl
@[simp] theorem State.setSpn_lastRead (s : State) (k : Nat) (v : Spn) : (s.setSpn k v).lastRead = s.lastRead := rfl
@[simp] theorem State.setSpn_mhalf (s : State) (k : Nat) (v : Spn) : (s.setSpn k v).mhalf = s.mhalf := rfl
@[simp] theorem State.setSpn_mcore (s : State) (k : Nat) (v : Spn) : (s.setSpn k v).mcore = s.mcore := rfl
@[simp] theorem State.setSpn_preamps (s : State) (k : Nat) (v : Spn) : (s.setSpn k v).preamps = s.preamps := rfl
@[simp] theorem State.setSpn_ports (s : State) (k : Nat) (v : Spn) : (s.setSpn k v).ports = s.ports := rfl
@[simp] theorem State.setSpn_wicks (s : State) (k : Nat) (v : Spn) : (s.setSpn k v).wicks = s.wicks := rfl
@[simp] theorem State.setSpn_rchs (s : State) (k : Nat) (v : Spn) : (s.setSpn k v).rchs = s.rchs := rfl
@[simp] theorem State.setSpn_fmts (s : State) (k : Nat) (v : Spn) : (s.setSpn k v).fmts = s.fmts := rfl
@[simp] theorem State.setSpn_srvs (s : State) (k : Nat) (v : Spn) : (s.setSpn k v).srvs = s.srvs := rfl
@[simp] theorem State.setSpn_mot (s : State) (k : Nat) (v : Spn) : (s.setSpn k v).mot = s.mot := rfl
@[simp] theorem State.setSpn_opDone (s : State) (k : Nat) (v : Spn) : (s.setSpn k v).opDone = s.opDone := rfl
@[simp] theorem State.setSpn_staging (s : State) (k : Nat) (v : Spn) : (s.setSpn k v).staging = s.staging := rfl
@[simp] theorem State.setSpn_parity (s : State) (k : Nat) (v : Spn) : (s.setSpn k v).parity = s.parity := rfl
@[simp] theorem State.setSpn_segment (s : State) (k : Nat) (v : Spn) : (s.setSpn k v).segment = s.segment := rfl
@[simp] theorem State.setSpn_pinned (s : State) (k : Nat) (v : Spn) : (s.setSpn k v).pinned = s.pinned := rfl
@[simp] theorem State.setSpn_coreriEvents (s : State) (k : Nat) (v : Spn) : (s.setSpn k v).coreriEvents = s.coreriEvents := rfl
@[simp] theorem State.setSpn_dram (s : State) (k : Nat) (v : Spn) : (s.setSpn k v).dram = s.dram := rfl
@[simp] theorem State.setSpn_mergeBytes (s : State) (k : Nat) (v : Spn) : (s.setSpn k v).mergeBytes = s.mergeBytes := rfl
@[simp] theorem State.setSpn_cacheBytes (s : State) (k : Nat) (v : Spn) : (s.setSpn k v).cacheBytes = s.cacheBytes := rfl
@[simp] theorem State.setSpn_resvs (s : State) (k : Nat) (v : Spn) : (s.setSpn k v).resvs = s.resvs := rfl
@[simp] theorem State.setSpn_caches (s : State) (k : Nat) (v : Spn) : (s.setSpn k v).caches = s.caches := rfl
@[simp] theorem State.setSpn_poison (s : State) (k : Nat) (v : Spn) : (s.setSpn k v).poison = s.poison := rfl
@[simp] theorem State.setSpn_garbage (s : State) (k : Nat) (v : Spn) : (s.setSpn k v).garbage = s.garbage := rfl
@[simp] theorem State.setSpn_answers (s : State) (k : Nat) (v : Spn) : (s.setSpn k v).answers = s.answers := rfl
@[simp] theorem State.setSpn_waking (s : State) (k : Nat) (v : Spn) : (s.setSpn k v).waking = s.waking := rfl
@[simp] theorem State.setSpn_polOld (s : State) (k : Nat) (v : Spn) : (s.setSpn k v).polOld = s.polOld := rfl
@[simp] theorem State.setSpn_sdms (s : State) (k : Nat) (v : Spn) : (s.setSpn k v).sdms = s.sdms := rfl
@[simp] theorem State.setSpn_hostMem (s : State) (k : Nat) (v : Spn) : (s.setSpn k v).hostMem = s.hostMem := rfl
@[simp] theorem State.setSpn_msis (s : State) (k : Nat) (v : Spn) : (s.setSpn k v).msis = s.msis := rfl
@[simp] theorem State.setSpn_hifs (s : State) (k : Nat) (v : Spn) : (s.setSpn k v).hifs = s.hifs := rfl
@[simp] theorem State.setSpn_cmdSeq (s : State) (k : Nat) (v : Spn) : (s.setSpn k v).cmdSeq = s.cmdSeq := rfl
@[simp] theorem State.setSpn_buffered (s : State) (k : Nat) (v : Spn) : (s.setSpn k v).buffered = s.buffered := rfl
@[simp] theorem State.setSpn_trims (s : State) (k : Nat) (v : Spn) : (s.setSpn k v).trims = s.trims := rfl
@[simp] theorem State.setSpn_nsCaps (s : State) (k : Nat) (v : Spn) : (s.setSpn k v).nsCaps = s.nsCaps := rfl
@[simp] theorem State.setSpn_attached (s : State) (k : Nat) (v : Spn) : (s.setSpn k v).attached = s.attached := rfl
@[simp] theorem State.setSpn_segLru (s : State) (k : Nat) (v : Spn) : (s.setSpn k v).segLru = s.segLru := rfl

@[simp] theorem State.setColl_pending (s : State) (k : Nat) (v : Collector) : (s.setColl k v).pending = s.pending := rfl
@[simp] theorem State.setColl_free (s : State) (k : Nat) (v : Collector) : (s.setColl k v).free = s.free := rfl
@[simp] theorem State.setColl_ticks (s : State) (k : Nat) (v : Collector) : (s.setColl k v).ticks = s.ticks := rfl
@[simp] theorem State.setColl_regs (s : State) (k : Nat) (v : Collector) : (s.setColl k v).regs = s.regs := rfl
@[simp] theorem State.setColl_board (s : State) (k : Nat) (v : Collector) : (s.setColl k v).board = s.board := rfl
@[simp] theorem State.setColl_asserted (s : State) (k : Nat) (v : Collector) : (s.setColl k v).asserted = s.asserted := rfl
@[simp] theorem State.setColl_draining (s : State) (k : Nat) (v : Collector) : (s.setColl k v).draining = s.draining := rfl
@[simp] theorem State.setColl_up (s : State) (k : Nat) (v : Collector) : (s.setColl k v).up = s.up := rfl
@[simp] theorem State.setColl_motorUp (s : State) (k : Nat) (v : Collector) : (s.setColl k v).motorUp = s.motorUp := rfl
@[simp] theorem State.setColl_rails (s : State) (k : Nat) (v : Collector) : (s.setColl k v).rails = s.rails := rfl
@[simp] theorem State.setColl_evQueue (s : State) (k : Nat) (v : Collector) : (s.setColl k v).evQueue = s.evQueue := rfl
@[simp] theorem State.setColl_lamps (s : State) (k : Nat) (v : Collector) : (s.setColl k v).lamps = s.lamps := rfl
@[simp] theorem State.setColl_lampHours (s : State) (k : Nat) (v : Collector) : (s.setColl k v).lampHours = s.lampHours := rfl
@[simp] theorem State.setColl_traces (s : State) (k : Nat) (v : Collector) : (s.setColl k v).traces = s.traces := rfl
@[simp] theorem State.setColl_traceOut (s : State) (k : Nat) (v : Collector) : (s.setColl k v).traceOut = s.traceOut := rfl
@[simp] theorem State.setColl_traceTurn (s : State) (k : Nat) (v : Collector) : (s.setColl k v).traceTurn = s.traceTurn := rfl
@[simp] theorem State.setColl_lastRead (s : State) (k : Nat) (v : Collector) : (s.setColl k v).lastRead = s.lastRead := rfl
@[simp] theorem State.setColl_mhalf (s : State) (k : Nat) (v : Collector) : (s.setColl k v).mhalf = s.mhalf := rfl
@[simp] theorem State.setColl_mcore (s : State) (k : Nat) (v : Collector) : (s.setColl k v).mcore = s.mcore := rfl
@[simp] theorem State.setColl_preamps (s : State) (k : Nat) (v : Collector) : (s.setColl k v).preamps = s.preamps := rfl
@[simp] theorem State.setColl_ports (s : State) (k : Nat) (v : Collector) : (s.setColl k v).ports = s.ports := rfl
@[simp] theorem State.setColl_wicks (s : State) (k : Nat) (v : Collector) : (s.setColl k v).wicks = s.wicks := rfl
@[simp] theorem State.setColl_rchs (s : State) (k : Nat) (v : Collector) : (s.setColl k v).rchs = s.rchs := rfl
@[simp] theorem State.setColl_fmts (s : State) (k : Nat) (v : Collector) : (s.setColl k v).fmts = s.fmts := rfl
@[simp] theorem State.setColl_srvs (s : State) (k : Nat) (v : Collector) : (s.setColl k v).srvs = s.srvs := rfl
@[simp] theorem State.setColl_spns (s : State) (k : Nat) (v : Collector) : (s.setColl k v).spns = s.spns := rfl
@[simp] theorem State.setColl_mot (s : State) (k : Nat) (v : Collector) : (s.setColl k v).mot = s.mot := rfl
@[simp] theorem State.setColl_opDone (s : State) (k : Nat) (v : Collector) : (s.setColl k v).opDone = s.opDone := rfl
@[simp] theorem State.setColl_staging (s : State) (k : Nat) (v : Collector) : (s.setColl k v).staging = s.staging := rfl
@[simp] theorem State.setColl_parity (s : State) (k : Nat) (v : Collector) : (s.setColl k v).parity = s.parity := rfl
@[simp] theorem State.setColl_segment (s : State) (k : Nat) (v : Collector) : (s.setColl k v).segment = s.segment := rfl
@[simp] theorem State.setColl_pinned (s : State) (k : Nat) (v : Collector) : (s.setColl k v).pinned = s.pinned := rfl
@[simp] theorem State.setColl_coreriEvents (s : State) (k : Nat) (v : Collector) : (s.setColl k v).coreriEvents = s.coreriEvents := rfl
@[simp] theorem State.setColl_dram (s : State) (k : Nat) (v : Collector) : (s.setColl k v).dram = s.dram := rfl
@[simp] theorem State.setColl_mergeBytes (s : State) (k : Nat) (v : Collector) : (s.setColl k v).mergeBytes = s.mergeBytes := rfl
@[simp] theorem State.setColl_cacheBytes (s : State) (k : Nat) (v : Collector) : (s.setColl k v).cacheBytes = s.cacheBytes := rfl
@[simp] theorem State.setColl_resvs (s : State) (k : Nat) (v : Collector) : (s.setColl k v).resvs = s.resvs := rfl
@[simp] theorem State.setColl_caches (s : State) (k : Nat) (v : Collector) : (s.setColl k v).caches = s.caches := rfl
@[simp] theorem State.setColl_poison (s : State) (k : Nat) (v : Collector) : (s.setColl k v).poison = s.poison := rfl
@[simp] theorem State.setColl_garbage (s : State) (k : Nat) (v : Collector) : (s.setColl k v).garbage = s.garbage := rfl
@[simp] theorem State.setColl_answers (s : State) (k : Nat) (v : Collector) : (s.setColl k v).answers = s.answers := rfl
@[simp] theorem State.setColl_waking (s : State) (k : Nat) (v : Collector) : (s.setColl k v).waking = s.waking := rfl
@[simp] theorem State.setColl_polOld (s : State) (k : Nat) (v : Collector) : (s.setColl k v).polOld = s.polOld := rfl
@[simp] theorem State.setColl_sdms (s : State) (k : Nat) (v : Collector) : (s.setColl k v).sdms = s.sdms := rfl
@[simp] theorem State.setColl_hostMem (s : State) (k : Nat) (v : Collector) : (s.setColl k v).hostMem = s.hostMem := rfl
@[simp] theorem State.setColl_msis (s : State) (k : Nat) (v : Collector) : (s.setColl k v).msis = s.msis := rfl
@[simp] theorem State.setColl_hifs (s : State) (k : Nat) (v : Collector) : (s.setColl k v).hifs = s.hifs := rfl
@[simp] theorem State.setColl_cmdSeq (s : State) (k : Nat) (v : Collector) : (s.setColl k v).cmdSeq = s.cmdSeq := rfl
@[simp] theorem State.setColl_buffered (s : State) (k : Nat) (v : Collector) : (s.setColl k v).buffered = s.buffered := rfl
@[simp] theorem State.setColl_trims (s : State) (k : Nat) (v : Collector) : (s.setColl k v).trims = s.trims := rfl
@[simp] theorem State.setColl_nsCaps (s : State) (k : Nat) (v : Collector) : (s.setColl k v).nsCaps = s.nsCaps := rfl
@[simp] theorem State.setColl_attached (s : State) (k : Nat) (v : Collector) : (s.setColl k v).attached = s.attached := rfl
@[simp] theorem State.setColl_segLru (s : State) (k : Nat) (v : Collector) : (s.setColl k v).segLru = s.segLru := rfl

@[simp] theorem State.setResv_pending (s : State) (h : Half) (v : Resv) : (s.setResv h v).pending = s.pending := rfl
@[simp] theorem State.setResv_free (s : State) (h : Half) (v : Resv) : (s.setResv h v).free = s.free := rfl
@[simp] theorem State.setResv_ticks (s : State) (h : Half) (v : Resv) : (s.setResv h v).ticks = s.ticks := rfl
@[simp] theorem State.setResv_regs (s : State) (h : Half) (v : Resv) : (s.setResv h v).regs = s.regs := rfl
@[simp] theorem State.setResv_board (s : State) (h : Half) (v : Resv) : (s.setResv h v).board = s.board := rfl
@[simp] theorem State.setResv_asserted (s : State) (h : Half) (v : Resv) : (s.setResv h v).asserted = s.asserted := rfl
@[simp] theorem State.setResv_draining (s : State) (h : Half) (v : Resv) : (s.setResv h v).draining = s.draining := rfl
@[simp] theorem State.setResv_up (s : State) (h : Half) (v : Resv) : (s.setResv h v).up = s.up := rfl
@[simp] theorem State.setResv_motorUp (s : State) (h : Half) (v : Resv) : (s.setResv h v).motorUp = s.motorUp := rfl
@[simp] theorem State.setResv_rails (s : State) (h : Half) (v : Resv) : (s.setResv h v).rails = s.rails := rfl
@[simp] theorem State.setResv_collectors (s : State) (h : Half) (v : Resv) : (s.setResv h v).collectors = s.collectors := rfl
@[simp] theorem State.setResv_evQueue (s : State) (h : Half) (v : Resv) : (s.setResv h v).evQueue = s.evQueue := rfl
@[simp] theorem State.setResv_lamps (s : State) (h : Half) (v : Resv) : (s.setResv h v).lamps = s.lamps := rfl
@[simp] theorem State.setResv_lampHours (s : State) (h : Half) (v : Resv) : (s.setResv h v).lampHours = s.lampHours := rfl
@[simp] theorem State.setResv_traces (s : State) (h : Half) (v : Resv) : (s.setResv h v).traces = s.traces := rfl
@[simp] theorem State.setResv_traceOut (s : State) (h : Half) (v : Resv) : (s.setResv h v).traceOut = s.traceOut := rfl
@[simp] theorem State.setResv_traceTurn (s : State) (h : Half) (v : Resv) : (s.setResv h v).traceTurn = s.traceTurn := rfl
@[simp] theorem State.setResv_lastRead (s : State) (h : Half) (v : Resv) : (s.setResv h v).lastRead = s.lastRead := rfl
@[simp] theorem State.setResv_mhalf (s : State) (h : Half) (v : Resv) : (s.setResv h v).mhalf = s.mhalf := rfl
@[simp] theorem State.setResv_mcore (s : State) (h : Half) (v : Resv) : (s.setResv h v).mcore = s.mcore := rfl
@[simp] theorem State.setResv_preamps (s : State) (h : Half) (v : Resv) : (s.setResv h v).preamps = s.preamps := rfl
@[simp] theorem State.setResv_ports (s : State) (h : Half) (v : Resv) : (s.setResv h v).ports = s.ports := rfl
@[simp] theorem State.setResv_wicks (s : State) (h : Half) (v : Resv) : (s.setResv h v).wicks = s.wicks := rfl
@[simp] theorem State.setResv_rchs (s : State) (h : Half) (v : Resv) : (s.setResv h v).rchs = s.rchs := rfl
@[simp] theorem State.setResv_fmts (s : State) (h : Half) (v : Resv) : (s.setResv h v).fmts = s.fmts := rfl
@[simp] theorem State.setResv_srvs (s : State) (h : Half) (v : Resv) : (s.setResv h v).srvs = s.srvs := rfl
@[simp] theorem State.setResv_spns (s : State) (h : Half) (v : Resv) : (s.setResv h v).spns = s.spns := rfl
@[simp] theorem State.setResv_mot (s : State) (h : Half) (v : Resv) : (s.setResv h v).mot = s.mot := rfl
@[simp] theorem State.setResv_opDone (s : State) (h : Half) (v : Resv) : (s.setResv h v).opDone = s.opDone := rfl
@[simp] theorem State.setResv_staging (s : State) (h : Half) (v : Resv) : (s.setResv h v).staging = s.staging := rfl
@[simp] theorem State.setResv_parity (s : State) (h : Half) (v : Resv) : (s.setResv h v).parity = s.parity := rfl
@[simp] theorem State.setResv_segment (s : State) (h : Half) (v : Resv) : (s.setResv h v).segment = s.segment := rfl
@[simp] theorem State.setResv_pinned (s : State) (h : Half) (v : Resv) : (s.setResv h v).pinned = s.pinned := rfl
@[simp] theorem State.setResv_coreriEvents (s : State) (h : Half) (v : Resv) : (s.setResv h v).coreriEvents = s.coreriEvents := rfl
@[simp] theorem State.setResv_dram (s : State) (h : Half) (v : Resv) : (s.setResv h v).dram = s.dram := rfl
@[simp] theorem State.setResv_mergeBytes (s : State) (h : Half) (v : Resv) : (s.setResv h v).mergeBytes = s.mergeBytes := rfl
@[simp] theorem State.setResv_cacheBytes (s : State) (h : Half) (v : Resv) : (s.setResv h v).cacheBytes = s.cacheBytes := rfl
@[simp] theorem State.setResv_caches (s : State) (h : Half) (v : Resv) : (s.setResv h v).caches = s.caches := rfl
@[simp] theorem State.setResv_poison (s : State) (h : Half) (v : Resv) : (s.setResv h v).poison = s.poison := rfl
@[simp] theorem State.setResv_garbage (s : State) (h : Half) (v : Resv) : (s.setResv h v).garbage = s.garbage := rfl
@[simp] theorem State.setResv_answers (s : State) (h : Half) (v : Resv) : (s.setResv h v).answers = s.answers := rfl
@[simp] theorem State.setResv_waking (s : State) (h : Half) (v : Resv) : (s.setResv h v).waking = s.waking := rfl
@[simp] theorem State.setResv_polOld (s : State) (h : Half) (v : Resv) : (s.setResv h v).polOld = s.polOld := rfl
@[simp] theorem State.setResv_sdms (s : State) (h : Half) (v : Resv) : (s.setResv h v).sdms = s.sdms := rfl
@[simp] theorem State.setResv_hostMem (s : State) (h : Half) (v : Resv) : (s.setResv h v).hostMem = s.hostMem := rfl
@[simp] theorem State.setResv_msis (s : State) (h : Half) (v : Resv) : (s.setResv h v).msis = s.msis := rfl
@[simp] theorem State.setResv_hifs (s : State) (h : Half) (v : Resv) : (s.setResv h v).hifs = s.hifs := rfl
@[simp] theorem State.setResv_cmdSeq (s : State) (h : Half) (v : Resv) : (s.setResv h v).cmdSeq = s.cmdSeq := rfl
@[simp] theorem State.setResv_buffered (s : State) (h : Half) (v : Resv) : (s.setResv h v).buffered = s.buffered := rfl
@[simp] theorem State.setResv_trims (s : State) (h : Half) (v : Resv) : (s.setResv h v).trims = s.trims := rfl
@[simp] theorem State.setResv_nsCaps (s : State) (h : Half) (v : Resv) : (s.setResv h v).nsCaps = s.nsCaps := rfl
@[simp] theorem State.setResv_attached (s : State) (h : Half) (v : Resv) : (s.setResv h v).attached = s.attached := rfl
@[simp] theorem State.setResv_segLru (s : State) (h : Half) (v : Resv) : (s.setResv h v).segLru = s.segLru := rfl

@[simp] theorem State.setCache_pending (s : State) (h : Half) (v : Cache) : (s.setCache h v).pending = s.pending := rfl
@[simp] theorem State.setCache_free (s : State) (h : Half) (v : Cache) : (s.setCache h v).free = s.free := rfl
@[simp] theorem State.setCache_ticks (s : State) (h : Half) (v : Cache) : (s.setCache h v).ticks = s.ticks := rfl
@[simp] theorem State.setCache_regs (s : State) (h : Half) (v : Cache) : (s.setCache h v).regs = s.regs := rfl
@[simp] theorem State.setCache_board (s : State) (h : Half) (v : Cache) : (s.setCache h v).board = s.board := rfl
@[simp] theorem State.setCache_asserted (s : State) (h : Half) (v : Cache) : (s.setCache h v).asserted = s.asserted := rfl
@[simp] theorem State.setCache_draining (s : State) (h : Half) (v : Cache) : (s.setCache h v).draining = s.draining := rfl
@[simp] theorem State.setCache_up (s : State) (h : Half) (v : Cache) : (s.setCache h v).up = s.up := rfl
@[simp] theorem State.setCache_motorUp (s : State) (h : Half) (v : Cache) : (s.setCache h v).motorUp = s.motorUp := rfl
@[simp] theorem State.setCache_rails (s : State) (h : Half) (v : Cache) : (s.setCache h v).rails = s.rails := rfl
@[simp] theorem State.setCache_collectors (s : State) (h : Half) (v : Cache) : (s.setCache h v).collectors = s.collectors := rfl
@[simp] theorem State.setCache_evQueue (s : State) (h : Half) (v : Cache) : (s.setCache h v).evQueue = s.evQueue := rfl
@[simp] theorem State.setCache_lamps (s : State) (h : Half) (v : Cache) : (s.setCache h v).lamps = s.lamps := rfl
@[simp] theorem State.setCache_lampHours (s : State) (h : Half) (v : Cache) : (s.setCache h v).lampHours = s.lampHours := rfl
@[simp] theorem State.setCache_traces (s : State) (h : Half) (v : Cache) : (s.setCache h v).traces = s.traces := rfl
@[simp] theorem State.setCache_traceOut (s : State) (h : Half) (v : Cache) : (s.setCache h v).traceOut = s.traceOut := rfl
@[simp] theorem State.setCache_traceTurn (s : State) (h : Half) (v : Cache) : (s.setCache h v).traceTurn = s.traceTurn := rfl
@[simp] theorem State.setCache_lastRead (s : State) (h : Half) (v : Cache) : (s.setCache h v).lastRead = s.lastRead := rfl
@[simp] theorem State.setCache_mhalf (s : State) (h : Half) (v : Cache) : (s.setCache h v).mhalf = s.mhalf := rfl
@[simp] theorem State.setCache_mcore (s : State) (h : Half) (v : Cache) : (s.setCache h v).mcore = s.mcore := rfl
@[simp] theorem State.setCache_preamps (s : State) (h : Half) (v : Cache) : (s.setCache h v).preamps = s.preamps := rfl
@[simp] theorem State.setCache_ports (s : State) (h : Half) (v : Cache) : (s.setCache h v).ports = s.ports := rfl
@[simp] theorem State.setCache_wicks (s : State) (h : Half) (v : Cache) : (s.setCache h v).wicks = s.wicks := rfl
@[simp] theorem State.setCache_rchs (s : State) (h : Half) (v : Cache) : (s.setCache h v).rchs = s.rchs := rfl
@[simp] theorem State.setCache_fmts (s : State) (h : Half) (v : Cache) : (s.setCache h v).fmts = s.fmts := rfl
@[simp] theorem State.setCache_srvs (s : State) (h : Half) (v : Cache) : (s.setCache h v).srvs = s.srvs := rfl
@[simp] theorem State.setCache_spns (s : State) (h : Half) (v : Cache) : (s.setCache h v).spns = s.spns := rfl
@[simp] theorem State.setCache_mot (s : State) (h : Half) (v : Cache) : (s.setCache h v).mot = s.mot := rfl
@[simp] theorem State.setCache_opDone (s : State) (h : Half) (v : Cache) : (s.setCache h v).opDone = s.opDone := rfl
@[simp] theorem State.setCache_staging (s : State) (h : Half) (v : Cache) : (s.setCache h v).staging = s.staging := rfl
@[simp] theorem State.setCache_parity (s : State) (h : Half) (v : Cache) : (s.setCache h v).parity = s.parity := rfl
@[simp] theorem State.setCache_segment (s : State) (h : Half) (v : Cache) : (s.setCache h v).segment = s.segment := rfl
@[simp] theorem State.setCache_pinned (s : State) (h : Half) (v : Cache) : (s.setCache h v).pinned = s.pinned := rfl
@[simp] theorem State.setCache_coreriEvents (s : State) (h : Half) (v : Cache) : (s.setCache h v).coreriEvents = s.coreriEvents := rfl
@[simp] theorem State.setCache_dram (s : State) (h : Half) (v : Cache) : (s.setCache h v).dram = s.dram := rfl
@[simp] theorem State.setCache_mergeBytes (s : State) (h : Half) (v : Cache) : (s.setCache h v).mergeBytes = s.mergeBytes := rfl
@[simp] theorem State.setCache_cacheBytes (s : State) (h : Half) (v : Cache) : (s.setCache h v).cacheBytes = s.cacheBytes := rfl
@[simp] theorem State.setCache_resvs (s : State) (h : Half) (v : Cache) : (s.setCache h v).resvs = s.resvs := rfl
@[simp] theorem State.setCache_poison (s : State) (h : Half) (v : Cache) : (s.setCache h v).poison = s.poison := rfl
@[simp] theorem State.setCache_garbage (s : State) (h : Half) (v : Cache) : (s.setCache h v).garbage = s.garbage := rfl
@[simp] theorem State.setCache_answers (s : State) (h : Half) (v : Cache) : (s.setCache h v).answers = s.answers := rfl
@[simp] theorem State.setCache_waking (s : State) (h : Half) (v : Cache) : (s.setCache h v).waking = s.waking := rfl
@[simp] theorem State.setCache_polOld (s : State) (h : Half) (v : Cache) : (s.setCache h v).polOld = s.polOld := rfl
@[simp] theorem State.setCache_sdms (s : State) (h : Half) (v : Cache) : (s.setCache h v).sdms = s.sdms := rfl
@[simp] theorem State.setCache_hostMem (s : State) (h : Half) (v : Cache) : (s.setCache h v).hostMem = s.hostMem := rfl
@[simp] theorem State.setCache_msis (s : State) (h : Half) (v : Cache) : (s.setCache h v).msis = s.msis := rfl
@[simp] theorem State.setCache_hifs (s : State) (h : Half) (v : Cache) : (s.setCache h v).hifs = s.hifs := rfl
@[simp] theorem State.setCache_cmdSeq (s : State) (h : Half) (v : Cache) : (s.setCache h v).cmdSeq = s.cmdSeq := rfl
@[simp] theorem State.setCache_buffered (s : State) (h : Half) (v : Cache) : (s.setCache h v).buffered = s.buffered := rfl
@[simp] theorem State.setCache_trims (s : State) (h : Half) (v : Cache) : (s.setCache h v).trims = s.trims := rfl
@[simp] theorem State.setCache_nsCaps (s : State) (h : Half) (v : Cache) : (s.setCache h v).nsCaps = s.nsCaps := rfl
@[simp] theorem State.setCache_attached (s : State) (h : Half) (v : Cache) : (s.setCache h v).attached = s.attached := rfl
@[simp] theorem State.setCache_segLru (s : State) (h : Half) (v : Cache) : (s.setCache h v).segLru = s.segLru := rfl

/-! ### Shared operations: what each can change at all -/

theorem ite_both {α : Type} {P : α → Prop} {c : Prop} {_ : Decidable c} {a b : α} (ha : P a) (hb : P b) :
    P (if c then a else b) := by split <;> assumption
theorem State.set64_only (s : State) (a v : Nat) : ∃ r, s.set64 a v = { s with regs := r } := ⟨_, rfl⟩
theorem State.satAdd_only (s : State) (b : Nat) (f : Fld) (v : Nat) : ∃ r, s.satAdd b f v = { s with regs := r } := ⟨_, rfl⟩
theorem State.flag_only (s : State) (b : Nat) (f : Fld) : ∃ r, s.flag b f = { s with regs := r } := ⟨_, rfl⟩
theorem State.bumpQuiet_only (s : State) (h : Half) (c n : Nat) : ∃ r, s.bumpQuiet h c n = { s with regs := r } := by
  unfold State.bumpQuiet
  exact ite_both (P := fun t : State => ∃ r, t = { s with regs := r }) ⟨s.regs, rfl⟩
   (ite_both (P := fun t => ∃ r, t = { s with regs := r }) (State.set64_only ..) (State.set64_only ..))
theorem State.sendMsg_only (s : State) (h : Half) (m : BitVec 64) :
    ∃ r c, s.sendMsg h m = { s with regs := r, collectors := c } := by
  unfold State.sendMsg
  dsimp only
  refine ite_both (P := fun t : State => ∃ r c, t = { s with regs := r, collectors := c }) ?_ ⟨s.regs, _, rfl⟩
  obtain ⟨q, e⟩ := s.flag_only (B.chm h) F.CHM_EVENTS_FIFO_OVF
  rw [e]
  obtain ⟨r, e'⟩ := ({ s with regs := q } : State).bumpQuiet_only h 592 1
  exact ⟨r, s.collectors, e'⟩
theorem State.chimney_only (s : State) (h : Half) (type inst kind hint : Nat) :
    ∃ r c, s.chimney h type inst kind hint = { s with regs := r, collectors := c } := State.sendMsg_only ..
theorem State.bump48_only (s : State) (h : Half) (c n : Nat) :
    ∃ r k, s.bump48 h c n = { s with regs := r, collectors := k } := by
  unfold State.bump48
  obtain ⟨r, e⟩ := s.bumpQuiet_only h c n
  dsimp only
  refine ite_both (P := fun t : State => ∃ r k, t = { s with regs := r, collectors := k }) ?_ ⟨r, s.collectors, e⟩
  obtain ⟨r', k, e'⟩ := (s.bumpQuiet h c n).chimney_only h 12 0 1 c
  exact ⟨r', k, by rw [e', e]⟩
theorem State.count_only (s : State) (b : Nat) (f : Fld) (h : Half) (c n : Nat) :
    ∃ r k, s.count b f h c n = { s with regs := r, collectors := k } := by
  obtain ⟨r, k, e⟩ := (s.satAdd b f n).bump48_only h c n
  exact ⟨r, k, e⟩
theorem State.mantleMsg_only (s : State) (h : Half) (type inst kind hint : Nat) :
    ∃ c, s.mantleMsg h type inst kind hint = { s with collectors := c } := by
  unfold State.mantleMsg
  exact ite_both (P := fun t : State => ∃ c, t = { s with collectors := c }) ⟨s.collectors, rfl⟩ ⟨_, rfl⟩
theorem State.event_only (s : State) (code p0 p1 p2 : Nat) :
    ∃ r q, s.event code p0 p1 p2 = { s with regs := r, evQueue := q } := by
  unfold State.event
  exact ite_both (P := fun t : State => ∃ r q, t = { s with regs := r, evQueue := q }) ⟨_, s.evQueue, rfl⟩ ⟨s.regs, _, rfl⟩
theorem State.trace_only (s : State) (h : Half) (type index : Nat) (body : List Byte) :
    ∃ r q n, s.trace h type index body = { s with regs := r, traces := q, free := n } := by
  unfold State.trace
  exact ite_both (P := fun t : State => ∃ r q n, t = { s with regs := r, traces := q, free := n })
    ⟨_, _, s.free, rfl⟩ ⟨s.regs, _, _, rfl⟩
theorem State.demand_only (s : State) (h : Half) (d : Nat) :
    ∃ r k w, s.demand h d = { s with regs := r, collectors := k, waking := w } := by
  unfold State.demand
  refine ite_both (P := fun t : State => ∃ r k w, t = { s with regs := r, collectors := k, waking := w })
    ⟨s.regs, s.collectors, s.waking, rfl⟩ ?_
  obtain ⟨r, k, e⟩ := s.count_only (B.pwr h) F.PWR_CNT_WAKE_COUNT h 584 1
  split
  · exact ⟨r, k, _, by rw [e]⟩
  · exact ⟨s.regs, s.collectors, _, rfl⟩
theorem State.irq_only (s : State) (h : Half) :
    ∃ r k w m, s.irq h = { s with regs := r, collectors := k, waking := w, mhalf := m } := by
  unfold State.irq
  dsimp only
  refine ite_both (P := fun t : State => ∃ r k w m, t = { s with regs := r, collectors := k, waking := w, mhalf := m })
    ?_ ⟨s.regs, s.collectors, s.waking, _, rfl⟩
  obtain ⟨r, k, w, e⟩ := (s.setMh h.toNat { s.mh h.toNat with irqs := (s.mh h.toNat).irqs + 1 }).demand_only h 1
  exact ⟨r, k, w, _, e⟩

@[simp] theorem State.bumpQuiet_pending (s : State) (h : Half) (c n : Nat) : (s.bumpQuiet h c n).pending = s.pending := by
  obtain ⟨_, e⟩ := s.bumpQuiet_only h c n; rw [e]
@[simp] theorem State.bumpQuiet_free (s : State) (h : Half) (c n : Nat) : (s.bumpQuiet h c n).free = s.free := by
  obtain ⟨_, e⟩ := s.bumpQuiet_only h c n; rw [e]
@[simp] theorem State.bumpQuiet_ticks (s : State) (h : Half) (c n : Nat) : (s.bumpQuiet h c n).ticks = s.ticks := by
  obtain ⟨_, e⟩ := s.bumpQuiet_only h c n; rw [e]
@[simp] theorem State.bumpQuiet_board (s : State) (h : Half) (c n : Nat) : (s.bumpQuiet h c n).board = s.board := by
  obtain ⟨_, e⟩ := s.bumpQuiet_only h c n; rw [e]
@[simp] theorem State.bumpQuiet_asserted (s : State) (h : Half) (c n : Nat) : (s.bumpQuiet h c n).asserted = s.asserted := by
  obtain ⟨_, e⟩ := s.bumpQuiet_only h c n; rw [e]
@[simp] theorem State.bumpQuiet_draining (s : State) (h : Half) (c n : Nat) : (s.bumpQuiet h c n).draining = s.draining := by
  obtain ⟨_, e⟩ := s.bumpQuiet_only h c n; rw [e]
@[simp] theorem State.bumpQuiet_up (s : State) (h : Half) (c n : Nat) : (s.bumpQuiet h c n).up = s.up := by
  obtain ⟨_, e⟩ := s.bumpQuiet_only h c n; rw [e]
@[simp] theorem State.bumpQuiet_motorUp (s : State) (h : Half) (c n : Nat) : (s.bumpQuiet h c n).motorUp = s.motorUp := by
  obtain ⟨_, e⟩ := s.bumpQuiet_only h c n; rw [e]
@[simp] theorem State.bumpQuiet_rails (s : State) (h : Half) (c n : Nat) : (s.bumpQuiet h c n).rails = s.rails := by
  obtain ⟨_, e⟩ := s.bumpQuiet_only h c n; rw [e]
@[simp] theorem State.bumpQuiet_collectors (s : State) (h : Half) (c n : Nat) : (s.bumpQuiet h c n).collectors = s.collectors := by
  obtain ⟨_, e⟩ := s.bumpQuiet_only h c n; rw [e]
@[simp] theorem State.bumpQuiet_evQueue (s : State) (h : Half) (c n : Nat) : (s.bumpQuiet h c n).evQueue = s.evQueue := by
  obtain ⟨_, e⟩ := s.bumpQuiet_only h c n; rw [e]
@[simp] theorem State.bumpQuiet_lamps (s : State) (h : Half) (c n : Nat) : (s.bumpQuiet h c n).lamps = s.lamps := by
  obtain ⟨_, e⟩ := s.bumpQuiet_only h c n; rw [e]
@[simp] theorem State.bumpQuiet_lampHours (s : State) (h : Half) (c n : Nat) : (s.bumpQuiet h c n).lampHours = s.lampHours := by
  obtain ⟨_, e⟩ := s.bumpQuiet_only h c n; rw [e]
@[simp] theorem State.bumpQuiet_traces (s : State) (h : Half) (c n : Nat) : (s.bumpQuiet h c n).traces = s.traces := by
  obtain ⟨_, e⟩ := s.bumpQuiet_only h c n; rw [e]
@[simp] theorem State.bumpQuiet_traceOut (s : State) (h : Half) (c n : Nat) : (s.bumpQuiet h c n).traceOut = s.traceOut := by
  obtain ⟨_, e⟩ := s.bumpQuiet_only h c n; rw [e]
@[simp] theorem State.bumpQuiet_traceTurn (s : State) (h : Half) (c n : Nat) : (s.bumpQuiet h c n).traceTurn = s.traceTurn := by
  obtain ⟨_, e⟩ := s.bumpQuiet_only h c n; rw [e]
@[simp] theorem State.bumpQuiet_lastRead (s : State) (h : Half) (c n : Nat) : (s.bumpQuiet h c n).lastRead = s.lastRead := by
  obtain ⟨_, e⟩ := s.bumpQuiet_only h c n; rw [e]
@[simp] theorem State.bumpQuiet_mhalf (s : State) (h : Half) (c n : Nat) : (s.bumpQuiet h c n).mhalf = s.mhalf := by
  obtain ⟨_, e⟩ := s.bumpQuiet_only h c n; rw [e]
@[simp] theorem State.bumpQuiet_mcore (s : State) (h : Half) (c n : Nat) : (s.bumpQuiet h c n).mcore = s.mcore := by
  obtain ⟨_, e⟩ := s.bumpQuiet_only h c n; rw [e]
@[simp] theorem State.bumpQuiet_preamps (s : State) (h : Half) (c n : Nat) : (s.bumpQuiet h c n).preamps = s.preamps := by
  obtain ⟨_, e⟩ := s.bumpQuiet_only h c n; rw [e]
@[simp] theorem State.bumpQuiet_ports (s : State) (h : Half) (c n : Nat) : (s.bumpQuiet h c n).ports = s.ports := by
  obtain ⟨_, e⟩ := s.bumpQuiet_only h c n; rw [e]
@[simp] theorem State.bumpQuiet_wicks (s : State) (h : Half) (c n : Nat) : (s.bumpQuiet h c n).wicks = s.wicks := by
  obtain ⟨_, e⟩ := s.bumpQuiet_only h c n; rw [e]
@[simp] theorem State.bumpQuiet_rchs (s : State) (h : Half) (c n : Nat) : (s.bumpQuiet h c n).rchs = s.rchs := by
  obtain ⟨_, e⟩ := s.bumpQuiet_only h c n; rw [e]
@[simp] theorem State.bumpQuiet_fmts (s : State) (h : Half) (c n : Nat) : (s.bumpQuiet h c n).fmts = s.fmts := by
  obtain ⟨_, e⟩ := s.bumpQuiet_only h c n; rw [e]
@[simp] theorem State.bumpQuiet_srvs (s : State) (h : Half) (c n : Nat) : (s.bumpQuiet h c n).srvs = s.srvs := by
  obtain ⟨_, e⟩ := s.bumpQuiet_only h c n; rw [e]
@[simp] theorem State.bumpQuiet_spns (s : State) (h : Half) (c n : Nat) : (s.bumpQuiet h c n).spns = s.spns := by
  obtain ⟨_, e⟩ := s.bumpQuiet_only h c n; rw [e]
@[simp] theorem State.bumpQuiet_mot (s : State) (h : Half) (c n : Nat) : (s.bumpQuiet h c n).mot = s.mot := by
  obtain ⟨_, e⟩ := s.bumpQuiet_only h c n; rw [e]
@[simp] theorem State.bumpQuiet_opDone (s : State) (h : Half) (c n : Nat) : (s.bumpQuiet h c n).opDone = s.opDone := by
  obtain ⟨_, e⟩ := s.bumpQuiet_only h c n; rw [e]
@[simp] theorem State.bumpQuiet_staging (s : State) (h : Half) (c n : Nat) : (s.bumpQuiet h c n).staging = s.staging := by
  obtain ⟨_, e⟩ := s.bumpQuiet_only h c n; rw [e]
@[simp] theorem State.bumpQuiet_parity (s : State) (h : Half) (c n : Nat) : (s.bumpQuiet h c n).parity = s.parity := by
  obtain ⟨_, e⟩ := s.bumpQuiet_only h c n; rw [e]
@[simp] theorem State.bumpQuiet_segment (s : State) (h : Half) (c n : Nat) : (s.bumpQuiet h c n).segment = s.segment := by
  obtain ⟨_, e⟩ := s.bumpQuiet_only h c n; rw [e]
@[simp] theorem State.bumpQuiet_pinned (s : State) (h : Half) (c n : Nat) : (s.bumpQuiet h c n).pinned = s.pinned := by
  obtain ⟨_, e⟩ := s.bumpQuiet_only h c n; rw [e]
@[simp] theorem State.bumpQuiet_coreriEvents (s : State) (h : Half) (c n : Nat) : (s.bumpQuiet h c n).coreriEvents = s.coreriEvents := by
  obtain ⟨_, e⟩ := s.bumpQuiet_only h c n; rw [e]
@[simp] theorem State.bumpQuiet_dram (s : State) (h : Half) (c n : Nat) : (s.bumpQuiet h c n).dram = s.dram := by
  obtain ⟨_, e⟩ := s.bumpQuiet_only h c n; rw [e]
@[simp] theorem State.bumpQuiet_mergeBytes (s : State) (h : Half) (c n : Nat) : (s.bumpQuiet h c n).mergeBytes = s.mergeBytes := by
  obtain ⟨_, e⟩ := s.bumpQuiet_only h c n; rw [e]
@[simp] theorem State.bumpQuiet_cacheBytes (s : State) (h : Half) (c n : Nat) : (s.bumpQuiet h c n).cacheBytes = s.cacheBytes := by
  obtain ⟨_, e⟩ := s.bumpQuiet_only h c n; rw [e]
@[simp] theorem State.bumpQuiet_resvs (s : State) (h : Half) (c n : Nat) : (s.bumpQuiet h c n).resvs = s.resvs := by
  obtain ⟨_, e⟩ := s.bumpQuiet_only h c n; rw [e]
@[simp] theorem State.bumpQuiet_caches (s : State) (h : Half) (c n : Nat) : (s.bumpQuiet h c n).caches = s.caches := by
  obtain ⟨_, e⟩ := s.bumpQuiet_only h c n; rw [e]
@[simp] theorem State.bumpQuiet_poison (s : State) (h : Half) (c n : Nat) : (s.bumpQuiet h c n).poison = s.poison := by
  obtain ⟨_, e⟩ := s.bumpQuiet_only h c n; rw [e]
@[simp] theorem State.bumpQuiet_garbage (s : State) (h : Half) (c n : Nat) : (s.bumpQuiet h c n).garbage = s.garbage := by
  obtain ⟨_, e⟩ := s.bumpQuiet_only h c n; rw [e]
@[simp] theorem State.bumpQuiet_answers (s : State) (h : Half) (c n : Nat) : (s.bumpQuiet h c n).answers = s.answers := by
  obtain ⟨_, e⟩ := s.bumpQuiet_only h c n; rw [e]
@[simp] theorem State.bumpQuiet_waking (s : State) (h : Half) (c n : Nat) : (s.bumpQuiet h c n).waking = s.waking := by
  obtain ⟨_, e⟩ := s.bumpQuiet_only h c n; rw [e]
@[simp] theorem State.bumpQuiet_polOld (s : State) (h : Half) (c n : Nat) : (s.bumpQuiet h c n).polOld = s.polOld := by
  obtain ⟨_, e⟩ := s.bumpQuiet_only h c n; rw [e]
@[simp] theorem State.bumpQuiet_sdms (s : State) (h : Half) (c n : Nat) : (s.bumpQuiet h c n).sdms = s.sdms := by
  obtain ⟨_, e⟩ := s.bumpQuiet_only h c n; rw [e]
@[simp] theorem State.bumpQuiet_hostMem (s : State) (h : Half) (c n : Nat) : (s.bumpQuiet h c n).hostMem = s.hostMem := by
  obtain ⟨_, e⟩ := s.bumpQuiet_only h c n; rw [e]
@[simp] theorem State.bumpQuiet_msis (s : State) (h : Half) (c n : Nat) : (s.bumpQuiet h c n).msis = s.msis := by
  obtain ⟨_, e⟩ := s.bumpQuiet_only h c n; rw [e]
@[simp] theorem State.bumpQuiet_hifs (s : State) (h : Half) (c n : Nat) : (s.bumpQuiet h c n).hifs = s.hifs := by
  obtain ⟨_, e⟩ := s.bumpQuiet_only h c n; rw [e]
@[simp] theorem State.bumpQuiet_cmdSeq (s : State) (h : Half) (c n : Nat) : (s.bumpQuiet h c n).cmdSeq = s.cmdSeq := by
  obtain ⟨_, e⟩ := s.bumpQuiet_only h c n; rw [e]
@[simp] theorem State.bumpQuiet_buffered (s : State) (h : Half) (c n : Nat) : (s.bumpQuiet h c n).buffered = s.buffered := by
  obtain ⟨_, e⟩ := s.bumpQuiet_only h c n; rw [e]
@[simp] theorem State.bumpQuiet_trims (s : State) (h : Half) (c n : Nat) : (s.bumpQuiet h c n).trims = s.trims := by
  obtain ⟨_, e⟩ := s.bumpQuiet_only h c n; rw [e]
@[simp] theorem State.bumpQuiet_nsCaps (s : State) (h : Half) (c n : Nat) : (s.bumpQuiet h c n).nsCaps = s.nsCaps := by
  obtain ⟨_, e⟩ := s.bumpQuiet_only h c n; rw [e]
@[simp] theorem State.bumpQuiet_attached (s : State) (h : Half) (c n : Nat) : (s.bumpQuiet h c n).attached = s.attached := by
  obtain ⟨_, e⟩ := s.bumpQuiet_only h c n; rw [e]
@[simp] theorem State.bumpQuiet_segLru (s : State) (h : Half) (c n : Nat) : (s.bumpQuiet h c n).segLru = s.segLru := by
  obtain ⟨_, e⟩ := s.bumpQuiet_only h c n; rw [e]

@[simp] theorem State.sendMsg_pending (s : State) (h : Half) (m : BitVec 64) : (s.sendMsg h m).pending = s.pending := by
  obtain ⟨_, _, e⟩ := s.sendMsg_only h m; rw [e]
@[simp] theorem State.sendMsg_free (s : State) (h : Half) (m : BitVec 64) : (s.sendMsg h m).free = s.free := by
  obtain ⟨_, _, e⟩ := s.sendMsg_only h m; rw [e]
@[simp] theorem State.sendMsg_ticks (s : State) (h : Half) (m : BitVec 64) : (s.sendMsg h m).ticks = s.ticks := by
  obtain ⟨_, _, e⟩ := s.sendMsg_only h m; rw [e]
@[simp] theorem State.sendMsg_board (s : State) (h : Half) (m : BitVec 64) : (s.sendMsg h m).board = s.board := by
  obtain ⟨_, _, e⟩ := s.sendMsg_only h m; rw [e]
@[simp] theorem State.sendMsg_asserted (s : State) (h : Half) (m : BitVec 64) : (s.sendMsg h m).asserted = s.asserted := by
  obtain ⟨_, _, e⟩ := s.sendMsg_only h m; rw [e]
@[simp] theorem State.sendMsg_draining (s : State) (h : Half) (m : BitVec 64) : (s.sendMsg h m).draining = s.draining := by
  obtain ⟨_, _, e⟩ := s.sendMsg_only h m; rw [e]
@[simp] theorem State.sendMsg_up (s : State) (h : Half) (m : BitVec 64) : (s.sendMsg h m).up = s.up := by
  obtain ⟨_, _, e⟩ := s.sendMsg_only h m; rw [e]
@[simp] theorem State.sendMsg_motorUp (s : State) (h : Half) (m : BitVec 64) : (s.sendMsg h m).motorUp = s.motorUp := by
  obtain ⟨_, _, e⟩ := s.sendMsg_only h m; rw [e]
@[simp] theorem State.sendMsg_rails (s : State) (h : Half) (m : BitVec 64) : (s.sendMsg h m).rails = s.rails := by
  obtain ⟨_, _, e⟩ := s.sendMsg_only h m; rw [e]
@[simp] theorem State.sendMsg_evQueue (s : State) (h : Half) (m : BitVec 64) : (s.sendMsg h m).evQueue = s.evQueue := by
  obtain ⟨_, _, e⟩ := s.sendMsg_only h m; rw [e]
@[simp] theorem State.sendMsg_lamps (s : State) (h : Half) (m : BitVec 64) : (s.sendMsg h m).lamps = s.lamps := by
  obtain ⟨_, _, e⟩ := s.sendMsg_only h m; rw [e]
@[simp] theorem State.sendMsg_lampHours (s : State) (h : Half) (m : BitVec 64) : (s.sendMsg h m).lampHours = s.lampHours := by
  obtain ⟨_, _, e⟩ := s.sendMsg_only h m; rw [e]
@[simp] theorem State.sendMsg_traces (s : State) (h : Half) (m : BitVec 64) : (s.sendMsg h m).traces = s.traces := by
  obtain ⟨_, _, e⟩ := s.sendMsg_only h m; rw [e]
@[simp] theorem State.sendMsg_traceOut (s : State) (h : Half) (m : BitVec 64) : (s.sendMsg h m).traceOut = s.traceOut := by
  obtain ⟨_, _, e⟩ := s.sendMsg_only h m; rw [e]
@[simp] theorem State.sendMsg_traceTurn (s : State) (h : Half) (m : BitVec 64) : (s.sendMsg h m).traceTurn = s.traceTurn := by
  obtain ⟨_, _, e⟩ := s.sendMsg_only h m; rw [e]
@[simp] theorem State.sendMsg_lastRead (s : State) (h : Half) (m : BitVec 64) : (s.sendMsg h m).lastRead = s.lastRead := by
  obtain ⟨_, _, e⟩ := s.sendMsg_only h m; rw [e]
@[simp] theorem State.sendMsg_mhalf (s : State) (h : Half) (m : BitVec 64) : (s.sendMsg h m).mhalf = s.mhalf := by
  obtain ⟨_, _, e⟩ := s.sendMsg_only h m; rw [e]
@[simp] theorem State.sendMsg_mcore (s : State) (h : Half) (m : BitVec 64) : (s.sendMsg h m).mcore = s.mcore := by
  obtain ⟨_, _, e⟩ := s.sendMsg_only h m; rw [e]
@[simp] theorem State.sendMsg_preamps (s : State) (h : Half) (m : BitVec 64) : (s.sendMsg h m).preamps = s.preamps := by
  obtain ⟨_, _, e⟩ := s.sendMsg_only h m; rw [e]
@[simp] theorem State.sendMsg_ports (s : State) (h : Half) (m : BitVec 64) : (s.sendMsg h m).ports = s.ports := by
  obtain ⟨_, _, e⟩ := s.sendMsg_only h m; rw [e]
@[simp] theorem State.sendMsg_wicks (s : State) (h : Half) (m : BitVec 64) : (s.sendMsg h m).wicks = s.wicks := by
  obtain ⟨_, _, e⟩ := s.sendMsg_only h m; rw [e]
@[simp] theorem State.sendMsg_rchs (s : State) (h : Half) (m : BitVec 64) : (s.sendMsg h m).rchs = s.rchs := by
  obtain ⟨_, _, e⟩ := s.sendMsg_only h m; rw [e]
@[simp] theorem State.sendMsg_fmts (s : State) (h : Half) (m : BitVec 64) : (s.sendMsg h m).fmts = s.fmts := by
  obtain ⟨_, _, e⟩ := s.sendMsg_only h m; rw [e]
@[simp] theorem State.sendMsg_srvs (s : State) (h : Half) (m : BitVec 64) : (s.sendMsg h m).srvs = s.srvs := by
  obtain ⟨_, _, e⟩ := s.sendMsg_only h m; rw [e]
@[simp] theorem State.sendMsg_spns (s : State) (h : Half) (m : BitVec 64) : (s.sendMsg h m).spns = s.spns := by
  obtain ⟨_, _, e⟩ := s.sendMsg_only h m; rw [e]
@[simp] theorem State.sendMsg_mot (s : State) (h : Half) (m : BitVec 64) : (s.sendMsg h m).mot = s.mot := by
  obtain ⟨_, _, e⟩ := s.sendMsg_only h m; rw [e]
@[simp] theorem State.sendMsg_opDone (s : State) (h : Half) (m : BitVec 64) : (s.sendMsg h m).opDone = s.opDone := by
  obtain ⟨_, _, e⟩ := s.sendMsg_only h m; rw [e]
@[simp] theorem State.sendMsg_staging (s : State) (h : Half) (m : BitVec 64) : (s.sendMsg h m).staging = s.staging := by
  obtain ⟨_, _, e⟩ := s.sendMsg_only h m; rw [e]
@[simp] theorem State.sendMsg_parity (s : State) (h : Half) (m : BitVec 64) : (s.sendMsg h m).parity = s.parity := by
  obtain ⟨_, _, e⟩ := s.sendMsg_only h m; rw [e]
@[simp] theorem State.sendMsg_segment (s : State) (h : Half) (m : BitVec 64) : (s.sendMsg h m).segment = s.segment := by
  obtain ⟨_, _, e⟩ := s.sendMsg_only h m; rw [e]
@[simp] theorem State.sendMsg_pinned (s : State) (h : Half) (m : BitVec 64) : (s.sendMsg h m).pinned = s.pinned := by
  obtain ⟨_, _, e⟩ := s.sendMsg_only h m; rw [e]
@[simp] theorem State.sendMsg_coreriEvents (s : State) (h : Half) (m : BitVec 64) : (s.sendMsg h m).coreriEvents = s.coreriEvents := by
  obtain ⟨_, _, e⟩ := s.sendMsg_only h m; rw [e]
@[simp] theorem State.sendMsg_dram (s : State) (h : Half) (m : BitVec 64) : (s.sendMsg h m).dram = s.dram := by
  obtain ⟨_, _, e⟩ := s.sendMsg_only h m; rw [e]
@[simp] theorem State.sendMsg_mergeBytes (s : State) (h : Half) (m : BitVec 64) : (s.sendMsg h m).mergeBytes = s.mergeBytes := by
  obtain ⟨_, _, e⟩ := s.sendMsg_only h m; rw [e]
@[simp] theorem State.sendMsg_cacheBytes (s : State) (h : Half) (m : BitVec 64) : (s.sendMsg h m).cacheBytes = s.cacheBytes := by
  obtain ⟨_, _, e⟩ := s.sendMsg_only h m; rw [e]
@[simp] theorem State.sendMsg_resvs (s : State) (h : Half) (m : BitVec 64) : (s.sendMsg h m).resvs = s.resvs := by
  obtain ⟨_, _, e⟩ := s.sendMsg_only h m; rw [e]
@[simp] theorem State.sendMsg_caches (s : State) (h : Half) (m : BitVec 64) : (s.sendMsg h m).caches = s.caches := by
  obtain ⟨_, _, e⟩ := s.sendMsg_only h m; rw [e]
@[simp] theorem State.sendMsg_poison (s : State) (h : Half) (m : BitVec 64) : (s.sendMsg h m).poison = s.poison := by
  obtain ⟨_, _, e⟩ := s.sendMsg_only h m; rw [e]
@[simp] theorem State.sendMsg_garbage (s : State) (h : Half) (m : BitVec 64) : (s.sendMsg h m).garbage = s.garbage := by
  obtain ⟨_, _, e⟩ := s.sendMsg_only h m; rw [e]
@[simp] theorem State.sendMsg_answers (s : State) (h : Half) (m : BitVec 64) : (s.sendMsg h m).answers = s.answers := by
  obtain ⟨_, _, e⟩ := s.sendMsg_only h m; rw [e]
@[simp] theorem State.sendMsg_waking (s : State) (h : Half) (m : BitVec 64) : (s.sendMsg h m).waking = s.waking := by
  obtain ⟨_, _, e⟩ := s.sendMsg_only h m; rw [e]
@[simp] theorem State.sendMsg_polOld (s : State) (h : Half) (m : BitVec 64) : (s.sendMsg h m).polOld = s.polOld := by
  obtain ⟨_, _, e⟩ := s.sendMsg_only h m; rw [e]
@[simp] theorem State.sendMsg_sdms (s : State) (h : Half) (m : BitVec 64) : (s.sendMsg h m).sdms = s.sdms := by
  obtain ⟨_, _, e⟩ := s.sendMsg_only h m; rw [e]
@[simp] theorem State.sendMsg_hostMem (s : State) (h : Half) (m : BitVec 64) : (s.sendMsg h m).hostMem = s.hostMem := by
  obtain ⟨_, _, e⟩ := s.sendMsg_only h m; rw [e]
@[simp] theorem State.sendMsg_msis (s : State) (h : Half) (m : BitVec 64) : (s.sendMsg h m).msis = s.msis := by
  obtain ⟨_, _, e⟩ := s.sendMsg_only h m; rw [e]
@[simp] theorem State.sendMsg_hifs (s : State) (h : Half) (m : BitVec 64) : (s.sendMsg h m).hifs = s.hifs := by
  obtain ⟨_, _, e⟩ := s.sendMsg_only h m; rw [e]
@[simp] theorem State.sendMsg_cmdSeq (s : State) (h : Half) (m : BitVec 64) : (s.sendMsg h m).cmdSeq = s.cmdSeq := by
  obtain ⟨_, _, e⟩ := s.sendMsg_only h m; rw [e]
@[simp] theorem State.sendMsg_buffered (s : State) (h : Half) (m : BitVec 64) : (s.sendMsg h m).buffered = s.buffered := by
  obtain ⟨_, _, e⟩ := s.sendMsg_only h m; rw [e]
@[simp] theorem State.sendMsg_trims (s : State) (h : Half) (m : BitVec 64) : (s.sendMsg h m).trims = s.trims := by
  obtain ⟨_, _, e⟩ := s.sendMsg_only h m; rw [e]
@[simp] theorem State.sendMsg_nsCaps (s : State) (h : Half) (m : BitVec 64) : (s.sendMsg h m).nsCaps = s.nsCaps := by
  obtain ⟨_, _, e⟩ := s.sendMsg_only h m; rw [e]
@[simp] theorem State.sendMsg_attached (s : State) (h : Half) (m : BitVec 64) : (s.sendMsg h m).attached = s.attached := by
  obtain ⟨_, _, e⟩ := s.sendMsg_only h m; rw [e]
@[simp] theorem State.sendMsg_segLru (s : State) (h : Half) (m : BitVec 64) : (s.sendMsg h m).segLru = s.segLru := by
  obtain ⟨_, _, e⟩ := s.sendMsg_only h m; rw [e]

@[simp] theorem State.chimney_pending (s : State) (h : Half) (type inst kind hint : Nat) : (s.chimney h type inst kind hint).pending = s.pending := by
  obtain ⟨_, _, e⟩ := s.chimney_only h type inst kind hint; rw [e]
@[simp] theorem State.chimney_free (s : State) (h : Half) (type inst kind hint : Nat) : (s.chimney h type inst kind hint).free = s.free := by
  obtain ⟨_, _, e⟩ := s.chimney_only h type inst kind hint; rw [e]
@[simp] theorem State.chimney_ticks (s : State) (h : Half) (type inst kind hint : Nat) : (s.chimney h type inst kind hint).ticks = s.ticks := by
  obtain ⟨_, _, e⟩ := s.chimney_only h type inst kind hint; rw [e]
@[simp] theorem State.chimney_board (s : State) (h : Half) (type inst kind hint : Nat) : (s.chimney h type inst kind hint).board = s.board := by
  obtain ⟨_, _, e⟩ := s.chimney_only h type inst kind hint; rw [e]
@[simp] theorem State.chimney_asserted (s : State) (h : Half) (type inst kind hint : Nat) : (s.chimney h type inst kind hint).asserted = s.asserted := by
  obtain ⟨_, _, e⟩ := s.chimney_only h type inst kind hint; rw [e]
@[simp] theorem State.chimney_draining (s : State) (h : Half) (type inst kind hint : Nat) : (s.chimney h type inst kind hint).draining = s.draining := by
  obtain ⟨_, _, e⟩ := s.chimney_only h type inst kind hint; rw [e]
@[simp] theorem State.chimney_up (s : State) (h : Half) (type inst kind hint : Nat) : (s.chimney h type inst kind hint).up = s.up := by
  obtain ⟨_, _, e⟩ := s.chimney_only h type inst kind hint; rw [e]
@[simp] theorem State.chimney_motorUp (s : State) (h : Half) (type inst kind hint : Nat) : (s.chimney h type inst kind hint).motorUp = s.motorUp := by
  obtain ⟨_, _, e⟩ := s.chimney_only h type inst kind hint; rw [e]
@[simp] theorem State.chimney_rails (s : State) (h : Half) (type inst kind hint : Nat) : (s.chimney h type inst kind hint).rails = s.rails := by
  obtain ⟨_, _, e⟩ := s.chimney_only h type inst kind hint; rw [e]
@[simp] theorem State.chimney_evQueue (s : State) (h : Half) (type inst kind hint : Nat) : (s.chimney h type inst kind hint).evQueue = s.evQueue := by
  obtain ⟨_, _, e⟩ := s.chimney_only h type inst kind hint; rw [e]
@[simp] theorem State.chimney_lamps (s : State) (h : Half) (type inst kind hint : Nat) : (s.chimney h type inst kind hint).lamps = s.lamps := by
  obtain ⟨_, _, e⟩ := s.chimney_only h type inst kind hint; rw [e]
@[simp] theorem State.chimney_lampHours (s : State) (h : Half) (type inst kind hint : Nat) : (s.chimney h type inst kind hint).lampHours = s.lampHours := by
  obtain ⟨_, _, e⟩ := s.chimney_only h type inst kind hint; rw [e]
@[simp] theorem State.chimney_traces (s : State) (h : Half) (type inst kind hint : Nat) : (s.chimney h type inst kind hint).traces = s.traces := by
  obtain ⟨_, _, e⟩ := s.chimney_only h type inst kind hint; rw [e]
@[simp] theorem State.chimney_traceOut (s : State) (h : Half) (type inst kind hint : Nat) : (s.chimney h type inst kind hint).traceOut = s.traceOut := by
  obtain ⟨_, _, e⟩ := s.chimney_only h type inst kind hint; rw [e]
@[simp] theorem State.chimney_traceTurn (s : State) (h : Half) (type inst kind hint : Nat) : (s.chimney h type inst kind hint).traceTurn = s.traceTurn := by
  obtain ⟨_, _, e⟩ := s.chimney_only h type inst kind hint; rw [e]
@[simp] theorem State.chimney_lastRead (s : State) (h : Half) (type inst kind hint : Nat) : (s.chimney h type inst kind hint).lastRead = s.lastRead := by
  obtain ⟨_, _, e⟩ := s.chimney_only h type inst kind hint; rw [e]
@[simp] theorem State.chimney_mhalf (s : State) (h : Half) (type inst kind hint : Nat) : (s.chimney h type inst kind hint).mhalf = s.mhalf := by
  obtain ⟨_, _, e⟩ := s.chimney_only h type inst kind hint; rw [e]
@[simp] theorem State.chimney_mcore (s : State) (h : Half) (type inst kind hint : Nat) : (s.chimney h type inst kind hint).mcore = s.mcore := by
  obtain ⟨_, _, e⟩ := s.chimney_only h type inst kind hint; rw [e]
@[simp] theorem State.chimney_preamps (s : State) (h : Half) (type inst kind hint : Nat) : (s.chimney h type inst kind hint).preamps = s.preamps := by
  obtain ⟨_, _, e⟩ := s.chimney_only h type inst kind hint; rw [e]
@[simp] theorem State.chimney_ports (s : State) (h : Half) (type inst kind hint : Nat) : (s.chimney h type inst kind hint).ports = s.ports := by
  obtain ⟨_, _, e⟩ := s.chimney_only h type inst kind hint; rw [e]
@[simp] theorem State.chimney_wicks (s : State) (h : Half) (type inst kind hint : Nat) : (s.chimney h type inst kind hint).wicks = s.wicks := by
  obtain ⟨_, _, e⟩ := s.chimney_only h type inst kind hint; rw [e]
@[simp] theorem State.chimney_rchs (s : State) (h : Half) (type inst kind hint : Nat) : (s.chimney h type inst kind hint).rchs = s.rchs := by
  obtain ⟨_, _, e⟩ := s.chimney_only h type inst kind hint; rw [e]
@[simp] theorem State.chimney_fmts (s : State) (h : Half) (type inst kind hint : Nat) : (s.chimney h type inst kind hint).fmts = s.fmts := by
  obtain ⟨_, _, e⟩ := s.chimney_only h type inst kind hint; rw [e]
@[simp] theorem State.chimney_srvs (s : State) (h : Half) (type inst kind hint : Nat) : (s.chimney h type inst kind hint).srvs = s.srvs := by
  obtain ⟨_, _, e⟩ := s.chimney_only h type inst kind hint; rw [e]
@[simp] theorem State.chimney_spns (s : State) (h : Half) (type inst kind hint : Nat) : (s.chimney h type inst kind hint).spns = s.spns := by
  obtain ⟨_, _, e⟩ := s.chimney_only h type inst kind hint; rw [e]
@[simp] theorem State.chimney_mot (s : State) (h : Half) (type inst kind hint : Nat) : (s.chimney h type inst kind hint).mot = s.mot := by
  obtain ⟨_, _, e⟩ := s.chimney_only h type inst kind hint; rw [e]
@[simp] theorem State.chimney_opDone (s : State) (h : Half) (type inst kind hint : Nat) : (s.chimney h type inst kind hint).opDone = s.opDone := by
  obtain ⟨_, _, e⟩ := s.chimney_only h type inst kind hint; rw [e]
@[simp] theorem State.chimney_staging (s : State) (h : Half) (type inst kind hint : Nat) : (s.chimney h type inst kind hint).staging = s.staging := by
  obtain ⟨_, _, e⟩ := s.chimney_only h type inst kind hint; rw [e]
@[simp] theorem State.chimney_parity (s : State) (h : Half) (type inst kind hint : Nat) : (s.chimney h type inst kind hint).parity = s.parity := by
  obtain ⟨_, _, e⟩ := s.chimney_only h type inst kind hint; rw [e]
@[simp] theorem State.chimney_segment (s : State) (h : Half) (type inst kind hint : Nat) : (s.chimney h type inst kind hint).segment = s.segment := by
  obtain ⟨_, _, e⟩ := s.chimney_only h type inst kind hint; rw [e]
@[simp] theorem State.chimney_pinned (s : State) (h : Half) (type inst kind hint : Nat) : (s.chimney h type inst kind hint).pinned = s.pinned := by
  obtain ⟨_, _, e⟩ := s.chimney_only h type inst kind hint; rw [e]
@[simp] theorem State.chimney_coreriEvents (s : State) (h : Half) (type inst kind hint : Nat) : (s.chimney h type inst kind hint).coreriEvents = s.coreriEvents := by
  obtain ⟨_, _, e⟩ := s.chimney_only h type inst kind hint; rw [e]
@[simp] theorem State.chimney_dram (s : State) (h : Half) (type inst kind hint : Nat) : (s.chimney h type inst kind hint).dram = s.dram := by
  obtain ⟨_, _, e⟩ := s.chimney_only h type inst kind hint; rw [e]
@[simp] theorem State.chimney_mergeBytes (s : State) (h : Half) (type inst kind hint : Nat) : (s.chimney h type inst kind hint).mergeBytes = s.mergeBytes := by
  obtain ⟨_, _, e⟩ := s.chimney_only h type inst kind hint; rw [e]
@[simp] theorem State.chimney_cacheBytes (s : State) (h : Half) (type inst kind hint : Nat) : (s.chimney h type inst kind hint).cacheBytes = s.cacheBytes := by
  obtain ⟨_, _, e⟩ := s.chimney_only h type inst kind hint; rw [e]
@[simp] theorem State.chimney_resvs (s : State) (h : Half) (type inst kind hint : Nat) : (s.chimney h type inst kind hint).resvs = s.resvs := by
  obtain ⟨_, _, e⟩ := s.chimney_only h type inst kind hint; rw [e]
@[simp] theorem State.chimney_caches (s : State) (h : Half) (type inst kind hint : Nat) : (s.chimney h type inst kind hint).caches = s.caches := by
  obtain ⟨_, _, e⟩ := s.chimney_only h type inst kind hint; rw [e]
@[simp] theorem State.chimney_poison (s : State) (h : Half) (type inst kind hint : Nat) : (s.chimney h type inst kind hint).poison = s.poison := by
  obtain ⟨_, _, e⟩ := s.chimney_only h type inst kind hint; rw [e]
@[simp] theorem State.chimney_garbage (s : State) (h : Half) (type inst kind hint : Nat) : (s.chimney h type inst kind hint).garbage = s.garbage := by
  obtain ⟨_, _, e⟩ := s.chimney_only h type inst kind hint; rw [e]
@[simp] theorem State.chimney_answers (s : State) (h : Half) (type inst kind hint : Nat) : (s.chimney h type inst kind hint).answers = s.answers := by
  obtain ⟨_, _, e⟩ := s.chimney_only h type inst kind hint; rw [e]
@[simp] theorem State.chimney_waking (s : State) (h : Half) (type inst kind hint : Nat) : (s.chimney h type inst kind hint).waking = s.waking := by
  obtain ⟨_, _, e⟩ := s.chimney_only h type inst kind hint; rw [e]
@[simp] theorem State.chimney_polOld (s : State) (h : Half) (type inst kind hint : Nat) : (s.chimney h type inst kind hint).polOld = s.polOld := by
  obtain ⟨_, _, e⟩ := s.chimney_only h type inst kind hint; rw [e]
@[simp] theorem State.chimney_sdms (s : State) (h : Half) (type inst kind hint : Nat) : (s.chimney h type inst kind hint).sdms = s.sdms := by
  obtain ⟨_, _, e⟩ := s.chimney_only h type inst kind hint; rw [e]
@[simp] theorem State.chimney_hostMem (s : State) (h : Half) (type inst kind hint : Nat) : (s.chimney h type inst kind hint).hostMem = s.hostMem := by
  obtain ⟨_, _, e⟩ := s.chimney_only h type inst kind hint; rw [e]
@[simp] theorem State.chimney_msis (s : State) (h : Half) (type inst kind hint : Nat) : (s.chimney h type inst kind hint).msis = s.msis := by
  obtain ⟨_, _, e⟩ := s.chimney_only h type inst kind hint; rw [e]
@[simp] theorem State.chimney_hifs (s : State) (h : Half) (type inst kind hint : Nat) : (s.chimney h type inst kind hint).hifs = s.hifs := by
  obtain ⟨_, _, e⟩ := s.chimney_only h type inst kind hint; rw [e]
@[simp] theorem State.chimney_cmdSeq (s : State) (h : Half) (type inst kind hint : Nat) : (s.chimney h type inst kind hint).cmdSeq = s.cmdSeq := by
  obtain ⟨_, _, e⟩ := s.chimney_only h type inst kind hint; rw [e]
@[simp] theorem State.chimney_buffered (s : State) (h : Half) (type inst kind hint : Nat) : (s.chimney h type inst kind hint).buffered = s.buffered := by
  obtain ⟨_, _, e⟩ := s.chimney_only h type inst kind hint; rw [e]
@[simp] theorem State.chimney_trims (s : State) (h : Half) (type inst kind hint : Nat) : (s.chimney h type inst kind hint).trims = s.trims := by
  obtain ⟨_, _, e⟩ := s.chimney_only h type inst kind hint; rw [e]
@[simp] theorem State.chimney_nsCaps (s : State) (h : Half) (type inst kind hint : Nat) : (s.chimney h type inst kind hint).nsCaps = s.nsCaps := by
  obtain ⟨_, _, e⟩ := s.chimney_only h type inst kind hint; rw [e]
@[simp] theorem State.chimney_attached (s : State) (h : Half) (type inst kind hint : Nat) : (s.chimney h type inst kind hint).attached = s.attached := by
  obtain ⟨_, _, e⟩ := s.chimney_only h type inst kind hint; rw [e]
@[simp] theorem State.chimney_segLru (s : State) (h : Half) (type inst kind hint : Nat) : (s.chimney h type inst kind hint).segLru = s.segLru := by
  obtain ⟨_, _, e⟩ := s.chimney_only h type inst kind hint; rw [e]

@[simp] theorem State.bump48_pending (s : State) (h : Half) (c n : Nat) : (s.bump48 h c n).pending = s.pending := by
  obtain ⟨_, _, e⟩ := s.bump48_only h c n; rw [e]
@[simp] theorem State.bump48_free (s : State) (h : Half) (c n : Nat) : (s.bump48 h c n).free = s.free := by
  obtain ⟨_, _, e⟩ := s.bump48_only h c n; rw [e]
@[simp] theorem State.bump48_ticks (s : State) (h : Half) (c n : Nat) : (s.bump48 h c n).ticks = s.ticks := by
  obtain ⟨_, _, e⟩ := s.bump48_only h c n; rw [e]
@[simp] theorem State.bump48_board (s : State) (h : Half) (c n : Nat) : (s.bump48 h c n).board = s.board := by
  obtain ⟨_, _, e⟩ := s.bump48_only h c n; rw [e]
@[simp] theorem State.bump48_asserted (s : State) (h : Half) (c n : Nat) : (s.bump48 h c n).asserted = s.asserted := by
  obtain ⟨_, _, e⟩ := s.bump48_only h c n; rw [e]
@[simp] theorem State.bump48_draining (s : State) (h : Half) (c n : Nat) : (s.bump48 h c n).draining = s.draining := by
  obtain ⟨_, _, e⟩ := s.bump48_only h c n; rw [e]
@[simp] theorem State.bump48_up (s : State) (h : Half) (c n : Nat) : (s.bump48 h c n).up = s.up := by
  obtain ⟨_, _, e⟩ := s.bump48_only h c n; rw [e]
@[simp] theorem State.bump48_motorUp (s : State) (h : Half) (c n : Nat) : (s.bump48 h c n).motorUp = s.motorUp := by
  obtain ⟨_, _, e⟩ := s.bump48_only h c n; rw [e]
@[simp] theorem State.bump48_rails (s : State) (h : Half) (c n : Nat) : (s.bump48 h c n).rails = s.rails := by
  obtain ⟨_, _, e⟩ := s.bump48_only h c n; rw [e]
@[simp] theorem State.bump48_evQueue (s : State) (h : Half) (c n : Nat) : (s.bump48 h c n).evQueue = s.evQueue := by
  obtain ⟨_, _, e⟩ := s.bump48_only h c n; rw [e]
@[simp] theorem State.bump48_lamps (s : State) (h : Half) (c n : Nat) : (s.bump48 h c n).lamps = s.lamps := by
  obtain ⟨_, _, e⟩ := s.bump48_only h c n; rw [e]
@[simp] theorem State.bump48_lampHours (s : State) (h : Half) (c n : Nat) : (s.bump48 h c n).lampHours = s.lampHours := by
  obtain ⟨_, _, e⟩ := s.bump48_only h c n; rw [e]
@[simp] theorem State.bump48_traces (s : State) (h : Half) (c n : Nat) : (s.bump48 h c n).traces = s.traces := by
  obtain ⟨_, _, e⟩ := s.bump48_only h c n; rw [e]
@[simp] theorem State.bump48_traceOut (s : State) (h : Half) (c n : Nat) : (s.bump48 h c n).traceOut = s.traceOut := by
  obtain ⟨_, _, e⟩ := s.bump48_only h c n; rw [e]
@[simp] theorem State.bump48_traceTurn (s : State) (h : Half) (c n : Nat) : (s.bump48 h c n).traceTurn = s.traceTurn := by
  obtain ⟨_, _, e⟩ := s.bump48_only h c n; rw [e]
@[simp] theorem State.bump48_lastRead (s : State) (h : Half) (c n : Nat) : (s.bump48 h c n).lastRead = s.lastRead := by
  obtain ⟨_, _, e⟩ := s.bump48_only h c n; rw [e]
@[simp] theorem State.bump48_mhalf (s : State) (h : Half) (c n : Nat) : (s.bump48 h c n).mhalf = s.mhalf := by
  obtain ⟨_, _, e⟩ := s.bump48_only h c n; rw [e]
@[simp] theorem State.bump48_mcore (s : State) (h : Half) (c n : Nat) : (s.bump48 h c n).mcore = s.mcore := by
  obtain ⟨_, _, e⟩ := s.bump48_only h c n; rw [e]
@[simp] theorem State.bump48_preamps (s : State) (h : Half) (c n : Nat) : (s.bump48 h c n).preamps = s.preamps := by
  obtain ⟨_, _, e⟩ := s.bump48_only h c n; rw [e]
@[simp] theorem State.bump48_ports (s : State) (h : Half) (c n : Nat) : (s.bump48 h c n).ports = s.ports := by
  obtain ⟨_, _, e⟩ := s.bump48_only h c n; rw [e]
@[simp] theorem State.bump48_wicks (s : State) (h : Half) (c n : Nat) : (s.bump48 h c n).wicks = s.wicks := by
  obtain ⟨_, _, e⟩ := s.bump48_only h c n; rw [e]
@[simp] theorem State.bump48_rchs (s : State) (h : Half) (c n : Nat) : (s.bump48 h c n).rchs = s.rchs := by
  obtain ⟨_, _, e⟩ := s.bump48_only h c n; rw [e]
@[simp] theorem State.bump48_fmts (s : State) (h : Half) (c n : Nat) : (s.bump48 h c n).fmts = s.fmts := by
  obtain ⟨_, _, e⟩ := s.bump48_only h c n; rw [e]
@[simp] theorem State.bump48_srvs (s : State) (h : Half) (c n : Nat) : (s.bump48 h c n).srvs = s.srvs := by
  obtain ⟨_, _, e⟩ := s.bump48_only h c n; rw [e]
@[simp] theorem State.bump48_spns (s : State) (h : Half) (c n : Nat) : (s.bump48 h c n).spns = s.spns := by
  obtain ⟨_, _, e⟩ := s.bump48_only h c n; rw [e]
@[simp] theorem State.bump48_mot (s : State) (h : Half) (c n : Nat) : (s.bump48 h c n).mot = s.mot := by
  obtain ⟨_, _, e⟩ := s.bump48_only h c n; rw [e]
@[simp] theorem State.bump48_opDone (s : State) (h : Half) (c n : Nat) : (s.bump48 h c n).opDone = s.opDone := by
  obtain ⟨_, _, e⟩ := s.bump48_only h c n; rw [e]
@[simp] theorem State.bump48_staging (s : State) (h : Half) (c n : Nat) : (s.bump48 h c n).staging = s.staging := by
  obtain ⟨_, _, e⟩ := s.bump48_only h c n; rw [e]
@[simp] theorem State.bump48_parity (s : State) (h : Half) (c n : Nat) : (s.bump48 h c n).parity = s.parity := by
  obtain ⟨_, _, e⟩ := s.bump48_only h c n; rw [e]
@[simp] theorem State.bump48_segment (s : State) (h : Half) (c n : Nat) : (s.bump48 h c n).segment = s.segment := by
  obtain ⟨_, _, e⟩ := s.bump48_only h c n; rw [e]
@[simp] theorem State.bump48_pinned (s : State) (h : Half) (c n : Nat) : (s.bump48 h c n).pinned = s.pinned := by
  obtain ⟨_, _, e⟩ := s.bump48_only h c n; rw [e]
@[simp] theorem State.bump48_coreriEvents (s : State) (h : Half) (c n : Nat) : (s.bump48 h c n).coreriEvents = s.coreriEvents := by
  obtain ⟨_, _, e⟩ := s.bump48_only h c n; rw [e]
@[simp] theorem State.bump48_dram (s : State) (h : Half) (c n : Nat) : (s.bump48 h c n).dram = s.dram := by
  obtain ⟨_, _, e⟩ := s.bump48_only h c n; rw [e]
@[simp] theorem State.bump48_mergeBytes (s : State) (h : Half) (c n : Nat) : (s.bump48 h c n).mergeBytes = s.mergeBytes := by
  obtain ⟨_, _, e⟩ := s.bump48_only h c n; rw [e]
@[simp] theorem State.bump48_cacheBytes (s : State) (h : Half) (c n : Nat) : (s.bump48 h c n).cacheBytes = s.cacheBytes := by
  obtain ⟨_, _, e⟩ := s.bump48_only h c n; rw [e]
@[simp] theorem State.bump48_resvs (s : State) (h : Half) (c n : Nat) : (s.bump48 h c n).resvs = s.resvs := by
  obtain ⟨_, _, e⟩ := s.bump48_only h c n; rw [e]
@[simp] theorem State.bump48_caches (s : State) (h : Half) (c n : Nat) : (s.bump48 h c n).caches = s.caches := by
  obtain ⟨_, _, e⟩ := s.bump48_only h c n; rw [e]
@[simp] theorem State.bump48_poison (s : State) (h : Half) (c n : Nat) : (s.bump48 h c n).poison = s.poison := by
  obtain ⟨_, _, e⟩ := s.bump48_only h c n; rw [e]
@[simp] theorem State.bump48_garbage (s : State) (h : Half) (c n : Nat) : (s.bump48 h c n).garbage = s.garbage := by
  obtain ⟨_, _, e⟩ := s.bump48_only h c n; rw [e]
@[simp] theorem State.bump48_answers (s : State) (h : Half) (c n : Nat) : (s.bump48 h c n).answers = s.answers := by
  obtain ⟨_, _, e⟩ := s.bump48_only h c n; rw [e]
@[simp] theorem State.bump48_waking (s : State) (h : Half) (c n : Nat) : (s.bump48 h c n).waking = s.waking := by
  obtain ⟨_, _, e⟩ := s.bump48_only h c n; rw [e]
@[simp] theorem State.bump48_polOld (s : State) (h : Half) (c n : Nat) : (s.bump48 h c n).polOld = s.polOld := by
  obtain ⟨_, _, e⟩ := s.bump48_only h c n; rw [e]
@[simp] theorem State.bump48_sdms (s : State) (h : Half) (c n : Nat) : (s.bump48 h c n).sdms = s.sdms := by
  obtain ⟨_, _, e⟩ := s.bump48_only h c n; rw [e]
@[simp] theorem State.bump48_hostMem (s : State) (h : Half) (c n : Nat) : (s.bump48 h c n).hostMem = s.hostMem := by
  obtain ⟨_, _, e⟩ := s.bump48_only h c n; rw [e]
@[simp] theorem State.bump48_msis (s : State) (h : Half) (c n : Nat) : (s.bump48 h c n).msis = s.msis := by
  obtain ⟨_, _, e⟩ := s.bump48_only h c n; rw [e]
@[simp] theorem State.bump48_hifs (s : State) (h : Half) (c n : Nat) : (s.bump48 h c n).hifs = s.hifs := by
  obtain ⟨_, _, e⟩ := s.bump48_only h c n; rw [e]
@[simp] theorem State.bump48_cmdSeq (s : State) (h : Half) (c n : Nat) : (s.bump48 h c n).cmdSeq = s.cmdSeq := by
  obtain ⟨_, _, e⟩ := s.bump48_only h c n; rw [e]
@[simp] theorem State.bump48_buffered (s : State) (h : Half) (c n : Nat) : (s.bump48 h c n).buffered = s.buffered := by
  obtain ⟨_, _, e⟩ := s.bump48_only h c n; rw [e]
@[simp] theorem State.bump48_trims (s : State) (h : Half) (c n : Nat) : (s.bump48 h c n).trims = s.trims := by
  obtain ⟨_, _, e⟩ := s.bump48_only h c n; rw [e]
@[simp] theorem State.bump48_nsCaps (s : State) (h : Half) (c n : Nat) : (s.bump48 h c n).nsCaps = s.nsCaps := by
  obtain ⟨_, _, e⟩ := s.bump48_only h c n; rw [e]
@[simp] theorem State.bump48_attached (s : State) (h : Half) (c n : Nat) : (s.bump48 h c n).attached = s.attached := by
  obtain ⟨_, _, e⟩ := s.bump48_only h c n; rw [e]
@[simp] theorem State.bump48_segLru (s : State) (h : Half) (c n : Nat) : (s.bump48 h c n).segLru = s.segLru := by
  obtain ⟨_, _, e⟩ := s.bump48_only h c n; rw [e]

@[simp] theorem State.count_pending (s : State) (b : Nat) (f : Fld) (h : Half) (c n : Nat) : (s.count b f h c n).pending = s.pending := by
  obtain ⟨_, _, e⟩ := s.count_only b f h c n; rw [e]
@[simp] theorem State.count_free (s : State) (b : Nat) (f : Fld) (h : Half) (c n : Nat) : (s.count b f h c n).free = s.free := by
  obtain ⟨_, _, e⟩ := s.count_only b f h c n; rw [e]
@[simp] theorem State.count_ticks (s : State) (b : Nat) (f : Fld) (h : Half) (c n : Nat) : (s.count b f h c n).ticks = s.ticks := by
  obtain ⟨_, _, e⟩ := s.count_only b f h c n; rw [e]
@[simp] theorem State.count_board (s : State) (b : Nat) (f : Fld) (h : Half) (c n : Nat) : (s.count b f h c n).board = s.board := by
  obtain ⟨_, _, e⟩ := s.count_only b f h c n; rw [e]
@[simp] theorem State.count_asserted (s : State) (b : Nat) (f : Fld) (h : Half) (c n : Nat) : (s.count b f h c n).asserted = s.asserted := by
  obtain ⟨_, _, e⟩ := s.count_only b f h c n; rw [e]
@[simp] theorem State.count_draining (s : State) (b : Nat) (f : Fld) (h : Half) (c n : Nat) : (s.count b f h c n).draining = s.draining := by
  obtain ⟨_, _, e⟩ := s.count_only b f h c n; rw [e]
@[simp] theorem State.count_up (s : State) (b : Nat) (f : Fld) (h : Half) (c n : Nat) : (s.count b f h c n).up = s.up := by
  obtain ⟨_, _, e⟩ := s.count_only b f h c n; rw [e]
@[simp] theorem State.count_motorUp (s : State) (b : Nat) (f : Fld) (h : Half) (c n : Nat) : (s.count b f h c n).motorUp = s.motorUp := by
  obtain ⟨_, _, e⟩ := s.count_only b f h c n; rw [e]
@[simp] theorem State.count_rails (s : State) (b : Nat) (f : Fld) (h : Half) (c n : Nat) : (s.count b f h c n).rails = s.rails := by
  obtain ⟨_, _, e⟩ := s.count_only b f h c n; rw [e]
@[simp] theorem State.count_evQueue (s : State) (b : Nat) (f : Fld) (h : Half) (c n : Nat) : (s.count b f h c n).evQueue = s.evQueue := by
  obtain ⟨_, _, e⟩ := s.count_only b f h c n; rw [e]
@[simp] theorem State.count_lamps (s : State) (b : Nat) (f : Fld) (h : Half) (c n : Nat) : (s.count b f h c n).lamps = s.lamps := by
  obtain ⟨_, _, e⟩ := s.count_only b f h c n; rw [e]
@[simp] theorem State.count_lampHours (s : State) (b : Nat) (f : Fld) (h : Half) (c n : Nat) : (s.count b f h c n).lampHours = s.lampHours := by
  obtain ⟨_, _, e⟩ := s.count_only b f h c n; rw [e]
@[simp] theorem State.count_traces (s : State) (b : Nat) (f : Fld) (h : Half) (c n : Nat) : (s.count b f h c n).traces = s.traces := by
  obtain ⟨_, _, e⟩ := s.count_only b f h c n; rw [e]
@[simp] theorem State.count_traceOut (s : State) (b : Nat) (f : Fld) (h : Half) (c n : Nat) : (s.count b f h c n).traceOut = s.traceOut := by
  obtain ⟨_, _, e⟩ := s.count_only b f h c n; rw [e]
@[simp] theorem State.count_traceTurn (s : State) (b : Nat) (f : Fld) (h : Half) (c n : Nat) : (s.count b f h c n).traceTurn = s.traceTurn := by
  obtain ⟨_, _, e⟩ := s.count_only b f h c n; rw [e]
@[simp] theorem State.count_lastRead (s : State) (b : Nat) (f : Fld) (h : Half) (c n : Nat) : (s.count b f h c n).lastRead = s.lastRead := by
  obtain ⟨_, _, e⟩ := s.count_only b f h c n; rw [e]
@[simp] theorem State.count_mhalf (s : State) (b : Nat) (f : Fld) (h : Half) (c n : Nat) : (s.count b f h c n).mhalf = s.mhalf := by
  obtain ⟨_, _, e⟩ := s.count_only b f h c n; rw [e]
@[simp] theorem State.count_mcore (s : State) (b : Nat) (f : Fld) (h : Half) (c n : Nat) : (s.count b f h c n).mcore = s.mcore := by
  obtain ⟨_, _, e⟩ := s.count_only b f h c n; rw [e]
@[simp] theorem State.count_preamps (s : State) (b : Nat) (f : Fld) (h : Half) (c n : Nat) : (s.count b f h c n).preamps = s.preamps := by
  obtain ⟨_, _, e⟩ := s.count_only b f h c n; rw [e]
@[simp] theorem State.count_ports (s : State) (b : Nat) (f : Fld) (h : Half) (c n : Nat) : (s.count b f h c n).ports = s.ports := by
  obtain ⟨_, _, e⟩ := s.count_only b f h c n; rw [e]
@[simp] theorem State.count_wicks (s : State) (b : Nat) (f : Fld) (h : Half) (c n : Nat) : (s.count b f h c n).wicks = s.wicks := by
  obtain ⟨_, _, e⟩ := s.count_only b f h c n; rw [e]
@[simp] theorem State.count_rchs (s : State) (b : Nat) (f : Fld) (h : Half) (c n : Nat) : (s.count b f h c n).rchs = s.rchs := by
  obtain ⟨_, _, e⟩ := s.count_only b f h c n; rw [e]
@[simp] theorem State.count_fmts (s : State) (b : Nat) (f : Fld) (h : Half) (c n : Nat) : (s.count b f h c n).fmts = s.fmts := by
  obtain ⟨_, _, e⟩ := s.count_only b f h c n; rw [e]
@[simp] theorem State.count_srvs (s : State) (b : Nat) (f : Fld) (h : Half) (c n : Nat) : (s.count b f h c n).srvs = s.srvs := by
  obtain ⟨_, _, e⟩ := s.count_only b f h c n; rw [e]
@[simp] theorem State.count_spns (s : State) (b : Nat) (f : Fld) (h : Half) (c n : Nat) : (s.count b f h c n).spns = s.spns := by
  obtain ⟨_, _, e⟩ := s.count_only b f h c n; rw [e]
@[simp] theorem State.count_mot (s : State) (b : Nat) (f : Fld) (h : Half) (c n : Nat) : (s.count b f h c n).mot = s.mot := by
  obtain ⟨_, _, e⟩ := s.count_only b f h c n; rw [e]
@[simp] theorem State.count_opDone (s : State) (b : Nat) (f : Fld) (h : Half) (c n : Nat) : (s.count b f h c n).opDone = s.opDone := by
  obtain ⟨_, _, e⟩ := s.count_only b f h c n; rw [e]
@[simp] theorem State.count_staging (s : State) (b : Nat) (f : Fld) (h : Half) (c n : Nat) : (s.count b f h c n).staging = s.staging := by
  obtain ⟨_, _, e⟩ := s.count_only b f h c n; rw [e]
@[simp] theorem State.count_parity (s : State) (b : Nat) (f : Fld) (h : Half) (c n : Nat) : (s.count b f h c n).parity = s.parity := by
  obtain ⟨_, _, e⟩ := s.count_only b f h c n; rw [e]
@[simp] theorem State.count_segment (s : State) (b : Nat) (f : Fld) (h : Half) (c n : Nat) : (s.count b f h c n).segment = s.segment := by
  obtain ⟨_, _, e⟩ := s.count_only b f h c n; rw [e]
@[simp] theorem State.count_pinned (s : State) (b : Nat) (f : Fld) (h : Half) (c n : Nat) : (s.count b f h c n).pinned = s.pinned := by
  obtain ⟨_, _, e⟩ := s.count_only b f h c n; rw [e]
@[simp] theorem State.count_coreriEvents (s : State) (b : Nat) (f : Fld) (h : Half) (c n : Nat) : (s.count b f h c n).coreriEvents = s.coreriEvents := by
  obtain ⟨_, _, e⟩ := s.count_only b f h c n; rw [e]
@[simp] theorem State.count_dram (s : State) (b : Nat) (f : Fld) (h : Half) (c n : Nat) : (s.count b f h c n).dram = s.dram := by
  obtain ⟨_, _, e⟩ := s.count_only b f h c n; rw [e]
@[simp] theorem State.count_mergeBytes (s : State) (b : Nat) (f : Fld) (h : Half) (c n : Nat) : (s.count b f h c n).mergeBytes = s.mergeBytes := by
  obtain ⟨_, _, e⟩ := s.count_only b f h c n; rw [e]
@[simp] theorem State.count_cacheBytes (s : State) (b : Nat) (f : Fld) (h : Half) (c n : Nat) : (s.count b f h c n).cacheBytes = s.cacheBytes := by
  obtain ⟨_, _, e⟩ := s.count_only b f h c n; rw [e]
@[simp] theorem State.count_resvs (s : State) (b : Nat) (f : Fld) (h : Half) (c n : Nat) : (s.count b f h c n).resvs = s.resvs := by
  obtain ⟨_, _, e⟩ := s.count_only b f h c n; rw [e]
@[simp] theorem State.count_caches (s : State) (b : Nat) (f : Fld) (h : Half) (c n : Nat) : (s.count b f h c n).caches = s.caches := by
  obtain ⟨_, _, e⟩ := s.count_only b f h c n; rw [e]
@[simp] theorem State.count_poison (s : State) (b : Nat) (f : Fld) (h : Half) (c n : Nat) : (s.count b f h c n).poison = s.poison := by
  obtain ⟨_, _, e⟩ := s.count_only b f h c n; rw [e]
@[simp] theorem State.count_garbage (s : State) (b : Nat) (f : Fld) (h : Half) (c n : Nat) : (s.count b f h c n).garbage = s.garbage := by
  obtain ⟨_, _, e⟩ := s.count_only b f h c n; rw [e]
@[simp] theorem State.count_answers (s : State) (b : Nat) (f : Fld) (h : Half) (c n : Nat) : (s.count b f h c n).answers = s.answers := by
  obtain ⟨_, _, e⟩ := s.count_only b f h c n; rw [e]
@[simp] theorem State.count_waking (s : State) (b : Nat) (f : Fld) (h : Half) (c n : Nat) : (s.count b f h c n).waking = s.waking := by
  obtain ⟨_, _, e⟩ := s.count_only b f h c n; rw [e]
@[simp] theorem State.count_polOld (s : State) (b : Nat) (f : Fld) (h : Half) (c n : Nat) : (s.count b f h c n).polOld = s.polOld := by
  obtain ⟨_, _, e⟩ := s.count_only b f h c n; rw [e]
@[simp] theorem State.count_sdms (s : State) (b : Nat) (f : Fld) (h : Half) (c n : Nat) : (s.count b f h c n).sdms = s.sdms := by
  obtain ⟨_, _, e⟩ := s.count_only b f h c n; rw [e]
@[simp] theorem State.count_hostMem (s : State) (b : Nat) (f : Fld) (h : Half) (c n : Nat) : (s.count b f h c n).hostMem = s.hostMem := by
  obtain ⟨_, _, e⟩ := s.count_only b f h c n; rw [e]
@[simp] theorem State.count_msis (s : State) (b : Nat) (f : Fld) (h : Half) (c n : Nat) : (s.count b f h c n).msis = s.msis := by
  obtain ⟨_, _, e⟩ := s.count_only b f h c n; rw [e]
@[simp] theorem State.count_hifs (s : State) (b : Nat) (f : Fld) (h : Half) (c n : Nat) : (s.count b f h c n).hifs = s.hifs := by
  obtain ⟨_, _, e⟩ := s.count_only b f h c n; rw [e]
@[simp] theorem State.count_cmdSeq (s : State) (b : Nat) (f : Fld) (h : Half) (c n : Nat) : (s.count b f h c n).cmdSeq = s.cmdSeq := by
  obtain ⟨_, _, e⟩ := s.count_only b f h c n; rw [e]
@[simp] theorem State.count_buffered (s : State) (b : Nat) (f : Fld) (h : Half) (c n : Nat) : (s.count b f h c n).buffered = s.buffered := by
  obtain ⟨_, _, e⟩ := s.count_only b f h c n; rw [e]
@[simp] theorem State.count_trims (s : State) (b : Nat) (f : Fld) (h : Half) (c n : Nat) : (s.count b f h c n).trims = s.trims := by
  obtain ⟨_, _, e⟩ := s.count_only b f h c n; rw [e]
@[simp] theorem State.count_nsCaps (s : State) (b : Nat) (f : Fld) (h : Half) (c n : Nat) : (s.count b f h c n).nsCaps = s.nsCaps := by
  obtain ⟨_, _, e⟩ := s.count_only b f h c n; rw [e]
@[simp] theorem State.count_attached (s : State) (b : Nat) (f : Fld) (h : Half) (c n : Nat) : (s.count b f h c n).attached = s.attached := by
  obtain ⟨_, _, e⟩ := s.count_only b f h c n; rw [e]
@[simp] theorem State.count_segLru (s : State) (b : Nat) (f : Fld) (h : Half) (c n : Nat) : (s.count b f h c n).segLru = s.segLru := by
  obtain ⟨_, _, e⟩ := s.count_only b f h c n; rw [e]

@[simp] theorem State.mantleMsg_pending (s : State) (h : Half) (type inst kind hint : Nat) : (s.mantleMsg h type inst kind hint).pending = s.pending := by
  obtain ⟨_, e⟩ := s.mantleMsg_only h type inst kind hint; rw [e]
@[simp] theorem State.mantleMsg_free (s : State) (h : Half) (type inst kind hint : Nat) : (s.mantleMsg h type inst kind hint).free = s.free := by
  obtain ⟨_, e⟩ := s.mantleMsg_only h type inst kind hint; rw [e]
@[simp] theorem State.mantleMsg_ticks (s : State) (h : Half) (type inst kind hint : Nat) : (s.mantleMsg h type inst kind hint).ticks = s.ticks := by
  obtain ⟨_, e⟩ := s.mantleMsg_only h type inst kind hint; rw [e]
@[simp] theorem State.mantleMsg_regs (s : State) (h : Half) (type inst kind hint : Nat) : (s.mantleMsg h type inst kind hint).regs = s.regs := by
  obtain ⟨_, e⟩ := s.mantleMsg_only h type inst kind hint; rw [e]
@[simp] theorem State.mantleMsg_board (s : State) (h : Half) (type inst kind hint : Nat) : (s.mantleMsg h type inst kind hint).board = s.board := by
  obtain ⟨_, e⟩ := s.mantleMsg_only h type inst kind hint; rw [e]
@[simp] theorem State.mantleMsg_asserted (s : State) (h : Half) (type inst kind hint : Nat) : (s.mantleMsg h type inst kind hint).asserted = s.asserted := by
  obtain ⟨_, e⟩ := s.mantleMsg_only h type inst kind hint; rw [e]
@[simp] theorem State.mantleMsg_draining (s : State) (h : Half) (type inst kind hint : Nat) : (s.mantleMsg h type inst kind hint).draining = s.draining := by
  obtain ⟨_, e⟩ := s.mantleMsg_only h type inst kind hint; rw [e]
@[simp] theorem State.mantleMsg_up (s : State) (h : Half) (type inst kind hint : Nat) : (s.mantleMsg h type inst kind hint).up = s.up := by
  obtain ⟨_, e⟩ := s.mantleMsg_only h type inst kind hint; rw [e]
@[simp] theorem State.mantleMsg_motorUp (s : State) (h : Half) (type inst kind hint : Nat) : (s.mantleMsg h type inst kind hint).motorUp = s.motorUp := by
  obtain ⟨_, e⟩ := s.mantleMsg_only h type inst kind hint; rw [e]
@[simp] theorem State.mantleMsg_rails (s : State) (h : Half) (type inst kind hint : Nat) : (s.mantleMsg h type inst kind hint).rails = s.rails := by
  obtain ⟨_, e⟩ := s.mantleMsg_only h type inst kind hint; rw [e]
@[simp] theorem State.mantleMsg_evQueue (s : State) (h : Half) (type inst kind hint : Nat) : (s.mantleMsg h type inst kind hint).evQueue = s.evQueue := by
  obtain ⟨_, e⟩ := s.mantleMsg_only h type inst kind hint; rw [e]
@[simp] theorem State.mantleMsg_lamps (s : State) (h : Half) (type inst kind hint : Nat) : (s.mantleMsg h type inst kind hint).lamps = s.lamps := by
  obtain ⟨_, e⟩ := s.mantleMsg_only h type inst kind hint; rw [e]
@[simp] theorem State.mantleMsg_lampHours (s : State) (h : Half) (type inst kind hint : Nat) : (s.mantleMsg h type inst kind hint).lampHours = s.lampHours := by
  obtain ⟨_, e⟩ := s.mantleMsg_only h type inst kind hint; rw [e]
@[simp] theorem State.mantleMsg_traces (s : State) (h : Half) (type inst kind hint : Nat) : (s.mantleMsg h type inst kind hint).traces = s.traces := by
  obtain ⟨_, e⟩ := s.mantleMsg_only h type inst kind hint; rw [e]
@[simp] theorem State.mantleMsg_traceOut (s : State) (h : Half) (type inst kind hint : Nat) : (s.mantleMsg h type inst kind hint).traceOut = s.traceOut := by
  obtain ⟨_, e⟩ := s.mantleMsg_only h type inst kind hint; rw [e]
@[simp] theorem State.mantleMsg_traceTurn (s : State) (h : Half) (type inst kind hint : Nat) : (s.mantleMsg h type inst kind hint).traceTurn = s.traceTurn := by
  obtain ⟨_, e⟩ := s.mantleMsg_only h type inst kind hint; rw [e]
@[simp] theorem State.mantleMsg_lastRead (s : State) (h : Half) (type inst kind hint : Nat) : (s.mantleMsg h type inst kind hint).lastRead = s.lastRead := by
  obtain ⟨_, e⟩ := s.mantleMsg_only h type inst kind hint; rw [e]
@[simp] theorem State.mantleMsg_mhalf (s : State) (h : Half) (type inst kind hint : Nat) : (s.mantleMsg h type inst kind hint).mhalf = s.mhalf := by
  obtain ⟨_, e⟩ := s.mantleMsg_only h type inst kind hint; rw [e]
@[simp] theorem State.mantleMsg_mcore (s : State) (h : Half) (type inst kind hint : Nat) : (s.mantleMsg h type inst kind hint).mcore = s.mcore := by
  obtain ⟨_, e⟩ := s.mantleMsg_only h type inst kind hint; rw [e]
@[simp] theorem State.mantleMsg_preamps (s : State) (h : Half) (type inst kind hint : Nat) : (s.mantleMsg h type inst kind hint).preamps = s.preamps := by
  obtain ⟨_, e⟩ := s.mantleMsg_only h type inst kind hint; rw [e]
@[simp] theorem State.mantleMsg_ports (s : State) (h : Half) (type inst kind hint : Nat) : (s.mantleMsg h type inst kind hint).ports = s.ports := by
  obtain ⟨_, e⟩ := s.mantleMsg_only h type inst kind hint; rw [e]
@[simp] theorem State.mantleMsg_wicks (s : State) (h : Half) (type inst kind hint : Nat) : (s.mantleMsg h type inst kind hint).wicks = s.wicks := by
  obtain ⟨_, e⟩ := s.mantleMsg_only h type inst kind hint; rw [e]
@[simp] theorem State.mantleMsg_rchs (s : State) (h : Half) (type inst kind hint : Nat) : (s.mantleMsg h type inst kind hint).rchs = s.rchs := by
  obtain ⟨_, e⟩ := s.mantleMsg_only h type inst kind hint; rw [e]
@[simp] theorem State.mantleMsg_fmts (s : State) (h : Half) (type inst kind hint : Nat) : (s.mantleMsg h type inst kind hint).fmts = s.fmts := by
  obtain ⟨_, e⟩ := s.mantleMsg_only h type inst kind hint; rw [e]
@[simp] theorem State.mantleMsg_srvs (s : State) (h : Half) (type inst kind hint : Nat) : (s.mantleMsg h type inst kind hint).srvs = s.srvs := by
  obtain ⟨_, e⟩ := s.mantleMsg_only h type inst kind hint; rw [e]
@[simp] theorem State.mantleMsg_spns (s : State) (h : Half) (type inst kind hint : Nat) : (s.mantleMsg h type inst kind hint).spns = s.spns := by
  obtain ⟨_, e⟩ := s.mantleMsg_only h type inst kind hint; rw [e]
@[simp] theorem State.mantleMsg_mot (s : State) (h : Half) (type inst kind hint : Nat) : (s.mantleMsg h type inst kind hint).mot = s.mot := by
  obtain ⟨_, e⟩ := s.mantleMsg_only h type inst kind hint; rw [e]
@[simp] theorem State.mantleMsg_opDone (s : State) (h : Half) (type inst kind hint : Nat) : (s.mantleMsg h type inst kind hint).opDone = s.opDone := by
  obtain ⟨_, e⟩ := s.mantleMsg_only h type inst kind hint; rw [e]
@[simp] theorem State.mantleMsg_staging (s : State) (h : Half) (type inst kind hint : Nat) : (s.mantleMsg h type inst kind hint).staging = s.staging := by
  obtain ⟨_, e⟩ := s.mantleMsg_only h type inst kind hint; rw [e]
@[simp] theorem State.mantleMsg_parity (s : State) (h : Half) (type inst kind hint : Nat) : (s.mantleMsg h type inst kind hint).parity = s.parity := by
  obtain ⟨_, e⟩ := s.mantleMsg_only h type inst kind hint; rw [e]
@[simp] theorem State.mantleMsg_segment (s : State) (h : Half) (type inst kind hint : Nat) : (s.mantleMsg h type inst kind hint).segment = s.segment := by
  obtain ⟨_, e⟩ := s.mantleMsg_only h type inst kind hint; rw [e]
@[simp] theorem State.mantleMsg_pinned (s : State) (h : Half) (type inst kind hint : Nat) : (s.mantleMsg h type inst kind hint).pinned = s.pinned := by
  obtain ⟨_, e⟩ := s.mantleMsg_only h type inst kind hint; rw [e]
@[simp] theorem State.mantleMsg_coreriEvents (s : State) (h : Half) (type inst kind hint : Nat) : (s.mantleMsg h type inst kind hint).coreriEvents = s.coreriEvents := by
  obtain ⟨_, e⟩ := s.mantleMsg_only h type inst kind hint; rw [e]
@[simp] theorem State.mantleMsg_dram (s : State) (h : Half) (type inst kind hint : Nat) : (s.mantleMsg h type inst kind hint).dram = s.dram := by
  obtain ⟨_, e⟩ := s.mantleMsg_only h type inst kind hint; rw [e]
@[simp] theorem State.mantleMsg_mergeBytes (s : State) (h : Half) (type inst kind hint : Nat) : (s.mantleMsg h type inst kind hint).mergeBytes = s.mergeBytes := by
  obtain ⟨_, e⟩ := s.mantleMsg_only h type inst kind hint; rw [e]
@[simp] theorem State.mantleMsg_cacheBytes (s : State) (h : Half) (type inst kind hint : Nat) : (s.mantleMsg h type inst kind hint).cacheBytes = s.cacheBytes := by
  obtain ⟨_, e⟩ := s.mantleMsg_only h type inst kind hint; rw [e]
@[simp] theorem State.mantleMsg_resvs (s : State) (h : Half) (type inst kind hint : Nat) : (s.mantleMsg h type inst kind hint).resvs = s.resvs := by
  obtain ⟨_, e⟩ := s.mantleMsg_only h type inst kind hint; rw [e]
@[simp] theorem State.mantleMsg_caches (s : State) (h : Half) (type inst kind hint : Nat) : (s.mantleMsg h type inst kind hint).caches = s.caches := by
  obtain ⟨_, e⟩ := s.mantleMsg_only h type inst kind hint; rw [e]
@[simp] theorem State.mantleMsg_poison (s : State) (h : Half) (type inst kind hint : Nat) : (s.mantleMsg h type inst kind hint).poison = s.poison := by
  obtain ⟨_, e⟩ := s.mantleMsg_only h type inst kind hint; rw [e]
@[simp] theorem State.mantleMsg_garbage (s : State) (h : Half) (type inst kind hint : Nat) : (s.mantleMsg h type inst kind hint).garbage = s.garbage := by
  obtain ⟨_, e⟩ := s.mantleMsg_only h type inst kind hint; rw [e]
@[simp] theorem State.mantleMsg_answers (s : State) (h : Half) (type inst kind hint : Nat) : (s.mantleMsg h type inst kind hint).answers = s.answers := by
  obtain ⟨_, e⟩ := s.mantleMsg_only h type inst kind hint; rw [e]
@[simp] theorem State.mantleMsg_waking (s : State) (h : Half) (type inst kind hint : Nat) : (s.mantleMsg h type inst kind hint).waking = s.waking := by
  obtain ⟨_, e⟩ := s.mantleMsg_only h type inst kind hint; rw [e]
@[simp] theorem State.mantleMsg_polOld (s : State) (h : Half) (type inst kind hint : Nat) : (s.mantleMsg h type inst kind hint).polOld = s.polOld := by
  obtain ⟨_, e⟩ := s.mantleMsg_only h type inst kind hint; rw [e]
@[simp] theorem State.mantleMsg_sdms (s : State) (h : Half) (type inst kind hint : Nat) : (s.mantleMsg h type inst kind hint).sdms = s.sdms := by
  obtain ⟨_, e⟩ := s.mantleMsg_only h type inst kind hint; rw [e]
@[simp] theorem State.mantleMsg_hostMem (s : State) (h : Half) (type inst kind hint : Nat) : (s.mantleMsg h type inst kind hint).hostMem = s.hostMem := by
  obtain ⟨_, e⟩ := s.mantleMsg_only h type inst kind hint; rw [e]
@[simp] theorem State.mantleMsg_msis (s : State) (h : Half) (type inst kind hint : Nat) : (s.mantleMsg h type inst kind hint).msis = s.msis := by
  obtain ⟨_, e⟩ := s.mantleMsg_only h type inst kind hint; rw [e]
@[simp] theorem State.mantleMsg_hifs (s : State) (h : Half) (type inst kind hint : Nat) : (s.mantleMsg h type inst kind hint).hifs = s.hifs := by
  obtain ⟨_, e⟩ := s.mantleMsg_only h type inst kind hint; rw [e]
@[simp] theorem State.mantleMsg_cmdSeq (s : State) (h : Half) (type inst kind hint : Nat) : (s.mantleMsg h type inst kind hint).cmdSeq = s.cmdSeq := by
  obtain ⟨_, e⟩ := s.mantleMsg_only h type inst kind hint; rw [e]
@[simp] theorem State.mantleMsg_buffered (s : State) (h : Half) (type inst kind hint : Nat) : (s.mantleMsg h type inst kind hint).buffered = s.buffered := by
  obtain ⟨_, e⟩ := s.mantleMsg_only h type inst kind hint; rw [e]
@[simp] theorem State.mantleMsg_trims (s : State) (h : Half) (type inst kind hint : Nat) : (s.mantleMsg h type inst kind hint).trims = s.trims := by
  obtain ⟨_, e⟩ := s.mantleMsg_only h type inst kind hint; rw [e]
@[simp] theorem State.mantleMsg_nsCaps (s : State) (h : Half) (type inst kind hint : Nat) : (s.mantleMsg h type inst kind hint).nsCaps = s.nsCaps := by
  obtain ⟨_, e⟩ := s.mantleMsg_only h type inst kind hint; rw [e]
@[simp] theorem State.mantleMsg_attached (s : State) (h : Half) (type inst kind hint : Nat) : (s.mantleMsg h type inst kind hint).attached = s.attached := by
  obtain ⟨_, e⟩ := s.mantleMsg_only h type inst kind hint; rw [e]
@[simp] theorem State.mantleMsg_segLru (s : State) (h : Half) (type inst kind hint : Nat) : (s.mantleMsg h type inst kind hint).segLru = s.segLru := by
  obtain ⟨_, e⟩ := s.mantleMsg_only h type inst kind hint; rw [e]

@[simp] theorem State.event_pending (s : State) (code p0 p1 p2 : Nat) : (s.event code p0 p1 p2).pending = s.pending := by
  obtain ⟨_, _, e⟩ := s.event_only code p0 p1 p2; rw [e]
@[simp] theorem State.event_free (s : State) (code p0 p1 p2 : Nat) : (s.event code p0 p1 p2).free = s.free := by
  obtain ⟨_, _, e⟩ := s.event_only code p0 p1 p2; rw [e]
@[simp] theorem State.event_ticks (s : State) (code p0 p1 p2 : Nat) : (s.event code p0 p1 p2).ticks = s.ticks := by
  obtain ⟨_, _, e⟩ := s.event_only code p0 p1 p2; rw [e]
@[simp] theorem State.event_board (s : State) (code p0 p1 p2 : Nat) : (s.event code p0 p1 p2).board = s.board := by
  obtain ⟨_, _, e⟩ := s.event_only code p0 p1 p2; rw [e]
@[simp] theorem State.event_asserted (s : State) (code p0 p1 p2 : Nat) : (s.event code p0 p1 p2).asserted = s.asserted := by
  obtain ⟨_, _, e⟩ := s.event_only code p0 p1 p2; rw [e]
@[simp] theorem State.event_draining (s : State) (code p0 p1 p2 : Nat) : (s.event code p0 p1 p2).draining = s.draining := by
  obtain ⟨_, _, e⟩ := s.event_only code p0 p1 p2; rw [e]
@[simp] theorem State.event_up (s : State) (code p0 p1 p2 : Nat) : (s.event code p0 p1 p2).up = s.up := by
  obtain ⟨_, _, e⟩ := s.event_only code p0 p1 p2; rw [e]
@[simp] theorem State.event_motorUp (s : State) (code p0 p1 p2 : Nat) : (s.event code p0 p1 p2).motorUp = s.motorUp := by
  obtain ⟨_, _, e⟩ := s.event_only code p0 p1 p2; rw [e]
@[simp] theorem State.event_rails (s : State) (code p0 p1 p2 : Nat) : (s.event code p0 p1 p2).rails = s.rails := by
  obtain ⟨_, _, e⟩ := s.event_only code p0 p1 p2; rw [e]
@[simp] theorem State.event_collectors (s : State) (code p0 p1 p2 : Nat) : (s.event code p0 p1 p2).collectors = s.collectors := by
  obtain ⟨_, _, e⟩ := s.event_only code p0 p1 p2; rw [e]
@[simp] theorem State.event_lamps (s : State) (code p0 p1 p2 : Nat) : (s.event code p0 p1 p2).lamps = s.lamps := by
  obtain ⟨_, _, e⟩ := s.event_only code p0 p1 p2; rw [e]
@[simp] theorem State.event_lampHours (s : State) (code p0 p1 p2 : Nat) : (s.event code p0 p1 p2).lampHours = s.lampHours := by
  obtain ⟨_, _, e⟩ := s.event_only code p0 p1 p2; rw [e]
@[simp] theorem State.event_traces (s : State) (code p0 p1 p2 : Nat) : (s.event code p0 p1 p2).traces = s.traces := by
  obtain ⟨_, _, e⟩ := s.event_only code p0 p1 p2; rw [e]
@[simp] theorem State.event_traceOut (s : State) (code p0 p1 p2 : Nat) : (s.event code p0 p1 p2).traceOut = s.traceOut := by
  obtain ⟨_, _, e⟩ := s.event_only code p0 p1 p2; rw [e]
@[simp] theorem State.event_traceTurn (s : State) (code p0 p1 p2 : Nat) : (s.event code p0 p1 p2).traceTurn = s.traceTurn := by
  obtain ⟨_, _, e⟩ := s.event_only code p0 p1 p2; rw [e]
@[simp] theorem State.event_lastRead (s : State) (code p0 p1 p2 : Nat) : (s.event code p0 p1 p2).lastRead = s.lastRead := by
  obtain ⟨_, _, e⟩ := s.event_only code p0 p1 p2; rw [e]
@[simp] theorem State.event_mhalf (s : State) (code p0 p1 p2 : Nat) : (s.event code p0 p1 p2).mhalf = s.mhalf := by
  obtain ⟨_, _, e⟩ := s.event_only code p0 p1 p2; rw [e]
@[simp] theorem State.event_mcore (s : State) (code p0 p1 p2 : Nat) : (s.event code p0 p1 p2).mcore = s.mcore := by
  obtain ⟨_, _, e⟩ := s.event_only code p0 p1 p2; rw [e]
@[simp] theorem State.event_preamps (s : State) (code p0 p1 p2 : Nat) : (s.event code p0 p1 p2).preamps = s.preamps := by
  obtain ⟨_, _, e⟩ := s.event_only code p0 p1 p2; rw [e]
@[simp] theorem State.event_ports (s : State) (code p0 p1 p2 : Nat) : (s.event code p0 p1 p2).ports = s.ports := by
  obtain ⟨_, _, e⟩ := s.event_only code p0 p1 p2; rw [e]
@[simp] theorem State.event_wicks (s : State) (code p0 p1 p2 : Nat) : (s.event code p0 p1 p2).wicks = s.wicks := by
  obtain ⟨_, _, e⟩ := s.event_only code p0 p1 p2; rw [e]
@[simp] theorem State.event_rchs (s : State) (code p0 p1 p2 : Nat) : (s.event code p0 p1 p2).rchs = s.rchs := by
  obtain ⟨_, _, e⟩ := s.event_only code p0 p1 p2; rw [e]
@[simp] theorem State.event_fmts (s : State) (code p0 p1 p2 : Nat) : (s.event code p0 p1 p2).fmts = s.fmts := by
  obtain ⟨_, _, e⟩ := s.event_only code p0 p1 p2; rw [e]
@[simp] theorem State.event_srvs (s : State) (code p0 p1 p2 : Nat) : (s.event code p0 p1 p2).srvs = s.srvs := by
  obtain ⟨_, _, e⟩ := s.event_only code p0 p1 p2; rw [e]
@[simp] theorem State.event_spns (s : State) (code p0 p1 p2 : Nat) : (s.event code p0 p1 p2).spns = s.spns := by
  obtain ⟨_, _, e⟩ := s.event_only code p0 p1 p2; rw [e]
@[simp] theorem State.event_mot (s : State) (code p0 p1 p2 : Nat) : (s.event code p0 p1 p2).mot = s.mot := by
  obtain ⟨_, _, e⟩ := s.event_only code p0 p1 p2; rw [e]
@[simp] theorem State.event_opDone (s : State) (code p0 p1 p2 : Nat) : (s.event code p0 p1 p2).opDone = s.opDone := by
  obtain ⟨_, _, e⟩ := s.event_only code p0 p1 p2; rw [e]
@[simp] theorem State.event_staging (s : State) (code p0 p1 p2 : Nat) : (s.event code p0 p1 p2).staging = s.staging := by
  obtain ⟨_, _, e⟩ := s.event_only code p0 p1 p2; rw [e]
@[simp] theorem State.event_parity (s : State) (code p0 p1 p2 : Nat) : (s.event code p0 p1 p2).parity = s.parity := by
  obtain ⟨_, _, e⟩ := s.event_only code p0 p1 p2; rw [e]
@[simp] theorem State.event_segment (s : State) (code p0 p1 p2 : Nat) : (s.event code p0 p1 p2).segment = s.segment := by
  obtain ⟨_, _, e⟩ := s.event_only code p0 p1 p2; rw [e]
@[simp] theorem State.event_pinned (s : State) (code p0 p1 p2 : Nat) : (s.event code p0 p1 p2).pinned = s.pinned := by
  obtain ⟨_, _, e⟩ := s.event_only code p0 p1 p2; rw [e]
@[simp] theorem State.event_coreriEvents (s : State) (code p0 p1 p2 : Nat) : (s.event code p0 p1 p2).coreriEvents = s.coreriEvents := by
  obtain ⟨_, _, e⟩ := s.event_only code p0 p1 p2; rw [e]
@[simp] theorem State.event_dram (s : State) (code p0 p1 p2 : Nat) : (s.event code p0 p1 p2).dram = s.dram := by
  obtain ⟨_, _, e⟩ := s.event_only code p0 p1 p2; rw [e]
@[simp] theorem State.event_mergeBytes (s : State) (code p0 p1 p2 : Nat) : (s.event code p0 p1 p2).mergeBytes = s.mergeBytes := by
  obtain ⟨_, _, e⟩ := s.event_only code p0 p1 p2; rw [e]
@[simp] theorem State.event_cacheBytes (s : State) (code p0 p1 p2 : Nat) : (s.event code p0 p1 p2).cacheBytes = s.cacheBytes := by
  obtain ⟨_, _, e⟩ := s.event_only code p0 p1 p2; rw [e]
@[simp] theorem State.event_resvs (s : State) (code p0 p1 p2 : Nat) : (s.event code p0 p1 p2).resvs = s.resvs := by
  obtain ⟨_, _, e⟩ := s.event_only code p0 p1 p2; rw [e]
@[simp] theorem State.event_caches (s : State) (code p0 p1 p2 : Nat) : (s.event code p0 p1 p2).caches = s.caches := by
  obtain ⟨_, _, e⟩ := s.event_only code p0 p1 p2; rw [e]
@[simp] theorem State.event_poison (s : State) (code p0 p1 p2 : Nat) : (s.event code p0 p1 p2).poison = s.poison := by
  obtain ⟨_, _, e⟩ := s.event_only code p0 p1 p2; rw [e]
@[simp] theorem State.event_garbage (s : State) (code p0 p1 p2 : Nat) : (s.event code p0 p1 p2).garbage = s.garbage := by
  obtain ⟨_, _, e⟩ := s.event_only code p0 p1 p2; rw [e]
@[simp] theorem State.event_answers (s : State) (code p0 p1 p2 : Nat) : (s.event code p0 p1 p2).answers = s.answers := by
  obtain ⟨_, _, e⟩ := s.event_only code p0 p1 p2; rw [e]
@[simp] theorem State.event_waking (s : State) (code p0 p1 p2 : Nat) : (s.event code p0 p1 p2).waking = s.waking := by
  obtain ⟨_, _, e⟩ := s.event_only code p0 p1 p2; rw [e]
@[simp] theorem State.event_polOld (s : State) (code p0 p1 p2 : Nat) : (s.event code p0 p1 p2).polOld = s.polOld := by
  obtain ⟨_, _, e⟩ := s.event_only code p0 p1 p2; rw [e]
@[simp] theorem State.event_sdms (s : State) (code p0 p1 p2 : Nat) : (s.event code p0 p1 p2).sdms = s.sdms := by
  obtain ⟨_, _, e⟩ := s.event_only code p0 p1 p2; rw [e]
@[simp] theorem State.event_hostMem (s : State) (code p0 p1 p2 : Nat) : (s.event code p0 p1 p2).hostMem = s.hostMem := by
  obtain ⟨_, _, e⟩ := s.event_only code p0 p1 p2; rw [e]
@[simp] theorem State.event_msis (s : State) (code p0 p1 p2 : Nat) : (s.event code p0 p1 p2).msis = s.msis := by
  obtain ⟨_, _, e⟩ := s.event_only code p0 p1 p2; rw [e]
@[simp] theorem State.event_hifs (s : State) (code p0 p1 p2 : Nat) : (s.event code p0 p1 p2).hifs = s.hifs := by
  obtain ⟨_, _, e⟩ := s.event_only code p0 p1 p2; rw [e]
@[simp] theorem State.event_cmdSeq (s : State) (code p0 p1 p2 : Nat) : (s.event code p0 p1 p2).cmdSeq = s.cmdSeq := by
  obtain ⟨_, _, e⟩ := s.event_only code p0 p1 p2; rw [e]
@[simp] theorem State.event_buffered (s : State) (code p0 p1 p2 : Nat) : (s.event code p0 p1 p2).buffered = s.buffered := by
  obtain ⟨_, _, e⟩ := s.event_only code p0 p1 p2; rw [e]
@[simp] theorem State.event_trims (s : State) (code p0 p1 p2 : Nat) : (s.event code p0 p1 p2).trims = s.trims := by
  obtain ⟨_, _, e⟩ := s.event_only code p0 p1 p2; rw [e]
@[simp] theorem State.event_nsCaps (s : State) (code p0 p1 p2 : Nat) : (s.event code p0 p1 p2).nsCaps = s.nsCaps := by
  obtain ⟨_, _, e⟩ := s.event_only code p0 p1 p2; rw [e]
@[simp] theorem State.event_attached (s : State) (code p0 p1 p2 : Nat) : (s.event code p0 p1 p2).attached = s.attached := by
  obtain ⟨_, _, e⟩ := s.event_only code p0 p1 p2; rw [e]
@[simp] theorem State.event_segLru (s : State) (code p0 p1 p2 : Nat) : (s.event code p0 p1 p2).segLru = s.segLru := by
  obtain ⟨_, _, e⟩ := s.event_only code p0 p1 p2; rw [e]

@[simp] theorem State.trace_pending (s : State) (h : Half) (type index : Nat) (body : List Byte) : (s.trace h type index body).pending = s.pending := by
  obtain ⟨_, _, _, e⟩ := s.trace_only h type index body; rw [e]
@[simp] theorem State.trace_ticks (s : State) (h : Half) (type index : Nat) (body : List Byte) : (s.trace h type index body).ticks = s.ticks := by
  obtain ⟨_, _, _, e⟩ := s.trace_only h type index body; rw [e]
@[simp] theorem State.trace_board (s : State) (h : Half) (type index : Nat) (body : List Byte) : (s.trace h type index body).board = s.board := by
  obtain ⟨_, _, _, e⟩ := s.trace_only h type index body; rw [e]
@[simp] theorem State.trace_asserted (s : State) (h : Half) (type index : Nat) (body : List Byte) : (s.trace h type index body).asserted = s.asserted := by
  obtain ⟨_, _, _, e⟩ := s.trace_only h type index body; rw [e]
@[simp] theorem State.trace_draining (s : State) (h : Half) (type index : Nat) (body : List Byte) : (s.trace h type index body).draining = s.draining := by
  obtain ⟨_, _, _, e⟩ := s.trace_only h type index body; rw [e]
@[simp] theorem State.trace_up (s : State) (h : Half) (type index : Nat) (body : List Byte) : (s.trace h type index body).up = s.up := by
  obtain ⟨_, _, _, e⟩ := s.trace_only h type index body; rw [e]
@[simp] theorem State.trace_motorUp (s : State) (h : Half) (type index : Nat) (body : List Byte) : (s.trace h type index body).motorUp = s.motorUp := by
  obtain ⟨_, _, _, e⟩ := s.trace_only h type index body; rw [e]
@[simp] theorem State.trace_rails (s : State) (h : Half) (type index : Nat) (body : List Byte) : (s.trace h type index body).rails = s.rails := by
  obtain ⟨_, _, _, e⟩ := s.trace_only h type index body; rw [e]
@[simp] theorem State.trace_collectors (s : State) (h : Half) (type index : Nat) (body : List Byte) : (s.trace h type index body).collectors = s.collectors := by
  obtain ⟨_, _, _, e⟩ := s.trace_only h type index body; rw [e]
@[simp] theorem State.trace_evQueue (s : State) (h : Half) (type index : Nat) (body : List Byte) : (s.trace h type index body).evQueue = s.evQueue := by
  obtain ⟨_, _, _, e⟩ := s.trace_only h type index body; rw [e]
@[simp] theorem State.trace_lamps (s : State) (h : Half) (type index : Nat) (body : List Byte) : (s.trace h type index body).lamps = s.lamps := by
  obtain ⟨_, _, _, e⟩ := s.trace_only h type index body; rw [e]
@[simp] theorem State.trace_lampHours (s : State) (h : Half) (type index : Nat) (body : List Byte) : (s.trace h type index body).lampHours = s.lampHours := by
  obtain ⟨_, _, _, e⟩ := s.trace_only h type index body; rw [e]
@[simp] theorem State.trace_traceOut (s : State) (h : Half) (type index : Nat) (body : List Byte) : (s.trace h type index body).traceOut = s.traceOut := by
  obtain ⟨_, _, _, e⟩ := s.trace_only h type index body; rw [e]
@[simp] theorem State.trace_traceTurn (s : State) (h : Half) (type index : Nat) (body : List Byte) : (s.trace h type index body).traceTurn = s.traceTurn := by
  obtain ⟨_, _, _, e⟩ := s.trace_only h type index body; rw [e]
@[simp] theorem State.trace_lastRead (s : State) (h : Half) (type index : Nat) (body : List Byte) : (s.trace h type index body).lastRead = s.lastRead := by
  obtain ⟨_, _, _, e⟩ := s.trace_only h type index body; rw [e]
@[simp] theorem State.trace_mhalf (s : State) (h : Half) (type index : Nat) (body : List Byte) : (s.trace h type index body).mhalf = s.mhalf := by
  obtain ⟨_, _, _, e⟩ := s.trace_only h type index body; rw [e]
@[simp] theorem State.trace_mcore (s : State) (h : Half) (type index : Nat) (body : List Byte) : (s.trace h type index body).mcore = s.mcore := by
  obtain ⟨_, _, _, e⟩ := s.trace_only h type index body; rw [e]
@[simp] theorem State.trace_preamps (s : State) (h : Half) (type index : Nat) (body : List Byte) : (s.trace h type index body).preamps = s.preamps := by
  obtain ⟨_, _, _, e⟩ := s.trace_only h type index body; rw [e]
@[simp] theorem State.trace_ports (s : State) (h : Half) (type index : Nat) (body : List Byte) : (s.trace h type index body).ports = s.ports := by
  obtain ⟨_, _, _, e⟩ := s.trace_only h type index body; rw [e]
@[simp] theorem State.trace_wicks (s : State) (h : Half) (type index : Nat) (body : List Byte) : (s.trace h type index body).wicks = s.wicks := by
  obtain ⟨_, _, _, e⟩ := s.trace_only h type index body; rw [e]
@[simp] theorem State.trace_rchs (s : State) (h : Half) (type index : Nat) (body : List Byte) : (s.trace h type index body).rchs = s.rchs := by
  obtain ⟨_, _, _, e⟩ := s.trace_only h type index body; rw [e]
@[simp] theorem State.trace_fmts (s : State) (h : Half) (type index : Nat) (body : List Byte) : (s.trace h type index body).fmts = s.fmts := by
  obtain ⟨_, _, _, e⟩ := s.trace_only h type index body; rw [e]
@[simp] theorem State.trace_srvs (s : State) (h : Half) (type index : Nat) (body : List Byte) : (s.trace h type index body).srvs = s.srvs := by
  obtain ⟨_, _, _, e⟩ := s.trace_only h type index body; rw [e]
@[simp] theorem State.trace_spns (s : State) (h : Half) (type index : Nat) (body : List Byte) : (s.trace h type index body).spns = s.spns := by
  obtain ⟨_, _, _, e⟩ := s.trace_only h type index body; rw [e]
@[simp] theorem State.trace_mot (s : State) (h : Half) (type index : Nat) (body : List Byte) : (s.trace h type index body).mot = s.mot := by
  obtain ⟨_, _, _, e⟩ := s.trace_only h type index body; rw [e]
@[simp] theorem State.trace_opDone (s : State) (h : Half) (type index : Nat) (body : List Byte) : (s.trace h type index body).opDone = s.opDone := by
  obtain ⟨_, _, _, e⟩ := s.trace_only h type index body; rw [e]
@[simp] theorem State.trace_staging (s : State) (h : Half) (type index : Nat) (body : List Byte) : (s.trace h type index body).staging = s.staging := by
  obtain ⟨_, _, _, e⟩ := s.trace_only h type index body; rw [e]
@[simp] theorem State.trace_parity (s : State) (h : Half) (type index : Nat) (body : List Byte) : (s.trace h type index body).parity = s.parity := by
  obtain ⟨_, _, _, e⟩ := s.trace_only h type index body; rw [e]
@[simp] theorem State.trace_segment (s : State) (h : Half) (type index : Nat) (body : List Byte) : (s.trace h type index body).segment = s.segment := by
  obtain ⟨_, _, _, e⟩ := s.trace_only h type index body; rw [e]
@[simp] theorem State.trace_pinned (s : State) (h : Half) (type index : Nat) (body : List Byte) : (s.trace h type index body).pinned = s.pinned := by
  obtain ⟨_, _, _, e⟩ := s.trace_only h type index body; rw [e]
@[simp] theorem State.trace_coreriEvents (s : State) (h : Half) (type index : Nat) (body : List Byte) : (s.trace h type index body).coreriEvents = s.coreriEvents := by
  obtain ⟨_, _, _, e⟩ := s.trace_only h type index body; rw [e]
@[simp] theorem State.trace_dram (s : State) (h : Half) (type index : Nat) (body : List Byte) : (s.trace h type index body).dram = s.dram := by
  obtain ⟨_, _, _, e⟩ := s.trace_only h type index body; rw [e]
@[simp] theorem State.trace_mergeBytes (s : State) (h : Half) (type index : Nat) (body : List Byte) : (s.trace h type index body).mergeBytes = s.mergeBytes := by
  obtain ⟨_, _, _, e⟩ := s.trace_only h type index body; rw [e]
@[simp] theorem State.trace_cacheBytes (s : State) (h : Half) (type index : Nat) (body : List Byte) : (s.trace h type index body).cacheBytes = s.cacheBytes := by
  obtain ⟨_, _, _, e⟩ := s.trace_only h type index body; rw [e]
@[simp] theorem State.trace_resvs (s : State) (h : Half) (type index : Nat) (body : List Byte) : (s.trace h type index body).resvs = s.resvs := by
  obtain ⟨_, _, _, e⟩ := s.trace_only h type index body; rw [e]
@[simp] theorem State.trace_caches (s : State) (h : Half) (type index : Nat) (body : List Byte) : (s.trace h type index body).caches = s.caches := by
  obtain ⟨_, _, _, e⟩ := s.trace_only h type index body; rw [e]
@[simp] theorem State.trace_poison (s : State) (h : Half) (type index : Nat) (body : List Byte) : (s.trace h type index body).poison = s.poison := by
  obtain ⟨_, _, _, e⟩ := s.trace_only h type index body; rw [e]
@[simp] theorem State.trace_garbage (s : State) (h : Half) (type index : Nat) (body : List Byte) : (s.trace h type index body).garbage = s.garbage := by
  obtain ⟨_, _, _, e⟩ := s.trace_only h type index body; rw [e]
@[simp] theorem State.trace_answers (s : State) (h : Half) (type index : Nat) (body : List Byte) : (s.trace h type index body).answers = s.answers := by
  obtain ⟨_, _, _, e⟩ := s.trace_only h type index body; rw [e]
@[simp] theorem State.trace_waking (s : State) (h : Half) (type index : Nat) (body : List Byte) : (s.trace h type index body).waking = s.waking := by
  obtain ⟨_, _, _, e⟩ := s.trace_only h type index body; rw [e]
@[simp] theorem State.trace_polOld (s : State) (h : Half) (type index : Nat) (body : List Byte) : (s.trace h type index body).polOld = s.polOld := by
  obtain ⟨_, _, _, e⟩ := s.trace_only h type index body; rw [e]
@[simp] theorem State.trace_sdms (s : State) (h : Half) (type index : Nat) (body : List Byte) : (s.trace h type index body).sdms = s.sdms := by
  obtain ⟨_, _, _, e⟩ := s.trace_only h type index body; rw [e]
@[simp] theorem State.trace_hostMem (s : State) (h : Half) (type index : Nat) (body : List Byte) : (s.trace h type index body).hostMem = s.hostMem := by
  obtain ⟨_, _, _, e⟩ := s.trace_only h type index body; rw [e]
@[simp] theorem State.trace_msis (s : State) (h : Half) (type index : Nat) (body : List Byte) : (s.trace h type index body).msis = s.msis := by
  obtain ⟨_, _, _, e⟩ := s.trace_only h type index body; rw [e]
@[simp] theorem State.trace_hifs (s : State) (h : Half) (type index : Nat) (body : List Byte) : (s.trace h type index body).hifs = s.hifs := by
  obtain ⟨_, _, _, e⟩ := s.trace_only h type index body; rw [e]
@[simp] theorem State.trace_cmdSeq (s : State) (h : Half) (type index : Nat) (body : List Byte) : (s.trace h type index body).cmdSeq = s.cmdSeq := by
  obtain ⟨_, _, _, e⟩ := s.trace_only h type index body; rw [e]
@[simp] theorem State.trace_buffered (s : State) (h : Half) (type index : Nat) (body : List Byte) : (s.trace h type index body).buffered = s.buffered := by
  obtain ⟨_, _, _, e⟩ := s.trace_only h type index body; rw [e]
@[simp] theorem State.trace_trims (s : State) (h : Half) (type index : Nat) (body : List Byte) : (s.trace h type index body).trims = s.trims := by
  obtain ⟨_, _, _, e⟩ := s.trace_only h type index body; rw [e]
@[simp] theorem State.trace_nsCaps (s : State) (h : Half) (type index : Nat) (body : List Byte) : (s.trace h type index body).nsCaps = s.nsCaps := by
  obtain ⟨_, _, _, e⟩ := s.trace_only h type index body; rw [e]
@[simp] theorem State.trace_attached (s : State) (h : Half) (type index : Nat) (body : List Byte) : (s.trace h type index body).attached = s.attached := by
  obtain ⟨_, _, _, e⟩ := s.trace_only h type index body; rw [e]
@[simp] theorem State.trace_segLru (s : State) (h : Half) (type index : Nat) (body : List Byte) : (s.trace h type index body).segLru = s.segLru := by
  obtain ⟨_, _, _, e⟩ := s.trace_only h type index body; rw [e]

@[simp] theorem State.demand_pending (s : State) (h : Half) (d : Nat) : (s.demand h d).pending = s.pending := by
  obtain ⟨_, _, _, e⟩ := s.demand_only h d; rw [e]
@[simp] theorem State.demand_free (s : State) (h : Half) (d : Nat) : (s.demand h d).free = s.free := by
  obtain ⟨_, _, _, e⟩ := s.demand_only h d; rw [e]
@[simp] theorem State.demand_ticks (s : State) (h : Half) (d : Nat) : (s.demand h d).ticks = s.ticks := by
  obtain ⟨_, _, _, e⟩ := s.demand_only h d; rw [e]
@[simp] theorem State.demand_board (s : State) (h : Half) (d : Nat) : (s.demand h d).board = s.board := by
  obtain ⟨_, _, _, e⟩ := s.demand_only h d; rw [e]
@[simp] theorem State.demand_asserted (s : State) (h : Half) (d : Nat) : (s.demand h d).asserted = s.asserted := by
  obtain ⟨_, _, _, e⟩ := s.demand_only h d; rw [e]
@[simp] theorem State.demand_draining (s : State) (h : Half) (d : Nat) : (s.demand h d).draining = s.draining := by
  obtain ⟨_, _, _, e⟩ := s.demand_only h d; rw [e]
@[simp] theorem State.demand_up (s : State) (h : Half) (d : Nat) : (s.demand h d).up = s.up := by
  obtain ⟨_, _, _, e⟩ := s.demand_only h d; rw [e]
@[simp] theorem State.demand_motorUp (s : State) (h : Half) (d : Nat) : (s.demand h d).motorUp = s.motorUp := by
  obtain ⟨_, _, _, e⟩ := s.demand_only h d; rw [e]
@[simp] theorem State.demand_rails (s : State) (h : Half) (d : Nat) : (s.demand h d).rails = s.rails := by
  obtain ⟨_, _, _, e⟩ := s.demand_only h d; rw [e]
@[simp] theorem State.demand_evQueue (s : State) (h : Half) (d : Nat) : (s.demand h d).evQueue = s.evQueue := by
  obtain ⟨_, _, _, e⟩ := s.demand_only h d; rw [e]
@[simp] theorem State.demand_lamps (s : State) (h : Half) (d : Nat) : (s.demand h d).lamps = s.lamps := by
  obtain ⟨_, _, _, e⟩ := s.demand_only h d; rw [e]
@[simp] theorem State.demand_lampHours (s : State) (h : Half) (d : Nat) : (s.demand h d).lampHours = s.lampHours := by
  obtain ⟨_, _, _, e⟩ := s.demand_only h d; rw [e]
@[simp] theorem State.demand_traces (s : State) (h : Half) (d : Nat) : (s.demand h d).traces = s.traces := by
  obtain ⟨_, _, _, e⟩ := s.demand_only h d; rw [e]
@[simp] theorem State.demand_traceOut (s : State) (h : Half) (d : Nat) : (s.demand h d).traceOut = s.traceOut := by
  obtain ⟨_, _, _, e⟩ := s.demand_only h d; rw [e]
@[simp] theorem State.demand_traceTurn (s : State) (h : Half) (d : Nat) : (s.demand h d).traceTurn = s.traceTurn := by
  obtain ⟨_, _, _, e⟩ := s.demand_only h d; rw [e]
@[simp] theorem State.demand_lastRead (s : State) (h : Half) (d : Nat) : (s.demand h d).lastRead = s.lastRead := by
  obtain ⟨_, _, _, e⟩ := s.demand_only h d; rw [e]
@[simp] theorem State.demand_mhalf (s : State) (h : Half) (d : Nat) : (s.demand h d).mhalf = s.mhalf := by
  obtain ⟨_, _, _, e⟩ := s.demand_only h d; rw [e]
@[simp] theorem State.demand_mcore (s : State) (h : Half) (d : Nat) : (s.demand h d).mcore = s.mcore := by
  obtain ⟨_, _, _, e⟩ := s.demand_only h d; rw [e]
@[simp] theorem State.demand_preamps (s : State) (h : Half) (d : Nat) : (s.demand h d).preamps = s.preamps := by
  obtain ⟨_, _, _, e⟩ := s.demand_only h d; rw [e]
@[simp] theorem State.demand_ports (s : State) (h : Half) (d : Nat) : (s.demand h d).ports = s.ports := by
  obtain ⟨_, _, _, e⟩ := s.demand_only h d; rw [e]
@[simp] theorem State.demand_wicks (s : State) (h : Half) (d : Nat) : (s.demand h d).wicks = s.wicks := by
  obtain ⟨_, _, _, e⟩ := s.demand_only h d; rw [e]
@[simp] theorem State.demand_rchs (s : State) (h : Half) (d : Nat) : (s.demand h d).rchs = s.rchs := by
  obtain ⟨_, _, _, e⟩ := s.demand_only h d; rw [e]
@[simp] theorem State.demand_fmts (s : State) (h : Half) (d : Nat) : (s.demand h d).fmts = s.fmts := by
  obtain ⟨_, _, _, e⟩ := s.demand_only h d; rw [e]
@[simp] theorem State.demand_srvs (s : State) (h : Half) (d : Nat) : (s.demand h d).srvs = s.srvs := by
  obtain ⟨_, _, _, e⟩ := s.demand_only h d; rw [e]
@[simp] theorem State.demand_spns (s : State) (h : Half) (d : Nat) : (s.demand h d).spns = s.spns := by
  obtain ⟨_, _, _, e⟩ := s.demand_only h d; rw [e]
@[simp] theorem State.demand_mot (s : State) (h : Half) (d : Nat) : (s.demand h d).mot = s.mot := by
  obtain ⟨_, _, _, e⟩ := s.demand_only h d; rw [e]
@[simp] theorem State.demand_opDone (s : State) (h : Half) (d : Nat) : (s.demand h d).opDone = s.opDone := by
  obtain ⟨_, _, _, e⟩ := s.demand_only h d; rw [e]
@[simp] theorem State.demand_staging (s : State) (h : Half) (d : Nat) : (s.demand h d).staging = s.staging := by
  obtain ⟨_, _, _, e⟩ := s.demand_only h d; rw [e]
@[simp] theorem State.demand_parity (s : State) (h : Half) (d : Nat) : (s.demand h d).parity = s.parity := by
  obtain ⟨_, _, _, e⟩ := s.demand_only h d; rw [e]
@[simp] theorem State.demand_segment (s : State) (h : Half) (d : Nat) : (s.demand h d).segment = s.segment := by
  obtain ⟨_, _, _, e⟩ := s.demand_only h d; rw [e]
@[simp] theorem State.demand_pinned (s : State) (h : Half) (d : Nat) : (s.demand h d).pinned = s.pinned := by
  obtain ⟨_, _, _, e⟩ := s.demand_only h d; rw [e]
@[simp] theorem State.demand_coreriEvents (s : State) (h : Half) (d : Nat) : (s.demand h d).coreriEvents = s.coreriEvents := by
  obtain ⟨_, _, _, e⟩ := s.demand_only h d; rw [e]
@[simp] theorem State.demand_dram (s : State) (h : Half) (d : Nat) : (s.demand h d).dram = s.dram := by
  obtain ⟨_, _, _, e⟩ := s.demand_only h d; rw [e]
@[simp] theorem State.demand_mergeBytes (s : State) (h : Half) (d : Nat) : (s.demand h d).mergeBytes = s.mergeBytes := by
  obtain ⟨_, _, _, e⟩ := s.demand_only h d; rw [e]
@[simp] theorem State.demand_cacheBytes (s : State) (h : Half) (d : Nat) : (s.demand h d).cacheBytes = s.cacheBytes := by
  obtain ⟨_, _, _, e⟩ := s.demand_only h d; rw [e]
@[simp] theorem State.demand_resvs (s : State) (h : Half) (d : Nat) : (s.demand h d).resvs = s.resvs := by
  obtain ⟨_, _, _, e⟩ := s.demand_only h d; rw [e]
@[simp] theorem State.demand_caches (s : State) (h : Half) (d : Nat) : (s.demand h d).caches = s.caches := by
  obtain ⟨_, _, _, e⟩ := s.demand_only h d; rw [e]
@[simp] theorem State.demand_poison (s : State) (h : Half) (d : Nat) : (s.demand h d).poison = s.poison := by
  obtain ⟨_, _, _, e⟩ := s.demand_only h d; rw [e]
@[simp] theorem State.demand_garbage (s : State) (h : Half) (d : Nat) : (s.demand h d).garbage = s.garbage := by
  obtain ⟨_, _, _, e⟩ := s.demand_only h d; rw [e]
@[simp] theorem State.demand_answers (s : State) (h : Half) (d : Nat) : (s.demand h d).answers = s.answers := by
  obtain ⟨_, _, _, e⟩ := s.demand_only h d; rw [e]
@[simp] theorem State.demand_polOld (s : State) (h : Half) (d : Nat) : (s.demand h d).polOld = s.polOld := by
  obtain ⟨_, _, _, e⟩ := s.demand_only h d; rw [e]
@[simp] theorem State.demand_sdms (s : State) (h : Half) (d : Nat) : (s.demand h d).sdms = s.sdms := by
  obtain ⟨_, _, _, e⟩ := s.demand_only h d; rw [e]
@[simp] theorem State.demand_hostMem (s : State) (h : Half) (d : Nat) : (s.demand h d).hostMem = s.hostMem := by
  obtain ⟨_, _, _, e⟩ := s.demand_only h d; rw [e]
@[simp] theorem State.demand_msis (s : State) (h : Half) (d : Nat) : (s.demand h d).msis = s.msis := by
  obtain ⟨_, _, _, e⟩ := s.demand_only h d; rw [e]
@[simp] theorem State.demand_hifs (s : State) (h : Half) (d : Nat) : (s.demand h d).hifs = s.hifs := by
  obtain ⟨_, _, _, e⟩ := s.demand_only h d; rw [e]
@[simp] theorem State.demand_cmdSeq (s : State) (h : Half) (d : Nat) : (s.demand h d).cmdSeq = s.cmdSeq := by
  obtain ⟨_, _, _, e⟩ := s.demand_only h d; rw [e]
@[simp] theorem State.demand_buffered (s : State) (h : Half) (d : Nat) : (s.demand h d).buffered = s.buffered := by
  obtain ⟨_, _, _, e⟩ := s.demand_only h d; rw [e]
@[simp] theorem State.demand_trims (s : State) (h : Half) (d : Nat) : (s.demand h d).trims = s.trims := by
  obtain ⟨_, _, _, e⟩ := s.demand_only h d; rw [e]
@[simp] theorem State.demand_nsCaps (s : State) (h : Half) (d : Nat) : (s.demand h d).nsCaps = s.nsCaps := by
  obtain ⟨_, _, _, e⟩ := s.demand_only h d; rw [e]
@[simp] theorem State.demand_attached (s : State) (h : Half) (d : Nat) : (s.demand h d).attached = s.attached := by
  obtain ⟨_, _, _, e⟩ := s.demand_only h d; rw [e]
@[simp] theorem State.demand_segLru (s : State) (h : Half) (d : Nat) : (s.demand h d).segLru = s.segLru := by
  obtain ⟨_, _, _, e⟩ := s.demand_only h d; rw [e]

@[simp] theorem State.irq_pending (s : State) (h : Half) : (s.irq h).pending = s.pending := by
  obtain ⟨_, _, _, _, e⟩ := s.irq_only h; rw [e]
@[simp] theorem State.irq_free (s : State) (h : Half) : (s.irq h).free = s.free := by
  obtain ⟨_, _, _, _, e⟩ := s.irq_only h; rw [e]
@[simp] theorem State.irq_ticks (s : State) (h : Half) : (s.irq h).ticks = s.ticks := by
  obtain ⟨_, _, _, _, e⟩ := s.irq_only h; rw [e]
@[simp] theorem State.irq_board (s : State) (h : Half) : (s.irq h).board = s.board := by
  obtain ⟨_, _, _, _, e⟩ := s.irq_only h; rw [e]
@[simp] theorem State.irq_asserted (s : State) (h : Half) : (s.irq h).asserted = s.asserted := by
  obtain ⟨_, _, _, _, e⟩ := s.irq_only h; rw [e]
@[simp] theorem State.irq_draining (s : State) (h : Half) : (s.irq h).draining = s.draining := by
  obtain ⟨_, _, _, _, e⟩ := s.irq_only h; rw [e]
@[simp] theorem State.irq_up (s : State) (h : Half) : (s.irq h).up = s.up := by
  obtain ⟨_, _, _, _, e⟩ := s.irq_only h; rw [e]
@[simp] theorem State.irq_motorUp (s : State) (h : Half) : (s.irq h).motorUp = s.motorUp := by
  obtain ⟨_, _, _, _, e⟩ := s.irq_only h; rw [e]
@[simp] theorem State.irq_rails (s : State) (h : Half) : (s.irq h).rails = s.rails := by
  obtain ⟨_, _, _, _, e⟩ := s.irq_only h; rw [e]
@[simp] theorem State.irq_evQueue (s : State) (h : Half) : (s.irq h).evQueue = s.evQueue := by
  obtain ⟨_, _, _, _, e⟩ := s.irq_only h; rw [e]
@[simp] theorem State.irq_lamps (s : State) (h : Half) : (s.irq h).lamps = s.lamps := by
  obtain ⟨_, _, _, _, e⟩ := s.irq_only h; rw [e]
@[simp] theorem State.irq_lampHours (s : State) (h : Half) : (s.irq h).lampHours = s.lampHours := by
  obtain ⟨_, _, _, _, e⟩ := s.irq_only h; rw [e]
@[simp] theorem State.irq_traces (s : State) (h : Half) : (s.irq h).traces = s.traces := by
  obtain ⟨_, _, _, _, e⟩ := s.irq_only h; rw [e]
@[simp] theorem State.irq_traceOut (s : State) (h : Half) : (s.irq h).traceOut = s.traceOut := by
  obtain ⟨_, _, _, _, e⟩ := s.irq_only h; rw [e]
@[simp] theorem State.irq_traceTurn (s : State) (h : Half) : (s.irq h).traceTurn = s.traceTurn := by
  obtain ⟨_, _, _, _, e⟩ := s.irq_only h; rw [e]
@[simp] theorem State.irq_lastRead (s : State) (h : Half) : (s.irq h).lastRead = s.lastRead := by
  obtain ⟨_, _, _, _, e⟩ := s.irq_only h; rw [e]
@[simp] theorem State.irq_mcore (s : State) (h : Half) : (s.irq h).mcore = s.mcore := by
  obtain ⟨_, _, _, _, e⟩ := s.irq_only h; rw [e]
@[simp] theorem State.irq_preamps (s : State) (h : Half) : (s.irq h).preamps = s.preamps := by
  obtain ⟨_, _, _, _, e⟩ := s.irq_only h; rw [e]
@[simp] theorem State.irq_ports (s : State) (h : Half) : (s.irq h).ports = s.ports := by
  obtain ⟨_, _, _, _, e⟩ := s.irq_only h; rw [e]
@[simp] theorem State.irq_wicks (s : State) (h : Half) : (s.irq h).wicks = s.wicks := by
  obtain ⟨_, _, _, _, e⟩ := s.irq_only h; rw [e]
@[simp] theorem State.irq_rchs (s : State) (h : Half) : (s.irq h).rchs = s.rchs := by
  obtain ⟨_, _, _, _, e⟩ := s.irq_only h; rw [e]
@[simp] theorem State.irq_fmts (s : State) (h : Half) : (s.irq h).fmts = s.fmts := by
  obtain ⟨_, _, _, _, e⟩ := s.irq_only h; rw [e]
@[simp] theorem State.irq_srvs (s : State) (h : Half) : (s.irq h).srvs = s.srvs := by
  obtain ⟨_, _, _, _, e⟩ := s.irq_only h; rw [e]
@[simp] theorem State.irq_spns (s : State) (h : Half) : (s.irq h).spns = s.spns := by
  obtain ⟨_, _, _, _, e⟩ := s.irq_only h; rw [e]
@[simp] theorem State.irq_mot (s : State) (h : Half) : (s.irq h).mot = s.mot := by
  obtain ⟨_, _, _, _, e⟩ := s.irq_only h; rw [e]
@[simp] theorem State.irq_opDone (s : State) (h : Half) : (s.irq h).opDone = s.opDone := by
  obtain ⟨_, _, _, _, e⟩ := s.irq_only h; rw [e]
@[simp] theorem State.irq_staging (s : State) (h : Half) : (s.irq h).staging = s.staging := by
  obtain ⟨_, _, _, _, e⟩ := s.irq_only h; rw [e]
@[simp] theorem State.irq_parity (s : State) (h : Half) : (s.irq h).parity = s.parity := by
  obtain ⟨_, _, _, _, e⟩ := s.irq_only h; rw [e]
@[simp] theorem State.irq_segment (s : State) (h : Half) : (s.irq h).segment = s.segment := by
  obtain ⟨_, _, _, _, e⟩ := s.irq_only h; rw [e]
@[simp] theorem State.irq_pinned (s : State) (h : Half) : (s.irq h).pinned = s.pinned := by
  obtain ⟨_, _, _, _, e⟩ := s.irq_only h; rw [e]
@[simp] theorem State.irq_coreriEvents (s : State) (h : Half) : (s.irq h).coreriEvents = s.coreriEvents := by
  obtain ⟨_, _, _, _, e⟩ := s.irq_only h; rw [e]
@[simp] theorem State.irq_dram (s : State) (h : Half) : (s.irq h).dram = s.dram := by
  obtain ⟨_, _, _, _, e⟩ := s.irq_only h; rw [e]
@[simp] theorem State.irq_mergeBytes (s : State) (h : Half) : (s.irq h).mergeBytes = s.mergeBytes := by
  obtain ⟨_, _, _, _, e⟩ := s.irq_only h; rw [e]
@[simp] theorem State.irq_cacheBytes (s : State) (h : Half) : (s.irq h).cacheBytes = s.cacheBytes := by
  obtain ⟨_, _, _, _, e⟩ := s.irq_only h; rw [e]
@[simp] theorem State.irq_resvs (s : State) (h : Half) : (s.irq h).resvs = s.resvs := by
  obtain ⟨_, _, _, _, e⟩ := s.irq_only h; rw [e]
@[simp] theorem State.irq_caches (s : State) (h : Half) : (s.irq h).caches = s.caches := by
  obtain ⟨_, _, _, _, e⟩ := s.irq_only h; rw [e]
@[simp] theorem State.irq_poison (s : State) (h : Half) : (s.irq h).poison = s.poison := by
  obtain ⟨_, _, _, _, e⟩ := s.irq_only h; rw [e]
@[simp] theorem State.irq_garbage (s : State) (h : Half) : (s.irq h).garbage = s.garbage := by
  obtain ⟨_, _, _, _, e⟩ := s.irq_only h; rw [e]
@[simp] theorem State.irq_answers (s : State) (h : Half) : (s.irq h).answers = s.answers := by
  obtain ⟨_, _, _, _, e⟩ := s.irq_only h; rw [e]
@[simp] theorem State.irq_polOld (s : State) (h : Half) : (s.irq h).polOld = s.polOld := by
  obtain ⟨_, _, _, _, e⟩ := s.irq_only h; rw [e]
@[simp] theorem State.irq_sdms (s : State) (h : Half) : (s.irq h).sdms = s.sdms := by
  obtain ⟨_, _, _, _, e⟩ := s.irq_only h; rw [e]
@[simp] theorem State.irq_hostMem (s : State) (h : Half) : (s.irq h).hostMem = s.hostMem := by
  obtain ⟨_, _, _, _, e⟩ := s.irq_only h; rw [e]
@[simp] theorem State.irq_msis (s : State) (h : Half) : (s.irq h).msis = s.msis := by
  obtain ⟨_, _, _, _, e⟩ := s.irq_only h; rw [e]
@[simp] theorem State.irq_hifs (s : State) (h : Half) : (s.irq h).hifs = s.hifs := by
  obtain ⟨_, _, _, _, e⟩ := s.irq_only h; rw [e]
@[simp] theorem State.irq_cmdSeq (s : State) (h : Half) : (s.irq h).cmdSeq = s.cmdSeq := by
  obtain ⟨_, _, _, _, e⟩ := s.irq_only h; rw [e]
@[simp] theorem State.irq_buffered (s : State) (h : Half) : (s.irq h).buffered = s.buffered := by
  obtain ⟨_, _, _, _, e⟩ := s.irq_only h; rw [e]
@[simp] theorem State.irq_trims (s : State) (h : Half) : (s.irq h).trims = s.trims := by
  obtain ⟨_, _, _, _, e⟩ := s.irq_only h; rw [e]
@[simp] theorem State.irq_nsCaps (s : State) (h : Half) : (s.irq h).nsCaps = s.nsCaps := by
  obtain ⟨_, _, _, _, e⟩ := s.irq_only h; rw [e]
@[simp] theorem State.irq_attached (s : State) (h : Half) : (s.irq h).attached = s.attached := by
  obtain ⟨_, _, _, _, e⟩ := s.irq_only h; rw [e]
@[simp] theorem State.irq_segLru (s : State) (h : Half) : (s.irq h).segLru = s.segLru := by
  obtain ⟨_, _, _, _, e⟩ := s.irq_only h; rw [e]

end Sys2Proof.Machine
end

