-- ==== Sys2Proof/Laws/Keeps.lean ====
section
/-! SUPPORT. What every operation of the machine leaves sound: the command queue, the canonical form of the register space, the
bound on the events that wait for the recorder (R480), and the numbering of the free values. -/

namespace Sys2Proof.Machine

/-- From one state to a later one: the queue of commands is the same, a canonical register space stays canonical, no more
than 32 events wait if no more than 32 did, and no free value is used twice. -/
structure Keeps (s t : State) : Prop where
  pending : t.pending = s.pending
  regs : s.regsWf = true → t.regsWf = true
  events : s.evQueue.length ≤ 32 → t.evQueue.length ≤ 32
  free : s.free ≤ t.free

theorem Keeps.refl (s : State) : Keeps s s := ⟨rfl, id, id, Nat.le_refl _⟩

theorem Keeps.trans {s t u : State} (h : Keeps s t) (k : Keeps t u) : Keeps s u :=
  ⟨k.pending.trans h.pending, k.regs ∘ h.regs, k.events ∘ h.events, Nat.le_trans h.free k.free⟩

theorem Keeps.ite {s t u : State} {c : Prop} {_ : Decidable c} (h : Keeps s t) (k : Keeps s u) :
    Keeps s (if c then t else u) := by split <;> assumption

theorem Keeps.foldl {α : Type} {s t : State} {f : State → α → State} {l : List α} (h : Keeps s t)
    (k : ∀ x a, Keeps x (f x a)) : Keeps s (l.foldl f t) := by
  induction l generalizing t with
  | nil => exact h
  | cons a l ih => exact ih (h.trans (k t a))

theorem Keeps.upd {s t : State} (h : t.pending = s.pending) (k : t.regs = s.regs) (e : t.evQueue = s.evQueue)
    (f : t.free = s.free) : Keeps s t :=
  ⟨h, by simp only [State.regsWf, k]; exact id, by rw [e]; exact id, Nat.le_of_eq f.symm⟩

theorem Keeps.updFree {s t : State} (h : t.pending = s.pending) (k : t.regs = s.regs) (e : t.evQueue = s.evQueue)
    (f : s.free ≤ t.free) : Keeps s t :=
  ⟨h, by simp only [State.regsWf, k]; exact id, by rw [e]; exact id, f⟩

theorem Keeps.updQ {s t : State} (h : t.pending = s.pending) (k : t.regs = s.regs)
    (e : t.evQueue.length ≤ s.evQueue.length) (f : t.free = s.free) : Keeps s t :=
  ⟨h, by simp only [State.regsWf, k]; exact id, fun x => Nat.le_trans e x, Nat.le_of_eq f.symm⟩

theorem Keeps.fresh {s t : State} (h : t.pending = s.pending) (k : t.regs = []) (e : t.evQueue = [])
    (f : t.free = s.free) : Keeps s t :=
  ⟨h, fun _ => by simp [State.regsWf, k, smWf], fun _ => by simp [e], Nat.le_of_eq f.symm⟩

/-! The same of operations that answer a state with something, or perhaps a state. -/

def Keeps1 {α : Type} (s : State) (p : State × α) : Prop := Keeps s p.1
def Keeps2 {α : Type} (s : State) (p : α × State) : Prop := Keeps s p.2
def KeepsO (s : State) (o : Option State) : Prop := ∀ t, o = some t → Keeps s t

theorem Keeps1.fst {α : Type} {s : State} {p : State × α} (h : Keeps1 s p) : Keeps s p.1 := h
theorem Keeps1.mk {α : Type} {s t : State} {a : α} (h : Keeps s t) : Keeps1 s (t, a) := h
theorem Keeps1.use {α : Type} {s t : State} {a : α} {p : State × α} (h : Keeps1 s p) (e : p = (t, a)) : Keeps s t := by
  subst e; exact h
theorem Keeps1.trans {α : Type} {s t : State} {p : State × α} (h : Keeps s t) (k : Keeps1 t p) : Keeps1 s p :=
  Keeps.trans h k
theorem Keeps1.ite {α : Type} {s : State} {p q : State × α} {c : Prop} {_ : Decidable c} (h : Keeps1 s p)
    (k : Keeps1 s q) : Keeps1 s (if c then p else q) := by split <;> assumption
theorem Keeps1.foldl {α β : Type} {s : State} {p : State × α} {f : State × α → β → State × α} {l : List β}
    (h : Keeps1 s p) (k : ∀ x y a, Keeps1 x (f (x, y) a)) : Keeps1 s (l.foldl f p) := by
  induction l generalizing p with
  | nil => exact h
  | cons a l ih => exact ih (Keeps.trans h (k p.1 p.2 a))

theorem Keeps2.snd {α : Type} {s : State} {p : α × State} (h : Keeps2 s p) : Keeps s p.2 := h
theorem Keeps2.mk {α : Type} {s t : State} {a : α} (h : Keeps s t) : Keeps2 s (a, t) := h
theorem Keeps2.use {α : Type} {s t : State} {a : α} {p : α × State} (h : Keeps2 s p) (e : p = (a, t)) : Keeps s t := by
  subst e; exact h
theorem Keeps2.trans {α : Type} {s t : State} {p : α × State} (h : Keeps s t) (k : Keeps2 t p) : Keeps2 s p :=
  Keeps.trans h k
theorem Keeps2.ite {α : Type} {s : State} {p q : α × State} {c : Prop} {_ : Decidable c} (h : Keeps2 s p)
    (k : Keeps2 s q) : Keeps2 s (if c then p else q) := by split <;> assumption

theorem KeepsO.none {s : State} : KeepsO s none := by intro t e; cases e
theorem KeepsO.some {s t : State} (h : Keeps s t) : KeepsO s (some t) := by intro u e; cases e; exact h
theorem KeepsO.use {s t : State} {o : Option State} (h : KeepsO s o) (e : o = Option.some t) : Keeps s t := h t e
theorem KeepsO.trans {s t : State} {o : Option State} (h : Keeps s t) (k : KeepsO t o) : KeepsO s o :=
  fun u e => h.trans (k u e)
theorem KeepsO.ite {s : State} {o p : Option State} {c : Prop} {_ : Decidable c} (h : KeepsO s o)
    (k : KeepsO s p) : KeepsO s (if c then o else p) := by split <;> assumption
theorem KeepsO.map {α : Type} {s : State} {f : α → State} {o : Option α} (h : ∀ a, Keeps s (f a)) :
    KeepsO s (o.map f) := by
  intro t e; cases o with
  | none => cases e
  | some a => cases e; exact h a
theorem KeepsO.or {s : State} {o p : Option State} (h : KeepsO s o) (k : KeepsO s p) : KeepsO s (o.or p) := by
  intro t e; cases o with
  | none => exact k t e
  | some a => exact h t e
theorem KeepsO.mapS {s : State} {f : State → State} {o : Option State} (h : KeepsO s o) (k : ∀ a, Keeps a (f a)) :
    KeepsO s (o.map f) := by
  intro t e; cases o with
  | none => cases e
  | some a => cases e; exact (h a rfl).trans (k a)
theorem KeepsO.getD {s t : State} {o : Option State} (h : KeepsO s o) (k : Keeps s t) : Keeps s (o.getD t) := by
  cases o with
  | none => exact k
  | some u => exact h u rfl

/-- The same of an outcome: a stop keeps everything. -/
def OutKeeps (s : State) (o : Host.Outcome State Fault Refusal) : Prop := ∀ t, o = .next t → Keeps s t

theorem OutKeeps.next {s t : State} (h : Keeps s t) : OutKeeps s (.next t) := by
  intro u e; cases e; exact h

theorem State.setWord_keeps (s : State) (a : Nat) (w : Word) : Keeps s (s.setWord a w) :=
  ⟨rfl, smWf_smPut (d := regReset) a w, id, Nat.le_refl _⟩
theorem State.clearRange_keeps (s : State) (lo hi : Nat) : Keeps s (s.clearRange lo hi) :=
  ⟨rfl, smWf_smClear lo hi, id, Nat.le_refl _⟩
theorem State.event_keeps (s : State) (code p0 p1 p2 : Nat) : Keeps s (s.event code p0 p1 p2) := by
  unfold State.event
  split
  · exact State.setWord_keeps ..
  · exact ⟨rfl, id, fun _ => by simp only [List.length_append, List.length_cons, List.length_nil]; omega, Nat.le_refl _⟩
theorem State.takeFree_keeps (s : State) : Keeps2 s s.takeFree := ⟨rfl, id, id, Nat.le_succ _⟩

end Sys2Proof.Machine
end

