-- ==== Sys2Proof/Laws/KeepsOps.lean ====
section
/-! SUPPORT. What `Keeps` says of every operation of Machine/Ops.lean. -/

namespace Sys2Proof.Machine

theorem State.put_keeps (s : State) (base : Nat) (f : Fld) (v : Nat) :
    Keeps s (State.put s base f v) := by
  unfold State.put
  refine Keeps.trans ?_ (State.setWord_keeps _ _ _)
  exact Keeps.refl _

theorem State.flag_keeps (s : State) (base : Nat) (f : Fld) :
    Keeps s (State.flag s base f) := by
  unfold State.flag
  refine Keeps.trans ?_ (State.put_keeps _ _ _ _)
  exact Keeps.refl _

theorem State.putB_keeps (s : State) (base : Nat) (f : Fld) (b : Bool) :
    Keeps s (State.putB s base f b) := by
  unfold State.putB
  refine Keeps.trans ?_ (State.put_keeps _ _ _ _)
  exact Keeps.refl _

theorem State.set64_keeps (s : State) (a : Nat) (v : Nat) :
    Keeps s (State.set64 s a v) := by
  unfold State.set64
  refine Keeps.trans ?_ (State.setWord_keeps _ _ _)
  refine Keeps.trans ?_ (State.setWord_keeps _ _ _)
  exact Keeps.refl _

theorem State.satAdd_keeps (s : State) (base : Nat) (f : Fld) (n : Nat) :
    Keeps s (State.satAdd s base f n) := by
  unfold State.satAdd
  refine Keeps.trans ?_ (State.put_keeps _ _ _ _)
  exact Keeps.refl _

theorem State.peak_keeps (s : State) (base : Nat) (f : Fld) (v : Nat) :
    Keeps s (State.peak s base f v) := by
  unfold State.peak
  refine Keeps.trans ?_ (State.put_keeps _ _ _ _)
  exact Keeps.refl _

theorem State.putMaskBit_keeps (s : State) (base : Nat) (f : Fld) (i : Nat) (b : Bool) :
    Keeps s (State.putMaskBit s base f i b) := by
  unfold State.putMaskBit
  refine Keeps.trans ?_ (State.put_keeps _ _ _ _)
  exact Keeps.refl _

theorem State.setMh_keeps (s : State) (k : Nat) (v : MantleHalf) :
    Keeps s (State.setMh s k v) := by
  unfold State.setMh
  refine Keeps.trans ?_ (Keeps.upd (s := s) rfl rfl rfl rfl)
  exact Keeps.refl _

theorem State.setPa_keeps (s : State) (k : Nat) (v : Preamp) :
    Keeps s (State.setPa s k v) := by
  unfold State.setPa
  refine Keeps.trans ?_ (Keeps.upd (s := s) rfl rfl rfl rfl)
  exact Keeps.refl _

theorem State.setPort_keeps (s : State) (k : Nat) (v : Grz) :
    Keeps s (State.setPort s k v) := by
  unfold State.setPort
  refine Keeps.trans ?_ (Keeps.upd (s := s) rfl rfl rfl rfl)
  exact Keeps.refl _

theorem State.setWick_keeps (s : State) (k : Nat) (v : Wick) :
    Keeps s (State.setWick s k v) := by
  unfold State.setWick
  refine Keeps.trans ?_ (Keeps.upd (s := s) rfl rfl rfl rfl)
  exact Keeps.refl _

theorem State.setRch_keeps (s : State) (k : Nat) (v : Rch) :
    Keeps s (State.setRch s k v) := by
  unfold State.setRch
  refine Keeps.trans ?_ (Keeps.upd (s := s) rfl rfl rfl rfl)
  exact Keeps.refl _

theorem State.setFmt_keeps (s : State) (k : Nat) (v : Fmt) :
    Keeps s (State.setFmt s k v) := by
  unfold State.setFmt
  refine Keeps.trans ?_ (Keeps.upd (s := s) rfl rfl rfl rfl)
  exact Keeps.refl _

theorem State.setSrv_keeps (s : State) (k : Nat) (v : Srv) :
    Keeps s (State.setSrv s k v) := by
  unfold State.setSrv
  refine Keeps.trans ?_ (Keeps.upd (s := s) rfl rfl rfl rfl)
  exact Keeps.refl _

theorem State.setSpn_keeps (s : State) (k : Nat) (v : Spn) :
    Keeps s (State.setSpn s k v) := by
  unfold State.setSpn
  refine Keeps.trans ?_ (Keeps.upd (s := s) rfl rfl rfl rfl)
  exact Keeps.refl _

theorem State.setColl_keeps (s : State) (k : Nat) (c : Collector) :
    Keeps s (State.setColl s k c) := by
  unfold State.setColl
  refine Keeps.trans ?_ (Keeps.upd (s := s) rfl rfl rfl rfl)
  exact Keeps.refl _

theorem State.bumpQuiet_keeps (s : State) (h : Half) (c : Nat) (n : Nat) :
    Keeps s (State.bumpQuiet s h c n) := by
  unfold State.bumpQuiet
  refine Keeps.ite ?_ ?_
  · exact Keeps.refl _
  · extract_lets +onlyGivenNames x1
    clear_value x1
    refine Keeps.ite ?_ ?_
    · refine Keeps.trans ?_ (State.set64_keeps _ _ _)
      exact Keeps.refl _
    · refine Keeps.trans ?_ (State.set64_keeps _ _ _)
      exact Keeps.refl _

theorem State.sendMsg_keeps (s : State) (h : Half) (m : BitVec 64) :
    Keeps s (State.sendMsg s h m) := by
  unfold State.sendMsg
  extract_lets +onlyGivenNames x1
  clear_value x1
  refine Keeps.ite ?_ ?_
  · refine Keeps.trans ?_ (State.bumpQuiet_keeps _ _ _ _)
    refine Keeps.trans ?_ (State.flag_keeps _ _ _)
    exact Keeps.refl _
  · refine Keeps.trans ?_ (State.setColl_keeps _ _ _)
    exact Keeps.refl _

theorem State.chimney_keeps (s : State) (h : Half) (type : Nat) (inst : Nat) (kind : Nat) (hint : Nat) :
    Keeps s (State.chimney s h type inst kind hint) := by
  unfold State.chimney
  refine Keeps.trans ?_ (State.sendMsg_keeps _ _ _)
  exact Keeps.refl _

theorem State.bump48_keeps (s : State) (h : Half) (c : Nat) (n : Nat) :
    Keeps s (State.bump48 s h c n) := by
  unfold State.bump48
  extract_lets +onlyGivenNames x1
  have h2 : Keeps s x1 := by
    unfold x1
    refine Keeps.trans ?_ (State.bumpQuiet_keeps _ _ _ _)
    exact Keeps.refl _
  clear_value x1
  refine Keeps.ite ?_ ?_
  · refine Keeps.trans ?_ (State.chimney_keeps _ _ _ _ _ _)
    exact h2
  · exact h2

theorem State.count_keeps (s : State) (base : Nat) (f : Fld) (h : Half) (c : Nat) (n : Nat) :
    Keeps s (State.count s base f h c n) := by
  unfold State.count
  refine Keeps.trans ?_ (State.bump48_keeps _ _ _ _)
  refine Keeps.trans ?_ (State.satAdd_keeps _ _ _ _)
  exact Keeps.refl _

theorem State.mantleMsg_keeps (s : State) (h : Half) (type : Nat) (inst : Nat) (kind : Nat) (hint : Nat) :
    Keeps s (State.mantleMsg s h type inst kind hint) := by
  unfold State.mantleMsg
  extract_lets +onlyGivenNames x1
  clear_value x1
  refine Keeps.ite ?_ ?_
  · exact Keeps.refl _
  · refine Keeps.trans ?_ (State.setColl_keeps _ _ _)
    exact Keeps.refl _

theorem State.trace_keeps (s : State) (h : Half) (type : Nat) (index : Nat) (body : List Byte) :
    Keeps s (State.trace s h type index body) := by
  unfold State.trace
  extract_lets +onlyGivenNames x1 x2
  clear_value x1
  clear_value x2
  refine Keeps.ite ?_ ?_
  · refine Keeps.trans ?_ (State.satAdd_keeps _ _ _ _)
    refine Keeps.trans ?_ (Keeps.upd (s := s) rfl rfl rfl rfl)
    exact Keeps.refl _
  · split
    · rename_i y3 y4 y5 y6
      have h7 : Keeps s y5 := by
        refine Keeps2.use ?_ y6
        refine Keeps2.trans ?_ (State.takeFree_keeps _)
        exact Keeps.refl _
      extract_lets +onlyGivenNames x8
      clear_value x8
      refine Keeps.trans ?_ (Keeps.upd (s := y5) rfl rfl rfl rfl)
      exact h7

theorem State.setResv_keeps (s : State) (h : Half) (v : Resv) :
    Keeps s (State.setResv s h v) := by
  unfold State.setResv
  refine Keeps.trans ?_ (Keeps.upd (s := s) rfl rfl rfl rfl)
  exact Keeps.refl _

theorem State.setCache_keeps (s : State) (h : Half) (v : Cache) :
    Keeps s (State.setCache s h v) := by
  unfold State.setCache
  refine Keeps.trans ?_ (Keeps.upd (s := s) rfl rfl rfl rfl)
  exact Keeps.refl _

theorem State.showTouched_keeps (s : State) (h : Half) :
    Keeps s (State.showTouched s h) := by
  unfold State.showTouched
  refine Keeps.trans ?_ (State.put_keeps _ _ _ _)
  exact Keeps.refl _

theorem State.lineWrite_keeps (s : State) (h : Half) (page : Nat) (way : Nat) (off : Nat) (bs : List Byte) :
    Keeps s (State.lineWrite s h page way off bs) := by
  unfold State.lineWrite
  extract_lets +onlyGivenNames x1
  clear_value x1
  split
  · rename_i y2 y3
    exact Keeps.refl _
  · rename_i y4 y5 y6
    extract_lets +onlyGivenNames x7 x8 x9 x10 x11
    clear_value x7
    clear_value x8
    clear_value x9
    have h12 : Keeps s x10 := by
      unfold x10
      refine Keeps.trans ?_ (Keeps.upd (s := s) rfl rfl rfl rfl)
      exact Keeps.refl _
    clear_value x10
    clear_value x11
    refine Keeps.trans ?_ (State.setCache_keeps _ _ _)
    exact h12

theorem State.bufStore1_keeps (s : State) (ba : Nat) (b : Byte) :
    Keeps s (State.bufStore1 s ba b) := by
  unfold State.bufStore1
  extract_lets +onlyGivenNames x1 x2 x3
  clear_value x1
  clear_value x2
  clear_value x3
  split
  · rename_i y4 y5 y6
    refine Keeps.trans ?_ (State.lineWrite_keeps _ _ _ _ _ _)
    exact Keeps.refl _
  · rename_i y7 y8
    refine Keeps.ite ?_ ?_
    · refine Keeps.trans ?_ (Keeps.upd (s := s) rfl rfl rfl rfl)
      exact Keeps.refl _
    · extract_lets +onlyGivenNames x9 x10
      have h11 : Keeps s x9 := by
        unfold x9
        refine Keeps.trans ?_ (Keeps.upd (s := s) rfl rfl rfl rfl)
        exact Keeps.refl _
      clear_value x9
      clear_value x10
      refine Keeps.trans ?_ (State.showTouched_keeps _ _)
      refine Keeps.trans ?_ (State.setResv_keeps _ _ _)
      exact h11

theorem State.bufStore_keeps (s : State) (ba : Nat) (bs : List Byte) : Keeps s (s.bufStore ba bs) := by
  induction bs generalizing s ba with
  | nil => exact Keeps.refl _
  | cons b bs ih => exact (State.bufStore1_keeps s ba b).trans (ih _ _)

end Sys2Proof.Machine
end

