-- ==== Sys2Proof/Laws/KeepsEffects.lean ====
section
/-! SUPPORT. What `Keeps` says of every operation of Machine/Effects.lean. -/

namespace Sys2Proof.Machine

theorem State.setChState_keeps (s : State) (ci : Nat) (st : Nat) :
    Keeps s (State.setChState s ci st) := by
  unfold State.setChState
  refine Keeps.trans ?_ (State.put_keeps _ _ _ _)
  exact Keeps.refl _

theorem State.demand_keeps (s : State) (h : Half) (d : Nat) :
    Keeps s (State.demand s h d) := by
  unfold State.demand
  extract_lets +onlyGivenNames x1
  clear_value x1
  refine Keeps.ite ?_ ?_
  · exact Keeps.refl _
  · extract_lets +onlyGivenNames x2
    have h3 : Keeps s x2 := by
      unfold x2
      refine Keeps.ite ?_ ?_
      · refine Keeps.trans ?_ (State.count_keeps _ _ _ _ _ _)
        exact Keeps.refl _
      · exact Keeps.refl _
    clear_value x2
    refine Keeps.trans ?_ (Keeps.upd (s := x2) rfl rfl rfl rfl)
    exact h3

theorem State.irq_keeps (s : State) (h : Half) :
    Keeps s (State.irq s h) := by
  unfold State.irq
  extract_lets +onlyGivenNames x1
  clear_value x1
  extract_lets +onlyGivenNames x2
  have h3 : Keeps s x2 := by
    unfold x2
    refine Keeps.trans ?_ (State.setMh_keeps _ _ _)
    exact Keeps.refl _
  clear_value x2
  refine Keeps.ite ?_ ?_
  · refine Keeps.trans ?_ (State.demand_keeps _ _ _)
    exact h3
  · exact h3

theorem State.setLoaded_keeps (s : State) (ai : Nat) (b : Bool) :
    Keeps s (State.setLoaded s ai b) := by
  unfold State.setLoaded
  refine Keeps.trans ?_ (State.putMaskBit_keeps _ _ _ _ _)
  exact Keeps.refl _

theorem State.gatesLow_keeps (s : State) (ai : Nat) :
    Keeps s (State.gatesLow s ai) := by
  unfold State.gatesLow
  refine Keeps.trans ?_ (State.setWick_keeps _ _ _)
  exact Keeps.refl _

theorem State.setRwq_keeps (s : State) (ai : Nat) (q : List RwqEntry) :
    Keeps s (State.setRwq s ai q) := by
  unfold State.setRwq
  extract_lets +onlyGivenNames x1 x2 x3 x4 x5
  clear_value x1
  clear_value x2
  clear_value x3
  clear_value x4
  have h6 : Keeps s x5 := by
    unfold x5
    refine Keeps.trans ?_ (State.setFmt_keeps _ _ _)
    exact Keeps.refl _
  clear_value x5
  refine Keeps.trans ?_ (State.putB_keeps _ _ _ _)
  refine Keeps.trans ?_ (State.put_keeps _ _ _ _)
  exact h6

theorem State.entryBack_keeps (s : State) (ai : Nat) (direct : Bool) (e : RwqEntry) :
    Keeps s (State.entryBack s ai direct e) := by
  unfold State.entryBack
  extract_lets +onlyGivenNames x1
  clear_value x1
  refine Keeps.ite ?_ ?_
  · refine Keeps.trans ?_ (State.setRwq_keeps _ _ _)
    exact Keeps.refl _
  · refine Keeps.trans ?_ (State.setFmt_keeps _ _ _)
    exact Keeps.refl _

theorem State.opReport_keeps (s : State) (ai : Nat) (op : FmtOp) (st : OpStatus) (lost : List Nat) :
    Keeps s (State.opReport s ai op st lost) := by
  unfold State.opReport
  extract_lets +onlyGivenNames x1
  clear_value x1
  refine Keeps.ite ?_ ?_
  · refine Keeps.trans ?_ (Keeps.upd (s := s) rfl rfl rfl rfl)
    exact Keeps.refl _
  · exact Keeps.refl _

theorem State.fmtEnd_keeps (s : State) (ai : Nat) (st : OpStatus) (lost : List Nat) :
    Keeps s (State.fmtEnd s ai st lost) := by
  unfold State.fmtEnd
  extract_lets +onlyGivenNames x1 x2
  clear_value x1
  clear_value x2
  split
  · rename_i y3 y4
    exact Keeps.refl _
  · rename_i y5 y6 y7
    extract_lets +onlyGivenNames x8 x9 x10 x11
    clear_value x8
    have h12 : Keeps s x9 := by
      unfold x9
      refine Keeps.trans ?_ (State.setFmt_keeps _ _ _)
      exact Keeps.refl _
    clear_value x9
    have h13 : Keeps s x10 := by
      unfold x10
      split
      · rename_i y14 y15 y16
        refine Keeps.trans ?_ (State.entryBack_keeps _ _ _ _)
        exact h12
      · rename_i y17 y18
        exact h12
    clear_value x10
    have h19 : Keeps s x11 := by
      unfold x11
      refine Keeps.trans ?_ (State.putB_keeps _ _ _ _)
      refine Keeps.trans ?_ (State.put_keeps _ _ _ _)
      exact h13
    clear_value x11
    refine Keeps.trans ?_ (State.opReport_keeps _ _ _ _ _)
    exact h19

theorem State.wickAbort_keeps (s : State) (ai : Nat) (row : Nat) (st : OpStatus) :
    Keeps s (State.wickAbort s ai row st) := by
  unfold State.wickAbort
  extract_lets +onlyGivenNames x1
  clear_value x1
  refine Keeps.ite ?_ ?_
  · exact Keeps.refl _
  · refine Keeps.ite ?_ ?_
    · refine Keeps.ite ?_ ?_
      · exact Keeps.refl _
      · refine Keeps.trans ?_ (State.fmtEnd_keeps _ _ _ _)
        exact Keeps.refl _
    · split
      · rename_i y2 y3 y4
        refine Keeps.ite ?_ ?_
        · refine Keeps.trans ?_ (State.setWick_keeps _ _ _)
          exact Keeps.refl _
        · exact Keeps.refl _
      · rename_i y5 y6
        refine Keeps.trans ?_ (State.setWick_keeps _ _ _)
        exact Keeps.refl _

theorem State.chOpEnd_keeps (s : State) (ci : Nat) :
    Keeps s (State.chOpEnd s ci) := by
  unfold State.chOpEnd
  extract_lets +onlyGivenNames x1
  clear_value x1
  refine Keeps.ite ?_ ?_
  · exact Keeps.refl _
  · extract_lets +onlyGivenNames x2 x3
    clear_value x2
    have h4 : Keeps s x3 := by
      unfold x3
      refine Keeps.trans ?_ (State.setRch_keeps _ _ _)
      exact Keeps.refl _
    clear_value x3
    refine Keeps.ite ?_ ?_
    · exact h4
    · refine Keeps.trans ?_ (State.setChState_keeps _ _ _)
      exact h4

theorem State.idleVector_keeps (s : State) (ai : Nat) :
    Keeps s (State.idleVector s ai) := by
  unfold State.idleVector
  refine Keeps.trans ?_ (State.put_keeps _ _ _ _)
  exact Keeps.refl _

theorem State.wickIdle_keeps (s : State) (ai : Nat) :
    Keeps s (State.wickIdle s ai) := by
  unfold State.wickIdle
  extract_lets +onlyGivenNames x1 x2
  have h3 : Keeps s x1 := by
    unfold x1
    refine Keeps.foldl ?_ ?_
    · exact Keeps.refl _
    · intro a4 b5
      refine Keeps.trans ?_ (State.chOpEnd_keeps _ _)
      exact Keeps.refl _
  clear_value x1
  clear_value x2
  extract_lets +onlyGivenNames x6
  have h7 : Keeps s x6 := by
    unfold x6
    refine Keeps.trans ?_ (State.setWick_keeps _ _ _)
    exact h3
  clear_value x6
  refine Keeps.trans ?_ (State.idleVector_keeps _ _)
  refine Keeps.trans ?_ (State.put_keeps _ _ _ _)
  refine Keeps.trans ?_ (State.put_keeps _ _ _ _)
  exact h7

theorem State.opKill_keeps (s : State) (ai : Nat) (st : OpStatus) :
    Keeps s (State.opKill s ai st) := by
  unfold State.opKill
  refine Keeps.trans ?_ (State.fmtEnd_keeps _ _ _ _)
  refine Keeps.trans ?_ (State.wickIdle_keeps _ _)
  refine Keeps.trans ?_ (State.gatesLow_keeps _ _)
  exact Keeps.refl _

theorem State.windowsClose_keeps (s : State) (ai : Nat) (at_ : Place) :
    Keeps s (State.windowsClose s ai at_) := by
  unfold State.windowsClose
  extract_lets +onlyGivenNames x1
  clear_value x1
  split
  · rename_i y2 y3
    exact Keeps.refl _
  · rename_i y4 y5 y6
    refine Keeps.ite ?_ ?_
    · exact Keeps.refl _
    · refine Keeps.trans ?_ (State.setWick_keeps _ _ _)
      exact Keeps.refl _

theorem State.endAtFrame_keeps (s : State) (ai : Nat) (pos : Nat) :
    Keeps s (State.endAtFrame s ai pos) := by
  unfold State.endAtFrame
  extract_lets +onlyGivenNames x1
  clear_value x1
  split
  · rename_i y2 y3
    exact Keeps.refl _
  · rename_i y4 y5 y6
    extract_lets +onlyGivenNames x7 x8 x9
    clear_value x7
    clear_value x8
    clear_value x9
    split
    · rename_i y10 y11 y12
      refine Keeps.trans ?_ (State.setWick_keeps _ _ _)
      exact Keeps.refl _
    · rename_i y13 y14
      refine Keeps.trans ?_ (State.setWick_keeps _ _ _)
      exact Keeps.refl _

theorem State.rwqSpill_keeps (s : State) (ai : Nat) (e : RwqEntry) (fromUe : Bool) :
    Keeps s (State.rwqSpill s ai e fromUe) := by
  unfold State.rwqSpill
  extract_lets +onlyGivenNames x1 x2 x3
  have h4 : Keeps s x1 := by
    unfold x1
    refine Keeps.trans ?_ (State.flag_keeps _ _ _)
    exact Keeps.refl _
  clear_value x1
  clear_value x2
  have h5 : ∀ v6, Keeps v6 (x3 v6) := by
    intro v6
    unfold x3
    refine Keeps.ite ?_ ?_
    · exact Keeps.refl _
    · refine Keeps.trans ?_ (State.endAtFrame_keeps _ _ _)
      extract_lets +onlyGivenNames x7
      clear_value x7
      refine Keeps.trans ?_ (State.setFmt_keeps _ _ _)
      exact Keeps.refl _
  clear_value x3
  refine Keeps.ite ?_ ?_
  · exact h4
  · refine Keeps.ite ?_ ?_
    · refine Keeps.trans ?_ (h5 _)
      refine Keeps.trans ?_ (State.setFmt_keeps _ _ _)
      exact h4
    · refine Keeps.ite ?_ ?_
      · extract_lets +onlyGivenNames x8
        clear_value x8
        refine Keeps.trans ?_ (State.setFmt_keeps _ _ _)
        exact h4
      · extract_lets +onlyGivenNames x9 x10
        clear_value x9
        clear_value x10
        refine Keeps.trans ?_ (h5 _)
        refine Keeps.ite ?_ ?_
        · exact h4
        · refine Keeps.trans ?_ (State.setFmt_keeps _ _ _)
          exact h4

theorem State.rwqAdd_keeps (s : State) (ai : Nat) (e : RwqEntry) (fromUe : Bool) :
    Keeps s (State.rwqAdd s ai e fromUe) := by
  unfold State.rwqAdd
  extract_lets +onlyGivenNames x1
  clear_value x1
  refine Keeps.ite ?_ ?_
  · refine Keeps.trans ?_ (State.setRwq_keeps _ _ _)
    exact Keeps.refl _
  · refine Keeps.ite ?_ ?_
    · refine Keeps.trans ?_ (State.setRwq_keeps _ _ _)
      exact Keeps.refl _
    · refine Keeps.trans ?_ (State.rwqSpill_keeps _ _ _ _)
      exact Keeps.refl _

theorem State.snufShow_keeps (s : State) (ai : Nat) :
    Keeps s (State.snufShow s ai) := by
  unfold State.snufShow
  extract_lets +onlyGivenNames x1
  clear_value x1
  refine Keeps.trans ?_ (State.putB_keeps _ _ _ _)
  refine Keeps.trans ?_ (State.putB_keeps _ _ _ _)
  exact Keeps.refl _

theorem State.snufTrip_keeps (s : State) (ai : Nat) (c : SnufCause) (head : Nat) (frames : List Nat) :
    Keeps s (State.snufTrip s ai c head frames) := by
  unfold State.snufTrip
  extract_lets +onlyGivenNames x1 x2
  clear_value x1
  clear_value x2
  refine Keeps.ite ?_ ?_
  · exact Keeps.refl _
  · extract_lets +onlyGivenNames x3 x4 x5 x6 x7 x8 x9
    clear_value x3
    clear_value x4
    have h10 : Keeps s x5 := by
      unfold x5
      refine Keeps.trans ?_ (State.setFmt_keeps _ _ _)
      exact Keeps.refl _
    clear_value x5
    have h11 : Keeps s x6 := by
      unfold x6
      refine Keeps.trans ?_ (State.flag_keeps _ _ _)
      exact h10
    clear_value x6
    have h12 : Keeps s x7 := by
      unfold x7
      split
      · rename_i y13
        refine Keeps.trans ?_ (State.put_keeps _ _ _ _)
        exact h11
      · rename_i y14
        refine Keeps.trans ?_ (State.put_keeps _ _ _ _)
        exact h11
      · rename_i y15 y16 y17
        exact h11
    clear_value x7
    have h18 : Keeps s x8 := by
      unfold x8
      refine Keeps.trans ?_ (State.count_keeps _ _ _ _ _ _)
      exact h12
    clear_value x8
    have h19 : Keeps s x9 := by
      unfold x9
      refine Keeps.trans ?_ (State.windowsClose_keeps _ _ _)
      refine Keeps.trans ?_ (State.snufShow_keeps _ _)
      exact h18
    clear_value x9
    split
    · rename_i y20 y21
      exact h19
    · rename_i y22 y23 y24
      extract_lets +onlyGivenNames x25 x26 x27 x28 x29 x30 x31
      clear_value x25
      clear_value x26
      clear_value x27
      clear_value x28
      clear_value x29
      have h32 : ∀ v33 v34, Keeps v33 (x30 v33 v34) := by
        intro v33 v34
        unfold x30
        split
        · rename_i y35 y36
          refine Keeps.ite ?_ ?_
          · refine Keeps.ite ?_ ?_
            · exact Keeps.refl _
            · refine Keeps.trans ?_ (State.rwqAdd_keeps _ _ _ _)
              exact Keeps.refl _
          · exact Keeps.refl _
        · rename_i y37
          refine Keeps.trans ?_ (State.rwqAdd_keeps _ _ _ _)
          exact Keeps.refl _
      clear_value x30
      have h38 : Keeps s x31 := by
        unfold x31
        refine Keeps.foldl ?_ ?_
        · exact h19
        · intro a39 b40
          refine Keeps.trans ?_ (h32 _ _)
          exact Keeps.refl _
      clear_value x31
      extract_lets +onlyGivenNames x41
      clear_value x41
      extract_lets +onlyGivenNames x42
      have h43 : Keeps s x42 := by
        unfold x42
        refine Keeps.ite ?_ ?_
        · refine Keeps.trans ?_ (State.setFmt_keeps _ _ _)
          exact h38
        · exact h38
      clear_value x42
      refine Keeps.ite ?_ ?_
      · extract_lets +onlyGivenNames x44
        clear_value x44
        refine Keeps.trans ?_ (State.setFmt_keeps _ _ _)
        refine Keeps.trans ?_ (State.flag_keeps _ _ _)
        exact h43
      · exact h43

theorem State.neighCheck_keeps (s : State) (ai : Nat) (head : Nat) (index : Nat) :
    Keeps s (State.neighCheck s ai head index) := by
  unfold State.neighCheck
  split
  · rename_i y1 y2
    exact Keeps.refl _
  · rename_i y3 y4 y5
    extract_lets +onlyGivenNames x6 x7 x8
    clear_value x6
    clear_value x7
    have h9 : ∀ v10 v11, Keeps v10 (x8 v10 v11) := by
      intro v10 v11
      unfold x8
      refine Keeps.ite ?_ ?_
      · exact Keeps.refl _
      · extract_lets +onlyGivenNames x12 x13 x14 x15
        clear_value x12
        clear_value x13
        clear_value x14
        clear_value x15
        refine Keeps.foldl ?_ ?_
        · exact Keeps.refl _
        · intro a16 b17
          split
          · rename_i y18 y19 y20
            refine Keeps.trans ?_ (State.rwqAdd_keeps _ _ _ _)
            exact Keeps.refl _
    clear_value x8
    refine Keeps.trans ?_ (State.flag_keeps _ _ _)
    refine Keeps.trans ?_ (h9 _ _)
    refine Keeps.trans ?_ (h9 _ _)
    exact Keeps.refl _

theorem State.snufRearm_keeps (s : State) (ai : Nat) (c : SnufCause) :
    Keeps s (State.snufRearm s ai c) := by
  unfold State.snufRearm
  extract_lets +onlyGivenNames x1
  clear_value x1
  refine Keeps.trans ?_ (State.snufShow_keeps _ _)
  refine Keeps.trans ?_ (State.setFmt_keeps _ _ _)
  exact Keeps.refl _

theorem State.vcmShow_keeps (s : State) (ai : Nat) :
    Keeps s (State.vcmShow s ai) := by
  unfold State.vcmShow
  extract_lets +onlyGivenNames x1
  clear_value x1
  refine Keeps.trans ?_ (State.put_keeps _ _ _ _)
  exact Keeps.refl _

theorem State.setSrvState_keeps (s : State) (ai : Nat) (st : Nat) :
    Keeps s (State.setSrvState s ai st) := by
  unfold State.setSrvState
  extract_lets +onlyGivenNames x1 x2 x3 x4 x5 x6
  clear_value x1
  clear_value x2
  have h7 : Keeps s x3 := by
    unfold x3
    refine Keeps.trans ?_ (State.put_keeps _ _ _ _)
    exact Keeps.refl _
  clear_value x3
  clear_value x4
  have h8 : Keeps s x5 := by
    unfold x5
    refine Keeps.trans ?_ (State.putB_keeps _ _ _ _)
    exact h7
  clear_value x5
  have h9 : Keeps s x6 := by
    unfold x6
    refine Keeps.trans ?_ (State.vcmShow_keeps _ _)
    refine Keeps.trans ?_ (State.putB_keeps _ _ _ _)
    exact h8
  clear_value x6
  refine Keeps.ite ?_ ?_
  · refine Keeps.trans ?_ (State.setLoaded_keeps _ _ _)
    exact h9
  · refine Keeps.ite ?_ ?_
    · refine Keeps.trans ?_ (State.setLoaded_keeps _ _ _)
      exact h9
    · exact h9

theorem State.seekAnswer_keeps (s : State) (ai : Nat) (z : Bool) :
    Keeps s (State.seekAnswer s ai z) := by
  unfold State.seekAnswer
  extract_lets +onlyGivenNames x1
  clear_value x1
  refine Keeps.ite ?_ ?_
  · extract_lets +onlyGivenNames x2 x3
    have h4 : Keeps s x2 := by
      unfold x2
      refine Keeps.trans ?_ (State.setSrv_keeps _ _ _)
      exact Keeps.refl _
    clear_value x2
    clear_value x3
    extract_lets +onlyGivenNames x5
    have h6 : Keeps s x5 := by
      unfold x5
      refine Keeps.trans ?_ (State.setWick_keeps _ _ _)
      exact h4
    clear_value x5
    refine Keeps.ite ?_ ?_
    · refine Keeps.trans ?_ (State.count_keeps _ _ _ _ _ _)
      exact h6
    · exact h6
  · exact Keeps.refl _

theorem State.servoRetract_keeps (s : State) (ai : Nat) (cause : Nat) :
    Keeps s (State.servoRetract s ai cause) := by
  unfold State.servoRetract
  extract_lets +onlyGivenNames x1
  clear_value x1
  refine Keeps.ite ?_ ?_
  · exact Keeps.refl _
  · extract_lets +onlyGivenNames x2 x3 x4 x5 x6 x7 x8 x9 x10 x11
    clear_value x2
    clear_value x3
    clear_value x4
    clear_value x5
    have h12 : Keeps s x6 := by
      unfold x6
      refine Keeps.trans ?_ (State.setSrv_keeps _ _ _)
      exact Keeps.refl _
    clear_value x6
    clear_value x7
    have h13 : Keeps s x8 := by
      unfold x8
      refine Keeps.trans ?_ (State.setPa_keeps _ _ _)
      exact h12
    clear_value x8
    have h14 : Keeps s x9 := by
      unfold x9
      refine Keeps.ite ?_ ?_
      · exact h13
      · refine Keeps.trans ?_ (State.seekAnswer_keeps _ _ _)
        exact h13
    clear_value x9
    have h15 : Keeps s x10 := by
      unfold x10
      refine Keeps.trans ?_ (State.putB_keeps _ _ _ _)
      exact h14
    clear_value x10
    have h16 : Keeps s x11 := by
      unfold x11
      refine Keeps.trans ?_ (State.put_keeps _ _ _ _)
      exact h15
    clear_value x11
    extract_lets +onlyGivenNames x17
    have h18 : Keeps s x17 := by
      unfold x17
      refine Keeps.trans ?_ (State.count_keeps _ _ _ _ _ _)
      refine Keeps.trans ?_ (State.setSrvState_keeps _ _ _)
      exact h16
    clear_value x17
    refine Keeps.trans ?_ (State.wickAbort_keeps _ _ _ _)
    exact h18

theorem State.servoToOff_keeps (s : State) (ai : Nat) :
    Keeps s (State.servoToOff s ai) := by
  unfold State.servoToOff
  extract_lets +onlyGivenNames x1 x2 x3 x4
  have h5 : Keeps s x1 := by
    unfold x1
    refine Keeps.ite ?_ ?_
    · exact Keeps.refl _
    · refine Keeps.trans ?_ (State.seekAnswer_keeps _ _ _)
      exact Keeps.refl _
  clear_value x1
  clear_value x2
  have h6 : Keeps s x3 := by
    unfold x3
    refine Keeps.trans ?_ (State.setSrv_keeps _ _ _)
    exact h5
  clear_value x3
  have h7 : Keeps s x4 := by
    unfold x4
    refine Keeps.trans ?_ (State.putB_keeps _ _ _ _)
    exact h6
  clear_value x4
  extract_lets +onlyGivenNames x8
  have h9 : Keeps s x8 := by
    unfold x8
    refine Keeps.trans ?_ (State.put_keeps _ _ _ _)
    exact h7
  clear_value x8
  refine Keeps.trans ?_ (State.setSrvState_keeps _ _ _)
  extract_lets +onlyGivenNames x10
  clear_value x10
  refine Keeps.trans ?_ (State.setPa_keeps _ _ _)
  exact h9

theorem State.servoOwnerLost_keeps (s : State) (ai : Nat) :
    Keeps s (State.servoOwnerLost s ai) := by
  unfold State.servoOwnerLost
  extract_lets +onlyGivenNames x1 x2
  have h3 : Keeps s x1 := by
    unfold x1
    refine Keeps.trans ?_ (State.wickAbort_keeps _ _ _ _)
    exact Keeps.refl _
  clear_value x1
  clear_value x2
  extract_lets +onlyGivenNames x4
  have h5 : Keeps s x4 := by
    unfold x4
    refine Keeps.trans ?_ (State.setSrv_keeps _ _ _)
    exact h3
  clear_value x4
  refine Keeps.trans ?_ (State.flag_keeps _ _ _)
  extract_lets +onlyGivenNames x6
  clear_value x6
  refine Keeps.trans ?_ (State.setPa_keeps _ _ _)
  exact h5

theorem State.servoLeaveOff_keeps (s : State) (ai : Nat) :
    Keeps s (State.servoLeaveOff s ai) := by
  unfold State.servoLeaveOff
  refine Keeps.ite ?_ ?_
  · exact Keeps.refl _
  · refine Keeps.ite ?_ ?_
    · extract_lets +onlyGivenNames x1 x2
      clear_value x1
      have h3 : Keeps s x2 := by
        unfold x2
        refine Keeps.trans ?_ (State.setSrv_keeps _ _ _)
        exact Keeps.refl _
      clear_value x2
      extract_lets +onlyGivenNames x4
      have h5 : Keeps s x4 := by
        unfold x4
        refine Keeps.trans ?_ (State.put_keeps _ _ _ _)
        exact h3
      clear_value x4
      refine Keeps.trans ?_ (State.count_keeps _ _ _ _ _ _)
      refine Keeps.trans ?_ (State.setSrvState_keeps _ _ _)
      exact h5
    · extract_lets +onlyGivenNames x6
      have h7 : Keeps s x6 := by
        unfold x6
        refine Keeps.trans ?_ (State.setSrvState_keeps _ _ _)
        exact Keeps.refl _
      clear_value x6
      refine Keeps.ite ?_ ?_
      · refine Keeps.trans ?_ (State.seekAnswer_keeps _ _ _)
        exact h7
      · exact h7

theorem State.servoPark_keeps (s : State) (ai : Nat) :
    Keeps s (State.servoPark s ai) := by
  unfold State.servoPark
  extract_lets +onlyGivenNames x1
  clear_value x1
  refine Keeps.ite ?_ ?_
  · refine Keeps.trans ?_ (State.servoRetract_keeps _ _ _)
    exact Keeps.refl _
  · refine Keeps.ite ?_ ?_
    · extract_lets +onlyGivenNames x2 x3 x4 x5
      clear_value x2
      clear_value x3
      have h6 : Keeps s x4 := by
        unfold x4
        refine Keeps.ite ?_ ?_
        · exact Keeps.refl _
        · refine Keeps.trans ?_ (State.seekAnswer_keeps _ _ _)
          exact Keeps.refl _
      clear_value x4
      clear_value x5
      extract_lets +onlyGivenNames x7
      have h8 : Keeps s x7 := by
        unfold x7
        refine Keeps.trans ?_ (State.setSrv_keeps _ _ _)
        exact h6
      clear_value x7
      refine Keeps.trans ?_ (State.setSrvState_keeps _ _ _)
      refine Keeps.trans ?_ (State.putB_keeps _ _ _ _)
      exact h8
    · exact Keeps.refl _

theorem State.retractStart_keeps (s : State) (ai : Nat) :
    Keeps s (State.retractStart s ai) := by
  unfold State.retractStart
  refine Keeps.ite ?_ ?_
  · exact Keeps.refl _
  · extract_lets +onlyGivenNames x1 x2 x3
    have h4 : Keeps s x1 := by
      unfold x1
      refine Keeps.trans ?_ (State.putMaskBit_keeps _ _ _ _ _)
      exact Keeps.refl _
    clear_value x1
    have h5 : Keeps s x2 := by
      unfold x2
      refine Keeps.trans ?_ (State.satAdd_keeps _ _ _ _)
      exact h4
    clear_value x2
    have h6 : Keeps s x3 := by
      unfold x3
      refine Keeps.trans ?_ (State.vcmShow_keeps _ _)
      exact h5
    clear_value x3
    split
    · rename_i y7 y8 y9 y10
      have h11 : Keeps s y9 := by
        refine Keeps2.use ?_ y10
        refine Keeps2.trans ?_ (State.takeFree_keeps _)
        exact h6
      extract_lets +onlyGivenNames x12 x13 x14
      clear_value x12
      clear_value x13
      clear_value x14
      extract_lets +onlyGivenNames x15
      have h16 : Keeps s x15 := by
        unfold x15
        refine Keeps.trans ?_ (Keeps.upd (s := y9) rfl rfl rfl rfl)
        exact h11
      clear_value x15
      refine Keeps.trans ?_ (State.servoToOff_keeps _ _)
      refine Keeps.trans ?_ (State.wickAbort_keeps _ _ _ _)
      exact h16

theorem State.retractHda_keeps (s : State) (hd : Nat) :
    Keeps s (State.retractHda s hd) := by
  unfold State.retractHda
  refine Keeps.trans ?_ (State.retractStart_keeps _ _)
  refine Keeps.trans ?_ (State.retractStart_keeps _ _)
  exact Keeps.refl _

theorem State.retractAll_keeps (s : State) :
    Keeps s (State.retractAll s) := by
  unfold State.retractAll
  refine Keeps.foldl ?_ ?_
  · exact Keeps.refl _
  · intro a1 b2
    refine Keeps.trans ?_ (State.retractStart_keeps _ _)
    exact Keeps.refl _

theorem State.showBridge_keeps (s : State) (hd : Nat) :
    Keeps s (State.showBridge s hd) := by
  unfold State.showBridge
  extract_lets +onlyGivenNames x1
  clear_value x1
  refine Keeps.trans ?_ (State.put_keeps _ _ _ _)
  exact Keeps.refl _

theorem State.setSpnState_keeps (s : State) (hd : Nat) (st : Nat) :
    Keeps s (State.setSpnState s hd st) := by
  unfold State.setSpnState
  extract_lets +onlyGivenNames x1 x2 x3 x4
  clear_value x1
  have h5 : Keeps s x2 := by
    unfold x2
    refine Keeps.trans ?_ (State.put_keeps _ _ _ _)
    exact Keeps.refl _
  clear_value x2
  have h6 : Keeps s x3 := by
    unfold x3
    refine Keeps.trans ?_ (State.putB_keeps _ _ _ _)
    exact h5
  clear_value x3
  have h7 : Keeps s x4 := by
    unfold x4
    refine Keeps.ite ?_ ?_
    · exact h6
    · refine Keeps.trans ?_ (State.put_keeps _ _ _ _)
      exact h6
  clear_value x4
  refine Keeps.trans ?_ (State.showBridge_keeps _ _)
  exact h7

theorem State.dropTaper_keeps (s : State) (hd : Nat) :
    Keeps s (State.dropTaper s hd) := by
  unfold State.dropTaper
  extract_lets +onlyGivenNames x1
  clear_value x1
  refine Keeps.trans ?_ (Keeps.upd (s := s) rfl rfl rfl rfl)
  exact Keeps.refl _

theorem State.dropBrake_keeps (s : State) (hd : Nat) :
    Keeps s (State.dropBrake s hd) := by
  unfold State.dropBrake
  extract_lets +onlyGivenNames x1
  clear_value x1
  refine Keeps.trans ?_ (Keeps.upd (s := s) rfl rfl rfl rfl)
  exact Keeps.refl _

theorem State.spnLadder_keeps (s : State) (hd : Nat) :
    Keeps s (State.spnLadder s hd) := by
  unfold State.spnLadder
  extract_lets +onlyGivenNames x1
  clear_value x1
  refine Keeps.ite ?_ ?_
  · exact Keeps.refl _
  · extract_lets +onlyGivenNames x2 x3 x4 x5
    clear_value x2
    clear_value x3
    have h6 : Keeps s x4 := by
      unfold x4
      refine Keeps.trans ?_ (State.dropBrake_keeps _ _)
      refine Keeps.trans ?_ (State.dropTaper_keeps _ _)
      exact Keeps.refl _
    clear_value x4
    have h7 : Keeps s x5 := by
      unfold x5
      refine Keeps.trans ?_ (State.setSpn_keeps _ _ _)
      exact h6
    clear_value x5
    refine Keeps.trans ?_ (State.flag_keeps _ _ _)
    refine Keeps.trans ?_ (State.setSpnState_keeps _ _ _)
    exact h7

theorem State.lineFall_keeps (s : State) (hd : Nat) :
    Keeps s (State.lineFall s hd) := by
  unfold State.lineFall
  extract_lets +onlyGivenNames x1 x2
  have h3 : ∀ v4 v5, Keeps v4 (x1 v4 v5) := by
    intro v4 v5
    unfold x1
    extract_lets +onlyGivenNames x6 x7 x8
    clear_value x6
    clear_value x7
    have h9 : Keeps v4 x8 := by
      unfold x8
      refine Keeps.trans ?_ (State.snufTrip_keeps _ _ _ _ _)
      exact Keeps.refl _
    clear_value x8
    refine Keeps.trans ?_ (State.vcmShow_keeps _ _)
    refine Keeps.trans ?_ (State.servoOwnerLost_keeps _ _)
    exact h9
  clear_value x1
  have h10 : Keeps s x2 := by
    unfold x2
    refine Keeps.trans ?_ (h3 _ _)
    refine Keeps.trans ?_ (h3 _ _)
    exact Keeps.refl _
  clear_value x2
  refine Keeps.trans ?_ (State.putB_keeps _ _ _ _)
  refine Keeps.trans ?_ (State.spnLadder_keeps _ _)
  exact h10

theorem State.withdraw_keeps (s : State) (hd : Nat) (cause : Nat) :
    Keeps s (State.withdraw s hd cause) := by
  unfold State.withdraw
  extract_lets +onlyGivenNames x1
  clear_value x1
  refine Keeps.ite ?_ ?_
  · exact Keeps.refl _
  · extract_lets +onlyGivenNames x2 x3 x4 x5 x6 x7 x8 x9 x10
    clear_value x2
    have h11 : Keeps s x3 := by
      unfold x3
      refine Keeps.trans ?_ (State.put_keeps _ _ _ _)
      exact Keeps.refl _
    clear_value x3
    have h12 : Keeps s x4 := by
      unfold x4
      refine Keeps.trans ?_ (State.put_keeps _ _ _ _)
      exact h11
    clear_value x4
    have h13 : Keeps s x5 := by
      unfold x5
      refine Keeps.trans ?_ (State.put_keeps _ _ _ _)
      refine Keeps.trans ?_ (State.put_keeps _ _ _ _)
      refine Keeps.trans ?_ (State.put_keeps _ _ _ _)
      exact h12
    clear_value x5
    have h14 : Keeps s x6 := by
      unfold x6
      refine Keeps.trans ?_ (State.satAdd_keeps _ _ _ _)
      exact h13
    clear_value x6
    have h15 : Keeps s x7 := by
      unfold x7
      refine Keeps.trans ?_ (State.event_keeps _ _ _ _ _)
      exact h14
    clear_value x7
    have h16 : Keeps s x8 := by
      unfold x8
      refine Keeps.trans ?_ (State.mantleMsg_keeps _ _ _ _ _ _)
      exact h15
    clear_value x8
    have h17 : Keeps s x9 := by
      unfold x9
      refine Keeps.trans ?_ (State.irq_keeps _ _)
      refine Keeps.trans ?_ (State.flag_keeps _ _ _)
      exact h16
    clear_value x9
    have h18 : Keeps s x10 := by
      unfold x10
      refine Keeps.trans ?_ (State.retractHda_keeps _ _)
      exact h17
    clear_value x10
    refine Keeps.ite ?_ ?_
    · refine Keeps.trans ?_ (State.lineFall_keeps _ _)
      exact h18
    · exact h18

theorem State.mbAnswer_keeps (s : State) (h : Half) (status : Nat) (result : Nat) :
    Keeps s (State.mbAnswer s h status result) := by
  unfold State.mbAnswer
  extract_lets +onlyGivenNames x1
  clear_value x1
  split
  · rename_i y2 y3
    exact Keeps.refl _
  · rename_i y4 y5 y6
    extract_lets +onlyGivenNames x7 x8 x9
    clear_value x7
    have h10 : Keeps s x8 := by
      unfold x8
      refine Keeps.trans ?_ (State.setMh_keeps _ _ _)
      exact Keeps.refl _
    clear_value x8
    have h11 : Keeps s x9 := by
      unfold x9
      refine Keeps.trans ?_ (State.put_keeps _ _ _ _)
      refine Keeps.trans ?_ (State.put_keeps _ _ _ _)
      refine Keeps.trans ?_ (State.put_keeps _ _ _ _)
      exact h10
    clear_value x9
    refine Keeps.trans ?_ (State.irq_keeps _ _)
    refine Keeps.trans ?_ (State.flag_keeps _ _ _)
    refine Keeps.trans ?_ (State.flag_keeps _ _ _)
    exact h11

theorem State.intakeClose_keeps (s : State) :
    Keeps s (State.intakeClose s) := by
  unfold State.intakeClose
  extract_lets +onlyGivenNames x1
  clear_value x1
  extract_lets +onlyGivenNames x2
  have h3 : Keeps s x2 := by
    unfold x2
    refine Keeps.trans ?_ (Keeps.upd (s := s) rfl rfl rfl rfl)
    exact Keeps.refl _
  clear_value x2
  refine Keeps.trans ?_ (State.put_keeps _ _ _ _)
  refine Keeps.trans ?_ (State.put_keeps _ _ _ _)
  refine Keeps.trans ?_ (State.put_keeps _ _ _ _)
  exact h3

theorem State.withdrawHalf_keeps (s : State) (h : Half) (cause : Nat) :
    Keeps s (State.withdrawHalf s h cause) := by
  unfold State.withdrawHalf
  refine Keeps.foldl ?_ ?_
  · exact Keeps.refl _
  · intro a1 b2
    refine Keeps.ite ?_ ?_
    · refine Keeps.trans ?_ (State.withdraw_keeps _ _ _)
      exact Keeps.refl _
    · exact Keeps.refl _

end Sys2Proof.Machine
end

