-- ==== Sys2Proof/Laws/KeepsWear.lean ====
section
/-! SUPPORT. What `Keeps` says of every operation of Machine/Wear.lean. -/

namespace Sys2Proof.Machine

theorem State.setLamp_keeps (s : State) (h : Half) (i : Nat) (v : Lamp) :
    Keeps s (State.setLamp s h i v) := by
  unfold State.setLamp
  refine Keeps.trans ?_ (Keeps.upd (s := s) rfl rfl rfl rfl)
  exact Keeps.refl _

theorem State.setLampHist_keeps (s : State) (h : Half) (i : Nat) (es : List Nat) :
    Keeps s (State.setLampHist s h i es) := by
  unfold State.setLampHist
  refine Keeps.foldl ?_ ?_
  · exact Keeps.refl _
  · intro a1 b2
    refine Keeps.trans ?_ (State.setWord_keeps _ _ _)
    exact Keeps.refl _

theorem State.lampTotals_keeps (s : State) (h : Half) :
    Keeps s (State.lampTotals s h) := by
  unfold State.lampTotals
  extract_lets +onlyGivenNames x1 x2 x3 x4 x5 x6
  clear_value x1
  clear_value x2
  clear_value x3
  clear_value x4
  clear_value x5
  have h7 : Keeps s x6 := by
    unfold x6
    refine Keeps.trans ?_ (State.put_keeps _ _ _ _)
    refine Keeps.trans ?_ (State.put_keeps _ _ _ _)
    refine Keeps.trans ?_ (State.put_keeps _ _ _ _)
    exact Keeps.refl _
  clear_value x6
  split
  · rename_i y8 y9 y10 y11
    refine Keeps.trans ?_ (State.put_keeps _ _ _ _)
    refine Keeps.trans ?_ (State.put_keeps _ _ _ _)
    exact h7

theorem State.lampEval_keeps (s : State) (h : Half) (i : Nat) :
    Keeps s (State.lampEval s h i) := by
  unfold State.lampEval
  extract_lets +onlyGivenNames x1 x2 x3 x4 x5 x6 x7 x8 x9
  clear_value x1
  clear_value x2
  clear_value x3
  clear_value x4
  clear_value x5
  clear_value x7
  clear_value x8
  have h10 : Keeps s x9 := by
    unfold x9
    refine Keeps.trans ?_ (State.lampTotals_keeps _ _)
    refine Keeps.trans ?_ (State.put_keeps _ _ _ _)
    exact Keeps.refl _
  clear_value x9
  refine Keeps.ite ?_ ?_
  · refine Keeps.trans ?_ (State.chimney_keeps _ _ _ _ _ _)
    refine Keeps.trans ?_ (State.flag_keeps _ _ _)
    exact h10
  · exact h10

theorem State.lampTake_keeps (s : State) (h : Half) (i : Nat) (v : Int) (add : Int) :
    Keeps s (State.lampTake s h i v add) := by
  unfold State.lampTake
  refine Keeps.ite ?_ ?_
  · exact Keeps.refl _
  · extract_lets +onlyGivenNames x1 x2 x3 x4
    clear_value x1
    clear_value x2
    have h5 : Keeps s x3 := by
      unfold x3
      refine Keeps.trans ?_ (State.setLamp_keeps _ _ _ _)
      exact Keeps.refl _
    clear_value x3
    have h6 : Keeps s x4 := by
      unfold x4
      refine Keeps.trans ?_ (State.put_keeps _ _ _ _)
      refine Keeps.trans ?_ (State.put_keeps _ _ _ _)
      exact h5
    clear_value x4
    refine Keeps.trans ?_ (State.lampEval_keeps _ _ _)
    exact h6

theorem State.lampSet_keeps (s : State) (h : Half) (i : Nat) (v : Int) :
    Keeps s (State.lampSet s h i v) := by
  unfold State.lampSet
  refine Keeps.trans ?_ (State.lampTake_keeps _ _ _ _ _)
  exact Keeps.refl _

theorem State.lampMeasure_keeps (s : State) (h : Half) (i : Nat) (raw : Int) :
    Keeps s (State.lampMeasure s h i raw) := by
  unfold State.lampMeasure
  extract_lets +onlyGivenNames x1
  clear_value x1
  refine Keeps.ite ?_ ?_
  · extract_lets +onlyGivenNames x2
    clear_value x2
    refine Keeps.ite ?_ ?_
    · refine Keeps.trans ?_ (State.lampTake_keeps _ _ _ _ _)
      exact Keeps.refl _
    · refine Keeps.trans ?_ (State.lampSet_keeps _ _ _ _)
      exact Keeps.refl _
  · refine Keeps.trans ?_ (State.lampSet_keeps _ _ _ _)
    exact Keeps.refl _

theorem lampMeasurement_keeps (h : Half) (i : Nat) (raw : Int) (secs : Nat) (s : State) :
    Keeps s (lampMeasurement h i raw secs s) := by
  unfold lampMeasurement
  extract_lets +onlyGivenNames x1
  clear_value x1
  refine Keeps.ite ?_ ?_
  · exact Keeps.refl _
  · extract_lets +onlyGivenNames x2 x3
    clear_value x2
    have h4 : Keeps s x3 := by
      unfold x3
      refine Keeps.ite ?_ ?_
      · refine Keeps.trans ?_ (State.setLamp_keeps _ _ _ _)
        exact Keeps.refl _
      · exact Keeps.refl _
    clear_value x3
    refine Keeps.trans ?_ (State.lampMeasure_keeps _ _ _ _)
    exact h4

theorem execLampMeasurement_keeps (h : Half) (i : Nat) (raw : Int) (secs : Nat) (s : State) :
    OutKeeps s (execLampMeasurement h i raw secs s) := by
  unfold execLampMeasurement
  refine OutKeeps.next ?_
  refine Keeps.trans ?_ (lampMeasurement_keeps _ _ _ _ _)
  exact Keeps.refl _

theorem State.wlpFeed_keeps (s : State) (h : Half) (i : Nat) (power : Nat) :
    Keeps s (State.wlpFeed s h i power) := by
  unfold State.wlpFeed
  refine Keeps.ite ?_ ?_
  · extract_lets +onlyGivenNames x1
    clear_value x1
    refine Keeps.ite ?_ ?_
    · refine Keeps.trans ?_ (State.lampMeasure_keeps _ _ _ _)
      exact Keeps.refl _
    · split
      · rename_i y2 y3 y4 y5
        have h6 : Keeps s y4 := by
          refine Keeps2.use ?_ y5
          refine Keeps2.trans ?_ (State.takeFree_keeps _)
          exact Keeps.refl _
        refine Keeps.trans ?_ (State.lampMeasure_keeps _ _ _ _)
        exact h6
  · exact Keeps.refl _

theorem execWlpFeed_keeps (h : Half) (i : Nat) (power : Nat) (s : State) :
    OutKeeps s (execWlpFeed h i power s) := by
  unfold execWlpFeed
  refine OutKeeps.next ?_
  refine Keeps.trans ?_ (State.wlpFeed_keeps _ _ _ _)
  exact Keeps.refl _

theorem State.lampPredict_keeps (s : State) (h : Half) (i : Nat) :
    Keeps s (State.lampPredict s h i) := by
  unfold State.lampPredict
  extract_lets +onlyGivenNames x1 x2 x3 x4 x5 x6
  clear_value x1
  clear_value x2
  clear_value x3
  clear_value x4
  clear_value x5
  have h7 : Keeps s x6 := by
    unfold x6
    refine Keeps.trans ?_ (State.put_keeps _ _ _ _)
    exact Keeps.refl _
  clear_value x6
  refine Keeps.ite ?_ ?_
  · refine Keeps.trans ?_ (State.put_keeps _ _ _ _)
    refine Keeps.trans ?_ (State.put_keeps _ _ _ _)
    exact h7
  · extract_lets +onlyGivenNames x8 x9 x10 x11 x12 x13 x14 x15
    clear_value x8
    clear_value x9
    clear_value x10
    clear_value x11
    clear_value x12
    clear_value x13
    clear_value x14
    clear_value x15
    split
    · rename_i y16 y17 y18 y19
      have h20 : Keeps s y18 := by
        refine Keeps2.use ?_ y19
        refine Keeps2.trans ?_ (State.takeFree_keeps _)
        exact h7
      extract_lets +onlyGivenNames x21 x22 x23 x24 x25
      clear_value x21
      clear_value x22
      clear_value x23
      clear_value x24
      clear_value x25
      refine Keeps.trans ?_ (State.put_keeps _ _ _ _)
      refine Keeps.trans ?_ (State.put_keeps _ _ _ _)
      refine Keeps.trans ?_ (State.put_keeps _ _ _ _)
      exact h20

theorem State.lampClose_keeps (s : State) (h : Half) (i : Nat) :
    Keeps s (State.lampClose s h i) := by
  unfold State.lampClose
  extract_lets +onlyGivenNames x1 x2 x3 x4 x5 x6 x7 x8 x9
  clear_value x1
  have h10 : Keeps s x2 := by
    unfold x2
    refine Keeps.ite ?_ ?_
    · refine Keeps.trans ?_ (State.lampSet_keeps _ _ _ _)
      exact Keeps.refl _
    · exact Keeps.refl _
  clear_value x2
  clear_value x3
  clear_value x4
  clear_value x5
  have h11 : Keeps s x6 := by
    unfold x6
    refine Keeps.ite ?_ ?_
    · refine Keeps.trans ?_ (State.put_keeps _ _ _ _)
      exact h10
    · exact h10
  clear_value x6
  clear_value x7
  have h12 : Keeps s x8 := by
    unfold x8
    refine Keeps.trans ?_ (State.setLampHist_keeps _ _ _ _)
    exact h11
  clear_value x8
  have h13 : Keeps s x9 := by
    unfold x9
    refine Keeps.trans ?_ (State.setLamp_keeps _ _ _ _)
    exact h12
  clear_value x9
  refine Keeps.trans ?_ (State.lampEval_keeps _ _ _)
  refine Keeps.trans ?_ (State.lampPredict_keeps _ _ _)
  exact h13

theorem State.lampSchedule_keeps (s : State) (h : Half) :
    Keeps s (State.lampSchedule s h) := by
  unfold State.lampSchedule
  extract_lets +onlyGivenNames x1
  clear_value x1
  refine Keeps.trans ?_ (State.put_keeps _ _ _ _)
  refine Keeps.trans ?_ (Keeps.upd (s := s) rfl rfl rfl rfl)
  exact Keeps.refl _

theorem sampleIntervalClose_keeps (h : Half) (s : State) :
    Keeps s (sampleIntervalClose h s) := by
  unfold sampleIntervalClose
  refine Keeps.ite ?_ ?_
  · exact Keeps.refl _
  · refine Keeps.ite ?_ ?_
    · refine Keeps.trans ?_ (State.lampSchedule_keeps _ _)
      exact Keeps.refl _
    · refine Keeps.trans ?_ (State.lampSchedule_keeps _ _)
      refine Keeps.trans ?_ (State.flag_keeps _ _ _)
      refine Keeps.foldl ?_ ?_
      · exact Keeps.refl _
      · intro a1 b2
        refine Keeps.trans ?_ (State.lampClose_keeps _ _ _)
        exact Keeps.refl _

theorem execSampleIntervalClose_keeps (h : Half) (s : State) :
    OutKeeps s (execSampleIntervalClose h s) := by
  unfold execSampleIntervalClose
  refine OutKeeps.next ?_
  refine Keeps.trans ?_ (sampleIntervalClose_keeps _ _)
  exact Keeps.refl _

theorem State.lampsClear_keeps (s : State) (h : Half) :
    Keeps s (State.lampsClear s h) := by
  unfold State.lampsClear
  refine Keeps.trans ?_ (Keeps.upd (s := s) rfl rfl rfl rfl)
  exact Keeps.refl _

theorem State.chopEpisode_keeps (s : State) :
    Keeps s (State.chopEpisode s) := by
  unfold State.chopEpisode
  extract_lets +onlyGivenNames x1
  have h2 : ∀ v3 v4, Keeps v3 (x1 v3 v4) := by
    intro v3 v4
    unfold x1
    extract_lets +onlyGivenNames x5 x6
    clear_value x5
    have h7 : Keeps v3 x6 := by
      unfold x6
      refine Keeps.trans ?_ (State.setLamp_keeps _ _ _ _)
      exact Keeps.refl _
    clear_value x6
    refine Keeps.trans ?_ (State.lampMeasure_keeps _ _ _ _)
    exact h7
  clear_value x1
  refine Keeps.trans ?_ (h2 _ _)
  refine Keeps.trans ?_ (h2 _ _)
  exact Keeps.refl _

end Sys2Proof.Machine
end

