-- ==== Sys2Proof/Laws/KeepsBuffer.lean ====
section
/-! SUPPORT. What `Keeps` says of every operation of Machine/Buffer.lean. -/

namespace Sys2Proof.Machine

theorem State.setPoison_keeps (s : State) (h : Half) (p : Nat) (pos : Nat) (b : Bool) :
    Keeps s (State.setPoison s h p pos b) := by
  unfold State.setPoison
  refine Keeps.trans ?_ (Keeps.upd (s := s) rfl rfl rfl rfl)
  exact Keeps.refl _

theorem State.setDramWord_keeps (s : State) (h : Half) (p : Nat) (w : Nat) (bs : List Nat) :
    Keeps s (State.setDramWord s h p w bs) := by
  unfold State.setDramWord
  refine Keeps.trans ?_ (Keeps.upd (s := s) rfl rfl rfl rfl)
  exact Keeps.refl _

theorem State.bufCount_keeps (s : State) (h : Half) (ch : Nat) (i : Nat) (n : Nat) :
    Keeps s (State.bufCount s h ch i n) := by
  unfold State.bufCount
  refine Keeps.trans ?_ (State.count_keeps _ _ _ _ _ _)
  exact Keeps.refl _

theorem State.bufLog_keeps (s : State) (h : Half) (p : Nat) (pos : Nat) (kind : Nat) (dev : Nat) (cls : BufCls) :
    Keeps s (State.bufLog s h p pos kind dev cls) := by
  unfold State.bufLog
  extract_lets +onlyGivenNames x1
  clear_value x1
  split
  · rename_i y2 y3 y4 y5 y6
    split
    · rename_i y7 y8 y9 y10
      extract_lets +onlyGivenNames x11 x12 x13 x14 x15 x16
      clear_value x11
      clear_value x12
      clear_value x13
      clear_value x14
      clear_value x15
      clear_value x16
      split
      · rename_i y17 y18
        extract_lets +onlyGivenNames x19 x20
        clear_value x19
        clear_value x20
        refine Keeps.trans ?_ (State.setWord_keeps _ _ _)
        refine Keeps.trans ?_ (State.setWord_keeps _ _ _)
        exact Keeps.refl _
      · rename_i y21
        extract_lets +onlyGivenNames x22 x23 x24 x25 x26
        clear_value x22
        clear_value x23
        have h27 : Keeps s x24 := by
          unfold x24
          refine Keeps.ite ?_ ?_
          · refine Keeps.trans ?_ (State.flag_keeps _ _ _)
            exact Keeps.refl _
          · exact Keeps.refl _
        clear_value x24
        have h28 : Keeps s x25 := by
          unfold x25
          refine Keeps.trans ?_ (State.setResv_keeps _ _ _)
          exact h27
        clear_value x25
        have h29 : Keeps s x26 := by
          unfold x26
          refine Keeps.trans ?_ (State.put_keeps _ _ _ _)
          exact h28
        clear_value x26
        refine Keeps.trans ?_ (State.setWord_keeps _ _ _)
        refine Keeps.trans ?_ (State.setWord_keeps _ _ _)
        refine Keeps.trans ?_ (State.setWord_keeps _ _ _)
        refine Keeps.trans ?_ (State.setWord_keeps _ _ _)
        exact h29

theorem State.bufReport_keeps (s : State) (h : Half) (p : Nat) (pos : Nat) (kind : Nat) (dev : Nat) (cls : BufCls) :
    Keeps s (State.bufReport s h p pos kind dev cls) := by
  unfold State.bufReport
  split
  · rename_i y1 y2 y3 y4
    extract_lets +onlyGivenNames x5
    have h6 : Keeps s x5 := by
      unfold x5
      refine Keeps.trans ?_ (State.bufLog_keeps _ _ _ _ _ _ _)
      exact Keeps.refl _
    clear_value x5
    split
    · rename_i y7 y8 y9 y10 y11
      extract_lets +onlyGivenNames x12 x13
      have h14 : Keeps s x12 := by
        unfold x12
        refine Keeps.trans ?_ (State.flag_keeps _ _ _)
        refine Keeps.trans ?_ (State.flag_keeps _ _ _)
        exact h6
      clear_value x12
      clear_value x13
      extract_lets +onlyGivenNames x15
      have h16 : Keeps s x15 := by
        unfold x15
        refine Keeps.ite ?_ ?_
        · refine Keeps.trans ?_ (State.setLamp_keeps _ _ _ _)
          exact h14
        · exact h14
      clear_value x15
      refine Keeps.trans ?_ (State.chimney_keeps _ _ _ _ _ _)
      exact h16

theorem State.wordBack_keeps (s : State) (h : Half) (p : Nat) (pos : Nat) (bs : List Nat) :
    Keeps s (State.wordBack s h p pos bs) := by
  unfold State.wordBack
  extract_lets +onlyGivenNames x1
  have h2 : Keeps s x1 := by
    unfold x1
    refine Keeps.ite ?_ ?_
    · refine Keeps.trans ?_ (State.setDramWord_keeps _ _ _ _ _)
      exact Keeps.refl _
    · exact Keeps.refl _
  clear_value x1
  refine Keeps.trans ?_ (State.bufCount_keeps _ _ _ _ _)
  exact h2

theorem State.bufWord_keeps (s : State) (h : Half) (cls : BufCls) (p : Nat) (w : Nat) (errs : List WordErr) :
    Keeps1 s (State.bufWord s h cls p w errs) := by
  unfold State.bufWord
  refine Keeps1.ite ?_ ?_
  · refine Keeps1.mk ?_
    exact Keeps.refl _
  · split
    · rename_i y1 y2 y3 y4
      extract_lets +onlyGivenNames x5
      clear_value x5
      split
      · rename_i y6 y7 y8 y9
        split
        · rename_i y10
          refine Keeps1.mk ?_
          exact Keeps.refl _
        · rename_i y11 y12
          extract_lets +onlyGivenNames x13
          have h14 : Keeps s x13 := by
            unfold x13
            refine Keeps.trans ?_ (State.bufReport_keeps _ _ _ _ _ _ _)
            refine Keeps.trans ?_ (State.bufCount_keeps _ _ _ _ _)
            exact Keeps.refl _
          clear_value x13
          refine Keeps1.mk ?_
          refine Keeps.ite ?_ ?_
          · refine Keeps.trans ?_ (State.wordBack_keeps _ _ _ _ _)
            exact h14
          · exact h14
        · rename_i y15
          refine Keeps1.mk ?_
          refine Keeps.trans ?_ (State.bufReport_keeps _ _ _ _ _ _ _)
          refine Keeps.trans ?_ (State.bufCount_keeps _ _ _ _ _)
          exact Keeps.refl _
        · rename_i y16
          split
          · rename_i y17 y18 y19
            extract_lets +onlyGivenNames x20
            have h21 : Keeps s x20 := by
              unfold x20
              refine Keeps.trans ?_ (State.bufReport_keeps _ _ _ _ _ _ _)
              refine Keeps.trans ?_ (State.bufCount_keeps _ _ _ _ _)
              exact Keeps.refl _
            clear_value x20
            refine Keeps1.mk ?_
            refine Keeps.ite ?_ ?_
            · refine Keeps.trans ?_ (State.wordBack_keeps _ _ _ _ _)
              exact h21
            · exact h21
          · rename_i y22 y23
            refine Keeps1.mk ?_
            refine Keeps.trans ?_ (State.bufReport_keeps _ _ _ _ _ _ _)
            refine Keeps.trans ?_ (State.bufCount_keeps _ _ _ _ _)
            exact Keeps.refl _

theorem State.bufReadPage_keeps (s : State) (h : Half) (cls : BufCls) (ha : Nat) (len : Nat) (errs : List WordErr) :
    Keeps1 s (State.bufReadPage s h cls ha len errs) := by
  unfold State.bufReadPage
  extract_lets +onlyGivenNames x1 x2
  clear_value x1
  clear_value x2
  refine Keeps1.foldl ?_ ?_
  · refine Keeps1.mk ?_
    exact Keeps.refl _
  · intro a3 a3' b4
    dsimp (zeta := false) only
    extract_lets +onlyGivenNames x5 x6 x7 x8
    clear_value x5
    clear_value x6
    clear_value x7
    clear_value x8
    refine Keeps1.ite ?_ ?_
    · refine Keeps1.mk ?_
      exact Keeps.refl _
    · extract_lets +onlyGivenNames x9
      clear_value x9
      refine Keeps1.mk ?_
      refine Keeps1.fst ?_
      refine Keeps1.trans ?_ (State.bufWord_keeps _ _ _ _ _ _)
      exact Keeps.refl _

theorem State.partCheck_keeps (s : State) (h : Half) :
    Keeps s (State.partCheck s h) := by
  unfold State.partCheck
  extract_lets +onlyGivenNames x1 x2 x3 x4 x5 x6
  clear_value x1
  clear_value x2
  clear_value x3
  clear_value x4
  have h7 : Keeps s x5 := by
    unfold x5
    refine Keeps.ite ?_ ?_
    · refine Keeps.trans ?_ (State.flag_keeps _ _ _)
      exact Keeps.refl _
    · exact Keeps.refl _
  clear_value x5
  have h8 : Keeps s x6 := by
    unfold x6
    refine Keeps.trans ?_ (State.putB_keeps _ _ _ _)
    exact h7
  clear_value x6
  split
  · rename_i y9 y10 y11 y12
    extract_lets +onlyGivenNames x13 x14
    clear_value x13
    clear_value x14
    refine Keeps.ite ?_ ?_
    · refine Keeps.trans ?_ (State.flag_keeps _ _ _)
      exact h8
    · exact h8

theorem State.bufShow_keeps (s : State) (h : Half) :
    Keeps s (State.bufShow s h) := by
  unfold State.bufShow
  extract_lets +onlyGivenNames x1 x2 x3 x4
  clear_value x1
  clear_value x2
  have h5 : Keeps s x3 := by
    unfold x3
    refine Keeps.trans ?_ (State.put_keeps _ _ _ _)
    refine Keeps.trans ?_ (State.put_keeps _ _ _ _)
    exact Keeps.refl _
  clear_value x3
  have h6 : Keeps s x4 := by
    unfold x4
    refine Keeps.trans ?_ (State.putB_keeps _ _ _ _)
    exact h5
  clear_value x4
  refine Keeps.trans ?_ (State.showTouched_keeps _ _)
  refine Keeps.trans ?_ (State.put_keeps _ _ _ _)
  exact h6

theorem State.mergeDrop_keeps (s : State) (h : Half) (p : Nat) :
    Keeps s (State.mergeDrop s h p) := by
  unfold State.mergeDrop
  extract_lets +onlyGivenNames x1 x2
  clear_value x1
  have h3 : Keeps s x2 := by
    unfold x2
    refine Keeps.trans ?_ (Keeps.upd (s := s) rfl rfl rfl rfl)
    exact Keeps.refl _
  clear_value x2
  refine Keeps.trans ?_ (State.setResv_keeps _ _ _)
  exact h3

theorem State.mergeFlush_keeps (s : State) (h : Half) (p : Nat) (errs : List WordErr) :
    Keeps s (State.mergeFlush s h p errs) := by
  unfold State.mergeFlush
  refine Keeps.ite ?_ ?_
  · exact Keeps.refl _
  · extract_lets +onlyGivenNames x1 x2 x3 x4 x5 x6 x7 x8 x9 x10 x11 x12
    clear_value x1
    clear_value x2
    clear_value x3
    clear_value x4
    clear_value x5
    clear_value x6
    clear_value x7
    clear_value x8
    clear_value x9
    have h13 : Keeps s x10 := by
      unfold x10
      exact Keeps.refl _
    clear_value x10
    clear_value x11
    clear_value x12
    split
    · rename_i y14 y15 y16 y17
      have h18 : Keeps s y15 := by
        refine Keeps1.use ?_ y17
        refine Keeps1.foldl ?_ ?_
        · refine Keeps1.mk ?_
          exact Keeps.refl _
        · intro a19 a19' b20
          split
          · rename_i y21 y22 y23 y24 y25
            have h26 : Keeps a19 y22 := by
              refine Keeps1.use ?_ y25
              refine Keeps1.trans ?_ (State.bufWord_keeps _ _ _ _ _ _)
              dsimp (zeta := false) only
              exact Keeps.refl _
            refine Keeps1.mk ?_
            exact h26
      extract_lets +onlyGivenNames x27 x28 x29 x30
      have h31 : Keeps s x27 := by
        unfold x27
        refine Keeps.foldl ?_ ?_
        · exact h18
        · intro a32 b33
          refine Keeps.trans ?_ (State.setPoison_keeps _ _ _ _ _)
          refine Keeps.trans ?_ (State.setDramWord_keeps _ _ _ _ _)
          exact Keeps.refl _
      clear_value x27
      have h34 : Keeps s x28 := by
        unfold x28
        refine Keeps.foldl ?_ ?_
        · exact h31
        · intro a35 b36
          split
          · rename_i y37 y38 y39 y40
            extract_lets +onlyGivenNames x41
            have h42 : Keeps a35 x41 := by
              unfold x41
              refine Keeps.ite ?_ ?_
              · refine Keeps.trans ?_ (State.setDramWord_keeps _ _ _ _ _)
                exact Keeps.refl _
              · refine Keeps.ite ?_ ?_
                · exact Keeps.refl _
                · refine Keeps.trans ?_ (State.setDramWord_keeps _ _ _ _ _)
                  exact Keeps.refl _
            clear_value x41
            refine Keeps.ite ?_ ?_
            · exact h42
            · refine Keeps.trans ?_ (State.setPoison_keeps _ _ _ _ _)
              exact h42
      clear_value x28
      have h43 : Keeps s x29 := by
        unfold x29
        refine Keeps.ite ?_ ?_
        · refine Keeps.trans ?_ (Keeps.upd (s := x28) rfl rfl rfl rfl)
          exact h34
        · exact h34
      clear_value x29
      have h44 : Keeps s x30 := by
        unfold x30
        refine Keeps.trans ?_ (State.bufCount_keeps _ _ _ _ _)
        exact h43
      clear_value x30
      refine Keeps.trans ?_ (State.bufShow_keeps _ _)
      refine Keeps.trans ?_ (State.mergeDrop_keeps _ _ _)
      exact h44

theorem State.mergeWrite_keeps (s : State) (h : Half) (ha : Nat) (bs : List Byte) (errs : List WordErr) :
    Keeps s (State.mergeWrite s h ha bs errs) := by
  unfold State.mergeWrite
  extract_lets +onlyGivenNames x1 x2 x3 x4 x5 x6
  clear_value x1
  clear_value x2
  have h7 : Keeps s x3 := by
    unfold x3
    refine Keeps.ite ?_ ?_
    · refine Keeps.trans ?_ (State.mergeFlush_keeps _ _ _ _)
      exact Keeps.refl _
    · exact Keeps.refl _
  clear_value x3
  clear_value x4
  have h8 : Keeps s x5 := by
    unfold x5
    refine Keeps.trans ?_ (State.setResv_keeps _ _ _)
    exact h7
  clear_value x5
  have h9 : Keeps s x6 := by
    unfold x6
    refine Keeps.trans ?_ (Keeps.upd (s := x5) rfl rfl rfl rfl)
    exact h8
  clear_value x6
  refine Keeps.ite ?_ ?_
  · refine Keeps.trans ?_ (State.mergeFlush_keeps _ _ _ _)
    exact h9
  · refine Keeps.trans ?_ (State.bufShow_keeps _ _)
    exact h9

theorem State.pageWrite_keeps (s : State) (h : Half) (p : Nat) (bs : List Byte) :
    Keeps s (State.pageWrite s h p bs) := by
  unfold State.pageWrite
  extract_lets +onlyGivenNames x1 x2 x3
  have h4 : Keeps s x1 := by
    unfold x1
    refine Keeps.trans ?_ (State.mergeDrop_keeps _ _ _)
    exact Keeps.refl _
  clear_value x1
  clear_value x2
  have h5 : Keeps s x3 := by
    unfold x3
    refine Keeps.trans ?_ (Keeps.upd (s := x1) rfl rfl rfl rfl)
    exact h4
  clear_value x3
  refine Keeps.trans ?_ (State.bufShow_keeps _ _)
  exact h5

theorem State.answer_keeps (s : State) (h : Half) (r : CReq) (bs : List Byte) (c : BufCause) :
    Keeps s (State.answer s h r bs c) := by
  unfold State.answer
  refine Keeps.trans ?_ (Keeps.upd (s := s) rfl rfl rfl rfl)
  exact Keeps.refl _

theorem State.answerUe_keeps (s : State) (h : Half) (r : CReq) (bs : List Byte) (c : BufCause) :
    Keeps s (State.answerUe s h r bs c) := by
  unfold State.answerUe
  extract_lets +onlyGivenNames x1 x2
  clear_value x1
  have h3 : Keeps s x2 := by
    unfold x2
    refine Keeps.ite ?_ ?_
    · refine Keeps.trans ?_ (State.chimney_keeps _ _ _ _ _ _)
      exact Keeps.refl _
    · exact Keeps.refl _
  clear_value x2
  refine Keeps.trans ?_ (State.answer_keeps _ _ _ _ _)
  exact h3

theorem State.bufPiece_keeps (s : State) (h : Half) (r : CReq) :
    Keeps s (State.bufPiece s h r) := by
  unfold State.bufPiece
  extract_lets +onlyGivenNames x1
  clear_value x1
  refine Keeps.ite ?_ ?_
  · refine Keeps.trans ?_ (State.answerUe_keeps _ _ _ _ _)
    exact Keeps.refl _
  · extract_lets +onlyGivenNames x2 x3
    clear_value x2
    clear_value x3
    refine Keeps.ite ?_ ?_
    · refine Keeps.trans ?_ (State.bufShow_keeps _ _)
      refine Keeps.trans ?_ (State.setResv_keeps _ _ _)
      exact Keeps.refl _
    · refine Keeps.ite ?_ ?_
      · split
        · rename_i y4 y5 y6 y7 y8
          have h9 : Keeps s y5 := by
            refine Keeps1.use ?_ y8
            refine Keeps1.trans ?_ (State.bufReadPage_keeps _ _ _ _ _ _)
            exact Keeps.refl _
          refine Keeps.trans ?_ (State.answerUe_keeps _ _ _ _ _)
          exact h9
      · refine Keeps.ite ?_ ?_
        · extract_lets +onlyGivenNames x10 x11
          have h12 : Keeps s x10 := by
            unfold x10
            refine Keeps.trans ?_ (State.setResv_keeps _ _ _)
            exact Keeps.refl _
          clear_value x10
          have h13 : Keeps s x11 := by
            unfold x11
            refine Keeps.foldl ?_ ?_
            · exact h12
            · intro a14 b15
              refine Keeps.trans ?_ (State.pageWrite_keeps _ _ _ _)
              exact Keeps.refl _
          clear_value x11
          refine Keeps.trans ?_ (State.answer_keeps _ _ _ _ _)
          exact h13
        · refine Keeps.ite ?_ ?_
          · refine Keeps.trans ?_ (State.bufShow_keeps _ _)
            refine Keeps.trans ?_ (State.setResv_keeps _ _ _)
            exact Keeps.refl _
          · refine Keeps.ite ?_ ?_
            · refine Keeps.trans ?_ (State.answer_keeps _ _ _ _ _)
              refine Keeps.trans ?_ (State.pageWrite_keeps _ _ _ _)
              exact Keeps.refl _
            · refine Keeps.trans ?_ (State.answer_keeps _ _ _ _ _)
              refine Keeps.trans ?_ (State.mergeWrite_keeps _ _ _ _ _)
              exact Keeps.refl _

theorem State.bufSubmit_keeps (s : State) (h : Half) (r : CReq) :
    Keeps s (State.bufSubmit s h r) := by
  unfold State.bufSubmit
  refine Keeps.foldl ?_ ?_
  · exact Keeps.refl _
  · intro a1 b2
    split
    · rename_i y3 y4 y5
      refine Keeps.trans ?_ (State.bufPiece_keeps _ _ _)
      exact Keeps.refl _

theorem State.bufRerun_keeps (s : State) (h : Half) :
    Keeps s (State.bufRerun s h) := by
  unfold State.bufRerun
  extract_lets +onlyGivenNames x1
  clear_value x1
  refine Keeps.trans ?_ (State.bufShow_keeps _ _)
  refine Keeps.foldl ?_ ?_
  · refine Keeps.trans ?_ (State.setResv_keeps _ _ _)
    exact Keeps.refl _
  · intro a2 b3
    refine Keeps.trans ?_ (State.bufPiece_keeps _ _ _)
    exact Keeps.refl _

theorem State.bufOffline_keeps (s : State) (h : Half) :
    Keeps s (State.bufOffline s h) := by
  unfold State.bufOffline
  refine Keeps.trans ?_ (State.flag_keeps _ _ _)
  refine Keeps.trans ?_ (State.put_keeps _ _ _ _)
  exact Keeps.refl _

theorem dimmIdentify_keeps (h : Half) (dimms : List (Option DimmInfo)) (s : State) :
    Keeps s (dimmIdentify h dimms s) := by
  unfold dimmIdentify
  refine Keeps.ite ?_ ?_
  · exact Keeps.refl _
  · extract_lets +onlyGivenNames x1 x2 x3 x4
    have h5 : Keeps s x1 := by
      unfold x1
      refine Keeps.trans ?_ (State.put_keeps _ _ _ _)
      exact Keeps.refl _
    clear_value x1
    have h6 : Keeps s x2 := by
      unfold x2
      refine Keeps.foldl ?_ ?_
      · exact h5
      · intro a7 b8
        extract_lets +onlyGivenNames x9
        clear_value x9
        split
        · rename_i y10 y11
          exact Keeps.refl _
        · rename_i y12 y13 y14
          extract_lets +onlyGivenNames x15 x16
          have h17 : Keeps a7 x15 := by
            unfold x15
            refine Keeps.trans ?_ (State.put_keeps _ _ _ _)
            refine Keeps.trans ?_ (State.putB_keeps _ _ _ _)
            refine Keeps.trans ?_ (State.put_keeps _ _ _ _)
            refine Keeps.trans ?_ (State.flag_keeps _ _ _)
            exact Keeps.refl _
          clear_value x15
          have h18 : Keeps a7 x16 := by
            unfold x16
            refine Keeps.trans ?_ (State.put_keeps _ _ _ _)
            exact h17
          clear_value x16
          refine Keeps.ite ?_ ?_
          · extract_lets +onlyGivenNames x19
            clear_value x19
            refine Keeps.trans ?_ (Keeps.upd (s := x16) rfl rfl rfl rfl)
            exact h18
          · exact h18
    clear_value x2
    clear_value x3
    clear_value x4
    refine Keeps.ite ?_ ?_
    · extract_lets +onlyGivenNames x20 x21
      clear_value x20
      have h22 : Keeps s x21 := by
        unfold x21
        refine Keeps.trans ?_ (State.put_keeps _ _ _ _)
        exact h6
      clear_value x21
      refine Keeps.trans ?_ (State.partCheck_keeps _ _)
      extract_lets +onlyGivenNames x23
      clear_value x23
      refine Keeps.trans ?_ (State.setResv_keeps _ _ _)
      exact h22
    · refine Keeps.trans ?_ (State.bufOffline_keeps _ _)
      exact h6

theorem execDimmIdentify_keeps (h : Half) (dimms : List (Option DimmInfo)) (s : State) :
    OutKeeps s (execDimmIdentify h dimms s) := by
  unfold execDimmIdentify
  refine OutKeeps.next ?_
  refine Keeps.trans ?_ (dimmIdentify_keeps _ _ _)
  exact Keeps.refl _

theorem pmicPowerGood_keeps (h : Half) (s : State) :
    Keeps s (pmicPowerGood h s) := by
  unfold pmicPowerGood
  extract_lets +onlyGivenNames x1
  clear_value x1
  refine Keeps.ite ?_ ?_
  · exact Keeps.refl _
  · extract_lets +onlyGivenNames x2 x3
    clear_value x2
    clear_value x3
    extract_lets +onlyGivenNames x4
    have h5 : Keeps s x4 := by
      unfold x4
      refine Keeps.trans ?_ (State.setResv_keeps _ _ _)
      exact Keeps.refl _
    clear_value x4
    refine Keeps.trans ?_ (State.put_keeps _ _ _ _)
    refine Keeps.trans ?_ (State.put_keeps _ _ _ _)
    exact h5

theorem execPmicPowerGood_keeps (h : Half) (s : State) :
    OutKeeps s (execPmicPowerGood h s) := by
  unfold execPmicPowerGood
  refine OutKeeps.next ?_
  refine Keeps.trans ?_ (pmicPowerGood_keeps _ _)
  exact Keeps.refl _

theorem trainingAttemptEnd_keeps (h : Half) (failed : List Nat) (s : State) :
    Keeps s (trainingAttemptEnd h failed s) := by
  unfold trainingAttemptEnd
  extract_lets +onlyGivenNames x1
  clear_value x1
  refine Keeps.ite ?_ ?_
  · exact Keeps.refl _
  · extract_lets +onlyGivenNames x2
    clear_value x2
    split
    · rename_i y3 y4
      extract_lets +onlyGivenNames x5
      have h6 : Keeps s x5 := by
        unfold x5
        refine Keeps.foldl ?_ ?_
        · exact Keeps.refl _
        · intro a7 b8
          refine Keeps.trans ?_ (State.put_keeps _ _ _ _)
          refine Keeps.trans ?_ (State.flag_keeps _ _ _)
          exact Keeps.refl _
      clear_value x5
      refine Keeps.trans ?_ (State.put_keeps _ _ _ _)
      refine Keeps.trans ?_ (State.put_keeps _ _ _ _)
      exact h6
    · rename_i y9 y10 y11
      refine Keeps.ite ?_ ?_
      · extract_lets +onlyGivenNames x12
        clear_value x12
        extract_lets +onlyGivenNames x13
        have h14 : Keeps s x13 := by
          unfold x13
          refine Keeps.trans ?_ (State.put_keeps _ _ _ _)
          refine Keeps.trans ?_ (State.setResv_keeps _ _ _)
          exact Keeps.refl _
        clear_value x13
        refine Keeps.trans ?_ (State.chimney_keeps _ _ _ _ _ _)
        refine Keeps.trans ?_ (State.flag_keeps _ _ _)
        exact h14
      · extract_lets +onlyGivenNames x15
        have h16 : Keeps s x15 := by
          unfold x15
          refine Keeps.foldl ?_ ?_
          · exact Keeps.refl _
          · intro a17 b18
            refine Keeps.ite ?_ ?_
            · refine Keeps.trans ?_ (State.flag_keeps _ _ _)
              exact Keeps.refl _
            · exact Keeps.refl _
        clear_value x15
        refine Keeps.trans ?_ (State.chimney_keeps _ _ _ _ _ _)
        refine Keeps.trans ?_ (State.bufOffline_keeps _ _)
        exact h16

theorem execTrainingAttemptEnd_keeps (h : Half) (failed : List Nat) (s : State) :
    OutKeeps s (execTrainingAttemptEnd h failed s) := by
  unfold execTrainingAttemptEnd
  refine OutKeeps.next ?_
  refine Keeps.trans ?_ (trainingAttemptEnd_keeps _ _ _)
  exact Keeps.refl _

theorem dimmTempRead_keeps (h : Half) (n : Nat) (temp : Nat) (s : State) :
    Keeps s (dimmTempRead h n temp s) := by
  unfold dimmTempRead
  extract_lets +onlyGivenNames x1
  clear_value x1
  refine Keeps.ite ?_ ?_
  · exact Keeps.refl _
  · extract_lets +onlyGivenNames x2 x3 x4
    clear_value x2
    have h5 : Keeps s x3 := by
      unfold x3
      refine Keeps.trans ?_ (State.peak_keeps _ _ _ _)
      refine Keeps.trans ?_ (State.put_keeps _ _ _ _)
      exact Keeps.refl _
    clear_value x3
    clear_value x4
    refine Keeps.ite ?_ ?_
    · refine Keeps.trans ?_ (State.flag_keeps _ _ _)
      refine Keeps.trans ?_ (State.flag_keeps _ _ _)
      exact h5
    · refine Keeps.ite ?_ ?_
      · refine Keeps.trans ?_ (State.put_keeps _ _ _ _)
        exact h5
      · exact h5

theorem execDimmTempRead_keeps (h : Half) (n : Nat) (temp : Nat) (s : State) :
    OutKeeps s (execDimmTempRead h n temp s) := by
  unfold execDimmTempRead
  refine OutKeeps.next ?_
  refine Keeps.trans ?_ (dimmTempRead_keeps _ _ _ _)
  exact Keeps.refl _

theorem State.bitmapError_keeps (s : State) (h : Half) (ha : Nat) :
    Keeps s (State.bitmapError s h ha) := by
  unfold State.bitmapError
  extract_lets +onlyGivenNames x1 x2 x3 x4 x5
  clear_value x1
  clear_value x2
  clear_value x3
  have h6 : Keeps s x4 := by
    unfold x4
    refine Keeps.trans ?_ (Keeps.upd (s := s) rfl rfl rfl rfl)
    exact Keeps.refl _
  clear_value x4
  have h7 : Keeps s x5 := by
    unfold x5
    refine Keeps.trans ?_ (State.setResv_keeps _ _ _)
    exact h6
  clear_value x5
  refine Keeps.trans ?_ (State.showTouched_keeps _ _)
  refine Keeps.trans ?_ (State.chimney_keeps _ _ _ _ _ _)
  refine Keeps.trans ?_ (State.flag_keeps _ _ _)
  exact h7

theorem bufferRead_keeps (h : Half) (cls : BufCls) (ha : Nat) (len : Nat) (errs : List WordErr) (bitmap : Bool)
    (s : State) :
    Keeps s (bufferRead h cls ha len errs bitmap s) := by
  unfold bufferRead
  refine Keeps.ite ?_ ?_
  · exact Keeps.refl _
  · extract_lets +onlyGivenNames x1 x2 x3
    have h4 : Keeps s x1 := by
      unfold x1
      refine Keeps.trans ?_ (State.demand_keeps _ _ _)
      exact Keeps.refl _
    clear_value x1
    have h5 : Keeps s x2 := by
      unfold x2
      refine Keeps.trans ?_ (Keeps.upd (s := x1) rfl rfl rfl rfl)
      exact h4
    clear_value x2
    have h6 : Keeps s x3 := by
      unfold x3
      refine Keeps.ite ?_ ?_
      · refine Keeps.trans ?_ (State.bitmapError_keeps _ _ _)
        exact h5
      · exact h5
    clear_value x3
    refine Keeps.trans ?_ (State.bufSubmit_keeps _ _ _)
    exact h6

theorem execBufferRead_keeps (h : Half) (cls : BufCls) (ha : Nat) (len : Nat) (errs : List WordErr)
    (bitmap : Bool) (s : State) :
    OutKeeps s (execBufferRead h cls ha len errs bitmap s) := by
  unfold execBufferRead
  refine OutKeeps.next ?_
  refine Keeps.trans ?_ (bufferRead_keeps _ _ _ _ _ _ _)
  exact Keeps.refl _

theorem bufferWrite_keeps (h : Half) (cls : BufCls) (ha : Nat) (bytes : List Byte) (errs : List WordErr) (s : State) :
    Keeps s (bufferWrite h cls ha bytes errs s) := by
  unfold bufferWrite
  refine Keeps.ite ?_ ?_
  · exact Keeps.refl _
  · extract_lets +onlyGivenNames x1
    have h2 : Keeps s x1 := by
      unfold x1
      refine Keeps.trans ?_ (State.demand_keeps _ _ _)
      exact Keeps.refl _
    clear_value x1
    refine Keeps.trans ?_ (State.bufSubmit_keeps _ _ _)
    refine Keeps.trans ?_ (Keeps.upd (s := x1) rfl rfl rfl rfl)
    exact h2

theorem execBufferWrite_keeps (h : Half) (cls : BufCls) (ha : Nat) (bytes : List Byte) (errs : List WordErr)
    (s : State) :
    OutKeeps s (execBufferWrite h cls ha bytes errs s) := by
  unfold execBufferWrite
  refine OutKeeps.next ?_
  refine Keeps.trans ?_ (bufferWrite_keeps _ _ _ _ _ _)
  exact Keeps.refl _

theorem State.regionZero_keeps (s : State) (h : Half) (r : Nat) :
    Keeps s (State.regionZero s h r) := by
  unfold State.regionZero
  extract_lets +onlyGivenNames x1
  clear_value x1
  refine Keeps.trans ?_ (Keeps.upd (s := s) rfl rfl rfl rfl)
  exact Keeps.refl _

theorem State.zeroFillDone_keeps (s : State) (h : Half) (r : Nat) :
    Keeps s (State.zeroFillDone s h r) := by
  unfold State.zeroFillDone
  extract_lets +onlyGivenNames x1
  clear_value x1
  refine Keeps.ite ?_ ?_
  · exact Keeps.refl _
  · extract_lets +onlyGivenNames x2 x3
    have h4 : Keeps s x2 := by
      unfold x2
      refine Keeps.trans ?_ (State.regionZero_keeps _ _ _)
      exact Keeps.refl _
    clear_value x2
    have h5 : Keeps s x3 := by
      unfold x3
      refine Keeps.trans ?_ (State.setResv_keeps _ _ _)
      exact h4
    clear_value x3
    refine Keeps.trans ?_ (State.bufRerun_keeps _ _)
    refine Keeps.foldl ?_ ?_
    · exact h5
    · intro a6 b7
      refine Keeps.trans ?_ (State.bufCount_keeps _ _ _ _ _)
      exact Keeps.refl _

theorem execZeroFillDone_keeps (h : Half) (region : Nat) (s : State) :
    OutKeeps s (execZeroFillDone h region s) := by
  unfold execZeroFillDone
  refine OutKeeps.next ?_
  refine Keeps.trans ?_ (State.zeroFillDone_keeps _ _ _)
  refine Keeps.trans ?_ (Keeps.upd (s := s) rfl rfl rfl rfl)
  exact Keeps.refl _

theorem execMergeFlush_keeps (h : Half) (page : Nat) (idle : Nat) (errs : List WordErr) (s : State) :
    OutKeeps s (execMergeFlush h page idle errs s) := by
  unfold execMergeFlush
  refine OutKeeps.next ?_
  refine Keeps.ite ?_ ?_
  · refine Keeps.trans ?_ (State.mergeFlush_keeps _ _ _ _)
    exact Keeps.refl _
  · exact Keeps.refl _

theorem State.scrubPage_keeps (s : State) (h : Half) (p : Nat) (errs : List WordErr) :
    Keeps s (State.scrubPage s h p errs) := by
  unfold State.scrubPage
  extract_lets +onlyGivenNames x1 x2 x3 x4 x5
  have h6 : Keeps s x1 := by
    unfold x1
    refine Keeps.trans ?_ (State.mergeFlush_keeps _ _ _ _)
    exact Keeps.refl _
  clear_value x1
  clear_value x2
  clear_value x3
  clear_value x4
  have h7 : Keeps s x5 := by
    unfold x5
    refine Keeps.foldl ?_ ?_
    · exact h6
    · intro a8 b9
      split
      · rename_i y10 y11 y12 y13
        split
        · rename_i y14 y15 y16 y17
          split
          · rename_i y18
            exact Keeps.refl _
          · rename_i y19 y20
            refine Keeps.trans ?_ (State.wordBack_keeps _ _ _ _ _)
            refine Keeps.trans ?_ (State.bufReport_keeps _ _ _ _ _ _ _)
            refine Keeps.trans ?_ (State.bufCount_keeps _ _ _ _ _)
            exact Keeps.refl _
          · rename_i y21
            refine Keeps.trans ?_ (State.bufReport_keeps _ _ _ _ _ _ _)
            refine Keeps.trans ?_ (State.bufCount_keeps _ _ _ _ _)
            exact Keeps.refl _
          · rename_i y22
            split
            · rename_i y23 y24 y25
              refine Keeps.trans ?_ (State.wordBack_keeps _ _ _ _ _)
              refine Keeps.trans ?_ (State.bufReport_keeps _ _ _ _ _ _ _)
              refine Keeps.trans ?_ (State.bufCount_keeps _ _ _ _ _)
              exact Keeps.refl _
            · rename_i y26
              refine Keeps.trans ?_ (State.bufReport_keeps _ _ _ _ _ _ _)
              refine Keeps.trans ?_ (State.bufCount_keeps _ _ _ _ _)
              exact Keeps.refl _
  clear_value x5
  refine Keeps.ite ?_ ?_
  · exact h7
  · split
    · rename_i y27 y28 y29
      refine Keeps.trans ?_ (State.wordBack_keeps _ _ _ _ _)
      refine Keeps.trans ?_ (State.bufReport_keeps _ _ _ _ _ _ _)
      refine Keeps.trans ?_ (State.bufCount_keeps _ _ _ _ _)
      exact h7
    · rename_i y30 y31
      exact h7
    · rename_i y32
      refine Keeps.trans ?_ (State.bufReport_keeps _ _ _ _ _ _ _)
      refine Keeps.trans ?_ (State.bufCount_keeps _ _ _ _ _)
      exact h7

theorem scrubStep_keeps (h : Half) (ch : Nat) (us : Nat) (errs : List WordErr) (s : State) :
    Keeps s (scrubStep h ch us errs s) := by
  unfold scrubStep
  extract_lets +onlyGivenNames x1
  clear_value x1
  refine Keeps.ite ?_ ?_
  · exact Keeps.refl _
  · extract_lets +onlyGivenNames x2 x3 x4 x5 x6
    have h7 : Keeps s x2 := by
      unfold x2
      refine Keeps.trans ?_ (State.demand_keeps _ _ _)
      exact Keeps.refl _
    clear_value x2
    clear_value x3
    clear_value x4
    clear_value x5
    clear_value x6
    refine Keeps.ite ?_ ?_
    · exact h7
    · extract_lets +onlyGivenNames x8
      have h9 : Keeps s x8 := by
        unfold x8
        refine Keeps.ite ?_ ?_
        · refine Keeps.trans ?_ (State.scrubPage_keeps _ _ _ _)
          exact h7
        · exact h7
      clear_value x8
      refine Keeps.ite ?_ ?_
      · exact h9
      · refine Keeps.ite ?_ ?_
        · refine Keeps.trans ?_ (State.flag_keeps _ _ _)
          refine Keeps.trans ?_ (State.satAdd_keeps _ _ _ _)
          refine Keeps.trans ?_ (State.put_keeps _ _ _ _)
          exact h9
        · refine Keeps.trans ?_ (State.put_keeps _ _ _ _)
          exact h9

theorem execScrubStep_keeps (h : Half) (ch : Nat) (us : Nat) (errs : List WordErr) (s : State) :
    OutKeeps s (execScrubStep h ch us errs s) := by
  unfold execScrubStep
  refine OutKeeps.next ?_
  refine Keeps.trans ?_ (scrubStep_keeps _ _ _ _ _)
  exact Keeps.refl _

theorem State.setRemap_keeps (s : State) (h : Half) (k : Nat) (frm : Nat) (copying : Bool) :
    Keeps s (State.setRemap s h k frm copying) := by
  unfold State.setRemap
  extract_lets +onlyGivenNames x1
  clear_value x1
  refine Keeps.trans ?_ (State.setWord_keeps _ _ _)
  refine Keeps.trans ?_ (State.setWord_keeps _ _ _)
  exact Keeps.refl _

theorem State.retireReject_keeps (s : State) (h : Half) (reason : Nat) :
    Keeps s (State.retireReject s h reason) := by
  unfold State.retireReject
  extract_lets +onlyGivenNames x1 x2
  clear_value x1
  have h3 : Keeps s x2 := by
    unfold x2
    refine Keeps.ite ?_ ?_
    · exact Keeps.refl _
    · refine Keeps.trans ?_ (State.put_keeps _ _ _ _)
      exact Keeps.refl _
  clear_value x2
  refine Keeps.trans ?_ (State.flag_keeps _ _ _)
  refine Keeps.trans ?_ (State.put_keeps _ _ _ _)
  exact h3

theorem State.retireShow_keeps (s : State) (h : Half) (state : Nat) (slot : Nat) (poisoned : Nat) :
    Keeps s (State.retireShow s h state slot poisoned) := by
  unfold State.retireShow
  extract_lets +onlyGivenNames x1
  clear_value x1
  refine Keeps.trans ?_ (State.put_keeps _ _ _ _)
  refine Keeps.trans ?_ (State.put_keeps _ _ _ _)
  refine Keeps.trans ?_ (State.put_keeps _ _ _ _)
  refine Keeps.trans ?_ (State.put_keeps _ _ _ _)
  exact Keeps.refl _

theorem pageRetire_keeps (h : Half) (errs : List WordErr) (s : State) :
    Keeps s (pageRetire h errs s) := by
  unfold pageRetire
  refine Keeps.ite ?_ ?_
  · exact Keeps.refl _
  · extract_lets +onlyGivenNames x1 x2 x3 x4
    have h5 : Keeps s x1 := by
      unfold x1
      refine Keeps.trans ?_ (State.demand_keeps _ _ _)
      exact Keeps.refl _
    clear_value x1
    clear_value x2
    clear_value x3
    clear_value x4
    refine Keeps.ite ?_ ?_
    · refine Keeps.trans ?_ (State.retireReject_keeps _ _ _)
      exact h5
    · refine Keeps.ite ?_ ?_
      · refine Keeps.trans ?_ (State.retireReject_keeps _ _ _)
        exact h5
      · refine Keeps.ite ?_ ?_
        · refine Keeps.trans ?_ (State.retireReject_keeps _ _ _)
          exact h5
        · refine Keeps.ite ?_ ?_
          · refine Keeps.trans ?_ (State.retireReject_keeps _ _ _)
            exact h5
          · extract_lets +onlyGivenNames x6 x7 x8 x9
            clear_value x6
            have h10 : Keeps s x7 := by
              unfold x7
              refine Keeps.trans ?_ (State.mergeFlush_keeps _ _ _ _)
              exact h5
            clear_value x7
            clear_value x8
            clear_value x9
            refine Keeps.ite ?_ ?_
            · extract_lets +onlyGivenNames x11
              have h12 : Keeps s x11 := by
                unfold x11
                refine Keeps.trans ?_ (State.setResv_keeps _ _ _)
                exact h10
              clear_value x11
              refine Keeps.trans ?_ (State.bufShow_keeps _ _)
              refine Keeps.trans ?_ (State.retireShow_keeps _ _ _ _ _)
              refine Keeps.trans ?_ (State.setRemap_keeps _ _ _ _ _)
              exact h12
            · extract_lets +onlyGivenNames x13
              have h14 : Keeps s x13 := by
                unfold x13
                refine Keeps.trans ?_ (State.setResv_keeps _ _ _)
                exact h10
              clear_value x13
              refine Keeps.trans ?_ (State.bufShow_keeps _ _)
              refine Keeps.trans ?_ (State.flag_keeps _ _ _)
              refine Keeps.trans ?_ (State.retireShow_keeps _ _ _ _ _)
              refine Keeps.trans ?_ (State.setRemap_keeps _ _ _ _ _)
              exact h14

theorem execPageRetire_keeps (h : Half) (errs : List WordErr) (s : State) :
    OutKeeps s (execPageRetire h errs s) := by
  unfold execPageRetire
  refine OutKeeps.next ?_
  refine Keeps.trans ?_ (pageRetire_keeps _ _ _)
  exact Keeps.refl _

theorem State.setBankSpare_keeps (s : State) (h : Half) (k : Nat) (bank : Nat) (copying : Bool) :
    Keeps s (State.setBankSpare s h k bank copying) := by
  unfold State.setBankSpare
  refine Keeps.trans ?_ (State.setWord_keeps _ _ _)
  exact Keeps.refl _

theorem bankRetire_keeps (h : Half) (s : State) :
    Keeps s (bankRetire h s) := by
  unfold bankRetire
  refine Keeps.ite ?_ ?_
  · exact Keeps.refl _
  · extract_lets +onlyGivenNames x1 x2 x3 x4 x5
    have h6 : Keeps s x1 := by
      unfold x1
      refine Keeps.trans ?_ (State.demand_keeps _ _ _)
      exact Keeps.refl _
    clear_value x1
    clear_value x2
    clear_value x3
    clear_value x4
    clear_value x5
    refine Keeps.ite ?_ ?_
    · refine Keeps.trans ?_ (State.retireReject_keeps _ _ _)
      exact h6
    · refine Keeps.ite ?_ ?_
      · refine Keeps.trans ?_ (State.retireReject_keeps _ _ _)
        exact h6
      · refine Keeps.ite ?_ ?_
        · refine Keeps.trans ?_ (State.retireReject_keeps _ _ _)
          exact h6
        · refine Keeps.ite ?_ ?_
          · refine Keeps.trans ?_ (State.retireReject_keeps _ _ _)
            exact h6
          · refine Keeps.ite ?_ ?_
            · refine Keeps.trans ?_ (State.retireReject_keeps _ _ _)
              exact h6
            · refine Keeps.ite ?_ ?_
              · refine Keeps.trans ?_ (State.retireReject_keeps _ _ _)
                exact h6
              · extract_lets +onlyGivenNames x7 x8 x9
                clear_value x7
                clear_value x8
                have h10 : Keeps s x9 := by
                  unfold x9
                  refine Keeps.trans ?_ (State.retireShow_keeps _ _ _ _ _)
                  refine Keeps.trans ?_ (State.setBankSpare_keeps _ _ _ _ _)
                  refine Keeps.trans ?_ (State.setResv_keeps _ _ _)
                  exact h6
                clear_value x9
                refine Keeps.trans ?_ (State.bufShow_keeps _ _)
                refine Keeps.trans ?_ (State.put_keeps _ _ _ _)
                refine Keeps.trans ?_ (State.put_keeps _ _ _ _)
                exact h10

theorem execBankRetire_keeps (h : Half) (s : State) :
    OutKeeps s (execBankRetire h s) := by
  unfold execBankRetire
  refine OutKeeps.next ?_
  refine Keeps.trans ?_ (bankRetire_keeps _ _)
  exact Keeps.refl _

theorem State.copyWord_keeps (s : State) (h : Half) (p : Nat) (w : Nat) (errs : List WordErr) :
    Keeps1 s (State.copyWord s h p w errs) := by
  unfold State.copyWord
  split
  · rename_i y1 y2 y3 y4 y5
    have h6 : Keeps s y2 := by
      refine Keeps1.use ?_ y5
      refine Keeps1.trans ?_ (State.bufWord_keeps _ _ _ _ _ _)
      exact Keeps.refl _
    extract_lets +onlyGivenNames x7
    have h8 : Keeps s x7 := by
      unfold x7
      refine Keeps.trans ?_ (State.setDramWord_keeps _ _ _ _ _)
      exact h6
    clear_value x7
    refine Keeps1.ite ?_ ?_
    · refine Keeps1.mk ?_
      refine Keeps.trans ?_ (State.setPoison_keeps _ _ _ _ _)
      exact h8
    · refine Keeps1.mk ?_
      refine Keeps.trans ?_ (State.setPoison_keeps _ _ _ _ _)
      exact h8

theorem retireDone_keeps (h : Half) (errs : List WordErr) (s : State) :
    Keeps s (retireDone h errs s) := by
  unfold retireDone
  extract_lets +onlyGivenNames x1 x2
  clear_value x1
  clear_value x2
  split
  · rename_i y3 y4
    exact Keeps.refl _
  · rename_i y5 y6 y7
    refine Keeps.ite ?_ ?_
    · exact Keeps.refl _
    · refine Keeps.ite ?_ ?_
      · split
        · rename_i y8 y9 y10 y11
          have h12 : Keeps s y9 := by
            refine Keeps1.use ?_ y11
            refine Keeps1.foldl ?_ ?_
            · refine Keeps1.mk ?_
              exact Keeps.refl _
            · intro a13 a13' b14
              split
              · rename_i y15 y16 y17 y18
                have h19 : Keeps a13 y16 := by
                  refine Keeps1.use ?_ y18
                  refine Keeps1.trans ?_ (State.copyWord_keeps _ _ _ _ _)
                  dsimp (zeta := false) only
                  exact Keeps.refl _
                refine Keeps1.mk ?_
                exact h19
          extract_lets +onlyGivenNames x20 x21 x22
          have h23 : Keeps s x20 := by
            unfold x20
            refine Keeps.trans ?_ (Keeps.upd (s := y9) rfl rfl rfl rfl)
            exact h12
          clear_value x20
          clear_value x21
          have h24 : Keeps s x22 := by
            unfold x22
            refine Keeps.trans ?_ (State.setResv_keeps _ _ _)
            exact h23
          clear_value x22
          extract_lets +onlyGivenNames x25
          have h26 : Keeps s x25 := by
            unfold x25
            refine Keeps.trans ?_ (State.retireShow_keeps _ _ _ _ _)
            refine Keeps.trans ?_ (State.setRemap_keeps _ _ _ _ _)
            exact h24
          clear_value x25
          refine Keeps.trans ?_ (State.bufRerun_keeps _ _)
          refine Keeps.trans ?_ (State.flag_keeps _ _ _)
          exact h26
      · extract_lets +onlyGivenNames x27 x28 x29 x30
        clear_value x27
        clear_value x28
        clear_value x29
        clear_value x30
        split
        · rename_i y31 y32 y33 y34
          have h35 : Keeps s y32 := by
            refine Keeps1.use ?_ y34
            refine Keeps1.foldl ?_ ?_
            · refine Keeps1.mk ?_
              exact Keeps.refl _
            · intro a36 a36' b37
              split
              · rename_i y38 y39 y40
                refine Keeps1.ite ?_ ?_
                · split
                  · rename_i y41 y42 y43 y44
                    have h45 : Keeps a36 y42 := by
                      refine Keeps1.use ?_ y44
                      refine Keeps1.trans ?_ (State.copyWord_keeps _ _ _ _ _)
                      dsimp (zeta := false) only
                      exact Keeps.refl _
                    refine Keeps1.mk ?_
                    exact h45
                · split
                  · rename_i y46 y47 y48
                    refine Keeps1.mk ?_
                    exact Keeps.refl _
                  · rename_i y49 y50 y51 y52
                    split
                    · rename_i y53 y54 y55 y56
                      refine Keeps1.mk ?_
                      refine Keeps.trans ?_ (State.bufReport_keeps _ _ _ _ _ _ _)
                      refine Keeps.trans ?_ (State.bufCount_keeps _ _ _ _ _)
                      dsimp (zeta := false) only
                      exact Keeps.refl _
                  · rename_i y57 y58 y59
                    refine Keeps1.mk ?_
                    refine Keeps.trans ?_ (State.bufReport_keeps _ _ _ _ _ _ _)
                    refine Keeps.trans ?_ (State.bufCount_keeps _ _ _ _ _)
                    dsimp (zeta := false) only
                    exact Keeps.refl _
                  · rename_i y60 y61 y62
                    split
                    · rename_i y63 y64 y65
                      refine Keeps1.mk ?_
                      refine Keeps.trans ?_ (State.bufReport_keeps _ _ _ _ _ _ _)
                      refine Keeps.trans ?_ (State.bufCount_keeps _ _ _ _ _)
                      dsimp (zeta := false) only
                      exact Keeps.refl _
                    · rename_i y66 y67
                      refine Keeps1.mk ?_
                      refine Keeps.trans ?_ (State.setPoison_keeps _ _ _ _ _)
                      refine Keeps.trans ?_ (State.bufReport_keeps _ _ _ _ _ _ _)
                      refine Keeps.trans ?_ (State.bufCount_keeps _ _ _ _ _)
                      dsimp (zeta := false) only
                      exact Keeps.refl _
          extract_lets +onlyGivenNames x68 x69 x70
          clear_value x68
          have h71 : Keeps s x69 := by
            unfold x69
            refine Keeps.trans ?_ (State.setResv_keeps _ _ _)
            exact h35
          clear_value x69
          have h72 : Keeps s x70 := by
            unfold x70
            refine Keeps.trans ?_ (State.retireShow_keeps _ _ _ _ _)
            refine Keeps.trans ?_ (State.setBankSpare_keeps _ _ _ _ _)
            exact h71
          clear_value x70
          extract_lets +onlyGivenNames x73
          have h74 : Keeps s x73 := by
            unfold x73
            refine Keeps.trans ?_ (State.put_keeps _ _ _ _)
            exact h72
          clear_value x73
          refine Keeps.trans ?_ (State.bufRerun_keeps _ _)
          refine Keeps.trans ?_ (State.flag_keeps _ _ _)
          exact h74

theorem execRetireDone_keeps (h : Half) (errs : List WordErr) (s : State) :
    OutKeeps s (execRetireDone h errs s) := by
  unfold execRetireDone
  refine OutKeeps.next ?_
  refine Keeps.trans ?_ (retireDone_keeps _ _ _)
  refine Keeps.trans ?_ (Keeps.upd (s := s) rfl rfl rfl rfl)
  exact Keeps.refl _

theorem State.logClear_keeps (s : State) (h : Half) :
    Keeps s (State.logClear s h) := by
  unfold State.logClear
  extract_lets +onlyGivenNames x1
  have h2 : Keeps s x1 := by
    unfold x1
    refine Keeps.trans ?_ (State.clearRange_keeps _ _ _)
    exact Keeps.refl _
  clear_value x1
  refine Keeps.trans ?_ (State.put_keeps _ _ _ _)
  extract_lets +onlyGivenNames x3
  clear_value x3
  refine Keeps.trans ?_ (State.setResv_keeps _ _ _)
  exact h2

theorem execLogClear_keeps (h : Half) (s : State) :
    OutKeeps s (execLogClear h s) := by
  unfold execLogClear
  refine OutKeeps.next ?_
  refine Keeps.trans ?_ (State.logClear_keeps _ _)
  exact Keeps.refl _

theorem State.partitionWrite_keeps (s : State) (h : Half) (i : Nat) (w : Word) :
    Keeps s (State.partitionWrite s h i w) := by
  unfold State.partitionWrite
  refine Keeps.ite ?_ ?_
  · exact Keeps.refl _
  · refine Keeps.trans ?_ (State.partCheck_keeps _ _)
    refine Keeps.trans ?_ (State.setWord_keeps _ _ _)
    exact Keeps.refl _

theorem execPartitionWrite_keeps (h : Half) (i : Nat) (w : Word) (s : State) :
    OutKeeps s (execPartitionWrite h i w s) := by
  unfold execPartitionWrite
  refine OutKeeps.next ?_
  refine Keeps.trans ?_ (State.partitionWrite_keeps _ _ _ _)
  exact Keeps.refl _

theorem State.bankSpare_keeps (s : State) (h : Half) (on : Bool) :
    Keeps s (State.bankSpare s h on) := by
  unfold State.bankSpare
  extract_lets +onlyGivenNames x1
  clear_value x1
  refine Keeps.ite ?_ ?_
  · exact Keeps.refl _
  · extract_lets +onlyGivenNames x2 x3 x4 x5
    have h6 : Keeps s x2 := by
      unfold x2
      refine Keeps.trans ?_ (State.putB_keeps _ _ _ _)
      refine Keeps.trans ?_ (State.putB_keeps _ _ _ _)
      exact Keeps.refl _
    clear_value x2
    clear_value x3
    have h7 : Keeps s x4 := by
      unfold x4
      refine Keeps.trans ?_ (State.put_keeps _ _ _ _)
      exact h6
    clear_value x4
    have h8 : Keeps s x5 := by
      unfold x5
      refine Keeps.trans ?_ (State.put_keeps _ _ _ _)
      refine Keeps.trans ?_ (State.put_keeps _ _ _ _)
      exact h7
    clear_value x5
    refine Keeps.trans ?_ (State.partCheck_keeps _ _)
    exact h8

theorem execBankSpare_keeps (h : Half) (on : Bool) (s : State) :
    OutKeeps s (execBankSpare h on s) := by
  unfold execBankSpare
  refine OutKeeps.next ?_
  refine Keeps.trans ?_ (State.bankSpare_keeps _ _ _)
  exact Keeps.refl _

end Sys2Proof.Machine
end

