-- ==== Sys2Proof/Laws/KeepsCache.lean ====
section
/-! SUPPORT. What `Keeps` says of every operation of Machine/Cache.lean. -/

namespace Sys2Proof.Machine

theorem State.bcaCount_keeps (s : State) (h : Half) (i : Nat) (n : Nat) :
    Keeps s (State.bcaCount s h i n) := by
  unfold State.bcaCount
  refine Keeps.trans ?_ (State.count_keeps _ _ _ _ _ _)
  exact Keeps.refl _

theorem State.bcaShow_keeps (s : State) (h : Half) :
    Keeps s (State.bcaShow s h) := by
  unfold State.bcaShow
  extract_lets +onlyGivenNames x1 x2 x3
  clear_value x1
  clear_value x2
  clear_value x3
  refine Keeps.trans ?_ (State.put_keeps _ _ _ _)
  refine Keeps.trans ?_ (State.putB_keeps _ _ _ _)
  refine Keeps.trans ?_ (State.put_keeps _ _ _ _)
  exact Keeps.refl _

theorem State.subDrop_keeps (s : State) (h : Half) (page : Nat) (sub : Nat) :
    Keeps s (State.subDrop s h page sub) := by
  unfold State.subDrop
  extract_lets +onlyGivenNames x1
  clear_value x1
  refine Keeps.trans ?_ (Keeps.upd (s := s) rfl rfl rfl rfl)
  exact Keeps.refl _

theorem State.pageDrop_keeps (s : State) (h : Half) (page : Nat) :
    Keeps s (State.pageDrop s h page) := by
  unfold State.pageDrop
  extract_lets +onlyGivenNames x1
  clear_value x1
  refine Keeps.trans ?_ (Keeps.upd (s := s) rfl rfl rfl rfl)
  exact Keeps.refl _

theorem State.backWrite_keeps (s : State) (h : Half) (ha : Nat) (bs : List Byte) :
    Keeps s (State.backWrite s h ha bs) := by
  unfold State.backWrite
  extract_lets +onlyGivenNames x1 x2
  clear_value x1
  clear_value x2
  extract_lets +onlyGivenNames x3
  have h4 : Keeps s x3 := by
    unfold x3
    refine Keeps.trans ?_ (State.regionZero_keeps _ _ _)
    exact Keeps.refl _
  clear_value x3
  extract_lets +onlyGivenNames x5
  have h6 : Keeps s x5 := by
    unfold x5
    refine Keeps.trans ?_ (State.setResv_keeps _ _ _)
    exact h4
  clear_value x5
  extract_lets +onlyGivenNames x7
  have h8 : Keeps s x7 := by
    unfold x7
    refine Keeps.ite ?_ ?_
    · exact Keeps.refl _
    · refine Keeps.foldl ?_ ?_
      · exact h6
      · intro a9 b10
        refine Keeps.trans ?_ (State.bufCount_keeps _ _ _ _ _)
        exact Keeps.refl _
  clear_value x7
  refine Keeps.ite ?_ ?_
  · refine Keeps.trans ?_ (State.pageWrite_keeps _ _ _ _)
    exact h8
  · refine Keeps.trans ?_ (State.mergeWrite_keeps _ _ _ _ _)
    exact h8

theorem State.writeBack_keeps (s : State) (h : Half) (page : Nat) (way : Nat) :
    Keeps s (State.writeBack s h page way) := by
  unfold State.writeBack
  extract_lets +onlyGivenNames x1
  clear_value x1
  split
  · rename_i y2 y3
    exact Keeps.refl _
  · rename_i y4 y5 y6
    extract_lets +onlyGivenNames x7
    clear_value x7
    refine Keeps.ite ?_ ?_
    · exact Keeps.refl _
    · extract_lets +onlyGivenNames x8 x9 x10 x11 x12 x13 x14
      clear_value x8
      clear_value x9
      clear_value x10
      have h15 : Keeps s x11 := by
        unfold x11
        refine Keeps.foldl ?_ ?_
        · exact Keeps.refl _
        · intro a16 b17
          refine Keeps.trans ?_ (State.subDrop_keeps _ _ _ _)
          exact Keeps.refl _
      clear_value x11
      have h18 : Keeps s x12 := by
        unfold x12
        refine Keeps.trans ?_ (State.setCache_keeps _ _ _)
        exact h15
      clear_value x12
      have h19 : Keeps s x13 := by
        unfold x13
        refine Keeps.foldl ?_ ?_
        · exact h18
        · intro a20 b21
          split
          · rename_i y22 y23 y24
            refine Keeps.trans ?_ (State.backWrite_keeps _ _ _ _)
            exact Keeps.refl _
      clear_value x13
      have h25 : Keeps s x14 := by
        unfold x14
        refine Keeps.trans ?_ (State.bcaCount_keeps _ _ _ _)
        exact h19
      clear_value x14
      refine Keeps.ite ?_ ?_
      · refine Keeps.trans ?_ (State.bcaCount_keeps _ _ _ _)
        exact h25
      · exact h25

theorem State.dropLine_keeps (s : State) (h : Half) (page : Nat) (way : Nat) :
    Keeps s (State.dropLine s h page way) := by
  unfold State.dropLine
  extract_lets +onlyGivenNames x1
  clear_value x1
  split
  · rename_i y2 y3
    exact Keeps.refl _
  · rename_i y4 y5 y6
    refine Keeps.trans ?_ (State.setCache_keeps _ _ _)
    refine Keeps.trans ?_ (State.pageDrop_keeps _ _ _)
    exact Keeps.refl _

theorem State.cleanDrop_keeps (s : State) (h : Half) (page : Nat) (way : Nat) :
    Keeps s (State.cleanDrop s h page way) := by
  unfold State.cleanDrop
  refine Keeps.trans ?_ (State.dropLine_keeps _ _ _ _)
  refine Keeps.trans ?_ (State.writeBack_keeps _ _ _ _)
  exact Keeps.refl _

theorem State.errAddr_keeps (s : State) (h : Half) (set : Nat) (way : Nat) (sub : Nat) (tag : Bool) :
    Keeps s (State.errAddr s h set way sub tag) := by
  unfold State.errAddr
  extract_lets +onlyGivenNames x1
  clear_value x1
  refine Keeps.trans ?_ (State.putB_keeps _ _ _ _)
  refine Keeps.trans ?_ (State.put_keeps _ _ _ _)
  refine Keeps.trans ?_ (State.put_keeps _ _ _ _)
  refine Keeps.trans ?_ (State.put_keeps _ _ _ _)
  exact Keeps.refl _

theorem State.recovery_keeps (s : State) (h : Half) :
    Keeps s (State.recovery s h) := by
  unfold State.recovery
  refine Keeps.trans ?_ (State.flag_keeps _ _ _)
  refine Keeps.trans ?_ (State.put_keeps _ _ _ _)
  exact Keeps.refl _

theorem State.sramErr_keeps (s : State) (h : Half) (page : Nat) (e : SramErr) :
    Keeps1 s (State.sramErr s h page e) := by
  unfold State.sramErr
  extract_lets +onlyGivenNames x1 x2
  clear_value x1
  clear_value x2
  split
  · rename_i y3 y4 y5
    split
    · rename_i y6 y7
      refine Keeps1.mk ?_
      exact Keeps.refl _
    · rename_i y8 y9 y10
      split
      · rename_i y11 y12
        refine Keeps1.mk ?_
        exact Keeps.refl _
      · rename_i y13 y14 y15
        refine Keeps1.ite ?_ ?_
        · refine Keeps1.mk ?_
          exact Keeps.refl _
        · extract_lets +onlyGivenNames x16 x17
          have h18 : Keeps s x16 := by
            unfold x16
            refine Keeps.trans ?_ (State.errAddr_keeps _ _ _ _ _ _)
            exact Keeps.refl _
          clear_value x16
          clear_value x17
          refine Keeps1.ite ?_ ?_
          · refine Keeps1.mk ?_
            refine Keeps.trans ?_ (State.flag_keeps _ _ _)
            refine Keeps.trans ?_ (State.bcaCount_keeps _ _ _ _)
            exact h18
          · refine Keeps1.ite ?_ ?_
            · extract_lets +onlyGivenNames x19
              have h20 : Keeps s x19 := by
                unfold x19
                refine Keeps.trans ?_ (State.flag_keeps _ _ _)
                refine Keeps.trans ?_ (State.bcaCount_keeps _ _ _ _)
                exact h18
              clear_value x19
              refine Keeps1.mk ?_
              refine Keeps.trans ?_ (State.setCache_keeps _ _ _)
              refine Keeps.trans ?_ (State.subDrop_keeps _ _ _ _)
              exact h20
            · extract_lets +onlyGivenNames x21 x22 x23 x24 x25 x26 x27
              clear_value x21
              have h28 : Keeps s x22 := by
                unfold x22
                refine Keeps.trans ?_ (State.setCache_keeps _ _ _)
                refine Keeps.trans ?_ (State.subDrop_keeps _ _ _ _)
                exact h18
              clear_value x22
              clear_value x23
              clear_value x24
              have h29 : Keeps s x25 := by
                unfold x25
                refine Keeps.ite ?_ ?_
                · exact h28
                · refine Keeps.trans ?_ (State.setResv_keeps _ _ _)
                  refine Keeps.trans ?_ (State.regionZero_keeps _ _ _)
                  exact h28
              clear_value x25
              have h30 : Keeps s x26 := by
                unfold x26
                refine Keeps.trans ?_ (Keeps.upd (s := x25) rfl rfl rfl rfl)
                exact h29
              clear_value x26
              have h31 : Keeps s x27 := by
                unfold x27
                refine Keeps.trans ?_ (State.setPoison_keeps _ _ _ _ _)
                refine Keeps.trans ?_ (State.setDramWord_keeps _ _ _ _ _)
                exact h30
              clear_value x27
              extract_lets +onlyGivenNames x32
              have h33 : Keeps s x32 := by
                unfold x32
                refine Keeps.trans ?_ (State.chimney_keeps _ _ _ _ _ _)
                refine Keeps.trans ?_ (State.flag_keeps _ _ _)
                exact h31
              clear_value x32
              refine Keeps1.mk ?_
              exact h33
  · rename_i y34 y35 y36
    refine Keeps1.ite ?_ ?_
    · refine Keeps1.mk ?_
      exact Keeps.refl _
    · extract_lets +onlyGivenNames x37
      have h38 : Keeps s x37 := by
        unfold x37
        refine Keeps.trans ?_ (State.flag_keeps _ _ _)
        refine Keeps.trans ?_ (State.errAddr_keeps _ _ _ _ _ _)
        exact Keeps.refl _
      clear_value x37
      refine Keeps1.ite ?_ ?_
      · refine Keeps1.mk ?_
        refine Keeps.trans ?_ (State.bcaCount_keeps _ _ _ _)
        exact h38
      · split
        · rename_i y39 y40 y41 y42
          have h43 : Keeps s y41 := by
            refine Keeps2.use ?_ y42
            split
            · rename_i y44 y45
              refine Keeps2.mk ?_
              exact h38
            · rename_i y46 y47 y48
              refine Keeps2.mk ?_
              refine Keeps.trans ?_ (State.pageDrop_keeps _ _ _)
              exact h38
          extract_lets +onlyGivenNames x49 x50
          clear_value x49
          have h51 : Keeps s x50 := by
            unfold x50
            refine Keeps.trans ?_ (State.setCache_keeps _ _ _)
            exact h43
          clear_value x50
          refine Keeps1.mk ?_
          refine Keeps.trans ?_ (State.recovery_keeps _ _)
          refine Keeps.trans ?_ (State.chimney_keeps _ _ _ _ _ _)
          exact h51

theorem State.serve_keeps (s : State) (h : Half) (r : CReq) (way : Nat) :
    Keeps s (State.serve s h r way) := by
  unfold State.serve
  extract_lets +onlyGivenNames x1
  have h2 : Keeps s x1 := by
    unfold x1
    refine Keeps.trans ?_ (State.setCache_keeps _ _ _)
    exact Keeps.refl _
  clear_value x1
  refine Keeps.ite ?_ ?_
  · refine Keeps.trans ?_ (State.answer_keeps _ _ _ _ _)
    refine Keeps.trans ?_ (State.lineWrite_keeps _ _ _ _ _ _)
    exact h2
  · refine Keeps.trans ?_ (State.answer_keeps _ _ _ _ _)
    exact h2

theorem State.cacheWait_keeps (s : State) (h : Half) (r : CReq) (i : Option Nat) :
    Keeps s (State.cacheWait s h r i) := by
  unfold State.cacheWait
  extract_lets +onlyGivenNames x1 x2
  have h3 : Keeps s x1 := by
    unfold x1
    split
    · rename_i y4 y5
      refine Keeps.ite ?_ ?_
      · exact Keeps.refl _
      · refine Keeps.trans ?_ (State.bcaCount_keeps _ _ _ _)
        exact Keeps.refl _
    · rename_i y6
      exact Keeps.refl _
  clear_value x1
  clear_value x2
  refine Keeps.trans ?_ (State.setCache_keeps _ _ _)
  exact h3

theorem State.primary_keeps (s : State) (h : Half) (r : CReq) (way : Nat) (l : Line) :
    Keeps s (State.primary s h r way l) := by
  unfold State.primary
  extract_lets +onlyGivenNames x1
  clear_value x1
  split
  · rename_i y2 y3 y4 y5
    extract_lets +onlyGivenNames x6 x7
    clear_value x6
    clear_value x7
    refine Keeps.trans ?_ (State.bcaCount_keeps _ _ _ _)
    refine Keeps.trans ?_ (State.setCache_keeps _ _ _)
    exact Keeps.refl _

theorem State.direct_keeps (s : State) (h : Half) (r : CReq) (line : Option (Nat × Line)) :
    Keeps s (State.direct s h r line) := by
  unfold State.direct
  split
  · rename_i y1
    refine Keeps.trans ?_ (State.bufSubmit_keeps _ _ _)
    exact Keeps.refl _
  · rename_i y2 y3 y4
    extract_lets +onlyGivenNames x5
    clear_value x5
    refine Keeps.ite ?_ ?_
    · extract_lets +onlyGivenNames x6 x7
      have h8 : Keeps s x6 := by
        unfold x6
        refine Keeps.foldl ?_ ?_
        · exact Keeps.refl _
        · intro a9 b10
          extract_lets +onlyGivenNames x11 x12 x13
          clear_value x11
          clear_value x12
          clear_value x13
          refine Keeps.ite ?_ ?_
          · refine Keeps.trans ?_ (State.lineWrite_keeps _ _ _ _ _ _)
            exact Keeps.refl _
          · refine Keeps.trans ?_ (State.bufSubmit_keeps _ _ _)
            exact Keeps.refl _
      clear_value x6
      clear_value x7
      refine Keeps.trans ?_ (State.answer_keeps _ _ _ _ _)
      refine Keeps.trans ?_ (Keeps.upd (s := x6) rfl rfl rfl rfl)
      exact h8
    · extract_lets +onlyGivenNames x14
      have h15 : Keeps s x14 := by
        unfold x14
        refine Keeps.trans ?_ (State.bufSubmit_keeps _ _ _)
        exact Keeps.refl _
      clear_value x14
      split
      · rename_i y16 y17 y18
        extract_lets +onlyGivenNames x19
        clear_value x19
        refine Keeps.trans ?_ (Keeps.upd (s := x14) rfl rfl rfl rfl)
        exact h15
      · rename_i y20 y21
        exact h15

theorem State.cachePiece_keeps (s : State) (h : Half) (r : CReq) :
    Keeps s (State.cachePiece s h r) := by
  unfold State.cachePiece
  extract_lets +onlyGivenNames x1 x2 x3 x4
  clear_value x1
  clear_value x2
  clear_value x3
  clear_value x4
  refine Keeps.ite ?_ ?_
  · refine Keeps.trans ?_ (State.answerUe_keeps _ _ _ _ _)
    exact Keeps.refl _
  · refine Keeps.ite ?_ ?_
    · refine Keeps.trans ?_ (State.cacheWait_keeps _ _ _ _)
      exact Keeps.refl _
    · refine Keeps.ite ?_ ?_
      · refine Keeps.trans ?_ (State.cacheWait_keeps _ _ _ _)
        exact Keeps.refl _
      · split
        · rename_i y5 y6 y7
          split
          · rename_i y8 y9
            exact Keeps.refl _
          · rename_i y10 y11 y12
            refine Keeps.ite ?_ ?_
            · refine Keeps.trans ?_ (State.cacheWait_keeps _ _ _ _)
              exact Keeps.refl _
            · refine Keeps.ite ?_ ?_
              · refine Keeps.trans ?_ (State.bcaCount_keeps _ _ _ _)
                refine Keeps.trans ?_ (State.serve_keeps _ _ _ _)
                exact Keeps.refl _
              · split
                · rename_i y13 y14 y15 y16
                  refine Keeps.ite ?_ ?_
                  · refine Keeps.trans ?_ (State.cacheWait_keeps _ _ _ _)
                    exact Keeps.refl _
                  · extract_lets +onlyGivenNames x17 x18 x19 x20 x21
                    clear_value x17
                    clear_value x18
                    clear_value x19
                    clear_value x20
                    clear_value x21
                    refine Keeps.trans ?_ (State.bcaCount_keeps _ _ _ _)
                    refine Keeps.trans ?_ (State.setCache_keeps _ _ _)
                    exact Keeps.refl _
                · rename_i y22 y23
                  refine Keeps.ite ?_ ?_
                  · refine Keeps.trans ?_ (State.direct_keeps _ _ _ _)
                    exact Keeps.refl _
                  · refine Keeps.ite ?_ ?_
                    · refine Keeps.trans ?_ (State.cacheWait_keeps _ _ _ _)
                      exact Keeps.refl _
                    · refine Keeps.trans ?_ (State.primary_keeps _ _ _ _ _)
                      exact Keeps.refl _
        · rename_i y24 y25
          refine Keeps.ite ?_ ?_
          · refine Keeps.trans ?_ (State.direct_keeps _ _ _ _)
            exact Keeps.refl _
          · refine Keeps.ite ?_ ?_
            · refine Keeps.trans ?_ (State.cacheWait_keeps _ _ _ _)
              exact Keeps.refl _
            · split
              · rename_i y26 y27
                refine Keeps.trans ?_ (State.cacheWait_keeps _ _ _ _)
                exact Keeps.refl _
              · rename_i y28 y29 y30
                split
                · rename_i y31 y32
                  refine Keeps.trans ?_ (State.primary_keeps _ _ _ _ _)
                  exact Keeps.refl _
                · rename_i y33 y34 y35
                  refine Keeps.ite ?_ ?_
                  · refine Keeps.trans ?_ (State.primary_keeps _ _ _ _ _)
                    refine Keeps.trans ?_ (State.dropLine_keeps _ _ _ _)
                    exact Keeps.refl _
                  · refine Keeps.trans ?_ (State.cacheWait_keeps _ _ _ _)
                    refine Keeps.trans ?_ (State.setCache_keeps _ _ _)
                    exact Keeps.refl _

theorem State.cacheRerun_keeps (s : State) (h : Half) :
    Keeps s (State.cacheRerun s h) := by
  unfold State.cacheRerun
  extract_lets +onlyGivenNames x1
  clear_value x1
  refine Keeps.trans ?_ (State.bcaShow_keeps _ _)
  refine Keeps.foldl ?_ ?_
  · refine Keeps.trans ?_ (State.setCache_keeps _ _ _)
    exact Keeps.refl _
  · intro a2 b3
    refine Keeps.trans ?_ (State.cachePiece_keeps _ _ _)
    exact Keeps.refl _

theorem State.lockPage_keeps (s : State) (h : Half) (page : Nat) :
    KeepsO s (State.lockPage s h page) := by
  unfold State.lockPage
  extract_lets +onlyGivenNames x1 x2 x3
  clear_value x1
  clear_value x2
  clear_value x3
  refine KeepsO.ite ?_ ?_
  · refine KeepsO.some ?_
    refine Keeps.trans ?_ (State.satAdd_keeps _ _ _ _)
    exact Keeps.refl _
  · extract_lets +onlyGivenNames x4
    clear_value x4
    split
    · rename_i y5 y6
      refine KeepsO.some ?_
      refine Keeps.trans ?_ (State.flag_keeps _ _ _)
      refine Keeps.trans ?_ (State.satAdd_keeps _ _ _ _)
      exact Keeps.refl _
    · rename_i y7 y8 y9
      extract_lets +onlyGivenNames x10
      clear_value x10
      refine KeepsO.ite ?_ ?_
      · exact KeepsO.none
      · extract_lets +onlyGivenNames x11 x12 x13 x14 x15
        have h16 : Keeps s x11 := by
          unfold x11
          split
          · rename_i y17 y18 y19
            refine Keeps.trans ?_ (State.cleanDrop_keeps _ _ _ _)
            exact Keeps.refl _
          · rename_i y20 y21
            exact Keeps.refl _
        clear_value x11
        have h22 : Keeps s x12 := by
          unfold x12
          refine Keeps.trans ?_ (State.cleanDrop_keeps _ _ _ _)
          exact h16
        clear_value x12
        clear_value x13
        clear_value x14
        clear_value x15
        refine KeepsO.some ?_
        refine Keeps.trans ?_ (State.setCache_keeps _ _ _)
        exact h22

theorem State.maintLine_keeps (s : State) (h : Half) (m : Maint) (page : Nat) (way : Nat) :
    Keeps s (State.maintLine s h m page way) := by
  unfold State.maintLine
  extract_lets +onlyGivenNames x1
  clear_value x1
  split
  · rename_i y2 y3
    exact Keeps.refl _
  · rename_i y4 y5 y6
    extract_lets +onlyGivenNames x7
    have h8 : ∀ v9, Keeps v9 (x7 v9) := by
      intro v9
      unfold x7
      refine Keeps.trans ?_ (State.satAdd_keeps _ _ _ _)
      exact Keeps.refl _
    clear_value x7
    refine Keeps.ite ?_ ?_
    · refine Keeps.trans ?_ (h8 _)
      refine Keeps.trans ?_ (State.writeBack_keeps _ _ _ _)
      exact Keeps.refl _
    · refine Keeps.ite ?_ ?_
      · refine Keeps.ite ?_ ?_
        · refine Keeps.trans ?_ (State.satAdd_keeps _ _ _ _)
          exact Keeps.refl _
        · refine Keeps.ite ?_ ?_
          · refine Keeps.trans ?_ (h8 _)
            refine Keeps.trans ?_ (State.dropLine_keeps _ _ _ _)
            exact Keeps.refl _
          · refine Keeps.trans ?_ (h8 _)
            refine Keeps.trans ?_ (State.cleanDrop_keeps _ _ _ _)
            exact Keeps.refl _
      · refine Keeps.ite ?_ ?_
        · refine Keeps.trans ?_ (h8 _)
          refine Keeps.trans ?_ (State.setCache_keeps _ _ _)
          exact Keeps.refl _
        · exact Keeps.refl _

theorem State.maintMove_keeps (s : State) (h : Half) (m : Maint) :
    KeepsO s (State.maintMove s h m) := by
  unfold State.maintMove
  extract_lets +onlyGivenNames x1 x2 x3
  clear_value x1
  clear_value x2
  have h4 : ∀ v5 v6, Keeps v5 (x3 v5 v6) := by
    intro v5 v6
    unfold x3
    refine Keeps.trans ?_ (State.put_keeps _ _ _ _)
    extract_lets +onlyGivenNames x7
    clear_value x7
    refine Keeps.trans ?_ (State.setCache_keeps _ _ _)
    exact Keeps.refl _
  clear_value x3
  refine KeepsO.ite ?_ ?_
  · exact KeepsO.none
  · refine KeepsO.ite ?_ ?_
    · refine KeepsO.ite ?_ ?_
      · refine KeepsO.some ?_
        refine Keeps.trans ?_ (State.setCache_keeps _ _ _)
        exact Keeps.refl _
      · extract_lets +onlyGivenNames x8 x9
        clear_value x8
        clear_value x9
        refine KeepsO.ite ?_ ?_
        · exact KeepsO.none
        · refine KeepsO.ite ?_ ?_
          · refine KeepsO.mapS ?_ ?_
            · refine KeepsO.trans ?_ (State.lockPage_keeps _ _ _)
              exact Keeps.refl _
            · intro a10
              refine Keeps.trans ?_ (h4 _ _)
              exact Keeps.refl _
          · split
            · rename_i y11 y12 y13
              refine KeepsO.ite ?_ ?_
              · exact KeepsO.none
              · refine KeepsO.some ?_
                refine Keeps.trans ?_ (h4 _ _)
                refine Keeps.trans ?_ (State.maintLine_keeps _ _ _ _ _)
                exact Keeps.refl _
            · rename_i y14 y15
              refine KeepsO.some ?_
              refine Keeps.trans ?_ (h4 _ _)
              exact Keeps.refl _
    · refine KeepsO.ite ?_ ?_
      · refine KeepsO.some ?_
        refine Keeps.trans ?_ (State.setCache_keeps _ _ _)
        exact Keeps.refl _
      · refine KeepsO.ite ?_ ?_
        · refine KeepsO.some ?_
          refine Keeps.trans ?_ (h4 _ _)
          exact Keeps.refl _
        · extract_lets +onlyGivenNames x16
          clear_value x16
          split
          · rename_i y17 y18
            refine KeepsO.some ?_
            refine Keeps.trans ?_ (h4 _ _)
            exact Keeps.refl _
          · rename_i y19 y20 y21
            extract_lets +onlyGivenNames x22
            clear_value x22
            refine KeepsO.ite ?_ ?_
            · refine KeepsO.some ?_
              refine Keeps.trans ?_ (h4 _ _)
              exact Keeps.refl _
            · refine KeepsO.ite ?_ ?_
              · exact KeepsO.none
              · refine KeepsO.ite ?_ ?_
                · refine KeepsO.mapS ?_ ?_
                  · refine KeepsO.trans ?_ (State.lockPage_keeps _ _ _)
                    exact Keeps.refl _
                  · intro a23
                    refine Keeps.trans ?_ (h4 _ _)
                    exact Keeps.refl _
                · refine KeepsO.ite ?_ ?_
                  · exact KeepsO.none
                  · refine KeepsO.some ?_
                    refine Keeps.trans ?_ (h4 _ _)
                    refine Keeps.trans ?_ (State.maintLine_keeps _ _ _ _ _)
                    exact Keeps.refl _

theorem State.maintRun_keeps (s : State) (h : Half) (n : Nat) : Keeps s (s.maintRun h n) := by
  induction n generalizing s with
  | zero => exact Keeps.refl _
  | succ n ih =>
    unfold State.maintRun
    split
    · exact Keeps.refl _
    · split
      · exact Keeps.refl _
      · rename_i t e
        exact ((State.maintMove_keeps s h _).use e).trans (ih t)

theorem State.wayRun_keeps (s : State) (h : Half) (way n : Nat) : Keeps s (s.wayRun h way n) := by
  induction n generalizing s with
  | zero => exact Keeps.refl _
  | succ n ih =>
    unfold State.wayRun
    dsimp only
    split
    · exact Keeps.refl _
    · refine Keeps.ite (Keeps.refl _) ?_
      split
      · exact (State.setCache_keeps ..).trans (ih _)
      · refine Keeps.ite (Keeps.refl _) ?_
        exact ((State.cleanDrop_keeps s h _ way).trans (State.setCache_keeps ..)).trans (ih _)

theorem State.cacheGo_keeps (s : State) (h : Half) :
    Keeps s (State.cacheGo s h) := by
  unfold State.cacheGo
  extract_lets +onlyGivenNames x1 x2
  have h3 : Keeps s x1 := by
    unfold x1
    refine Keeps.trans ?_ (State.maintRun_keeps _ _ _)
    exact Keeps.refl _
  clear_value x1
  have h4 : Keeps s x2 := by
    unfold x2
    refine Keeps.foldl ?_ ?_
    · exact h3
    · intro a5 b6
      refine Keeps.trans ?_ (State.wayRun_keeps _ _ _ _)
      exact Keeps.refl _
  clear_value x2
  refine Keeps.trans ?_ (State.cacheRerun_keeps _ _)
  exact h4

theorem cacheRequest_keeps (h : Half) (cls : BufCls) (write : Bool) (ha : Nat) (len : Nat) (bytes : List Byte)
    (sram : List SramErr) (errs : List WordErr) (s : State) :
    Keeps s (cacheRequest h cls write ha len bytes sram errs s) := by
  unfold cacheRequest
  refine Keeps.ite ?_ ?_
  · exact Keeps.refl _
  · extract_lets +onlyGivenNames x1 x2 x3 x4
    have h5 : Keeps s x1 := by
      unfold x1
      refine Keeps.trans ?_ (State.demand_keeps _ _ _)
      refine Keeps.trans ?_ (State.demand_keeps _ _ _)
      exact Keeps.refl _
    clear_value x1
    have h6 : Keeps s x2 := by
      unfold x2
      refine Keeps.trans ?_ (Keeps.upd (s := x1) rfl rfl rfl rfl)
      exact h5
    clear_value x2
    clear_value x3
    have h7 : Keeps s x4 := by
      unfold x4
      refine Keeps.foldl ?_ ?_
      · exact h6
      · intro a8 b9
        split
        · rename_i y10 y11 y12
          split
          · rename_i y13 y14 y15 y16
            have h17 : Keeps a8 y14 := by
              refine Keeps1.use ?_ y16
              refine Keeps1.foldl ?_ ?_
              · refine Keeps1.mk ?_
                exact Keeps.refl _
              · intro a18 a18' b19
                split
                · rename_i y20 y21 y22 y23
                  have h24 : Keeps a18 y21 := by
                    refine Keeps1.use ?_ y23
                    refine Keeps1.trans ?_ (State.sramErr_keeps _ _ _ _)
                    dsimp (zeta := false) only
                    exact Keeps.refl _
                  refine Keeps1.mk ?_
                  exact h24
            extract_lets +onlyGivenNames x25
            clear_value x25
            refine Keeps.ite ?_ ?_
            · refine Keeps.trans ?_ (State.answerUe_keeps _ _ _ _ _)
              exact h17
            · refine Keeps.trans ?_ (State.cachePiece_keeps _ _ _)
              exact h17
    clear_value x4
    refine Keeps.trans ?_ (State.cacheGo_keeps _ _)
    exact h7

theorem execCacheRequest_keeps (h : Half) (cls : BufCls) (write : Bool) (ha : Nat) (len : Nat) (bytes : List Byte)
    (sram : List SramErr) (errs : List WordErr) (s : State) :
    OutKeeps s (execCacheRequest h cls write ha len bytes sram errs s) := by
  unfold execCacheRequest
  refine OutKeeps.next ?_
  refine Keeps.trans ?_ (cacheRequest_keeps _ _ _ _ _ _ _ _ _)
  exact Keeps.refl _

theorem State.fillDone_keeps (s : State) (h : Half) (k : Nat) (errs : List WordErr) :
    Keeps s (State.fillDone s h k errs) := by
  unfold State.fillDone
  extract_lets +onlyGivenNames x1
  clear_value x1
  split
  · rename_i y2 y3
    exact Keeps.refl _
  · rename_i y4 y5 y6
    extract_lets +onlyGivenNames x7 x8
    clear_value x7
    clear_value x8
    refine Keeps.ite ?_ ?_
    · exact Keeps.refl _
    · split
      · rename_i y9 y10
        refine Keeps.trans ?_ (State.setCache_keeps _ _ _)
        exact Keeps.refl _
      · rename_i y11 y12 y13
        split
        · rename_i y14 y15 y16 y17
          have h18 : Keeps s y15 := by
            refine Keeps1.use ?_ y17
            refine Keeps1.foldl ?_ ?_
            · refine Keeps1.mk ?_
              exact Keeps.refl _
            · intro a19 a19' b20
              extract_lets +onlyGivenNames x21
              clear_value x21
              split
              · rename_i y22 y23 y24 y25 y26
                have h27 : Keeps a19 y23 := by
                  refine Keeps1.use ?_ y26
                  refine Keeps1.trans ?_ (State.bufReadPage_keeps _ _ _ _ _ _)
                  dsimp (zeta := false) only
                  exact Keeps.refl _
                refine Keeps1.ite ?_ ?_
                · refine Keeps1.mk ?_
                  exact h27
                · extract_lets +onlyGivenNames x28 x29
                  clear_value x28
                  have h30 : Keeps a19 x29 := by
                    unfold x29
                    refine Keeps.trans ?_ (Keeps.upd (s := y23) rfl rfl rfl rfl)
                    exact h27
                  clear_value x29
                  refine Keeps1.mk ?_
                  exact h30
          extract_lets +onlyGivenNames x31 x32 x33 x34 x35 x36 x37 x38
          clear_value x31
          clear_value x32
          have h39 : Keeps s x33 := by
            unfold x33
            refine Keeps.ite ?_ ?_
            · exact h18
            · refine Keeps.trans ?_ (State.flag_keeps _ _ _)
              exact h18
          clear_value x33
          clear_value x34
          clear_value x35
          have h40 : Keeps s x36 := by
            unfold x36
            refine Keeps.trans ?_ (State.setCache_keeps _ _ _)
            exact h39
          clear_value x36
          have h41 : Keeps s x37 := by
            unfold x37
            refine Keeps.ite ?_ ?_
            · refine Keeps.trans ?_ (State.satAdd_keeps _ _ _ _)
              exact h40
            · exact h40
          clear_value x37
          have h42 : Keeps s x38 := by
            unfold x38
            refine Keeps.foldl ?_ ?_
            · exact h41
            · intro a43 b44
              extract_lets +onlyGivenNames x45
              clear_value x45
              split
              · rename_i y46 y47 y48
                extract_lets +onlyGivenNames x49
                clear_value x49
                refine Keeps.trans ?_ (State.answerUe_keeps _ _ _ _ _)
                exact Keeps.refl _
              · rename_i y50
                refine Keeps.trans ?_ (State.serve_keeps _ _ _ _)
                exact Keeps.refl _
          clear_value x38
          refine Keeps.trans ?_ (State.cacheGo_keeps _ _)
          exact h42

theorem execCacheFillDone_keeps (h : Half) (reg : Nat) (errs : List WordErr) (s : State) :
    OutKeeps s (execCacheFillDone h reg errs s) := by
  unfold execCacheFillDone
  refine OutKeeps.next ?_
  refine Keeps.trans ?_ (State.fillDone_keeps _ _ _ _)
  refine Keeps.trans ?_ (Keeps.upd (s := s) rfl rfl rfl rfl)
  exact Keeps.refl _

theorem writebackAccepted_keeps (h : Half) (page : Nat) (s : State) :
    Keeps s (writebackAccepted h page s) := by
  unfold writebackAccepted
  extract_lets +onlyGivenNames x1
  clear_value x1
  split
  · rename_i y2 y3
    exact Keeps.refl _
  · rename_i y4 y5 y6
    split
    · rename_i y7 y8
      exact Keeps.refl _
    · rename_i y9 y10 y11
      refine Keeps.ite ?_ ?_
      · refine Keeps.trans ?_ (State.cacheGo_keeps _ _)
        refine Keeps.trans ?_ (State.cleanDrop_keeps _ _ _ _)
        refine Keeps.trans ?_ (Keeps.upd (s := s) rfl rfl rfl rfl)
        exact Keeps.refl _
      · exact Keeps.refl _

theorem execWritebackAccepted_keeps (h : Half) (page : Nat) (s : State) :
    OutKeeps s (execWritebackAccepted h page s) := by
  unfold execWritebackAccepted
  refine OutKeeps.next ?_
  refine Keeps.trans ?_ (writebackAccepted_keeps _ _ _)
  exact Keeps.refl _

theorem State.cacheMode_keeps (s : State) (h : Half) (mode : Nat) :
    Keeps s (State.cacheMode s h mode) := by
  unfold State.cacheMode
  refine Keeps.ite ?_ ?_
  · exact Keeps.refl _
  · extract_lets +onlyGivenNames x1
    have h2 : Keeps s x1 := by
      unfold x1
      refine Keeps.trans ?_ (Keeps.upd (s := s) rfl rfl rfl rfl)
      exact Keeps.refl _
    clear_value x1
    refine Keeps.trans ?_ (State.cacheGo_keeps _ _)
    refine Keeps.trans ?_ (State.put_keeps _ _ _ _)
    refine Keeps.trans ?_ (State.put_keeps _ _ _ _)
    exact h2

theorem execCacheModeWrite_keeps (h : Half) (mode : Nat) (s : State) :
    OutKeeps s (execCacheModeWrite h mode s) := by
  unfold execCacheModeWrite
  refine OutKeeps.next ?_
  refine Keeps.trans ?_ (State.cacheMode_keeps _ _ _)
  exact Keeps.refl _

theorem State.maintStart_keeps (s : State) (h : Half) (op : Nat) (range : Bool) (all : Bool) (incl : Bool) :
    Keeps s (State.maintStart s h op range all incl) := by
  unfold State.maintStart
  extract_lets +onlyGivenNames x1
  clear_value x1
  refine Keeps.ite ?_ ?_
  · exact Keeps.refl _
  · refine Keeps.ite ?_ ?_
    · refine Keeps.trans ?_ (State.put_keeps _ _ _ _)
      exact Keeps.refl _
    · extract_lets +onlyGivenNames x2 x3 x4 x5 x6 x7
      have h8 : Keeps s x2 := by
        unfold x2
        refine Keeps.trans ?_ (Keeps.upd (s := s) rfl rfl rfl rfl)
        exact Keeps.refl _
      clear_value x2
      clear_value x3
      clear_value x4
      have h9 : Keeps s x5 := by
        unfold x5
        refine Keeps.trans ?_ (State.put_keeps _ _ _ _)
        refine Keeps.trans ?_ (State.put_keeps _ _ _ _)
        refine Keeps.trans ?_ (State.put_keeps _ _ _ _)
        exact h8
      clear_value x5
      have h10 : Keeps s x6 := by
        unfold x6
        refine Keeps.trans ?_ (State.put_keeps _ _ _ _)
        refine Keeps.trans ?_ (State.put_keeps _ _ _ _)
        exact h9
      clear_value x6
      clear_value x7
      refine Keeps.ite ?_ ?_
      · refine Keeps.trans ?_ (State.put_keeps _ _ _ _)
        refine Keeps.trans ?_ (State.put_keeps _ _ _ _)
        exact h10
      · extract_lets +onlyGivenNames x11 x12 x13
        have h14 : Keeps s x11 := by
          unfold x11
          refine Keeps.trans ?_ (State.put_keeps _ _ _ _)
          refine Keeps.trans ?_ (State.put_keeps _ _ _ _)
          exact h10
        clear_value x11
        clear_value x12
        clear_value x13
        refine Keeps.trans ?_ (State.cacheGo_keeps _ _)
        extract_lets +onlyGivenNames x15
        clear_value x15
        refine Keeps.trans ?_ (State.setCache_keeps _ _ _)
        exact h14

theorem execClean_keeps (h : Half) (range : Bool) (all : Bool) (incl : Bool) (s : State) :
    OutKeeps s (execClean h range all incl s) := by
  unfold execClean
  refine OutKeeps.next ?_
  refine Keeps.trans ?_ (State.maintStart_keeps _ _ _ _ _ _)
  exact Keeps.refl _

theorem execInv_keeps (h : Half) (range : Bool) (all : Bool) (incl : Bool) (s : State) :
    OutKeeps s (execInv h range all incl s) := by
  unfold execInv
  refine OutKeeps.next ?_
  refine Keeps.trans ?_ (State.maintStart_keeps _ _ _ _ _ _)
  exact Keeps.refl _

theorem execCleanInv_keeps (h : Half) (range : Bool) (all : Bool) (incl : Bool) (s : State) :
    OutKeeps s (execCleanInv h range all incl s) := by
  unfold execCleanInv
  refine OutKeeps.next ?_
  refine Keeps.trans ?_ (State.maintStart_keeps _ _ _ _ _ _)
  exact Keeps.refl _

theorem execLock_keeps (h : Half) (range : Bool) (all : Bool) (incl : Bool) (s : State) :
    OutKeeps s (execLock h range all incl s) := by
  unfold execLock
  refine OutKeeps.next ?_
  refine Keeps.trans ?_ (State.maintStart_keeps _ _ _ _ _ _)
  exact Keeps.refl _

theorem execUnlock_keeps (h : Half) (range : Bool) (all : Bool) (incl : Bool) (s : State) :
    OutKeeps s (execUnlock h range all incl s) := by
  unfold execUnlock
  refine OutKeeps.next ?_
  refine Keeps.trans ?_ (State.maintStart_keeps _ _ _ _ _ _)
  exact Keeps.refl _

theorem maintenanceDone_keeps (h : Half) (s : State) :
    Keeps s (maintenanceDone h s) := by
  unfold maintenanceDone
  extract_lets +onlyGivenNames x1
  clear_value x1
  split
  · rename_i y2 y3 y4
    refine Keeps.ite ?_ ?_
    · refine Keeps.trans ?_ (State.bcaShow_keeps _ _)
      refine Keeps.trans ?_ (State.put_keeps _ _ _ _)
      refine Keeps.trans ?_ (State.setCache_keeps _ _ _)
      exact Keeps.refl _
    · exact Keeps.refl _
  · rename_i y5 y6
    exact Keeps.refl _

theorem execMaintenanceDone_keeps (h : Half) (s : State) :
    OutKeeps s (execMaintenanceDone h s) := by
  unfold execMaintenanceDone
  refine OutKeeps.next ?_
  refine Keeps.trans ?_ (maintenanceDone_keeps _ _)
  exact Keeps.refl _

theorem State.wayPowerDown_keeps (s : State) (h : Half) (k : Nat) :
    Keeps s (State.wayPowerDown s h k) := by
  unfold State.wayPowerDown
  extract_lets +onlyGivenNames x1
  clear_value x1
  refine Keeps.ite ?_ ?_
  · exact Keeps.refl _
  · extract_lets +onlyGivenNames x2 x3
    have h4 : Keeps s x2 := by
      unfold x2
      refine Keeps.trans ?_ (State.putMaskBit_keeps _ _ _ _ _)
      refine Keeps.trans ?_ (State.putMaskBit_keeps _ _ _ _ _)
      refine Keeps.trans ?_ (Keeps.upd (s := s) rfl rfl rfl rfl)
      exact Keeps.refl _
    clear_value x2
    have h5 : Keeps s x3 := by
      unfold x3
      refine Keeps.trans ?_ (State.putMaskBit_keeps _ _ _ _ _)
      exact h4
    clear_value x3
    refine Keeps.trans ?_ (State.cacheGo_keeps _ _)
    extract_lets +onlyGivenNames x6
    clear_value x6
    refine Keeps.trans ?_ (State.setCache_keeps _ _ _)
    exact h5

theorem execWayPowerDown_keeps (h : Half) (k : Nat) (s : State) :
    OutKeeps s (execWayPowerDown h k s) := by
  unfold execWayPowerDown
  refine OutKeeps.next ?_
  refine Keeps.trans ?_ (State.wayPowerDown_keeps _ _ _)
  exact Keeps.refl _

theorem wayWalkEnd_keeps (h : Half) (k : Nat) (s : State) :
    Keeps s (wayWalkEnd h k s) := by
  unfold wayWalkEnd
  extract_lets +onlyGivenNames x1 x2
  clear_value x1
  clear_value x2
  split
  · rename_i y3 y4
    exact Keeps.refl _
  · rename_i y5 y6 y7
    refine Keeps.ite ?_ ?_
    · exact Keeps.refl _
    · extract_lets +onlyGivenNames x8 x9
      have h10 : Keeps s x8 := by
        unfold x8
        refine Keeps.trans ?_ (State.setCache_keeps _ _ _)
        exact Keeps.refl _
      clear_value x8
      have h11 : Keeps s x9 := by
        unfold x9
        refine Keeps.trans ?_ (State.putMaskBit_keeps _ _ _ _ _)
        refine Keeps.trans ?_ (State.putMaskBit_keeps _ _ _ _ _)
        exact h10
      clear_value x9
      refine Keeps.trans ?_ (State.bcaShow_keeps _ _)
      refine Keeps.trans ?_ (State.put_keeps _ _ _ _)
      refine Keeps.trans ?_ (State.flag_keeps _ _ _)
      exact h11

theorem execWayWalkEnd_keeps (h : Half) (k : Nat) (s : State) :
    OutKeeps s (execWayWalkEnd h k s) := by
  unfold execWayWalkEnd
  refine OutKeeps.next ?_
  refine Keeps.trans ?_ (wayWalkEnd_keeps _ _ _)
  exact Keeps.refl _

theorem State.wayPowerUp_keeps (s : State) (h : Half) (k : Nat) :
    Keeps s (State.wayPowerUp s h k) := by
  unfold State.wayPowerUp
  extract_lets +onlyGivenNames x1
  clear_value x1
  refine Keeps.ite ?_ ?_
  · exact Keeps.refl _
  · extract_lets +onlyGivenNames x2 x3
    have h4 : Keeps s x2 := by
      unfold x2
      refine Keeps.trans ?_ (State.putMaskBit_keeps _ _ _ _ _)
      refine Keeps.trans ?_ (Keeps.upd (s := s) rfl rfl rfl rfl)
      exact Keeps.refl _
    clear_value x2
    clear_value x3
    extract_lets +onlyGivenNames x5
    have h6 : Keeps s x5 := by
      unfold x5
      refine Keeps.ite ?_ ?_
      · refine Keeps.trans ?_ (State.count_keeps _ _ _ _ _ _)
        refine Keeps.trans ?_ (State.putMaskBit_keeps _ _ _ _ _)
        refine Keeps.trans ?_ (State.putMaskBit_keeps _ _ _ _ _)
        exact h4
      · refine Keeps.trans ?_ (State.putMaskBit_keeps _ _ _ _ _)
        refine Keeps.trans ?_ (State.setCache_keeps _ _ _)
        exact h4
    clear_value x5
    refine Keeps.trans ?_ (State.cacheGo_keeps _ _)
    exact h6

theorem execWayPowerUp_keeps (h : Half) (k : Nat) (s : State) :
    OutKeeps s (execWayPowerUp h k s) := by
  unfold execWayPowerUp
  refine OutKeeps.next ?_
  refine Keeps.trans ?_ (State.wayPowerUp_keeps _ _ _)
  exact Keeps.refl _

theorem wayOnDone_keeps (h : Half) (k : Nat) (s : State) :
    Keeps s (wayOnDone h k s) := by
  unfold wayOnDone
  extract_lets +onlyGivenNames x1
  clear_value x1
  refine Keeps.ite ?_ ?_
  · exact Keeps.refl _
  · extract_lets +onlyGivenNames x2
    have h3 : Keeps s x2 := by
      unfold x2
      refine Keeps.trans ?_ (State.putMaskBit_keeps _ _ _ _ _)
      refine Keeps.trans ?_ (Keeps.upd (s := s) rfl rfl rfl rfl)
      exact Keeps.refl _
    clear_value x2
    refine Keeps.trans ?_ (State.cacheGo_keeps _ _)
    refine Keeps.trans ?_ (State.put_keeps _ _ _ _)
    refine Keeps.trans ?_ (State.flag_keeps _ _ _)
    exact h3

theorem execWayOnDone_keeps (h : Half) (k : Nat) (s : State) :
    OutKeeps s (execWayOnDone h k s) := by
  unfold execWayOnDone
  refine OutKeeps.next ?_
  refine Keeps.trans ?_ (wayOnDone_keeps _ _ _)
  exact Keeps.refl _

theorem State.release_keeps (s : State) (h : Half) (r : Nat) (n : Nat) :
    Keeps s (State.release s h r n) := by
  unfold State.release
  extract_lets +onlyGivenNames x1 x2 x3 x4 x5 x6 x7 x8
  clear_value x1
  have h9 : Keeps s x2 := by
    unfold x2
    refine Keeps.foldl ?_ ?_
    · exact Keeps.refl _
    · intro a10 b11
      extract_lets +onlyGivenNames x12
      clear_value x12
      refine Keeps.trans ?_ (State.zeroFillDone_keeps _ _ _)
      refine Keeps.trans ?_ (State.setResv_keeps _ _ _)
      exact Keeps.refl _
  clear_value x2
  have h13 : Keeps s x3 := by
    unfold x3
    refine Keeps.foldl ?_ ?_
    · exact h9
    · intro a14 b15
      refine Keeps.trans ?_ (State.fillDone_keeps _ _ _ _)
      exact Keeps.refl _
  clear_value x3
  have h16 : Keeps s x4 := by
    unfold x4
    refine Keeps.foldl ?_ ?_
    · exact h13
    · intro a17 b18
      refine Keeps.trans ?_ (State.dropLine_keeps _ _ _ _)
      exact Keeps.refl _
  clear_value x4
  have h19 : Keeps s x5 := by
    unfold x5
    refine Keeps.foldl ?_ ?_
    · exact h16
    · intro a20 b21
      refine Keeps.trans ?_ (State.mergeDrop_keeps _ _ _)
      exact Keeps.refl _
  clear_value x5
  clear_value x6
  clear_value x7
  have h22 : Keeps s x8 := by
    unfold x8
    refine Keeps.foldl ?_ ?_
    · exact h19
    · intro a23 b24
      refine Keeps.trans ?_ (State.regionZero_keeps _ _ _)
      exact Keeps.refl _
  clear_value x8
  refine Keeps.trans ?_ (State.cacheGo_keeps _ _)
  refine Keeps.trans ?_ (State.bufShow_keeps _ _)
  refine Keeps.trans ?_ (State.setResv_keeps _ _ _)
  exact h22

theorem State.regionRelease_keeps (s : State) (h : Half) (count : Nat) :
    Keeps s (State.regionRelease s h count) := by
  unfold State.regionRelease
  refine Keeps.ite ?_ ?_
  · exact Keeps.refl _
  · extract_lets +onlyGivenNames x1 x2
    have h3 : Keeps s x1 := by
      unfold x1
      refine Keeps.trans ?_ (State.demand_keeps _ _ _)
      exact Keeps.refl _
    clear_value x1
    have h4 : Keeps s x2 := by
      unfold x2
      refine Keeps.trans ?_ (Keeps.upd (s := x1) rfl rfl rfl rfl)
      exact h3
    clear_value x2
    refine Keeps.trans ?_ (State.put_keeps _ _ _ _)
    refine Keeps.trans ?_ (State.release_keeps _ _ _ _)
    exact h4

theorem execRegionRelease_keeps (h : Half) (count : Nat) (s : State) :
    OutKeeps s (execRegionRelease h count s) := by
  unfold execRegionRelease
  refine OutKeeps.next ?_
  refine Keeps.trans ?_ (State.regionRelease_keeps _ _ _)
  exact Keeps.refl _

end Sys2Proof.Machine
end

