-- ==== Sys2Proof/Laws/KeepsAdapt.lean ====
section
/-! SUPPORT. What `Keeps` says of every operation of Machine/Adapt.lean. -/

namespace Sys2Proof.Machine

theorem State.chAdapt_keeps (s : State) (ci : Nat) (preamble : Bool) :
    Keeps s (State.chAdapt s ci preamble) := by
  unfold State.chAdapt
  extract_lets +onlyGivenNames x1
  clear_value x1
  refine Keeps.ite ?_ ?_
  · exact Keeps.refl _
  · split
    · rename_i y2 y3 y4 y5
      have h6 : Keeps s y4 := by
        refine Keeps2.use ?_ y5
        refine Keeps2.trans ?_ (State.takeFree_keeps _)
        exact Keeps.refl _
      extract_lets +onlyGivenNames x7
      clear_value x7
      split
      · rename_i y8 y9 y10 y11
        extract_lets +onlyGivenNames x12 x13 x14
        clear_value x12
        clear_value x13
        clear_value x14
        refine Keeps.trans ?_ (State.setRch_keeps _ _ _)
        exact h6

theorem State.chSnr_keeps (s : State) (ci : Nat) :
    Keeps s (State.chSnr s ci) := by
  unfold State.chSnr
  split
  · rename_i y1 y2 y3 y4
    have h5 : Keeps s y3 := by
      refine Keeps2.use ?_ y4
      refine Keeps2.trans ?_ (State.takeFree_keeps _)
      exact Keeps.refl _
    extract_lets +onlyGivenNames x6
    clear_value x6
    refine Keeps.trans ?_ (State.setRch_keeps _ _ _)
    exact h5

theorem State.chSelect_keeps (s : State) (ci : Nat) (group : Nat) :
    Keeps s (State.chSelect s ci group) := by
  unfold State.chSelect
  extract_lets +onlyGivenNames x1 x2
  clear_value x1
  clear_value x2
  refine Keeps.trans ?_ (State.setRch_keeps _ _ _)
  exact Keeps.refl _

theorem State.showLock_keeps (s : State) (ci : Nat) :
    Keeps s (State.showLock s ci) := by
  unfold State.showLock
  refine Keeps.trans ?_ (State.putB_keeps _ _ _ _)
  exact Keeps.refl _

theorem State.chLoop_keeps (s : State) (ci : Nat) (acq : Bool) (errs : List Int) :
    Keeps s (State.chLoop s ci acq errs) := by
  unfold State.chLoop
  extract_lets +onlyGivenNames x1 x2 x3
  clear_value x1
  clear_value x2
  clear_value x3
  refine Keeps.trans ?_ (State.showLock_keeps _ _)
  refine Keeps.trans ?_ (State.setRch_keeps _ _ _)
  exact Keeps.refl _

theorem State.chPhase_keeps (s : State) (ci : Nat) (phase : Int) :
    Keeps s (State.chPhase s ci phase) := by
  unfold State.chPhase
  extract_lets +onlyGivenNames x1
  clear_value x1
  refine Keeps.trans ?_ (State.setRch_keeps _ _ _)
  exact Keeps.refl _

end Sys2Proof.Machine
end

