-- ==== Sys2Proof/Laws/KeepsServo.lean ====
section
/-! SUPPORT. What `Keeps` says of every operation of Machine/Servo.lean. -/

namespace Sys2Proof.Machine

theorem State.latchPars_keeps (s : State) (ai : Nat) :
    Keeps s (State.latchPars s ai) := by
  unfold State.latchPars
  extract_lets +onlyGivenNames x1
  clear_value x1
  extract_lets +onlyGivenNames x2
  clear_value x2
  refine Keeps.trans ?_ (State.setSrv_keeps _ _ _)
  exact Keeps.refl _

theorem State.modelCorrect_keeps (s : State) (ai : Nat) (ks : List Nat) :
    Keeps s (State.modelCorrect s ai ks) := by
  unfold State.modelCorrect
  extract_lets +onlyGivenNames x1
  clear_value x1
  refine Keeps.ite ?_ ?_
  · refine Keeps.trans ?_ (State.setSrv_keeps _ _ _)
    exact Keeps.refl _
  · extract_lets +onlyGivenNames x2 x3
    clear_value x2
    clear_value x3
    refine Keeps.trans ?_ (State.setSrv_keeps _ _ _)
    exact Keeps.refl _

theorem State.predict_keeps (s : State) (ai : Nat) :
    Keeps s (State.predict s ai) := by
  unfold State.predict
  extract_lets +onlyGivenNames x1
  clear_value x1
  refine Keeps.trans ?_ (State.setSrv_keeps _ _ _)
  exact Keeps.refl _

theorem State.setPass_keeps (s : State) (ai : Nat) (band : Nat) (group : Nat) (mask : Nat) :
    Keeps s (State.setPass s ai band group mask) := by
  unfold State.setPass
  extract_lets +onlyGivenNames x1 x2 x3 x4 x5 x6 x7
  clear_value x1
  clear_value x2
  clear_value x3
  clear_value x4
  clear_value x5
  have h8 : Keeps s x6 := by
    unfold x6
    refine Keeps.trans ?_ (State.setSrv_keeps _ _ _)
    exact Keeps.refl _
  clear_value x6
  have h9 : Keeps s x7 := by
    unfold x7
    refine Keeps.trans ?_ (State.put_keeps _ _ _ _)
    refine Keeps.trans ?_ (State.put_keeps _ _ _ _)
    refine Keeps.trans ?_ (State.put_keeps _ _ _ _)
    exact h8
  clear_value x7
  refine Keeps.foldl ?_ ?_
  · refine Keeps.trans ?_ (State.predict_keeps _ _)
    exact h9
  · intro a10 b11
    extract_lets +onlyGivenNames x12
    have h13 : Keeps a10 x12 := by
      unfold x12
      refine Keeps.trans ?_ (State.putB_keeps _ _ _ _)
      exact Keeps.refl _
    clear_value x12
    refine Keeps.ite ?_ ?_
    · refine Keeps.trans ?_ (State.put_keeps _ _ _ _)
      exact h13
    · refine Keeps.trans ?_ (State.put_keeps _ _ _ _)
      exact h13

theorem State.srvMove_keeps (s : State) (ai : Nat) (band : Nat) (group : Nat) (mask : Nat) :
    Keeps s (State.srvMove s ai band group mask) := by
  unfold State.srvMove
  extract_lets +onlyGivenNames x1 x2 x3 x4 x5
  clear_value x1
  have h6 : Keeps s x2 := by
    unfold x2
    refine Keeps.trans ?_ (State.setPass_keeps _ _ _ _ _)
    exact Keeps.refl _
  clear_value x2
  clear_value x3
  clear_value x4
  clear_value x5
  refine Keeps.ite ?_ ?_
  · extract_lets +onlyGivenNames x7
    have h8 : Keeps s x7 := by
      unfold x7
      refine Keeps.trans ?_ (State.setSrv_keeps _ _ _)
      exact h6
    clear_value x7
    refine Keeps.ite ?_ ?_
    · exact h8
    · refine Keeps.trans ?_ (State.setSrvState_keeps _ _ _)
      exact h8
  · extract_lets +onlyGivenNames x9 x10 x11
    clear_value x9
    have h12 : Keeps s x10 := by
      unfold x10
      refine Keeps.trans ?_ (State.setSrv_keeps _ _ _)
      exact h6
    clear_value x10
    have h13 : Keeps s x11 := by
      unfold x11
      refine Keeps.foldl ?_ ?_
      · exact h12
      · intro a14 b15
        refine Keeps.trans ?_ (State.put_keeps _ _ _ _)
        exact Keeps.refl _
    clear_value x11
    refine Keeps.ite ?_ ?_
    · exact h13
    · refine Keeps.trans ?_ (State.setSrvState_keeps _ _ _)
      exact h13

theorem State.parkMove_keeps (s : State) (ai : Nat) :
    Keeps s (State.parkMove s ai) := by
  unfold State.parkMove
  refine Keeps.trans ?_ (State.srvMove_keeps _ _ _ _ _)
  exact Keeps.refl _

theorem State.servoParkCmd_keeps (s : State) (ai : Nat) :
    Keeps s (State.servoParkCmd s ai) := by
  unfold State.servoParkCmd
  extract_lets +onlyGivenNames x1 x2
  clear_value x1
  have h3 : Keeps s x2 := by
    unfold x2
    refine Keeps.trans ?_ (State.servoPark_keeps _ _)
    exact Keeps.refl _
  clear_value x2
  refine Keeps.ite ?_ ?_
  · refine Keeps.trans ?_ (State.parkMove_keeps _ _)
    exact h3
  · exact h3

theorem State.seekBand_keeps (s : State) (ai : Nat) (kind : Nat) (band : Nat) :
    Keeps s (State.seekBand s ai kind band) := by
  unfold State.seekBand
  extract_lets +onlyGivenNames x1 x2 x3 x4 x5
  clear_value x1
  clear_value x2
  clear_value x3
  clear_value x4
  clear_value x5
  refine Keeps.ite ?_ ?_
  · refine Keeps.trans ?_ (State.seekAnswer_keeps _ _ _)
    exact Keeps.refl _
  · refine Keeps.ite ?_ ?_
    · refine Keeps.trans ?_ (State.seekAnswer_keeps _ _ _)
      exact Keeps.refl _
    · refine Keeps.trans ?_ (State.srvMove_keeps _ _ _ _ _)
      exact Keeps.refl _

theorem State.servoSeek_keeps (s : State) (ai : Nat) (kind : Nat) (band : Nat) :
    Keeps s (State.servoSeek s ai kind band) := by
  unfold State.servoSeek
  extract_lets +onlyGivenNames x1
  clear_value x1
  extract_lets +onlyGivenNames x2
  have h3 : Keeps s x2 := by
    unfold x2
    refine Keeps.trans ?_ (State.setSrv_keeps _ _ _)
    exact Keeps.refl _
  clear_value x2
  refine Keeps.ite ?_ ?_
  · refine Keeps.ite ?_ ?_
    · refine Keeps.trans ?_ (State.seekAnswer_keeps _ _ _)
      exact h3
    · refine Keeps.trans ?_ (State.servoParkCmd_keeps _ _)
      exact h3
  · extract_lets +onlyGivenNames x4
    have h5 : Keeps s x4 := by
      unfold x4
      refine Keeps.trans ?_ (State.count_keeps _ _ _ _ _ _)
      exact h3
    clear_value x4
    refine Keeps.ite ?_ ?_
    · extract_lets +onlyGivenNames x6
      clear_value x6
      refine Keeps.trans ?_ (State.setSrv_keeps _ _ _)
      exact h5
    · refine Keeps.trans ?_ (State.seekBand_keeps _ _ _ _)
      exact h5

theorem State.calMove_keeps (s : State) (ai : Nat) (seg : Nat) (g : Nat) :
    Keeps s (State.calMove s ai seg g) := by
  unfold State.calMove
  extract_lets +onlyGivenNames x1 x2 x3
  clear_value x1
  have h4 : Keeps s x2 := by
    unfold x2
    refine Keeps.trans ?_ (State.srvMove_keeps _ _ _ _ _)
    exact Keeps.refl _
  clear_value x2
  clear_value x3
  extract_lets +onlyGivenNames x5
  have h6 : Keeps s x5 := by
    unfold x5
    refine Keeps.trans ?_ (State.setSrv_keeps _ _ _)
    exact h4
  clear_value x5
  refine Keeps.ite ?_ ?_
  · exact h6
  · extract_lets +onlyGivenNames x7
    clear_value x7
    refine Keeps.trans ?_ (State.setPa_keeps _ _ _)
    exact h6

theorem State.calStart_keeps (s : State) (ai : Nat) (seg : Nat) (groups : Nat) (why : Nat) :
    Keeps s (State.calStart s ai seg groups why) := by
  unfold State.calStart
  extract_lets +onlyGivenNames x1
  clear_value x1
  refine Keeps.ite ?_ ?_
  · exact Keeps.refl _
  · extract_lets +onlyGivenNames x2 x3 x4
    clear_value x2
    clear_value x3
    have h5 : Keeps s x4 := by
      unfold x4
      refine Keeps.trans ?_ (State.setSrv_keeps _ _ _)
      exact Keeps.refl _
    clear_value x4
    extract_lets +onlyGivenNames x6
    have h7 : Keeps s x6 := by
      unfold x6
      refine Keeps.trans ?_ (State.put_keeps _ _ _ _)
      refine Keeps.trans ?_ (State.put_keeps _ _ _ _)
      exact h5
    clear_value x6
    refine Keeps.trans ?_ (State.calMove_keeps _ _ _ _)
    exact h7

theorem State.calStop_keeps (s : State) (ai : Nat) :
    Keeps s (State.calStop s ai) := by
  unfold State.calStop
  extract_lets +onlyGivenNames x1 x2
  clear_value x1
  have h3 : Keeps s x2 := by
    unfold x2
    refine Keeps.trans ?_ (State.setSrv_keeps _ _ _)
    exact Keeps.refl _
  clear_value x2
  extract_lets +onlyGivenNames x4
  have h5 : Keeps s x4 := by
    unfold x4
    refine Keeps.trans ?_ (State.put_keeps _ _ _ _)
    exact h3
  clear_value x4
  refine Keeps.trans ?_ (State.putB_keeps _ _ _ _)
  exact h5

theorem State.calSample_keeps (s : State) (ai : Nat) (obs : List SlotObs) :
    Keeps s (State.calSample s ai obs) := by
  unfold State.calSample
  split
  · rename_i y1 y2
    exact Keeps.refl _
  · rename_i y3 y4 y5
    refine Keeps.ite ?_ ?_
    · exact Keeps.refl _
    · extract_lets +onlyGivenNames x6
      clear_value x6
      extract_lets +onlyGivenNames x7
      clear_value x7
      refine Keeps.trans ?_ (State.setSrv_keeps _ _ _)
      exact Keeps.refl _

theorem State.sweepDone_keeps (s : State) (ai : Nat) :
    Keeps s (State.sweepDone s ai) := by
  unfold State.sweepDone
  extract_lets +onlyGivenNames x1 x2 x3
  clear_value x1
  clear_value x2
  have h4 : Keeps s x3 := by
    unfold x3
    refine Keeps.trans ?_ (State.setSrv_keeps _ _ _)
    exact Keeps.refl _
  clear_value x3
  extract_lets +onlyGivenNames x5
  have h6 : Keeps s x5 := by
    unfold x5
    refine Keeps.trans ?_ (State.satAdd_keeps _ _ _ _)
    refine Keeps.trans ?_ (State.put_keeps _ _ _ _)
    exact h4
  clear_value x5
  refine Keeps.trans ?_ (State.put_keeps _ _ _ _)
  refine Keeps.trans ?_ (State.flag_keeps _ _ _)
  exact h6

theorem State.calNextStart_keeps (s : State) (ai : Nat) :
    Keeps s (State.calNextStart s ai) := by
  unfold State.calNextStart
  extract_lets +onlyGivenNames x1
  clear_value x1
  refine Keeps.ite ?_ ?_
  · exact Keeps.refl _
  · split
    · rename_i y2 y3 y4
      refine Keeps.trans ?_ (State.calStart_keeps _ _ _ _ _)
      refine Keeps.trans ?_ (State.setSrv_keeps _ _ _)
      exact Keeps.refl _
    · rename_i y5 y6
      split
      · rename_i y7 y8 y9
        split
        · rename_i y10 y11 y12
          refine Keeps.trans ?_ (State.calStart_keeps _ _ _ _ _)
          exact Keeps.refl _
        · rename_i y13 y14
          refine Keeps.trans ?_ (State.sweepDone_keeps _ _)
          exact Keeps.refl _
      · rename_i y15 y16
        exact Keeps.refl _

theorem State.calCheck_keeps (s : State) (ai : Nat) :
    Keeps s (State.calCheck s ai) := by
  unfold State.calCheck
  split
  · rename_i y1 y2
    refine Keeps.trans ?_ (State.calNextStart_keeps _ _)
    exact Keeps.refl _
  · rename_i y3 y4 y5
    refine Keeps.ite ?_ ?_
    · extract_lets +onlyGivenNames x6
      have h7 : Keeps s x6 := by
        unfold x6
        refine Keeps.trans ?_ (State.calStop_keeps _ _)
        exact Keeps.refl _
      clear_value x6
      refine Keeps.ite ?_ ?_
      · extract_lets +onlyGivenNames x8
        clear_value x8
        refine Keeps.trans ?_ (State.setSrv_keeps _ _ _)
        exact h7
      · exact h7
    · refine Keeps.ite ?_ ?_
      · refine Keeps.trans ?_ (State.calStop_keeps _ _)
        exact Keeps.refl _
      · refine Keeps.ite ?_ ?_
        · refine Keeps.trans ?_ (State.calMove_keeps _ _ _ _)
          extract_lets +onlyGivenNames x9
          clear_value x9
          refine Keeps.trans ?_ (State.setSrv_keeps _ _ _)
          exact Keeps.refl _
        · exact Keeps.refl _

theorem State.calTemp_keeps (s : State) (ai : Nat) (temp : Nat) :
    Keeps s (State.calTemp s ai temp) := by
  unfold State.calTemp
  extract_lets +onlyGivenNames x1 x2 x3 x4
  clear_value x1
  have h5 : Keeps s x2 := by
    unfold x2
    refine Keeps.trans ?_ (State.put_keeps _ _ _ _)
    exact Keeps.refl _
  clear_value x2
  clear_value x3
  clear_value x4
  refine Keeps.ite ?_ ?_
  · extract_lets +onlyGivenNames x6
    clear_value x6
    refine Keeps.trans ?_ (State.setSrv_keeps _ _ _)
    exact h5
  · exact h5

theorem State.calDone_keeps (s : State) (ai : Nat) (r : CalRun) :
    Keeps s (State.calDone s ai r) := by
  unfold State.calDone
  extract_lets +onlyGivenNames x1 x2 x3
  clear_value x1
  have h4 : Keeps s x2 := by
    unfold x2
    refine Keeps.trans ?_ (State.put_keeps _ _ _ _)
    refine Keeps.trans ?_ (State.calStop_keeps _ _)
    exact Keeps.refl _
  clear_value x2
  have h5 : Keeps s x3 := by
    unfold x3
    refine Keeps.trans ?_ (State.count_keeps _ _ _ _ _ _)
    exact h4
  clear_value x3
  refine Keeps.ite ?_ ?_
  · refine Keeps.ite ?_ ?_
    · extract_lets +onlyGivenNames x6
      clear_value x6
      refine Keeps.trans ?_ (State.setSrv_keeps _ _ _)
      exact h5
    · refine Keeps.trans ?_ (State.sweepDone_keeps _ _)
      exact h5
  · refine Keeps.ite ?_ ?_
    · extract_lets +onlyGivenNames x7 x8 x9
      clear_value x7
      clear_value x8
      have h10 : Keeps s x9 := by
        unfold x9
        refine Keeps.trans ?_ (State.setSrv_keeps _ _ _)
        exact h5
      clear_value x9
      refine Keeps.ite ?_ ?_
      · refine Keeps.trans ?_ (State.put_keeps _ _ _ _)
        exact h10
      · exact h10
    · refine Keeps.ite ?_ ?_
      · extract_lets +onlyGivenNames x11 x12
        clear_value x11
        have h13 : Keeps s x12 := by
          unfold x12
          refine Keeps.trans ?_ (State.setFmt_keeps _ _ _)
          exact h5
        clear_value x12
        split
        · rename_i y14 y15 y16 y17
          refine Keeps.trans ?_ (State.seekBand_keeps _ _ _ _)
          extract_lets +onlyGivenNames x18
          clear_value x18
          refine Keeps.trans ?_ (State.setSrv_keeps _ _ _)
          exact h13
        · rename_i y19 y20
          exact h13
      · exact h5

theorem State.headRecord_keeps (s : State) (ai : Nat) (o : SlotObs) :
    Keeps s (State.headRecord s ai o) := by
  unfold State.headRecord
  extract_lets +onlyGivenNames x1 x2 x3
  clear_value x1
  have h4 : Keeps s x2 := by
    unfold x2
    refine Keeps.trans ?_ (State.put_keeps _ _ _ _)
    refine Keeps.trans ?_ (State.put_keeps _ _ _ _)
    exact Keeps.refl _
  clear_value x2
  have h5 : Keeps s x3 := by
    unfold x3
    refine Keeps.trans ?_ (State.putB_keeps _ _ _ _)
    refine Keeps.trans ?_ (State.putB_keeps _ _ _ _)
    exact h4
  clear_value x3
  refine Keeps.ite ?_ ?_
  · exact h5
  · refine Keeps.trans ?_ (State.put_keeps _ _ _ _)
    exact h5

theorem State.headReplaced_keeps (s : State) (ai : Nat) (o : SlotObs) :
    Keeps s (State.headReplaced s ai o) := by
  unfold State.headReplaced
  extract_lets +onlyGivenNames x1 x2 x3 x4
  clear_value x1
  clear_value x2
  have h5 : Keeps s x3 := by
    unfold x3
    refine Keeps.ite ?_ ?_
    · refine Keeps.trans ?_ (State.count_keeps _ _ _ _ _ _)
      exact Keeps.refl _
    · exact Keeps.refl _
  clear_value x3
  have h6 : Keeps s x4 := by
    unfold x4
    refine Keeps.ite ?_ ?_
    · refine Keeps.trans ?_ (State.flag_keeps _ _ _)
      refine Keeps.trans ?_ (State.count_keeps _ _ _ _ _ _)
      exact h5
    · exact h5
  clear_value x4
  refine Keeps.ite ?_ ?_
  · refine Keeps.trans ?_ (State.flag_keeps _ _ _)
    exact h6
  · exact h6

theorem State.snufWedge_keeps (s : State) (ai : Nat) (obs : List SlotObs) :
    Keeps s (State.snufWedge s ai obs) := by
  unfold State.snufWedge
  extract_lets +onlyGivenNames x1 x2 x3 x4 x5 x6 x7 x8 x9 x10 x11 x12 x13 x14
  clear_value x1
  clear_value x2
  clear_value x3
  have h15 : Keeps s x4 := by
    unfold x4
    refine Keeps.ite ?_ ?_
    · refine Keeps.foldl ?_ ?_
      · exact Keeps.refl _
      · intro a16 b17
        refine Keeps.trans ?_ (State.peak_keeps _ _ _ _)
        exact Keeps.refl _
    · exact Keeps.refl _
  clear_value x4
  clear_value x5
  clear_value x6
  clear_value x7
  clear_value x8
  clear_value x9
  clear_value x10
  have h18 : Keeps s x11 := by
    unfold x11
    refine Keeps.ite ?_ ?_
    · exact h15
    · refine Keeps.trans ?_ (State.setWick_keeps _ _ _)
      exact h15
  clear_value x11
  clear_value x12
  have h19 : Keeps s x13 := by
    unfold x13
    refine Keeps.trans ?_ (State.setFmt_keeps _ _ _)
    exact h18
  clear_value x13
  clear_value x14
  extract_lets +onlyGivenNames x20
  have h21 : Keeps s x20 := by
    unfold x20
    split
    · rename_i y22
      exact h19
    · rename_i y23 y24 y25
      extract_lets +onlyGivenNames x26
      have h27 : Keeps s x26 := by
        unfold x26
        refine Keeps.trans ?_ (State.snufTrip_keeps _ _ _ _ _)
        exact h19
      clear_value x26
      refine Keeps.ite ?_ ?_
      · exact h27
      · refine Keeps.foldl ?_ ?_
        · exact h27
        · intro a28 b29
          refine Keeps.ite ?_ ?_
          · refine Keeps.trans ?_ (State.neighCheck_keeps _ _ _ _)
            exact Keeps.refl _
          · exact Keeps.refl _
  clear_value x20
  split
  · rename_i y30
    exact h21
  · rename_i y31 y32 y33
    refine Keeps.trans ?_ (State.snufTrip_keeps _ _ _ _ _)
    exact h21

theorem State.srvPacket_keeps (s : State) (ai : Nat) (obs : List SlotObs) :
    Keeps s (State.srvPacket s ai obs) := by
  unfold State.srvPacket
  refine Keeps.ite ?_ ?_
  · exact Keeps.refl _
  · extract_lets +onlyGivenNames x1 x2 x3 x4
    clear_value x1
    clear_value x2
    clear_value x3
    clear_value x4
    refine Keeps.trans ?_ (State.trace_keeps _ _ _ _ _)
    exact Keeps.refl _

theorem State.demodWedge_keeps (s : State) (ai : Nat) (samples : List DemodSample) (interval : Nat) :
    Keeps s (State.demodWedge s ai samples interval) := by
  unfold State.demodWedge
  extract_lets +onlyGivenNames x1 x2 x3 x4 x5 x6 x7 x8 x9 x10 x11 x12 x13 x14 x15 x16 x17 x18 x19
  clear_value x1
  clear_value x2
  clear_value x3
  clear_value x4
  clear_value x5
  clear_value x6
  clear_value x7
  clear_value x8
  clear_value x9
  clear_value x10
  clear_value x11
  clear_value x12
  have h20 : Keeps s x13 := by
    unfold x13
    refine Keeps.trans ?_ (State.put_keeps _ _ _ _)
    exact Keeps.refl _
  clear_value x13
  have h21 : Keeps s x14 := by
    unfold x14
    refine Keeps.ite ?_ ?_
    · refine Keeps.trans ?_ (State.setSrv_keeps _ _ _)
      refine Keeps.trans ?_ (State.put_keeps _ _ _ _)
      exact h20
    · exact h20
  clear_value x14
  have h22 : Keeps s x15 := by
    unfold x15
    refine Keeps.foldl ?_ ?_
    · exact h21
    · intro a23 b24
      refine Keeps.trans ?_ (State.headRecord_keeps _ _ _)
      exact Keeps.refl _
  clear_value x15
  clear_value x16
  clear_value x17
  clear_value x18
  have h25 : Keeps s x19 := by
    unfold x19
    refine Keeps.trans ?_ (State.setSrv_keeps _ _ _)
    exact h22
  clear_value x19
  refine Keeps.ite ?_ ?_
  · exact h25
  · extract_lets +onlyGivenNames x26 x27 x28 x29 x30 x31
    clear_value x26
    have h32 : Keeps s x27 := by
      unfold x27
      refine Keeps.foldl ?_ ?_
      · exact h25
      · intro a33 b34
        refine Keeps.trans ?_ (State.headReplaced_keeps _ _ _)
        exact Keeps.refl _
    clear_value x27
    clear_value x28
    have h35 : Keeps s x29 := by
      unfold x29
      refine Keeps.trans ?_ (State.setSrv_keeps _ _ _)
      exact h32
    clear_value x29
    have h36 : Keeps s x30 := by
      unfold x30
      refine Keeps.trans ?_ (State.modelCorrect_keeps _ _ _)
      exact h35
    clear_value x30
    clear_value x31
    extract_lets +onlyGivenNames x37
    have h38 : Keeps s x37 := by
      unfold x37
      refine Keeps.ite ?_ ?_
      · refine Keeps.trans ?_ (State.put_keeps _ _ _ _)
        exact h36
      · refine Keeps.ite ?_ ?_
        · exact h36
        · refine Keeps.trans ?_ (State.put_keeps _ _ _ _)
          exact h36
    clear_value x37
    refine Keeps.trans ?_ (State.snufWedge_keeps _ _ _)
    refine Keeps.trans ?_ (State.calSample_keeps _ _ _)
    exact h38

theorem servoDemodEnd_keeps (h : Half) (u : Nat) (samples : List DemodSample) (interval : Nat) (s : State) :
    Keeps s (servoDemodEnd h u samples interval s) := by
  unfold servoDemodEnd
  extract_lets +onlyGivenNames x1
  clear_value x1
  refine Keeps.ite ?_ ?_
  · refine Keeps.trans ?_ (State.servoLeaveOff_keeps _ _)
    refine Keeps.trans ?_ (State.servoToOff_keeps _ _)
    exact Keeps.refl _
  · extract_lets +onlyGivenNames x2 x3 x4 x5 x6 x7 x8
    have h9 : Keeps s x2 := by
      unfold x2
      refine Keeps.trans ?_ (State.latchPars_keeps _ _)
      exact Keeps.refl _
    clear_value x2
    have h10 : Keeps s x3 := by
      unfold x3
      refine Keeps.ite ?_ ?_
      · refine Keeps.trans ?_ (State.demodWedge_keeps _ _ _ _)
        exact h9
      · exact h9
    clear_value x3
    clear_value x4
    clear_value x5
    have h11 : Keeps s x6 := by
      unfold x6
      refine Keeps.ite ?_ ?_
      · refine Keeps.trans ?_ (State.setSrv_keeps _ _ _)
        exact h10
      · exact h10
    clear_value x6
    clear_value x7
    have h12 : Keeps s x8 := by
      unfold x8
      refine Keeps.trans ?_ (State.srvPacket_keeps _ _ _)
      exact h11
    clear_value x8
    extract_lets +onlyGivenNames x13
    have h14 : Keeps s x13 := by
      unfold x13
      refine Keeps.trans ?_ (State.calCheck_keeps _ _)
      exact h12
    clear_value x13
    extract_lets +onlyGivenNames x15
    clear_value x15
    refine Keeps.trans ?_ (State.setSrv_keeps _ _ _)
    exact h14

theorem execServoDemodEnd_keeps (h : Half) (u : Nat) (samples : List DemodSample) (interval : Nat) (s : State) :
    OutKeeps s (execServoDemodEnd h u samples interval s) := by
  unfold execServoDemodEnd
  refine OutKeeps.next ?_
  refine Keeps.trans ?_ (servoDemodEnd_keeps _ _ _ _ _)
  exact Keeps.refl _

theorem State.maStep_keeps (s : State) (ai : Nat) (k : Nat) :
    Keeps s (State.maStep s ai k) := by
  unfold State.maStep
  extract_lets +onlyGivenNames x1 x2 x3
  clear_value x1
  clear_value x2
  clear_value x3
  split
  · rename_i y4 y5 y6 y7
    extract_lets +onlyGivenNames x8 x9 x10 x11 x12
    clear_value x8
    clear_value x9
    clear_value x10
    have h13 : Keeps s x11 := by
      unfold x11
      refine Keeps.trans ?_ (State.setSrv_keeps _ _ _)
      exact Keeps.refl _
    clear_value x11
    have h14 : Keeps s x12 := by
      unfold x12
      refine Keeps.trans ?_ (State.putB_keeps _ _ _ _)
      refine Keeps.trans ?_ (State.put_keeps _ _ _ _)
      exact h13
    clear_value x12
    refine Keeps.trans ?_ (State.put_keeps _ _ _ _)
    exact h14

theorem State.followStep_keeps (s : State) (ai : Nat) (ff : Rat) :
    Keeps s (State.followStep s ai ff) := by
  unfold State.followStep
  extract_lets +onlyGivenNames x1 x2 x3 x4 x5 x6 x7 x8
  clear_value x1
  clear_value x2
  clear_value x3
  clear_value x4
  clear_value x5
  clear_value x6
  clear_value x7
  have h9 : Keeps s x8 := by
    unfold x8
    refine Keeps.trans ?_ (State.setSrv_keeps _ _ _)
    exact Keeps.refl _
  clear_value x8
  refine Keeps.ite ?_ ?_
  · exact h9
  · refine Keeps.foldl ?_ ?_
    · exact h9
    · intro a10 b11
      refine Keeps.trans ?_ (State.maStep_keeps _ _ _)
      exact Keeps.refl _

theorem State.profileStep_keeps (s : State) (ai : Nat) (p : Profile) (ff : Rat) :
    Keeps s (State.profileStep s ai p ff) := by
  unfold State.profileStep
  extract_lets +onlyGivenNames x1
  clear_value x1
  refine Keeps.trans ?_ (State.setSrv_keeps _ _ _)
  exact Keeps.refl _

theorem State.emfDrive_keeps (s : State) (ai : Nat) :
    Keeps s (State.emfDrive s ai) := by
  unfold State.emfDrive
  split
  · rename_i y1 y2 y3 y4
    have h5 : Keeps s y3 := by
      refine Keeps2.use ?_ y4
      refine Keeps2.trans ?_ (State.takeFree_keeps _)
      exact Keeps.refl _
    extract_lets +onlyGivenNames x6 x7
    clear_value x6
    clear_value x7
    extract_lets +onlyGivenNames x8
    clear_value x8
    refine Keeps.trans ?_ (State.setSrv_keeps _ _ _)
    exact h5

theorem servoComputationEnd_keeps (h : Half) (u : Nat) (ns : Nat) (s : State) :
    Keeps s (servoComputationEnd h u ns s) := by
  unfold servoComputationEnd
  extract_lets +onlyGivenNames x1 x2 x3
  clear_value x1
  clear_value x2
  clear_value x3
  refine Keeps.ite ?_ ?_
  · exact Keeps.refl _
  · extract_lets +onlyGivenNames x4 x5
    clear_value x4
    have h6 : Keeps s x5 := by
      unfold x5
      refine Keeps.trans ?_ (State.setSrv_keeps _ _ _)
      exact Keeps.refl _
    clear_value x5
    refine Keeps.ite ?_ ?_
    · refine Keeps.trans ?_ (State.setSrv_keeps _ _ _)
      exact h6
    · refine Keeps.ite ?_ ?_
      · refine Keeps.trans ?_ (State.setSrv_keeps _ _ _)
        exact h6
      · refine Keeps.ite ?_ ?_
        · refine Keeps.trans ?_ (State.emfDrive_keeps _ _)
          exact h6
        · split
          · rename_i y7 y8 y9
            refine Keeps.trans ?_ (State.profileStep_keeps _ _ _ _)
            exact h6
          · rename_i y10 y11
            refine Keeps.trans ?_ (State.followStep_keeps _ _ _)
            exact h6

theorem execServoComputationEnd_keeps (h : Half) (u : Nat) (ns : Nat) (s : State) :
    OutKeeps s (execServoComputationEnd h u ns s) := by
  unfold execServoComputationEnd
  refine OutKeeps.next ?_
  refine Keeps.trans ?_ (servoComputationEnd_keeps _ _ _ _)
  exact Keeps.refl _

theorem servoOutputApply_keeps (h : Half) (u : Nat) (s : State) :
    Keeps s (servoOutputApply h u s) := by
  unfold servoOutputApply
  extract_lets +onlyGivenNames x1 x2
  clear_value x1
  clear_value x2
  refine Keeps.ite ?_ ?_
  · exact Keeps.refl _
  · extract_lets +onlyGivenNames x3 x4
    clear_value x3
    clear_value x4
    split
    · rename_i y5 y6 y7 y8
      extract_lets +onlyGivenNames x9 x10 x11 x12
      clear_value x9
      have h13 : Keeps s x10 := by
        unfold x10
        refine Keeps.trans ?_ (State.predict_keeps _ _)
        refine Keeps.trans ?_ (State.setSrv_keeps _ _ _)
        exact Keeps.refl _
      clear_value x10
      clear_value x11
      have h14 : Keeps s x12 := by
        unfold x12
        refine Keeps.trans ?_ (State.setPa_keeps _ _ _)
        exact h13
      clear_value x12
      extract_lets +onlyGivenNames x15
      have h16 : Keeps s x15 := by
        unfold x15
        refine Keeps.trans ?_ (State.put_keeps _ _ _ _)
        refine Keeps.trans ?_ (State.put_keeps _ _ _ _)
        exact h14
      clear_value x15
      refine Keeps.foldl ?_ ?_
      · exact h16
      · intro a17 b18
        refine Keeps.trans ?_ (State.put_keeps _ _ _ _)
        exact Keeps.refl _

theorem execServoOutputApply_keeps (h : Half) (u : Nat) (s : State) :
    OutKeeps s (execServoOutputApply h u s) := by
  unfold execServoOutputApply
  refine OutKeeps.next ?_
  refine Keeps.trans ?_ (servoOutputApply_keeps _ _ _)
  exact Keeps.refl _

theorem implausRetract_keeps (h : Half) (u : Nat) (s : State) :
    Keeps s (implausRetract h u s) := by
  unfold implausRetract
  extract_lets +onlyGivenNames x1
  clear_value x1
  refine Keeps.ite ?_ ?_
  · extract_lets +onlyGivenNames x2 x3
    clear_value x2
    have h4 : Keeps s x3 := by
      unfold x3
      refine Keeps.trans ?_ (State.servoRetract_keeps _ _ _)
      exact Keeps.refl _
    clear_value x3
    refine Keeps.ite ?_ ?_
    · refine Keeps.trans ?_ (State.emfDrive_keeps _ _)
      exact h4
    · exact h4
  · exact Keeps.refl _

theorem execImplausRetract_keeps (h : Half) (u : Nat) (s : State) :
    OutKeeps s (execImplausRetract h u s) := by
  unfold execImplausRetract
  refine OutKeeps.next ?_
  refine Keeps.trans ?_ (implausRetract_keeps _ _ _)
  exact Keeps.refl _

theorem State.raiseAlarm_keeps (s : State) (ai : Nat) :
    Keeps s (State.raiseAlarm s ai) := by
  unfold State.raiseAlarm
  extract_lets +onlyGivenNames x1 x2 x3
  clear_value x1
  clear_value x2
  have h4 : Keeps s x3 := by
    unfold x3
    refine Keeps.trans ?_ (State.setSrv_keeps _ _ _)
    exact Keeps.refl _
  clear_value x3
  extract_lets +onlyGivenNames x5
  have h6 : Keeps s x5 := by
    unfold x5
    refine Keeps.trans ?_ (State.count_keeps _ _ _ _ _ _)
    refine Keeps.trans ?_ (State.flag_keeps _ _ _)
    exact h4
  clear_value x5
  refine Keeps.trans ?_ (State.calStart_keeps _ _ _ _ _)
  exact h6

theorem reachAlarm_keeps (h : Half) (u : Nat) (s : State) :
    Keeps s (reachAlarm h u s) := by
  unfold reachAlarm
  extract_lets +onlyGivenNames x1 x2 x3
  clear_value x1
  clear_value x2
  clear_value x3
  refine Keeps.ite ?_ ?_
  · exact Keeps.refl _
  · refine Keeps.ite ?_ ?_
    · refine Keeps.trans ?_ (State.raiseAlarm_keeps _ _)
      exact Keeps.refl _
    · refine Keeps.ite ?_ ?_
      · extract_lets +onlyGivenNames x4
        clear_value x4
        refine Keeps.trans ?_ (State.setSrv_keeps _ _ _)
        exact Keeps.refl _
      · exact Keeps.refl _

theorem execReachAlarm_keeps (h : Half) (u : Nat) (s : State) :
    OutKeeps s (execReachAlarm h u s) := by
  unfold execReachAlarm
  refine OutKeeps.next ?_
  refine Keeps.trans ?_ (reachAlarm_keeps _ _ _)
  exact Keeps.refl _

theorem State.seekFail_keeps (s : State) (ai : Nat) :
    Keeps s (State.seekFail s ai) := by
  unfold State.seekFail
  extract_lets +onlyGivenNames x1
  clear_value x1
  extract_lets +onlyGivenNames x2
  have h3 : Keeps s x2 := by
    unfold x2
    refine Keeps.trans ?_ (State.setSrv_keeps _ _ _)
    refine Keeps.trans ?_ (State.flag_keeps _ _ _)
    exact Keeps.refl _
  clear_value x2
  refine Keeps.ite ?_ ?_
  · exact h3
  · refine Keeps.trans ?_ (State.seekAnswer_keeps _ _ _)
    exact h3

theorem State.profileMiss_keeps (s : State) (ai : Nat) :
    Keeps s (State.profileMiss s ai) := by
  unfold State.profileMiss
  extract_lets +onlyGivenNames x1
  have h2 : Keeps s x1 := by
    unfold x1
    refine Keeps.trans ?_ (State.seekFail_keeps _ _)
    exact Keeps.refl _
  clear_value x1
  refine Keeps.ite ?_ ?_
  · refine Keeps.trans ?_ (State.parkMove_keeps _ _)
    exact h2
  · extract_lets +onlyGivenNames x3 x4 x5 x6
    clear_value x3
    clear_value x4
    have h7 : Keeps s x5 := by
      unfold x5
      refine Keeps.trans ?_ (State.setSrv_keeps _ _ _)
      exact h2
    clear_value x5
    have h8 : Keeps s x6 := by
      unfold x6
      refine Keeps.trans ?_ (State.setPass_keeps _ _ _ _ _)
      exact h7
    clear_value x6
    extract_lets +onlyGivenNames x9
    have h10 : Keeps s x9 := by
      unfold x9
      refine Keeps.ite ?_ ?_
      · refine Keeps.trans ?_ (State.calStop_keeps _ _)
        exact h8
      · exact h8
    clear_value x9
    refine Keeps.trans ?_ (State.setSrvState_keeps _ _ _)
    exact h10

theorem profileEnd_keeps (h : Half) (u : Nat) (s : State) :
    Keeps s (profileEnd h u s) := by
  unfold profileEnd
  extract_lets +onlyGivenNames x1 x2 x3
  clear_value x1
  clear_value x2
  clear_value x3
  split
  · rename_i y4 y5
    exact Keeps.refl _
  · rename_i y6 y7 y8
    refine Keeps.ite ?_ ?_
    · exact Keeps.refl _
    · extract_lets +onlyGivenNames x9
      clear_value x9
      refine Keeps.ite ?_ ?_
      · extract_lets +onlyGivenNames x10
        have h11 : Keeps s x10 := by
          unfold x10
          refine Keeps.trans ?_ (State.setSrv_keeps _ _ _)
          exact Keeps.refl _
        clear_value x10
        refine Keeps.ite ?_ ?_
        · exact h11
        · refine Keeps.trans ?_ (State.setSrvState_keeps _ _ _)
          exact h11
      · refine Keeps.ite ?_ ?_
        · refine Keeps.trans ?_ (State.profileMiss_keeps _ _)
          exact Keeps.refl _
        · extract_lets +onlyGivenNames x12
          have h13 : Keeps s x12 := by
            unfold x12
            refine Keeps.trans ?_ (State.setSrv_keeps _ _ _)
            exact Keeps.refl _
          clear_value x12
          refine Keeps.trans ?_ (State.count_keeps _ _ _ _ _ _)
          exact h13

theorem execProfileEnd_keeps (h : Half) (u : Nat) (s : State) :
    OutKeeps s (execProfileEnd h u s) := by
  unfold execProfileEnd
  refine OutKeeps.next ?_
  refine Keeps.trans ?_ (profileEnd_keeps _ _ _)
  exact Keeps.refl _

theorem seekSettled_keeps (h : Half) (u : Nat) (s : State) :
    Keeps s (seekSettled h u s) := by
  unfold seekSettled
  extract_lets +onlyGivenNames x1 x2 x3
  clear_value x1
  clear_value x2
  clear_value x3
  refine Keeps.ite ?_ ?_
  · exact Keeps.refl _
  · refine Keeps.ite ?_ ?_
    · extract_lets +onlyGivenNames x4 x5
      have h6 : Keeps s x4 := by
        unfold x4
        refine Keeps.trans ?_ (State.setSrvState_keeps _ _ _)
        refine Keeps.trans ?_ (State.setSrv_keeps _ _ _)
        exact Keeps.refl _
      clear_value x4
      have h7 : Keeps s x5 := by
        unfold x5
        refine Keeps.ite ?_ ?_
        · refine Keeps.trans ?_ (State.seekAnswer_keeps _ _ _)
          exact h6
        · exact h6
      clear_value x5
      refine Keeps.ite ?_ ?_
      · refine Keeps.trans ?_ (State.raiseAlarm_keeps _ _)
        exact h7
      · exact h7
    · refine Keeps.ite ?_ ?_
      · extract_lets +onlyGivenNames x8
        have h9 : Keeps s x8 := by
          unfold x8
          refine Keeps.trans ?_ (State.setSrv_keeps _ _ _)
          exact Keeps.refl _
        clear_value x8
        extract_lets +onlyGivenNames x10
        clear_value x10
        refine Keeps.trans ?_ (State.setPa_keeps _ _ _)
        exact h9
      · exact Keeps.refl _

theorem execSeekSettled_keeps (h : Half) (u : Nat) (s : State) :
    OutKeeps s (execSeekSettled h u s) := by
  unfold execSeekSettled
  refine OutKeeps.next ?_
  refine Keeps.trans ?_ (seekSettled_keeps _ _ _)
  exact Keeps.refl _

theorem seekTimeout_keeps (h : Half) (u : Nat) (s : State) :
    Keeps s (seekTimeout h u s) := by
  unfold seekTimeout
  extract_lets +onlyGivenNames x1 x2
  clear_value x1
  clear_value x2
  refine Keeps.ite ?_ ?_
  · refine Keeps.trans ?_ (State.seekFail_keeps _ _)
    exact Keeps.refl _
  · exact Keeps.refl _

theorem execSeekTimeout_keeps (h : Half) (u : Nat) (s : State) :
    OutKeeps s (execSeekTimeout h u s) := by
  unfold execSeekTimeout
  refine OutKeeps.next ?_
  refine Keeps.trans ?_ (seekTimeout_keeps _ _ _)
  exact Keeps.refl _

theorem cmdLoad_keeps (h : Half) (u : Nat) (s : State) :
    Keeps s (cmdLoad h u s) := by
  unfold cmdLoad
  extract_lets +onlyGivenNames x1
  clear_value x1
  refine Keeps.ite ?_ ?_
  · exact Keeps.refl _
  · extract_lets +onlyGivenNames x2 x3 x4
    have h5 : Keeps s x2 := by
      unfold x2
      refine Keeps.trans ?_ (State.setPass_keeps _ _ _ _ _)
      exact Keeps.refl _
    clear_value x2
    clear_value x3
    have h6 : Keeps s x4 := by
      unfold x4
      refine Keeps.trans ?_ (State.setSrv_keeps _ _ _)
      exact h5
    clear_value x4
    extract_lets +onlyGivenNames x7
    clear_value x7
    extract_lets +onlyGivenNames x8
    have h9 : Keeps s x8 := by
      unfold x8
      refine Keeps.trans ?_ (State.setPa_keeps _ _ _)
      exact h6
    clear_value x8
    refine Keeps.trans ?_ (State.setSrvState_keeps _ _ _)
    exact h9

theorem execCmdLoad_keeps (h : Half) (u : Nat) (s : State) :
    OutKeeps s (execCmdLoad h u s) := by
  unfold execCmdLoad
  refine OutKeeps.next ?_
  refine Keeps.trans ?_ (cmdLoad_keeps _ _ _)
  exact Keeps.refl _

theorem loadLock_keeps (h : Half) (u : Nat) (s : State) :
    Keeps s (loadLock h u s) := by
  unfold loadLock
  extract_lets +onlyGivenNames x1 x2
  clear_value x1
  clear_value x2
  refine Keeps.ite ?_ ?_
  · exact Keeps.refl _
  · extract_lets +onlyGivenNames x3 x4 x5 x6 x7 x8
    clear_value x3
    clear_value x4
    clear_value x5
    clear_value x6
    have h9 : Keeps s x7 := by
      unfold x7
      refine Keeps.trans ?_ (State.setPass_keeps _ _ _ _ _)
      refine Keeps.trans ?_ (State.latchPars_keeps _ _)
      exact Keeps.refl _
    clear_value x7
    clear_value x8
    extract_lets +onlyGivenNames x10
    clear_value x10
    refine Keeps.trans ?_ (State.setSrv_keeps _ _ _)
    exact h9

theorem execLoadLock_keeps (h : Half) (u : Nat) (s : State) :
    OutKeeps s (execLoadLock h u s) := by
  unfold execLoadLock
  refine OutKeeps.next ?_
  refine Keeps.trans ?_ (loadLock_keeps _ _ _)
  exact Keeps.refl _

theorem loadFail_keeps (h : Half) (u : Nat) (s : State) :
    Keeps s (loadFail h u s) := by
  unfold loadFail
  extract_lets +onlyGivenNames x1
  clear_value x1
  refine Keeps.ite ?_ ?_
  · refine Keeps.trans ?_ (State.servoRetract_keeps _ _ _)
    refine Keeps.trans ?_ (State.flag_keeps _ _ _)
    exact Keeps.refl _
  · exact Keeps.refl _

theorem execLoadFail_keeps (h : Half) (u : Nat) (s : State) :
    OutKeeps s (execLoadFail h u s) := by
  unfold execLoadFail
  refine OutKeeps.next ?_
  refine Keeps.trans ?_ (loadFail_keeps _ _ _)
  exact Keeps.refl _

theorem execCmdPark_keeps (h : Half) (u : Nat) (s : State) :
    OutKeeps s (execCmdPark h u s) := by
  unfold execCmdPark
  refine OutKeeps.next ?_
  refine Keeps.trans ?_ (State.servoParkCmd_keeps _ _)
  exact Keeps.refl _

theorem execCmdRetract_keeps (h : Half) (u : Nat) (s : State) :
    OutKeeps s (execCmdRetract h u s) := by
  unfold execCmdRetract
  refine OutKeeps.next ?_
  refine Keeps.trans ?_ (State.servoRetract_keeps _ _ _)
  exact Keeps.refl _

theorem stopReached_keeps (h : Half) (u : Nat) (vel : Nat) (s : State) :
    Keeps s (stopReached h u vel s) := by
  unfold stopReached
  extract_lets +onlyGivenNames x1
  clear_value x1
  refine Keeps.ite ?_ ?_
  · extract_lets +onlyGivenNames x2
    clear_value x2
    refine Keeps.trans ?_ (State.setSrv_keeps _ _ _)
    exact Keeps.refl _
  · exact Keeps.refl _

theorem execStopReached_keeps (h : Half) (u : Nat) (vel : Nat) (s : State) :
    OutKeeps s (execStopReached h u vel s) := by
  unfold execStopReached
  refine OutKeeps.next ?_
  refine Keeps.trans ?_ (stopReached_keeps _ _ _ _)
  exact Keeps.refl _

theorem latchPushEnd_keeps (h : Half) (u : Nat) (s : State) :
    Keeps s (latchPushEnd h u s) := by
  unfold latchPushEnd
  extract_lets +onlyGivenNames x1 x2
  clear_value x1
  clear_value x2
  refine Keeps.ite ?_ ?_
  · exact Keeps.refl _
  · extract_lets +onlyGivenNames x3 x4 x5 x6 x7
    have h8 : Keeps s x3 := by
      unfold x3
      refine Keeps.ite ?_ ?_
      · refine Keeps.trans ?_ (State.flag_keeps _ _ _)
        exact Keeps.refl _
      · exact Keeps.refl _
    clear_value x3
    clear_value x4
    have h9 : Keeps s x5 := by
      unfold x5
      refine Keeps.ite ?_ ?_
      · refine Keeps.trans ?_ (State.seekAnswer_keeps _ _ _)
        exact h8
      · exact h8
    clear_value x5
    clear_value x6
    have h10 : Keeps s x7 := by
      unfold x7
      refine Keeps.trans ?_ (State.setSrv_keeps _ _ _)
      exact h9
    clear_value x7
    extract_lets +onlyGivenNames x11
    have h12 : Keeps s x11 := by
      unfold x11
      refine Keeps.trans ?_ (State.setLoaded_keeps _ _ _)
      refine Keeps.trans ?_ (State.put_keeps _ _ _ _)
      exact h10
    clear_value x11
    refine Keeps.trans ?_ (State.setSrvState_keeps _ _ _)
    exact h12

theorem execLatchPushEnd_keeps (h : Half) (u : Nat) (s : State) :
    OutKeeps s (execLatchPushEnd h u s) := by
  unfold execLatchPushEnd
  refine OutKeeps.next ?_
  refine Keeps.trans ?_ (latchPushEnd_keeps _ _ _)
  exact Keeps.refl _

theorem retractTmo_keeps (h : Half) (u : Nat) (s : State) :
    Keeps s (retractTmo h u s) := by
  unfold retractTmo
  extract_lets +onlyGivenNames x1
  clear_value x1
  refine Keeps.ite ?_ ?_
  · extract_lets +onlyGivenNames x2
    have h3 : Keeps s x2 := by
      unfold x2
      refine Keeps.trans ?_ (State.flag_keeps _ _ _)
      exact Keeps.refl _
    clear_value x2
    refine Keeps.trans ?_ (State.retractStart_keeps _ _)
    refine Keeps.trans ?_ (State.servoToOff_keeps _ _)
    refine Keeps.trans ?_ (State.seekAnswer_keeps _ _ _)
    exact h3
  · exact Keeps.refl _

theorem execRetractTmo_keeps (h : Half) (u : Nat) (s : State) :
    OutKeeps s (execRetractTmo h u s) := by
  unfold execRetractTmo
  refine OutKeeps.next ?_
  refine Keeps.trans ?_ (retractTmo_keeps _ _ _)
  exact Keeps.refl _

theorem servoEnSet_keeps (h : Half) (u : Nat) (s : State) :
    Keeps s (servoEnSet h u s) := by
  unfold servoEnSet
  refine Keeps.trans ?_ (State.servoLeaveOff_keeps _ _)
  refine Keeps.trans ?_ (State.put_keeps _ _ _ _)
  exact Keeps.refl _

theorem execServoEnSet_keeps (h : Half) (u : Nat) (s : State) :
    OutKeeps s (execServoEnSet h u s) := by
  unfold execServoEnSet
  refine OutKeeps.next ?_
  refine Keeps.trans ?_ (servoEnSet_keeps _ _ _)
  exact Keeps.refl _

theorem servoOff_keeps (h : Half) (u : Nat) (s : State) :
    Keeps s (servoOff h u s) := by
  unfold servoOff
  extract_lets +onlyGivenNames x1 x2 x3 x4 x5
  clear_value x1
  clear_value x2
  have h6 : Keeps s x3 := by
    unfold x3
    refine Keeps.trans ?_ (State.put_keeps _ _ _ _)
    exact Keeps.refl _
  clear_value x3
  have h7 : Keeps s x4 := by
    unfold x4
    refine Keeps.ite ?_ ?_
    · refine Keeps.trans ?_ (State.flag_keeps _ _ _)
      exact h6
    · exact h6
  clear_value x4
  have h8 : Keeps s x5 := by
    unfold x5
    refine Keeps.trans ?_ (State.seekAnswer_keeps _ _ _)
    exact h7
  clear_value x5
  refine Keeps.ite ?_ ?_
  · refine Keeps.trans ?_ (State.servoRetract_keeps _ _ _)
    refine Keeps.trans ?_ (State.wickAbort_keeps _ _ _ _)
    exact h8
  · refine Keeps.ite ?_ ?_
    · refine Keeps.trans ?_ (State.setSrvState_keeps _ _ _)
      exact h8
    · exact h8

theorem execServoOff_keeps (h : Half) (u : Nat) (s : State) :
    OutKeeps s (execServoOff h u s) := by
  unfold execServoOff
  refine OutKeeps.next ?_
  refine Keeps.trans ?_ (servoOff_keeps _ _ _)
  exact Keeps.refl _

theorem State.speedLow_keeps (s : State) (hd : Nat) (speed : Nat) :
    Keeps s (State.speedLow s hd speed) := by
  unfold State.speedLow
  refine Keeps.foldl ?_ ?_
  · exact Keeps.refl _
  · intro a1 b2
    refine Keeps.ite ?_ ?_
    · refine Keeps.trans ?_ (State.servoRetract_keeps _ _ _)
      refine Keeps.trans ?_ (State.flag_keeps _ _ _)
      exact Keeps.refl _
    · exact Keeps.refl _

theorem calOne_keeps (h : Half) (u : Nat) (seg : Nat) (s : State) :
    Keeps s (calOne h u seg s) := by
  unfold calOne
  extract_lets +onlyGivenNames x1
  clear_value x1
  refine Keeps.ite ?_ ?_
  · refine Keeps.trans ?_ (State.calNextStart_keeps _ _)
    extract_lets +onlyGivenNames x2
    clear_value x2
    refine Keeps.trans ?_ (State.setSrv_keeps _ _ _)
    exact Keeps.refl _
  · exact Keeps.refl _

theorem execCalOne_keeps (h : Half) (u : Nat) (seg : Nat) (s : State) :
    OutKeeps s (execCalOne h u seg s) := by
  unfold execCalOne
  refine OutKeeps.next ?_
  refine Keeps.trans ?_ (calOne_keeps _ _ _ _)
  exact Keeps.refl _

theorem calSweep_keeps (h : Half) (u : Nat) (s : State) :
    Keeps s (calSweep h u s) := by
  unfold calSweep
  extract_lets +onlyGivenNames x1
  clear_value x1
  refine Keeps.ite ?_ ?_
  · exact Keeps.refl _
  · extract_lets +onlyGivenNames x2
    clear_value x2
    extract_lets +onlyGivenNames x3
    have h4 : Keeps s x3 := by
      unfold x3
      refine Keeps.trans ?_ (State.setSrv_keeps _ _ _)
      exact Keeps.refl _
    clear_value x3
    refine Keeps.trans ?_ (State.calNextStart_keeps _ _)
    refine Keeps.trans ?_ (State.flag_keeps _ _ _)
    exact h4

theorem execCalSweep_keeps (h : Half) (u : Nat) (s : State) :
    OutKeeps s (execCalSweep h u s) := by
  unfold execCalSweep
  refine OutKeeps.next ?_
  refine Keeps.trans ?_ (calSweep_keeps _ _ _)
  exact Keeps.refl _

theorem calBackground_keeps (h : Half) (u : Nat) (s : State) :
    Keeps s (calBackground h u s) := by
  unfold calBackground
  extract_lets +onlyGivenNames x1 x2 x3 x4
  clear_value x1
  clear_value x2
  clear_value x3
  clear_value x4
  refine Keeps.ite ?_ ?_
  · refine Keeps.trans ?_ (State.calStart_keeps _ _ _ _ _)
    refine Keeps.trans ?_ (State.setSrv_keeps _ _ _)
    exact Keeps.refl _
  · exact Keeps.refl _

theorem execCalBackground_keeps (h : Half) (u : Nat) (s : State) :
    OutKeeps s (execCalBackground h u s) := by
  unfold execCalBackground
  refine OutKeeps.next ?_
  refine Keeps.trans ?_ (calBackground_keeps _ _ _)
  exact Keeps.refl _

theorem calMeasureEnd_keeps (h : Half) (u : Nat) (s : State) :
    Keeps s (calMeasureEnd h u s) := by
  unfold calMeasureEnd
  extract_lets +onlyGivenNames x1
  clear_value x1
  split
  · rename_i y2 y3
    exact Keeps.refl _
  · rename_i y4 y5 y6
    refine Keeps.ite ?_ ?_
    · exact Keeps.refl _
    · extract_lets +onlyGivenNames x7 x8
      clear_value x7
      clear_value x8
      refine Keeps.trans ?_ (State.calDone_keeps _ _ _)
      refine Keeps.trans ?_ (State.bufStore_keeps _ _ _)
      exact Keeps.refl _

theorem execCalMeasureEnd_keeps (h : Half) (u : Nat) (s : State) :
    OutKeeps s (execCalMeasureEnd h u s) := by
  unfold execCalMeasureEnd
  refine OutKeeps.next ?_
  refine Keeps.trans ?_ (calMeasureEnd_keeps _ _ _)
  exact Keeps.refl _

theorem feedforwardTimeout_keeps (h : Half) (s : State) :
    Keeps s (feedforwardTimeout h s) := by
  unfold feedforwardTimeout
  refine Keeps.foldl ?_ ?_
  · exact Keeps.refl _
  · intro a1 b2
    extract_lets +onlyGivenNames x3
    clear_value x3
    refine Keeps.trans ?_ (State.setSrv_keeps _ _ _)
    exact Keeps.refl _

theorem execFeedforwardTimeout_keeps (h : Half) (s : State) :
    OutKeeps s (execFeedforwardTimeout h s) := by
  unfold execFeedforwardTimeout
  refine OutKeeps.next ?_
  refine Keeps.trans ?_ (feedforwardTimeout_keeps _ _)
  exact Keeps.refl _

theorem shockSample_keeps (p : ShockSample) (s : State) :
    Keeps s (shockSample p s) := by
  unfold shockSample
  refine Keeps.foldl ?_ ?_
  · exact Keeps.refl _
  · intro a1 b2
    extract_lets +onlyGivenNames x3 x4
    clear_value x3
    have h5 : Keeps a1 x4 := by
      unfold x4
      refine Keeps.trans ?_ (State.setSrv_keeps _ _ _)
      exact Keeps.refl _
    clear_value x4
    refine Keeps.trans ?_ (State.put_keeps _ _ _ _)
    exact h5

theorem execShockSample_keeps (p : ShockSample) (s : State) :
    OutKeeps s (execShockSample p s) := by
  unfold execShockSample
  refine OutKeeps.next ?_
  refine Keeps.trans ?_ (shockSample_keeps _ _)
  exact Keeps.refl _

end Sys2Proof.Machine
end

