-- ==== Sys2Proof/Laws/KeepsHarness.lean ====
section
/-! SUPPORT. What `Keeps` says of every operation of Machine/Harness.lean. -/

namespace Sys2Proof.Machine

theorem State.softDone_keeps (s : State) (ai : Nat) (failed : Bool) :
    Keeps s (State.softDone s ai failed) := by
  unfold State.softDone
  extract_lets +onlyGivenNames x1 x2 x3 x4
  clear_value x1
  clear_value x2
  clear_value x3
  have h5 : Keeps s x4 := by
    unfold x4
    refine Keeps.ite ?_ ?_
    · refine Keeps.trans ?_ (State.setPort_keeps _ _ _)
      exact Keeps.refl _
    · exact Keeps.refl _
  clear_value x4
  extract_lets +onlyGivenNames x6
  have h7 : Keeps s x6 := by
    unfold x6
    refine Keeps.ite ?_ ?_
    · refine Keeps.trans ?_ (State.put_keeps _ _ _ _)
      exact h5
    · exact h5
  clear_value x6
  refine Keeps.ite ?_ ?_
  · exact h7
  · refine Keeps.trans ?_ (State.put_keeps _ _ _ _)
    exact h7

theorem State.frameWithheld_keeps (s : State) (ai : Nat) (f : BusFrame) :
    Keeps s (State.frameWithheld s ai f) := by
  unfold State.frameWithheld
  split
  · rename_i y1 y2
    refine Keeps.trans ?_ (State.softDone_keeps _ _ _)
    exact Keeps.refl _
  · rename_i y3 y4
    refine Keeps.trans ?_ (State.wickAbort_keeps _ _ _ _)
    exact Keeps.refl _
  · rename_i y5 y6
    refine Keeps.trans ?_ (State.wickAbort_keeps _ _ _ _)
    exact Keeps.refl _
  · rename_i y7 y8 y9 y10
    exact Keeps.refl _

theorem State.paNext_keeps (s : State) (ai n : Nat) : Keeps s (s.paNext ai n) := by
  induction n generalizing s with
  | zero => exact Keeps.refl _
  | succ n ih =>
    unfold State.paNext
    dsimp only
    refine Keeps.ite (Keeps.refl _) ?_
    split
    · exact Keeps.refl _
    · refine Keeps.ite ?_ ?_
      · exact ((State.setPa_keeps s ai _).trans (State.frameWithheld_keeps _ ai _)).trans (ih _)
      · exact (State.setPa_keeps s ai _).trans (State.setPa_keeps _ ai _)

theorem State.paKick_keeps (s : State) (ai : Nat) :
    Keeps s (State.paKick s ai) := by
  unfold State.paKick
  extract_lets +onlyGivenNames x1
  have h2 : Keeps s x1 := by
    unfold x1
    refine Keeps.trans ?_ (State.paNext_keeps _ _ _)
    exact Keeps.refl _
  clear_value x1
  refine Keeps.ite ?_ ?_
  · refine Keeps.trans ?_ (State.paNext_keeps _ _ _)
    exact h2
  · exact h2

theorem State.busYield_keeps (s : State) (ai : Nat) :
    Keeps s (State.busYield s ai) := by
  unfold State.busYield
  extract_lets +onlyGivenNames x1
  clear_value x1
  split
  · rename_i y2 y3 y4
    refine Keeps.ite ?_ ?_
    · refine Keeps.trans ?_ (State.setPa_keeps _ _ _)
      exact Keeps.refl _
    · exact Keeps.refl _
  · rename_i y5 y6
    exact Keeps.refl _

theorem State.paIssue_keeps (s : State) (ai : Nat) (owner : FrameOwner) (bits : BitVec 24) :
    Keeps s (State.paIssue s ai owner bits) := by
  unfold State.paIssue
  refine Keeps.trans ?_ (State.paKick_keeps _ _)
  extract_lets +onlyGivenNames x1
  clear_value x1
  refine Keeps.trans ?_ (State.setPa_keeps _ _ _)
  exact Keeps.refl _

theorem State.setPortState_keeps (s : State) (hd : Nat) (st : Nat) :
    Keeps s (State.setPortState s hd st) := by
  unfold State.setPortState
  extract_lets +onlyGivenNames x1
  clear_value x1
  refine Keeps.trans ?_ (State.put_keeps _ _ _ _)
  refine Keeps.trans ?_ (State.put_keeps _ _ _ _)
  exact Keeps.refl _

theorem State.supplyOn_keeps (s : State) (hd : Nat) :
    Keeps s (State.supplyOn s hd) := by
  unfold State.supplyOn
  extract_lets +onlyGivenNames x1
  clear_value x1
  refine Keeps.trans ?_ (State.setPort_keeps _ _ _)
  exact Keeps.refl _

theorem State.supplyOff_keeps (s : State) (hd : Nat) :
    Keeps s (State.supplyOff s hd) := by
  unfold State.supplyOff
  extract_lets +onlyGivenNames x1 x2 x3
  clear_value x1
  have h4 : Keeps s x2 := by
    unfold x2
    refine Keeps.trans ?_ (State.setPort_keeps _ _ _)
    exact Keeps.refl _
  clear_value x2
  have h5 : Keeps s x3 := by
    unfold x3
    refine Keeps.trans ?_ (State.put_keeps _ _ _ _)
    exact h4
  clear_value x3
  extract_lets +onlyGivenNames x6
  have h7 : Keeps s x6 := by
    unfold x6
    refine Keeps.trans ?_ (State.put_keeps _ _ _ _)
    exact h5
  clear_value x6
  refine Keeps.foldl ?_ ?_
  · exact h7
  · intro a8 b9
    extract_lets +onlyGivenNames x10
    clear_value x10
    refine Keeps.trans ?_ (State.setPa_keeps _ _ _)
    exact Keeps.refl _

theorem State.showPins_keeps (s : State) (hd : Nat) :
    Keeps s (State.showPins s hd) := by
  unfold State.showPins
  refine Keeps.trans ?_ (State.putB_keeps _ _ _ _)
  refine Keeps.trans ?_ (State.putB_keeps _ _ _ _)
  exact Keeps.refl _

theorem State.portRelease_keeps (s : State) (hd : Nat) :
    Keeps s (State.portRelease s hd) := by
  unfold State.portRelease
  refine Keeps.ite ?_ ?_
  · exact Keeps.refl _
  · extract_lets +onlyGivenNames x1
    have h2 : Keeps s x1 := by
      unfold x1
      refine Keeps.trans ?_ (State.showPins_keeps _ _)
      exact Keeps.refl _
    clear_value x1
    refine Keeps.ite ?_ ?_
    · refine Keeps.trans ?_ (State.setPortState_keeps _ _ _)
      exact h2
    · exact h2

theorem State.harnessAbort_keeps (s : State) (hd : Nat) (st : OpStatus) :
    Keeps s (State.harnessAbort s hd st) := by
  unfold State.harnessAbort
  refine Keeps.foldl ?_ ?_
  · exact Keeps.refl _
  · intro a1 b2
    refine Keeps.trans ?_ (State.wickAbort_keeps _ _ _ _)
    refine Keeps.trans ?_ (State.gatesLow_keeps _ _)
    exact Keeps.refl _

theorem State.removedActive_keeps (s : State) (hd : Nat) :
    Keeps s (State.removedActive s hd) := by
  unfold State.removedActive
  extract_lets +onlyGivenNames x1 x2
  have h3 : Keeps s x1 := by
    unfold x1
    refine Keeps.trans ?_ (State.harnessAbort_keeps _ _ _)
    exact Keeps.refl _
  clear_value x1
  have h4 : Keeps s x2 := by
    unfold x2
    refine Keeps.foldl ?_ ?_
    · exact h3
    · intro a5 b6
      extract_lets +onlyGivenNames x7
      clear_value x7
      refine Keeps.trans ?_ (State.setPa_keeps _ _ _)
      exact Keeps.refl _
  clear_value x2
  refine Keeps.trans ?_ (State.put_keeps _ _ _ _)
  exact h4

theorem presenceLow_keeps (h : Half) (n : Nat) (s : State) :
    Keeps s (presenceLow h n s) := by
  unfold presenceLow
  extract_lets +onlyGivenNames x1 x2
  clear_value x1
  clear_value x2
  extract_lets +onlyGivenNames x3
  have h4 : Keeps s x3 := by
    unfold x3
    refine Keeps.trans ?_ (Keeps.upd (s := s) rfl rfl rfl rfl)
    exact Keeps.refl _
  clear_value x3
  refine Keeps.ite ?_ ?_
  · exact h4
  · extract_lets +onlyGivenNames x5 x6
    clear_value x5
    have h7 : Keeps s x6 := by
      unfold x6
      refine Keeps.trans ?_ (State.demand_keeps _ _ _)
      exact h4
    clear_value x6
    refine Keeps.ite ?_ ?_
    · exact h7
    · extract_lets +onlyGivenNames x8
      have h9 : Keeps s x8 := by
        unfold x8
        refine Keeps.trans ?_ (State.showPins_keeps _ _)
        exact h7
      clear_value x8
      refine Keeps.ite ?_ ?_
      · refine Keeps.trans ?_ (State.setPortState_keeps _ _ _)
        exact h9
      · exact h9

theorem execPresenceLow_keeps (h : Half) (n : Nat) (s : State) :
    OutKeeps s (execPresenceLow h n s) := by
  unfold execPresenceLow
  refine OutKeeps.next ?_
  refine Keeps.trans ?_ (presenceLow_keeps _ _ _)
  exact Keeps.refl _

theorem presenceHigh_keeps (h : Half) (n : Nat) (pin : Nat) (s : State) :
    Keeps s (presenceHigh h n pin s) := by
  unfold presenceHigh
  extract_lets +onlyGivenNames x1 x2 x3
  clear_value x1
  clear_value x2
  clear_value x3
  extract_lets +onlyGivenNames x4
  have h5 : Keeps s x4 := by
    unfold x4
    refine Keeps.trans ?_ (Keeps.upd (s := s) rfl rfl rfl rfl)
    exact Keeps.refl _
  clear_value x4
  refine Keeps.ite ?_ ?_
  · exact h5
  · refine Keeps.ite ?_ ?_
    · refine Keeps.trans ?_ (State.withdraw_keeps _ _ _)
      refine Keeps.trans ?_ (State.removedActive_keeps _ _)
      exact h5
    · extract_lets +onlyGivenNames x6 x7
      have h8 : Keeps s x6 := by
        unfold x6
        refine Keeps.trans ?_ (State.showPins_keeps _ _)
        exact h5
      clear_value x6
      clear_value x7
      refine Keeps.ite ?_ ?_
      · exact h8
      · refine Keeps.ite ?_ ?_
        · refine Keeps.trans ?_ (State.withdraw_keeps _ _ _)
          refine Keeps.trans ?_ (State.setPortState_keeps _ _ _)
          exact h8
        · extract_lets +onlyGivenNames x9 x10 x11 x12 x13 x14
          clear_value x9
          clear_value x10
          have h15 : Keeps s x11 := by
            unfold x11
            refine Keeps.trans ?_ (State.flag_keeps _ _ _)
            exact h8
          clear_value x11
          have h16 : Keeps s x12 := by
            unfold x12
            refine Keeps.ite ?_ ?_
            · exact h15
            · refine Keeps.trans ?_ (State.chimney_keeps _ _ _ _ _ _)
              refine Keeps.trans ?_ (State.flag_keeps _ _ _)
              refine Keeps.trans ?_ (State.removedActive_keeps _ _)
              exact h15
          clear_value x12
          have h17 : Keeps s x13 := by
            unfold x13
            refine Keeps.trans ?_ (State.withdraw_keeps _ _ _)
            exact h16
          clear_value x13
          have h18 : Keeps s x14 := by
            unfold x14
            refine Keeps.trans ?_ (State.put_keeps _ _ _ _)
            refine Keeps.trans ?_ (State.supplyOff_keeps _ _)
            exact h17
          clear_value x14
          refine Keeps.trans ?_ (State.setPortState_keeps _ _ _)
          refine Keeps.trans ?_ (State.put_keeps _ _ _ _)
          exact h18

theorem execPresenceHigh_keeps (h : Half) (n : Nat) (pin : Nat) (s : State) :
    OutKeeps s (execPresenceHigh h n pin s) := by
  unfold execPresenceHigh
  refine OutKeeps.next ?_
  refine Keeps.trans ?_ (presenceHigh_keeps _ _ _ _)
  exact Keeps.refl _

theorem debounceElapsed_keeps (h : Half) (n : Nat) (s : State) :
    Keeps s (debounceElapsed h n s) := by
  unfold debounceElapsed
  extract_lets +onlyGivenNames x1 x2
  clear_value x1
  clear_value x2
  refine Keeps.ite ?_ ?_
  · exact Keeps.refl _
  · extract_lets +onlyGivenNames x3
    have h4 : Keeps s x3 := by
      unfold x3
      refine Keeps.trans ?_ (State.flag_keeps _ _ _)
      refine Keeps.trans ?_ (State.put_keeps _ _ _ _)
      exact Keeps.refl _
    clear_value x3
    refine Keeps.trans ?_ (State.setPortState_keeps _ _ _)
    refine Keeps.trans ?_ (State.supplyOn_keeps _ _)
    refine Keeps.trans ?_ (State.chimney_keeps _ _ _ _ _ _)
    exact h4

theorem execDebounceElapsed_keeps (h : Half) (n : Nat) (s : State) :
    OutKeeps s (execDebounceElapsed h n s) := by
  unfold execDebounceElapsed
  refine OutKeeps.next ?_
  refine Keeps.trans ?_ (debounceElapsed_keeps _ _ _)
  exact Keeps.refl _

theorem eepromReadStart_keeps (h : Half) (n : Nat) (s : State) :
    Keeps s (eepromReadStart h n s) := by
  unfold eepromReadStart
  extract_lets +onlyGivenNames x1
  clear_value x1
  refine Keeps.ite ?_ ?_
  · extract_lets +onlyGivenNames x2
    clear_value x2
    refine Keeps.trans ?_ (State.setPort_keeps _ _ _)
    refine Keeps.trans ?_ (State.put_keeps _ _ _ _)
    exact Keeps.refl _
  · exact Keeps.refl _

theorem execEepromReadStart_keeps (h : Half) (n : Nat) (s : State) :
    OutKeeps s (execEepromReadStart h n s) := by
  unfold execEepromReadStart
  refine OutKeeps.next ?_
  refine Keeps.trans ?_ (eepromReadStart_keeps _ _ _)
  exact Keeps.refl _

theorem State.identFail_keeps (s : State) (hd : Nat) :
    Keeps s (State.identFail s hd) := by
  unfold State.identFail
  refine Keeps.trans ?_ (State.setPortState_keeps _ _ _)
  refine Keeps.trans ?_ (State.supplyOff_keeps _ _)
  exact Keeps.refl _

theorem eepromReadDone_keeps (h : Half) (n : Nat) (bytes : List Byte) (s : State) :
    Keeps s (eepromReadDone h n bytes s) := by
  unfold eepromReadDone
  extract_lets +onlyGivenNames x1 x2
  clear_value x1
  clear_value x2
  refine Keeps.ite ?_ ?_
  · exact Keeps.refl _
  · extract_lets +onlyGivenNames x3 x4 x5 x6 x7
    clear_value x3
    clear_value x4
    clear_value x5
    have h8 : Keeps s x6 := by
      unfold x6
      refine Keeps.trans ?_ (State.setPort_keeps _ _ _)
      exact Keeps.refl _
    clear_value x6
    have h9 : Keeps s x7 := by
      unfold x7
      refine Keeps.ite ?_ ?_
      · exact h8
      · refine Keeps.trans ?_ (State.flag_keeps _ _ _)
        exact h8
    clear_value x7
    extract_lets +onlyGivenNames x10
    have h11 : Keeps s x10 := by
      unfold x10
      refine Keeps.ite ?_ ?_
      · exact h9
      · refine Keeps.trans ?_ (State.flag_keeps _ _ _)
        exact h9
    clear_value x10
    refine Keeps.ite ?_ ?_
    · refine Keeps.trans ?_ (State.identFail_keeps _ _)
      exact h11
    · refine Keeps.trans ?_ (State.paIssue_keeps _ _ _ _)
      refine Keeps.trans ?_ (State.paIssue_keeps _ _ _ _)
      exact h11

theorem execEepromReadDone_keeps (h : Half) (n : Nat) (bytes : List Byte) (s : State) :
    OutKeeps s (execEepromReadDone h n bytes s) := by
  unfold execEepromReadDone
  refine OutKeeps.next ?_
  refine Keeps.trans ?_ (eepromReadDone_keeps _ _ _ _)
  exact Keeps.refl _

theorem State.copyIdentity_keeps (s : State) (hd : Nat) :
    Keeps s (State.copyIdentity s hd) := by
  unfold State.copyIdentity
  extract_lets +onlyGivenNames x1
  clear_value x1
  refine Keeps.foldl ?_ ?_
  · exact Keeps.refl _
  · intro a2 b3
    refine Keeps.trans ?_ (State.setWord_keeps _ _ _)
    exact Keeps.refl _

theorem State.identPtype_keeps (s : State) (ai : Nat) (good : Bool) :
    Keeps s (State.identPtype s ai good) := by
  unfold State.identPtype
  extract_lets +onlyGivenNames x1 x2
  clear_value x1
  clear_value x2
  refine Keeps.ite ?_ ?_
  · exact Keeps.refl _
  · refine Keeps.ite ?_ ?_
    · refine Keeps.trans ?_ (State.identFail_keeps _ _)
      refine Keeps.trans ?_ (State.flag_keeps _ _ _)
      exact Keeps.refl _
    · extract_lets +onlyGivenNames x3
      clear_value x3
      extract_lets +onlyGivenNames x4
      have h5 : Keeps s x4 := by
        unfold x4
        refine Keeps.trans ?_ (State.setPa_keeps _ _ _)
        exact Keeps.refl _
      clear_value x4
      refine Keeps.ite ?_ ?_
      · extract_lets +onlyGivenNames x6
        have h7 : Keeps s x6 := by
          unfold x6
          refine Keeps.trans ?_ (State.setPortState_keeps _ _ _)
          refine Keeps.trans ?_ (State.put_keeps _ _ _ _)
          refine Keeps.trans ?_ (State.copyIdentity_keeps _ _)
          exact h5
        clear_value x6
        refine Keeps.trans ?_ (State.paIssue_keeps _ _ _ _)
        refine Keeps.trans ?_ (State.paIssue_keeps _ _ _ _)
        exact h7
      · exact h5

theorem State.setFault_keeps (s : State) (ai : Nat) (v : Nat) :
    Keeps s (State.setFault s ai v) := by
  unfold State.setFault
  extract_lets +onlyGivenNames x1
  clear_value x1
  extract_lets +onlyGivenNames x2
  have h3 : Keeps s x2 := by
    unfold x2
    refine Keeps.trans ?_ (State.setPa_keeps _ _ _)
    exact Keeps.refl _
  clear_value x2
  refine Keeps.trans ?_ (State.putB_keeps _ _ _ _)
  exact h3

theorem State.paApply_keeps (s : State) (ai : Nat) (f : BitVec 24) :
    Keeps s (State.paApply s ai f) := by
  unfold State.paApply
  extract_lets +onlyGivenNames x1 x2 x3 x4
  clear_value x1
  clear_value x2
  clear_value x3
  clear_value x4
  extract_lets +onlyGivenNames x5
  have h6 : Keeps s x5 := by
    unfold x5
    refine Keeps.ite ?_ ?_
    · exact Keeps.refl _
    · refine Keeps.trans ?_ (State.setPa_keeps _ _ _)
      exact Keeps.refl _
  clear_value x5
  refine Keeps.ite ?_ ?_
  · extract_lets +onlyGivenNames x7
    clear_value x7
    refine Keeps.ite ?_ ?_
    · refine Keeps.trans ?_ (State.put_keeps _ _ _ _)
      refine Keeps.trans ?_ (State.put_keeps _ _ _ _)
      exact h6
    · refine Keeps.trans ?_ (State.put_keeps _ _ _ _)
      refine Keeps.trans ?_ (State.put_keeps _ _ _ _)
      exact h6
  · exact h6

theorem State.frameOk_keeps (s : State) (ai : Nat) (f : BusFrame) (data : Nat) :
    Keeps s (State.frameOk s ai f data) := by
  unfold State.frameOk
  extract_lets +onlyGivenNames x1 x2 x3 x4
  clear_value x1
  clear_value x2
  clear_value x3
  have h5 : Keeps s x4 := by
    unfold x4
    refine Keeps.ite ?_ ?_
    · refine Keeps.trans ?_ (State.paApply_keeps _ _ _)
      exact Keeps.refl _
    · refine Keeps.ite ?_ ?_
      · refine Keeps.trans ?_ (State.calTemp_keeps _ _ _)
        exact Keeps.refl _
      · refine Keeps.ite ?_ ?_
        · refine Keeps.trans ?_ (State.setFault_keeps _ _ _)
          exact Keeps.refl _
        · exact Keeps.refl _
  clear_value x4
  split
  · rename_i y6 y7
    extract_lets +onlyGivenNames x8
    clear_value x8
    refine Keeps.trans ?_ (State.setWick_keeps _ _ _)
    exact h5
  · rename_i y9 y10
    refine Keeps.trans ?_ (State.softDone_keeps _ _ _)
    refine Keeps.ite ?_ ?_
    · refine Keeps.trans ?_ (State.put_keeps _ _ _ _)
      exact h5
    · exact h5
  · rename_i y11 y12
    refine Keeps.trans ?_ (State.identPtype_keeps _ _ _)
    exact h5
  · rename_i y13 y14 y15 y16
    exact h5

theorem State.frameFail_keeps (s : State) (ai : Nat) (f : BusFrame) :
    Keeps s (State.frameFail s ai f) := by
  unfold State.frameFail
  extract_lets +onlyGivenNames x1 x2 x3
  clear_value x1
  have h4 : Keeps s x2 := by
    unfold x2
    refine Keeps.trans ?_ (State.flag_keeps _ _ _)
    exact Keeps.refl _
  clear_value x2
  have h5 : Keeps s x3 := by
    unfold x3
    refine Keeps.trans ?_ (State.chimney_keeps _ _ _ _ _ _)
    exact h4
  clear_value x3
  split
  · rename_i y6 y7
    refine Keeps.trans ?_ (State.wickAbort_keeps _ _ _ _)
    exact h5
  · rename_i y8 y9
    refine Keeps.trans ?_ (State.wickAbort_keeps _ _ _ _)
    exact h5
  · rename_i y10 y11
    refine Keeps.trans ?_ (State.softDone_keeps _ _ _)
    exact h5
  · rename_i y12 y13
    refine Keeps.trans ?_ (State.identPtype_keeps _ _ _)
    exact h5
  · rename_i y14 y15 y16 y17 y18
    exact h5

theorem State.busFrameEnd_keeps (s : State) (h : Half) (u : Nat) (resp : PaResp) :
    Keeps s (State.busFrameEnd s h u resp) := by
  unfold State.busFrameEnd
  extract_lets +onlyGivenNames x1 x2
  clear_value x1
  clear_value x2
  split
  · rename_i y3 y4
    exact Keeps.refl _
  · rename_i y5 y6 y7
    refine Keeps.ite ?_ ?_
    · refine Keeps.trans ?_ (State.busYield_keeps _ _)
      exact Keeps.refl _
    · refine Keeps.ite ?_ ?_
      · refine Keeps.trans ?_ (State.paKick_keeps _ _)
        refine Keeps.trans ?_ (State.frameOk_keeps _ _ _ _)
        extract_lets +onlyGivenNames x8
        clear_value x8
        refine Keeps.trans ?_ (State.setPa_keeps _ _ _)
        exact Keeps.refl _
      · extract_lets +onlyGivenNames x9 x10
        have h11 : Keeps s x9 := by
          unfold x9
          refine Keeps.trans ?_ (State.count_keeps _ _ _ _ _ _)
          exact Keeps.refl _
        clear_value x9
        have h12 : Keeps s x10 := by
          unfold x10
          refine Keeps.ite ?_ ?_
          · exact h11
          · refine Keeps.trans ?_ (State.setFault_keeps _ _ _)
            exact h11
        clear_value x10
        refine Keeps.ite ?_ ?_
        · refine Keeps.trans ?_ (State.paKick_keeps _ _)
          extract_lets +onlyGivenNames x13
          clear_value x13
          refine Keeps.trans ?_ (State.setPa_keeps _ _ _)
          exact h12
        · refine Keeps.trans ?_ (State.paKick_keeps _ _)
          refine Keeps.trans ?_ (State.frameFail_keeps _ _ _)
          extract_lets +onlyGivenNames x14
          clear_value x14
          refine Keeps.trans ?_ (State.setPa_keeps _ _ _)
          exact h12

theorem State.softFrame_keeps (s : State) (ai : Nat) (bits : BitVec 24) :
    Keeps s (State.softFrame s ai bits) := by
  unfold State.softFrame
  extract_lets +onlyGivenNames x1 x2
  clear_value x1
  clear_value x2
  refine Keeps.ite ?_ ?_
  · refine Keeps.trans ?_ (State.setPa_keeps _ _ _)
    exact Keeps.refl _
  · refine Keeps.trans ?_ (State.paIssue_keeps _ _ _ _)
    exact Keeps.refl _

theorem pago_keeps (h : Half) (n : Nat) (act0 : Bool) (act1 : Bool) (s : State) :
    Keeps s (pago h n act0 act1 s) := by
  unfold pago
  extract_lets +onlyGivenNames x1 x2 x3
  clear_value x1
  clear_value x2
  clear_value x3
  refine Keeps.ite ?_ ?_
  · exact Keeps.refl _
  · extract_lets +onlyGivenNames x4 x5 x6
    have h7 : Keeps s x4 := by
      unfold x4
      refine Keeps.trans ?_ (State.put_keeps _ _ _ _)
      refine Keeps.trans ?_ (State.put_keeps _ _ _ _)
      exact Keeps.refl _
    clear_value x4
    clear_value x5
    have h8 : Keeps s x6 := by
      unfold x6
      refine Keeps.ite ?_ ?_
      · refine Keeps.trans ?_ (State.setPort_keeps _ _ _)
        exact h7
      · exact h7
    clear_value x6
    extract_lets +onlyGivenNames x9
    have h10 : Keeps s x9 := by
      unfold x9
      refine Keeps.ite ?_ ?_
      · refine Keeps.trans ?_ (State.softFrame_keeps _ _ _)
        exact h8
      · exact h8
    clear_value x9
    refine Keeps.ite ?_ ?_
    · refine Keeps.trans ?_ (State.softFrame_keeps _ _ _)
      exact h10
    · exact h10

theorem execPago_keeps (h : Half) (n : Nat) (act0 : Bool) (act1 : Bool) (s : State) :
    OutKeeps s (execPago h n act0 act1 s) := by
  unfold execPago
  refine OutKeeps.next ?_
  refine Keeps.trans ?_ (pago_keeps _ _ _ _ _)
  exact Keeps.refl _

theorem State.portLower_keeps (s : State) (hd : Nat) :
    Keeps s (State.portLower s hd) := by
  unfold State.portLower
  extract_lets +onlyGivenNames x1 x2 x3
  clear_value x1
  have h4 : Keeps s x2 := by
    unfold x2
    refine Keeps.trans ?_ (State.harnessAbort_keeps _ _ _)
    exact Keeps.refl _
  clear_value x2
  have h5 : Keeps s x3 := by
    unfold x3
    refine Keeps.trans ?_ (State.retractHda_keeps _ _)
    exact h4
  clear_value x3
  refine Keeps.ite ?_ ?_
  · refine Keeps.trans ?_ (State.flag_keeps _ _ _)
    exact h5
  · exact h5

theorem portModeWrite_keeps (h : Half) (n : Nat) (mode : Nat) (s : State) :
    Keeps s (portModeWrite h n mode s) := by
  unfold portModeWrite
  extract_lets +onlyGivenNames x1 x2 x3
  clear_value x1
  clear_value x2
  clear_value x3
  refine Keeps.ite ?_ ?_
  · extract_lets +onlyGivenNames x4
    have h5 : Keeps s x4 := by
      unfold x4
      refine Keeps.ite ?_ ?_
      · refine Keeps.trans ?_ (State.portLower_keeps _ _)
        exact Keeps.refl _
      · refine Keeps.ite ?_ ?_
        · refine Keeps.trans ?_ (State.flag_keeps _ _ _)
          refine Keeps.trans ?_ (State.harnessAbort_keeps _ _ _)
          exact Keeps.refl _
        · exact Keeps.refl _
    clear_value x4
    refine Keeps.trans ?_ (State.setPortState_keeps _ _ _)
    refine Keeps.trans ?_ (State.put_keeps _ _ _ _)
    refine Keeps.trans ?_ (State.supplyOff_keeps _ _)
    exact h5
  · refine Keeps.ite ?_ ?_
    · refine Keeps.trans ?_ (State.setPortState_keeps _ _ _)
      refine Keeps.trans ?_ (State.portLower_keeps _ _)
      exact Keeps.refl _
    · refine Keeps.ite ?_ ?_
      · refine Keeps.trans ?_ (State.setPortState_keeps _ _ _)
        refine Keeps.trans ?_ (State.supplyOn_keeps _ _)
        exact Keeps.refl _
      · exact Keeps.refl _

theorem execPortModeWrite_keeps (h : Half) (n : Nat) (mode : Nat) (s : State) :
    OutKeeps s (execPortModeWrite h n mode s) := by
  unfold execPortModeWrite
  refine OutKeeps.next ?_
  refine Keeps.trans ?_ (portModeWrite_keeps _ _ _ _)
  exact Keeps.refl _

theorem preampSupplyOverload_keeps (h : Half) (n : Nat) (neg : Bool) (s : State) :
    Keeps s (preampSupplyOverload h n neg s) := by
  unfold preampSupplyOverload
  extract_lets +onlyGivenNames x1
  clear_value x1
  refine Keeps.ite ?_ ?_
  · exact Keeps.refl _
  · refine Keeps.trans ?_ (State.chimney_keeps _ _ _ _ _ _)
    refine Keeps.trans ?_ (State.flag_keeps _ _ _)
    refine Keeps.trans ?_ (State.supplyOff_keeps _ _)
    exact Keeps.refl _

theorem execPreampSupplyOverload_keeps (h : Half) (n : Nat) (neg : Bool) (s : State) :
    OutKeeps s (execPreampSupplyOverload h n neg s) := by
  unfold execPreampSupplyOverload
  refine OutKeeps.next ?_
  refine Keeps.trans ?_ (preampSupplyOverload_keeps _ _ _ _)
  exact Keeps.refl _

theorem State.readFault_keeps (s : State) (ai : Nat) (fault : Nat) :
    Keeps2 s (State.readFault s ai fault) := by
  unfold State.readFault
  refine Keeps2.mk ?_
  refine Keeps.trans ?_ (State.setFault_keeps _ _ _)
  exact Keeps.refl _

theorem preampFault_keeps (h : Half) (u : Nat) (fault : Nat) (s : State) :
    Keeps s (preampFault h u fault s) := by
  unfold preampFault
  extract_lets +onlyGivenNames x1 x2
  clear_value x1
  clear_value x2
  refine Keeps.ite ?_ ?_
  · exact Keeps.refl _
  · extract_lets +onlyGivenNames x3 x4
    have h5 : Keeps s x3 := by
      unfold x3
      refine Keeps.trans ?_ (State.flag_keeps _ _ _)
      refine Keeps.trans ?_ (State.gatesLow_keeps _ _)
      exact Keeps.refl _
    clear_value x3
    have h6 : Keeps s x4 := by
      unfold x4
      refine Keeps.trans ?_ (State.wickAbort_keeps _ _ _ _)
      exact h5
    clear_value x4
    split
    · rename_i y7 y8 y9 y10
      have h11 : Keeps s y9 := by
        refine Keeps2.use ?_ y10
        refine Keeps2.trans ?_ (State.readFault_keeps _ _ _)
        exact h6
      extract_lets +onlyGivenNames x12 x13
      have h14 : Keeps s x12 := by
        unfold x12
        refine Keeps.trans ?_ (State.put_keeps _ _ _ _)
        exact h11
      clear_value x12
      clear_value x13
      extract_lets +onlyGivenNames x15
      have h16 : Keeps s x15 := by
        unfold x15
        refine Keeps.trans ?_ (State.setPa_keeps _ _ _)
        exact h14
      clear_value x15
      refine Keeps.trans ?_ (State.chimney_keeps _ _ _ _ _ _)
      exact h16

theorem execPreampFault_keeps (h : Half) (u : Nat) (fault : Nat) (s : State) :
    OutKeeps s (execPreampFault h u fault s) := by
  unfold execPreampFault
  refine OutKeeps.next ?_
  refine Keeps.trans ?_ (preampFault_keeps _ _ _ _)
  exact Keeps.refl _

theorem persistentFaultCheck_keeps (h : Half) (u : Nat) (fault : Nat) (s : State) :
    Keeps s (persistentFaultCheck h u fault s) := by
  unfold persistentFaultCheck
  extract_lets +onlyGivenNames x1 x2 x3
  clear_value x1
  clear_value x2
  clear_value x3
  refine Keeps.ite ?_ ?_
  · exact Keeps.refl _
  · extract_lets +onlyGivenNames x4 x5
    clear_value x4
    have h6 : Keeps s x5 := by
      unfold x5
      refine Keeps.trans ?_ (State.setPa_keeps _ _ _)
      exact Keeps.refl _
    clear_value x5
    split
    · rename_i y7 y8 y9 y10
      have h11 : Keeps s y9 := by
        refine Keeps2.use ?_ y10
        refine Keeps2.trans ?_ (State.readFault_keeps _ _ _)
        exact h6
      extract_lets +onlyGivenNames x12
      have h13 : Keeps s x12 := by
        unfold x12
        refine Keeps.trans ?_ (State.put_keeps _ _ _ _)
        exact h11
      clear_value x12
      refine Keeps.ite ?_ ?_
      · exact h13
      · refine Keeps.trans ?_ (State.chimney_keeps _ _ _ _ _ _)
        refine Keeps.trans ?_ (State.paIssue_keeps _ _ _ _)
        exact h13

theorem execPersistentFaultCheck_keeps (h : Half) (u : Nat) (fault : Nat) (s : State) :
    OutKeeps s (execPersistentFaultCheck h u fault s) := by
  unfold execPersistentFaultCheck
  refine OutKeeps.next ?_
  refine Keeps.trans ?_ (persistentFaultCheck_keeps _ _ _ _)
  exact Keeps.refl _

end Sys2Proof.Machine
end

