-- ==== Sys2Proof/Laws/KeepsBand.lean ====
section
/-! SUPPORT. What `Keeps` says of every operation of Machine/Band.lean. -/

namespace Sys2Proof.Machine

theorem State.headCount_keeps (s : State) (ai : Nat) (head : Nat) (i : Nat) (n : Nat) :
    Keeps s (State.headCount s ai head i n) := by
  unfold State.headCount
  refine Keeps.trans ?_ (State.bump48_keeps _ _ _ _)
  exact Keeps.refl _

theorem State.fmtCount_keeps (s : State) (ai : Nat) (i : Nat) (n : Nat) :
    Keeps s (State.fmtCount s ai i n) := by
  unfold State.fmtCount
  refine Keeps.trans ?_ (State.count_keeps _ _ _ _ _ _)
  exact Keeps.refl _

theorem State.takeGen_keeps (s : State) (ai : Nat) :
    Keeps2 s (State.takeGen s ai) := by
  unfold State.takeGen
  extract_lets +onlyGivenNames x1
  clear_value x1
  refine Keeps2.mk ?_
  refine Keeps.trans ?_ (State.put_keeps _ _ _ _)
  exact Keeps.refl _

theorem State.loadGens_keeps (s : State) (ai : Nat) (frame : Nat) :
    Keeps s (State.loadGens s ai frame) := by
  unfold State.loadGens
  split
  · rename_i y1 y2 y3 y4 y5 y6
    refine Keeps.ite ?_ ?_
    · exact Keeps.refl _
    · extract_lets +onlyGivenNames x7
      clear_value x7
      refine Keeps.foldl ?_ ?_
      · exact Keeps.refl _
      · intro a8 b9
        split
        · rename_i y10 y11
          exact Keeps.refl _
        · rename_i y12 y13 y14
          refine Keeps.ite ?_ ?_
          · exact Keeps.refl _
          · split
            · rename_i y15 y16 y17 y18
              have h19 : Keeps a8 y17 := by
                refine Keeps2.use ?_ y18
                refine Keeps2.trans ?_ (State.takeGen_keeps _ _)
                exact Keeps.refl _
              extract_lets +onlyGivenNames x20
              clear_value x20
              refine Keeps.trans ?_ (State.setFmt_keeps _ _ _)
              exact h19
  · rename_i y21 y22 y23
    exact Keeps.refl _

theorem State.sparesLow_keeps (s : State) (ai : Nat) (band : Nat) (head : Nat) :
    Keeps s (State.sparesLow s ai band head) := by
  unfold State.sparesLow
  refine Keeps.trans ?_ (State.chimney_keeps _ _ _ _ _ _)
  refine Keeps.trans ?_ (State.flag_keeps _ _ _)
  exact Keeps.refl _

theorem State.addGrown_keeps (s : State) (ai : Nat) (d : Defect) :
    Keeps s (State.addGrown s ai d) := by
  unfold State.addGrown
  extract_lets +onlyGivenNames x1 x2 x3 x4 x5 x6
  clear_value x1
  clear_value x2
  clear_value x3
  clear_value x4
  clear_value x5
  have h7 : Keeps s x6 := by
    unfold x6
    refine Keeps.trans ?_ (State.bufStore_keeps _ _ _)
    exact Keeps.refl _
  clear_value x6
  refine Keeps.trans ?_ (State.bufStore_keeps _ _ _)
  exact h7

theorem State.grown_keeps (s : State) (ai : Nat) (band : Nat) (group : Nat) (k : Nat) (i : Nat) (cmd : Nat)
    (gen : Nat) :
    Keeps s (State.grown s ai band group k i cmd gen) := by
  unfold State.grown
  refine Keeps.ite ?_ ?_
  · exact Keeps.refl _
  · refine Keeps.ite ?_ ?_
    · refine Keeps.trans ?_ (State.sparesLow_keeps _ _ _ _)
      exact Keeps.refl _
    · refine Keeps.trans ?_ (State.rwqAdd_keeps _ _ _ _)
      exact Keeps.refl _

theorem State.relocate_keeps (s : State) (ai : Nat) (band : Nat) (group : Nat) (k : Nat) (plan : List (Nat × Nat)) :
    Keeps s (State.relocate s ai band group k plan) := by
  unfold State.relocate
  refine Keeps.foldl ?_ ?_
  · exact Keeps.refl _
  · intro a1 b2
    split
    · rename_i y3 y4 y5
      extract_lets +onlyGivenNames x6 x7 x8 x9 x10
      clear_value x6
      clear_value x7
      have h11 : Keeps a1 x8 := by
        unfold x8
        refine Keeps.trans ?_ (State.addGrown_keeps _ _ _)
        exact Keeps.refl _
      clear_value x8
      have h12 : Keeps a1 x9 := by
        unfold x9
        refine Keeps.trans ?_ (State.fmtCount_keeps _ _ _ _)
        refine Keeps.trans ?_ (State.flag_keeps _ _ _)
        exact h11
      clear_value x9
      clear_value x10
      extract_lets +onlyGivenNames x13
      have h14 : Keeps a1 x13 := by
        unfold x13
        refine Keeps.trans ?_ (State.setFmt_keeps _ _ _)
        exact h12
      clear_value x13
      refine Keeps.ite ?_ ?_
      · refine Keeps.trans ?_ (State.sparesLow_keeps _ _ _ _)
        exact h14
      · exact h14

theorem State.holdData_keeps (s : State) (ai : Nat) (band : Nat) (group : Nat) (k : Nat) (data : List
    (Nat × Sector)) :
    Keeps s (State.holdData s ai band group k data) := by
  unfold State.holdData
  refine Keeps.foldl ?_ ?_
  · exact Keeps.refl _
  · intro a1 b2
    split
    · rename_i y3 y4 y5
      refine Keeps.ite ?_ ?_
      · exact Keeps.refl _
      · extract_lets +onlyGivenNames x6
        clear_value x6
        refine Keeps.ite ?_ ?_
        · refine Keeps.trans ?_ (Keeps.upd (s := a1) rfl rfl rfl rfl)
          exact Keeps.refl _
        · refine Keeps.trans ?_ (Keeps.upd (s := a1) rfl rfl rfl rfl)
          exact Keeps.refl _

theorem State.stageParity_keeps (s : State) (ai : Nat) (band : Nat) (group : Nat) (k : Nat) :
    Keeps s (State.stageParity s ai band group k) := by
  unfold State.stageParity
  extract_lets +onlyGivenNames x1 x2 x3
  clear_value x1
  clear_value x2
  clear_value x3
  refine Keeps.trans ?_ (Keeps.upd (s := s) rfl rfl rfl rfl)
  exact Keeps.refl _

theorem State.writeWhole_keeps (s : State) (ai : Nat) (op : FmtOp) :
    Keeps s (State.writeWhole s ai op) := by
  unfold State.writeWhole
  extract_lets +onlyGivenNames x1 x2
  clear_value x1
  clear_value x2
  extract_lets +onlyGivenNames x3
  clear_value x3
  refine Keeps.trans ?_ (State.setFmt_keeps _ _ _)
  exact Keeps.refl _

theorem State.settleStripe.moreThanFour_keeps (s : State) (ai : Nat) (op : FmtOp) (k : Nat) (erased : List Nat) :
    Keeps1 s (State.settleStripe.moreThanFour s ai op k erased) := by
  unfold State.settleStripe.moreThanFour
  extract_lets +onlyGivenNames x1
  clear_value x1
  refine Keeps1.ite ?_ ?_
  · refine Keeps1.mk ?_
    exact Keeps.refl _
  · extract_lets +onlyGivenNames x2 x3 x4
    clear_value x2
    have h5 : Keeps s x3 := by
      unfold x3
      refine Keeps.trans ?_ (State.fmtCount_keeps _ _ _ _)
      refine Keeps.trans ?_ (State.flag_keeps _ _ _)
      exact Keeps.refl _
    clear_value x3
    have h6 : Keeps s x4 := by
      unfold x4
      refine Keeps.trans ?_ (State.chimney_keeps _ _ _ _ _ _)
      exact h5
    clear_value x4
    refine Keeps1.mk ?_
    exact h6

theorem State.markWritten_keeps (s : State) (ai : Nat) (secs : List (Nat × Nat)) :
    Keeps s (State.markWritten s ai secs) := by
  unfold State.markWritten
  split
  · rename_i y1 y2
    exact Keeps.refl _
  · rename_i y3 y4 y5
    extract_lets +onlyGivenNames x6 x7 x8 x9
    clear_value x6
    clear_value x7
    clear_value x8
    clear_value x9
    extract_lets +onlyGivenNames x10
    have h11 : Keeps s x10 := by
      unfold x10
      refine Keeps.trans ?_ (State.setFmt_keeps _ _ _)
      exact Keeps.refl _
    clear_value x10
    refine Keeps.foldl ?_ ?_
    · exact h11
    · intro a12 b13
      refine Keeps.trans ?_ (State.headCount_keeps _ _ _ _ _)
      exact Keeps.refl _

theorem State.stagingDrain_keeps (s : State) (ai : Nat) (band : Nat) (group : Nat) (ks : List Nat) :
    Keeps s (State.stagingDrain s ai band group ks) := by
  unfold State.stagingDrain
  refine Keeps.foldl ?_ ?_
  · exact Keeps.refl _
  · intro a1 b2
    refine Keeps.ite ?_ ?_
    · exact Keeps.refl _
    · extract_lets +onlyGivenNames x3 x4
      clear_value x3
      have h5 : Keeps a1 x4 := by
        unfold x4
        refine Keeps.trans ?_ (Keeps.upd (s := a1) rfl rfl rfl rfl)
        exact Keeps.refl _
      clear_value x4
      refine Keeps.foldl ?_ ?_
      · exact h5
      · intro a6 b7
        extract_lets +onlyGivenNames x8
        clear_value x8
        split
        · rename_i y9 y10
          exact Keeps.refl _
        · rename_i y11 y12 y13
          refine Keeps.trans ?_ (Keeps.upd (s := a6) rfl rfl rfl rfl)
          exact Keeps.refl _

theorem State.readDone_keeps (s : State) (ai : Nat) (op : FmtOp) (lost : List Nat) :
    Keeps s (State.readDone s ai op lost) := by
  unfold State.readDone
  refine Keeps.ite ?_ ?_
  · exact Keeps.refl _
  · extract_lets +onlyGivenNames x1
    clear_value x1
    refine Keeps.foldl ?_ ?_
    · exact Keeps.refl _
    · intro a2 b3
      refine Keeps.foldl ?_ ?_
      · exact Keeps.refl _
      · intro a4 b5
        split
        · rename_i y6 y7
          exact Keeps.refl _
        · rename_i y8 y9 y10
          refine Keeps.ite ?_ ?_
          · exact Keeps.refl _
          · extract_lets +onlyGivenNames x11
            clear_value x11
            refine Keeps.ite ?_ ?_
            · refine Keeps.ite ?_ ?_
              · exact Keeps.refl _
              · refine Keeps.trans ?_ (Keeps.upd (s := a4) rfl rfl rfl rfl)
                exact Keeps.refl _
            · refine Keeps.trans ?_ (Keeps.upd (s := a4) rfl rfl rfl rfl)
              exact Keeps.refl _

theorem State.endReq_keeps (s : State) (ai : Nat) (r : FmtReq) (st : OpStatus) (lost : List Nat) :
    Keeps s (State.endReq s ai r st lost) := by
  unfold State.endReq
  refine Keeps.ite ?_ ?_
  · exact Keeps.refl _
  · refine Keeps.trans ?_ (Keeps.upd (s := s) rfl rfl rfl rfl)
    exact Keeps.refl _

theorem State.fillFailed_keeps (s : State) (ai : Nat) (st : OpStatus) (lost : List Nat) :
    Keeps s (State.fillFailed s ai st lost) := by
  unfold State.fillFailed
  split
  · rename_i y1 y2 y3 y4
    refine Keeps.ite ?_ ?_
    · refine Keeps.trans ?_ (State.endReq_keeps _ _ _ _ _)
      extract_lets +onlyGivenNames x5
      clear_value x5
      refine Keeps.trans ?_ (State.setFmt_keeps _ _ _)
      exact Keeps.refl _
    · exact Keeps.refl _
  · rename_i y6 y7
    exact Keeps.refl _

theorem State.writeDone_keeps (s : State) (ai : Nat) (op : FmtOp) :
    Keeps s (State.writeDone s ai op) := by
  unfold State.writeDone
  extract_lets +onlyGivenNames x1 x2
  clear_value x1
  have h3 : Keeps s x2 := by
    unfold x2
    refine Keeps.trans ?_ (State.setFmt_keeps _ _ _)
    exact Keeps.refl _
  clear_value x2
  refine Keeps.ite ?_ ?_
  · extract_lets +onlyGivenNames x4 x5
    clear_value x4
    clear_value x5
    extract_lets +onlyGivenNames x6
    have h7 : Keeps s x6 := by
      unfold x6
      refine Keeps.trans ?_ (State.setFmt_keeps _ _ _)
      exact h3
    clear_value x6
    refine Keeps.trans ?_ (State.put_keeps _ _ _ _)
    refine Keeps.trans ?_ (State.put_keeps _ _ _ _)
    exact h7
  · refine Keeps.trans ?_ (State.stagingDrain_keeps _ _ _ _ _)
    refine Keeps.trans ?_ (State.fmtEnd_keeps _ _ _ _)
    exact h3

theorem State.entryDone_keeps (s : State) (ai : Nat) (op : FmtOp) (e : RwqEntry) :
    Keeps s (State.entryDone s ai op e) := by
  unfold State.entryDone
  extract_lets +onlyGivenNames x1 x2 x3 x4 x5 x6 x7 x8 x9
  clear_value x1
  clear_value x2
  have h10 : Keeps s x3 := by
    unfold x3
    refine Keeps.ite ?_ ?_
    · refine Keeps.trans ?_ (State.relocate_keeps _ _ _ _ _ _)
      exact Keeps.refl _
    · refine Keeps.trans ?_ (State.fmtCount_keeps _ _ _ _)
      exact Keeps.refl _
  clear_value x3
  clear_value x4
  have h11 : Keeps s x5 := by
    unfold x5
    refine Keeps.trans ?_ (State.setFmt_keeps _ _ _)
    exact h10
  clear_value x5
  clear_value x6
  have h12 : Keeps s x7 := by
    unfold x7
    refine Keeps.ite ?_ ?_
    · exact h11
    · refine Keeps.trans ?_ (State.rwqAdd_keeps _ _ _ _)
      exact h11
  clear_value x7
  clear_value x8
  clear_value x9
  extract_lets +onlyGivenNames x13 x14
  have h15 : Keeps s x13 := by
    unfold x13
    refine Keeps.ite ?_ ?_
    · refine Keeps.trans ?_ (State.setFmt_keeps _ _ _)
      exact h12
    · exact h12
  clear_value x13
  clear_value x14
  refine Keeps.trans ?_ (State.stagingDrain_keeps _ _ _ _ _)
  refine Keeps.trans ?_ (State.fmtEnd_keeps _ _ _ _)
  exact h15

theorem State.writeSettle_keeps (s : State) (ai : Nat) (op : FmtOp) :
    Keeps s (State.writeSettle s ai op) := by
  unfold State.writeSettle
  extract_lets +onlyGivenNames x1
  clear_value x1
  split
  · rename_i y2 y3 y4
    refine Keeps.trans ?_ (State.entryDone_keeps _ _ _ _)
    exact Keeps.refl _
  · rename_i y5 y6
    split
    · rename_i y7 y8 y9
      refine Keeps.trans ?_ (State.fmtEnd_keeps _ _ _ _)
      exact Keeps.refl _
    · rename_i y10 y11
      extract_lets +onlyGivenNames x12 x13
      clear_value x12
      clear_value x13
      refine Keeps.ite ?_ ?_
      · extract_lets +onlyGivenNames x14 x15
        clear_value x14
        have h16 : Keeps s x15 := by
          unfold x15
          refine Keeps.trans ?_ (State.setFmt_keeps _ _ _)
          exact Keeps.refl _
        clear_value x15
        refine Keeps.ite ?_ ?_
        · refine Keeps.trans ?_ (State.fmtEnd_keeps _ _ _ _)
          exact h16
        · exact h16
      · refine Keeps.ite ?_ ?_
        · refine Keeps.trans ?_ (State.setFmt_keeps _ _ _)
          exact Keeps.refl _
        · refine Keeps.trans ?_ (State.writeDone_keeps _ _ _)
          exact Keeps.refl _

theorem State.splitEnd_keeps (s : State) (ai : Nat) (op : FmtOp) (d : Desc) :
    Keeps s (State.splitEnd s ai op d) := by
  unfold State.splitEnd
  extract_lets +onlyGivenNames x1 x2 x3
  clear_value x1
  clear_value x2
  clear_value x3
  refine Keeps.trans ?_ (State.setFmt_keeps _ _ _)
  exact Keeps.refl _

theorem State.settleStripe_keeps (s : State) (ai : Nat) (op : FmtOp) (k : Nat) :
    Keeps1 s (State.settleStripe s ai op k) := by
  unfold State.settleStripe
  extract_lets +onlyGivenNames x1 x2 x3
  clear_value x1
  clear_value x2
  clear_value x3
  split
  · rename_i y4 y5 y6 y7
    extract_lets +onlyGivenNames x8 x9 x10 x11 x12 x13 x14 x15
    clear_value x8
    have h16 : Keeps s x9 := by
      unfold x9
      refine Keeps.ite ?_ ?_
      · refine Keeps.trans ?_ (State.fmtCount_keeps _ _ _ _)
        refine Keeps.trans ?_ (State.flag_keeps _ _ _)
        exact Keeps.refl _
      · exact Keeps.refl _
    clear_value x9
    clear_value x10
    clear_value x11
    clear_value x12
    clear_value x13
    clear_value x14
    have h17 : Keeps s x15 := by
      unfold x15
      refine Keeps.trans ?_ (State.setFmt_keeps _ _ _)
      exact h16
    clear_value x15
    extract_lets +onlyGivenNames x18
    clear_value x18
    split
    · rename_i y19 y20
      refine Keeps1.ite ?_ ?_
      · refine Keeps1.mk ?_
        exact h17
      · refine Keeps1.ite ?_ ?_
        · extract_lets +onlyGivenNames x21 x22 x23 x24 x25 x26 x27 x28 x29 x30
          clear_value x21
          clear_value x22
          have h31 : Keeps s x23 := by
            unfold x23
            refine Keeps.trans ?_ (State.setFmt_keeps _ _ _)
            exact h17
          clear_value x23
          have h32 : Keeps s x24 := by
            unfold x24
            refine Keeps.trans ?_ (State.fmtCount_keeps _ _ _ _)
            refine Keeps.trans ?_ (State.flag_keeps _ _ _)
            exact h31
          clear_value x24
          have h33 : Keeps s x25 := by
            unfold x25
            refine Keeps.foldl ?_ ?_
            · exact h32
            · intro a34 b35
              refine Keeps.trans ?_ (State.headCount_keeps _ _ _ _ _)
              exact Keeps.refl _
          clear_value x25
          clear_value x26
          clear_value x27
          have h36 : Keeps s x28 := by
            unfold x28
            refine Keeps.ite ?_ ?_
            · exact h33
            · refine Keeps.trans ?_ (State.holdData_keeps _ _ _ _ _ _)
              exact h33
          clear_value x28
          have h37 : Keeps s x29 := by
            unfold x29
            refine Keeps.foldl ?_ ?_
            · exact h36
            · intro a38 b39
              refine Keeps.trans ?_ (State.grown_keeps _ _ _ _ _ _ _ _)
              exact Keeps.refl _
          clear_value x29
          clear_value x30
          extract_lets +onlyGivenNames x40
          have h41 : Keeps s x40 := by
            unfold x40
            refine Keeps.trans ?_ (State.fmtCount_keeps _ _ _ _)
            refine Keeps.trans ?_ (State.flag_keeps _ _ _)
            exact h37
          clear_value x40
          extract_lets +onlyGivenNames x42
          have h43 : Keeps s x42 := by
            unfold x42
            refine Keeps.foldl ?_ ?_
            · exact h41
            · intro a44 b45
              refine Keeps.trans ?_ (State.headCount_keeps _ _ _ _ _)
              exact Keeps.refl _
          clear_value x42
          extract_lets +onlyGivenNames x46
          clear_value x46
          extract_lets +onlyGivenNames x47
          have h48 : Keeps s x47 := by
            unfold x47
            split
            · rename_i y49 y50 y51
              refine Keeps.ite ?_ ?_
              · exact h37
              · refine Keeps.ite ?_ ?_
                · refine Keeps.trans ?_ (State.writeWhole_keeps _ _ _)
                  refine Keeps.trans ?_ (State.stageParity_keeps _ _ _ _ _)
                  exact h37
                · refine Keeps.trans ?_ (State.rwqAdd_keeps _ _ _ _)
                  exact h37
            · rename_i y52 y53
              refine Keeps.ite ?_ ?_
              · refine Keeps.ite ?_ ?_
                · refine Keeps.ite ?_ ?_
                  · refine Keeps.foldl ?_ ?_
                    · exact h43
                    · intro a54 b55
                      refine Keeps.trans ?_ (State.grown_keeps _ _ _ _ _ _ _ _)
                      exact Keeps.refl _
                  · refine Keeps.trans ?_ (State.setFmt_keeps _ _ _)
                    refine Keeps.trans ?_ (State.flag_keeps _ _ _)
                    exact h43
                · refine Keeps.trans ?_ (State.rwqAdd_keeps _ _ _ _)
                  exact h43
              · exact h37
          clear_value x47
          refine Keeps1.mk ?_
          exact h48
        · refine Keeps1.trans ?_ (State.settleStripe.moreThanFour_keeps _ _ _ _ _)
          exact h17
    · rename_i y56
      refine Keeps1.trans ?_ (State.settleStripe.moreThanFour_keeps _ _ _ _ _)
      exact h17

theorem State.readSettle_keeps (s : State) (ai : Nat) (op : FmtOp) :
    Keeps s (State.readSettle s ai op) := by
  unfold State.readSettle
  split
  · rename_i y1 y2 y3 y4 y5
    have h6 : Keeps s y2 := by
      refine Keeps1.use ?_ y5
      refine Keeps1.foldl ?_ ?_
      · refine Keeps1.mk ?_
        exact Keeps.refl _
      · intro a7 a7' b8
        split
        · rename_i y9 y10
          refine Keeps1.mk ?_
          exact Keeps.refl _
        · rename_i y11 y12 y13
          split
          · rename_i y14 y15 y16 y17 y18
            have h19 : Keeps a7 y15 := by
              refine Keeps1.use ?_ y18
              refine Keeps1.trans ?_ (State.settleStripe_keeps _ _ _ _)
              dsimp (zeta := false) only
              exact Keeps.refl _
            refine Keeps1.mk ?_
            exact h19
    split
    · rename_i y20 y21
      exact h6
    · rename_i y22 y23 y24
      refine Keeps.ite ?_ ?_
      · exact h6
      · refine Keeps.ite ?_ ?_
        · extract_lets +onlyGivenNames x25 x26
          clear_value x25
          clear_value x26
          refine Keeps.trans ?_ (State.setFmt_keeps _ _ _)
          exact h6
        · extract_lets +onlyGivenNames x27 x28 x29 x30 x31 x32
          clear_value x27
          clear_value x28
          have h33 : Keeps s x29 := by
            unfold x29
            refine Keeps.trans ?_ (State.readDone_keeps _ _ _ _)
            exact h6
          clear_value x29
          clear_value x30
          have h34 : Keeps s x31 := by
            unfold x31
            refine Keeps.trans ?_ (State.setFmt_keeps _ _ _)
            exact h33
          clear_value x31
          have h35 : Keeps s x32 := by
            unfold x32
            refine Keeps.trans ?_ (State.fmtEnd_keeps _ _ _ _)
            exact h34
          clear_value x32
          extract_lets +onlyGivenNames x36
          have h37 : Keeps s x36 := by
            unfold x36
            refine Keeps.ite ?_ ?_
            · refine Keeps.trans ?_ (State.fillFailed_keeps _ _ _ _)
              exact h35
            · exact h35
          clear_value x36
          refine Keeps.ite ?_ ?_
          · refine Keeps.trans ?_ (State.stagingDrain_keeps _ _ _ _ _)
            exact h37
          · exact h37

theorem State.fmtPosted_keeps (s : State) (ai : Nat) (st : Option OpStatus) (d : Desc) :
    Keeps s (State.fmtPosted s ai st d) := by
  unfold State.fmtPosted
  extract_lets +onlyGivenNames x1
  clear_value x1
  split
  · rename_i y2 y3
    exact Keeps.refl _
  · rename_i y4 y5 y6
    refine Keeps.ite ?_ ?_
    · refine Keeps.trans ?_ (State.splitEnd_keeps _ _ _ _)
      exact Keeps.refl _
    · split
      · rename_i y7
        refine Keeps.trans ?_ (State.setFmt_keeps _ _ _)
        exact Keeps.refl _
      · rename_i y8 y9 y10
        refine Keeps.trans ?_ (State.fmtEnd_keeps _ _ _ _)
        exact Keeps.refl _
      · rename_i y11
        extract_lets +onlyGivenNames x12 x13 x14
        clear_value x12
        clear_value x13
        have h15 : Keeps s x14 := by
          unfold x14
          refine Keeps.trans ?_ (State.setFmt_keeps _ _ _)
          exact Keeps.refl _
        clear_value x14
        refine Keeps.ite ?_ ?_
        · refine Keeps.trans ?_ (State.fmtEnd_keeps _ _ _ _)
          exact h15
        · refine Keeps.ite ?_ ?_
          · extract_lets +onlyGivenNames x16 x17 x18 x19
            clear_value x16
            clear_value x17
            clear_value x18
            have h20 : Keeps s x19 := by
              unfold x19
              refine Keeps.trans ?_ (State.setFmt_keeps _ _ _)
              exact h15
            clear_value x19
            refine Keeps.ite ?_ ?_
            · refine Keeps.trans ?_ (State.readSettle_keeps _ _ _)
              exact h20
            · exact h20
          · refine Keeps.trans ?_ (State.writeSettle_keeps _ _ _)
            exact h15

end Sys2Proof.Machine
end

