-- ==== Sys2Proof/Laws/KeepsWick.lean ====
section
/-! SUPPORT. What `Keeps` says of every operation of Machine/Wick.lean. -/

namespace Sys2Proof.Machine

theorem State.putWick_keeps (s : State) (ai : Nat) (w : Wick) :
    Keeps s (State.putWick s ai w) := by
  unfold State.putWick
  refine Keeps.trans ?_ (State.put_keeps _ _ _ _)
  refine Keeps.trans ?_ (State.setWick_keeps _ _ _)
  exact Keeps.refl _

theorem State.wickTrace_keeps (s : State) (ai : Nat) (pc : Nat) (word : Nat) (cond : Bool) (on : Bool) (stall : Nat) :
    Keeps s (State.wickTrace s ai pc word cond on stall) := by
  unfold State.wickTrace
  refine Keeps.ite ?_ ?_
  · exact Keeps.refl _
  · extract_lets +onlyGivenNames x1
    clear_value x1
    refine Keeps.trans ?_ (State.trace_keeps _ _ _ _ _)
    exact Keeps.refl _

theorem State.wickFault_keeps (s : State) (ai : Nat) (cause : Nat) (pc : Nat) (word : Nat) :
    Keeps s (State.wickFault s ai cause pc word) := by
  unfold State.wickFault
  extract_lets +onlyGivenNames x1 x2 x3 x4 x5 x6 x7
  clear_value x1
  have h8 : Keeps s x2 := by
    unfold x2
    refine Keeps.trans ?_ (State.gatesLow_keeps _ _)
    exact Keeps.refl _
  clear_value x2
  clear_value x3
  have h9 : Keeps s x4 := by
    unfold x4
    refine Keeps.trans ?_ (State.putWick_keeps _ _ _)
    exact h8
  clear_value x4
  have h10 : Keeps s x5 := by
    unfold x5
    refine Keeps.trans ?_ (State.put_keeps _ _ _ _)
    refine Keeps.trans ?_ (State.put_keeps _ _ _ _)
    exact h9
  clear_value x5
  have h11 : Keeps s x6 := by
    unfold x6
    refine Keeps.trans ?_ (State.flag_keeps _ _ _)
    refine Keeps.trans ?_ (State.put_keeps _ _ _ _)
    exact h10
  clear_value x6
  have h12 : Keeps s x7 := by
    unfold x7
    refine Keeps.trans ?_ (State.chimney_keeps _ _ _ _ _ _)
    exact h11
  clear_value x7
  extract_lets +onlyGivenNames x13
  have h14 : Keeps s x13 := by
    unfold x13
    refine Keeps.trans ?_ (State.put_keeps _ _ _ _)
    refine Keeps.trans ?_ (State.put_keeps _ _ _ _)
    exact h12
  clear_value x13
  refine Keeps.trans ?_ (State.fmtEnd_keeps _ _ _ _)
  refine Keeps.trans ?_ (State.paKick_keeps _ _)
  exact h14

theorem State.wickFetch_keeps (s : State) (ai : Nat) (addr : Nat) :
    Keeps s (State.wickFetch s ai addr) := by
  unfold State.wickFetch
  split
  · rename_i y1 y2 y3
    refine Keeps.trans ?_ (State.put_keeps _ _ _ _)
    exact Keeps.refl _
  · rename_i y4 y5
    extract_lets +onlyGivenNames x6 x7
    clear_value x6
    have h8 : Keeps s x7 := by
      unfold x7
      refine Keeps.trans ?_ (State.put_keeps _ _ _ _)
      exact Keeps.refl _
    clear_value x7
    refine Keeps.ite ?_ ?_
    · split
      · rename_i y9 y10 y11 y12
        have h13 : Keeps s y11 := by
          refine Keeps2.use ?_ y12
          refine Keeps2.trans ?_ (State.takeFree_keeps _)
          exact h8
        refine Keeps.trans ?_ (State.wickFault_keeps _ _ _ _ _)
        exact h13
    · exact h8

theorem State.gateHold_keeps (s : State) (ai : Nat) :
    Keeps s (State.gateHold s ai) := by
  unfold State.gateHold
  extract_lets +onlyGivenNames x1 x2
  clear_value x1
  clear_value x2
  refine Keeps.ite ?_ ?_
  · refine Keeps.trans ?_ (State.flag_keeps _ _ _)
    exact Keeps.refl _
  · exact Keeps.refl _

theorem State.verifyLeave_keeps (s : State) (ci : Nat) :
    Keeps s (State.verifyLeave s ci) := by
  unfold State.verifyLeave
  extract_lets +onlyGivenNames x1
  clear_value x1
  refine Keeps.ite ?_ ?_
  · refine Keeps.trans ?_ (State.setChState_keeps _ _ _)
    exact Keeps.refl _
  · exact Keeps.refl _

theorem State.verifyLeaves_keeps (s : State) (ai : Nat) :
    Keeps s (State.verifyLeaves s ai) := by
  unfold State.verifyLeaves
  refine Keeps.foldl ?_ ?_
  · exact Keeps.refl _
  · intro a1 b2
    refine Keeps.trans ?_ (State.verifyLeave_keeps _ _)
    exact Keeps.refl _

theorem State.applyEdge_keeps (s : State) (ai : Nat) (e : EdgeEntry) :
    Keeps s (State.applyEdge s ai e) := by
  unfold State.applyEdge
  extract_lets +onlyGivenNames x1 x2
  clear_value x1
  have h3 : Keeps s x2 := by
    unfold x2
    refine Keeps.trans ?_ (State.setWick_keeps _ _ _)
    exact Keeps.refl _
  clear_value x2
  refine Keeps.trans ?_ (State.paKick_keeps _ _)
  refine Keeps.trans ?_ (State.busYield_keeps _ _)
  refine Keeps.trans ?_ (State.verifyLeaves_keeps _ _)
  refine Keeps.trans ?_ (State.gateHold_keeps _ _)
  exact h3

theorem State.schedule_keeps (s : State) (ai : Nat) (now : Nat) (e : EdgeEntry) :
    Keeps s (State.schedule s ai now e) := by
  unfold State.schedule
  extract_lets +onlyGivenNames x1 x2
  clear_value x1
  clear_value x2
  refine Keeps.ite ?_ ?_
  · refine Keeps.trans ?_ (State.flag_keeps _ _ _)
    refine Keeps.trans ?_ (State.applyEdge_keeps _ _ _)
    exact Keeps.refl _
  · refine Keeps.trans ?_ (State.setWick_keeps _ _ _)
    exact Keeps.refl _

theorem State.lastEnds_keeps (s : State) (ai : Nat) (t : TagEntry) :
    Keeps s (State.lastEnds s ai t) := by
  unfold State.lastEnds
  extract_lets +onlyGivenNames x1 x2 x3
  clear_value x1
  clear_value x2
  clear_value x3
  refine Keeps.trans ?_ (State.paKick_keeps _ _)
  refine Keeps.trans ?_ (State.verifyLeaves_keeps _ _)
  refine Keeps.trans ?_ (State.setWick_keeps _ _ _)
  exact Keeps.refl _

theorem State.slotReport_keeps (s : State) (ai : Nat) (frame : Nat) (slot : Nat) (r : SecResult) :
    Keeps s (State.slotReport s ai frame slot r) := by
  unfold State.slotReport
  extract_lets +onlyGivenNames x1 x2 x3 x4 x5 x6
  clear_value x1
  clear_value x2
  clear_value x3
  clear_value x4
  clear_value x5
  have h7 : Keeps s x6 := by
    unfold x6
    refine Keeps.trans ?_ (State.setWick_keeps _ _ _)
    exact Keeps.refl _
  clear_value x6
  split
  · rename_i y8 y9 y10 y11 y12 y13
    refine Keeps.ite ?_ ?_
    · exact h7
    · split
      · rename_i y14 y15
        exact h7
      · rename_i y16 y17 y18 y19
        refine Keeps.ite ?_ ?_
        · extract_lets +onlyGivenNames x20
          clear_value x20
          refine Keeps.trans ?_ (State.setFmt_keeps _ _ _)
          exact h7
        · exact h7
  · rename_i y21 y22 y23
    exact h7

theorem State.announce_keeps (s : State) (ai : Nat) (t : TagEntry) (at_ : Place) :
    Keeps s (State.announce s ai t at_) := by
  unfold State.announce
  split
  · rename_i y1 y2
    exact Keeps.refl _
  · rename_i y3 y4 y5
    extract_lets +onlyGivenNames x6 x7 x8 x9 x10
    clear_value x6
    have h11 : Keeps s x7 := by
      unfold x7
      refine Keeps.ite ?_ ?_
      · exact Keeps.refl _
      · refine Keeps.foldl ?_ ?_
        · refine Keeps.trans ?_ (State.flag_keeps _ _ _)
          exact Keeps.refl _
        · intro a12 b13
          refine Keeps.trans ?_ (State.slotReport_keeps _ _ _ _ _)
          exact Keeps.refl _
    clear_value x7
    clear_value x8
    clear_value x9
    clear_value x10
    refine Keeps.ite ?_ ?_
    · exact h11
    · extract_lets +onlyGivenNames x14
      have h15 : Keeps s x14 := by
        unfold x14
        refine Keeps.trans ?_ (State.setWick_keeps _ _ _)
        exact h11
      clear_value x14
      refine Keeps.ite ?_ ?_
      · refine Keeps.trans ?_ (State.loadGens_keeps _ _ _)
        exact h15
      · exact h15

theorem State.noteWrite_keeps (s : State) (ai : Nat) (d : Desc) (slot : Nat) (frame : Nat) (x : Nat × Nat × Bool) :
    Keeps s (State.noteWrite s ai d slot frame x) := by
  unfold State.noteWrite
  split
  · rename_i y1 y2 y3 y4
    split
    · rename_i y5 y6
      exact Keeps.refl _
    · rename_i y7 y8 y9
      extract_lets +onlyGivenNames x10 x11 x12
      clear_value x10
      clear_value x11
      clear_value x12
      extract_lets +onlyGivenNames x13
      clear_value x13
      refine Keeps.trans ?_ (State.setRch_keeps _ _ _)
      exact Keeps.refl _

theorem State.settleWrites_keeps (s : State) (ai : Nat) (at_ : Place) :
    Keeps s (State.settleWrites s ai at_) := by
  unfold State.settleWrites
  extract_lets +onlyGivenNames x1
  clear_value x1
  split
  · rename_i y2 y3
    exact Keeps.refl _
  · rename_i y4 y5 y6
    extract_lets +onlyGivenNames x7 x8 x9 x10 x11 x12 x13 x14 x15 x16
    clear_value x7
    clear_value x8
    clear_value x9
    clear_value x10
    clear_value x11
    clear_value x12
    have h17 : Keeps s x13 := by
      unfold x13
      refine Keeps.trans ?_ (State.setWick_keeps _ _ _)
      exact Keeps.refl _
    clear_value x13
    clear_value x14
    clear_value x15
    have h18 : Keeps s x16 := by
      unfold x16
      refine Keeps.foldl ?_ ?_
      · exact h17
      · intro a19 b20
        refine Keeps.trans ?_ (State.noteWrite_keeps _ _ _ _ _ _)
        exact Keeps.refl _
    clear_value x16
    refine Keeps.trans ?_ (State.markWritten_keeps _ _ _)
    exact h18

theorem State.wickStart_keeps (s : State) (ai : Nat) (d : Desc) :
    Keeps s (State.wickStart s ai d) := by
  unfold State.wickStart
  extract_lets +onlyGivenNames x1 x2 x3
  clear_value x1
  clear_value x2
  have h4 : Keeps s x3 := by
    unfold x3
    refine Keeps.trans ?_ (State.putWick_keeps _ _ _)
    exact Keeps.refl _
  clear_value x3
  extract_lets +onlyGivenNames x5
  have h6 : Keeps s x5 := by
    unfold x5
    refine Keeps.trans ?_ (State.put_keeps _ _ _ _)
    refine Keeps.trans ?_ (State.put_keeps _ _ _ _)
    exact h4
  clear_value x5
  refine Keeps.trans ?_ (State.wickFetch_keeps _ _ _)
  exact h6

theorem State.wordEnd_keeps (s : State) (ai : Nat) (word : Nat) (cond : Bool) (stall : Nat) (next : Nat) :
    Keeps s (State.wordEnd s ai word cond stall next) := by
  unfold State.wordEnd
  refine Keeps.trans ?_ (State.wickFetch_keeps _ _ _)
  refine Keeps.trans ?_ (State.wickTrace_keeps _ _ _ _ _ _ _)
  exact Keeps.refl _

theorem State.wordStall_keeps (s : State) (ai : Nat) (word : Nat) (st : Stall) :
    Keeps s (State.wordStall s ai word st) := by
  unfold State.wordStall
  refine Keeps.trans ?_ (State.put_keeps _ _ _ _)
  extract_lets +onlyGivenNames x1
  clear_value x1
  refine Keeps.trans ?_ (State.setWick_keeps _ _ _)
  exact Keeps.refl _

theorem State.microLoc_keeps (s : State) (ai : Nat) (xs : Nat) :
    Keeps s (State.microLoc s ai xs) := by
  unfold State.microLoc
  extract_lets +onlyGivenNames x1
  clear_value x1
  split
  · rename_i y2 y3
    exact Keeps.refl _
  · rename_i y4 y5 y6
    extract_lets +onlyGivenNames x7
    clear_value x7
    refine Keeps.ite ?_ ?_
    · extract_lets +onlyGivenNames x8 x9
      clear_value x8
      clear_value x9
      extract_lets +onlyGivenNames x10
      clear_value x10
      refine Keeps.trans ?_ (State.setWick_keeps _ _ _)
      exact Keeps.refl _
    · extract_lets +onlyGivenNames x11
      clear_value x11
      extract_lets +onlyGivenNames x12
      clear_value x12
      refine Keeps.trans ?_ (State.setWick_keeps _ _ _)
      refine Keeps.trans ?_ (Keeps.updFree (s := s) rfl rfl rfl (Nat.le_add_right _ _))
      exact Keeps.refl _

theorem State.askRecovery_keeps (s : State) (ai : Nat) (frame : Nat) :
    Keeps s (State.askRecovery s ai frame) := by
  unfold State.askRecovery
  refine Keeps.foldl ?_ ?_
  · exact Keeps.refl _
  · intro a1 b2
    refine Keeps.ite ?_ ?_
    · extract_lets +onlyGivenNames x3 x4 x5
      clear_value x3
      clear_value x4
      clear_value x5
      refine Keeps.trans ?_ (State.setRch_keeps _ _ _)
      exact Keeps.refl _
    · exact Keeps.refl _

theorem State.setErs_keeps (s : State) (ai : Nat) :
    Keeps s (State.setErs s ai) := by
  unfold State.setErs
  extract_lets +onlyGivenNames x1
  clear_value x1
  refine Keeps.trans ?_ (State.setWick_keeps _ _ _)
  exact Keeps.refl _

theorem State.wickFrame_keeps (s : State) (ai : Nat) (bits : BitVec 24) :
    Keeps s (State.wickFrame s ai bits) := by
  unfold State.wickFrame
  refine Keeps.trans ?_ (State.paIssue_keeps _ _ _ _)
  extract_lets +onlyGivenNames x1
  clear_value x1
  refine Keeps.trans ?_ (State.setWick_keeps _ _ _)
  exact Keeps.refl _

theorem State.wcondIssue_keeps (s : State) (ai : Nat) (word : Nat) (cond : Nat) (timeout : Nat) :
    Keeps s (State.wcondIssue s ai word cond timeout) := by
  unfold State.wcondIssue
  refine Keeps.ite ?_ ?_
  · refine Keeps.trans ?_ (State.wordEnd_keeps _ _ _ _ _ _)
    extract_lets +onlyGivenNames x1
    clear_value x1
    refine Keeps.trans ?_ (State.setWick_keeps _ _ _)
    exact Keeps.refl _
  · extract_lets +onlyGivenNames x2
    clear_value x2
    extract_lets +onlyGivenNames x3
    have h4 : Keeps s x3 := by
      unfold x3
      refine Keeps.trans ?_ (State.setWick_keeps _ _ _)
      exact Keeps.refl _
    clear_value x3
    refine Keeps.trans ?_ (State.wordStall_keeps _ _ _ _)
    exact h4

theorem State.atPlace_keeps (s : State) (ai : Nat) (at_ : Place) :
    Keeps s (State.atPlace s ai at_) := by
  unfold State.atPlace
  extract_lets +onlyGivenNames x1 x2
  clear_value x1
  clear_value x2
  refine Keeps.trans ?_ (State.windowsClose_keeps _ _ _)
  refine Keeps.trans ?_ (State.setWick_keeps _ _ _)
  exact Keeps.refl _

theorem State.unstall_keeps (s : State) (ai : Nat) (cycles : Nat) :
    Keeps s (State.unstall s ai cycles) := by
  unfold State.unstall
  extract_lets +onlyGivenNames x1 x2
  clear_value x1
  have h3 : Keeps s x2 := by
    unfold x2
    refine Keeps.trans ?_ (State.put_keeps _ _ _ _)
    refine Keeps.trans ?_ (State.setWick_keeps _ _ _)
    exact Keeps.refl _
  clear_value x2
  refine Keeps.trans ?_ (State.wickFetch_keeps _ _ _)
  refine Keeps.trans ?_ (State.wickTrace_keeps _ _ _ _ _ _ _)
  exact h3

theorem State.stallOver_keeps (s : State) (ai : Nat) (at_ : Place) :
    KeepsO s (State.stallOver s ai at_) := by
  unfold State.stallOver
  extract_lets +onlyGivenNames x1
  clear_value x1
  split
  · rename_i y2 y3
    exact KeepsO.none
  · rename_i y4 y5 y6
    refine KeepsO.ite ?_ ?_
    · refine KeepsO.some ?_
      exact Keeps.refl _
    · exact KeepsO.none
  · rename_i y7 y8 y9
    refine KeepsO.ite ?_ ?_
    · refine KeepsO.some ?_
      exact Keeps.refl _
    · exact KeepsO.none
  · rename_i y10 y11 y12
    refine KeepsO.ite ?_ ?_
    · refine KeepsO.some ?_
      refine Keeps.trans ?_ (State.schedule_keeps _ _ _ _)
      exact Keeps.refl _
    · exact KeepsO.none
  · rename_i y13 y14 y15
    refine KeepsO.ite ?_ ?_
    · refine KeepsO.some ?_
      refine Keeps.trans ?_ (State.announce_keeps _ _ _ _)
      exact Keeps.refl _
    · exact KeepsO.none
  · rename_i y16 y17
    extract_lets +onlyGivenNames x18
    have h19 : Keeps s x18 := by
      unfold x18
      refine Keeps.trans ?_ (State.settleWrites_keeps _ _ _)
      exact Keeps.refl _
    clear_value x18
    refine KeepsO.ite ?_ ?_
    · refine KeepsO.some ?_
      refine Keeps.trans ?_ (State.setErs_keeps _ _)
      exact h19
    · exact KeepsO.none
  · rename_i y20 y21 y22
    refine KeepsO.ite ?_ ?_
    · exact KeepsO.none
    · refine KeepsO.some ?_
      refine Keeps.trans ?_ (State.setErs_keeps _ _)
      exact Keeps.refl _
  · rename_i y23 y24
    refine KeepsO.ite ?_ ?_
    · refine KeepsO.some ?_
      exact Keeps.refl _
    · exact KeepsO.none
  · rename_i y25 y26 y27
    refine KeepsO.map ?_
    intro a28
    refine Keeps.trans ?_ (State.setWick_keeps _ _ _)
    exact Keeps.refl _
  · rename_i y29 y30
    refine KeepsO.map ?_
    intro a31
    refine Keeps.trans ?_ (State.setWick_keeps _ _ _)
    exact Keeps.refl _
  · rename_i y32 y33 y34
    refine KeepsO.ite ?_ ?_
    · refine KeepsO.some ?_
      refine Keeps.trans ?_ (State.setWick_keeps _ _ _)
      exact Keeps.refl _
    · exact KeepsO.none
  · rename_i y35 y36 y37
    extract_lets +onlyGivenNames x38
    have h39 : Keeps s x38 := by
      unfold x38
      refine Keeps.trans ?_ (State.settleWrites_keeps _ _ _)
      exact Keeps.refl _
    clear_value x38
    refine KeepsO.ite ?_ ?_
    · refine KeepsO.some ?_
      exact h39
    · exact KeepsO.none

theorem wcondTimeout_keeps (h : Half) (u : Nat) (s : State) :
    Keeps s (wcondTimeout h u s) := by
  unfold wcondTimeout
  extract_lets +onlyGivenNames x1 x2
  clear_value x1
  clear_value x2
  split
  · rename_i y3 y4 y5
    refine Keeps.ite ?_ ?_
    · exact Keeps.refl _
    · refine Keeps.ite ?_ ?_
      · refine Keeps.trans ?_ (State.unstall_keeps _ _ _)
        refine Keeps.trans ?_ (State.setWick_keeps _ _ _)
        exact Keeps.refl _
      · refine Keeps.trans ?_ (State.unstall_keeps _ _ _)
        refine Keeps.trans ?_ (State.setWick_keeps _ _ _)
        exact Keeps.refl _
  · rename_i y6 y7
    exact Keeps.refl _

theorem execWcondTimeout_keeps (h : Half) (u : Nat) (s : State) :
    OutKeeps s (execWcondTimeout h u s) := by
  unfold execWcondTimeout
  refine OutKeeps.next ?_
  refine Keeps.trans ?_ (wcondTimeout_keeps _ _ _)
  exact Keeps.refl _

theorem State.keepOut_keeps (s : State) (ai : Nat) :
    Keeps s (State.keepOut s ai) := by
  unfold State.keepOut
  refine Keeps.ite ?_ ?_
  · exact Keeps.refl _
  · extract_lets +onlyGivenNames x1
    clear_value x1
    extract_lets +onlyGivenNames x2
    clear_value x2
    refine Keeps.trans ?_ (State.setFmt_keeps _ _ _)
    refine Keeps.trans ?_ (State.setWick_keeps _ _ _)
    exact Keeps.refl _

theorem edgeApply_keeps (h : Half) (u : Nat) (ev : GateEvent) (s : State) :
    Keeps s (edgeApply h u ev s) := by
  unfold edgeApply
  extract_lets +onlyGivenNames x1 x2
  clear_value x1
  clear_value x2
  split
  · rename_i y3
    split
    · rename_i y4 y5
      exact Keeps.refl _
    · rename_i y6 y7 y8
      refine Keeps.trans ?_ (State.lastEnds_keeps _ _ _)
      exact Keeps.refl _
  · rename_i y9
    split
    · rename_i y10 y11
      exact Keeps.refl _
    · rename_i y12 y13 y14 y15
      extract_lets +onlyGivenNames x16 x17 x18
      clear_value x16
      clear_value x17
      clear_value x18
      refine Keeps.trans ?_ (State.applyEdge_keeps _ _ _)
      refine Keeps.trans ?_ (State.setWick_keeps _ _ _)
      exact Keeps.refl _
  · rename_i y19 y20
    refine Keeps.trans ?_ (State.keepOut_keeps _ _)
    refine Keeps.trans ?_ (State.setWick_keeps _ _ _)
    exact Keeps.refl _
  · rename_i y21
    refine Keeps.ite ?_ ?_
    · exact Keeps.refl _
    · extract_lets +onlyGivenNames x22 x23
      clear_value x22
      have h24 : Keeps s x23 := by
        unfold x23
        refine Keeps.trans ?_ (State.setWick_keeps _ _ _)
        exact Keeps.refl _
      clear_value x23
      refine Keeps.trans ?_ (State.paKick_keeps _ _)
      refine Keeps.trans ?_ (State.busYield_keeps _ _)
      refine Keeps.trans ?_ (State.gateHold_keeps _ _)
      exact h24

theorem execEdgeApply_keeps (h : Half) (u : Nat) (ev : GateEvent) (s : State) :
    OutKeeps s (execEdgeApply h u ev s) := by
  unfold execEdgeApply
  refine OutKeeps.next ?_
  refine Keeps.trans ?_ (edgeApply_keeps _ _ _ _)
  exact Keeps.refl _

theorem abortVector_keeps (h : Half) (u : Nat) (at_ : Place) (s : State) :
    Keeps s (abortVector h u at_ s) := by
  unfold abortVector
  extract_lets +onlyGivenNames x1
  clear_value x1
  split
  · rename_i y2 y3
    exact Keeps.refl _
  · rename_i y4 y5 y6
    refine Keeps.ite ?_ ?_
    · exact Keeps.refl _
    · extract_lets +onlyGivenNames x7 x8 x9 x10 x11 x12 x13 x14 x15 x16
      have h17 : Keeps s x7 := by
        unfold x7
        refine Keeps.trans ?_ (State.atPlace_keeps _ _ _)
        exact Keeps.refl _
      clear_value x7
      have h18 : Keeps s x8 := by
        unfold x8
        refine Keeps.trans ?_ (State.endAtFrame_keeps _ _ _)
        exact h17
      clear_value x8
      clear_value x9
      clear_value x10
      have h19 : Keeps s x11 := by
        unfold x11
        refine Keeps.ite ?_ ?_
        · refine Keeps.trans ?_ (State.setFmt_keeps _ _ _)
          exact h18
        · exact h18
      clear_value x11
      clear_value x12
      have h20 : Keeps s x13 := by
        unfold x13
        refine Keeps.trans ?_ (State.setPa_keeps _ _ _)
        exact h19
      clear_value x13
      have h21 : Keeps s x14 := by
        unfold x14
        refine Keeps.trans ?_ (State.setWick_keeps _ _ _)
        exact h20
      clear_value x14
      clear_value x15
      have h22 : Keeps s x16 := by
        unfold x16
        refine Keeps.trans ?_ (State.put_keeps _ _ _ _)
        refine Keeps.trans ?_ (State.put_keeps _ _ _ _)
        exact h21
      clear_value x16
      refine Keeps.trans ?_ (State.wickFetch_keeps _ _ _)
      refine Keeps.trans ?_ (State.paKick_keeps _ _)
      exact h22

theorem execAbortVector_keeps (h : Half) (u : Nat) (at_ : Place) (s : State) :
    OutKeeps s (execAbortVector h u at_ s) := by
  unfold execAbortVector
  refine OutKeeps.next ?_
  refine Keeps.trans ?_ (abortVector_keeps _ _ _ _)
  exact Keeps.refl _

theorem wickRestart_keeps (h : Half) (u : Nat) (s : State) :
    Keeps s (wickRestart h u s) := by
  unfold wickRestart
  extract_lets +onlyGivenNames x1
  clear_value x1
  refine Keeps.ite ?_ ?_
  · exact Keeps.refl _
  · refine Keeps.trans ?_ (State.idleVector_keeps _ _)
    refine Keeps.trans ?_ (State.put_keeps _ _ _ _)
    exact Keeps.refl _

theorem execRestart_keeps (h : Half) (u : Nat) (s : State) :
    OutKeeps s (execRestart h u s) := by
  unfold execRestart
  refine OutKeeps.next ?_
  refine Keeps.trans ?_ (wickRestart_keeps _ _ _)
  exact Keeps.refl _

theorem wickOff_keeps (h : Half) (u : Nat) (s : State) :
    Keeps s (wickOff h u s) := by
  unfold wickOff
  extract_lets +onlyGivenNames x1 x2 x3 x4
  clear_value x1
  clear_value x2
  clear_value x3
  have h5 : Keeps s x4 := by
    unfold x4
    refine Keeps.trans ?_ (State.put_keeps _ _ _ _)
    exact Keeps.refl _
  clear_value x4
  refine Keeps.ite ?_ ?_
  · refine Keeps.trans ?_ (State.wickAbort_keeps _ _ _ _)
    refine Keeps.trans ?_ (State.flag_keeps _ _ _)
    exact h5
  · exact h5

theorem execWickOff_keeps (h : Half) (u : Nat) (s : State) :
    OutKeeps s (execWickOff h u s) := by
  unfold execWickOff
  refine OutKeeps.next ?_
  refine Keeps.trans ?_ (wickOff_keeps _ _ _)
  exact Keeps.refl _

theorem State.patchWrite_keeps (s : State) (ai : Nat) (bs : List Byte) :
    Keeps s (State.patchWrite s ai bs) := by
  unfold State.patchWrite
  extract_lets +onlyGivenNames x1 x2 x3 x4
  clear_value x1
  have h5 : Keeps s x2 := by
    unfold x2
    refine Keeps.foldl ?_ ?_
    · exact Keeps.refl _
    · intro a6 b7
      refine Keeps.trans ?_ (State.setWord_keeps _ _ _)
      exact Keeps.refl _
  clear_value x2
  have h8 : Keeps s x3 := by
    unfold x3
    refine Keeps.foldl ?_ ?_
    · exact h5
    · intro a9 b10
      extract_lets +onlyGivenNames x11 x12
      clear_value x11
      clear_value x12
      refine Keeps.trans ?_ (State.put_keeps _ _ _ _)
      refine Keeps.trans ?_ (State.put_keeps _ _ _ _)
      refine Keeps.trans ?_ (State.put_keeps _ _ _ _)
      exact Keeps.refl _
  clear_value x3
  have h13 : Keeps s x4 := by
    unfold x4
    refine Keeps.trans ?_ (State.flag_keeps _ _ _)
    refine Keeps.trans ?_ (State.put_keeps _ _ _ _)
    exact h8
  clear_value x4
  extract_lets +onlyGivenNames x14
  clear_value x14
  refine Keeps.trans ?_ (State.setWick_keeps _ _ _)
  exact h13

theorem State.patchSettle_keeps (s : State) :
    Keeps s (State.patchSettle s) := by
  unfold State.patchSettle
  split
  · rename_i y1 y2 y3 y4 y5 y6
    refine Keeps.ite ?_ ?_
    · refine Keeps.trans ?_ (State.mbAnswer_keeps _ _ _ _)
      refine Keeps.trans ?_ (State.intakeClose_keeps _)
      exact Keeps.refl _
    · exact Keeps.refl _
  · rename_i y7 y8 y9
    exact Keeps.refl _

theorem patchApply_keeps (h : Half) (u : Nat) (s : State) :
    Keeps s (patchApply h u s) := by
  unfold patchApply
  extract_lets +onlyGivenNames x1
  clear_value x1
  split
  · rename_i y2 y3
    exact Keeps.refl _
  · rename_i y4 y5 y6
    refine Keeps.ite ?_ ?_
    · exact Keeps.refl _
    · refine Keeps.ite ?_ ?_
      · extract_lets +onlyGivenNames x7
        clear_value x7
        refine Keeps.trans ?_ (State.setWick_keeps _ _ _)
        exact Keeps.refl _
      · refine Keeps.ite ?_ ?_
        · exact Keeps.refl _
        · refine Keeps.ite ?_ ?_
          · extract_lets +onlyGivenNames x8
            clear_value x8
            refine Keeps.trans ?_ (State.setWick_keeps _ _ _)
            exact Keeps.refl _
          · refine Keeps.trans ?_ (State.patchSettle_keeps _)
            refine Keeps.trans ?_ (State.patchWrite_keeps _ _ _)
            exact Keeps.refl _

theorem execPatchApply_keeps (h : Half) (u : Nat) (s : State) :
    OutKeeps s (execPatchApply h u s) := by
  unfold execPatchApply
  refine OutKeeps.next ?_
  refine Keeps.trans ?_ (patchApply_keeps _ _ _)
  exact Keeps.refl _

theorem patchRewrite_keeps (h : Half) (u : Nat) (s : State) :
    Keeps s (patchRewrite h u s) := by
  unfold patchRewrite
  extract_lets +onlyGivenNames x1
  clear_value x1
  split
  · rename_i y2 y3
    exact Keeps.refl _
  · rename_i y4 y5 y6
    refine Keeps.ite ?_ ?_
    · refine Keeps.trans ?_ (State.patchSettle_keeps _)
      refine Keeps.trans ?_ (State.patchWrite_keeps _ _ _)
      exact Keeps.refl _
    · exact Keeps.refl _

theorem execPatchRewrite_keeps (h : Half) (u : Nat) (s : State) :
    OutKeeps s (execPatchRewrite h u s) := by
  unfold execPatchRewrite
  refine OutKeeps.next ?_
  refine Keeps.trans ?_ (patchRewrite_keeps _ _ _)
  exact Keeps.refl _

theorem State.wickPost_keeps (s : State) (ai : Nat) (code : Nat) :
    Keeps s (State.wickPost s ai code) := by
  unfold State.wickPost
  extract_lets +onlyGivenNames x1
  clear_value x1
  split
  · rename_i y2 y3
    refine Keeps.trans ?_ (State.idleVector_keeps _ _)
    exact Keeps.refl _
  · rename_i y4 y5 y6
    extract_lets +onlyGivenNames x7 x8
    clear_value x7
    have h9 : Keeps s x8 := by
      unfold x8
      refine Keeps.trans ?_ (State.count_keeps _ _ _ _ _ _)
      exact Keeps.refl _
    clear_value x8
    refine Keeps.trans ?_ (State.fmtPosted_keeps _ _ _ _)
    refine Keeps.trans ?_ (State.paKick_keeps _ _)
    refine Keeps.trans ?_ (State.wickIdle_keeps _ _)
    exact h9

theorem State.microExec_keeps (s : State) (ai : Nat) (word : Nat) (m : Micro) (at_ : Place) :
    Keeps s (State.microExec s ai word m at_) := by
  unfold State.microExec
  extract_lets +onlyGivenNames x1 x2 x3 x4
  clear_value x1
  clear_value x2
  have h5 : ∀ v6, Keeps v6 (x3 v6) := by
    intro v6
    unfold x3
    refine Keeps.trans ?_ (State.wordEnd_keeps _ _ _ _ _ _)
    exact Keeps.refl _
  clear_value x3
  split
  · rename_i y7
    refine Keeps.trans ?_ (h5 _)
    exact Keeps.refl _
  · rename_i y8 y9
    refine Keeps.trans ?_ (State.wordEnd_keeps _ _ _ _ _ _)
    exact Keeps.refl _
  · rename_i y10 y11
    refine Keeps.ite ?_ ?_
    · refine Keeps.trans ?_ (State.wickFault_keeps _ _ _ _ _)
      exact Keeps.refl _
    · refine Keeps.trans ?_ (State.wordEnd_keeps _ _ _ _ _ _)
      refine Keeps.trans ?_ (State.putWick_keeps _ _ _)
      exact Keeps.refl _
  · rename_i y12
    split
    · rename_i y13 y14
      refine Keeps.trans ?_ (State.wickFault_keeps _ _ _ _ _)
      exact Keeps.refl _
    · rename_i y15 y16 y17 y18
      refine Keeps.trans ?_ (State.wordEnd_keeps _ _ _ _ _ _)
      refine Keeps.trans ?_ (State.putWick_keeps _ _ _)
      exact Keeps.refl _
  · rename_i y19 y20 y21
    extract_lets +onlyGivenNames x22
    clear_value x22
    refine Keeps.trans ?_ (State.wordEnd_keeps _ _ _ _ _ _)
    refine Keeps.trans ?_ (State.putWick_keeps _ _ _)
    exact Keeps.refl _
  · rename_i y23 y24 y25
    unfold x4
    refine Keeps.trans ?_ (h5 _)
    refine Keeps.trans ?_ (State.putWick_keeps _ _ _)
    exact Keeps.refl _
  · rename_i y26 y27 y28
    unfold x4
    refine Keeps.trans ?_ (h5 _)
    refine Keeps.trans ?_ (State.putWick_keeps _ _ _)
    exact Keeps.refl _
  · rename_i y29 y30 y31 y32
    unfold x4
    refine Keeps.trans ?_ (h5 _)
    refine Keeps.trans ?_ (State.putWick_keeps _ _ _)
    exact Keeps.refl _
  · rename_i y33 y34 y35
    split
    · rename_i y36 y37 y38
      unfold x4
      refine Keeps.trans ?_ (h5 _)
      refine Keeps.trans ?_ (State.putWick_keeps _ _ _)
      exact Keeps.refl _
    · rename_i y39 y40
      refine Keeps.trans ?_ (h5 _)
      exact Keeps.refl _
  · rename_i y41 y42
    refine Keeps.trans ?_ (h5 _)
    refine Keeps.trans ?_ (State.microLoc_keeps _ _ _)
    exact Keeps.refl _
  · rename_i y43 y44
    refine Keeps.trans ?_ (State.wordStall_keeps _ _ _ _)
    exact Keeps.refl _
  · rename_i y45 y46 y47
    extract_lets +onlyGivenNames x48
    clear_value x48
    refine Keeps.ite ?_ ?_
    · refine Keeps.trans ?_ (h5 _)
      exact Keeps.refl _
    · refine Keeps.trans ?_ (State.wordStall_keeps _ _ _ _)
      exact Keeps.refl _
  · rename_i y49 y50 y51 y52 y53
    extract_lets +onlyGivenNames x54
    clear_value x54
    refine Keeps.ite ?_ ?_
    · refine Keeps.trans ?_ (State.wordStall_keeps _ _ _ _)
      exact Keeps.refl _
    · refine Keeps.trans ?_ (h5 _)
      refine Keeps.trans ?_ (State.schedule_keeps _ _ _ _)
      exact Keeps.refl _
  · rename_i y55 y56 y57 y58
    extract_lets +onlyGivenNames x59
    clear_value x59
    refine Keeps.ite ?_ ?_
    · refine Keeps.trans ?_ (State.wordStall_keeps _ _ _ _)
      exact Keeps.refl _
    · refine Keeps.trans ?_ (h5 _)
      refine Keeps.trans ?_ (State.announce_keeps _ _ _ _)
      exact Keeps.refl _
  · rename_i y60
    extract_lets +onlyGivenNames x61
    have h62 : Keeps s x61 := by
      unfold x61
      refine Keeps.trans ?_ (State.settleWrites_keeps _ _ _)
      exact Keeps.refl _
    clear_value x61
    refine Keeps.ite ?_ ?_
    · refine Keeps.trans ?_ (h5 _)
      refine Keeps.trans ?_ (State.setErs_keeps _ _)
      exact h62
    · refine Keeps.trans ?_ (State.wordStall_keeps _ _ _ _)
      exact h62
  · rename_i y63 y64
    extract_lets +onlyGivenNames x65 x66
    clear_value x65
    have h67 : Keeps s x66 := by
      unfold x66
      refine Keeps.trans ?_ (State.askRecovery_keeps _ _ _)
      exact Keeps.refl _
    clear_value x66
    refine Keeps.ite ?_ ?_
    · refine Keeps.trans ?_ (State.wordStall_keeps _ _ _ _)
      exact h67
    · refine Keeps.trans ?_ (State.wordEnd_keeps _ _ _ _ _ _)
      refine Keeps.trans ?_ (State.setErs_keeps _ _)
      exact h67
  · rename_i y68 y69
    refine Keeps.trans ?_ (State.wordStall_keeps _ _ _ _)
    refine Keeps.trans ?_ (State.wickFrame_keeps _ _ _)
    exact Keeps.refl _
  · rename_i y70 y71 y72 y73
    extract_lets +onlyGivenNames x74
    clear_value x74
    refine Keeps.trans ?_ (State.wordStall_keeps _ _ _ _)
    refine Keeps.trans ?_ (State.wickFrame_keeps _ _ _)
    exact Keeps.refl _
  · rename_i y75 y76 y77
    extract_lets +onlyGivenNames x78
    clear_value x78
    refine Keeps.trans ?_ (State.wordStall_keeps _ _ _ _)
    refine Keeps.trans ?_ (State.servoSeek_keeps _ _ _ _)
    refine Keeps.trans ?_ (State.setWick_keeps _ _ _)
    exact Keeps.refl _
  · rename_i y79 y80
    refine Keeps.trans ?_ (State.wordStall_keeps _ _ _ _)
    exact Keeps.refl _
  · rename_i y81 y82
    extract_lets +onlyGivenNames x83
    have h84 : Keeps s x83 := by
      unfold x83
      refine Keeps.trans ?_ (State.settleWrites_keeps _ _ _)
      exact Keeps.refl _
    clear_value x83
    refine Keeps.ite ?_ ?_
    · refine Keeps.trans ?_ (State.wickPost_keeps _ _ _)
      refine Keeps.trans ?_ (State.wickTrace_keeps _ _ _ _ _ _ _)
      exact h84
    · refine Keeps.trans ?_ (State.wordStall_keeps _ _ _ _)
      exact h84
  · rename_i y85 y86
    refine Keeps.trans ?_ (h5 _)
    refine Keeps.trans ?_ (Keeps.upd (s := s) rfl rfl rfl rfl)
    exact Keeps.refl _
  · rename_i y87 y88 y89
    refine Keeps.trans ?_ (State.wickFault_keeps _ _ _ _ _)
    exact Keeps.refl _
  · rename_i y90
    refine Keeps.trans ?_ (State.wickFault_keeps _ _ _ _ _)
    exact Keeps.refl _

theorem State.microRow_keeps (s : State) (ai : Nat) (cond : Nat) (m : Micro) (at_ : Place) :
    Keeps s (State.microRow s ai cond m at_) := by
  unfold State.microRow
  extract_lets +onlyGivenNames x1
  clear_value x1
  refine Keeps.ite ?_ ?_
  · exact Keeps.refl _
  · split
    · rename_i y2 y3
      exact Keeps.refl _
    · rename_i y4 y5 y6
      extract_lets +onlyGivenNames x7
      have h8 : Keeps s x7 := by
        unfold x7
        refine Keeps.trans ?_ (State.atPlace_keeps _ _ _)
        exact Keeps.refl _
      clear_value x7
      split
      · rename_i y9 y10
        refine Keeps.trans ?_ (State.wcondIssue_keeps _ _ _ _ _)
        exact h8
      · rename_i y11 y12
        refine Keeps.ite ?_ ?_
        · refine Keeps.trans ?_ (State.microExec_keeps _ _ _ _ _)
          exact h8
        · refine Keeps.trans ?_ (State.wordEnd_keeps _ _ _ _ _ _)
          exact h8

theorem State.microHere_keeps (s : State) (h : Half) (u : Nat) (cond : Nat) (m : Micro) :
    Keeps s (State.microHere s h u cond m) := by
  unfold State.microHere
  refine Keeps.trans ?_ (State.microRow_keeps _ _ _ _ _)
  exact Keeps.refl _

theorem execNop_keeps (h : Half) (u : Nat) (cond : Nat) (s : State) :
    OutKeeps s (execNop h u cond s) := by
  unfold execNop
  refine OutKeeps.next ?_
  refine Keeps.trans ?_ (State.microHere_keeps _ _ _ _ _)
  exact Keeps.refl _

theorem execJmp_keeps (h : Half) (u : Nat) (cond : Nat) (target : Nat) (s : State) :
    OutKeeps s (execJmp h u cond target s) := by
  unfold execJmp
  refine OutKeeps.next ?_
  refine Keeps.trans ?_ (State.microHere_keeps _ _ _ _ _)
  exact Keeps.refl _

theorem execCall_keeps (h : Half) (u : Nat) (cond : Nat) (target : Nat) (s : State) :
    OutKeeps s (execCall h u cond target s) := by
  unfold execCall
  refine OutKeeps.next ?_
  refine Keeps.trans ?_ (State.microHere_keeps _ _ _ _ _)
  exact Keeps.refl _

theorem execRet_keeps (h : Half) (u : Nat) (cond : Nat) (s : State) :
    OutKeeps s (execRet h u cond s) := by
  unfold execRet
  refine OutKeeps.next ?_
  refine Keeps.trans ?_ (State.microHere_keeps _ _ _ _ _)
  exact Keeps.refl _

theorem execLoop_keeps (h : Half) (u : Nat) (cond : Nat) (xd : Nat) (target : Nat) (s : State) :
    OutKeeps s (execLoop h u cond xd target s) := by
  unfold execLoop
  refine OutKeeps.next ?_
  refine Keeps.trans ?_ (State.microHere_keeps _ _ _ _ _)
  exact Keeps.refl _

theorem execLdi_keeps (h : Half) (u : Nat) (cond : Nat) (xd : Nat) (imm : Nat) (s : State) :
    OutKeeps s (execLdi h u cond xd imm s) := by
  unfold execLdi
  refine OutKeeps.next ?_
  refine Keeps.trans ?_ (State.microHere_keeps _ _ _ _ _)
  exact Keeps.refl _

theorem execAddi_keeps (h : Half) (u : Nat) (cond : Nat) (xd : Nat) (imm : Nat) (s : State) :
    OutKeeps s (execAddi h u cond xd imm s) := by
  unfold execAddi
  refine OutKeeps.next ?_
  refine Keeps.trans ?_ (State.microHere_keeps _ _ _ _ _)
  exact Keeps.refl _

theorem execAlu_keeps (h : Half) (u : Nat) (cond : Nat) (xd : Nat) (xs : Nat) (fn : Nat) (s : State) :
    OutKeeps s (execAlu h u cond xd xs fn s) := by
  unfold execAlu
  refine OutKeeps.next ?_
  refine Keeps.trans ?_ (State.microHere_keeps _ _ _ _ _)
  exact Keeps.refl _

theorem execLdop_keeps (h : Half) (u : Nat) (cond : Nat) (xd : Nat) (fld : Nat) (s : State) :
    OutKeeps s (execLdop h u cond xd fld s) := by
  unfold execLdop
  refine OutKeeps.next ?_
  refine Keeps.trans ?_ (State.microHere_keeps _ _ _ _ _)
  exact Keeps.refl _

theorem execLoc_keeps (h : Half) (u : Nat) (cond : Nat) (xs : Nat) (s : State) :
    OutKeeps s (execLoc h u cond xs s) := by
  unfold execLoc
  refine OutKeeps.next ?_
  refine Keeps.trans ?_ (State.microHere_keeps _ _ _ _ _)
  exact Keeps.refl _

theorem execWwed_keeps (h : Half) (u : Nat) (cond : Nat) (xs : Nat) (s : State) :
    OutKeeps s (execWwed h u cond xs s) := by
  unfold execWwed
  refine OutKeeps.next ?_
  refine Keeps.trans ?_ (State.microHere_keeps _ _ _ _ _)
  exact Keeps.refl _

theorem execWsym_keeps (h : Half) (u : Nat) (cond : Nat) (base : Bool) (pos : Nat) (at_ : Place) (s : State) :
    OutKeeps s (execWsym h u cond base pos at_ s) := by
  unfold execWsym
  refine OutKeeps.next ?_
  refine Keeps.trans ?_ (State.microRow_keeps _ _ _ _ _)
  exact Keeps.refl _

theorem execEdge_keeps (h : Half) (u : Nat) (cond : Nat) (base : Bool) (wg : Bool) (rg : Nat) (pos : Nat)
    (at_ : Place) (s : State) :
    OutKeeps s (execEdge h u cond base wg rg pos at_ s) := by
  unfold execEdge
  refine OutKeeps.next ?_
  refine Keeps.trans ?_ (State.microRow_keeps _ _ _ _ _)
  exact Keeps.refl _

theorem execSect_keeps (h : Half) (u : Nat) (cond : Nat) (last : Bool) (write : Bool) (xs : Nat) (at_ : Place)
    (s : State) :
    OutKeeps s (execSect h u cond last write xs at_ s) := by
  unfold execSect
  refine OutKeeps.next ?_
  refine Keeps.trans ?_ (State.microRow_keeps _ _ _ _ _)
  exact Keeps.refl _

theorem execWch_keeps (h : Half) (u : Nat) (cond : Nat) (s : State) :
    OutKeeps s (execWch h u cond s) := by
  unfold execWch
  refine OutKeeps.next ?_
  refine Keeps.trans ?_ (State.microHere_keeps _ _ _ _ _)
  exact Keeps.refl _

theorem execRecov_keeps (h : Half) (u : Nat) (cond : Nat) (xs : Nat) (s : State) :
    OutKeeps s (execRecov h u cond xs s) := by
  unfold execRecov
  refine OutKeeps.next ?_
  refine Keeps.trans ?_ (State.microHere_keeps _ _ _ _ _)
  exact Keeps.refl _

theorem execFrm_keeps (h : Half) (u : Nat) (cond : Nat) (frame : Nat) (s : State) :
    OutKeeps s (execFrm h u cond frame s) := by
  unfold execFrm
  refine OutKeeps.next ?_
  refine Keeps.trans ?_ (State.microHere_keeps _ _ _ _ _)
  exact Keeps.refl _

theorem execFrmx_keeps (h : Half) (u : Nat) (cond : Nat) (rw : Bool) (addr : Nat) (xs : Nat) (s : State) :
    OutKeeps s (execFrmx h u cond rw addr xs s) := by
  unfold execFrmx
  refine OutKeeps.next ?_
  refine Keeps.trans ?_ (State.microHere_keeps _ _ _ _ _)
  exact Keeps.refl _

theorem execSeek_keeps (h : Half) (u : Nat) (cond : Nat) (xs : Nat) (kind : Nat) (s : State) :
    OutKeeps s (execSeek h u cond xs kind s) := by
  unfold execSeek
  refine OutKeeps.next ?_
  refine Keeps.trans ?_ (State.microHere_keeps _ _ _ _ _)
  exact Keeps.refl _

theorem execWcond_keeps (h : Half) (u : Nat) (cond : Nat) (timeout : Nat) (s : State) :
    OutKeeps s (execWcond h u cond timeout s) := by
  unfold execWcond
  refine OutKeeps.next ?_
  refine Keeps.trans ?_ (State.microHere_keeps _ _ _ _ _)
  exact Keeps.refl _

theorem execPost_keeps (h : Half) (u : Nat) (cond : Nat) (status : Nat) (s : State) :
    OutKeeps s (execPost h u cond status s) := by
  unfold execPost
  refine OutKeeps.next ?_
  refine Keeps.trans ?_ (State.microHere_keeps _ _ _ _ _)
  exact Keeps.refl _

theorem execEvt_keeps (h : Half) (u : Nat) (cond : Nat) (code : Nat) (s : State) :
    OutKeeps s (execEvt h u cond code s) := by
  unfold execEvt
  refine OutKeeps.next ?_
  refine Keeps.trans ?_ (State.microHere_keeps _ _ _ _ _)
  exact Keeps.refl _

theorem execHalt_keeps (h : Half) (u : Nat) (cond : Nat) (s : State) :
    OutKeeps s (execHalt h u cond s) := by
  unfold execHalt
  refine OutKeeps.next ?_
  refine Keeps.trans ?_ (State.microHere_keeps _ _ _ _ _)
  exact Keeps.refl _

theorem execIllegal_keeps (h : Half) (u : Nat) (cond : Nat) (op : Nat) (operand : Nat) (s : State) :
    OutKeeps s (execIllegal h u cond op operand s) := by
  unfold execIllegal
  refine OutKeeps.next ?_
  refine Keeps.ite ?_ ?_
  · refine Keeps.trans ?_ (State.microHere_keeps _ _ _ _ _)
    exact Keeps.refl _
  · exact Keeps.refl _

theorem stallRelease_keeps (h : Half) (u : Nat) (cycles : Nat) (at_ : Place) (s : State) :
    Keeps s (stallRelease h u cycles at_ s) := by
  unfold stallRelease
  extract_lets +onlyGivenNames x1
  clear_value x1
  refine Keeps.ite ?_ ?_
  · exact Keeps.refl _
  · extract_lets +onlyGivenNames x2
    have h3 : Keeps s x2 := by
      unfold x2
      refine Keeps.trans ?_ (State.atPlace_keeps _ _ _)
      exact Keeps.refl _
    clear_value x2
    split
    · rename_i y4 y5
      exact h3
    · rename_i y6 y7 y8
      have h9 : Keeps s y7 := by
        refine KeepsO.use ?_ y8
        refine KeepsO.trans ?_ (State.stallOver_keeps _ _ _)
        exact h3
      split
      · rename_i y10 y11 y12
        extract_lets +onlyGivenNames x13 x14
        clear_value x13
        clear_value x14
        refine Keeps.trans ?_ (State.wickPost_keeps _ _ _)
        refine Keeps.trans ?_ (State.wickTrace_keeps _ _ _ _ _ _ _)
        exact h9
      · rename_i y15 y16
        refine Keeps.trans ?_ (State.unstall_keeps _ _ _)
        exact h9

theorem execStallRelease_keeps (h : Half) (u : Nat) (cycles : Nat) (at_ : Place) (s : State) :
    OutKeeps s (execStallRelease h u cycles at_ s) := by
  unfold execStallRelease
  refine OutKeeps.next ?_
  refine Keeps.trans ?_ (stallRelease_keeps _ _ _ _ _)
  exact Keeps.refl _

end Sys2Proof.Machine
end

