-- ==== Sys2Proof/Laws/KeepsChannel.lean ====
section
/-! SUPPORT. What `Keeps` says of every operation of Machine/Channel.lean. -/

namespace Sys2Proof.Machine

theorem State.chCount_keeps (s : State) (ci : Nat) (i : Nat) (n : Nat) :
    Keeps s (State.chCount s ci i n) := by
  unfold State.chCount
  refine Keeps.trans ?_ (State.count_keeps _ _ _ _ _ _)
  exact Keeps.refl _

theorem State.chMsg_keeps (s : State) (ci : Nat) (kind : Nat) (hint : Nat) :
    Keeps s (State.chMsg s ci kind hint) := by
  unfold State.chMsg
  refine Keeps.trans ?_ (State.chimney_keeps _ _ _ _ _ _)
  exact Keeps.refl _

theorem State.frameNo_keeps (s : State) (x : ChSector) :
    Keeps2 s (State.frameNo s x) := by
  unfold State.frameNo
  split
  · rename_i y1 y2 y3
    refine Keeps2.mk ?_
    exact Keeps.refl _
  · rename_i y4 y5
    split
    · rename_i y6 y7 y8 y9
      have h10 : Keeps s y8 := by
        refine Keeps2.use ?_ y9
        refine Keeps2.trans ?_ (State.takeFree_keeps _)
        exact Keeps.refl _
      refine Keeps2.mk ?_
      exact h10

theorem State.chLog_keeps (s : State) (ci : Nat) (x : ChSector) (e : SecEnd) :
    Keeps s (State.chLog s ci x e) := by
  unfold State.chLog
  split
  · rename_i y1 y2 y3 y4
    have h5 : Keeps s y3 := by
      refine Keeps2.use ?_ y4
      refine Keeps2.trans ?_ (State.frameNo_keeps _ _)
      exact Keeps.refl _
    extract_lets +onlyGivenNames x6
    clear_value x6
    split
    · rename_i y7 y8 y9 y10
      have h11 : Keeps s y9 := by
        refine Keeps2.use ?_ y10
        split
        · rename_i y12 y13 y14
          refine Keeps2.mk ?_
          exact h5
        · rename_i y15 y16
          refine Keeps2.mk ?_
          refine Keeps.trans ?_ (Keeps.updFree (s := y3) rfl rfl rfl (Nat.le_add_right _ _))
          exact h5
      extract_lets +onlyGivenNames x17 x18 x19 x20 x21
      clear_value x17
      clear_value x18
      clear_value x19
      have h22 : Keeps s x20 := by
        unfold x20
        refine Keeps.trans ?_ (State.setWord_keeps _ _ _)
        refine Keeps.trans ?_ (State.setWord_keeps _ _ _)
        exact h11
      clear_value x20
      have h23 : Keeps s x21 := by
        unfold x21
        refine Keeps.trans ?_ (State.setWord_keeps _ _ _)
        refine Keeps.trans ?_ (State.setWord_keeps _ _ _)
        exact h22
      clear_value x21
      refine Keeps.trans ?_ (State.setRch_keeps _ _ _)
      exact h23

theorem State.setSec_keeps (s : State) (ci : Nat) (j : Nat) (x : ChSector) :
    Keeps s (State.setSec s ci j x) := by
  unfold State.setSec
  extract_lets +onlyGivenNames x1
  clear_value x1
  refine Keeps.trans ?_ (State.setRch_keeps _ _ _)
  exact Keeps.refl _

theorem State.chTally_keeps (s : State) (ci : Nat) (x : ChSector) (e : SecEnd) (early : Bool) :
    Keeps s (State.chTally s ci x e early) := by
  unfold State.chTally
  extract_lets +onlyGivenNames x1 x2 x3 x4 x5 x6 x7 x8
  clear_value x1
  clear_value x2
  clear_value x3
  have h9 : Keeps s x4 := by
    unfold x4
    refine Keeps.trans ?_ (State.chCount_keeps _ _ _ _)
    exact Keeps.refl _
  clear_value x4
  have h10 : Keeps s x5 := by
    unfold x5
    refine Keeps.ite ?_ ?_
    · refine Keeps.trans ?_ (State.chCount_keeps _ _ _ _)
      refine Keeps.trans ?_ (State.flag_keeps _ _ _)
      exact h9
    · exact h9
  clear_value x5
  have h11 : Keeps s x6 := by
    unfold x6
    refine Keeps.ite ?_ ?_
    · refine Keeps.trans ?_ (State.chCount_keeps _ _ _ _)
      refine Keeps.trans ?_ (State.flag_keeps _ _ _)
      exact h10
    · exact h10
  clear_value x6
  have h12 : Keeps s x7 := by
    unfold x7
    refine Keeps.ite ?_ ?_
    · refine Keeps.trans ?_ (State.flag_keeps _ _ _)
      exact h11
    · refine Keeps.trans ?_ (State.headCount_keeps _ _ _ _ _)
      exact h11
  clear_value x7
  have h13 : Keeps s x8 := by
    unfold x8
    refine Keeps.ite ?_ ?_
    · refine Keeps.trans ?_ (State.chMsg_keeps _ _ _ _)
      refine Keeps.trans ?_ (State.chCount_keeps _ _ _ _)
      refine Keeps.trans ?_ (State.flag_keeps _ _ _)
      exact h12
    · exact h12
  clear_value x8
  refine Keeps.ite ?_ ?_
  · extract_lets +onlyGivenNames x14
    have h15 : Keeps s x14 := by
      unfold x14
      refine Keeps.trans ?_ (State.flag_keeps _ _ _)
      exact h13
    clear_value x14
    refine Keeps.ite ?_ ?_
    · exact h15
    · refine Keeps.trans ?_ (State.chMsg_keeps _ _ _ _)
      extract_lets +onlyGivenNames x16
      clear_value x16
      refine Keeps.trans ?_ (State.setRch_keeps _ _ _)
      exact h15
  · exact h13

theorem State.chReport_keeps (s : State) (ci : Nat) (j : Nat) (x : ChSector) (e : SecEnd) (late : Bool) :
    Keeps s (State.chReport s ci j x e late) := by
  unfold State.chReport
  extract_lets +onlyGivenNames x1 x2
  have h3 : Keeps s x1 := by
    unfold x1
    refine Keeps.trans ?_ (State.setSec_keeps _ _ _ _)
    exact Keeps.refl _
  clear_value x1
  have h4 : Keeps s x2 := by
    unfold x2
    refine Keeps.trans ?_ (State.chTally_keeps _ _ _ _ _)
    refine Keeps.trans ?_ (State.chLog_keeps _ _ _ _)
    exact h3
  clear_value x2
  split
  · rename_i y5 y6
    exact h4
  · rename_i y7 y8 y9
    refine Keeps.ite ?_ ?_
    · refine Keeps.trans ?_ (State.slotReport_keeps _ _ _ _ _)
      exact h4
    · exact h4

theorem State.chConverged_keeps (s : State) (ci : Nat) (j : Nat) (x : ChSector) (status : Nat) (hyp : Nat)
    (iter : Nat) (pos : Nat) (cw : BitVec 39936) :
    Keeps s (State.chConverged s ci j x status hyp iter pos cw) := by
  unfold State.chConverged
  split
  · rename_i y1 y2 y3 y4 y5
    refine Keeps.trans ?_ (State.chReport_keeps _ _ _ _ _ _)
    exact Keeps.refl _

theorem State.chErased_keeps (s : State) (ci : Nat) (j : Nat) (x : ChSector) (status : Nat) (hyp : Nat)
    (iter : Nat) (pos : Nat) :
    Keeps s (State.chErased s ci j x status hyp iter pos) := by
  unfold State.chErased
  refine Keeps.trans ?_ (State.chReport_keeps _ _ _ _ _ _)
  exact Keeps.refl _

theorem State.chHypStart_keeps (s : State) (ci : Nat) (j : Nat) (x : ChSector) (p : Nat × Int) :
    Keeps s (State.chHypStart s ci j x p) := by
  unfold State.chHypStart
  extract_lets +onlyGivenNames x1
  clear_value x1
  refine Keeps.trans ?_ (State.setSec_keeps _ _ _ _)
  exact Keeps.refl _

theorem State.chFailed_keeps (s : State) (ci : Nat) (j : Nat) (x : ChSector) (hyp : Nat) (iter : Nat) (pos : Nat) :
    Keeps s (State.chFailed s ci j x hyp iter pos) := by
  unfold State.chFailed
  extract_lets +onlyGivenNames x1
  clear_value x1
  refine Keeps.ite ?_ ?_
  · refine Keeps.trans ?_ (State.chErased_keeps _ _ _ _ _ _ _ _)
    exact Keeps.refl _
  · split
    · rename_i y2 y3
      refine Keeps.trans ?_ (State.chErased_keeps _ _ _ _ _ _ _ _)
      exact Keeps.refl _
    · rename_i y4 y5 y6
      refine Keeps.ite ?_ ?_
      · refine Keeps.trans ?_ (State.chHypStart_keeps _ _ _ _ _)
        exact Keeps.refl _
      · refine Keeps.trans ?_ (State.setSec_keeps _ _ _ _)
        exact Keeps.refl _

theorem State.cutIters_keeps (s : State) (x : ChSector) :
    Keeps2 s (State.cutIters s x) := by
  unfold State.cutIters
  refine Keeps2.ite ?_ ?_
  · refine Keeps2.mk ?_
    exact Keeps.refl _
  · split
    · rename_i y1 y2 y3 y4
      have h5 : Keeps s y3 := by
        refine Keeps2.use ?_ y4
        refine Keeps2.trans ?_ (State.takeFree_keeps _)
        exact Keeps.refl _
      refine Keeps2.mk ?_
      exact h5

theorem State.chEvict_keeps (s : State) (ci : Nat) :
    Keeps s (State.chEvict s ci) := by
  unfold State.chEvict
  extract_lets +onlyGivenNames x1 x2
  clear_value x1
  clear_value x2
  split
  · rename_i y3 y4
    exact Keeps.refl _
  · rename_i y5 y6 y7
    extract_lets +onlyGivenNames x8
    have h9 : Keeps s x8 := by
      unfold x8
      refine Keeps.ite ?_ ?_
      · split
        · rename_i y10 y11 y12 y13
          have h14 : Keeps s y12 := by
            refine Keeps2.use ?_ y13
            refine Keeps2.trans ?_ (State.cutIters_keeps _ _)
            exact Keeps.refl _
          refine Keeps.trans ?_ (State.chErased_keeps _ _ _ _ _ _ _ _)
          exact h14
      · exact Keeps.refl _
    clear_value x8
    extract_lets +onlyGivenNames x15
    clear_value x15
    refine Keeps.trans ?_ (State.setRch_keeps _ _ _)
    exact h9

theorem State.chBegin_keeps (s : State) (ci : Nat) :
    Keeps s (State.chBegin s ci) := by
  unfold State.chBegin
  extract_lets +onlyGivenNames x1 x2 x3 x4
  clear_value x1
  clear_value x2
  clear_value x3
  have h5 : Keeps s x4 := by
    unfold x4
    refine Keeps.ite ?_ ?_
    · exact Keeps.refl _
    · refine Keeps.trans ?_ (State.chEvict_keeps _ _)
      exact Keeps.refl _
  clear_value x4
  split
  · rename_i y6 y7 y8 y9
    have h10 : Keeps s y8 := by
      refine Keeps2.use ?_ y9
      refine Keeps2.trans ?_ (State.takeFree_keeps _)
      exact h5
    extract_lets +onlyGivenNames x11 x12 x13 x14 x15 x16 x17
    clear_value x11
    clear_value x12
    clear_value x13
    clear_value x14
    clear_value x15
    have h18 : Keeps s x16 := by
      unfold x16
      refine Keeps.trans ?_ (State.setRch_keeps _ _ _)
      exact h10
    clear_value x16
    have h19 : Keeps s x17 := by
      unfold x17
      refine Keeps.ite ?_ ?_
      · refine Keeps.trans ?_ (State.put_keeps _ _ _ _)
        refine Keeps.trans ?_ (State.put_keeps _ _ _ _)
        exact h18
      · exact h18
    clear_value x17
    refine Keeps.trans ?_ (State.setChState_keeps _ _ _)
    refine Keeps.trans ?_ (State.put_keeps _ _ _ _)
    exact h19

theorem State.chStore_keeps (s : State) (ci : Nat) (x : ChSector) (n : Nat) :
    Keeps s (State.chStore s ci x n) := by
  unfold State.chStore
  refine Keeps.trans ?_ (State.setRch_keeps _ _ _)
  exact Keeps.refl _

theorem readGateRise_keeps (h : Half) (n : Nat) (s : State) :
    Keeps s (readGateRise h n s) := by
  unfold readGateRise
  extract_lets +onlyGivenNames x1 x2
  clear_value x1
  clear_value x2
  refine Keeps.ite ?_ ?_
  · exact Keeps.refl _
  · extract_lets +onlyGivenNames x3 x4
    clear_value x3
    clear_value x4
    refine Keeps.ite ?_ ?_
    · refine Keeps.trans ?_ (State.setChState_keeps _ _ _)
      exact Keeps.refl _
    · refine Keeps.ite ?_ ?_
      · refine Keeps.ite ?_ ?_
        · refine Keeps.trans ?_ (State.chBegin_keeps _ _)
          exact Keeps.refl _
        · refine Keeps.trans ?_ (State.wickAbort_keeps _ _ _ _)
          refine Keeps.trans ?_ (State.setChState_keeps _ _ _)
          exact Keeps.refl _
      · exact Keeps.refl _

theorem execReadGateRise_keeps (h : Half) (n : Nat) (s : State) :
    OutKeeps s (execReadGateRise h n s) := by
  unfold execReadGateRise
  refine OutKeeps.next ?_
  refine Keeps.trans ?_ (readGateRise_keeps _ _ _)
  exact Keeps.refl _

theorem lockCheck_keeps (h : Half) (n : Nat) (phase : Int) (errs : List Int) (s : State) :
    Keeps s (lockCheck h n phase errs s) := by
  unfold lockCheck
  extract_lets +onlyGivenNames x1
  clear_value x1
  split
  · rename_i y2 y3
    exact Keeps.refl _
  · rename_i y4 y5 y6 y7
    refine Keeps.ite ?_ ?_
    · exact Keeps.refl _
    · extract_lets +onlyGivenNames x8 x9 x10 x11 x12 x13
      clear_value x8
      clear_value x9
      clear_value x10
      have h14 : Keeps s x11 := by
        unfold x11
        refine Keeps.trans ?_ (State.chLoop_keeps _ _ _ _)
        refine Keeps.trans ?_ (State.chLoop_keeps _ _ _ _)
        refine Keeps.trans ?_ (State.chPhase_keeps _ _ _)
        exact Keeps.refl _
      clear_value x11
      clear_value x12
      have h15 : Keeps s x13 := by
        unfold x13
        refine Keeps.trans ?_ (State.showLock_keeps _ _)
        refine Keeps.trans ?_ (State.setRch_keeps _ _ _)
        exact h14
      clear_value x13
      extract_lets +onlyGivenNames x16
      have h17 : Keeps s x16 := by
        unfold x16
        refine Keeps.trans ?_ (State.chStore_keeps _ _ _ _)
        refine Keeps.trans ?_ (State.chAdapt_keeps _ _ _)
        exact h15
      clear_value x16
      refine Keeps.trans ?_ (State.setChState_keeps _ _ _)
      refine Keeps.trans ?_ (State.setSec_keeps _ _ _ _)
      exact h17

theorem execLockCheck_keeps (h : Half) (n : Nat) (phase : Int) (errs : List Int) (s : State) :
    OutKeeps s (execLockCheck h n phase errs s) := by
  unfold execLockCheck
  refine OutKeeps.next ?_
  refine Keeps.trans ?_ (lockCheck_keeps _ _ _ _ _)
  exact Keeps.refl _

theorem State.takeTag_keeps (s : State) (ai : Nat) (slot : Nat) :
    Keeps2 s (State.takeTag s ai slot) := by
  unfold State.takeTag
  extract_lets +onlyGivenNames x1
  clear_value x1
  split
  · rename_i y2 y3
    refine Keeps2.mk ?_
    exact Keeps.refl _
  · rename_i y4 y5 y6
    extract_lets +onlyGivenNames x7
    clear_value x7
    refine Keeps2.mk ?_
    refine Keeps.trans ?_ (State.setWick_keeps _ _ _)
    exact Keeps.refl _

theorem syncWindowClose_keeps (h : Half) (n : Nat) (rx : BitVec 160) (last : Nat) (errs : List Int) (s : State) :
    Keeps s (syncWindowClose h n rx last errs s) := by
  unfold syncWindowClose
  extract_lets +onlyGivenNames x1
  clear_value x1
  split
  · rename_i y2 y3
    exact Keeps.refl _
  · rename_i y4 y5 y6 y7
    refine Keeps.ite ?_ ?_
    · exact Keeps.refl _
    · extract_lets +onlyGivenNames x8
      clear_value x8
      split
      · rename_i y9 y10 y11 y12
        split
        · rename_i y13 y14 y15 y16
          have h17 : Keeps s y15 := by
            refine Keeps2.use ?_ y16
            refine Keeps2.trans ?_ (State.takeTag_keeps _ _ _)
            exact Keeps.refl _
          extract_lets +onlyGivenNames x18 x19 x20
          clear_value x18
          have h21 : Keeps s x19 := by
            unfold x19
            refine Keeps.trans ?_ (State.chStore_keeps _ _ _ _)
            refine Keeps.trans ?_ (State.chLoop_keeps _ _ _ _)
            exact h17
          clear_value x19
          have h22 : Keeps s x20 := by
            unfold x20
            refine Keeps.trans ?_ (State.setChState_keeps _ _ _)
            refine Keeps.trans ?_ (State.setSec_keeps _ _ _ _)
            exact h21
          clear_value x20
          refine Keeps.ite ?_ ?_
          · refine Keeps.trans ?_ (State.chErased_keeps _ _ _ _ _ _ _ _)
            exact h22
          · exact h22

theorem execSyncWindowClose_keeps (h : Half) (n : Nat) (rx : BitVec 160) (last : Nat) (errs : List Int) (s : State) :
    OutKeeps s (execSyncWindowClose h n rx last errs s) := by
  unfold execSyncWindowClose
  refine OutKeeps.next ?_
  refine Keeps.trans ?_ (syncWindowClose_keeps _ _ _ _ _ _)
  exact Keeps.refl _

theorem readGateFall_keeps (h : Half) (n : Nat) (errs : List Int) (s : State) :
    Keeps s (readGateFall h n errs s) := by
  unfold readGateFall
  extract_lets +onlyGivenNames x1
  clear_value x1
  split
  · rename_i y2 y3
    exact Keeps.refl _
  · rename_i y4 y5 y6 y7
    refine Keeps.ite ?_ ?_
    · exact Keeps.refl _
    · refine Keeps.trans ?_ (State.setChState_keeps _ _ _)
      refine Keeps.trans ?_ (State.setSec_keeps _ _ _ _)
      refine Keeps.trans ?_ (State.chAdapt_keeps _ _ _)
      refine Keeps.trans ?_ (State.chLoop_keeps _ _ _ _)
      exact Keeps.refl _

theorem execReadGateFall_keeps (h : Half) (n : Nat) (errs : List Int) (s : State) :
    OutKeeps s (execReadGateFall h n errs s) := by
  unfold execReadGateFall
  refine OutKeeps.next ?_
  refine Keeps.trans ?_ (readGateFall_keeps _ _ _ _)
  exact Keeps.refl _

theorem State.chServo_keeps (s : State) (ci : Nat) :
    Keeps s (State.chServo s ci) := by
  unfold State.chServo
  extract_lets +onlyGivenNames x1
  clear_value x1
  refine Keeps.ite ?_ ?_
  · exact Keeps.refl _
  · refine Keeps.ite ?_ ?_
    · split
      · rename_i y2 y3
        exact Keeps.refl _
      · rename_i y4 y5 y6 y7
        extract_lets +onlyGivenNames x8
        have h9 : Keeps s x8 := by
          unfold x8
          refine Keeps.trans ?_ (State.setSec_keeps _ _ _ _)
          exact Keeps.refl _
        clear_value x8
        refine Keeps.trans ?_ (State.setChState_keeps _ _ _)
        extract_lets +onlyGivenNames x10
        clear_value x10
        refine Keeps.trans ?_ (State.setRch_keeps _ _ _)
        exact h9
    · refine Keeps.ite ?_ ?_
      · refine Keeps.trans ?_ (State.setChState_keeps _ _ _)
        extract_lets +onlyGivenNames x11
        clear_value x11
        refine Keeps.trans ?_ (State.setRch_keeps _ _ _)
        exact Keeps.refl _
      · exact Keeps.refl _

theorem servoGateRise_keeps (h : Half) (u : Nat) (s : State) :
    Keeps s (servoGateRise h u s) := by
  unfold servoGateRise
  extract_lets +onlyGivenNames x1
  clear_value x1
  refine Keeps.ite ?_ ?_
  · exact Keeps.refl _
  · extract_lets +onlyGivenNames x2 x3
    clear_value x2
    have h4 : Keeps s x3 := by
      unfold x3
      refine Keeps.trans ?_ (State.setPa_keeps _ _ _)
      exact Keeps.refl _
    clear_value x3
    extract_lets +onlyGivenNames x5
    have h6 : Keeps s x5 := by
      unfold x5
      refine Keeps.trans ?_ (State.busYield_keeps _ _)
      refine Keeps.trans ?_ (State.keepOut_keeps _ _)
      exact h4
    clear_value x5
    refine Keeps.foldl ?_ ?_
    · exact h6
    · intro a7 b8
      refine Keeps.trans ?_ (State.chServo_keeps _ _)
      exact Keeps.refl _

theorem execServoGateRise_keeps (h : Half) (u : Nat) (s : State) :
    OutKeeps s (execServoGateRise h u s) := by
  unfold execServoGateRise
  refine OutKeeps.next ?_
  refine Keeps.trans ?_ (servoGateRise_keeps _ _ _)
  exact Keeps.refl _

theorem State.chRate_keeps (s : State) (ci : Nat) (before : List Nat) (after : List Nat) :
    Keeps s (State.chRate s ci before after) := by
  unfold State.chRate
  extract_lets +onlyGivenNames x1 x2 x3 x4 x5 x6 x7 x8 x9 x10 x11 x12
  clear_value x1
  clear_value x2
  clear_value x3
  clear_value x4
  have h13 : Keeps s x5 := by
    unfold x5
    refine Keeps.trans ?_ (State.put_keeps _ _ _ _)
    exact Keeps.refl _
  clear_value x5
  clear_value x6
  clear_value x7
  clear_value x8
  have h14 : Keeps s x9 := by
    unfold x9
    refine Keeps.trans ?_ (State.showLock_keeps _ _)
    refine Keeps.trans ?_ (State.setRch_keeps _ _ _)
    exact h13
  clear_value x9
  clear_value x10
  clear_value x11
  clear_value x12
  refine Keeps.ite ?_ ?_
  · exact h14
  · extract_lets +onlyGivenNames x15 x16
    clear_value x15
    have h17 : Keeps s x16 := by
      unfold x16
      refine Keeps.trans ?_ (State.chMsg_keeps _ _ _ _)
      refine Keeps.trans ?_ (State.chCount_keeps _ _ _ _)
      refine Keeps.trans ?_ (State.flag_keeps _ _ _)
      exact h14
    clear_value x16
    split
    · rename_i y18 y19 y20 y21
      refine Keeps.ite ?_ ?_
      · refine Keeps.trans ?_ (State.setSec_keeps _ _ _ _)
        exact h17
      · exact h17
    · rename_i y22 y23
      exact h17

theorem State.chServoEnd_keeps (s : State) (ci : Nat) (before : List Nat) (after : List Nat) :
    Keeps s (State.chServoEnd s ci before after) := by
  unfold State.chServoEnd
  refine Keeps.ite ?_ ?_
  · exact Keeps.refl _
  · extract_lets +onlyGivenNames x1
    have h2 : Keeps s x1 := by
      unfold x1
      refine Keeps.trans ?_ (State.chRate_keeps _ _ _ _)
      exact Keeps.refl _
    clear_value x1
    refine Keeps.ite ?_ ?_
    · refine Keeps.trans ?_ (State.setChState_keeps _ _ _)
      exact h2
    · exact h2

theorem servoGateFall_keeps (h : Half) (u : Nat) (s : State) :
    Keeps s (servoGateFall h u s) := by
  unfold servoGateFall
  extract_lets +onlyGivenNames x1
  clear_value x1
  refine Keeps.ite ?_ ?_
  · exact Keeps.refl _
  · extract_lets +onlyGivenNames x2 x3 x4 x5 x6
    clear_value x2
    have h7 : Keeps s x3 := by
      unfold x3
      refine Keeps.trans ?_ (State.setPa_keeps _ _ _)
      exact Keeps.refl _
    clear_value x3
    clear_value x4
    clear_value x5
    clear_value x6
    extract_lets +onlyGivenNames x8 x9
    have h10 : Keeps s x8 := by
      unfold x8
      refine Keeps.trans ?_ (State.setSrv_keeps _ _ _)
      exact h7
    clear_value x8
    have h11 : Keeps s x9 := by
      unfold x9
      refine Keeps.foldl ?_ ?_
      · exact h10
      · intro a12 b13
        refine Keeps.trans ?_ (State.chServoEnd_keeps _ _ _ _)
        exact Keeps.refl _
    clear_value x9
    refine Keeps.trans ?_ (State.paKick_keeps _ _)
    refine Keeps.trans ?_ (State.busYield_keeps _ _)
    exact h11

theorem execServoGateFall_keeps (h : Half) (u : Nat) (s : State) :
    OutKeeps s (execServoGateFall h u s) := by
  unfold execServoGateFall
  refine OutKeeps.next ?_
  refine Keeps.trans ?_ (servoGateFall_keeps _ _ _)
  exact Keeps.refl _

theorem resyncWindowClose_keeps (h : Half) (n : Nat) (phase : Int) (rx : BitVec 94) (errs : List Int) (s : State) :
    Keeps s (resyncWindowClose h n phase rx errs s) := by
  unfold resyncWindowClose
  extract_lets +onlyGivenNames x1
  clear_value x1
  split
  · rename_i y2 y3
    exact Keeps.refl _
  · rename_i y4 y5 y6 y7
    refine Keeps.ite ?_ ?_
    · exact Keeps.refl _
    · extract_lets +onlyGivenNames x8
      clear_value x8
      split
      · rename_i y9 y10 y11 y12
        extract_lets +onlyGivenNames x13 x14 x15
        clear_value x13
        clear_value x14
        have h16 : Keeps s x15 := by
          unfold x15
          refine Keeps.trans ?_ (State.chAdapt_keeps _ _ _)
          refine Keeps.trans ?_ (State.chLoop_keeps _ _ _ _)
          refine Keeps.trans ?_ (State.chPhase_keeps _ _ _)
          exact Keeps.refl _
        clear_value x15
        refine Keeps.trans ?_ (State.setChState_keeps _ _ _)
        refine Keeps.trans ?_ (State.setSec_keeps _ _ _ _)
        exact h16

theorem execResyncWindowClose_keeps (h : Half) (n : Nat) (phase : Int) (rx : BitVec 94) (errs : List Int)
    (s : State) :
    OutKeeps s (execResyncWindowClose h n phase rx errs s) := by
  unfold execResyncWindowClose
  refine OutKeeps.next ?_
  refine Keeps.trans ?_ (resyncWindowClose_keeps _ _ _ _ _ _)
  exact Keeps.refl _

theorem State.dropReader_keeps (s : State) (ci : Nat) (reader : Nat) (frame : Nat) :
    Keeps s (State.dropReader s ci reader frame) := by
  unfold State.dropReader
  extract_lets +onlyGivenNames x1 x2
  clear_value x1
  clear_value x2
  refine Keeps.ite ?_ ?_
  · exact Keeps.refl _
  · refine Keeps.trans ?_ (State.chMsg_keeps _ _ _ _)
    refine Keeps.trans ?_ (State.flag_keeps _ _ _)
    refine Keeps.trans ?_ (State.flag_keeps _ _ _)
    exact Keeps.refl _

theorem lastCodewordSymbol_keeps (h : Half) (n : Nat) (amp0 : Nat) (amp1 : Nat) (errs : List Int) (s : State) :
    Keeps s (lastCodewordSymbol h n amp0 amp1 errs s) := by
  unfold lastCodewordSymbol
  extract_lets +onlyGivenNames x1 x2 x3
  clear_value x1
  clear_value x2
  clear_value x3
  split
  · rename_i y4 y5
    exact Keeps.refl _
  · rename_i y6 y7 y8 y9
    refine Keeps.ite ?_ ?_
    · exact Keeps.refl _
    · extract_lets +onlyGivenNames x10 x11 x12 x13 x14 x15
      have h16 : Keeps s x10 := by
        unfold x10
        refine Keeps.trans ?_ (State.chStore_keeps _ _ _ _)
        refine Keeps.trans ?_ (State.chSnr_keeps _ _)
        refine Keeps.trans ?_ (State.chAdapt_keeps _ _ _)
        refine Keeps.trans ?_ (State.chLoop_keeps _ _ _ _)
        exact Keeps.refl _
      clear_value x10
      clear_value x11
      clear_value x12
      clear_value x13
      have h17 : Keeps s x14 := by
        unfold x14
        refine Keeps.trans ?_ (State.setSec_keeps _ _ _ _)
        exact h16
      clear_value x14
      have h18 : Keeps s x15 := by
        unfold x15
        refine Keeps.ite ?_ ?_
        · exact h16
        · refine Keeps.ite ?_ ?_
          · refine Keeps.trans ?_ (State.chErased_keeps _ _ _ _ _ _ _ _)
            exact h16
          · refine Keeps.ite ?_ ?_
            · refine Keeps.trans ?_ (State.dropReader_keeps _ _ _ _)
              exact h17
            · exact h17
      clear_value x15
      extract_lets +onlyGivenNames x19
      clear_value x19
      refine Keeps.ite ?_ ?_
      · refine Keeps.ite ?_ ?_
        · refine Keeps.trans ?_ (State.chBegin_keeps _ _)
          exact h18
        · refine Keeps.trans ?_ (State.wickAbort_keeps _ _ _ _)
          refine Keeps.trans ?_ (State.setChState_keeps _ _ _)
          exact h18
      · refine Keeps.trans ?_ (State.setChState_keeps _ _ _)
        exact h18

theorem execLastCodewordSymbol_keeps (h : Half) (n : Nat) (amp0 : Nat) (amp1 : Nat) (errs : List Int) (s : State) :
    OutKeeps s (execLastCodewordSymbol h n amp0 amp1 errs s) := by
  unfold execLastCodewordSymbol
  refine OutKeeps.next ?_
  refine Keeps.trans ?_ (lastCodewordSymbol_keeps _ _ _ _ _ _)
  exact Keeps.refl _

theorem firstDecodeEnd_keeps (h : Half) (n : Nat) (iters : Nat) (cw : Option (BitVec 39936)) (s : State) :
    Keeps s (firstDecodeEnd h n iters cw s) := by
  unfold firstDecodeEnd
  extract_lets +onlyGivenNames x1
  clear_value x1
  split
  · rename_i y2 y3
    exact Keeps.refl _
  · rename_i y4 y5 y6 y7
    extract_lets +onlyGivenNames x8 x9 x10
    clear_value x8
    clear_value x9
    have h11 : Keeps s x10 := by
      unfold x10
      refine Keeps.trans ?_ (State.chCount_keeps _ _ _ _)
      exact Keeps.refl _
    clear_value x10
    split
    · rename_i y12 y13 y14
      refine Keeps.trans ?_ (State.chConverged_keeps _ _ _ _ _ _ _ _ _)
      exact h11
    · rename_i y15 y16
      refine Keeps.trans ?_ (State.chFailed_keeps _ _ _ _ _ _ _)
      exact h11

theorem execFirstDecodeEnd_keeps (h : Half) (n : Nat) (iters : Nat) (cw : Option (BitVec 39936)) (s : State) :
    OutKeeps s (execFirstDecodeEnd h n iters cw s) := by
  unfold execFirstDecodeEnd
  refine OutKeeps.next ?_
  refine Keeps.trans ?_ (firstDecodeEnd_keeps _ _ _ _ _)
  exact Keeps.refl _

theorem redetectionDone_keeps (h : Half) (n : Nat) (s : State) :
    Keeps s (redetectionDone h n s) := by
  unfold redetectionDone
  extract_lets +onlyGivenNames x1
  clear_value x1
  split
  · rename_i y2 y3
    exact Keeps.refl _
  · rename_i y4 y5 y6 y7
    refine Keeps.ite ?_ ?_
    · refine Keeps.trans ?_ (State.setSec_keeps _ _ _ _)
      exact Keeps.refl _
    · split
      · rename_i y8 y9 y10
        refine Keeps.trans ?_ (State.chHypStart_keeps _ _ _ _ _)
        exact Keeps.refl _
      · rename_i y11 y12
        exact Keeps.refl _

theorem execRedetectionDone_keeps (h : Half) (n : Nat) (s : State) :
    OutKeeps s (execRedetectionDone h n s) := by
  unfold execRedetectionDone
  refine OutKeeps.next ?_
  refine Keeps.trans ?_ (redetectionDone_keeps _ _ _)
  exact Keeps.refl _

theorem hypothesisDecodeEnd_keeps (h : Half) (n : Nat) (iters : Nat) (cw : Option (BitVec 39936)) (s : State) :
    Keeps s (hypothesisDecodeEnd h n iters cw s) := by
  unfold hypothesisDecodeEnd
  extract_lets +onlyGivenNames x1
  clear_value x1
  split
  · rename_i y2 y3
    exact Keeps.refl _
  · rename_i y4 y5 y6 y7
    refine Keeps.ite ?_ ?_
    · exact Keeps.refl _
    · extract_lets +onlyGivenNames x8 x9 x10 x11
      clear_value x8
      clear_value x9
      clear_value x10
      clear_value x11
      split
      · rename_i y12 y13 y14
        refine Keeps.trans ?_ (State.chConverged_keeps _ _ _ _ _ _ _ _ _)
        exact Keeps.refl _
      · rename_i y15 y16
        refine Keeps.trans ?_ (State.chFailed_keeps _ _ _ _ _ _ _)
        exact Keeps.refl _

theorem execHypothesisDecodeEnd_keeps (h : Half) (n : Nat) (iters : Nat) (cw : Option (BitVec 39936)) (s : State) :
    OutKeeps s (execHypothesisDecodeEnd h n iters cw s) := by
  unfold execHypothesisDecodeEnd
  refine OutKeeps.next ?_
  refine Keeps.trans ?_ (hypothesisDecodeEnd_keeps _ _ _ _ _)
  exact Keeps.refl _

theorem recoveryRoundEnd_keeps (h : Half) (n : Nat) (iters : Nat) (cw : Option (BitVec 39936)) (s : State) :
    Keeps s (recoveryRoundEnd h n iters cw s) := by
  unfold recoveryRoundEnd
  extract_lets +onlyGivenNames x1
  clear_value x1
  split
  · rename_i y2 y3
    exact Keeps.refl _
  · rename_i y4 y5 y6 y7
    extract_lets +onlyGivenNames x8
    clear_value x8
    split
    · rename_i y9 y10 y11
      refine Keeps.trans ?_ (State.chConverged_keeps _ _ _ _ _ _ _ _ _)
      exact Keeps.refl _
    · rename_i y12 y13
      refine Keeps.ite ?_ ?_
      · refine Keeps.trans ?_ (State.setSec_keeps _ _ _ _)
        exact Keeps.refl _
      · refine Keeps.trans ?_ (State.setSec_keeps _ _ _ _)
        exact Keeps.refl _

theorem execRecoveryRoundEnd_keeps (h : Half) (n : Nat) (iters : Nat) (cw : Option (BitVec 39936)) (s : State) :
    OutKeeps s (execRecoveryRoundEnd h n iters cw s) := by
  unfold execRecoveryRoundEnd
  refine OutKeeps.next ?_
  refine Keeps.trans ?_ (recoveryRoundEnd_keeps _ _ _ _ _)
  exact Keeps.refl _

theorem State.vfyLatch_keeps (s : State) (ci : Nat) :
    Keeps s (State.vfyLatch s ci) := by
  unfold State.vfyLatch
  extract_lets +onlyGivenNames x1
  clear_value x1
  refine Keeps.trans ?_ (State.setRch_keeps _ _ _)
  exact Keeps.refl _

theorem verifyStart_keeps (h : Half) (n : Nat) (s : State) :
    Keeps s (verifyStart h n s) := by
  unfold verifyStart
  extract_lets +onlyGivenNames x1 x2
  clear_value x1
  clear_value x2
  split
  · rename_i y3 y4
    exact Keeps.refl _
  · rename_i y5 y6 y7
    refine Keeps.ite ?_ ?_
    · refine Keeps.ite ?_ ?_
      · extract_lets +onlyGivenNames x8 x9
        clear_value x8
        clear_value x9
        extract_lets +onlyGivenNames x10
        have h11 : Keeps s x10 := by
          unfold x10
          refine Keeps.trans ?_ (State.setRch_keeps _ _ _)
          exact Keeps.refl _
        clear_value x10
        refine Keeps.trans ?_ (State.setChState_keeps _ _ _)
        refine Keeps.trans ?_ (State.put_keeps _ _ _ _)
        refine Keeps.trans ?_ (State.vfyLatch_keeps _ _)
        exact h11
      · refine Keeps.trans ?_ (State.wickAbort_keeps _ _ _ _)
        exact Keeps.refl _
    · exact Keeps.refl _

theorem execVerifyStart_keeps (h : Half) (n : Nat) (s : State) :
    OutKeeps s (execVerifyStart h n s) := by
  unfold execVerifyStart
  refine OutKeeps.next ?_
  refine Keeps.trans ?_ (verifyStart_keeps _ _ _)
  exact Keeps.refl _

theorem State.verifyMiss_keeps (s : State) (ai : Nat) (d : Desc) (z3 : Option (Nat × Nat)) :
    Keeps s (State.verifyMiss s ai d z3) := by
  unfold State.verifyMiss
  split
  · rename_i y1
    exact Keeps.refl _
  · rename_i y2 y3 y4
    extract_lets +onlyGivenNames x5 x6 x7 x8
    clear_value x5
    clear_value x6
    clear_value x7
    clear_value x8
    refine Keeps.ite ?_ ?_
    · refine Keeps.ite ?_ ?_
      · refine Keeps.trans ?_ (State.grown_keeps _ _ _ _ _ _ _ _)
        exact Keeps.refl _
      · extract_lets +onlyGivenNames x9
        clear_value x9
        refine Keeps.trans ?_ (State.setFmt_keeps _ _ _)
        refine Keeps.trans ?_ (State.flag_keeps _ _ _)
        exact Keeps.refl _
    · refine Keeps.trans ?_ (State.rwqAdd_keeps _ _ _ _)
      exact Keeps.refl _

theorem State.verifyFail_keeps (s : State) (ai : Nat) (d : Desc) (slot : Nat) (frame : Nat) :
    Keeps s (State.verifyFail s ai d slot frame) := by
  unfold State.verifyFail
  extract_lets +onlyGivenNames x1 x2
  clear_value x1
  clear_value x2
  refine Keeps.ite ?_ ?_
  · exact Keeps.refl _
  · extract_lets +onlyGivenNames x3
    have h4 : Keeps s x3 := by
      unfold x3
      refine Keeps.trans ?_ (State.fmtCount_keeps _ _ _ _)
      refine Keeps.trans ?_ (State.flag_keeps _ _ _)
      exact Keeps.refl _
    clear_value x3
    refine Keeps.trans ?_ (State.verifyMiss_keeps _ _ _ _)
    refine Keeps.trans ?_ (State.headCount_keeps _ _ _ _ _)
    exact h4

theorem verifyDecodeEnd_keeps (h : Half) (n : Nat) (frame : Nat) (rx : BitVec 160) (iters : Nat) (cw : Option
    (BitVec 39936)) (s : State) :
    Keeps s (verifyDecodeEnd h n frame rx iters cw s) := by
  unfold verifyDecodeEnd
  extract_lets +onlyGivenNames x1 x2 x3
  clear_value x1
  clear_value x2
  clear_value x3
  split
  · rename_i y4 y5
    exact Keeps.refl _
  · rename_i y6 y7 y8
    refine Keeps.ite ?_ ?_
    · exact Keeps.refl _
    · extract_lets +onlyGivenNames x9 x10 x11 x12
      clear_value x9
      clear_value x10
      clear_value x11
      clear_value x12
      split
      · rename_i y13 y14 y15 y16
        extract_lets +onlyGivenNames x17 x18 x19 x20 x21 x22 x23 x24 x25 x26
        clear_value x17
        clear_value x18
        clear_value x19
        clear_value x20
        clear_value x21
        have h27 : Keeps s x22 := by
          unfold x22
          refine Keeps.trans ?_ (State.vfyLatch_keeps _ _)
          refine Keeps.trans ?_ (State.chSnr_keeps _ _)
          refine Keeps.trans ?_ (State.chAdapt_keeps _ _ _)
          exact Keeps.refl _
        clear_value x22
        have h28 : Keeps s x23 := by
          unfold x23
          refine Keeps.trans ?_ (State.chTally_keeps _ _ _ _ _)
          refine Keeps.trans ?_ (State.chLog_keeps _ _ _ _)
          exact h27
        clear_value x23
        have h29 : Keeps s x24 := by
          unfold x24
          refine Keeps.trans ?_ (State.slotReport_keeps _ _ _ _ _)
          exact h28
        clear_value x24
        have h30 : Keeps s x25 := by
          unfold x25
          refine Keeps.ite ?_ ?_
          · exact h29
          · refine Keeps.trans ?_ (State.verifyFail_keeps _ _ _ _ _)
            exact h29
        clear_value x25
        have h31 : Keeps s x26 := by
          unfold x26
          refine Keeps.trans ?_ (State.verifyLeave_keeps _ _)
          exact h30
        clear_value x26
        refine Keeps.ite ?_ ?_
        · exact h31
        · refine Keeps.trans ?_ (State.wickAbort_keeps _ _ _ _)
          exact h31

theorem execVerifyDecodeEnd_keeps (h : Half) (n : Nat) (frame : Nat) (rx : BitVec 160) (iters : Nat) (cw : Option
    (BitVec 39936)) (s : State) :
    OutKeeps s (execVerifyDecodeEnd h n frame rx iters cw s) := by
  unfold execVerifyDecodeEnd
  refine OutKeeps.next ?_
  refine Keeps.trans ?_ (verifyDecodeEnd_keeps _ _ _ _ _ _ _)
  exact Keeps.refl _

theorem State.chAbort_keeps (s : State) (ci : Nat) (st : OpStatus) :
    Keeps s (State.chAbort s ci st) := by
  unfold State.chAbort
  extract_lets +onlyGivenNames x1 x2 x3
  clear_value x1
  clear_value x2
  have h4 : Keeps s x3 := by
    unfold x3
    split
    · rename_i y5 y6 y7 y8
      refine Keeps.ite ?_ ?_
      · split
        · rename_i y9 y10 y11 y12
          have h13 : Keeps s y11 := by
            refine Keeps2.use ?_ y12
            refine Keeps2.ite ?_ ?_
            · refine Keeps2.trans ?_ (State.takeTag_keeps _ _ _)
              exact Keeps.refl _
            · refine Keeps2.mk ?_
              exact Keeps.refl _
          refine Keeps.trans ?_ (State.chErased_keeps _ _ _ _ _ _ _ _)
          exact h13
      · exact Keeps.refl _
    · rename_i y14 y15
      exact Keeps.refl _
  clear_value x3
  extract_lets +onlyGivenNames x16
  have h17 : Keeps s x16 := by
    unfold x16
    refine Keeps.trans ?_ (State.setChState_keeps _ _ _)
    exact h4
  clear_value x16
  refine Keeps.ite ?_ ?_
  · refine Keeps.trans ?_ (State.wickAbort_keeps _ _ _ _)
    refine Keeps.trans ?_ (State.flag_keeps _ _ _)
    exact h17
  · exact h17

theorem channelOff_keeps (h : Half) (n : Nat) (s : State) :
    Keeps s (channelOff h n s) := by
  unfold channelOff
  extract_lets +onlyGivenNames x1
  clear_value x1
  refine Keeps.trans ?_ (State.put_keeps _ _ _ _)
  refine Keeps.trans ?_ (State.chAbort_keeps _ _ _)
  exact Keeps.refl _

theorem execChannelOff_keeps (h : Half) (n : Nat) (s : State) :
    OutKeeps s (execChannelOff h n s) := by
  unfold execChannelOff
  refine OutKeeps.next ?_
  refine Keeps.trans ?_ (channelOff_keeps _ _ _)
  exact Keeps.refl _

theorem channelCfg_keeps (h : Half) (n : Nat) (readers : Nat) (s : State) :
    Keeps s (channelCfg h n readers s) := by
  unfold channelCfg
  extract_lets +onlyGivenNames x1 x2
  clear_value x1
  have h3 : Keeps s x2 := by
    unfold x2
    refine Keeps.ite ?_ ?_
    · refine Keeps.trans ?_ (State.chAbort_keeps _ _ _)
      exact Keeps.refl _
    · exact Keeps.refl _
  clear_value x2
  refine Keeps.trans ?_ (State.put_keeps _ _ _ _)
  exact h3

theorem execChannelCfg_keeps (h : Half) (n : Nat) (readers : Nat) (s : State) :
    OutKeeps s (execChannelCfg h n readers s) := by
  unfold execChannelCfg
  refine OutKeeps.next ?_
  refine Keeps.trans ?_ (channelCfg_keeps _ _ _ _)
  exact Keeps.refl _

theorem State.realignOff_keeps (s : State) (ci : Nat) :
    Keeps s (State.realignOff s ci) := by
  unfold State.realignOff
  refine Keeps.foldl ?_ ?_
  · exact Keeps.refl _
  · intro a1 b2
    refine Keeps.ite ?_ ?_
    · refine Keeps.trans ?_ (State.chErased_keeps _ _ _ _ _ _ _ _)
      exact Keeps.refl _
    · exact Keeps.refl _

theorem State.maskFollow_keeps (s : State) (ai : Nat) :
    Keeps s (State.maskFollow s ai) := by
  unfold State.maskFollow
  refine Keeps.foldl ?_ ?_
  · exact Keeps.refl _
  · intro a1 b2
    extract_lets +onlyGivenNames x3
    clear_value x3
    refine Keeps.ite ?_ ?_
    · refine Keeps.trans ?_ (State.chSelect_keeps _ _ _)
      exact Keeps.refl _
    · refine Keeps.ite ?_ ?_
      · exact Keeps.refl _
      · refine Keeps.trans ?_ (State.chAbort_keeps _ _ _)
        exact Keeps.refl _

theorem preampFrameEnd_keeps (h : Half) (u : Nat) (resp : PaResp) (s : State) :
    Keeps s (preampFrameEnd h u resp s) := by
  unfold preampFrameEnd
  extract_lets +onlyGivenNames x1
  have h2 : Keeps s x1 := by
    unfold x1
    refine Keeps.trans ?_ (State.busFrameEnd_keeps _ _ _ _)
    exact Keeps.refl _
  clear_value x1
  refine Keeps.ite ?_ ?_
  · refine Keeps.trans ?_ (State.maskFollow_keeps _ _)
    exact h2
  · exact h2

theorem execPreampFrameEnd_keeps (h : Half) (u : Nat) (resp : PaResp) (s : State) :
    OutKeeps s (execPreampFrameEnd h u resp s) := by
  unfold execPreampFrameEnd
  refine OutKeeps.next ?_
  refine Keeps.trans ?_ (preampFrameEnd_keeps _ _ _ _)
  exact Keeps.refl _

theorem freeze_keeps (h : Half) (n : Nat) (on : Bool) (s : State) :
    Keeps s (freeze h n on s) := by
  unfold freeze
  extract_lets +onlyGivenNames x1 x2 x3
  clear_value x1
  clear_value x2
  have h4 : Keeps s x3 := by
    unfold x3
    refine Keeps.trans ?_ (State.putB_keeps _ _ _ _)
    exact Keeps.refl _
  clear_value x3
  refine Keeps.ite ?_ ?_
  · refine Keeps.trans ?_ (State.put_keeps _ _ _ _)
    exact h4
  · refine Keeps.ite ?_ ?_
    · exact h4
    · refine Keeps.trans ?_ (State.put_keeps _ _ _ _)
      exact h4

theorem execFreeze_keeps (h : Half) (n : Nat) (on : Bool) (s : State) :
    OutKeeps s (execFreeze h n on s) := by
  unfold execFreeze
  refine OutKeeps.next ?_
  refine Keeps.trans ?_ (freeze_keeps _ _ _ _)
  exact Keeps.refl _

theorem frozen_keeps (h : Half) (n : Nat) (s : State) :
    Keeps s (frozen h n s) := by
  unfold frozen
  extract_lets +onlyGivenNames x1 x2
  clear_value x1
  clear_value x2
  refine Keeps.ite ?_ ?_
  · refine Keeps.trans ?_ (State.put_keeps _ _ _ _)
    exact Keeps.refl _
  · exact Keeps.refl _

theorem execFrozen_keeps (h : Half) (n : Nat) (s : State) :
    OutKeeps s (execFrozen h n s) := by
  unfold execFrozen
  refine OutKeeps.next ?_
  refine Keeps.trans ?_ (frozen_keeps _ _ _)
  exact Keeps.refl _

end Sys2Proof.Machine
end

