-- ==== Sys2Proof/Laws/KeepsFormatter.lean ====
section
/-! SUPPORT. What `Keeps` says of every operation of Machine/Formatter.lean. -/

namespace Sys2Proof.Machine

theorem bandSplit_keeps (h : Half) (u : Nat) (s : State) :
    Keeps s (bandSplit h u s) := by
  unfold bandSplit
  extract_lets +onlyGivenNames x1 x2 x3 x4
  clear_value x1
  clear_value x2
  clear_value x3
  clear_value x4
  split
  · rename_i y5 y6
    exact Keeps.refl _
  · rename_i y7 y8 y9
    refine Keeps.ite ?_ ?_
    · exact Keeps.refl _
    · refine Keeps.ite ?_ ?_
      · refine Keeps.trans ?_ (State.wickAbort_keeps _ _ _ _)
        exact Keeps.refl _
      · extract_lets +onlyGivenNames x10 x11 x12 x13 x14 x15 x16 x17 x18 x19 x20 x21
        clear_value x10
        clear_value x11
        clear_value x12
        clear_value x13
        clear_value x14
        have h22 : Keeps s x15 := by
          unfold x15
          refine Keeps.ite ?_ ?_
          · exact Keeps.refl _
          · refine Keeps.trans ?_ (State.bufStore_keeps _ _ _)
            exact Keeps.refl _
        clear_value x15
        clear_value x16
        clear_value x17
        clear_value x18
        have h23 : Keeps s x19 := by
          unfold x19
          refine Keeps.foldl ?_ ?_
          · exact h22
          · intro a24 b25
            split
            · rename_i y26 y27 y28
              refine Keeps.trans ?_ (State.rwqAdd_keeps _ _ _ _)
              exact Keeps.refl _
        clear_value x19
        have h29 : Keeps s x20 := by
          unfold x20
          refine Keeps.trans ?_ (State.fmtCount_keeps _ _ _ _)
          refine Keeps.trans ?_ (State.flag_keeps _ _ _)
          exact h23
        clear_value x20
        have h30 : Keeps s x21 := by
          unfold x21
          refine Keeps.trans ?_ (State.chimney_keeps _ _ _ _ _ _)
          exact h29
        clear_value x21
        refine Keeps.trans ?_ (State.wickAbort_keeps _ _ _ _)
        extract_lets +onlyGivenNames x31
        clear_value x31
        refine Keeps.trans ?_ (State.setFmt_keeps _ _ _)
        exact h30

theorem execBandSplit_keeps (h : Half) (u : Nat) (s : State) :
    OutKeeps s (execBandSplit h u s) := by
  unfold execBandSplit
  refine OutKeeps.next ?_
  refine Keeps.trans ?_ (bandSplit_keeps _ _ _)
  exact Keeps.refl _

theorem grownListWrite_keeps (h : Half) (u : Nat) (s : State) :
    Keeps s (grownListWrite h u s) := by
  unfold grownListWrite
  extract_lets +onlyGivenNames x1
  clear_value x1
  refine Keeps.trans ?_ (State.setFmt_keeps _ _ _)
  exact Keeps.refl _

theorem execGrownListWrite_keeps (h : Half) (u : Nat) (s : State) :
    OutKeeps s (execGrownListWrite h u s) := by
  unfold execGrownListWrite
  refine OutKeeps.next ?_
  refine Keeps.trans ?_ (grownListWrite_keeps _ _ _)
  exact Keeps.refl _

theorem heaterFrameUpdate_keeps (h : Half) (u : Nat) (s : State) :
    Keeps s (heaterFrameUpdate h u s) := by
  unfold heaterFrameUpdate
  extract_lets +onlyGivenNames x1 x2 x3 x4 x5
  clear_value x1
  clear_value x2
  clear_value x3
  clear_value x4
  clear_value x5
  refine Keeps.ite ?_ ?_
  · exact Keeps.refl _
  · extract_lets +onlyGivenNames x6
    have h7 : Keeps s x6 := by
      unfold x6
      refine Keeps.foldl ?_ ?_
      · exact Keeps.refl _
      · intro a8 b9
        refine Keeps.trans ?_ (State.paIssue_keeps _ _ _ _)
        exact Keeps.refl _
    clear_value x6
    extract_lets +onlyGivenNames x10
    clear_value x10
    refine Keeps.trans ?_ (State.setFmt_keeps _ _ _)
    exact h7

theorem execHeaterFrameUpdate_keeps (h : Half) (u : Nat) (s : State) :
    OutKeeps s (execHeaterFrameUpdate h u s) := by
  unfold execHeaterFrameUpdate
  refine OutKeeps.next ?_
  refine Keeps.trans ?_ (heaterFrameUpdate_keeps _ _ _)
  exact Keeps.refl _

theorem State.fmtAbort_keeps (s : State) (ai : Nat) (st : OpStatus) :
    Keeps s (State.fmtAbort s ai st) := by
  unfold State.fmtAbort
  refine Keeps.ite ?_ ?_
  · refine Keeps.trans ?_ (State.wickAbort_keeps _ _ _ _)
    refine Keeps.trans ?_ (State.flag_keeps _ _ _)
    exact Keeps.refl _
  · exact Keeps.refl _

theorem formatOff_keeps (h : Half) (u : Nat) (s : State) :
    Keeps s (formatOff h u s) := by
  unfold formatOff
  extract_lets +onlyGivenNames x1
  clear_value x1
  refine Keeps.trans ?_ (State.fmtAbort_keeps _ _ _)
  refine Keeps.trans ?_ (State.put_keeps _ _ _ _)
  exact Keeps.refl _

theorem execFormatOff_keeps (h : Half) (u : Nat) (s : State) :
    OutKeeps s (execFormatOff h u s) := by
  unfold execFormatOff
  refine OutKeeps.next ?_
  refine Keeps.trans ?_ (formatOff_keeps _ _ _)
  exact Keeps.refl _

theorem formatTables_keeps (h : Half) (u : Nat) (defects : Bool) (addr : Nat) (s : State) :
    Keeps s (formatTables h u defects addr s) := by
  unfold formatTables
  extract_lets +onlyGivenNames x1 x2 x3
  clear_value x1
  clear_value x2
  have h4 : Keeps s x3 := by
    unfold x3
    refine Keeps.ite ?_ ?_
    · refine Keeps.trans ?_ (State.put_keeps _ _ _ _)
      refine Keeps.trans ?_ (State.put_keeps _ _ _ _)
      exact Keeps.refl _
    · refine Keeps.trans ?_ (State.put_keeps _ _ _ _)
      refine Keeps.trans ?_ (State.put_keeps _ _ _ _)
      exact Keeps.refl _
  clear_value x3
  refine Keeps.trans ?_ (State.fmtAbort_keeps _ _ _)
  exact h4

theorem execFormatTables_keeps (h : Half) (u : Nat) (defects : Bool) (addr : Nat) (s : State) :
    OutKeeps s (execFormatTables h u defects addr s) := by
  unfold execFormatTables
  refine OutKeeps.next ?_
  refine Keeps.trans ?_ (formatTables_keeps _ _ _ _ _)
  exact Keeps.refl _

theorem State.showOp_keeps (s : State) (ai : Nat) (kind : Nat) (mode : Nat) :
    Keeps s (State.showOp s ai kind mode) := by
  unfold State.showOp
  extract_lets +onlyGivenNames x1
  clear_value x1
  refine Keeps.trans ?_ (State.put_keeps _ _ _ _)
  refine Keeps.trans ?_ (State.put_keeps _ _ _ _)
  refine Keeps.trans ?_ (State.put_keeps _ _ _ _)
  exact Keeps.refl _

theorem State.beginOp_keeps (s : State) (ai : Nat) (r : FmtReq) (e : Option RwqEntry) (direct : Bool) :
    Keeps s (State.beginOp s ai r e direct) := by
  unfold State.beginOp
  extract_lets +onlyGivenNames x1
  clear_value x1
  extract_lets +onlyGivenNames x2
  clear_value x2
  refine Keeps.trans ?_ (State.setFmt_keeps _ _ _)
  exact Keeps.refl _

theorem State.takeReq_keeps (s : State) (ai : Nat) (kind : Nat) :
    Keeps s (State.takeReq s ai kind) := by
  unfold State.takeReq
  extract_lets +onlyGivenNames x1
  clear_value x1
  split
  · rename_i y2 y3 y4 y5 y6 y7
    refine Keeps.ite ?_ ?_
    · exact Keeps.refl _
    · extract_lets +onlyGivenNames x8
      have h9 : Keeps s x8 := by
        unfold x8
        refine Keeps.trans ?_ (State.setFmt_keeps _ _ _)
        exact Keeps.refl _
      clear_value x8
      refine Keeps.ite ?_ ?_
      · refine Keeps.trans ?_ (State.endReq_keeps _ _ _ _ _)
        exact h9
      · refine Keeps.ite ?_ ?_
        · refine Keeps.trans ?_ (State.endReq_keeps _ _ _ _ _)
          exact h9
        · refine Keeps.trans ?_ (State.beginOp_keeps _ _ _ _ _)
          exact h9
  · rename_i y10 y11 y12
    exact Keeps.refl _

theorem State.stageFill_keeps (s : State) (ai : Nat) (r : FmtReq) :
    Keeps1 s (State.stageFill s ai r) := by
  unfold State.stageFill
  refine Keeps1.foldl ?_ ?_
  · refine Keeps1.mk ?_
    exact Keeps.refl _
  · intro a1 a1' b2
    refine Keeps1.foldl ?_ ?_
    · refine Keeps1.mk ?_
      exact Keeps.refl _
    · intro a3 a3' b4
      extract_lets +onlyGivenNames x5 x6
      have h7 : Keeps a3 x5 := by
        unfold x5
        dsimp (zeta := false) only
        exact Keeps.refl _
      clear_value x5
      clear_value x6
      refine Keeps1.ite ?_ ?_
      · refine Keeps1.mk ?_
        exact Keeps.refl _
      · split
        · rename_i y8 y9 y10
          refine Keeps1.mk ?_
          refine Keeps.trans ?_ (Keeps.upd (s := x5) rfl rfl rfl rfl)
          exact h7
        · rename_i y11 y12
          refine Keeps1.mk ?_
          exact h7

theorem State.spillQueue_keeps (s : State) (ai : Nat) :
    Keeps s (State.spillQueue s ai) := by
  unfold State.spillQueue
  extract_lets +onlyGivenNames x1
  clear_value x1
  split
  · rename_i y2 y3 y4 y5
    refine Keeps.ite ?_ ?_
    · exact Keeps.refl _
    · refine Keeps.trans ?_ (State.setFmt_keeps _ _ _)
      exact Keeps.refl _
  · rename_i y6 y7
    exact Keeps.refl _

theorem State.stagedUe_keeps (s : State) (ai : Nat) (ues : List (Nat × Nat)) :
    Keeps s (State.stagedUe s ai ues) := by
  unfold State.stagedUe
  split
  · rename_i y1 y2
    exact Keeps.refl _
  · rename_i y3 y4 y5
    extract_lets +onlyGivenNames x6 x7
    clear_value x6
    clear_value x7
    extract_lets +onlyGivenNames x8
    have h9 : Keeps s x8 := by
      unfold x8
      refine Keeps.trans ?_ (State.setFmt_keeps _ _ _)
      exact Keeps.refl _
    clear_value x8
    refine Keeps.foldl ?_ ?_
    · exact h9
    · intro a10 b11
      split
      · rename_i y12 y13 y14
        refine Keeps.trans ?_ (State.rwqAdd_keeps _ _ _ _)
        exact Keeps.refl _

theorem State.moveRow_keeps (s : State) (ai : Nat) (kind : Nat) (band : Nat) :
    Keeps s (State.moveRow s ai kind band) := by
  unfold State.moveRow
  refine Keeps.ite ?_ ?_
  · exact Keeps.refl _
  · extract_lets +onlyGivenNames x1
    have h2 : Keeps s x1 := by
      unfold x1
      refine Keeps.trans ?_ (State.beginOp_keeps _ _ _ _ _)
      exact Keeps.refl _
    clear_value x1
    refine Keeps.ite ?_ ?_
    · refine Keeps.trans ?_ (State.fmtEnd_keeps _ _ _ _)
      exact h2
    · extract_lets +onlyGivenNames x3
      clear_value x3
      split
      · rename_i y4 y5 y6 y7
        have h8 : Keeps s y6 := by
          refine Keeps2.use ?_ y7
          refine Keeps2.trans ?_ (State.takeFree_keeps _)
          exact h2
        refine Keeps.trans ?_ (State.wickStart_keeps _ _ _)
        refine Keeps.trans ?_ (State.showOp_keeps _ _ _ _)
        exact h8

theorem seekOnly_keeps (h : Half) (u : Nat) (band : Nat) (s : State) :
    Keeps s (seekOnly h u band s) := by
  unfold seekOnly
  refine Keeps.trans ?_ (State.moveRow_keeps _ _ _ _)
  exact Keeps.refl _

theorem execSeekOnly_keeps (h : Half) (u : Nat) (band : Nat) (s : State) :
    OutKeeps s (execSeekOnly h u band s) := by
  unfold execSeekOnly
  refine OutKeeps.next ?_
  refine Keeps.trans ?_ (seekOnly_keeps _ _ _ _)
  exact Keeps.refl _

theorem parkRow_keeps (h : Half) (u : Nat) (s : State) :
    Keeps s (parkRow h u s) := by
  unfold parkRow
  refine Keeps.trans ?_ (State.moveRow_keeps _ _ _ _)
  exact Keeps.refl _

theorem execPark_keeps (h : Half) (u : Nat) (s : State) :
    OutKeeps s (execPark h u s) := by
  unfold execPark
  refine OutKeeps.next ?_
  refine Keeps.trans ?_ (parkRow_keeps _ _ _)
  exact Keeps.refl _

theorem snufferShock_keeps (h : Half) (level : Nat) (s : State) :
    Keeps s (snufferShock h level s) := by
  unfold snufferShock
  refine Keeps.ite ?_ ?_
  · exact Keeps.refl _
  · refine Keeps.foldl ?_ ?_
    · exact Keeps.refl _
    · intro a1 b2
      extract_lets +onlyGivenNames x3 x4
      clear_value x3
      clear_value x4
      extract_lets +onlyGivenNames x5
      clear_value x5
      refine Keeps.ite ?_ ?_
      · refine Keeps.trans ?_ (State.snufTrip_keeps _ _ _ _ _)
        exact Keeps.refl _
      · exact Keeps.refl _

theorem execSnufferShock_keeps (h : Half) (level : Nat) (s : State) :
    OutKeeps s (execSnufferShock h level s) := by
  unfold execSnufferShock
  refine OutKeeps.next ?_
  refine Keeps.trans ?_ (snufferShock_keeps _ _ _)
  exact Keeps.refl _

theorem snufferRearm_keeps (h : Half) (u : Nat) (cause : Nat) (peak : Nat) (s : State) :
    Keeps s (snufferRearm h u cause peak s) := by
  unfold snufferRearm
  extract_lets +onlyGivenNames x1 x2 x3
  clear_value x1
  clear_value x2
  clear_value x3
  refine Keeps.ite ?_ ?_
  · refine Keeps.ite ?_ ?_
    · refine Keeps.trans ?_ (State.snufRearm_keeps _ _ _)
      exact Keeps.refl _
    · exact Keeps.refl _
  · refine Keeps.ite ?_ ?_
    · refine Keeps.ite ?_ ?_
      · refine Keeps.trans ?_ (State.snufRearm_keeps _ _ _)
        exact Keeps.refl _
      · exact Keeps.refl _
    · refine Keeps.ite ?_ ?_
      · refine Keeps.ite ?_ ?_
        · refine Keeps.trans ?_ (State.snufRearm_keeps _ _ _)
          exact Keeps.refl _
        · exact Keeps.refl _
      · refine Keeps.ite ?_ ?_
        · refine Keeps.ite ?_ ?_
          · refine Keeps.trans ?_ (State.snufRearm_keeps _ _ _)
            exact Keeps.refl _
          · exact Keeps.refl _
        · exact Keeps.refl _

theorem execSnufferRearm_keeps (h : Half) (u : Nat) (cause : Nat) (peak : Nat) (s : State) :
    OutKeeps s (execSnufferRearm h u cause peak s) := by
  unfold execSnufferRearm
  refine OutKeeps.next ?_
  refine Keeps.trans ?_ (snufferRearm_keeps _ _ _ _ _)
  exact Keeps.refl _

theorem State.handPass_keeps (s : State) (ai : Nat) (kind : Nat) :
    Keeps s (State.handPass s ai kind) := by
  unfold State.handPass
  split
  · rename_i y1 y2
    exact Keeps.refl _
  · rename_i y3 y4 y5
    refine Keeps.ite ?_ ?_
    · refine Keeps.trans ?_ (State.fmtEnd_keeps _ _ _ _)
      exact Keeps.refl _
    · refine Keeps.ite ?_ ?_
      · exact Keeps.refl _
      · split
        · rename_i y6 y7
          refine Keeps.ite ?_ ?_
          · refine Keeps.trans ?_ (State.readSettle_keeps _ _ _)
            exact Keeps.refl _
          · refine Keeps.trans ?_ (State.writeSettle_keeps _ _ _)
            exact Keeps.refl _
        · rename_i y8 y9 y10 y11 y12
          extract_lets +onlyGivenNames x13
          have h14 : Keeps s x13 := by
            unfold x13
            refine Keeps.trans ?_ (State.showOp_keeps _ _ _ _)
            exact Keeps.refl _
          clear_value x13
          refine Keeps.ite ?_ ?_
          · extract_lets +onlyGivenNames x15 x16
            clear_value x15
            clear_value x16
            refine Keeps.ite ?_ ?_
            · exact h14
            · refine Keeps.trans ?_ (State.paIssue_keeps _ _ _ _)
              exact h14
          · extract_lets +onlyGivenNames x17 x18
            clear_value x17
            clear_value x18
            split
            · rename_i y19 y20 y21 y22
              have h23 : Keeps s y21 := by
                refine Keeps2.use ?_ y22
                refine Keeps2.trans ?_ (State.takeFree_keeps _)
                exact h14
              extract_lets +onlyGivenNames x24 x25
              have h26 : Keeps s x24 := by
                unfold x24
                refine Keeps.ite ?_ ?_
                · refine Keeps.trans ?_ (State.fmtCount_keeps _ _ _ _)
                  exact h23
                · exact h23
              clear_value x24
              clear_value x25
              extract_lets +onlyGivenNames x27
              have h28 : Keeps s x27 := by
                unfold x27
                refine Keeps.trans ?_ (State.setFmt_keeps _ _ _)
                exact h26
              clear_value x27
              refine Keeps.trans ?_ (State.wickStart_keeps _ _ _)
              exact h28

theorem State.readRow_keeps (s : State) (ai : Nat) (kind : Nat) :
    Keeps s (State.readRow s ai kind) := by
  unfold State.readRow
  refine Keeps.ite ?_ ?_
  · exact Keeps.refl _
  · extract_lets +onlyGivenNames x1
    have h2 : Keeps s x1 := by
      unfold x1
      refine Keeps.trans ?_ (State.takeReq_keeps _ _ _)
      exact Keeps.refl _
    clear_value x1
    refine Keeps.ite ?_ ?_
    · refine Keeps.trans ?_ (State.handPass_keeps _ _ _)
      exact h2
    · exact h2

theorem readPass_keeps (h : Half) (u : Nat) (s : State) :
    Keeps s (readPass h u s) := by
  unfold readPass
  refine Keeps.trans ?_ (State.readRow_keeps _ _ _)
  exact Keeps.refl _

theorem execReadPass_keeps (h : Half) (u : Nat) (s : State) :
    OutKeeps s (execReadPass h u s) := by
  unfold execReadPass
  refine OutKeeps.next ?_
  refine Keeps.trans ?_ (readPass_keeps _ _ _)
  exact Keeps.refl _

theorem verifyPass_keeps (h : Half) (u : Nat) (s : State) :
    Keeps s (verifyPass h u s) := by
  unfold verifyPass
  refine Keeps.trans ?_ (State.readRow_keeps _ _ _)
  exact Keeps.refl _

theorem execVerifyPass_keeps (h : Half) (u : Nat) (s : State) :
    OutKeeps s (execVerifyPass h u s) := by
  unfold execVerifyPass
  refine OutKeeps.next ?_
  refine Keeps.trans ?_ (verifyPass_keeps _ _ _)
  exact Keeps.refl _

theorem systemBandRead_keeps (h : Half) (u : Nat) (s : State) :
    Keeps s (systemBandRead h u s) := by
  unfold systemBandRead
  refine Keeps.trans ?_ (State.readRow_keeps _ _ _)
  exact Keeps.refl _

theorem execSystemBandRead_keeps (h : Half) (u : Nat) (s : State) :
    OutKeeps s (execSystemBandRead h u s) := by
  unfold execSystemBandRead
  refine OutKeeps.next ?_
  refine Keeps.trans ?_ (systemBandRead_keeps _ _ _)
  exact Keeps.refl _

theorem retryRevolution_keeps (h : Half) (u : Nat) (s : State) :
    Keeps s (retryRevolution h u s) := by
  unfold retryRevolution
  extract_lets +onlyGivenNames x1
  refine Keeps.ite ?_ ?_
  · exact Keeps.refl _
  · refine Keeps.ite ?_ ?_
    · refine Keeps.trans ?_ (State.handPass_keeps _ _ _)
      exact Keeps.refl _
    · exact Keeps.refl _

theorem execRetryRevolution_keeps (h : Half) (u : Nat) (s : State) :
    OutKeeps s (execRetryRevolution h u s) := by
  unfold execRetryRevolution
  refine OutKeeps.next ?_
  refine Keeps.trans ?_ (retryRevolution_keeps _ _ _)
  exact Keeps.refl _

theorem State.writeBegin_keeps (s : State) (ai : Nat) (ues : List (Nat × Nat)) :
    Keeps s (State.writeBegin s ai ues) := by
  unfold State.writeBegin
  split
  · rename_i y1 y2
    exact Keeps.refl _
  · rename_i y3 y4 y5 y6
    refine Keeps.ite ?_ ?_
    · exact Keeps.refl _
    · split
      · rename_i y7 y8 y9 y10
        have h11 : Keeps s y8 := by
          refine Keeps1.use ?_ y10
          refine Keeps1.trans ?_ (State.stageFill_keeps _ _ _)
          exact Keeps.refl _
        split
        · rename_i y12
          extract_lets +onlyGivenNames x13
          have h14 : Keeps s x13 := by
            unfold x13
            refine Keeps.trans ?_ (State.takeReq_keeps _ _ _)
            exact h11
          clear_value x13
          split
          · rename_i y15 y16 y17
            refine Keeps.trans ?_ (State.handPass_keeps _ _ _)
            refine Keeps.trans ?_ (State.stagedUe_keeps _ _ _)
            refine Keeps.foldl ?_ ?_
            · exact h14
            · intro a18 b19
              refine Keeps.trans ?_ (State.stageParity_keeps _ _ _ _ _)
              exact Keeps.refl _
          · rename_i y20 y21
            exact h14
        · rename_i y22 y23 y24
          extract_lets +onlyGivenNames x25
          clear_value x25
          extract_lets +onlyGivenNames x26
          clear_value x26
          refine Keeps.trans ?_ (State.setFmt_keeps _ _ _)
          exact h11

theorem writePass_keeps (h : Half) (u : Nat) (ues : List (Nat × Nat)) (s : State) :
    Keeps s (writePass h u ues s) := by
  unfold writePass
  extract_lets +onlyGivenNames x1
  clear_value x1
  refine Keeps.ite ?_ ?_
  · exact Keeps.refl _
  · split
    · rename_i y2 y3 y4
      extract_lets +onlyGivenNames x5
      clear_value x5
      refine Keeps.ite ?_ ?_
      · refine Keeps.trans ?_ (State.handPass_keeps _ _ _)
        exact Keeps.refl _
      · exact Keeps.refl _
    · rename_i y6 y7
      refine Keeps.ite ?_ ?_
      · refine Keeps.trans ?_ (State.takeReq_keeps _ _ _)
        exact Keeps.refl _
      · refine Keeps.ite ?_ ?_
        · refine Keeps.trans ?_ (State.writeBegin_keeps _ _ _)
          refine Keeps.trans ?_ (State.spillQueue_keeps _ _)
          exact Keeps.refl _
        · exact Keeps.refl _

theorem execWritePass_keeps (h : Half) (u : Nat) (ues : List (Nat × Nat)) (s : State) :
    OutKeeps s (execWritePass h u ues s) := by
  unfold execWritePass
  refine OutKeeps.next ?_
  refine Keeps.trans ?_ (writePass_keeps _ _ _ _)
  exact Keeps.refl _

theorem State.serveEntry_keeps (s : State) (ai : Nat) (e : RwqEntry) (direct : Bool) :
    Keeps s (State.serveEntry s ai e direct) := by
  unfold State.serveEntry
  extract_lets +onlyGivenNames x1
  clear_value x1
  refine Keeps.ite ?_ ?_
  · refine Keeps.trans ?_ (State.handPass_keeps _ _ _)
    refine Keeps.trans ?_ (State.beginOp_keeps _ _ _ _ _)
    exact Keeps.refl _
  · extract_lets +onlyGivenNames x2 x3 x4
    clear_value x2
    clear_value x3
    have h5 : Keeps s x4 := by
      unfold x4
      refine Keeps.foldl ?_ ?_
      · exact Keeps.refl _
      · intro a6 b7
        refine Keeps.trans ?_ (State.sparesLow_keeps _ _ _ _)
        exact Keeps.refl _
    clear_value x4
    refine Keeps.ite ?_ ?_
    · refine Keeps.trans ?_ (State.stagingDrain_keeps _ _ _ _ _)
      exact h5
    · extract_lets +onlyGivenNames x8
      clear_value x8
      refine Keeps.trans ?_ (State.handPass_keeps _ _ _)
      refine Keeps.trans ?_ (State.beginOp_keeps _ _ _ _ _)
      exact h5

theorem rewriteEntry_keeps (h : Half) (u : Nat) (s : State) :
    Keeps s (rewriteEntry h u s) := by
  unfold rewriteEntry
  extract_lets +onlyGivenNames x1 x2
  clear_value x1
  clear_value x2
  refine Keeps.ite ?_ ?_
  · exact Keeps.refl _
  · refine Keeps.ite ?_ ?_
    · refine Keeps.ite ?_ ?_
      · refine Keeps.trans ?_ (State.handPass_keeps _ _ _)
        exact Keeps.refl _
      · exact Keeps.refl _
    · refine Keeps.ite ?_ ?_
      · exact Keeps.refl _
      · extract_lets +onlyGivenNames x3
        clear_value x3
        split
        · rename_i y4 y5 y6 y7 y8
          refine Keeps.trans ?_ (State.serveEntry_keeps _ _ _ _)
          refine Keeps.trans ?_ (State.setFmt_keeps _ _ _)
          exact Keeps.refl _
        · rename_i y9 y10 y11 y12 y13 y14
          refine Keeps.trans ?_ (State.serveEntry_keeps _ _ _ _)
          refine Keeps.trans ?_ (State.setRwq_keeps _ _ _)
          refine Keeps.trans ?_ (State.setFmt_keeps _ _ _)
          exact Keeps.refl _
        · rename_i y15 y16 y17 y18
          exact Keeps.refl _

theorem execRewriteEntry_keeps (h : Half) (u : Nat) (s : State) :
    OutKeeps s (execRewriteEntry h u s) := by
  unfold execRewriteEntry
  refine OutKeeps.next ?_
  refine Keeps.trans ?_ (rewriteEntry_keeps _ _ _)
  exact Keeps.refl _

end Sys2Proof.Machine
end

