-- ==== Sys2Proof/Laws/KeepsSpindle.lean ====
section
/-! SUPPORT. What `Keeps` says of every operation of Machine/Spindle.lean. -/

namespace Sys2Proof.Machine

theorem State.showTarget_keeps (s : State) (hd : Nat) :
    Keeps s (State.showTarget s hd) := by
  unfold State.showTarget
  refine Keeps.trans ?_ (State.put_keeps _ _ _ _)
  exact Keeps.refl _

theorem State.targetWrite_keeps (s : State) (hd : Nat) :
    Keeps s (State.targetWrite s hd) := by
  unfold State.targetWrite
  extract_lets +onlyGivenNames x1
  clear_value x1
  refine Keeps.ite ?_ ?_
  · exact Keeps.refl _
  · refine Keeps.trans ?_ (State.showTarget_keeps _ _)
    exact Keeps.refl _

theorem State.parkBoth_keeps (s : State) (hd : Nat) :
    Keeps s (State.parkBoth s hd) := by
  unfold State.parkBoth
  refine Keeps.trans ?_ (State.servoParkCmd_keeps _ _)
  refine Keeps.trans ?_ (State.servoParkCmd_keeps _ _)
  exact Keeps.refl _

theorem State.brakeChoose_keeps (s : State) (hd : Nat) :
    Keeps s (State.brakeChoose s hd) := by
  unfold State.brakeChoose
  extract_lets +onlyGivenNames x1 x2 x3 x4
  clear_value x1
  clear_value x2
  clear_value x3
  clear_value x4
  extract_lets +onlyGivenNames x5
  have h6 : Keeps s x5 := by
    unfold x5
    refine Keeps.ite ?_ ?_
    · refine Keeps.trans ?_ (Keeps.upd (s := s) rfl rfl rfl rfl)
      exact Keeps.refl _
    · refine Keeps.ite ?_ ?_
      · refine Keeps.trans ?_ (State.dropBrake_keeps _ _)
        exact Keeps.refl _
      · exact Keeps.refl _
  clear_value x5
  refine Keeps.trans ?_ (State.showBridge_keeps _ _)
  refine Keeps.trans ?_ (State.setSpn_keeps _ _ _)
  exact h6

theorem State.brakeEnd_keeps (s : State) (hd : Nat) :
    Keeps s (State.brakeEnd s hd) := by
  unfold State.brakeEnd
  extract_lets +onlyGivenNames x1
  have h2 : Keeps s x1 := by
    unfold x1
    refine Keeps.trans ?_ (State.dropBrake_keeps _ _)
    exact Keeps.refl _
  clear_value x1
  refine Keeps.trans ?_ (State.showBridge_keeps _ _)
  extract_lets +onlyGivenNames x3
  clear_value x3
  refine Keeps.trans ?_ (State.setSpn_keeps _ _ _)
  exact h2

theorem State.enterBrake_keeps (s : State) (hd : Nat) :
    Keeps s (State.enterBrake s hd) := by
  unfold State.enterBrake
  extract_lets +onlyGivenNames x1
  have h2 : Keeps s x1 := by
    unfold x1
    refine Keeps.trans ?_ (State.setSpnState_keeps _ _ _)
    exact Keeps.refl _
  clear_value x1
  refine Keeps.ite ?_ ?_
  · extract_lets +onlyGivenNames x3
    have h4 : Keeps s x3 := by
      unfold x3
      refine Keeps.trans ?_ (State.dropBrake_keeps _ _)
      exact h2
    clear_value x3
    refine Keeps.trans ?_ (State.showBridge_keeps _ _)
    extract_lets +onlyGivenNames x5
    clear_value x5
    refine Keeps.trans ?_ (State.setSpn_keeps _ _ _)
    exact h4
  · refine Keeps.trans ?_ (State.brakeChoose_keeps _ _)
    exact h2

theorem State.requestTaper_keeps (s : State) (hd : Nat) :
    Keeps s (State.requestTaper s hd) := by
  unfold State.requestTaper
  extract_lets +onlyGivenNames x1 x2 x3
  clear_value x1
  clear_value x2
  clear_value x3
  extract_lets +onlyGivenNames x4
  clear_value x4
  refine Keeps.trans ?_ (Keeps.upd (s := s) rfl rfl rfl rfl)
  exact Keeps.refl _

theorem State.startAccept_keeps (s : State) (hd : Nat) :
    Keeps s (State.startAccept s hd) := by
  unfold State.startAccept
  extract_lets +onlyGivenNames x1 x2 x3 x4 x5
  clear_value x1
  clear_value x2
  have h6 : Keeps s x3 := by
    unfold x3
    refine Keeps.trans ?_ (State.setSpn_keeps _ _ _)
    exact Keeps.refl _
  clear_value x3
  have h7 : Keeps s x4 := by
    unfold x4
    refine Keeps.trans ?_ (State.setSpnState_keeps _ _ _)
    refine Keeps.trans ?_ (State.put_keeps _ _ _ _)
    exact h6
  clear_value x4
  have h8 : Keeps s x5 := by
    unfold x5
    refine Keeps.trans ?_ (State.showTarget_keeps _ _)
    exact h7
  clear_value x5
  refine Keeps.ite ?_ ?_
  · exact h8
  · refine Keeps.trans ?_ (State.requestTaper_keeps _ _)
    exact h8

theorem State.enterStopped_keeps (s : State) (hd : Nat) :
    Keeps s (State.enterStopped s hd) := by
  unfold State.enterStopped
  extract_lets +onlyGivenNames x1 x2 x3
  clear_value x1
  have h4 : Keeps s x2 := by
    unfold x2
    refine Keeps.trans ?_ (State.setSpn_keeps _ _ _)
    exact Keeps.refl _
  clear_value x2
  have h5 : Keeps s x3 := by
    unfold x3
    refine Keeps.trans ?_ (State.setSpnState_keeps _ _ _)
    exact h4
  clear_value x3
  refine Keeps.ite ?_ ?_
  · refine Keeps.trans ?_ (State.startAccept_keeps _ _)
    exact h5
  · exact h5

theorem State.spnStart_keeps (s : State) (hd : Nat) :
    Keeps s (State.spnStart s hd) := by
  unfold State.spnStart
  extract_lets +onlyGivenNames x1
  clear_value x1
  refine Keeps.ite ?_ ?_
  · extract_lets +onlyGivenNames x2
    clear_value x2
    refine Keeps.trans ?_ (State.setSpn_keeps _ _ _)
    exact Keeps.refl _
  · refine Keeps.ite ?_ ?_
    · refine Keeps.trans ?_ (State.startAccept_keeps _ _)
      exact Keeps.refl _
    · exact Keeps.refl _

theorem execStart_keeps (h : Half) (n : Nat) (s : State) :
    OutKeeps s (execStart h n s) := by
  unfold execStart
  refine OutKeeps.next ?_
  refine Keeps.trans ?_ (State.spnStart_keeps _ _)
  exact Keeps.refl _

theorem State.spnStop_keeps (s : State) (hd : Nat) (off : Bool) :
    Keeps s (State.spnStop s hd off) := by
  unfold State.spnStop
  extract_lets +onlyGivenNames x1 x2
  clear_value x1
  clear_value x2
  refine Keeps.ite ?_ ?_
  · exact Keeps.refl _
  · refine Keeps.ite ?_ ?_
    · refine Keeps.ite ?_ ?_
      · refine Keeps.trans ?_ (State.setSpnState_keeps _ _ _)
        refine Keeps.trans ?_ (State.setSpn_keeps _ _ _)
        exact Keeps.refl _
      · exact Keeps.refl _
    · extract_lets +onlyGivenNames x3
      have h4 : Keeps s x3 := by
        unfold x3
        refine Keeps.trans ?_ (State.setSpn_keeps _ _ _)
        exact Keeps.refl _
      clear_value x3
      refine Keeps.ite ?_ ?_
      · extract_lets +onlyGivenNames x5 x6
        have h7 : Keeps s x5 := by
          unfold x5
          refine Keeps.trans ?_ (State.dropTaper_keeps _ _)
          exact h4
        clear_value x5
        clear_value x6
        extract_lets +onlyGivenNames x8
        have h9 : Keeps s x8 := by
          unfold x8
          refine Keeps.trans ?_ (State.setSpn_keeps _ _ _)
          exact h7
        clear_value x8
        refine Keeps.ite ?_ ?_
        · refine Keeps.trans ?_ (State.enterStopped_keeps _ _)
          exact h9
        · refine Keeps.trans ?_ (State.setSpnState_keeps _ _ _)
          refine Keeps.trans ?_ (State.parkBoth_keeps _ _)
          exact h9
      · refine Keeps.ite ?_ ?_
        · refine Keeps.trans ?_ (State.enterBrake_keeps _ _)
          refine Keeps.trans ?_ (State.dropTaper_keeps _ _)
          exact h4
        · refine Keeps.ite ?_ ?_
          · extract_lets +onlyGivenNames x10 x11
            have h12 : Keeps s x10 := by
              unfold x10
              refine Keeps.trans ?_ (State.brakeEnd_keeps _ _)
              refine Keeps.trans ?_ (State.dropTaper_keeps _ _)
              exact h4
            clear_value x10
            clear_value x11
            extract_lets +onlyGivenNames x13
            have h14 : Keeps s x13 := by
              unfold x13
              refine Keeps.trans ?_ (State.setSpn_keeps _ _ _)
              exact h12
            clear_value x13
            refine Keeps.trans ?_ (State.setSpnState_keeps _ _ _)
            refine Keeps.trans ?_ (State.parkBoth_keeps _ _)
            exact h14
          · refine Keeps.ite ?_ ?_
            · extract_lets +onlyGivenNames x15
              clear_value x15
              refine Keeps.trans ?_ (State.setSpn_keeps _ _ _)
              exact h4
            · exact h4

theorem execStop_keeps (h : Half) (n : Nat) (s : State) :
    OutKeeps s (execStop h n s) := by
  unfold execStop
  refine OutKeeps.next ?_
  refine Keeps.trans ?_ (State.spnStop_keeps _ _ _)
  exact Keeps.refl _

theorem spindleEnSet_keeps (h : Half) (n : Nat) (s : State) :
    Keeps s (spindleEnSet h n s) := by
  unfold spindleEnSet
  extract_lets +onlyGivenNames x1 x2
  clear_value x1
  have h3 : Keeps s x2 := by
    unfold x2
    refine Keeps.trans ?_ (State.put_keeps _ _ _ _)
    exact Keeps.refl _
  clear_value x2
  refine Keeps.ite ?_ ?_
  · refine Keeps.trans ?_ (State.showTarget_keeps _ _)
    refine Keeps.trans ?_ (State.setSpnState_keeps _ _ _)
    exact h3
  · exact h3

theorem execSpindleEnSet_keeps (h : Half) (n : Nat) (s : State) :
    OutKeeps s (execSpindleEnSet h n s) := by
  unfold execSpindleEnSet
  refine OutKeeps.next ?_
  refine Keeps.trans ?_ (spindleEnSet_keeps _ _ _)
  exact Keeps.refl _

theorem spindleOff_keeps (h : Half) (n : Nat) (s : State) :
    Keeps s (spindleOff h n s) := by
  unfold spindleOff
  extract_lets +onlyGivenNames x1 x2 x3 x4
  clear_value x1
  have h5 : Keeps s x2 := by
    unfold x2
    refine Keeps.trans ?_ (State.put_keeps _ _ _ _)
    exact Keeps.refl _
  clear_value x2
  clear_value x3
  have h6 : Keeps s x4 := by
    unfold x4
    refine Keeps.ite ?_ ?_
    · exact h5
    · refine Keeps.trans ?_ (State.wickAbort_keeps _ _ _ _)
      refine Keeps.trans ?_ (State.wickAbort_keeps _ _ _ _)
      refine Keeps.trans ?_ (State.flag_keeps _ _ _)
      exact h5
  clear_value x4
  refine Keeps.trans ?_ (State.spnStop_keeps _ _ _)
  exact h6

theorem execSpindleOff_keeps (h : Half) (n : Nat) (s : State) :
    OutKeeps s (execSpindleOff h n s) := by
  unfold execSpindleOff
  refine OutKeeps.next ?_
  refine Keeps.trans ?_ (spindleOff_keeps _ _ _)
  exact Keeps.refl _

theorem State.attempt_keeps (s : State) (hd : Nat) (inductive_ : Bool) :
    Keeps s (State.attempt s hd inductive_) := by
  unfold State.attempt
  extract_lets +onlyGivenNames x1 x2 x3 x4 x5 x6 x7
  clear_value x1
  have h8 : Keeps s x2 := by
    unfold x2
    refine Keeps.trans ?_ (State.put_keeps _ _ _ _)
    exact Keeps.refl _
  clear_value x2
  have h9 : Keeps s x3 := by
    unfold x3
    refine Keeps.trans ?_ (State.putB_keeps _ _ _ _)
    exact h8
  clear_value x3
  have h10 : Keeps s x4 := by
    unfold x4
    refine Keeps.trans ?_ (State.count_keeps _ _ _ _ _ _)
    exact h9
  clear_value x4
  clear_value x5
  clear_value x6
  clear_value x7
  refine Keeps.trans ?_ (State.setSpnState_keeps _ _ _)
  refine Keeps.trans ?_ (State.setSpn_keeps _ _ _)
  exact h10

theorem State.catchAttempt_keeps (s : State) (hd : Nat) (try_ : Nat) :
    Keeps s (State.catchAttempt s hd try_) := by
  unfold State.catchAttempt
  extract_lets +onlyGivenNames x1 x2
  have h3 : Keeps s x1 := by
    unfold x1
    refine Keeps.trans ?_ (State.put_keeps _ _ _ _)
    exact Keeps.refl _
  clear_value x1
  clear_value x2
  extract_lets +onlyGivenNames x4
  have h5 : Keeps s x4 := by
    unfold x4
    refine Keeps.trans ?_ (State.setSpn_keeps _ _ _)
    exact h3
  clear_value x4
  refine Keeps.trans ?_ (State.count_keeps _ _ _ _ _ _)
  refine Keeps.trans ?_ (State.setSpnState_keeps _ _ _)
  exact h5

theorem taperSlotGrant_keeps (s : State) :
    Keeps s (taperSlotGrant s) := by
  unfold taperSlotGrant
  split
  · rename_i y1 y2
    exact Keeps.refl _
  · rename_i y3 y4 y5 y6 y7
    extract_lets +onlyGivenNames x8
    clear_value x8
    refine Keeps.ite ?_ ?_
    · exact Keeps.refl _
    · extract_lets +onlyGivenNames x9 x10 x11
      clear_value x9
      have h12 : Keeps s x10 := by
        unfold x10
        refine Keeps.trans ?_ (Keeps.upd (s := s) rfl rfl rfl rfl)
        exact Keeps.refl _
      clear_value x10
      clear_value x11
      extract_lets +onlyGivenNames x13
      have h14 : Keeps s x13 := by
        unfold x13
        refine Keeps.trans ?_ (State.setSpn_keeps _ _ _)
        exact h12
      clear_value x13
      refine Keeps.ite ?_ ?_
      · refine Keeps.trans ?_ (State.catchAttempt_keeps _ _ _)
        exact h14
      · refine Keeps.trans ?_ (State.attempt_keeps _ _ _)
        exact h14

theorem execTaperSlotGrant_keeps (s : State) :
    OutKeeps s (execTaperSlotGrant s) := by
  unfold execTaperSlotGrant
  refine OutKeeps.next ?_
  refine Keeps.trans ?_ (taperSlotGrant_keeps _)
  exact Keeps.refl _

theorem State.enterRamp_keeps (s : State) (hd : Nat) (step : Nat) :
    Keeps s (State.enterRamp s hd step) := by
  unfold State.enterRamp
  extract_lets +onlyGivenNames x1 x2
  clear_value x1
  clear_value x2
  refine Keeps.trans ?_ (State.setSpnState_keeps _ _ _)
  refine Keeps.trans ?_ (State.setSpn_keeps _ _ _)
  exact Keeps.refl _

theorem alignEnd_keeps (h : Half) (n : Nat) (s : State) :
    Keeps s (alignEnd h n s) := by
  unfold alignEnd
  extract_lets +onlyGivenNames x1
  clear_value x1
  refine Keeps.ite ?_ ?_
  · refine Keeps.trans ?_ (State.enterRamp_keeps _ _ _)
    exact Keeps.refl _
  · exact Keeps.refl _

theorem execAlignEnd_keeps (h : Half) (n : Nat) (s : State) :
    OutKeeps s (execAlignEnd h n s) := by
  unfold execAlignEnd
  refine OutKeeps.next ?_
  refine Keeps.trans ?_ (alignEnd_keeps _ _ _)
  exact Keeps.refl _

theorem State.attemptFail_keeps (s : State) (hd : Nat) :
    Keeps s (State.attemptFail s hd) := by
  unfold State.attemptFail
  refine Keeps.trans ?_ (State.setSpnState_keeps _ _ _)
  extract_lets +onlyGivenNames x1
  clear_value x1
  refine Keeps.trans ?_ (State.setSpn_keeps _ _ _)
  exact Keeps.refl _

theorem senseEnd_keeps (h : Half) (n : Nat) (peaks : List Nat) (s : State) :
    Keeps s (senseEnd h n peaks s) := by
  unfold senseEnd
  extract_lets +onlyGivenNames x1
  clear_value x1
  refine Keeps.ite ?_ ?_
  · exact Keeps.refl _
  · extract_lets +onlyGivenNames x2 x3 x4
    clear_value x2
    clear_value x3
    clear_value x4
    refine Keeps.ite ?_ ?_
    · refine Keeps.trans ?_ (State.attemptFail_keeps _ _)
      exact Keeps.refl _
    · refine Keeps.trans ?_ (State.enterRamp_keeps _ _ _)
      refine Keeps.trans ?_ (State.put_keeps _ _ _ _)
      exact Keeps.refl _

theorem execSenseEnd_keeps (h : Half) (n : Nat) (peaks : List Nat) (s : State) :
    OutKeeps s (execSenseEnd h n peaks s) := by
  unfold execSenseEnd
  refine OutKeeps.next ?_
  refine Keeps.trans ?_ (senseEnd_keeps _ _ _ _)
  exact Keeps.refl _

theorem rampHandover_keeps (h : Half) (n : Nat) (s : State) :
    Keeps s (rampHandover h n s) := by
  unfold rampHandover
  extract_lets +onlyGivenNames x1 x2
  clear_value x1
  clear_value x2
  refine Keeps.ite ?_ ?_
  · extract_lets +onlyGivenNames x3
    have h4 : Keeps s x3 := by
      unfold x3
      refine Keeps.trans ?_ (State.showTarget_keeps _ _)
      exact Keeps.refl _
    clear_value x3
    refine Keeps.trans ?_ (State.setSpnState_keeps _ _ _)
    refine Keeps.trans ?_ (State.setSpn_keeps _ _ _)
    exact h4
  · exact Keeps.refl _

theorem execRampHandover_keeps (h : Half) (n : Nat) (s : State) :
    OutKeeps s (execRampHandover h n s) := by
  unfold execRampHandover
  refine OutKeeps.next ?_
  refine Keeps.trans ?_ (rampHandover_keeps _ _ _)
  exact Keeps.refl _

theorem rampTimeout_keeps (h : Half) (n : Nat) (s : State) :
    Keeps s (rampTimeout h n s) := by
  unfold rampTimeout
  extract_lets +onlyGivenNames x1 x2
  clear_value x1
  clear_value x2
  refine Keeps.ite ?_ ?_
  · exact Keeps.refl _
  · extract_lets +onlyGivenNames x3
    have h4 : Keeps s x3 := by
      unfold x3
      refine Keeps.ite ?_ ?_
      · exact Keeps.refl _
      · refine Keeps.trans ?_ (State.count_keeps _ _ _ _ _ _)
        refine Keeps.trans ?_ (State.flag_keeps _ _ _)
        exact Keeps.refl _
    clear_value x3
    refine Keeps.trans ?_ (State.attemptFail_keeps _ _)
    exact h4

theorem execRampTimeout_keeps (h : Half) (n : Nat) (s : State) :
    OutKeeps s (execRampTimeout h n s) := by
  unfold execRampTimeout
  refine OutKeeps.next ?_
  refine Keeps.trans ?_ (rampTimeout_keeps _ _ _)
  exact Keeps.refl _

theorem coastEnd_keeps (h : Half) (n : Nat) (s : State) :
    Keeps s (coastEnd h n s) := by
  unfold coastEnd
  extract_lets +onlyGivenNames x1 x2
  clear_value x1
  clear_value x2
  refine Keeps.ite ?_ ?_
  · exact Keeps.refl _
  · refine Keeps.ite ?_ ?_
    · refine Keeps.trans ?_ (State.attempt_keeps _ _ _)
      exact Keeps.refl _
    · refine Keeps.trans ?_ (State.setSpnState_keeps _ _ _)
      refine Keeps.trans ?_ (State.chimney_keeps _ _ _ _ _ _)
      refine Keeps.trans ?_ (State.flag_keeps _ _ _)
      refine Keeps.trans ?_ (State.dropTaper_keeps _ _)
      exact Keeps.refl _

theorem execCoastEnd_keeps (h : Half) (n : Nat) (s : State) :
    OutKeeps s (execCoastEnd h n s) := by
  unfold execCoastEnd
  refine OutKeeps.next ?_
  refine Keeps.trans ?_ (coastEnd_keeps _ _ _)
  exact Keeps.refl _

theorem taperEnd_keeps (h : Half) (n : Nat) (rdson : Nat) (s : State) :
    Keeps s (taperEnd h n rdson s) := by
  unfold taperEnd
  extract_lets +onlyGivenNames x1 x2 x3
  clear_value x1
  clear_value x2
  clear_value x3
  refine Keeps.ite ?_ ?_
  · extract_lets +onlyGivenNames x4 x5 x6 x7 x8
    clear_value x4
    have h9 : Keeps s x5 := by
      unfold x5
      refine Keeps.trans ?_ (State.dropTaper_keeps _ _)
      exact Keeps.refl _
    clear_value x5
    clear_value x6
    have h10 : Keeps s x7 := by
      unfold x7
      refine Keeps.trans ?_ (State.setSpn_keeps _ _ _)
      exact h9
    clear_value x7
    have h11 : Keeps s x8 := by
      unfold x8
      refine Keeps.trans ?_ (State.put_keeps _ _ _ _)
      refine Keeps.trans ?_ (State.flag_keeps _ _ _)
      exact h10
    clear_value x8
    extract_lets +onlyGivenNames x12
    have h13 : Keeps s x12 := by
      unfold x12
      refine Keeps.trans ?_ (State.lampMeasure_keeps _ _ _ _)
      refine Keeps.trans ?_ (State.put_keeps _ _ _ _)
      exact h11
    clear_value x12
    refine Keeps.trans ?_ (State.setSpnState_keeps _ _ _)
    exact h13
  · exact Keeps.refl _

theorem execTaperEnd_keeps (h : Half) (n : Nat) (rdson : Nat) (s : State) :
    OutKeeps s (execTaperEnd h n rdson s) := by
  unfold execTaperEnd
  refine OutKeeps.next ?_
  refine Keeps.trans ?_ (taperEnd_keeps _ _ _ _)
  exact Keeps.refl _

theorem State.stepJudge_keeps (s : State) (hd : Nat) (o : StepObs) :
    Keeps s (State.stepJudge s hd o) := by
  unfold State.stepJudge
  extract_lets +onlyGivenNames x1
  clear_value x1
  split
  · rename_i y2 y3 y4 y5
    extract_lets +onlyGivenNames x6 x7
    have h8 : Keeps s x6 := by
      unfold x6
      refine Keeps.trans ?_ (State.setSpn_keeps _ _ _)
      exact Keeps.refl _
    clear_value x6
    have h9 : Keeps s x7 := by
      unfold x7
      refine Keeps.ite ?_ ?_
      · refine Keeps.trans ?_ (State.count_keeps _ _ _ _ _ _)
        exact h8
      · exact h8
    clear_value x7
    refine Keeps.ite ?_ ?_
    · refine Keeps.trans ?_ (State.count_keeps _ _ _ _ _ _)
      exact h9
    · exact h9

theorem commutationStep_keeps (h : Half) (n : Nat) (o : StepObs) (s : State) :
    Keeps s (commutationStep h n o s) := by
  unfold commutationStep
  extract_lets +onlyGivenNames x1 x2 x3 x4
  clear_value x1
  clear_value x2
  clear_value x3
  have h5 : Keeps s x4 := by
    unfold x4
    refine Keeps.ite ?_ ?_
    · refine Keeps.trans ?_ (State.stepJudge_keeps _ _ _)
      exact Keeps.refl _
    · refine Keeps.trans ?_ (State.setSpn_keeps _ _ _)
      exact Keeps.refl _
  clear_value x4
  extract_lets +onlyGivenNames x6
  have h7 : Keeps s x6 := by
    unfold x6
    refine Keeps.trans ?_ (State.put_keeps _ _ _ _)
    exact h5
  clear_value x6
  refine Keeps.ite ?_ ?_
  · exact h7
  · extract_lets +onlyGivenNames x8 x9 x10 x11 x12 x13
    clear_value x8
    clear_value x9
    have h14 : Keeps s x10 := by
      unfold x10
      refine Keeps.trans ?_ (State.put_keeps _ _ _ _)
      exact h7
    clear_value x10
    clear_value x11
    clear_value x12
    have h15 : Keeps s x13 := by
      unfold x13
      refine Keeps.trans ?_ (State.setSpn_keeps _ _ _)
      exact h14
    clear_value x13
    refine Keeps.trans ?_ (State.speedLow_keeps _ _ _)
    refine Keeps.trans ?_ (State.putB_keeps _ _ _ _)
    exact h15

theorem execCommutationStep_keeps (h : Half) (n : Nat) (o : StepObs) (s : State) :
    OutKeeps s (execCommutationStep h n o s) := by
  unfold execCommutationStep
  refine OutKeeps.next ?_
  refine Keeps.trans ?_ (commutationStep_keeps _ _ _ _)
  exact Keeps.refl _

theorem skipRun_keeps (h : Half) (n : Nat) (s : State) :
    Keeps s (skipRun h n s) := by
  unfold skipRun
  extract_lets +onlyGivenNames x1 x2
  clear_value x1
  clear_value x2
  refine Keeps.ite ?_ ?_
  · refine Keeps.trans ?_ (State.flag_keeps _ _ _)
    refine Keeps.trans ?_ (State.setSpn_keeps _ _ _)
    exact Keeps.refl _
  · exact Keeps.refl _

theorem execSkipRun_keeps (h : Half) (n : Nat) (s : State) :
    OutKeeps s (execSkipRun h n s) := by
  unfold execSkipRun
  refine OutKeeps.next ?_
  refine Keeps.trans ?_ (skipRun_keeps _ _ _)
  exact Keeps.refl _

theorem rotorLost_keeps (h : Half) (n : Nat) (s : State) :
    Keeps s (rotorLost h n s) := by
  unfold rotorLost
  extract_lets +onlyGivenNames x1 x2 x3 x4
  clear_value x1
  clear_value x2
  clear_value x3
  clear_value x4
  refine Keeps.ite ?_ ?_
  · extract_lets +onlyGivenNames x5 x6 x7
    have h8 : Keeps s x5 := by
      unfold x5
      refine Keeps.trans ?_ (State.brakeEnd_keeps _ _)
      exact Keeps.refl _
    clear_value x5
    clear_value x6
    have h9 : Keeps s x7 := by
      unfold x7
      refine Keeps.trans ?_ (State.setSpn_keeps _ _ _)
      exact h8
    clear_value x7
    extract_lets +onlyGivenNames x10
    have h11 : Keeps s x10 := by
      unfold x10
      refine Keeps.trans ?_ (State.put_keeps _ _ _ _)
      refine Keeps.trans ?_ (State.chimney_keeps _ _ _ _ _ _)
      refine Keeps.trans ?_ (State.flag_keeps _ _ _)
      exact h9
    clear_value x10
    refine Keeps.trans ?_ (State.catchAttempt_keeps _ _ _)
    refine Keeps.trans ?_ (State.count_keeps _ _ _ _ _ _)
    exact h11
  · exact Keeps.refl _

theorem execRotorLost_keeps (h : Half) (n : Nat) (s : State) :
    OutKeeps s (execRotorLost h n s) := by
  unfold execRotorLost
  refine OutKeeps.next ?_
  refine Keeps.trans ?_ (rotorLost_keeps _ _ _)
  exact Keeps.refl _

theorem State.dieFlag_keeps (s : State) (h : Half) (f : Fld) :
    Keeps s (State.dieFlag s h f) := by
  unfold State.dieFlag
  refine Keeps.ite ?_ ?_
  · refine Keeps.trans ?_ (State.flag_keeps _ _ _)
    exact Keeps.refl _
  · exact Keeps.refl _

theorem bridgeOcp_keeps (h : Half) (n : Nat) (s : State) :
    Keeps s (bridgeOcp h n s) := by
  unfold bridgeOcp
  extract_lets +onlyGivenNames x1 x2
  clear_value x1
  clear_value x2
  extract_lets +onlyGivenNames x3
  have h4 : Keeps s x3 := by
    unfold x3
    refine Keeps.trans ?_ (State.setSpn_keeps _ _ _)
    exact Keeps.refl _
  clear_value x3
  refine Keeps.trans ?_ (State.dieFlag_keeps _ _ _)
  refine Keeps.trans ?_ (State.flag_keeps _ _ _)
  exact h4

theorem execBridgeOcp_keeps (h : Half) (n : Nat) (s : State) :
    OutKeeps s (execBridgeOcp h n s) := by
  unfold execBridgeOcp
  refine OutKeeps.next ?_
  refine Keeps.trans ?_ (bridgeOcp_keeps _ _ _)
  exact Keeps.refl _

theorem State.fieldWeaken_keeps (s : State) (hd : Nat) (duty : Nat) (id : Int) :
    Keeps s (State.fieldWeaken s hd duty id) := by
  unfold State.fieldWeaken
  extract_lets +onlyGivenNames x1 x2 x3 x4 x5 x6 x7 x8
  clear_value x1
  clear_value x2
  clear_value x3
  clear_value x4
  clear_value x5
  clear_value x6
  have h9 : Keeps s x7 := by
    unfold x7
    refine Keeps.trans ?_ (State.put_keeps _ _ _ _)
    exact Keeps.refl _
  clear_value x7
  clear_value x8
  refine Keeps.ite ?_ ?_
  · exact h9
  · refine Keeps.ite ?_ ?_
    · refine Keeps.trans ?_ (State.put_keeps _ _ _ _)
      exact h9
    · extract_lets +onlyGivenNames x10 x11 x12 x13
      clear_value x10
      clear_value x11
      clear_value x12
      have h14 : Keeps s x13 := by
        unfold x13
        refine Keeps.trans ?_ (State.put_keeps _ _ _ _)
        refine Keeps.trans ?_ (State.put_keeps _ _ _ _)
        exact h9
      clear_value x13
      refine Keeps.ite ?_ ?_
      · refine Keeps.trans ?_ (State.flag_keeps _ _ _)
        exact h14
      · exact h14

theorem State.refSlew_keeps (s : State) (hd : Nat) :
    Keeps s (State.refSlew s hd) := by
  unfold State.refSlew
  extract_lets +onlyGivenNames x1 x2 x3 x4
  clear_value x1
  clear_value x2
  clear_value x3
  clear_value x4
  refine Keeps.ite ?_ ?_
  · refine Keeps.trans ?_ (State.setSpn_keeps _ _ _)
    exact Keeps.refl _
  · refine Keeps.ite ?_ ?_
    · exact Keeps.refl _
    · refine Keeps.ite ?_ ?_
      · refine Keeps.trans ?_ (State.setSpn_keeps _ _ _)
        exact Keeps.refl _
      · extract_lets +onlyGivenNames x5 x6 x7 x8 x9 x10
        clear_value x5
        clear_value x6
        clear_value x7
        clear_value x8
        clear_value x9
        clear_value x10
        refine Keeps.trans ?_ (State.setSpn_keeps _ _ _)
        exact Keeps.refl _

theorem electricalCycle_keeps (h : Half) (n : Nat) (duty : Nat) (id : Int) (s : State) :
    Keeps s (electricalCycle h n duty id s) := by
  unfold electricalCycle
  extract_lets +onlyGivenNames x1 x2
  clear_value x1
  clear_value x2
  refine Keeps.ite ?_ ?_
  · exact Keeps.refl _
  · extract_lets +onlyGivenNames x3 x4 x5 x6 x7
    have h8 : Keeps s x3 := by
      unfold x3
      refine Keeps.trans ?_ (State.refSlew_keeps _ _)
      refine Keeps.trans ?_ (State.showTarget_keeps _ _)
      refine Keeps.trans ?_ (State.fieldWeaken_keeps _ _ _ _)
      exact Keeps.refl _
    clear_value x3
    clear_value x4
    clear_value x5
    clear_value x6
    have h9 : Keeps s x7 := by
      unfold x7
      refine Keeps.trans ?_ (State.setSpn_keeps _ _ _)
      exact h8
    clear_value x7
    refine Keeps.ite ?_ ?_
    · refine Keeps.ite ?_ ?_
      · refine Keeps.trans ?_ (State.brakeChoose_keeps _ _)
        exact h9
      · refine Keeps.ite ?_ ?_
        · refine Keeps.trans ?_ (State.brakeEnd_keeps _ _)
          exact h9
        · exact h9
    · exact h9

theorem execElectricalCycle_keeps (h : Half) (n : Nat) (duty : Nat) (id : Int) (s : State) :
    OutKeeps s (execElectricalCycle h n duty id s) := by
  unfold execElectricalCycle
  refine OutKeeps.next ?_
  refine Keeps.trans ?_ (electricalCycle_keeps _ _ _ _ _)
  exact Keeps.refl _

theorem State.keTake_keeps (s : State) (hd : Nat) (keRaw : Nat) (temp : Int) :
    Keeps1 s (State.keTake s hd keRaw temp) := by
  unfold State.keTake
  extract_lets +onlyGivenNames x1 x2 x3
  clear_value x1
  clear_value x2
  clear_value x3
  split
  · rename_i y4 y5 y6 y7
    have h8 : Keeps s y6 := by
      refine Keeps2.use ?_ y7
      refine Keeps2.trans ?_ (State.takeFree_keeps _)
      exact Keeps.refl _
    extract_lets +onlyGivenNames x9 x10 x11 x12 x13
    clear_value x9
    clear_value x10
    have h14 : Keeps s x11 := by
      unfold x11
      refine Keeps.trans ?_ (State.put_keeps _ _ _ _)
      refine Keeps.trans ?_ (State.put_keeps _ _ _ _)
      exact h8
    clear_value x11
    have h15 : Keeps s x12 := by
      unfold x12
      refine Keeps.trans ?_ (State.count_keeps _ _ _ _ _ _)
      exact h14
    clear_value x12
    have h16 : Keeps s x13 := by
      unfold x13
      refine Keeps.ite ?_ ?_
      · refine Keeps.trans ?_ (State.flag_keeps _ _ _)
        exact h15
      · exact h15
    clear_value x13
    refine Keeps1.mk ?_
    refine Keeps.trans ?_ (State.lampMeasure_keeps _ _ _ _)
    exact h16

theorem keMeasure_keeps (h : Half) (n : Nat) (keRaw : Nat) (temp : Int) (s : State) :
    Keeps s (keMeasure h n keRaw temp s) := by
  unfold keMeasure
  extract_lets +onlyGivenNames x1
  clear_value x1
  refine Keeps.ite ?_ ?_
  · exact Keeps.refl _
  · refine Keeps.ite ?_ ?_
    · extract_lets +onlyGivenNames x2
      clear_value x2
      refine Keeps.trans ?_ (State.setSpn_keeps _ _ _)
      exact Keeps.refl _
    · split
      · rename_i y3 y4 y5 y6 y7
        have h8 : Keeps s y4 := by
          refine Keeps1.use ?_ y7
          refine Keeps1.trans ?_ (State.keTake_keeps _ _ _ _)
          exact Keeps.refl _
        extract_lets +onlyGivenNames x9
        clear_value x9
        extract_lets +onlyGivenNames x10
        have h11 : Keeps s x10 := by
          unfold x10
          refine Keeps.trans ?_ (State.setSpn_keeps _ _ _)
          exact h8
        clear_value x10
        refine Keeps.ite ?_ ?_
        · extract_lets +onlyGivenNames x12
          clear_value x12
          refine Keeps.trans ?_ (State.setSpn_keeps _ _ _)
          exact h11
        · exact h11

theorem execKeMeasure_keeps (h : Half) (n : Nat) (keRaw : Nat) (temp : Int) (s : State) :
    OutKeeps s (execKeMeasure h n keRaw temp s) := by
  unfold execKeMeasure
  refine OutKeeps.next ?_
  refine Keeps.trans ?_ (keMeasure_keeps _ _ _ _ _)
  exact Keeps.refl _

theorem keRepeat_keeps (h : Half) (n : Nat) (keRaw : Nat) (temp : Int) (s : State) :
    Keeps s (keRepeat h n keRaw temp s) := by
  unfold keRepeat
  extract_lets +onlyGivenNames x1 x2
  clear_value x1
  clear_value x2
  refine Keeps.ite ?_ ?_
  · exact Keeps.refl _
  · refine Keeps.ite ?_ ?_
    · extract_lets +onlyGivenNames x3
      clear_value x3
      refine Keeps.trans ?_ (State.setSpn_keeps _ _ _)
      exact Keeps.refl _
    · split
      · rename_i y4 y5 y6 y7 y8
        have h9 : Keeps s y5 := by
          refine Keeps1.use ?_ y8
          refine Keeps1.trans ?_ (State.keTake_keeps _ _ _ _)
          exact Keeps.refl _
        extract_lets +onlyGivenNames x10 x11 x12 x13
        clear_value x10
        clear_value x11
        clear_value x12
        clear_value x13
        refine Keeps.ite ?_ ?_
        · refine Keeps.trans ?_ (State.setSpn_keeps _ _ _)
          exact h9
        · extract_lets +onlyGivenNames x14
          have h15 : Keeps s x14 := by
            unfold x14
            refine Keeps.trans ?_ (State.setSpn_keeps _ _ _)
            exact h9
          clear_value x14
          refine Keeps.ite ?_ ?_
          · extract_lets +onlyGivenNames x16
            have h17 : Keeps s x16 := by
              unfold x16
              refine Keeps.trans ?_ (State.put_keeps _ _ _ _)
              refine Keeps.trans ?_ (State.flag_keeps _ _ _)
              exact h15
            clear_value x16
            refine Keeps.trans ?_ (State.showTarget_keeps _ _)
            refine Keeps.trans ?_ (State.chimney_keeps _ _ _ _ _ _)
            exact h17
          · exact h15

theorem execKeRepeat_keeps (h : Half) (n : Nat) (keRaw : Nat) (temp : Int) (s : State) :
    OutKeeps s (execKeRepeat h n keRaw temp s) := by
  unfold execKeRepeat
  refine OutKeeps.next ?_
  refine Keeps.trans ?_ (keRepeat_keeps _ _ _ _ _)
  exact Keeps.refl _

theorem catchEstimate_keeps (h : Half) (n : Nat) (speed1 : Nat) (angle1 : Nat) (speed2 : Nat) (angle2 : Nat)
    (s : State) :
    Keeps s (catchEstimate h n speed1 angle1 speed2 angle2 s) := by
  unfold catchEstimate
  extract_lets +onlyGivenNames x1 x2 x3 x4 x5
  clear_value x1
  clear_value x2
  clear_value x3
  clear_value x4
  clear_value x5
  refine Keeps.ite ?_ ?_
  · extract_lets +onlyGivenNames x6 x7
    clear_value x6
    clear_value x7
    refine Keeps.trans ?_ (State.showBridge_keeps _ _)
    refine Keeps.trans ?_ (State.setSpn_keeps _ _ _)
    exact Keeps.refl _
  · exact Keeps.refl _

theorem execCatchEstimate_keeps (h : Half) (n : Nat) (speed1 : Nat) (angle1 : Nat) (speed2 : Nat) (angle2 : Nat)
    (s : State) :
    OutKeeps s (execCatchEstimate h n speed1 angle1 speed2 angle2 s) := by
  unfold execCatchEstimate
  refine OutKeeps.next ?_
  refine Keeps.trans ?_ (catchEstimate_keeps _ _ _ _ _ _ _)
  exact Keeps.refl _

theorem catchOk_keeps (h : Half) (n : Nat) (s : State) :
    Keeps s (catchOk h n s) := by
  unfold catchOk
  extract_lets +onlyGivenNames x1 x2 x3
  clear_value x1
  clear_value x2
  clear_value x3
  refine Keeps.ite ?_ ?_
  · extract_lets +onlyGivenNames x4 x5
    have h6 : Keeps s x4 := by
      unfold x4
      refine Keeps.trans ?_ (State.put_keeps _ _ _ _)
      refine Keeps.trans ?_ (State.flag_keeps _ _ _)
      exact Keeps.refl _
    clear_value x4
    have h7 : Keeps s x5 := by
      unfold x5
      refine Keeps.trans ?_ (State.setSpn_keeps _ _ _)
      exact h6
    clear_value x5
    refine Keeps.trans ?_ (State.setSpnState_keeps _ _ _)
    exact h7
  · exact Keeps.refl _

theorem execCatchOk_keeps (h : Half) (n : Nat) (s : State) :
    OutKeeps s (execCatchOk h n s) := by
  unfold execCatchOk
  refine OutKeeps.next ?_
  refine Keeps.trans ?_ (catchOk_keeps _ _ _)
  exact Keeps.refl _

theorem catchFail_keeps (h : Half) (n : Nat) (s : State) :
    Keeps s (catchFail h n s) := by
  unfold catchFail
  extract_lets +onlyGivenNames x1 x2 x3
  clear_value x1
  clear_value x2
  clear_value x3
  refine Keeps.ite ?_ ?_
  · exact Keeps.refl _
  · extract_lets +onlyGivenNames x4
    clear_value x4
    refine Keeps.ite ?_ ?_
    · refine Keeps.trans ?_ (State.catchAttempt_keeps _ _ _)
      exact Keeps.refl _
    · extract_lets +onlyGivenNames x5 x6
      have h7 : Keeps s x5 := by
        unfold x5
        refine Keeps.trans ?_ (State.flag_keeps _ _ _)
        refine Keeps.trans ?_ (State.dropTaper_keeps _ _)
        exact Keeps.refl _
      clear_value x5
      clear_value x6
      extract_lets +onlyGivenNames x8
      have h9 : Keeps s x8 := by
        unfold x8
        refine Keeps.trans ?_ (State.setSpn_keeps _ _ _)
        exact h7
      clear_value x8
      refine Keeps.trans ?_ (State.setSpnState_keeps _ _ _)
      refine Keeps.trans ?_ (State.parkBoth_keeps _ _)
      exact h9

theorem execCatchFail_keeps (h : Half) (n : Nat) (s : State) :
    OutKeeps s (execCatchFail h n s) := by
  unfold execCatchFail
  refine OutKeeps.next ?_
  refine Keeps.trans ?_ (catchFail_keeps _ _ _)
  exact Keeps.refl _

theorem parkRpmReached_keeps (h : Half) (n : Nat) (s : State) :
    Keeps s (parkRpmReached h n s) := by
  unfold parkRpmReached
  extract_lets +onlyGivenNames x1 x2
  clear_value x1
  clear_value x2
  refine Keeps.ite ?_ ?_
  · refine Keeps.trans ?_ (State.parkBoth_keeps _ _)
    refine Keeps.trans ?_ (State.setSpn_keeps _ _ _)
    exact Keeps.refl _
  · exact Keeps.refl _

theorem execParkRpmReached_keeps (h : Half) (n : Nat) (s : State) :
    OutKeeps s (execParkRpmReached h n s) := by
  unfold execParkRpmReached
  refine OutKeeps.next ?_
  refine Keeps.trans ?_ (parkRpmReached_keeps _ _ _)
  exact Keeps.refl _

theorem brakeStart_keeps (h : Half) (n : Nat) (s : State) :
    Keeps s (brakeStart h n s) := by
  unfold brakeStart
  extract_lets +onlyGivenNames x1 x2
  clear_value x1
  clear_value x2
  refine Keeps.ite ?_ ?_
  · refine Keeps.trans ?_ (State.enterBrake_keeps _ _)
    exact Keeps.refl _
  · exact Keeps.refl _

theorem execBrakeStart_keeps (h : Half) (n : Nat) (s : State) :
    OutKeeps s (execBrakeStart h n s) := by
  unfold execBrakeStart
  refine OutKeeps.next ?_
  refine Keeps.trans ?_ (brakeStart_keeps _ _ _)
  exact Keeps.refl _

theorem brakeSlotGrant_keeps (s : State) :
    Keeps s (brakeSlotGrant s) := by
  unfold brakeSlotGrant
  split
  · rename_i y1 y2
    exact Keeps.refl _
  · rename_i y3 y4 y5 y6
    refine Keeps.ite ?_ ?_
    · exact Keeps.refl _
    · refine Keeps.trans ?_ (State.brakeChoose_keeps _ _)
      extract_lets +onlyGivenNames x7
      clear_value x7
      refine Keeps.trans ?_ (Keeps.upd (s := s) rfl rfl rfl rfl)
      exact Keeps.refl _

theorem execBrakeSlotGrant_keeps (s : State) :
    OutKeeps s (execBrakeSlotGrant s) := by
  unfold execBrakeSlotGrant
  refine OutKeeps.next ?_
  refine Keeps.trans ?_ (brakeSlotGrant_keeps _)
  exact Keeps.refl _

theorem stopRpmReached_keeps (h : Half) (n : Nat) (s : State) :
    Keeps s (stopRpmReached h n s) := by
  unfold stopRpmReached
  extract_lets +onlyGivenNames x1 x2
  clear_value x1
  clear_value x2
  refine Keeps.ite ?_ ?_
  · refine Keeps.trans ?_ (State.showBridge_keeps _ _)
    refine Keeps.trans ?_ (State.setSpn_keeps _ _ _)
    refine Keeps.trans ?_ (State.dropBrake_keeps _ _)
    exact Keeps.refl _
  · exact Keeps.refl _

theorem execStopRpmReached_keeps (h : Half) (n : Nat) (s : State) :
    OutKeeps s (execStopRpmReached h n s) := by
  unfold execStopRpmReached
  refine OutKeeps.next ?_
  refine Keeps.trans ?_ (stopRpmReached_keeps _ _ _)
  exact Keeps.refl _

theorem State.ladderChoose_keeps (s : State) (hd : Nat) :
    Keeps s (State.ladderChoose s hd) := by
  unfold State.ladderChoose
  extract_lets +onlyGivenNames x1
  clear_value x1
  refine Keeps.ite ?_ ?_
  · exact Keeps.refl _
  · refine Keeps.ite ?_ ?_
    · refine Keeps.ite ?_ ?_
      · refine Keeps.trans ?_ (State.enterBrake_keeps _ _)
        refine Keeps.trans ?_ (State.setSpn_keeps _ _ _)
        exact Keeps.refl _
      · refine Keeps.trans ?_ (State.enterStopped_keeps _ _)
        exact Keeps.refl _
    · refine Keeps.ite ?_ ?_
      · refine Keeps.ite ?_ ?_
        · exact Keeps.refl _
        · extract_lets +onlyGivenNames x2
          have h3 : Keeps s x2 := by
            unfold x2
            refine Keeps.trans ?_ (State.put_keeps _ _ _ _)
            exact Keeps.refl _
          clear_value x2
          refine Keeps.trans ?_ (State.requestTaper_keeps _ _)
          refine Keeps.trans ?_ (State.setSpnState_keeps _ _ _)
          refine Keeps.trans ?_ (State.setSpn_keeps _ _ _)
          exact h3
      · refine Keeps.ite ?_ ?_
        · refine Keeps.trans ?_ (State.catchAttempt_keeps _ _ _)
          refine Keeps.trans ?_ (State.setSpn_keeps _ _ _)
          exact Keeps.refl _
        · refine Keeps.ite ?_ ?_
          · refine Keeps.trans ?_ (State.enterStopped_keeps _ _)
            exact Keeps.refl _
          · exact Keeps.refl _

theorem speedBelow30_keeps (h : Half) (n : Nat) (s : State) :
    Keeps s (speedBelow30 h n s) := by
  unfold speedBelow30
  extract_lets +onlyGivenNames x1 x2 x3 x4
  clear_value x1
  clear_value x2
  clear_value x3
  clear_value x4
  refine Keeps.ite ?_ ?_
  · exact Keeps.refl _
  · refine Keeps.ite ?_ ?_
    · extract_lets +onlyGivenNames x5
      clear_value x5
      extract_lets +onlyGivenNames x6
      have h7 : Keeps s x6 := by
        unfold x6
        refine Keeps.trans ?_ (State.setSpn_keeps _ _ _)
        refine Keeps.trans ?_ (State.brakeEnd_keeps _ _)
        exact Keeps.refl _
      clear_value x6
      refine Keeps.ite ?_ ?_
      · refine Keeps.trans ?_ (State.enterStopped_keeps _ _)
        exact h7
      · extract_lets +onlyGivenNames x8
        have h9 : Keeps s x8 := by
          unfold x8
          refine Keeps.trans ?_ (State.count_keeps _ _ _ _ _ _)
          exact h7
        clear_value x8
        refine Keeps.ite ?_ ?_
        · refine Keeps.trans ?_ (State.setSpnState_keeps _ _ _)
          extract_lets +onlyGivenNames x10
          clear_value x10
          refine Keeps.trans ?_ (State.setSpn_keeps _ _ _)
          exact h9
        · refine Keeps.trans ?_ (State.enterStopped_keeps _ _)
          exact h9
    · refine Keeps.ite ?_ ?_
      · refine Keeps.trans ?_ (State.requestTaper_keeps _ _)
        refine Keeps.trans ?_ (State.setSpn_keeps _ _ _)
        exact Keeps.refl _
      · refine Keeps.ite ?_ ?_
        · refine Keeps.trans ?_ (State.ladderChoose_keeps _ _)
          exact Keeps.refl _
        · exact Keeps.refl _

theorem execSpeedBelow30rpm_keeps (h : Half) (n : Nat) (s : State) :
    OutKeeps s (execSpeedBelow30rpm h n s) := by
  unfold execSpeedBelow30rpm
  refine OutKeeps.next ?_
  refine Keeps.trans ?_ (speedBelow30_keeps _ _ _)
  exact Keeps.refl _

end Sys2Proof.Machine
end

