-- ==== Sys2Proof/Laws/KeepsMotorBus.lean ====
section
/-! SUPPORT. What `Keeps` says of every operation of Machine/MotorBus.lean. -/

namespace Sys2Proof.Machine

theorem State.diesFlag_keeps (s : State) (f : Fld) :
    Keeps s (State.diesFlag s f) := by
  unfold State.diesFlag
  refine Keeps.trans ?_ (State.dieFlag_keeps _ _ _)
  refine Keeps.trans ?_ (State.dieFlag_keeps _ _ _)
  exact Keeps.refl _

theorem State.setVbus_keeps (s : State) (mv : Nat) :
    Keeps s (State.setVbus s mv) := by
  unfold State.setVbus
  extract_lets +onlyGivenNames x1
  have h2 : ∀ v3 v4, Keeps v3 (x1 v3 v4) := by
    intro v3 v4
    unfold x1
    refine Keeps.ite ?_ ?_
    · refine Keeps.trans ?_ (State.peak_keeps _ _ _ _)
      exact Keeps.refl _
    · exact Keeps.refl _
  clear_value x1
  refine Keeps.trans ?_ (h2 _ _)
  refine Keeps.trans ?_ (h2 _ _)
  extract_lets +onlyGivenNames x5
  clear_value x5
  refine Keeps.trans ?_ (Keeps.upd (s := s) rfl rfl rfl rfl)
  exact Keeps.refl _

theorem State.ladderEvent_keeps (s : State) (step : Nat) (mv : Nat) (rising : Bool) :
    Keeps s (State.ladderEvent s step mv rising) := by
  unfold State.ladderEvent
  refine Keeps.trans ?_ (State.event_keeps _ _ _ _ _)
  exact Keeps.refl _

theorem State.ladderReach_keeps (s : State) (step : Nat) (mv : Nat) (f : Fld) :
    Keeps s (State.ladderReach s step mv f) := by
  unfold State.ladderReach
  extract_lets +onlyGivenNames x1 x2
  have h3 : Keeps s x1 := by
    unfold x1
    refine Keeps.trans ?_ (State.setVbus_keeps _ _)
    exact Keeps.refl _
  clear_value x1
  clear_value x2
  extract_lets +onlyGivenNames x4
  have h5 : Keeps s x4 := by
    unfold x4
    refine Keeps.trans ?_ (Keeps.upd (s := x1) rfl rfl rfl rfl)
    exact h3
  clear_value x4
  refine Keeps.trans ?_ (State.mantleMsg_keeps _ _ _ _ _ _)
  refine Keeps.trans ?_ (State.ladderEvent_keeps _ _ _ _)
  refine Keeps.trans ?_ (State.diesFlag_keeps _ _)
  exact h5

theorem ladderStep1_keeps (mv : Nat) (s : State) :
    Keeps s (ladderStep1 mv s) := by
  unfold ladderStep1
  extract_lets +onlyGivenNames x1
  have h2 : Keeps s x1 := by
    unfold x1
    refine Keeps.trans ?_ (State.ladderReach_keeps _ _ _ _)
    exact Keeps.refl _
  clear_value x1
  extract_lets +onlyGivenNames x3
  clear_value x3
  refine Keeps.trans ?_ (Keeps.upd (s := x1) rfl rfl rfl rfl)
  exact h2

theorem execLadderStep1_keeps (mv : Nat) (s : State) :
    OutKeeps s (execLadderStep1 mv s) := by
  unfold execLadderStep1
  refine OutKeeps.next ?_
  refine Keeps.trans ?_ (ladderStep1_keeps _ _)
  exact Keeps.refl _

theorem chopperOff_keeps (mv : Nat) (joules : Nat) (s : State) :
    Keeps s (chopperOff mv joules s) := by
  unfold chopperOff
  extract_lets +onlyGivenNames x1
  have h2 : Keeps s x1 := by
    unfold x1
    refine Keeps.trans ?_ (State.setVbus_keeps _ _)
    exact Keeps.refl _
  clear_value x1
  refine Keeps.ite ?_ ?_
  · exact h2
  · extract_lets +onlyGivenNames x3 x4
    have h5 : Keeps s x3 := by
      unfold x3
      refine Keeps.trans ?_ (State.ladderEvent_keeps _ _ _ _)
      exact h2
    clear_value x3
    clear_value x4
    extract_lets +onlyGivenNames x6
    have h7 : Keeps s x6 := by
      unfold x6
      refine Keeps.trans ?_ (Keeps.upd (s := x3) rfl rfl rfl rfl)
      exact h5
    clear_value x6
    refine Keeps.ite ?_ ?_
    · refine Keeps.trans ?_ (State.chopEpisode_keeps _)
      exact h7
    · exact h7

theorem execChopperOff_keeps (mv : Nat) (joules : Nat) (s : State) :
    OutKeeps s (execChopperOff mv joules s) := by
  unfold execChopperOff
  refine OutKeeps.next ?_
  refine Keeps.trans ?_ (chopperOff_keeps _ _ _)
  exact Keeps.refl _

theorem State.rebrake_keeps (s : State) (force : Bool) :
    Keeps s (State.rebrake s force) := by
  unfold State.rebrake
  refine Keeps.foldl ?_ ?_
  · exact Keeps.refl _
  · intro a1 b2
    extract_lets +onlyGivenNames x3
    clear_value x3
    refine Keeps.ite ?_ ?_
    · refine Keeps.trans ?_ (State.brakeChoose_keeps _ _)
      refine Keeps.trans ?_ (State.setSpn_keeps _ _ _)
      exact Keeps.refl _
    · exact Keeps.refl _

theorem ladderStep2_keeps (mv : Nat) (s : State) :
    Keeps s (ladderStep2 mv s) := by
  unfold ladderStep2
  extract_lets +onlyGivenNames x1
  have h2 : Keeps s x1 := by
    unfold x1
    refine Keeps.trans ?_ (State.ladderReach_keeps _ _ _ _)
    exact Keeps.refl _
  clear_value x1
  refine Keeps.trans ?_ (State.rebrake_keeps _ _)
  extract_lets +onlyGivenNames x3
  clear_value x3
  refine Keeps.trans ?_ (Keeps.upd (s := x1) rfl rfl rfl rfl)
  exact h2

theorem execLadderStep2_keeps (mv : Nat) (s : State) :
    OutKeeps s (execLadderStep2 mv s) := by
  unfold execLadderStep2
  refine OutKeeps.next ?_
  refine Keeps.trans ?_ (ladderStep2_keeps _ _)
  exact Keeps.refl _

theorem ladderStep3_keeps (mv : Nat) (s : State) :
    Keeps s (ladderStep3 mv s) := by
  unfold ladderStep3
  extract_lets +onlyGivenNames x1 x2 x3 x4
  have h5 : Keeps s x1 := by
    unfold x1
    refine Keeps.trans ?_ (State.ladderReach_keeps _ _ _ _)
    exact Keeps.refl _
  clear_value x1
  clear_value x2
  have h6 : Keeps s x3 := by
    unfold x3
    refine Keeps.trans ?_ (Keeps.upd (s := x1) rfl rfl rfl rfl)
    exact h5
  clear_value x3
  have h7 : Keeps s x4 := by
    unfold x4
    refine Keeps.trans ?_ (State.retractAll_keeps _)
    exact h6
  clear_value x4
  extract_lets +onlyGivenNames x8
  have h9 : Keeps s x8 := by
    unfold x8
    refine Keeps.foldl ?_ ?_
    · exact h7
    · intro a10 b11
      refine Keeps.trans ?_ (State.vcmShow_keeps _ _)
      extract_lets +onlyGivenNames x12
      clear_value x12
      refine Keeps.trans ?_ (State.setPa_keeps _ _ _)
      exact Keeps.refl _
  clear_value x8
  refine Keeps.foldl ?_ ?_
  · exact h9
  · intro a13 b14
    refine Keeps.trans ?_ (State.spnLadder_keeps _ _)
    exact Keeps.refl _

theorem execLadderStep3_keeps (mv : Nat) (s : State) :
    OutKeeps s (execLadderStep3 mv s) := by
  unfold execLadderStep3
  refine OutKeeps.next ?_
  refine Keeps.trans ?_ (ladderStep3_keeps _ _)
  exact Keeps.refl _

theorem ladderRelease_keeps (mv : Nat) (s : State) :
    Keeps s (ladderRelease mv s) := by
  unfold ladderRelease
  extract_lets +onlyGivenNames x1
  have h2 : Keeps s x1 := by
    unfold x1
    refine Keeps.trans ?_ (State.setVbus_keeps _ _)
    exact Keeps.refl _
  clear_value x1
  refine Keeps.ite ?_ ?_
  · exact h2
  · extract_lets +onlyGivenNames x3 x4 x5
    have h6 : Keeps s x3 := by
      unfold x3
      refine Keeps.trans ?_ (State.ladderEvent_keeps _ _ _ _)
      exact h2
    clear_value x3
    clear_value x4
    have h7 : Keeps s x5 := by
      unfold x5
      refine Keeps.trans ?_ (Keeps.upd (s := x3) rfl rfl rfl rfl)
      exact h6
    clear_value x5
    extract_lets +onlyGivenNames x8
    have h9 : Keeps s x8 := by
      unfold x8
      refine Keeps.foldl ?_ ?_
      · exact h7
      · intro a10 b11
        refine Keeps.trans ?_ (State.vcmShow_keeps _ _)
        exact Keeps.refl _
    clear_value x8
    refine Keeps.foldl ?_ ?_
    · exact h9
    · intro a12 b13
      extract_lets +onlyGivenNames x14
      have h15 : Keeps a12 x14 := by
        unfold x14
        refine Keeps.trans ?_ (State.ladderChoose_keeps _ _)
        exact Keeps.refl _
      clear_value x14
      refine Keeps.ite ?_ ?_
      · refine Keeps.trans ?_ (State.startAccept_keeps _ _)
        exact h15
      · exact h15

theorem execLadderRelease_keeps (mv : Nat) (s : State) :
    OutKeeps s (execLadderRelease mv s) := by
  unfold execLadderRelease
  refine OutKeeps.next ?_
  refine Keeps.trans ?_ (ladderRelease_keeps _ _)
  exact Keeps.refl _

theorem State.chopFail_keeps (s : State) (kind : Nat) :
    Keeps s (State.chopFail s kind) := by
  unfold State.chopFail
  extract_lets +onlyGivenNames x1 x2
  clear_value x1
  have h3 : Keeps s x2 := by
    unfold x2
    refine Keeps.trans ?_ (Keeps.upd (s := s) rfl rfl rfl rfl)
    exact Keeps.refl _
  clear_value x2
  extract_lets +onlyGivenNames x4
  have h5 : Keeps s x4 := by
    unfold x4
    refine Keeps.trans ?_ (State.mantleMsg_keeps _ _ _ _ _ _)
    refine Keeps.trans ?_ (State.event_keeps _ _ _ _ _)
    refine Keeps.trans ?_ (State.diesFlag_keeps _ _)
    exact h3
  clear_value x4
  refine Keeps.trans ?_ (State.rebrake_keeps _ _)
  exact h5

theorem chopperFail_keeps (kind : Nat) (s : State) :
    Keeps s (chopperFail kind s) := by
  unfold chopperFail
  refine Keeps.ite ?_ ?_
  · exact Keeps.refl _
  · refine Keeps.ite ?_ ?_
    · refine Keeps.trans ?_ (State.chopFail_keeps _ _)
      exact Keeps.refl _
    · exact Keeps.refl _

theorem execChopperFail_keeps (kind : Nat) (s : State) :
    OutKeeps s (execChopperFail kind s) := by
  unfold execChopperFail
  refine OutKeeps.next ?_
  refine Keeps.trans ?_ (chopperFail_keeps _ _)
  exact Keeps.refl _

theorem chopperTest_keeps (pass : Bool) (s : State) :
    Keeps s (chopperTest pass s) := by
  unfold chopperTest
  extract_lets +onlyGivenNames x1
  clear_value x1
  extract_lets +onlyGivenNames x2
  have h3 : Keeps s x2 := by
    unfold x2
    refine Keeps.trans ?_ (Keeps.upd (s := s) rfl rfl rfl rfl)
    exact Keeps.refl _
  clear_value x2
  refine Keeps.ite ?_ ?_
  · exact h3
  · refine Keeps.trans ?_ (State.chopFail_keeps _ _)
    exact h3

theorem execChopperTest_keeps (pass : Bool) (s : State) :
    OutKeeps s (execChopperTest pass s) := by
  unfold execChopperTest
  refine OutKeeps.next ?_
  refine Keeps.trans ?_ (chopperTest_keeps _ _)
  exact Keeps.refl _

theorem chopHot_keeps (s : State) :
    Keeps s (chopHot s) := by
  unfold chopHot
  refine Keeps.ite ?_ ?_
  · exact Keeps.refl _
  · extract_lets +onlyGivenNames x1
    clear_value x1
    extract_lets +onlyGivenNames x2
    have h3 : Keeps s x2 := by
      unfold x2
      refine Keeps.trans ?_ (Keeps.upd (s := s) rfl rfl rfl rfl)
      exact Keeps.refl _
    clear_value x2
    refine Keeps.trans ?_ (State.rebrake_keeps _ _)
    refine Keeps.trans ?_ (State.mantleMsg_keeps _ _ _ _ _ _)
    refine Keeps.trans ?_ (State.diesFlag_keeps _ _)
    exact h3

theorem execChopHot_keeps (s : State) :
    OutKeeps s (execChopHot s) := by
  unfold execChopHot
  refine OutKeeps.next ?_
  refine Keeps.trans ?_ (chopHot_keeps _)
  exact Keeps.refl _

theorem execChopCool_keeps (s : State) :
    OutKeeps s (execChopCool s) := by
  unfold execChopCool
  refine OutKeeps.next ?_
  extract_lets +onlyGivenNames x1
  clear_value x1
  refine Keeps.trans ?_ (Keeps.upd (s := s) rfl rfl rfl rfl)
  exact Keeps.refl _

theorem budgetWindow_keeps (watts : Nat) (mv : Nat) (s : State) :
    Keeps s (budgetWindow watts mv s) := by
  unfold budgetWindow
  extract_lets +onlyGivenNames x1 x2 x3
  have h4 : Keeps s x1 := by
    unfold x1
    refine Keeps.trans ?_ (State.setVbus_keeps _ _)
    exact Keeps.refl _
  clear_value x1
  clear_value x2
  clear_value x3
  extract_lets +onlyGivenNames x5
  have h6 : Keeps s x5 := by
    unfold x5
    refine Keeps.trans ?_ (Keeps.upd (s := x1) rfl rfl rfl rfl)
    exact h4
  clear_value x5
  refine Keeps.ite ?_ ?_
  · refine Keeps.trans ?_ (State.diesFlag_keeps _ _)
    exact h6
  · exact h6

theorem execBudgetWindow_keeps (watts : Nat) (mv : Nat) (s : State) :
    OutKeeps s (execBudgetWindow watts mv s) := by
  unfold execBudgetWindow
  refine OutKeeps.next ?_
  refine Keeps.trans ?_ (budgetWindow_keeps _ _ _)
  exact Keeps.refl _

theorem execSeekLimit_keeps (s : State) :
    OutKeeps s (execSeekLimit s) := by
  unfold execSeekLimit
  refine OutKeeps.next ?_
  refine Keeps.ite ?_ ?_
  · extract_lets +onlyGivenNames x1
    clear_value x1
    refine Keeps.trans ?_ (Keeps.upd (s := s) rfl rfl rfl rfl)
    exact Keeps.refl _
  · exact Keeps.refl _

theorem execBudgetLift_keeps (s : State) :
    OutKeeps s (execBudgetLift s) := by
  unfold execBudgetLift
  refine OutKeeps.next ?_
  refine Keeps.ite ?_ ?_
  · extract_lets +onlyGivenNames x1
    clear_value x1
    refine Keeps.trans ?_ (Keeps.upd (s := s) rfl rfl rfl rfl)
    exact Keeps.refl _
  · exact Keeps.refl _

end Sys2Proof.Machine
end

