-- ==== Sys2Proof/Laws/KeepsMantle.lean ====
section
/-! SUPPORT. What `Keeps` says of every operation of Machine/Mantle.lean. -/

namespace Sys2Proof.Machine

theorem State.grant_keeps (s : State) (h : Half) (hd : Nat) :
    Keeps s (State.grant s h hd) := by
  unfold State.grant
  extract_lets +onlyGivenNames x1 x2 x3 x4 x5
  have h6 : Keeps s x1 := by
    unfold x1
    refine Keeps.trans ?_ (State.put_keeps _ _ _ _)
    exact Keeps.refl _
  clear_value x1
  have h7 : Keeps s x2 := by
    unfold x2
    refine Keeps.trans ?_ (State.put_keeps _ _ _ _)
    exact h6
  clear_value x2
  have h8 : Keeps s x3 := by
    unfold x3
    refine Keeps.foldl ?_ ?_
    · exact h7
    · intro a9 b10
      refine Keeps.trans ?_ (State.putMaskBit_keeps _ _ _ _ _)
      refine Keeps.trans ?_ (State.putMaskBit_keeps _ _ _ _ _)
      exact Keeps.refl _
  clear_value x3
  clear_value x4
  have h11 : Keeps s x5 := by
    unfold x5
    refine Keeps.trans ?_ (State.setMh_keeps _ _ _)
    exact h8
  clear_value x5
  refine Keeps.ite ?_ ?_
  · exact h11
  · extract_lets +onlyGivenNames x12 x13
    have h14 : Keeps s x12 := by
      unfold x12
      refine Keeps.trans ?_ (State.putB_keeps _ _ _ _)
      exact h11
    clear_value x12
    have h15 : Keeps s x13 := by
      unfold x13
      refine Keeps.foldl ?_ ?_
      · exact h14
      · intro a16 b17
        refine Keeps.trans ?_ (State.vcmShow_keeps _ _)
        refine Keeps.trans ?_ (State.servoLeaveOff_keeps _ _)
        refine Keeps.trans ?_ (State.snufRearm_keeps _ _ _)
        exact Keeps.refl _
    clear_value x13
    refine Keeps.trans ?_ (State.ladderChoose_keeps _ _)
    exact h15

theorem State.claimOne_keeps (s : State) (h : Half) (hd : Nat) :
    Keeps2 s (State.claimOne s h hd) := by
  unfold State.claimOne
  refine Keeps2.ite ?_ ?_
  · refine Keeps2.mk ?_
    exact Keeps.refl _
  · refine Keeps2.ite ?_ ?_
    · refine Keeps2.mk ?_
      exact Keeps.refl _
    · refine Keeps2.ite ?_ ?_
      · refine Keeps2.mk ?_
        exact Keeps.refl _
      · refine Keeps2.ite ?_ ?_
        · refine Keeps2.mk ?_
          exact Keeps.refl _
        · refine Keeps2.ite ?_ ?_
          · refine Keeps2.mk ?_
            exact Keeps.refl _
          · refine Keeps2.mk ?_
            refine Keeps.trans ?_ (State.grant_keeps _ _ _)
            exact Keeps.refl _

theorem State.eachHda_keeps (f : State → Nat → Nat × State) (h : ∀ s n, Keeps2 s (f s n)) (l : List Nat) (s : State) :
    Keeps2 s (State.eachHda f l s) := by
  induction l generalizing s with
  | nil => exact Keeps.refl s
  | cons a l ih => exact Keeps.trans (h s a) (ih (f s a).2)

theorem State.releaseOne_keeps (h : Half) (s : State) (hd : Nat) :
    Keeps2 s (State.releaseOne h s hd) := by
  unfold State.releaseOne
  refine Keeps2.ite ?_ ?_
  · refine Keeps2.mk ?_
    exact Keeps.refl _
  · refine Keeps2.ite ?_ ?_
    · refine Keeps2.mk ?_
      exact Keeps.refl _
    · refine Keeps2.mk ?_
      refine Keeps.trans ?_ (State.withdraw_keeps _ _ _)
      exact Keeps.refl _

theorem State.retractOne_keeps (h : Half) (mask : Nat) (s : State) (hd : Nat) :
    Keeps2 s (State.retractOne h mask s hd) := by
  unfold State.retractOne
  refine Keeps2.ite ?_ ?_
  · refine Keeps2.mk ?_
    exact Keeps.refl _
  · refine Keeps2.ite ?_ ?_
    · refine Keeps2.mk ?_
      exact Keeps.refl _
    · refine Keeps2.mk ?_
      refine Keeps.foldl ?_ ?_
      · exact Keeps.refl _
      · intro a1 b2
        refine Keeps.ite ?_ ?_
        · refine Keeps.trans ?_ (State.retractStart_keeps _ _)
          exact Keeps.refl _
        · exact Keeps.refl _

theorem State.imageReject_keeps (s : State) (h : Half) (type : Nat) (svn : Nat) (st : Nat) :
    Keeps s (State.imageReject s h type svn st) := by
  unfold State.imageReject
  extract_lets +onlyGivenNames x1 x2 x3
  clear_value x1
  have h4 : Keeps s x2 := by
    unfold x2
    refine Keeps.trans ?_ (State.put_keeps _ _ _ _)
    refine Keeps.trans ?_ (State.put_keeps _ _ _ _)
    refine Keeps.trans ?_ (State.put_keeps _ _ _ _)
    exact Keeps.refl _
  clear_value x2
  have h5 : Keeps s x3 := by
    unfold x3
    refine Keeps.trans ?_ (State.satAdd_keeps _ _ _ _)
    exact h4
  clear_value x3
  refine Keeps.trans ?_ (State.mantleMsg_keeps _ _ _ _ _ _)
  refine Keeps.trans ?_ (State.event_keeps _ _ _ _ _)
  exact h5

theorem State.imageAccept_keeps (s : State) (type : Nat) (slot : Nat) (bs : List Byte) :
    Keeps s (State.imageAccept s type slot bs) := by
  unfold State.imageAccept
  extract_lets +onlyGivenNames x1 x2 x3 x4 x5 x6 x7
  clear_value x1
  clear_value x2
  clear_value x3
  clear_value x4
  have h8 : Keeps s x5 := by
    unfold x5
    refine Keeps.trans ?_ (State.satAdd_keeps _ _ _ _)
    exact Keeps.refl _
  clear_value x5
  have h9 : Keeps s x6 := by
    unfold x6
    refine Keeps.trans ?_ (State.put_keeps _ _ _ _)
    exact h8
  clear_value x6
  have h10 : Keeps s x7 := by
    unfold x7
    refine Keeps.trans ?_ (State.event_keeps _ _ _ _ _)
    exact h9
  clear_value x7
  refine Keeps.ite ?_ ?_
  · extract_lets +onlyGivenNames x11
    clear_value x11
    extract_lets +onlyGivenNames x12
    have h13 : Keeps s x12 := by
      unfold x12
      refine Keeps.trans ?_ (Keeps.upd (s := x7) rfl rfl rfl rfl)
      exact h10
    clear_value x12
    refine Keeps.trans ?_ (State.put_keeps _ _ _ _)
    refine Keeps.trans ?_ (State.flag_keeps _ _ _)
    exact h13
  · refine Keeps.ite ?_ ?_
    · split
      · rename_i y14 y15 y16 y17 y18 y19
        extract_lets +onlyGivenNames x20 x21 x22 x23
        clear_value x20
        have h24 : Keeps s x21 := by
          unfold x21
          refine Keeps.trans ?_ (Keeps.upd (s := x7) rfl rfl rfl rfl)
          exact h10
        clear_value x21
        have h25 : Keeps s x22 := by
          unfold x22
          refine Keeps.trans ?_ (State.put_keeps _ _ _ _)
          exact h24
        clear_value x22
        have h26 : Keeps s x23 := by
          unfold x23
          refine Keeps.trans ?_ (State.put_keeps _ _ _ _)
          exact h25
        clear_value x23
        extract_lets +onlyGivenNames x27
        have h28 : ∀ v29 v30 v31, Keeps v29 (x27 v29 v30 v31) := by
          intro v29 v30 v31
          unfold x27
          refine Keeps.trans ?_ (State.put_keeps _ _ _ _)
          exact Keeps.refl _
        clear_value x27
        refine Keeps.trans ?_ (h28 _ _ _)
        refine Keeps.trans ?_ (h28 _ _ _)
        refine Keeps.trans ?_ (h28 _ _ _)
        exact h26
    · extract_lets +onlyGivenNames x32
      clear_value x32
      extract_lets +onlyGivenNames x33
      have h34 : Keeps s x33 := by
        unfold x33
        refine Keeps.trans ?_ (Keeps.upd (s := x7) rfl rfl rfl rfl)
        exact h10
      clear_value x33
      refine Keeps.foldl ?_ ?_
      · exact h34
      · intro a35 b36
        refine Keeps.ite ?_ ?_
        · exact Keeps.refl _
        · extract_lets +onlyGivenNames x37
          clear_value x37
          refine Keeps.trans ?_ (State.setWick_keeps _ _ _)
          exact Keeps.refl _

theorem State.intakeCheck_keeps (s : State) (h : Half) (k : Intake) (slot : Nat) :
    Keeps s (State.intakeCheck s h k slot) := by
  unfold State.intakeCheck
  extract_lets +onlyGivenNames x1 x2 x3
  clear_value x1
  clear_value x2
  clear_value x3
  refine Keeps.ite ?_ ?_
  · split
    · rename_i y4 y5 y6 y7
      have h8 : Keeps s y6 := by
        refine Keeps2.use ?_ y7
        refine Keeps2.trans ?_ (State.takeFree_keeps _)
        exact Keeps.refl _
      refine Keeps.trans ?_ (State.mbAnswer_keeps _ _ _ _)
      refine Keeps.trans ?_ (State.intakeClose_keeps _)
      refine Keeps.trans ?_ (State.imageReject_keeps _ _ _ _ _)
      exact h8
  · extract_lets +onlyGivenNames x9
    have h10 : Keeps s x9 := by
      unfold x9
      refine Keeps.trans ?_ (State.imageAccept_keeps _ _ _ _)
      exact Keeps.refl _
    clear_value x9
    refine Keeps.ite ?_ ?_
    · refine Keeps.trans ?_ (State.mbAnswer_keeps _ _ _ _)
      refine Keeps.trans ?_ (State.intakeClose_keeps _)
      exact h10
    · extract_lets +onlyGivenNames x11
      clear_value x11
      extract_lets +onlyGivenNames x12
      have h13 : Keeps s x12 := by
        unfold x12
        refine Keeps.trans ?_ (Keeps.upd (s := x9) rfl rfl rfl rfl)
        exact h10
      clear_value x12
      refine Keeps.trans ?_ (State.patchSettle_keeps _)
      refine Keeps.trans ?_ (State.put_keeps _ _ _ _)
      exact h13

theorem State.mbFail_keeps (s : State) (h : Half) (st : Nat) :
    Keeps s (State.mbFail s h st) := by
  unfold State.mbFail
  split
  · rename_i y1 y2 y3 y4
    have h5 : Keeps s y3 := by
      refine Keeps2.use ?_ y4
      refine Keeps2.trans ?_ (State.takeFree_keeps _)
      exact Keeps.refl _
    refine Keeps.trans ?_ (State.mbAnswer_keeps _ _ _ _)
    exact h5

theorem State.mbIntakeOpen_keeps (s : State) (h : Half) (type : Nat) (len : Nat) :
    Keeps s (State.mbIntakeOpen s h type len) := by
  unfold State.mbIntakeOpen
  extract_lets +onlyGivenNames x1
  clear_value x1
  refine Keeps.ite ?_ ?_
  · refine Keeps.trans ?_ (State.mbFail_keeps _ _ _)
    exact Keeps.refl _
  · refine Keeps.ite ?_ ?_
    · refine Keeps.trans ?_ (State.mbFail_keeps _ _ _)
      exact Keeps.refl _
    · extract_lets +onlyGivenNames x2 x3
      clear_value x2
      have h4 : Keeps s x3 := by
        unfold x3
        refine Keeps.trans ?_ (Keeps.upd (s := s) rfl rfl rfl rfl)
        exact Keeps.refl _
      clear_value x3
      extract_lets +onlyGivenNames x5
      have h6 : Keeps s x5 := by
        unfold x5
        refine Keeps.trans ?_ (State.put_keeps _ _ _ _)
        refine Keeps.trans ?_ (State.put_keeps _ _ _ _)
        refine Keeps.trans ?_ (State.put_keeps _ _ _ _)
        exact h4
      clear_value x5
      refine Keeps.trans ?_ (State.mbAnswer_keeps _ _ _ _)
      exact h6

theorem State.mbServe_keeps (s : State) (h : Half) (r : MbReq) :
    Keeps s (State.mbServe s h r) := by
  unfold State.mbServe
  refine Keeps.ite ?_ ?_
  · refine Keeps.ite ?_ ?_
    · refine Keeps.trans ?_ (State.mbFail_keeps _ _ _)
      exact Keeps.refl _
    · split
      · rename_i y1 y2 y3 y4
        have h5 : Keeps s y3 := by
          refine Keeps2.use ?_ y4
          refine Keeps2.trans ?_ (State.eachHda_keeps _ ?_ _ _)
          · exact Keeps.refl _
          · intro a6 b7
            refine Keeps2.trans ?_ (State.claimOne_keeps _ _ _)
            exact Keeps.refl _
        refine Keeps.trans ?_ (State.mbAnswer_keeps _ _ _ _)
        exact h5
  · refine Keeps.ite ?_ ?_
    · refine Keeps.ite ?_ ?_
      · refine Keeps.trans ?_ (State.mbFail_keeps _ _ _)
        exact Keeps.refl _
      · split
        · rename_i y8 y9 y10 y11
          have h12 : Keeps s y10 := by
            refine Keeps2.use ?_ y11
            refine Keeps2.trans ?_ (State.eachHda_keeps _ ?_ _ _)
            · exact Keeps.refl _
            · intro a13 b14
              refine Keeps2.trans ?_ (State.releaseOne_keeps _ _ _)
              exact Keeps.refl _
          refine Keeps.trans ?_ (State.mbAnswer_keeps _ _ _ _)
          exact h12
    · refine Keeps.ite ?_ ?_
      · refine Keeps.ite ?_ ?_
        · refine Keeps.trans ?_ (State.mbFail_keeps _ _ _)
          exact Keeps.refl _
        · extract_lets +onlyGivenNames x15
          clear_value x15
          split
          · rename_i y16 y17 y18 y19
            have h20 : Keeps s y18 := by
              refine Keeps2.use ?_ y19
              refine Keeps2.trans ?_ (State.eachHda_keeps _ ?_ _ _)
              · exact Keeps.refl _
              · intro a21 b22
                refine Keeps2.trans ?_ (State.retractOne_keeps _ _ _ _)
                exact Keeps.refl _
            refine Keeps.trans ?_ (State.mbAnswer_keeps _ _ _ _)
            exact h20
      · refine Keeps.ite ?_ ?_
        · refine Keeps.ite ?_ ?_
          · refine Keeps.trans ?_ (State.mbFail_keeps _ _ _)
            exact Keeps.refl _
          · refine Keeps.trans ?_ (State.mbAnswer_keeps _ _ _ _)
            refine Keeps.trans ?_ (State.put_keeps _ _ _ _)
            exact Keeps.refl _
        · refine Keeps.ite ?_ ?_
          · refine Keeps.trans ?_ (State.mbIntakeOpen_keeps _ _ _ _)
            exact Keeps.refl _
          · refine Keeps.ite ?_ ?_
            · split
              · rename_i y23 y24
                refine Keeps.ite ?_ ?_
                · refine Keeps.trans ?_ (State.mbFail_keeps _ _ _)
                  exact Keeps.refl _
                · refine Keeps.trans ?_ (State.mbFail_keeps _ _ _)
                  exact Keeps.refl _
              · rename_i y25 y26 y27
                refine Keeps.ite ?_ ?_
                · refine Keeps.trans ?_ (State.mbFail_keeps _ _ _)
                  exact Keeps.refl _
                · refine Keeps.trans ?_ (State.intakeCheck_keeps _ _ _ _)
                  exact Keeps.refl _
            · refine Keeps.ite ?_ ?_
              · refine Keeps.ite ?_ ?_
                · refine Keeps.trans ?_ (State.mbFail_keeps _ _ _)
                  exact Keeps.refl _
                · refine Keeps.ite ?_ ?_
                  · refine Keeps.trans ?_ (State.mbFail_keeps _ _ _)
                    exact Keeps.refl _
                  · refine Keeps.trans ?_ (State.mbAnswer_keeps _ _ _ _)
                    refine Keeps.trans ?_ (State.intakeClose_keeps _)
                    exact Keeps.refl _
              · refine Keeps.ite ?_ ?_
                · refine Keeps.ite ?_ ?_
                  · refine Keeps.trans ?_ (State.mbFail_keeps _ _ _)
                    exact Keeps.refl _
                  · extract_lets +onlyGivenNames x28
                    clear_value x28
                    extract_lets +onlyGivenNames x29
                    have h30 : Keeps s x29 := by
                      unfold x29
                      refine Keeps.trans ?_ (State.setMh_keeps _ _ _)
                      exact Keeps.refl _
                    clear_value x29
                    refine Keeps.trans ?_ (State.mbAnswer_keeps _ _ _ _)
                    refine Keeps.trans ?_ (State.flag_keeps _ _ _)
                    exact h30
                · refine Keeps.trans ?_ (State.mbFail_keeps _ _ _)
                  exact Keeps.refl _

theorem State.mailbox_keeps (s : State) (h : Half) (op : Nat) (seq : Nat) (arg0 : Nat) (arg1 : Nat) :
    Keeps s (State.mailbox s h op seq arg0 arg1) := by
  unfold State.mailbox
  refine Keeps.ite ?_ ?_
  · exact Keeps.refl _
  · extract_lets +onlyGivenNames x1 x2 x3
    clear_value x1
    have h4 : Keeps s x2 := by
      unfold x2
      refine Keeps.trans ?_ (State.put_keeps _ _ _ _)
      refine Keeps.trans ?_ (State.put_keeps _ _ _ _)
      exact Keeps.refl _
    clear_value x2
    have h5 : Keeps s x3 := by
      unfold x3
      refine Keeps.trans ?_ (State.put_keeps _ _ _ _)
      refine Keeps.trans ?_ (State.put_keeps _ _ _ _)
      exact h4
    clear_value x3
    refine Keeps.ite ?_ ?_
    · refine Keeps.trans ?_ (State.flag_keeps _ _ _)
      exact h5
    · extract_lets +onlyGivenNames x6 x7
      clear_value x6
      clear_value x7
      extract_lets +onlyGivenNames x8
      have h9 : Keeps s x8 := by
        unfold x8
        refine Keeps.trans ?_ (State.setMh_keeps _ _ _)
        refine Keeps.trans ?_ (State.put_keeps _ _ _ _)
        exact h5
      clear_value x8
      refine Keeps.ite ?_ ?_
      · refine Keeps.trans ?_ (State.mbServe_keeps _ _ _)
        exact h9
      · extract_lets +onlyGivenNames x10
        clear_value x10
        refine Keeps.trans ?_ (Keeps.upd (s := x8) rfl rfl rfl rfl)
        exact h9

theorem execClaim_keeps (h : Half) (seq : Nat) (arg0 : Nat) (arg1 : Nat) (s : State) :
    OutKeeps s (execClaim h seq arg0 arg1 s) := by
  unfold execClaim
  refine OutKeeps.next ?_
  refine Keeps.trans ?_ (State.mailbox_keeps _ _ _ _ _ _)
  exact Keeps.refl _

theorem execRelease_keeps (h : Half) (seq : Nat) (arg0 : Nat) (arg1 : Nat) (s : State) :
    OutKeeps s (execRelease h seq arg0 arg1 s) := by
  unfold execRelease
  refine OutKeeps.next ?_
  refine Keeps.trans ?_ (State.mailbox_keeps _ _ _ _ _ _)
  exact Keeps.refl _

theorem execRetract_keeps (h : Half) (seq : Nat) (arg0 : Nat) (arg1 : Nat) (s : State) :
    OutKeeps s (execRetract h seq arg0 arg1 s) := by
  unfold execRetract
  refine OutKeeps.next ?_
  refine Keeps.trans ?_ (State.mailbox_keeps _ _ _ _ _ _)
  exact Keeps.refl _

theorem execWdConfig_keeps (h : Half) (seq : Nat) (arg0 : Nat) (arg1 : Nat) (s : State) :
    OutKeeps s (execWdConfig h seq arg0 arg1 s) := by
  unfold execWdConfig
  refine OutKeeps.next ?_
  refine Keeps.trans ?_ (State.mailbox_keeps _ _ _ _ _ _)
  exact Keeps.refl _

theorem execIntakeOpen_keeps (h : Half) (seq : Nat) (arg0 : Nat) (arg1 : Nat) (s : State) :
    OutKeeps s (execIntakeOpen h seq arg0 arg1 s) := by
  unfold execIntakeOpen
  refine OutKeeps.next ?_
  refine Keeps.trans ?_ (State.mailbox_keeps _ _ _ _ _ _)
  exact Keeps.refl _

theorem execIntakeCheck_keeps (h : Half) (seq : Nat) (arg0 : Nat) (arg1 : Nat) (s : State) :
    OutKeeps s (execIntakeCheck h seq arg0 arg1 s) := by
  unfold execIntakeCheck
  refine OutKeeps.next ?_
  refine Keeps.trans ?_ (State.mailbox_keeps _ _ _ _ _ _)
  exact Keeps.refl _

theorem execIntakeCancel_keeps (h : Half) (seq : Nat) (arg0 : Nat) (arg1 : Nat) (s : State) :
    OutKeeps s (execIntakeCancel h seq arg0 arg1 s) := by
  unfold execIntakeCancel
  refine OutKeeps.next ?_
  refine Keeps.trans ?_ (State.mailbox_keeps _ _ _ _ _ _)
  exact Keeps.refl _

theorem execNextSlot_keeps (h : Half) (seq : Nat) (arg0 : Nat) (arg1 : Nat) (s : State) :
    OutKeeps s (execNextSlot h seq arg0 arg1 s) := by
  unfold execNextSlot
  refine OutKeeps.next ?_
  refine Keeps.trans ?_ (State.mailbox_keeps _ _ _ _ _ _)
  exact Keeps.refl _

theorem execBadOp_keeps (h : Half) (op : Nat) (seq : Nat) (arg0 : Nat) (arg1 : Nat) (s : State) :
    OutKeeps s (execBadOp h op seq arg0 arg1 s) := by
  unfold execBadOp
  refine OutKeeps.next ?_
  refine Keeps.trans ?_ (State.mailbox_keeps _ _ _ _ _ _)
  exact Keeps.refl _

theorem intakeTimeout_keeps (s : State) :
    Keeps s (intakeTimeout s) := by
  unfold intakeTimeout
  split
  · rename_i y1 y2 y3
    refine Keeps.ite ?_ ?_
    · exact Keeps.refl _
    · refine Keeps.trans ?_ (State.intakeClose_keeps _)
      exact Keeps.refl _
  · rename_i y4 y5
    exact Keeps.refl _

theorem execIntakeTimeout_keeps (s : State) :
    OutKeeps s (execIntakeTimeout s) := by
  unfold execIntakeTimeout
  refine OutKeeps.next ?_
  refine Keeps.trans ?_ (intakeTimeout_keeps _)
  exact Keeps.refl _

theorem State.pollHalf_keeps (s : State) (h : Half) :
    Keeps s (State.pollHalf s h) := by
  unfold State.pollHalf
  extract_lets +onlyGivenNames x1 x2
  clear_value x1
  have h3 : Keeps s x2 := by
    unfold x2
    refine Keeps.trans ?_ (State.setMh_keeps _ _ _)
    exact Keeps.refl _
  clear_value x2
  refine Keeps.ite ?_ ?_
  · exact h3
  · extract_lets +onlyGivenNames x4 x5
    clear_value x4
    have h6 : Keeps s x5 := by
      unfold x5
      refine Keeps.trans ?_ (State.put_keeps _ _ _ _)
      refine Keeps.trans ?_ (State.put_keeps _ _ _ _)
      exact h3
    clear_value x5
    refine Keeps.trans ?_ (State.irq_keeps _ _)
    refine Keeps.trans ?_ (State.flag_keeps _ _ _)
    exact h6

theorem pollTick_keeps (s : State) :
    Keeps s (pollTick s) := by
  unfold pollTick
  refine Keeps.ite ?_ ?_
  · exact Keeps.refl _
  · extract_lets +onlyGivenNames x1
    have h2 : Keeps s x1 := by
      unfold x1
      refine Keeps.trans ?_ (State.put_keeps _ _ _ _)
      exact Keeps.refl _
    clear_value x1
    refine Keeps.trans ?_ (State.pollHalf_keeps _ _)
    refine Keeps.trans ?_ (State.pollHalf_keeps _ _)
    exact h2

theorem execPollTick_keeps (s : State) :
    OutKeeps s (execPollTick s) := by
  unfold execPollTick
  refine OutKeeps.next ?_
  refine Keeps.trans ?_ (pollTick_keeps _)
  exact Keeps.refl _

theorem leaseWrite_keeps (h : Half) (held : Nat) (echo : Nat) (s : State) :
    Keeps s (leaseWrite h held echo s) := by
  unfold leaseWrite
  refine Keeps.ite ?_ ?_
  · exact Keeps.refl _
  · extract_lets +onlyGivenNames x1 x2 x3
    clear_value x1
    have h4 : Keeps s x2 := by
      unfold x2
      refine Keeps.trans ?_ (State.put_keeps _ _ _ _)
      refine Keeps.trans ?_ (State.put_keeps _ _ _ _)
      exact Keeps.refl _
    clear_value x2
    clear_value x3
    refine Keeps.ite ?_ ?_
    · refine Keeps.trans ?_ (State.setMh_keeps _ _ _)
      exact h4
    · refine Keeps.trans ?_ (State.flag_keeps _ _ _)
      exact h4

theorem execLeaseWrite_keeps (h : Half) (held : Nat) (echo : Nat) (s : State) :
    OutKeeps s (execLeaseWrite h held echo s) := by
  unfold execLeaseWrite
  refine OutKeeps.next ?_
  refine Keeps.trans ?_ (leaseWrite_keeps _ _ _ _)
  exact Keeps.refl _

theorem State.leaseOne_keeps (s : State) (h : Half) (hd : Nat) :
    Keeps s (State.leaseOne s h hd) := by
  unfold State.leaseOne
  extract_lets +onlyGivenNames x1
  clear_value x1
  refine Keeps.ite ?_ ?_
  · exact Keeps.refl _
  · refine Keeps.ite ?_ ?_
    · refine Keeps.trans ?_ (State.put_keeps _ _ _ _)
      exact Keeps.refl _
    · refine Keeps.ite ?_ ?_
      · refine Keeps.trans ?_ (State.withdraw_keeps _ _ _)
        exact Keeps.refl _
      · refine Keeps.trans ?_ (State.put_keeps _ _ _ _)
        exact Keeps.refl _

theorem State.disagree_keeps (s : State) (h : Half) :
    Keeps s (State.disagree s h) := by
  unfold State.disagree
  extract_lets +onlyGivenNames x1
  clear_value x1
  split
  · rename_i y2 y3
    exact Keeps.refl _
  · rename_i y4 y5 y6
    extract_lets +onlyGivenNames x7 x8 x9 x10 x11
    clear_value x7
    clear_value x8
    have h12 : Keeps s x9 := by
      unfold x9
      refine Keeps.trans ?_ (State.setMh_keeps _ _ _)
      exact Keeps.refl _
    clear_value x9
    have h13 : Keeps s x10 := by
      unfold x10
      refine Keeps.trans ?_ (State.put_keeps _ _ _ _)
      exact h12
    clear_value x10
    have h14 : Keeps s x11 := by
      unfold x11
      refine Keeps.ite ?_ ?_
      · exact h13
      · refine Keeps.trans ?_ (State.put_keeps _ _ _ _)
        refine Keeps.trans ?_ (State.flag_keeps _ _ _)
        exact h13
    clear_value x11
    refine Keeps.foldl ?_ ?_
    · exact h14
    · intro a15 b16
      refine Keeps.trans ?_ (State.mantleMsg_keeps _ _ _ _ _ _)
      refine Keeps.trans ?_ (State.event_keeps _ _ _ _ _)
      refine Keeps.trans ?_ (State.satAdd_keeps _ _ _ _)
      exact Keeps.refl _

theorem State.deadlineHalf_keeps (s : State) (h : Half) :
    Keeps s (State.deadlineHalf s h) := by
  unfold State.deadlineHalf
  refine Keeps.ite ?_ ?_
  · exact Keeps.refl _
  · extract_lets +onlyGivenNames x1
    have h2 : Keeps s x1 := by
      unfold x1
      refine Keeps.trans ?_ (State.disagree_keeps _ _)
      refine Keeps.foldl ?_ ?_
      · exact Keeps.refl _
      · intro a3 b4
        refine Keeps.trans ?_ (State.leaseOne_keeps _ _ _)
        exact Keeps.refl _
    clear_value x1
    extract_lets +onlyGivenNames x5
    clear_value x5
    refine Keeps.trans ?_ (State.setMh_keeps _ _ _)
    exact h2

theorem leaseDeadline_keeps (s : State) :
    Keeps s (leaseDeadline s) := by
  unfold leaseDeadline
  refine Keeps.ite ?_ ?_
  · exact Keeps.refl _
  · refine Keeps.trans ?_ (State.deadlineHalf_keeps _ _)
    refine Keeps.trans ?_ (State.deadlineHalf_keeps _ _)
    exact Keeps.refl _

theorem execLeaseDeadline_keeps (s : State) :
    OutKeeps s (execLeaseDeadline s) := by
  unfold execLeaseDeadline
  refine OutKeeps.next ?_
  refine Keeps.trans ?_ (leaseDeadline_keeps _)
  exact Keeps.refl _

theorem lapse_keeps (hd : Nat) (s : State) :
    Keeps s (lapse hd s) := by
  unfold lapse
  extract_lets +onlyGivenNames x1
  clear_value x1
  refine Keeps.ite ?_ ?_
  · exact Keeps.refl _
  · extract_lets +onlyGivenNames x2
    clear_value x2
    refine Keeps.ite ?_ ?_
    · refine Keeps.trans ?_ (State.withdraw_keeps _ _ _)
      exact Keeps.refl _
    · exact Keeps.refl _

theorem execLapse_keeps (hd : Nat) (s : State) :
    OutKeeps s (execLapse hd s) := by
  unfold execLapse
  refine OutKeeps.next ?_
  refine Keeps.trans ?_ (lapse_keeps _ _)
  exact Keeps.refl _

theorem sequencerStop_keeps (h : Half) (u : Nat) (vel : Nat) (s : State) :
    Keeps s (sequencerStop h u vel s) := by
  unfold sequencerStop
  extract_lets +onlyGivenNames x1 x2
  clear_value x1
  clear_value x2
  refine Keeps.ite ?_ ?_
  · extract_lets +onlyGivenNames x3
    clear_value x3
    refine Keeps.trans ?_ (Keeps.upd (s := s) rfl rfl rfl rfl)
    exact Keeps.refl _
  · exact Keeps.refl _

theorem execSequencerStop_keeps (h : Half) (u : Nat) (vel : Nat) (s : State) :
    OutKeeps s (execSequencerStop h u vel s) := by
  unfold execSequencerStop
  refine OutKeeps.next ?_
  refine Keeps.trans ?_ (sequencerStop_keeps _ _ _ _)
  exact Keeps.refl _

theorem State.retractEnd_keeps (s : State) (ai : Nat) :
    Keeps s (State.retractEnd s ai) := by
  unfold State.retractEnd
  extract_lets +onlyGivenNames x1 x2 x3
  have h4 : Keeps s x1 := by
    unfold x1
    refine Keeps.trans ?_ (State.putMaskBit_keeps _ _ _ _ _)
    exact Keeps.refl _
  clear_value x1
  clear_value x2
  have h5 : Keeps s x3 := by
    unfold x3
    refine Keeps.trans ?_ (Keeps.upd (s := x1) rfl rfl rfl rfl)
    exact h4
  clear_value x3
  extract_lets +onlyGivenNames x6
  have h7 : Keeps s x6 := by
    unfold x6
    refine Keeps.trans ?_ (State.flag_keeps _ _ _)
    exact h5
  clear_value x6
  refine Keeps.ite ?_ ?_
  · refine Keeps.trans ?_ (State.vcmShow_keeps _ _)
    refine Keeps.trans ?_ (State.servoLeaveOff_keeps _ _)
    exact h7
  · refine Keeps.trans ?_ (State.vcmShow_keeps _ _)
    exact h7

theorem retDone_keeps (h : Half) (u : Nat) (s : State) :
    Keeps s (retDone h u s) := by
  unfold retDone
  extract_lets +onlyGivenNames x1
  clear_value x1
  refine Keeps.ite ?_ ?_
  · refine Keeps.trans ?_ (State.retractEnd_keeps _ _)
    refine Keeps.trans ?_ (State.setLoaded_keeps _ _ _)
    refine Keeps.trans ?_ (State.putMaskBit_keeps _ _ _ _ _)
    exact Keeps.refl _
  · exact Keeps.refl _

theorem execRetdone_keeps (h : Half) (u : Nat) (s : State) :
    OutKeeps s (execRetdone h u s) := by
  unfold execRetdone
  refine OutKeeps.next ?_
  refine Keeps.trans ?_ (retDone_keeps _ _ _)
  exact Keeps.refl _

theorem retTmo_keeps (h : Half) (u : Nat) (us : Nat) (s : State) :
    Keeps s (retTmo h u us s) := by
  unfold retTmo
  extract_lets +onlyGivenNames x1
  clear_value x1
  refine Keeps.ite ?_ ?_
  · extract_lets +onlyGivenNames x2
    have h3 : Keeps s x2 := by
      unfold x2
      refine Keeps.trans ?_ (State.putMaskBit_keeps _ _ _ _ _)
      exact Keeps.refl _
    clear_value x2
    refine Keeps.trans ?_ (State.retractEnd_keeps _ _)
    refine Keeps.trans ?_ (State.mantleMsg_keeps _ _ _ _ _ _)
    refine Keeps.trans ?_ (State.event_keeps _ _ _ _ _)
    exact h3
  · exact Keeps.refl _

theorem execRettmo_keeps (h : Half) (u : Nat) (us : Nat) (s : State) :
    OutKeeps s (execRettmo h u us s) := by
  unfold execRettmo
  refine OutKeeps.next ?_
  refine Keeps.trans ?_ (retTmo_keeps _ _ _ _)
  exact Keeps.refl _

theorem State.wdWarn_keeps (s : State) (h : Half) :
    Keeps s (State.wdWarn s h) := by
  unfold State.wdWarn
  extract_lets +onlyGivenNames x1 x2
  clear_value x1
  clear_value x2
  extract_lets +onlyGivenNames x3
  have h4 : Keeps s x3 := by
    unfold x3
    refine Keeps.trans ?_ (State.setMh_keeps _ _ _)
    refine Keeps.trans ?_ (State.put_keeps _ _ _ _)
    exact Keeps.refl _
  clear_value x3
  refine Keeps.trans ?_ (State.mantleMsg_keeps _ _ _ _ _ _)
  refine Keeps.trans ?_ (State.event_keeps _ _ _ _ _)
  refine Keeps.trans ?_ (State.flag_keeps _ _ _)
  exact h4

theorem kick_keeps (h : Half) (key : Nat) (s : State) :
    Keeps s (kick h key s) := by
  unfold kick
  extract_lets +onlyGivenNames x1
  clear_value x1
  refine Keeps.ite ?_ ?_
  · exact Keeps.refl _
  · refine Keeps.ite ?_ ?_
    · extract_lets +onlyGivenNames x2 x3 x4 x5
      have h6 : Keeps s x2 := by
        unfold x2
        refine Keeps.ite ?_ ?_
        · refine Keeps.trans ?_ (State.satAdd_keeps _ _ _ _)
          exact Keeps.refl _
        · exact Keeps.refl _
      clear_value x2
      have h7 : Keeps s x3 := by
        unfold x3
        refine Keeps.trans ?_ (State.put_keeps _ _ _ _)
        refine Keeps.trans ?_ (State.put_keeps _ _ _ _)
        exact h6
      clear_value x3
      clear_value x4
      clear_value x5
      refine Keeps.trans ?_ (State.setMh_keeps _ _ _)
      exact h7
    · refine Keeps.ite ?_ ?_
      · exact Keeps.refl _
      · refine Keeps.trans ?_ (State.wdWarn_keeps _ _)
        exact Keeps.refl _

theorem execKick_keeps (h : Half) (key : Nat) (s : State) :
    OutKeeps s (execKick h key s) := by
  unfold execKick
  refine OutKeeps.next ?_
  refine Keeps.trans ?_ (kick_keeps _ _ _)
  exact Keeps.refl _

theorem wdExpire_keeps (h : Half) (ms : Nat) (s : State) :
    Keeps s (wdExpire h ms s) := by
  unfold wdExpire
  refine Keeps.ite ?_ ?_
  · refine Keeps.trans ?_ (State.wdWarn_keeps _ _)
    exact Keeps.refl _
  · exact Keeps.refl _

theorem execWdWarn_keeps (h : Half) (ms : Nat) (s : State) :
    OutKeeps s (execWdWarn h ms s) := by
  unfold execWdWarn
  refine OutKeeps.next ?_
  refine Keeps.trans ?_ (wdExpire_keeps _ _ _)
  exact Keeps.refl _

theorem State.mbRestarted_keeps (s : State) (h : Half) :
    Keeps s (State.mbRestarted s h) := by
  unfold State.mbRestarted
  refine Keeps.ite ?_ ?_
  · exact Keeps.refl _
  · refine Keeps.trans ?_ (State.flag_keeps _ _ _)
    refine Keeps.trans ?_ (State.mbFail_keeps _ _ _)
    exact Keeps.refl _

theorem lockstepMismatch_keeps (s : State) :
    Keeps s (lockstepMismatch s) := by
  unfold lockstepMismatch
  refine Keeps.ite ?_ ?_
  · exact Keeps.refl _
  · extract_lets +onlyGivenNames x1 x2 x3
    have h4 : Keeps s x1 := by
      unfold x1
      refine Keeps.trans ?_ (State.mantleMsg_keeps _ _ _ _ _ _)
      refine Keeps.trans ?_ (State.event_keeps _ _ _ _ _)
      exact Keeps.refl _
    clear_value x1
    have h5 : Keeps s x2 := by
      unfold x2
      refine Keeps.trans ?_ (State.mbRestarted_keeps _ _)
      refine Keeps.trans ?_ (State.mbRestarted_keeps _ _)
      exact h4
    clear_value x2
    have h6 : Keeps s x3 := by
      unfold x3
      split
      · rename_i y7 y8 y9
        refine Keeps.ite ?_ ?_
        · refine Keeps.trans ?_ (State.intakeClose_keeps _)
          exact h5
        · exact h5
      · rename_i y10 y11
        exact h5
    clear_value x3
    extract_lets +onlyGivenNames x12
    clear_value x12
    refine Keeps.trans ?_ (Keeps.upd (s := x3) rfl rfl rfl rfl)
    exact h6

theorem execLockstepMismatch_keeps (s : State) :
    OutKeeps s (execLockstepMismatch s) := by
  unfold execLockstepMismatch
  refine OutKeeps.next ?_
  refine Keeps.trans ?_ (lockstepMismatch_keeps _)
  exact Keeps.refl _

theorem State.mbServeAll_keeps (s : State) (l : List Half) : Keeps s (s.mbServeAll l) := by
  induction l generalizing s with
  | nil => exact Keeps.refl _
  | cons h l ih =>
    unfold State.mbServeAll
    refine Keeps.trans ?_ (ih _)
    split
    · refine Keeps.ite (State.mbServe_keeps ..) ?_
      exact Keeps.upd rfl rfl rfl rfl
    · exact Keeps.refl _

theorem coreRestartDone_keeps (s : State) :
    Keeps s (coreRestartDone s) := by
  unfold coreRestartDone
  refine Keeps.ite ?_ ?_
  · exact Keeps.refl _
  · extract_lets +onlyGivenNames x1 x2 x3
    clear_value x1
    clear_value x2
    have h4 : Keeps s x3 := by
      unfold x3
      refine Keeps.trans ?_ (Keeps.upd (s := s) rfl rfl rfl rfl)
      exact Keeps.refl _
    clear_value x3
    extract_lets +onlyGivenNames x5
    have h6 : Keeps s x5 := by
      unfold x5
      split
      · rename_i y7 y8 y9 y10 y11 y12
        refine Keeps.ite ?_ ?_
        · refine Keeps.trans ?_ (State.mbAnswer_keeps _ _ _ _)
          refine Keeps.trans ?_ (State.intakeClose_keeps _)
          exact h4
        · exact h4
      · rename_i y13 y14 y15
        exact h4
    clear_value x5
    refine Keeps.trans ?_ (State.mbServeAll_keeps _ _)
    exact h6

theorem execCoreRestartDone_keeps (s : State) :
    OutKeeps s (execCoreRestartDone s) := by
  unfold execCoreRestartDone
  refine OutKeeps.next ?_
  refine Keeps.trans ?_ (coreRestartDone_keeps _)
  exact Keeps.refl _

end Sys2Proof.Machine
end

