-- ==== Sys2Proof/Laws/KeepsSdm.lean ====
section
/-! SUPPORT. What `Keeps` says of every operation of Machine/Sdm.lean. -/

namespace Sys2Proof.Machine

theorem State.hostWrite_keeps (s : State) (h : Half) (addr : Nat) (bs : List Byte) :
    Keeps s (State.hostWrite s h addr bs) := by
  unfold State.hostWrite
  refine Keeps.trans ?_ (Keeps.upd (s := s) rfl rfl rfl rfl)
  exact Keeps.refl _

theorem State.msix_keeps (s : State) (h : Half) (v : Nat) :
    Keeps s (State.msix s h v) := by
  unfold State.msix
  refine Keeps.ite ?_ ?_
  · exact Keeps.refl _
  · refine Keeps.ite ?_ ?_
    · extract_lets +onlyGivenNames x1
      clear_value x1
      refine Keeps.trans ?_ (State.setWord_keeps _ _ _)
      exact Keeps.refl _
    · extract_lets +onlyGivenNames x2
      have h3 : Keeps s x2 := by
        unfold x2
        refine Keeps.trans ?_ (Keeps.upd (s := s) rfl rfl rfl rfl)
        exact Keeps.refl _
      clear_value x2
      refine Keeps.trans ?_ (State.hostWrite_keeps _ _ _ _)
      exact h3

theorem State.setSdm_keeps (s : State) (h : Half) (v : Sdm) :
    Keeps s (State.setSdm s h v) := by
  unfold State.setSdm
  refine Keeps.trans ?_ (Keeps.upd (s := s) rfl rfl rfl rfl)
  exact Keeps.refl _

theorem State.sdmShow_keeps (s : State) (h : Half) :
    Keeps s (State.sdmShow s h) := by
  unfold State.sdmShow
  extract_lets +onlyGivenNames x1 x2 x3
  clear_value x1
  have h4 : Keeps s x2 := by
    unfold x2
    refine Keeps.trans ?_ (State.put_keeps _ _ _ _)
    exact Keeps.refl _
  clear_value x2
  have h5 : Keeps s x3 := by
    unfold x3
    refine Keeps.trans ?_ (State.put_keeps _ _ _ _)
    exact h4
  clear_value x3
  refine Keeps.trans ?_ (State.putB_keeps _ _ _ _)
  exact h5

theorem State.setSdmState_keeps (s : State) (h : Half) (c : Nat) (st : Nat) :
    Keeps s (State.setSdmState s h c st) := by
  unfold State.setSdmState
  refine Keeps.trans ?_ (State.put_keeps _ _ _ _)
  exact Keeps.refl _

theorem State.sdmStore_keeps (s : State) (ba : Nat) (bs : List Byte) :
    Keeps s (State.sdmStore s ba bs) := by
  unfold State.sdmStore
  extract_lets +onlyGivenNames x1 x2
  have h3 : Keeps s x1 := by
    unfold x1
    refine Keeps.trans ?_ (State.bufStore_keeps _ _ _)
    exact Keeps.refl _
  clear_value x1
  clear_value x2
  refine Keeps.foldl ?_ ?_
  · exact h3
  · intro a4 b5
    extract_lets +onlyGivenNames x6
    clear_value x6
    refine Keeps.ite ?_ ?_
    · refine Keeps.trans ?_ (State.setPoison_keeps _ _ _ _ _)
      exact Keeps.refl _
    · exact Keeps.refl _

theorem State.sdmMove_keeps (s : State) (h : Half) (d : SdmDesc) (data : List Byte) (upto : Nat) :
    Keeps s (State.sdmMove s h d data upto) := by
  unfold State.sdmMove
  extract_lets +onlyGivenNames x1
  clear_value x1
  refine Keeps.ite ?_ ?_
  · refine Keeps.trans ?_ (State.hostWrite_keeps _ _ _ _)
    exact Keeps.refl _
  · refine Keeps.ite ?_ ?_
    · refine Keeps.trans ?_ (State.sdmStore_keeps _ _ _)
      exact Keeps.refl _
    · split
      · rename_i y2 y3
        exact Keeps.refl _
      · rename_i y4 y5 y6
        extract_lets +onlyGivenNames x7
        clear_value x7
        extract_lets +onlyGivenNames x8
        clear_value x8
        refine Keeps.trans ?_ (Keeps.upd (s := s) rfl rfl rfl rfl)
        exact Keeps.refl _

theorem State.sdmPost_keeps (s : State) (h : Half) (c : Nat) (w : List Nat) (irq : Bool) :
    Keeps s (State.sdmPost s h c w irq) := by
  unfold State.sdmPost
  extract_lets +onlyGivenNames x1 x2 x3 x4 x5 x6 x7 x8 x9 x10
  clear_value x1
  clear_value x2
  clear_value x3
  clear_value x4
  clear_value x5
  clear_value x6
  have h11 : Keeps s x7 := by
    unfold x7
    refine Keeps.ite ?_ ?_
    · refine Keeps.ite ?_ ?_
      · exact Keeps.refl _
      · refine Keeps.trans ?_ (State.sdmStore_keeps _ _ _)
        exact Keeps.refl _
    · refine Keeps.ite ?_ ?_
      · refine Keeps.trans ?_ (State.hostWrite_keeps _ _ _ _)
        exact Keeps.refl _
      · exact Keeps.refl _
  clear_value x7
  clear_value x8
  have h12 : Keeps s x9 := by
    unfold x9
    refine Keeps.trans ?_ (State.put_keeps _ _ _ _)
    exact h11
  clear_value x9
  clear_value x10
  extract_lets +onlyGivenNames x13
  have h14 : Keeps s x13 := by
    unfold x13
    refine Keeps.ite ?_ ?_
    · refine Keeps.trans ?_ (State.setSdm_keeps _ _ _)
      exact h12
    · exact h12
  clear_value x13
  refine Keeps.ite ?_ ?_
  · refine Keeps.trans ?_ (State.msix_keeps _ _ _)
    exact h14
  · exact h14

theorem State.sdmRecord_keeps (s : State) (h : Half) (c : Nat) (w : List Nat) (irq : Bool) :
    Keeps s (State.sdmRecord s h c w irq) := by
  unfold State.sdmRecord
  refine Keeps.ite ?_ ?_
  · refine Keeps.trans ?_ (State.flag_keeps _ _ _)
    extract_lets +onlyGivenNames x1
    clear_value x1
    refine Keeps.trans ?_ (State.setSdm_keeps _ _ _)
    exact Keeps.refl _
  · refine Keeps.trans ?_ (State.sdmPost_keeps _ _ _ _ _)
    exact Keeps.refl _

theorem State.sdmEnd_keeps (s : State) (h : Half) (c : Nat) (st : Nat) (off : Nat) (fetched : Bool) :
    Keeps s (State.sdmEnd s h c st off fetched) := by
  unfold State.sdmEnd
  extract_lets +onlyGivenNames x1 x2 x3 x4 x5 x6 x7 x8 x9 x10 x11 x12
  clear_value x1
  clear_value x2
  clear_value x3
  clear_value x4
  clear_value x5
  clear_value x6
  have h13 : Keeps s x7 := by
    unfold x7
    refine Keeps.trans ?_ (State.setSdm_keeps _ _ _)
    exact Keeps.refl _
  clear_value x7
  have h14 : Keeps s x8 := by
    unfold x8
    refine Keeps.ite ?_ ?_
    · refine Keeps.trans ?_ (State.put_keeps _ _ _ _)
      exact h13
    · exact h13
  clear_value x8
  have h15 : Keeps s x9 := by
    unfold x9
    refine Keeps.trans ?_ (State.count_keeps _ _ _ _ _ _)
    exact h14
  clear_value x9
  have h16 : Keeps s x10 := by
    unfold x10
    refine Keeps.trans ?_ (State.count_keeps _ _ _ _ _ _)
    exact h15
  clear_value x10
  have h17 : Keeps s x11 := by
    unfold x11
    refine Keeps.trans ?_ (State.flag_keeps _ _ _)
    refine Keeps.trans ?_ (State.count_keeps _ _ _ _ _ _)
    exact h16
  clear_value x11
  have h18 : Keeps s x12 := by
    unfold x12
    refine Keeps.trans ?_ (State.put_keeps _ _ _ _)
    refine Keeps.trans ?_ (State.put_keeps _ _ _ _)
    refine Keeps.trans ?_ (State.put_keeps _ _ _ _)
    exact h17
  clear_value x12
  extract_lets +onlyGivenNames x19 x20
  have h21 : Keeps s x19 := by
    unfold x19
    refine Keeps.trans ?_ (State.chimney_keeps _ _ _ _ _ _)
    exact h18
  clear_value x19
  clear_value x20
  extract_lets +onlyGivenNames x22 x23
  have h24 : Keeps s x22 := by
    unfold x22
    refine Keeps.ite ?_ ?_
    · exact h16
    · refine Keeps.trans ?_ (State.setSdm_keeps _ _ _)
      refine Keeps.trans ?_ (State.setSdmState_keeps _ _ _ _)
      exact h21
  clear_value x22
  clear_value x23
  refine Keeps.trans ?_ (State.sdmRecord_keeps _ _ _ _ _)
  exact h24

theorem State.sdmFetch_keeps (s : State) (h : Half) (c : Nat) (words : List Nat) (ue : Option Nat) :
    Keeps s (State.sdmFetch s h c words ue) := by
  unfold State.sdmFetch
  extract_lets +onlyGivenNames x1 x2
  clear_value x1
  clear_value x2
  refine Keeps.ite ?_ ?_
  · split
    · rename_i y3 y4 y5
      refine Keeps.trans ?_ (State.sdmEnd_keeps _ _ _ _ _ _)
      exact Keeps.refl _
    · rename_i y6 y7
      extract_lets +onlyGivenNames x8
      clear_value x8
      refine Keeps.trans ?_ (State.setSdm_keeps _ _ _)
      exact Keeps.refl _
  · refine Keeps.ite ?_ ?_
    · refine Keeps.trans ?_ (State.sdmEnd_keeps _ _ _ _ _ _)
      exact Keeps.refl _
    · refine Keeps.ite ?_ ?_
      · extract_lets +onlyGivenNames x9
        clear_value x9
        refine Keeps.trans ?_ (State.setSdm_keeps _ _ _)
        exact Keeps.refl _
      · exact Keeps.refl _

theorem State.sdmTurnEnd_keeps (s : State) (h : Half) :
    Keeps s (State.sdmTurnEnd s h) := by
  unfold State.sdmTurnEnd
  split
  · rename_i y1 y2
    exact Keeps.refl _
  · rename_i y3 y4 y5 y6
    extract_lets +onlyGivenNames x7
    clear_value x7
    extract_lets +onlyGivenNames x8
    have h9 : Keeps s x8 := by
      unfold x8
      refine Keeps.trans ?_ (State.setSdm_keeps _ _ _)
      exact Keeps.refl _
    clear_value x8
    refine Keeps.ite ?_ ?_
    · refine Keeps.trans ?_ (State.setSdmState_keeps _ _ _ _)
      exact h9
    · exact h9

theorem State.sdmNext_keeps (s : State) (h : Half) (words : List Nat) (ue : Option Nat) :
    Keeps s (State.sdmNext s h words ue) := by
  unfold State.sdmNext
  split
  · rename_i y1 y2
    exact Keeps.refl _
  · rename_i y3 y4 y5 y6
    refine Keeps.ite ?_ ?_
    · refine Keeps.trans ?_ (State.sdmTurnEnd_keeps _ _)
      exact Keeps.refl _
    · refine Keeps.trans ?_ (State.sdmFetch_keeps _ _ _ _ _)
      exact Keeps.refl _

theorem sdmTakeChannel.heldFirst_keeps (h : Half) (c : Nat) (s : State) :
    Keeps s (sdmTakeChannel.heldFirst h c s) := by
  unfold sdmTakeChannel.heldFirst
  split
  · rename_i y1 y2
    exact Keeps.refl _
  · rename_i y3 y4 y5 y6
    refine Keeps.ite ?_ ?_
    · exact Keeps.refl _
    · refine Keeps.trans ?_ (State.sdmPost_keeps _ _ _ _ _)
      extract_lets +onlyGivenNames x7
      clear_value x7
      refine Keeps.trans ?_ (State.setSdm_keeps _ _ _)
      exact Keeps.refl _

theorem sdmDescriptorEnd_keeps (h : Half) (data : List Byte) (ue : Option Nat) (next : List Nat) (s : State) :
    Keeps s (sdmDescriptorEnd h data ue next s) := by
  unfold sdmDescriptorEnd
  split
  · rename_i y1 y2 y3 y4 y5 y6 y7
    extract_lets +onlyGivenNames x8
    clear_value x8
    refine Keeps.ite ?_ ?_
    · refine Keeps.trans ?_ (State.sdmShow_keeps _ _)
      refine Keeps.trans ?_ (State.sdmNext_keeps _ _ _ _)
      refine Keeps.trans ?_ (State.sdmEnd_keeps _ _ _ _ _ _)
      exact Keeps.refl _
    · split
      · rename_i y9 y10 y11 y12
        refine Keeps.trans ?_ (State.sdmShow_keeps _ _)
        refine Keeps.trans ?_ (State.sdmNext_keeps _ _ _ _)
        refine Keeps.trans ?_ (State.sdmEnd_keeps _ _ _ _ _ _)
        refine Keeps.trans ?_ (State.sdmMove_keeps _ _ _ _ _)
        exact Keeps.refl _
      · rename_i y13 y14
        refine Keeps.ite ?_ ?_
        · exact Keeps.refl _
        · refine Keeps.trans ?_ (State.sdmShow_keeps _ _)
          refine Keeps.trans ?_ (State.sdmNext_keeps _ _ _ _)
          refine Keeps.trans ?_ (State.sdmEnd_keeps _ _ _ _ _ _)
          refine Keeps.trans ?_ (State.sdmMove_keeps _ _ _ _ _)
          exact Keeps.refl _
  · rename_i y15 y16 y17
    exact Keeps.refl _

theorem execSdmDescriptorEnd_keeps (h : Half) (data : List Byte) (ue : Option Nat) (next : List Nat) (s : State) :
    OutKeeps s (execSdmDescriptorEnd h data ue next s) := by
  unfold execSdmDescriptorEnd
  split
  · exact OutKeeps.next (sdmDescriptorEnd_keeps ..)
  · dsimp only
    split
    · intro t e; cases e
    · exact OutKeeps.next (sdmDescriptorEnd_keeps ..)

theorem State.sdmHostFail_keeps (s : State) (h : Half) (st : Nat) (data : List Byte) :
    Keeps s (State.sdmHostFail s h st data) := by
  unfold State.sdmHostFail
  split
  · rename_i y1 y2 y3 y4 y5 y6 y7
    extract_lets +onlyGivenNames x8
    clear_value x8
    refine Keeps.ite ?_ ?_
    · exact Keeps.refl _
    · refine Keeps.trans ?_ (State.sdmShow_keeps _ _)
      refine Keeps.trans ?_ (State.sdmEnd_keeps _ _ _ _ _ _)
      refine Keeps.trans ?_ (State.sdmMove_keeps _ _ _ _ _)
      exact Keeps.refl _
  · rename_i y9 y10 y11 y12 y13 y14
    refine Keeps.ite ?_ ?_
    · exact Keeps.refl _
    · refine Keeps.trans ?_ (State.sdmShow_keeps _ _)
      refine Keeps.trans ?_ (State.sdmEnd_keeps _ _ _ _ _ _)
      exact Keeps.refl _
  · rename_i y15 y16 y17 y18
    exact Keeps.refl _

theorem sdmHostTimeout_keeps (h : Half) (data : List Byte) (s : State) :
    Keeps s (sdmHostTimeout h data s) := by
  unfold sdmHostTimeout
  extract_lets +onlyGivenNames x1
  have h2 : Keeps s x1 := by
    unfold x1
    refine Keeps.trans ?_ (State.sdmHostFail_keeps _ _ _ _)
    exact Keeps.refl _
  clear_value x1
  refine Keeps.ite ?_ ?_
  · exact Keeps.refl _
  · refine Keeps.trans ?_ (State.flag_keeps _ _ _)
    exact h2

theorem execSdmHostTimeout_keeps (h : Half) (data : List Byte) (s : State) :
    OutKeeps s (execSdmHostTimeout h data s) := by
  unfold execSdmHostTimeout
  refine OutKeeps.next ?_
  refine Keeps.trans ?_ (sdmHostTimeout_keeps _ _ _)
  exact Keeps.refl _

theorem State.sdmEnable_keeps (s : State) (h : Half) (c : Nat) :
    Keeps s (State.sdmEnable s h c) := by
  unfold State.sdmEnable
  extract_lets +onlyGivenNames x1
  clear_value x1
  refine Keeps.ite ?_ ?_
  · exact Keeps.refl _
  · extract_lets +onlyGivenNames x2 x3 x4 x5 x6
    have h7 : Keeps s x2 := by
      unfold x2
      refine Keeps.trans ?_ (State.put_keeps _ _ _ _)
      refine Keeps.trans ?_ (State.flag_keeps _ _ _)
      exact Keeps.refl _
    clear_value x2
    have h8 : Keeps s x3 := by
      unfold x3
      refine Keeps.trans ?_ (State.put_keeps _ _ _ _)
      refine Keeps.trans ?_ (State.put_keeps _ _ _ _)
      refine Keeps.trans ?_ (State.put_keeps _ _ _ _)
      exact h7
    clear_value x3
    clear_value x4
    have h9 : Keeps s x5 := by
      unfold x5
      refine Keeps.trans ?_ (State.setSdm_keeps _ _ _)
      exact h8
    clear_value x5
    have h10 : Keeps s x6 := by
      unfold x6
      refine Keeps.ite ?_ ?_
      · refine Keeps.trans ?_ (State.setSdmState_keeps _ _ _ _)
        exact h9
      · refine Keeps.trans ?_ (State.setSdmState_keeps _ _ _ _)
        refine Keeps.trans ?_ (State.put_keeps _ _ _ _)
        refine Keeps.trans ?_ (State.put_keeps _ _ _ _)
        exact h9
    clear_value x6
    refine Keeps.trans ?_ (State.sdmShow_keeps _ _)
    exact h10

theorem execSdmChannelEnable_keeps (h : Half) (c : Nat) (s : State) :
    OutKeeps s (execSdmChannelEnable h c s) := by
  unfold execSdmChannelEnable
  refine OutKeeps.next ?_
  refine Keeps.trans ?_ (State.sdmEnable_keeps _ _ _)
  exact Keeps.refl _

theorem State.sdmResume_keeps (s : State) (h : Half) (c : Nat) :
    Keeps s (State.sdmResume s h c) := by
  unfold State.sdmResume
  refine Keeps.ite ?_ ?_
  · refine Keeps.trans ?_ (State.sdmShow_keeps _ _)
    refine Keeps.trans ?_ (State.setSdmState_keeps _ _ _ _)
    exact Keeps.refl _
  · exact Keeps.refl _

theorem execResume_keeps (h : Half) (c : Nat) (s : State) :
    OutKeeps s (execResume h c s) := by
  unfold execResume
  refine OutKeeps.next ?_
  refine Keeps.trans ?_ (State.sdmResume_keeps _ _ _)
  exact Keeps.refl _

theorem State.sdmAbort_keeps (s : State) (h : Half) (c : Nat) (moved : Nat) (data : List Byte) :
    Keeps s (State.sdmAbort s h c moved data) := by
  unfold State.sdmAbort
  extract_lets +onlyGivenNames x1
  have h2 : Keeps s x1 := by
    unfold x1
    refine Keeps.ite ?_ ?_
    · refine Keeps.trans ?_ (State.flag_keeps _ _ _)
      exact Keeps.refl _
    · exact Keeps.refl _
  clear_value x1
  split
  · rename_i y3 y4 y5 y6 y7 y8 y9
    refine Keeps.ite ?_ ?_
    · exact h2
    · extract_lets +onlyGivenNames x10 x11 x12
      clear_value x10
      clear_value x11
      clear_value x12
      refine Keeps.trans ?_ (State.sdmEnd_keeps _ _ _ _ _ _)
      refine Keeps.trans ?_ (State.sdmMove_keeps _ _ _ _ _)
      exact h2
  · rename_i y13 y14 y15 y16 y17 y18
    refine Keeps.ite ?_ ?_
    · extract_lets +onlyGivenNames x19
      clear_value x19
      refine Keeps.trans ?_ (State.setSdm_keeps _ _ _)
      exact h2
    · exact h2
  · rename_i y20 y21 y22 y23
    exact h2

theorem State.sdmRewind_keeps (s : State) (h : Half) (c : Nat) :
    Keeps s (State.sdmRewind s h c) := by
  unfold State.sdmRewind
  refine Keeps.trans ?_ (State.put_keeps _ _ _ _)
  refine Keeps.trans ?_ (State.put_keeps _ _ _ _)
  exact Keeps.refl _

theorem State.sdmDisable_keeps (s : State) (h : Half) (c : Nat) (moved : Nat) (data : List Byte) :
    Keeps s (State.sdmDisable s h c moved data) := by
  unfold State.sdmDisable
  refine Keeps.ite ?_ ?_
  · exact Keeps.refl _
  · extract_lets +onlyGivenNames x1 x2
    have h3 : Keeps s x1 := by
      unfold x1
      refine Keeps.trans ?_ (State.sdmRewind_keeps _ _ _)
      refine Keeps.trans ?_ (State.sdmAbort_keeps _ _ _ _ _)
      exact Keeps.refl _
    clear_value x1
    clear_value x2
    extract_lets +onlyGivenNames x4
    have h5 : Keeps s x4 := by
      unfold x4
      refine Keeps.trans ?_ (State.setSdm_keeps _ _ _)
      exact h3
    clear_value x4
    refine Keeps.trans ?_ (State.sdmShow_keeps _ _)
    refine Keeps.trans ?_ (State.setSdmState_keeps _ _ _ _)
    refine Keeps.trans ?_ (State.put_keeps _ _ _ _)
    exact h5

theorem execSdmChannelDisable_keeps (h : Half) (c : Nat) (moved : Nat) (data : List Byte) (s : State) :
    OutKeeps s (execSdmChannelDisable h c moved data s) := by
  unfold execSdmChannelDisable
  refine OutKeeps.next ?_
  refine Keeps.trans ?_ (State.sdmDisable_keeps _ _ _ _ _)
  exact Keeps.refl _

theorem State.sdmReconfig_keeps (s : State) (h : Half) (c : Nat) (w : Nat) (v : Word) (moved : Nat)
    (data : List Byte) :
    Keeps s (State.sdmReconfig s h c w v moved data) := by
  unfold State.sdmReconfig
  refine Keeps.ite ?_ ?_
  · exact Keeps.refl _
  · extract_lets +onlyGivenNames x1 x2
    clear_value x1
    clear_value x2
    refine Keeps.ite ?_ ?_
    · refine Keeps.trans ?_ (State.setWord_keeps _ _ _)
      exact Keeps.refl _
    · refine Keeps.trans ?_ (State.sdmShow_keeps _ _)
      refine Keeps.trans ?_ (State.setSdmState_keeps _ _ _ _)
      refine Keeps.trans ?_ (State.setWord_keeps _ _ _)
      refine Keeps.trans ?_ (State.sdmRewind_keeps _ _ _)
      refine Keeps.trans ?_ (State.sdmAbort_keeps _ _ _ _ _)
      exact Keeps.refl _

theorem execSdmChannelReconfig_keeps (h : Half) (c : Nat) (w : Nat) (v : Word) (moved : Nat) (data : List Byte)
    (s : State) :
    OutKeeps s (execSdmChannelReconfig h c w v moved data s) := by
  unfold execSdmChannelReconfig
  refine OutKeeps.next ?_
  refine Keeps.trans ?_ (State.sdmReconfig_keeps _ _ _ _ _ _ _)
  exact Keeps.refl _

theorem State.sdmPortReset_keeps (s : State) (h : Half) :
    Keeps s (State.sdmPortReset s h) := by
  unfold State.sdmPortReset
  split
  · rename_i y1 y2
    exact Keeps.refl _
  · rename_i y3 y4 y5 y6
    extract_lets +onlyGivenNames x7 x8
    clear_value x7
    clear_value x8
    refine Keeps.ite ?_ ?_
    · refine Keeps.trans ?_ (State.sdmShow_keeps _ _)
      refine Keeps.trans ?_ (State.sdmEnd_keeps _ _ _ _ _ _)
      exact Keeps.refl _
    · exact Keeps.refl _

theorem sdmTakeChannel_keeps (h : Half) (words : List Nat) (ue : Option Nat) (s : State) :
    Keeps s (sdmTakeChannel h words ue s) := by
  unfold sdmTakeChannel
  refine Keeps.ite ?_ ?_
  · exact Keeps.refl _
  · extract_lets +onlyGivenNames x1 x2
    clear_value x1
    clear_value x2
    split
    · rename_i y3 y4
      split
      · rename_i y5 y6
        exact Keeps.refl _
      · rename_i y7 y8 y9
        refine Keeps.trans ?_ (State.sdmShow_keeps _ _)
        refine Keeps.trans ?_ (sdmTakeChannel.heldFirst_keeps _ _ _)
        refine Keeps.trans ?_ (State.put_keeps _ _ _ _)
        exact Keeps.refl _
    · rename_i y10 y11 y12
      extract_lets +onlyGivenNames x13 x14 x15
      have h16 : Keeps s x13 := by
        unfold x13
        refine Keeps.trans ?_ (State.put_keeps _ _ _ _)
        exact Keeps.refl _
      clear_value x13
      have h17 : Keeps s x14 := by
        unfold x14
        refine Keeps.trans ?_ (sdmTakeChannel.heldFirst_keeps _ _ _)
        exact h16
      clear_value x14
      clear_value x15
      extract_lets +onlyGivenNames x18
      have h19 : Keeps s x18 := by
        unfold x18
        refine Keeps.trans ?_ (State.setSdm_keeps _ _ _)
        exact h17
      clear_value x18
      refine Keeps.trans ?_ (State.sdmShow_keeps _ _)
      refine Keeps.trans ?_ (State.sdmNext_keeps _ _ _ _)
      refine Keeps.trans ?_ (State.demand_keeps _ _ _)
      refine Keeps.trans ?_ (State.setSdmState_keeps _ _ _ _)
      exact h19

theorem execSdmTakeChannel_keeps (h : Half) (words : List Nat) (ue : Option Nat) (s : State) :
    OutKeeps s (execSdmTakeChannel h words ue s) := by
  unfold execSdmTakeChannel
  refine OutKeeps.next ?_
  refine Keeps.trans ?_ (sdmTakeChannel_keeps _ _ _ _)
  exact Keeps.refl _

end Sys2Proof.Machine
end

