-- ==== Sys2Proof/Laws/KeepsHostRing.lean ====
section
/-! SUPPORT. What `Keeps` says of every operation of Machine/HostRing.lean. -/

namespace Sys2Proof.Machine

theorem State.setHif_keeps (s : State) (h : Half) (v : Hif) :
    Keeps s (State.setHif s h v) := by
  unfold State.setHif
  refine Keeps.trans ?_ (Keeps.upd (s := s) rfl rfl rfl rfl)
  exact Keeps.refl _

theorem State.setCq_keeps (s : State) (h : Half) (q : Nat) (v : Cq) :
    Keeps s (State.setCq s h q v) := by
  unfold State.setCq
  extract_lets +onlyGivenNames x1
  clear_value x1
  refine Keeps.trans ?_ (State.setHif_keeps _ _ _)
  exact Keeps.refl _

theorem State.hifCount_keeps (s : State) (h : Half) (i : Nat) (n : Nat) :
    Keeps s (State.hifCount s h i n) := by
  unfold State.hifCount
  refine Keeps.trans ?_ (State.count_keeps _ _ _ _ _ _)
  exact Keeps.refl _

theorem State.payloadWrite_keeps (s : State) (h : Half) (l : List (Nat × Nat)) (bs : List Byte) :
    Keeps s (s.payloadWrite h l bs) := by
  induction l generalizing s bs with
  | nil => exact Keeps.refl _
  | cons e l ih => exact (State.hostWrite_keeps s h e.1 (bs.take e.2)).trans (ih _ _)

theorem State.setCmd_keeps (s : State) (h : Half) (c : Cmd) :
    Keeps s (State.setCmd s h c) := by
  unfold State.setCmd
  extract_lets +onlyGivenNames x1
  clear_value x1
  refine Keeps.trans ?_ (State.setHif_keeps _ _ _)
  exact Keeps.refl _

theorem State.cmdEnd_keeps (s : State) (h : Half) (n : Nat) (st : Nat) (det : Nat) (res : Nat) :
    Keeps s (State.cmdEnd s h n st det res) := by
  unfold State.cmdEnd
  split
  · rename_i y1 y2
    exact Keeps.refl _
  · rename_i y3 y4 y5
    refine Keeps.ite ?_ ?_
    · exact Keeps.refl _
    · refine Keeps.trans ?_ (State.setCmd_keeps _ _ _)
      exact Keeps.refl _

theorem State.cmdFail_keeps (s : State) (h : Half) (n : Nat) (st : Nat) (det : Nat) :
    Keeps s (State.cmdFail s h n st det) := by
  unfold State.cmdFail
  split
  · rename_i y1 y2 y3 y4
    have h5 : Keeps s y3 := by
      refine Keeps2.use ?_ y4
      refine Keeps2.trans ?_ (State.takeFree_keeps _)
      exact Keeps.refl _
    refine Keeps.trans ?_ (State.cmdEnd_keeps _ _ _ _ _ _)
    exact h5

theorem State.hifShow_keeps (s : State) (h : Half) :
    Keeps s (State.hifShow s h) := by
  unfold State.hifShow
  extract_lets +onlyGivenNames x1 x2
  clear_value x1
  clear_value x2
  refine Keeps.trans ?_ (State.putB_keeps _ _ _ _)
  refine Keeps.trans ?_ (State.put_keeps _ _ _ _)
  refine Keeps.trans ?_ (State.put_keeps _ _ _ _)
  exact Keeps.refl _

theorem State.logLost_keeps (s : State) (h : Half) (c : Cmd) (st : Nat) (det : Nat) (res : Nat) :
    Keeps s (State.logLost s h c st det res) := by
  unfold State.logLost
  extract_lets +onlyGivenNames x1 x2 x3 x4 x5
  clear_value x1
  clear_value x2
  clear_value x3
  clear_value x4
  have h6 : Keeps s x5 := by
    unfold x5
    refine Keeps.ite ?_ ?_
    · refine Keeps.foldl ?_ ?_
      · exact Keeps.refl _
      · intro a7 b8
        split
        · rename_i y9 y10 y11
          refine Keeps.trans ?_ (State.setWord_keeps _ _ _)
          exact Keeps.refl _
    · refine Keeps.trans ?_ (State.flag_keeps _ _ _)
      refine Keeps.trans ?_ (State.flag_keeps _ _ _)
      exact Keeps.refl _
  clear_value x5
  refine Keeps.trans ?_ (State.hifCount_keeps _ _ _ _)
  refine Keeps.trans ?_ (State.satAdd_keeps _ _ _ _)
  exact h6

theorem State.cmdGone_keeps (s : State) (h : Half) (n : Nat) :
    Keeps s (State.cmdGone s h n) := by
  unfold State.cmdGone
  extract_lets +onlyGivenNames x1 x2
  clear_value x1
  have h3 : Keeps s x2 := by
    unfold x2
    refine Keeps.trans ?_ (State.setHif_keeps _ _ _)
    exact Keeps.refl _
  clear_value x2
  extract_lets +onlyGivenNames x4
  have h5 : ∀ v6 v7, Keeps v6 (x4 v6 v7) := by
    intro v6 v7
    unfold x4
    extract_lets +onlyGivenNames x8
    clear_value x8
    refine Keeps.trans ?_ (State.setHif_keeps _ _ _)
    exact Keeps.refl _
  clear_value x4
  refine Keeps.trans ?_ (h5 _ _)
  refine Keeps.trans ?_ (h5 _ _)
  exact h3

theorem State.cqMessage_keeps (s : State) (h : Half) (q : Nat) :
    Keeps s (State.cqMessage s h q) := by
  unfold State.cqMessage
  extract_lets +onlyGivenNames x1
  clear_value x1
  refine Keeps.ite ?_ ?_
  · refine Keeps.trans ?_ (State.msix_keeps _ _ _)
    refine Keeps.trans ?_ (State.setCq_keeps _ _ _ _)
    exact Keeps.refl _
  · exact Keeps.refl _

theorem State.writeRecord_keeps (s : State) (h : Half) (q : Nat) (c : Cmd) (st : Nat) (det : Nat) (res : Nat) :
    Keeps s (State.writeRecord s h q c st det res) := by
  unfold State.writeRecord
  extract_lets +onlyGivenNames x1 x2 x3 x4 x5 x6 x7 x8 x9 x10 x11 x12 x13 x14
  clear_value x1
  clear_value x2
  clear_value x3
  clear_value x4
  have h15 : Keeps s x5 := by
    unfold x5
    refine Keeps.trans ?_ (State.hostWrite_keeps _ _ _ _)
    exact Keeps.refl _
  clear_value x5
  clear_value x6
  have h16 : Keeps s x7 := by
    unfold x7
    refine Keeps.trans ?_ (State.setCq_keeps _ _ _ _)
    exact h15
  clear_value x7
  have h17 : Keeps s x8 := by
    unfold x8
    refine Keeps.trans ?_ (State.hifCount_keeps _ _ _ _)
    exact h16
  clear_value x8
  have h18 : Keeps s x9 := by
    unfold x9
    refine Keeps.ite ?_ ?_
    · refine Keeps.trans ?_ (State.hifCount_keeps _ _ _ _)
      exact h17
    · exact h17
  clear_value x9
  have h19 : Keeps s x10 := by
    unfold x10
    refine Keeps.trans ?_ (State.bump48_keeps _ _ _ _)
    exact h18
  clear_value x10
  have h20 : Keeps s x11 := by
    unfold x11
    refine Keeps.ite ?_ ?_
    · refine Keeps.trans ?_ (State.bump48_keeps _ _ _ _)
      exact h19
    · exact h19
  clear_value x11
  clear_value x12
  have h21 : Keeps s x13 := by
    unfold x13
    refine Keeps.ite ?_ ?_
    · refine Keeps.trans ?_ (State.setHif_keeps _ _ _)
      exact h20
    · exact h20
  clear_value x13
  clear_value x14
  extract_lets +onlyGivenNames x22
  have h23 : Keeps s x22 := by
    unfold x22
    refine Keeps.trans ?_ (Keeps.upd (s := x13) rfl rfl rfl rfl)
    exact h21
  clear_value x22
  refine Keeps.trans ?_ (State.hifShow_keeps _ _)
  refine Keeps.trans ?_ (State.cqMessage_keeps _ _ _)
  refine Keeps.trans ?_ (State.cmdGone_keeps _ _ _)
  exact h23

theorem State.postCmd_keeps (s : State) (h : Half) (c : Cmd) (st : Nat) (det : Nat) (res : Nat) :
    Keeps s (State.postCmd s h c st det res) := by
  unfold State.postCmd
  extract_lets +onlyGivenNames x1
  clear_value x1
  refine Keeps.ite ?_ ?_
  · refine Keeps.trans ?_ (State.hifShow_keeps _ _)
    refine Keeps.trans ?_ (State.cmdGone_keeps _ _ _)
    refine Keeps.trans ?_ (State.logLost_keeps _ _ _ _ _ _)
    exact Keeps.refl _
  · refine Keeps.ite ?_ ?_
    · exact Keeps.refl _
    · refine Keeps.ite ?_ ?_
      · refine Keeps.trans ?_ (State.hifShow_keeps _ _)
        refine Keeps.trans ?_ (State.cmdGone_keeps _ _ _)
        refine Keeps.trans ?_ (State.logLost_keeps _ _ _ _ _ _)
        exact Keeps.refl _
      · refine Keeps.ite ?_ ?_
        · refine Keeps.ite ?_ ?_
          · exact Keeps.refl _
          · extract_lets +onlyGivenNames x2
            clear_value x2
            refine Keeps.trans ?_ (State.setCq_keeps _ _ _ _)
            exact Keeps.refl _
        · refine Keeps.trans ?_ (State.writeRecord_keeps _ _ _ _ _ _ _)
          exact Keeps.refl _

theorem State.cqPump_keeps (s : State) (h : Half) (q : Nat) (l : List Nat) : Keeps s (s.cqPump h q l) := by
  induction l generalizing s with
  | nil => exact Keeps.refl _
  | cons n l ih =>
    unfold State.cqPump
    refine Keeps.ite (Keeps.refl _) ?_
    split
    · split
      · exact (State.writeRecord_keeps ..).trans (ih _)
      · exact ih _
    · exact ih _

theorem State.cqDrop_keeps (s : State) (h : Half) (q : Nat) :
    Keeps s (State.cqDrop s h q) := by
  unfold State.cqDrop
  extract_lets +onlyGivenNames x1 x2
  clear_value x1
  clear_value x2
  extract_lets +onlyGivenNames x3
  have h4 : Keeps s x3 := by
    unfold x3
    refine Keeps.trans ?_ (State.setCq_keeps _ _ _ _)
    exact Keeps.refl _
  clear_value x3
  refine Keeps.trans ?_ (State.hifShow_keeps _ _)
  refine Keeps.foldl ?_ ?_
  · exact h4
  · intro a5 b6
    split
    · rename_i y7 y8 y9
      split
      · rename_i y10 y11 y12 y13 y14
        refine Keeps.trans ?_ (State.cmdGone_keeps _ _ _)
        refine Keeps.trans ?_ (State.logLost_keeps _ _ _ _ _ _)
        exact Keeps.refl _
      · rename_i y15 y16
        exact Keeps.refl _
    · rename_i y17 y18
      exact Keeps.refl _

theorem State.ringRecord_keeps (s : State) (h : Half) (cq : Bool) (q : Nat) (cause : Nat) :
    Keeps s (State.ringRecord s h cq q cause) := by
  unfold State.ringRecord
  extract_lets +onlyGivenNames x1
  clear_value x1
  refine Keeps.ite ?_ ?_
  · exact Keeps.refl _
  · refine Keeps.trans ?_ (State.flag_keeps _ _ _)
    refine Keeps.trans ?_ (State.put_keeps _ _ _ _)
    refine Keeps.trans ?_ (State.putB_keeps _ _ _ _)
    refine Keeps.trans ?_ (State.put_keeps _ _ _ _)
    exact Keeps.refl _

theorem State.sqPurge_keeps (s : State) (h : Half) (q : Nat) :
    Keeps s (State.sqPurge s h q) := by
  unfold State.sqPurge
  refine Keeps.trans ?_ (State.hifShow_keeps _ _)
  extract_lets +onlyGivenNames x1
  clear_value x1
  refine Keeps.trans ?_ (State.setHif_keeps _ _ _)
  exact Keeps.refl _

theorem State.ringError_keeps (s : State) (h : Half) (cq : Bool) (q : Nat) (cause : Nat) :
    Keeps s (State.ringError s h cq q cause) := by
  unfold State.ringError
  extract_lets +onlyGivenNames x1 x2 x3
  have h4 : Keeps s x1 := by
    unfold x1
    refine Keeps.ite ?_ ?_
    · refine Keeps.trans ?_ (State.flag_keeps _ _ _)
      exact Keeps.refl _
    · refine Keeps.trans ?_ (State.flag_keeps _ _ _)
      exact Keeps.refl _
  clear_value x1
  have h5 : Keeps s x2 := by
    unfold x2
    refine Keeps.trans ?_ (State.flag_keeps _ _ _)
    refine Keeps.trans ?_ (State.ringRecord_keeps _ _ _ _ _)
    exact h4
  clear_value x2
  have h6 : Keeps s x3 := by
    unfold x3
    refine Keeps.trans ?_ (State.chimney_keeps _ _ _ _ _ _)
    exact h5
  clear_value x3
  refine Keeps.ite ?_ ?_
  · refine Keeps.trans ?_ (State.cqDrop_keeps _ _ _)
    exact h6
  · refine Keeps.trans ?_ (State.sqPurge_keeps _ _ _)
    exact h6

theorem State.submit_keeps (s : State) (h : Half) (q depth n idx : Nat) : Keeps s (s.submit h q depth n idx) := by
  induction n generalizing s idx with
  | zero => exact Keeps.refl _
  | succ n ih =>
    unfold State.submit
    dsimp only
    refine Keeps.trans ?_ (ih _ _)
    exact Keeps.upd rfl rfl rfl rfl

theorem sqDoorbell_keeps (h : Half) (q : Nat) (tail : Nat) (s : State) :
    Keeps s (sqDoorbell h q tail s) := by
  unfold sqDoorbell
  refine Keeps.ite ?_ ?_
  · exact Keeps.refl _
  · refine Keeps.ite ?_ ?_
    · refine Keeps.trans ?_ (State.ringRecord_keeps _ _ _ _ _)
      exact Keeps.refl _
    · refine Keeps.ite ?_ ?_
      · exact Keeps.refl _
      · extract_lets +onlyGivenNames x1 x2 x3
        clear_value x1
        clear_value x2
        clear_value x3
        refine Keeps.ite ?_ ?_
        · refine Keeps.trans ?_ (State.ringError_keeps _ _ _ _ _)
          exact Keeps.refl _
        · refine Keeps.ite ?_ ?_
          · exact Keeps.refl _
          · extract_lets +onlyGivenNames x4 x5
            clear_value x4
            clear_value x5
            refine Keeps.ite ?_ ?_
            · refine Keeps.trans ?_ (State.ringError_keeps _ _ _ _ _)
              exact Keeps.refl _
            · extract_lets +onlyGivenNames x6
              clear_value x6
              extract_lets +onlyGivenNames x7
              have h8 : Keeps s x7 := by
                unfold x7
                refine Keeps.trans ?_ (State.setHif_keeps _ _ _)
                exact Keeps.refl _
              clear_value x7
              refine Keeps.trans ?_ (State.hifShow_keeps _ _)
              refine Keeps.trans ?_ (State.demand_keeps _ _ _)
              refine Keeps.trans ?_ (State.submit_keeps _ _ _ _ _ _)
              exact h8

theorem execSqDoorbell_keeps (h : Half) (q : Nat) (tail : Nat) (s : State) :
    OutKeeps s (execSqDoorbell h q tail s) := by
  unfold execSqDoorbell
  refine OutKeeps.next ?_
  refine Keeps.trans ?_ (sqDoorbell_keeps _ _ _ _)
  exact Keeps.refl _

theorem cqDoorbell_keeps (h : Half) (q : Nat) (head : Nat) (s : State) :
    Keeps s (cqDoorbell h q head s) := by
  unfold cqDoorbell
  refine Keeps.ite ?_ ?_
  · exact Keeps.refl _
  · refine Keeps.ite ?_ ?_
    · refine Keeps.trans ?_ (State.ringRecord_keeps _ _ _ _ _)
      exact Keeps.refl _
    · refine Keeps.ite ?_ ?_
      · exact Keeps.refl _
      · extract_lets +onlyGivenNames x1 x2 x3
        clear_value x1
        clear_value x2
        clear_value x3
        refine Keeps.ite ?_ ?_
        · refine Keeps.trans ?_ (State.ringError_keeps _ _ _ _ _)
          exact Keeps.refl _
        · refine Keeps.ite ?_ ?_
          · refine Keeps.trans ?_ (State.ringError_keeps _ _ _ _ _)
            exact Keeps.refl _
          · extract_lets +onlyGivenNames x4
            have h5 : Keeps s x4 := by
              unfold x4
              refine Keeps.trans ?_ (State.setCq_keeps _ _ _ _)
              exact Keeps.refl _
            clear_value x4
            refine Keeps.trans ?_ (State.cqPump_keeps _ _ _ _)
            exact h5

theorem execCqDoorbell_keeps (h : Half) (q : Nat) (head : Nat) (s : State) :
    OutKeeps s (execCqDoorbell h q head s) := by
  unfold execCqDoorbell
  refine OutKeeps.next ?_
  refine Keeps.trans ?_ (cqDoorbell_keeps _ _ _ _)
  exact Keeps.refl _

theorem descriptorFetch_keeps (h : Half) (words : List Nat) (list : List (Nat × Nat)) (s : State) :
    Keeps s (descriptorFetch h words list s) := by
  unfold descriptorFetch
  extract_lets +onlyGivenNames x1
  clear_value x1
  split
  · rename_i y2 y3
    exact Keeps.refl _
  · rename_i y4 y5 y6 y7
    refine Keeps.ite ?_ ?_
    · exact Keeps.refl _
    · refine Keeps.ite ?_ ?_
      · refine Keeps.trans ?_ (State.ringError_keeps _ _ _ _ _)
        exact Keeps.refl _
      · extract_lets +onlyGivenNames x8 x9 x10 x11 x12 x13 x14 x15 x16 x17 x18
        have h19 : Keeps s x8 := by
          unfold x8
          refine Keeps.trans ?_ (State.setHif_keeps _ _ _)
          exact Keeps.refl _
        clear_value x8
        have h20 : Keeps s x9 := by
          unfold x9
          refine Keeps.trans ?_ (State.put_keeps _ _ _ _)
          exact h19
        clear_value x9
        clear_value x10
        clear_value x11
        clear_value x12
        clear_value x13
        clear_value x14
        clear_value x15
        clear_value x16
        have h21 : Keeps s x17 := by
          unfold x17
          refine Keeps.trans ?_ (State.setHif_keeps _ _ _)
          exact h20
        clear_value x17
        have h22 : Keeps s x18 := by
          unfold x18
          refine Keeps.ite ?_ ?_
          · refine Keeps.trans ?_ (State.hifCount_keeps _ _ _ _)
            refine Keeps.trans ?_ (State.flag_keeps _ _ _)
            exact h21
          · exact h21
        clear_value x18
        extract_lets +onlyGivenNames x23
        have h24 : Keeps s x23 := by
          unfold x23
          split
          · rename_i y25 y26 y27
            refine Keeps.trans ?_ (State.cmdFail_keeps _ _ _ _ _)
            exact h22
          · rename_i y28
            exact h22
        clear_value x23
        refine Keeps.trans ?_ (State.hifShow_keeps _ _)
        exact h24

theorem execDescriptorFetch_keeps (h : Half) (words : List Nat) (list : List (Nat × Nat)) (s : State) :
    OutKeeps s (execDescriptorFetch h words list s) := by
  unfold execDescriptorFetch
  refine OutKeeps.next ?_
  refine Keeps.trans ?_ (descriptorFetch_keeps _ _ _ _)
  exact Keeps.refl _

theorem State.sqEnable_keeps (s : State) (h : Half) (q : Nat) :
    Keeps s (State.sqEnable s h q) := by
  unfold State.sqEnable
  refine Keeps.ite ?_ ?_
  · exact Keeps.refl _
  · extract_lets +onlyGivenNames x1 x2
    have h3 : Keeps s x1 := by
      unfold x1
      refine Keeps.trans ?_ (State.put_keeps _ _ _ _)
      refine Keeps.trans ?_ (State.flag_keeps _ _ _)
      exact Keeps.refl _
    clear_value x1
    clear_value x2
    extract_lets +onlyGivenNames x4
    have h5 : Keeps s x4 := by
      unfold x4
      refine Keeps.trans ?_ (State.setHif_keeps _ _ _)
      exact h3
    clear_value x4
    refine Keeps.ite ?_ ?_
    · exact h5
    · refine Keeps.trans ?_ (State.ringError_keeps _ _ _ _ _)
      exact h5

theorem execSqEnable_keeps (h : Half) (q : Nat) (s : State) :
    OutKeeps s (execSqEnable h q s) := by
  unfold execSqEnable
  refine OutKeeps.next ?_
  refine Keeps.trans ?_ (State.sqEnable_keeps _ _ _)
  exact Keeps.refl _

theorem State.cqEnable_keeps (s : State) (h : Half) (q : Nat) :
    Keeps s (State.cqEnable s h q) := by
  unfold State.cqEnable
  refine Keeps.ite ?_ ?_
  · exact Keeps.refl _
  · extract_lets +onlyGivenNames x1
    have h2 : Keeps s x1 := by
      unfold x1
      refine Keeps.trans ?_ (State.setCq_keeps _ _ _ _)
      refine Keeps.trans ?_ (State.flag_keeps _ _ _)
      exact Keeps.refl _
    clear_value x1
    refine Keeps.ite ?_ ?_
    · exact h2
    · refine Keeps.trans ?_ (State.ringError_keeps _ _ _ _ _)
      exact h2

theorem execCqEnable_keeps (h : Half) (q : Nat) (s : State) :
    OutKeeps s (execCqEnable h q s) := by
  unfold execCqEnable
  refine OutKeeps.next ?_
  refine Keeps.trans ?_ (State.cqEnable_keeps _ _ _)
  exact Keeps.refl _

theorem State.ringDisable_keeps (s : State) (h : Half) (cq : Bool) (q : Nat) :
    Keeps s (State.ringDisable s h cq q) := by
  unfold State.ringDisable
  refine Keeps.ite ?_ ?_
  · exact Keeps.refl _
  · refine Keeps.ite ?_ ?_
    · refine Keeps.ite ?_ ?_
      · exact Keeps.refl _
      · refine Keeps.trans ?_ (State.cqDrop_keeps _ _ _)
        refine Keeps.trans ?_ (State.put_keeps _ _ _ _)
        refine Keeps.trans ?_ (State.put_keeps _ _ _ _)
        exact Keeps.refl _
    · refine Keeps.ite ?_ ?_
      · exact Keeps.refl _
      · refine Keeps.trans ?_ (State.sqPurge_keeps _ _ _)
        refine Keeps.trans ?_ (State.put_keeps _ _ _ _)
        refine Keeps.trans ?_ (State.put_keeps _ _ _ _)
        exact Keeps.refl _

theorem execRingDisable_keeps (h : Half) (cq : Bool) (q : Nat) (s : State) :
    OutKeeps s (execRingDisable h cq q s) := by
  unfold execRingDisable
  refine OutKeeps.next ?_
  refine Keeps.trans ?_ (State.ringDisable_keeps _ _ _ _)
  exact Keeps.refl _

theorem State.ringChanged_keeps (s : State) (h : Half) (cq : Bool) (q : Nat) (w : Nat) (v : Word) :
    Keeps s (State.ringChanged s h cq q w v) := by
  unfold State.ringChanged
  refine Keeps.ite ?_ ?_
  · exact Keeps.refl _
  · extract_lets +onlyGivenNames x1 x2 x3
    clear_value x1
    clear_value x2
    have h4 : Keeps s x3 := by
      unfold x3
      refine Keeps.ite ?_ ?_
      · refine Keeps.trans ?_ (State.put_keeps _ _ _ _)
        exact Keeps.refl _
      · refine Keeps.ite ?_ ?_
        · refine Keeps.trans ?_ (State.put_keeps _ _ _ _)
          exact Keeps.refl _
        · refine Keeps.trans ?_ (State.put_keeps _ _ _ _)
          exact Keeps.refl _
    clear_value x3
    refine Keeps.ite ?_ ?_
    · exact h4
    · extract_lets +onlyGivenNames x5 x6
      have h7 : Keeps s x5 := by
        unfold x5
        refine Keeps.ite ?_ ?_
        · exact h4
        · refine Keeps.foldl ?_ ?_
          · exact h4
          · intro a8 b9
            refine Keeps.ite ?_ ?_
            · refine Keeps.trans ?_ (State.cmdFail_keeps _ _ _ _ _)
              exact Keeps.refl _
            · exact Keeps.refl _
      clear_value x5
      have h10 : Keeps s x6 := by
        unfold x6
        refine Keeps.ite ?_ ?_
        · refine Keeps.trans ?_ (State.flag_keeps _ _ _)
          exact h7
        · exact h7
      clear_value x6
      refine Keeps.trans ?_ (State.hifShow_keeps _ _)
      refine Keeps.trans ?_ (State.ringError_keeps _ _ _ _ _)
      exact h10

theorem execRingChanged_keeps (h : Half) (cq : Bool) (q : Nat) (w : Nat) (v : Word) (s : State) :
    OutKeeps s (execRingChanged h cq q w v s) := by
  unfold execRingChanged
  refine OutKeeps.next ?_
  refine Keeps.trans ?_ (State.ringChanged_keeps _ _ _ _ _ _)
  exact Keeps.refl _

theorem State.lostClear_keeps (s : State) (h : Half) :
    Keeps s (State.lostClear s h) := by
  unfold State.lostClear
  refine Keeps.ite ?_ ?_
  · exact Keeps.refl _
  · extract_lets +onlyGivenNames x1
    have h2 : Keeps s x1 := by
      unfold x1
      refine Keeps.trans ?_ (State.clearRange_keeps _ _ _)
      exact Keeps.refl _
    clear_value x1
    refine Keeps.trans ?_ (State.put_keeps _ _ _ _)
    refine Keeps.trans ?_ (State.put_keeps _ _ _ _)
    exact h2

theorem execLostLogClear_keeps (h : Half) (s : State) :
    OutKeeps s (execLostLogClear h s) := by
  unfold execLostLogClear
  refine OutKeeps.next ?_
  refine Keeps.trans ?_ (State.lostClear_keeps _ _)
  exact Keeps.refl _

theorem interruptAggTimeout_keeps (h : Half) (q : Nat) (us : Nat) (s : State) :
    Keeps s (interruptAggTimeout h q us s) := by
  unfold interruptAggTimeout
  extract_lets +onlyGivenNames x1
  clear_value x1
  refine Keeps.ite ?_ ?_
  · exact Keeps.refl _
  · refine Keeps.trans ?_ (State.msix_keeps _ _ _)
    refine Keeps.trans ?_ (State.setCq_keeps _ _ _ _)
    exact Keeps.refl _

theorem execInterruptAggTimeout_keeps (h : Half) (q : Nat) (us : Nat) (s : State) :
    OutKeeps s (execInterruptAggTimeout h q us s) := by
  unfold execInterruptAggTimeout
  refine OutKeeps.next ?_
  refine Keeps.trans ?_ (interruptAggTimeout_keeps _ _ _ _)
  exact Keeps.refl _

theorem lateCpl_keeps (h : Half) (dma : Bool) (s : State) :
    Keeps s (lateCpl h dma s) := by
  unfold lateCpl
  refine Keeps.ite ?_ ?_
  · exact Keeps.refl _
  · refine Keeps.ite ?_ ?_
    · refine Keeps.trans ?_ (State.count_keeps _ _ _ _ _ _)
      refine Keeps.trans ?_ (State.flag_keeps _ _ _)
      exact Keeps.refl _
    · refine Keeps.trans ?_ (State.hifCount_keeps _ _ _ _)
      refine Keeps.trans ?_ (State.flag_keeps _ _ _)
      exact Keeps.refl _

theorem execLateCpl_keeps (h : Half) (dma : Bool) (s : State) :
    OutKeeps s (execLateCpl h dma s) := by
  unfold execLateCpl
  refine OutKeeps.next ?_
  refine Keeps.trans ?_ (lateCpl_keeps _ _ _)
  exact Keeps.refl _

end Sys2Proof.Machine
end

