-- ==== Sys2Proof/Laws/KeepsHostCmd.lean ====
section
/-! SUPPORT. What `Keeps` says of every operation of Machine/HostCmd.lean. -/

namespace Sys2Proof.Machine

theorem State.pushReqs_keeps (s : State) (kind : Nat) (n : Nat) (verify : Bool) (gs : List Stripe) :
    Keeps1 s (State.pushReqs s kind n verify gs) := by
  unfold State.pushReqs
  extract_lets +onlyGivenNames x1
  clear_value x1
  refine Keeps1.mk ?_
  refine Keeps.foldl ?_ ?_
  · exact Keeps.refl _
  · intro a2 b3
    split
    · rename_i y4 y5 y6
      extract_lets +onlyGivenNames x7 x8
      clear_value x7
      have h9 : Keeps a2 x8 := by
        unfold x8
        refine Keeps.trans ?_ (State.setFmt_keeps _ _ _)
        exact Keeps.refl _
      clear_value x8
      refine Keeps.trans ?_ (State.demand_keeps _ _ _)
      refine Keeps.trans ?_ (State.demand_keeps _ _ _)
      exact h9

theorem State.bufferedPump_keeps (s : State) :
    Keeps s (State.bufferedPump s) := by
  unfold State.bufferedPump
  refine Keeps.foldl ?_ ?_
  · exact Keeps.refl _
  · intro a1 b2
    extract_lets +onlyGivenNames x3
    clear_value x3
    split
    · rename_i y4 y5 y6 y7
      have h8 : Keeps a1 y5 := by
        refine Keeps1.use ?_ y7
        refine Keeps1.trans ?_ (State.pushReqs_keeps _ _ _ _ _)
        exact Keeps.refl _
      extract_lets +onlyGivenNames x9
      clear_value x9
      refine Keeps.trans ?_ (Keeps.upd (s := y5) rfl rfl rfl rfl)
      exact h8

theorem State.bufferedEnd_keeps (s : State) (d : OpDone) :
    Keeps s (State.bufferedEnd s d) := by
  unfold State.bufferedEnd
  extract_lets +onlyGivenNames x1 x2 x3 x4 x5
  clear_value x1
  clear_value x2
  clear_value x3
  have h6 : Keeps s x4 := by
    unfold x4
    refine Keeps.trans ?_ (Keeps.upd (s := s) rfl rfl rfl rfl)
    exact Keeps.refl _
  clear_value x4
  have h7 : ∀ v8 v9, Keeps v8 (x5 v8 v9) := by
    intro v8 v9
    unfold x5
    extract_lets +onlyGivenNames x10 x11
    clear_value x10
    clear_value x11
    refine Keeps.trans ?_ (Keeps.upd (s := v8) rfl rfl rfl rfl)
    exact Keeps.refl _
  clear_value x5
  refine Keeps.ite ?_ ?_
  · refine Keeps.foldl ?_ ?_
    · exact h6
    · intro a12 b13
      refine Keeps.trans ?_ (h7 _ _)
      exact Keeps.refl _
  · refine Keeps.ite ?_ ?_
    · refine Keeps.foldl ?_ ?_
      · exact h6
      · intro a14 b15
        refine Keeps.trans ?_ (h7 _ _)
        exact Keeps.refl _
    · exact h6

theorem State.opTake_keeps (s : State) (d : OpDone) :
    Keeps s (State.opTake s d) := by
  unfold State.opTake
  extract_lets +onlyGivenNames x1
  have h2 : ∀ v3 v4, Keeps v3 (x1 v3 v4) := by
    intro v3 v4
    unfold x1
    split
    · rename_i y5 y6
      exact Keeps.refl _
    · rename_i y7 y8 y9
      split
      · rename_i y10 y11 y12 y13
        extract_lets +onlyGivenNames x14
        clear_value x14
        refine Keeps.trans ?_ (State.setCmd_keeps _ _ _)
        exact Keeps.refl _
  clear_value x1
  refine Keeps.ite ?_ ?_
  · refine Keeps.trans ?_ (State.bufferedEnd_keeps _ _)
    exact Keeps.refl _
  · refine Keeps.trans ?_ (h2 _ _)
    refine Keeps.trans ?_ (h2 _ _)
    exact Keeps.refl _

theorem State.hostSettle_keeps (s : State) :
    Keeps s (State.hostSettle s) := by
  unfold State.hostSettle
  extract_lets +onlyGivenNames x1 x2
  clear_value x1
  have h3 : Keeps s x2 := by
    unfold x2
    refine Keeps.trans ?_ (State.bufferedPump_keeps _)
    refine Keeps.foldl ?_ ?_
    · refine Keeps.trans ?_ (Keeps.upd (s := s) rfl rfl rfl rfl)
      exact Keeps.refl _
    · intro a4 b5
      refine Keeps.trans ?_ (State.opTake_keeps _ _)
      exact Keeps.refl _
  clear_value x2
  refine Keeps.trans ?_ (Keeps.upd (s := x2) rfl rfl rfl rfl)
  exact h3

theorem State.withdrawReqs_keeps (s : State) (h : Half) (n : Nat) :
    Keeps s (State.withdrawReqs s h n) := by
  unfold State.withdrawReqs
  refine Keeps.foldl ?_ ?_
  · exact Keeps.refl _
  · intro a1 b2
    extract_lets +onlyGivenNames x3 x4
    clear_value x3
    clear_value x4
    split
    · rename_i y5 y6 y7 y8 y9 y10
      extract_lets +onlyGivenNames x11
      have h12 : Keeps a1 x11 := by
        unfold x11
        refine Keeps.trans ?_ (State.setFmt_keeps _ _ _)
        exact Keeps.refl _
      clear_value x11
      split
      · rename_i y13 y14 y15
        refine Keeps.trans ?_ (State.setCmd_keeps _ _ _)
        exact h12
      · rename_i y16 y17
        exact h12
    · rename_i y18 y19 y20 y21
      exact Keeps.refl _

theorem State.segUse_keeps (s : State) (ks : List Nat) :
    Keeps s (State.segUse s ks) := by
  unfold State.segUse
  extract_lets +onlyGivenNames x1 x2 x3 x4 x5
  clear_value x1
  clear_value x2
  clear_value x3
  clear_value x4
  clear_value x5
  refine Keeps.trans ?_ (Keeps.upd (s := s) rfl rfl rfl rfl)
  exact Keeps.refl _

theorem State.segDrop_keeps (s : State) (keys : List Nat) :
    Keeps s (State.segDrop s keys) := by
  unfold State.segDrop
  refine Keeps.trans ?_ (Keeps.upd (s := s) rfl rfl rfl rfl)
  exact Keeps.refl _

theorem commandStart_keeps (h : Half) (s : State) :
    Keeps s (commandStart h s) := by
  unfold commandStart
  extract_lets +onlyGivenNames x1 x2
  have h3 : Keeps s x1 := by
    unfold x1
    refine Keeps.trans ?_ (State.hostSettle_keeps _)
    exact Keeps.refl _
  clear_value x1
  clear_value x2
  refine Keeps.ite ?_ ?_
  · exact h3
  · split
    · rename_i y4 y5
      refine Keeps.trans ?_ (State.hifShow_keeps _ _)
      exact h3
    · rename_i y6 y7 y8
      split
      · rename_i y9 y10 y11 y12
        refine Keeps.trans ?_ (State.hifShow_keeps _ _)
        refine Keeps.trans ?_ (State.cmdFail_keeps _ _ _ _ _)
        exact h3
      · rename_i y13 y14
        extract_lets +onlyGivenNames x15
        have h16 : Keeps s x15 := by
          unfold x15
          refine Keeps.trans ?_ (State.setCmd_keeps _ _ _)
          exact h3
        clear_value x15
        refine Keeps.trans ?_ (State.hifShow_keeps _ _)
        refine Keeps.ite ?_ ?_
        · refine Keeps.trans ?_ (State.hifCount_keeps _ _ _ _)
          exact h16
        · exact h16

theorem execCommandStart_keeps (h : Half) (s : State) :
    OutKeeps s (execCommandStart h s) := by
  unfold execCommandStart
  refine OutKeeps.next ?_
  refine Keeps.trans ?_ (commandStart_keeps _ _)
  exact Keeps.refl _

theorem State.issue_keeps (s : State) (h : Half) (c : Cmd) (kind : Nat) (verify : Bool) (gs : List Stripe) :
    Keeps s (State.issue s h c kind verify gs) := by
  unfold State.issue
  split
  · rename_i y1 y2 y3 y4
    refine Keeps.trans ?_ (State.cmdFail_keeps _ _ _ _ _)
    exact Keeps.refl _
  · rename_i y5 y6
    refine Keeps.ite ?_ ?_
    · exact Keeps.refl _
    · split
      · rename_i y7 y8 y9 y10
        have h11 : Keeps s y8 := by
          refine Keeps1.use ?_ y10
          refine Keeps1.trans ?_ (State.pushReqs_keeps _ _ _ _ _)
          exact Keeps.refl _
        split
        · rename_i y12 y13 y14
          refine Keeps.trans ?_ (State.setCmd_keeps _ _ _)
          exact h11
        · rename_i y15 y16
          exact h11

theorem State.endSectors_keeps (s : State) (h : Half) (c : Cmd) (lost : List Nat) (ue : List Nat) (n : Nat) :
    Keeps s (State.endSectors s h c lost ue n) := by
  unfold State.endSectors
  extract_lets +onlyGivenNames x1
  clear_value x1
  refine Keeps.ite ?_ ?_
  · refine Keeps.trans ?_ (State.cmdEnd_keeps _ _ _ _ _ _)
    exact Keeps.refl _
  · extract_lets +onlyGivenNames x2
    clear_value x2
    refine Keeps.trans ?_ (State.cmdEnd_keeps _ _ _ _ _ _)
    exact Keeps.refl _

theorem State.readRam_keeps (s : State) (h : Half) (c : Cmd) (m : Ns) (ues : List (Nat × Nat)) :
    Keeps s (State.readRam s h c m ues) := by
  unfold State.readRam
  extract_lets +onlyGivenNames x1 x2
  clear_value x1
  have h3 : Keeps s x2 := by
    unfold x2
    refine Keeps.trans ?_ (State.payloadWrite_keeps _ _ _ _)
    exact Keeps.refl _
  clear_value x2
  refine Keeps.trans ?_ (State.endSectors_keeps _ _ _ _ _ _)
  exact h3

theorem State.load_keeps (s : State) (h : Half) (c : Cmd) (secs : List (Nat × Nat × Nat)) :
    Keeps1 s (State.load s h c secs) := by
  unfold State.load
  split
  · rename_i y1 y2 y3 y4
    refine Keeps1.ite ?_ ?_
    · refine Keeps1.mk ?_
      refine Keeps.trans ?_ (State.cmdFail_keeps _ _ _ _ _)
      exact Keeps.refl _
    · refine Keeps1.mk ?_
      exact Keeps.refl _
  · rename_i y5 y6
    extract_lets +onlyGivenNames x7
    clear_value x7
    refine Keeps1.ite ?_ ?_
    · refine Keeps1.mk ?_
      exact Keeps.refl _
    · refine Keeps1.ite ?_ ?_
      · refine Keeps1.mk ?_
        exact Keeps.refl _
      · extract_lets +onlyGivenNames x8 x9 x10 x11
        clear_value x8
        clear_value x9
        clear_value x10
        clear_value x11
        refine Keeps1.ite ?_ ?_
        · refine Keeps1.mk ?_
          exact Keeps.refl _
        · refine Keeps1.mk ?_
          refine Keeps.trans ?_ (State.issue_keeps _ _ _ _ _ _)
          refine Keeps.trans ?_ (State.setCmd_keeps _ _ _)
          exact Keeps.refl _

theorem read_keeps (h : Half) (n : Nat) (ues : List (Nat × Nat)) (s : State) :
    Keeps s (read h n ues s) := by
  unfold read
  extract_lets +onlyGivenNames x1
  have h2 : Keeps s x1 := by
    unfold x1
    refine Keeps.trans ?_ (State.withdrawReqs_keeps _ _ _)
    refine Keeps.trans ?_ (State.hostSettle_keeps _)
    exact Keeps.refl _
  clear_value x1
  split
  · rename_i y3 y4
    exact h2
  · rename_i y5 y6 y7
    split
    · rename_i y8 y9
      refine Keeps.trans ?_ (State.hifShow_keeps _ _)
      refine Keeps.trans ?_ (State.cmdFail_keeps _ _ _ _ _)
      exact h2
    · rename_i y10 y11 y12
      refine Keeps.ite ?_ ?_
      · refine Keeps.trans ?_ (State.hifShow_keeps _ _)
        refine Keeps.trans ?_ (State.readRam_keeps _ _ _ _ _)
        exact h2
      · extract_lets +onlyGivenNames x13
        clear_value x13
        split
        · rename_i y14 y15 y16 y17
          have h18 : Keeps s y15 := by
            refine Keeps1.use ?_ y17
            refine Keeps1.trans ?_ (State.load_keeps _ _ _ _)
            exact h2
          refine Keeps.ite ?_ ?_
          · refine Keeps.trans ?_ (State.hifShow_keeps _ _)
            exact h18
          · extract_lets +onlyGivenNames x19 x20 x21 x22 x23
            clear_value x19
            clear_value x20
            have h24 : Keeps s x21 := by
              unfold x21
              refine Keeps.trans ?_ (State.payloadWrite_keeps _ _ _ _)
              exact h18
            clear_value x21
            have h25 : Keeps s x22 := by
              unfold x22
              refine Keeps.ite ?_ ?_
              · refine Keeps.trans ?_ (State.segDrop_keeps _ _)
                exact h24
              · exact h24
            clear_value x22
            have h26 : Keeps s x23 := by
              unfold x23
              refine Keeps.trans ?_ (State.segUse_keeps _ _)
              exact h25
            clear_value x23
            refine Keeps.trans ?_ (State.hifShow_keeps _ _)
            refine Keeps.trans ?_ (State.endSectors_keeps _ _ _ _ _ _)
            exact h26

theorem execRead_keeps (h : Half) (n : Nat) (ues : List (Nat × Nat)) (s : State) :
    OutKeeps s (execRead h n ues s) := by
  unfold execRead
  refine OutKeeps.next ?_
  refine Keeps.trans ?_ (read_keeps _ _ _ _)
  exact Keeps.refl _

theorem prefetch_keeps (h : Half) (n : Nat) (s : State) :
    Keeps s (prefetch h n s) := by
  unfold prefetch
  extract_lets +onlyGivenNames x1
  have h2 : Keeps s x1 := by
    unfold x1
    refine Keeps.trans ?_ (State.withdrawReqs_keeps _ _ _)
    refine Keeps.trans ?_ (State.hostSettle_keeps _)
    exact Keeps.refl _
  clear_value x1
  split
  · rename_i y3 y4
    exact h2
  · rename_i y5 y6 y7
    split
    · rename_i y8 y9
      refine Keeps.trans ?_ (State.hifShow_keeps _ _)
      refine Keeps.trans ?_ (State.cmdFail_keeps _ _ _ _ _)
      exact h2
    · rename_i y10 y11 y12
      extract_lets +onlyGivenNames x13
      clear_value x13
      split
      · rename_i y14 y15 y16 y17
        have h18 : Keeps s y15 := by
          refine Keeps1.use ?_ y17
          refine Keeps1.trans ?_ (State.load_keeps _ _ _ _)
          exact h2
        refine Keeps.ite ?_ ?_
        · refine Keeps.trans ?_ (State.hifShow_keeps _ _)
          exact h18
        · extract_lets +onlyGivenNames x19
          clear_value x19
          refine Keeps.trans ?_ (State.hifShow_keeps _ _)
          refine Keeps.trans ?_ (State.endSectors_keeps _ _ _ _ _ _)
          refine Keeps.trans ?_ (State.segUse_keeps _ _)
          exact h18

theorem execPrefetch_keeps (h : Half) (n : Nat) (s : State) :
    OutKeeps s (execPrefetch h n s) := by
  unfold execPrefetch
  refine OutKeeps.next ?_
  refine Keeps.trans ?_ (prefetch_keeps _ _ _)
  exact Keeps.refl _

theorem verify_keeps (h : Half) (n : Nat) (s : State) :
    Keeps s (verify h n s) := by
  unfold verify
  extract_lets +onlyGivenNames x1
  have h2 : Keeps s x1 := by
    unfold x1
    refine Keeps.trans ?_ (State.withdrawReqs_keeps _ _ _)
    refine Keeps.trans ?_ (State.hostSettle_keeps _)
    exact Keeps.refl _
  clear_value x1
  split
  · rename_i y3 y4
    exact h2
  · rename_i y5 y6 y7
    split
    · rename_i y8 y9
      refine Keeps.trans ?_ (State.hifShow_keeps _ _)
      refine Keeps.trans ?_ (State.cmdFail_keeps _ _ _ _ _)
      exact h2
    · rename_i y10 y11 y12
      extract_lets +onlyGivenNames x13
      clear_value x13
      refine Keeps.ite ?_ ?_
      · refine Keeps.trans ?_ (State.hifShow_keeps _ _)
        refine Keeps.trans ?_ (State.issue_keeps _ _ _ _ _ _)
        exact h2
      · refine Keeps.ite ?_ ?_
        · exact h2
        · split
          · rename_i y14 y15 y16 y17
            refine Keeps.trans ?_ (State.hifShow_keeps _ _)
            refine Keeps.trans ?_ (State.cmdFail_keeps _ _ _ _ _)
            exact h2
          · rename_i y18 y19
            refine Keeps.trans ?_ (State.hifShow_keeps _ _)
            refine Keeps.trans ?_ (State.endSectors_keeps _ _ _ _ _ _)
            exact h2

theorem execVerify_keeps (h : Half) (n : Nat) (s : State) :
    OutKeeps s (execVerify h n s) := by
  unfold execVerify
  refine OutKeeps.next ?_
  refine Keeps.trans ?_ (verify_keeps _ _ _)
  exact Keeps.refl _

theorem pin_keeps (h : Half) (n : Nat) (s : State) :
    Keeps s (pin h n s) := by
  unfold pin
  extract_lets +onlyGivenNames x1
  have h2 : Keeps s x1 := by
    unfold x1
    refine Keeps.trans ?_ (State.withdrawReqs_keeps _ _ _)
    refine Keeps.trans ?_ (State.hostSettle_keeps _)
    exact Keeps.refl _
  clear_value x1
  split
  · rename_i y3 y4
    exact h2
  · rename_i y5 y6 y7
    split
    · rename_i y8 y9
      refine Keeps.trans ?_ (State.hifShow_keeps _ _)
      refine Keeps.trans ?_ (State.cmdFail_keeps _ _ _ _ _)
      exact h2
    · rename_i y10 y11 y12
      extract_lets +onlyGivenNames x13 x14 x15
      clear_value x13
      clear_value x14
      refine Keeps.ite ?_ ?_
      · refine Keeps.trans ?_ (State.hifShow_keeps _ _)
        refine Keeps.trans ?_ (State.cmdFail_keeps _ _ _ _ _)
        exact h2
      · split
        · rename_i y16 y17 y18 y19
          have h20 : Keeps s y17 := by
            refine Keeps1.use ?_ y19
            refine Keeps1.trans ?_ (State.load_keeps _ _ _ _)
            exact h2
          refine Keeps.ite ?_ ?_
          · refine Keeps.trans ?_ (State.hifShow_keeps _ _)
            exact h20
          · extract_lets +onlyGivenNames x21
            clear_value x21
            refine Keeps.ite ?_ ?_
            · refine Keeps.trans ?_ (State.hifShow_keeps _ _)
              refine Keeps.trans ?_ (State.endSectors_keeps _ _ _ _ _ _)
              refine Keeps.trans ?_ (State.segDrop_keeps _ _)
              exact h20
            · extract_lets +onlyGivenNames x22 x23
              clear_value x22
              have h24 : Keeps s x23 := by
                unfold x23
                refine Keeps.trans ?_ (Keeps.upd (s := y17) rfl rfl rfl rfl)
                exact h20
              clear_value x23
              refine Keeps.trans ?_ (State.hifShow_keeps _ _)
              refine Keeps.trans ?_ (State.cmdEnd_keeps _ _ _ _ _ _)
              refine Keeps.trans ?_ (State.segDrop_keeps _ _)
              exact h24

theorem execPin_keeps (h : Half) (n : Nat) (s : State) :
    OutKeeps s (execPin h n s) := by
  unfold execPin
  refine OutKeeps.next ?_
  refine Keeps.trans ?_ (pin_keeps _ _ _)
  exact Keeps.refl _

theorem unpin_keeps (h : Half) (n : Nat) (s : State) :
    Keeps s (unpin h n s) := by
  unfold unpin
  split
  · rename_i y1 y2
    exact Keeps.refl _
  · rename_i y3 y4 y5
    split
    · rename_i y6 y7
      refine Keeps.trans ?_ (State.hifShow_keeps _ _)
      refine Keeps.trans ?_ (State.cmdFail_keeps _ _ _ _ _)
      exact Keeps.refl _
    · rename_i y8 y9 y10
      extract_lets +onlyGivenNames x11 x12
      clear_value x11
      have h13 : Keeps s x12 := by
        unfold x12
        refine Keeps.trans ?_ (Keeps.upd (s := s) rfl rfl rfl rfl)
        exact Keeps.refl _
      clear_value x12
      refine Keeps.trans ?_ (State.hifShow_keeps _ _)
      refine Keeps.trans ?_ (State.cmdEnd_keeps _ _ _ _ _ _)
      exact h13

theorem execUnpin_keeps (h : Half) (n : Nat) (s : State) :
    OutKeeps s (execUnpin h n s) := by
  unfold execUnpin
  refine OutKeeps.next ?_
  refine Keeps.trans ?_ (unpin_keeps _ _ _)
  exact Keeps.refl _

theorem State.stage_keeps (s : State) (u : Nat) (msa : Nat) (d : Sector) :
    Keeps s (State.stage s u msa d) := by
  unfold State.stage
  extract_lets +onlyGivenNames x1 x2
  clear_value x1
  clear_value x2
  extract_lets +onlyGivenNames x3
  have h4 : Keeps s x3 := by
    unfold x3
    refine Keeps.ite ?_ ?_
    · refine Keeps.trans ?_ (Keeps.upd (s := s) rfl rfl rfl rfl)
      exact Keeps.refl _
    · exact Keeps.refl _
  clear_value x3
  refine Keeps.trans ?_ (Keeps.upd (s := x3) rfl rfl rfl rfl)
  exact h4

theorem writeStaged_keeps (h : Half) (n : Nat) (data : List Byte) (ue : Option Nat) (s : State) :
    Keeps s (writeStaged h n data ue s) := by
  unfold writeStaged
  extract_lets +onlyGivenNames x1
  have h2 : Keeps s x1 := by
    unfold x1
    refine Keeps.trans ?_ (State.hostSettle_keeps _)
    exact Keeps.refl _
  clear_value x1
  split
  · rename_i y3 y4
    exact h2
  · rename_i y5 y6 y7
    refine Keeps.ite ?_ ?_
    · exact h2
    · split
      · rename_i y8 y9
        refine Keeps.trans ?_ (State.hifShow_keeps _ _)
        refine Keeps.trans ?_ (State.cmdFail_keeps _ _ _ _ _)
        exact h2
      · rename_i y10 y11 y12
        refine Keeps.ite ?_ ?_
        · extract_lets +onlyGivenNames x13
          have h14 : Keeps s x13 := by
            unfold x13
            refine Keeps.foldl ?_ ?_
            · exact h2
            · intro a15 b16
              refine Keeps.trans ?_ (State.sdmStore_keeps _ _ _)
              exact Keeps.refl _
          clear_value x13
          refine Keeps.trans ?_ (State.hifShow_keeps _ _)
          refine Keeps.trans ?_ (State.cmdEnd_keeps _ _ _ _ _ _)
          exact h14
        · split
          · rename_i y17 y18
            refine Keeps.trans ?_ (State.hifShow_keeps _ _)
            refine Keeps.trans ?_ (State.endSectors_keeps _ _ _ _ _ _)
            exact h2
          · rename_i y19
            extract_lets +onlyGivenNames x20 x21
            clear_value x20
            have h22 : Keeps s x21 := by
              unfold x21
              refine Keeps.foldl ?_ ?_
              · exact h2
              · intro a23 b24
                refine Keeps.trans ?_ (State.stage_keeps _ _ _ _)
                exact Keeps.refl _
            clear_value x21
            refine Keeps.ite ?_ ?_
            · refine Keeps.trans ?_ (State.hifShow_keeps _ _)
              refine Keeps.trans ?_ (State.setCmd_keeps _ _ _)
              exact h22
            · extract_lets +onlyGivenNames x25 x26 x27
              clear_value x25
              clear_value x26
              have h28 : Keeps s x27 := by
                unfold x27
                refine Keeps.trans ?_ (State.bufferedPump_keeps _)
                refine Keeps.trans ?_ (Keeps.upd (s := x21) rfl rfl rfl rfl)
                exact h22
              clear_value x27
              refine Keeps.trans ?_ (State.hifShow_keeps _ _)
              refine Keeps.trans ?_ (State.cmdEnd_keeps _ _ _ _ _ _)
              refine Keeps.trans ?_ (State.setCmd_keeps _ _ _)
              exact h28

theorem execWriteStaged_keeps (h : Half) (n : Nat) (data : List Byte) (ue : Option Nat) (s : State) :
    OutKeeps s (execWriteStaged h n data ue s) := by
  unfold execWriteStaged
  refine OutKeeps.next ?_
  refine Keeps.trans ?_ (writeStaged_keeps _ _ _ _ _)
  exact Keeps.refl _

theorem State.writeEnd_keeps (s : State) (h : Half) (c : Cmd) (gs : List Stripe) (res : Nat) :
    Keeps s (State.writeEnd s h c gs res) := by
  unfold State.writeEnd
  refine Keeps.ite ?_ ?_
  · exact Keeps.refl _
  · split
    · rename_i y1 y2 y3 y4
      refine Keeps.trans ?_ (State.cmdFail_keeps _ _ _ _ _)
      exact Keeps.refl _
    · rename_i y5 y6
      refine Keeps.ite ?_ ?_
      · refine Keeps.trans ?_ (State.cmdFail_keeps _ _ _ _ _)
        exact Keeps.refl _
      · refine Keeps.ite ?_ ?_
        · exact Keeps.refl _
        · refine Keeps.trans ?_ (State.cmdEnd_keeps _ _ _ _ _ _)
          exact Keeps.refl _

theorem write_keeps (h : Half) (n : Nat) (s : State) :
    Keeps s (write h n s) := by
  unfold write
  extract_lets +onlyGivenNames x1
  have h2 : Keeps s x1 := by
    unfold x1
    refine Keeps.trans ?_ (State.withdrawReqs_keeps _ _ _)
    refine Keeps.trans ?_ (State.hostSettle_keeps _)
    exact Keeps.refl _
  clear_value x1
  split
  · rename_i y3 y4
    exact h2
  · rename_i y5 y6 y7
    refine Keeps.ite ?_ ?_
    · exact h2
    · split
      · rename_i y8 y9
        refine Keeps.trans ?_ (State.hifShow_keeps _ _)
        refine Keeps.trans ?_ (State.cmdFail_keeps _ _ _ _ _)
        exact h2
      · rename_i y10 y11 y12
        extract_lets +onlyGivenNames x13 x14
        clear_value x13
        clear_value x14
        refine Keeps.ite ?_ ?_
        · refine Keeps.trans ?_ (State.hifShow_keeps _ _)
          refine Keeps.trans ?_ (State.issue_keeps _ _ _ _ _ _)
          exact h2
        · refine Keeps.trans ?_ (State.hifShow_keeps _ _)
          refine Keeps.trans ?_ (State.writeEnd_keeps _ _ _ _ _)
          exact h2

theorem execWrite_keeps (h : Half) (n : Nat) (s : State) :
    OutKeeps s (execWrite h n s) := by
  unfold execWrite
  refine OutKeeps.next ?_
  refine Keeps.trans ?_ (write_keeps _ _ _)
  exact Keeps.refl _

theorem State.reqDrop_keeps (s : State) (x : Stripe) :
    Keeps s (State.reqDrop s x) := by
  unfold State.reqDrop
  split
  · rename_i y1 y2 y3 y4 y5
    extract_lets +onlyGivenNames x6 x7 x8 x9 x10 x11
    clear_value x6
    clear_value x7
    clear_value x8
    clear_value x9
    clear_value x10
    have h12 : Keeps s x11 := by
      unfold x11
      refine Keeps.trans ?_ (State.setFmt_keeps _ _ _)
      exact Keeps.refl _
    clear_value x11
    refine Keeps.trans ?_ (Keeps.upd (s := x11) rfl rfl rfl rfl)
    exact h12

theorem State.trimStripe_keeps (s : State) (k : Nat) :
    Keeps s (State.trimStripe s k) := by
  unfold State.trimStripe
  extract_lets +onlyGivenNames x1 x2 x3
  clear_value x1
  clear_value x2
  have h4 : Keeps s x3 := by
    unfold x3
    split
    · rename_i y5 y6 y7
      refine Keeps.trans ?_ (State.reqDrop_keeps _ _)
      exact Keeps.refl _
    · rename_i y8 y9
      exact Keeps.refl _
  clear_value x3
  refine Keeps.trans ?_ (Keeps.upd (s := x3) rfl rfl rfl rfl)
  exact h4

theorem State.trimRam_keeps (s : State) (m : Ns) (lba : Nat) (count : Nat) :
    Keeps s (State.trimRam s m lba count) := by
  unfold State.trimRam
  extract_lets +onlyGivenNames x1 x2 x3 x4 x5
  clear_value x1
  clear_value x2
  clear_value x3
  clear_value x4
  have h6 : ∀ v7 v8 v9, Keeps v7 (x5 v7 v8 v9) := by
    intro v7 v8 v9
    unfold x5
    refine Keeps.ite ?_ ?_
    · refine Keeps.trans ?_ (State.sdmStore_keeps _ _ _)
      exact Keeps.refl _
    · exact Keeps.refl _
  clear_value x5
  refine Keeps.ite ?_ ?_
  · refine Keeps.trans ?_ (h6 _ _ _)
    exact Keeps.refl _
  · extract_lets +onlyGivenNames x10
    have h11 : Keeps s x10 := by
      unfold x10
      refine Keeps.trans ?_ (State.release_keeps _ _ _ _)
      exact Keeps.refl _
    clear_value x10
    refine Keeps.trans ?_ (h6 _ _ _)
    refine Keeps.trans ?_ (h6 _ _ _)
    exact h11

theorem trim_keeps (h : Half) (n : Nat) (s : State) :
    Keeps s (trim h n s) := by
  unfold trim
  extract_lets +onlyGivenNames x1
  have h2 : Keeps s x1 := by
    unfold x1
    refine Keeps.trans ?_ (State.withdrawReqs_keeps _ _ _)
    refine Keeps.trans ?_ (State.hostSettle_keeps _)
    exact Keeps.refl _
  clear_value x1
  split
  · rename_i y3 y4
    exact h2
  · rename_i y5 y6 y7
    split
    · rename_i y8 y9
      refine Keeps.trans ?_ (State.hifShow_keeps _ _)
      refine Keeps.trans ?_ (State.cmdFail_keeps _ _ _ _ _)
      exact h2
    · rename_i y10 y11 y12
      refine Keeps.ite ?_ ?_
      · refine Keeps.trans ?_ (State.hifShow_keeps _ _)
        refine Keeps.trans ?_ (State.cmdEnd_keeps _ _ _ _ _ _)
        refine Keeps.trans ?_ (State.trimRam_keeps _ _ _ _)
        exact h2
      · extract_lets +onlyGivenNames x13 x14 x15 x16 x17
        clear_value x13
        clear_value x14
        clear_value x15
        clear_value x16
        clear_value x17
        refine Keeps.ite ?_ ?_
        · refine Keeps.trans ?_ (State.hifShow_keeps _ _)
          refine Keeps.trans ?_ (State.writeEnd_keeps _ _ _ _ _)
          exact h2
        · extract_lets +onlyGivenNames x18 x19 x20 x21
          have h22 : Keeps s x18 := by
            unfold x18
            refine Keeps.foldl ?_ ?_
            · exact h2
            · intro a23 b24
              refine Keeps.trans ?_ (State.trimStripe_keeps _ _)
              exact Keeps.refl _
          clear_value x18
          clear_value x19
          have h25 : Keeps s x20 := by
            unfold x20
            refine Keeps.foldl ?_ ?_
            · exact h22
            · intro a26 b27
              extract_lets +onlyGivenNames x28 x29
              clear_value x28
              have h30 : Keeps a26 x29 := by
                unfold x29
                refine Keeps.trans ?_ (State.stage_keeps _ _ _ _)
                exact Keeps.refl _
              clear_value x29
              refine Keeps.trans ?_ (Keeps.upd (s := x29) rfl rfl rfl rfl)
              exact h30
          clear_value x20
          clear_value x21
          refine Keeps.ite ?_ ?_
          · refine Keeps.trans ?_ (State.hifShow_keeps _ _)
            refine Keeps.trans ?_ (State.cmdEnd_keeps _ _ _ _ _ _)
            exact h25
          · refine Keeps.trans ?_ (State.hifShow_keeps _ _)
            refine Keeps.trans ?_ (State.issue_keeps _ _ _ _ _ _)
            exact h25

theorem execTrim_keeps (h : Half) (n : Nat) (s : State) :
    OutKeeps s (execTrim h n s) := by
  unfold execTrim
  refine OutKeeps.next ?_
  refine Keeps.trans ?_ (trim_keeps _ _ _)
  exact Keeps.refl _

theorem flush_keeps (h : Half) (n : Nat) (s : State) :
    Keeps s (flush h n s) := by
  unfold flush
  extract_lets +onlyGivenNames x1
  have h2 : Keeps s x1 := by
    unfold x1
    refine Keeps.trans ?_ (State.hostSettle_keeps _)
    exact Keeps.refl _
  clear_value x1
  split
  · rename_i y3 y4
    exact h2
  · rename_i y5 y6 y7
    extract_lets +onlyGivenNames x8
    clear_value x8
    refine Keeps.ite ?_ ?_
    · refine Keeps.trans ?_ (State.hifShow_keeps _ _)
      refine Keeps.trans ?_ (State.cmdEnd_keeps _ _ _ _ _ _)
      exact h2
    · extract_lets +onlyGivenNames x9 x10 x11
      clear_value x9
      have h12 : Keeps s x10 := by
        unfold x10
        refine Keeps.trans ?_ (State.setCmd_keeps _ _ _)
        exact h2
      clear_value x10
      clear_value x11
      refine Keeps.ite ?_ ?_
      · refine Keeps.trans ?_ (State.hifShow_keeps _ _)
        exact h12
      · refine Keeps.ite ?_ ?_
        · refine Keeps.trans ?_ (State.hifShow_keeps _ _)
          refine Keeps.trans ?_ (State.cmdFail_keeps _ _ _ _ _)
          exact h12
        · refine Keeps.trans ?_ (State.hifShow_keeps _ _)
          refine Keeps.trans ?_ (State.cmdEnd_keeps _ _ _ _ _ _)
          exact h12

theorem execFlush_keeps (h : Half) (n : Nat) (s : State) :
    OutKeeps s (execFlush h n s) := by
  unfold execFlush
  refine OutKeeps.next ?_
  refine Keeps.trans ?_ (flush_keeps _ _ _)
  exact Keeps.refl _

theorem State.setTarget_keeps (s : State) (h : Half) (c : Cmd) :
    Keeps s (State.setTarget s h c) := by
  unfold State.setTarget
  extract_lets +onlyGivenNames x1 x2 x3 x4 x5
  clear_value x1
  have h6 : Keeps s x2 := by
    unfold x2
    refine Keeps.ite ?_ ?_
    · refine Keeps.trans ?_ (State.put_keeps _ _ _ _)
      exact Keeps.refl _
    · refine Keeps.trans ?_ (State.put_keeps _ _ _ _)
      exact Keeps.refl _
  clear_value x2
  clear_value x3
  have h7 : Keeps s x4 := by
    unfold x4
    refine Keeps.trans ?_ (State.targetWrite_keeps _ _)
    exact h6
  clear_value x4
  clear_value x5
  refine Keeps.trans ?_ (State.cmdEnd_keeps _ _ _ _ _ _)
  exact h7

theorem setClass_keeps (h : Half) (n : Nat) (s : State) :
    Keeps s (setClass h n s) := by
  unfold setClass
  split
  · rename_i y1 y2
    exact Keeps.refl _
  · rename_i y3 y4 y5
    refine Keeps.trans ?_ (State.hifShow_keeps _ _)
    refine Keeps.trans ?_ (State.setTarget_keeps _ _ _)
    exact Keeps.refl _

theorem execSetClass_keeps (h : Half) (n : Nat) (s : State) :
    OutKeeps s (execSetClass h n s) := by
  unfold execSetClass
  refine OutKeeps.next ?_
  refine Keeps.trans ?_ (setClass_keeps _ _ _)
  exact Keeps.refl _

theorem setEmberRate_keeps (h : Half) (n : Nat) (s : State) :
    Keeps s (setEmberRate h n s) := by
  unfold setEmberRate
  split
  · rename_i y1 y2
    exact Keeps.refl _
  · rename_i y3 y4 y5
    refine Keeps.trans ?_ (State.hifShow_keeps _ _)
    refine Keeps.trans ?_ (State.setTarget_keeps _ _ _)
    exact Keeps.refl _

theorem execSetEmberRate_keeps (h : Half) (n : Nat) (s : State) :
    OutKeeps s (execSetEmberRate h n s) := by
  unfold execSetEmberRate
  refine OutKeeps.next ?_
  refine Keeps.trans ?_ (setEmberRate_keeps _ _ _)
  exact Keeps.refl _

theorem completionPost_keeps (h : Half) (n : Nat) (s : State) :
    Keeps s (completionPost h n s) := by
  unfold completionPost
  extract_lets +onlyGivenNames x1
  have h2 : Keeps s x1 := by
    unfold x1
    refine Keeps.trans ?_ (verify_keeps _ _ _)
    refine Keeps.trans ?_ (trim_keeps _ _ _)
    refine Keeps.trans ?_ (write_keeps _ _ _)
    exact Keeps.refl _
  clear_value x1
  split
  · rename_i y3 y4
    exact h2
  · rename_i y5 y6 y7
    split
    · rename_i y8 y9
      exact h2
    · rename_i y10 y11 y12 y13 y14
      refine Keeps.trans ?_ (State.postCmd_keeps _ _ _ _ _ _)
      exact h2

theorem execCompletionPost_keeps (h : Half) (n : Nat) (s : State) :
    OutKeeps s (execCompletionPost h n s) := by
  unfold execCompletionPost
  refine OutKeeps.next ?_
  refine Keeps.trans ?_ (completionPost_keeps _ _ _)
  exact Keeps.refl _

theorem payloadTimeout_keeps (h : Half) (n : Nat) (s : State) :
    Keeps s (payloadTimeout h n s) := by
  unfold payloadTimeout
  split
  · rename_i y1 y2
    exact Keeps.refl _
  · rename_i y3 y4 y5
    refine Keeps.ite ?_ ?_
    · exact Keeps.refl _
    · refine Keeps.trans ?_ (State.hifShow_keeps _ _)
      refine Keeps.trans ?_ (State.hifCount_keeps _ _ _ _)
      refine Keeps.trans ?_ (State.flag_keeps _ _ _)
      refine Keeps.trans ?_ (State.cmdFail_keeps _ _ _ _ _)
      exact Keeps.refl _

theorem execPayloadTimeout_keeps (h : Half) (n : Nat) (s : State) :
    OutKeeps s (execPayloadTimeout h n s) := by
  unfold execPayloadTimeout
  refine OutKeeps.next ?_
  refine Keeps.trans ?_ (payloadTimeout_keeps _ _ _)
  exact Keeps.refl _

theorem hostAccess_keeps (h : Half) (n : Nat) (data : List Byte) (s : State) :
    Keeps s (hostAccess h n data s) := by
  unfold hostAccess
  refine Keeps.ite ?_ ?_
  · refine Keeps.trans ?_ (State.sdmHostFail_keeps _ _ _ _)
    exact Keeps.refl _
  · split
    · rename_i y1 y2
      exact Keeps.refl _
    · rename_i y3 y4 y5
      refine Keeps.ite ?_ ?_
      · exact Keeps.refl _
      · refine Keeps.trans ?_ (State.hifShow_keeps _ _)
        refine Keeps.trans ?_ (State.cmdFail_keeps _ _ _ _ _)
        exact Keeps.refl _

theorem execHostAccess_keeps (h : Half) (n : Nat) (data : List Byte) (s : State) :
    OutKeeps s (execHostAccess h n data s) := by
  unfold execHostAccess
  refine OutKeeps.next ?_
  refine Keeps.trans ?_ (hostAccess_keeps _ _ _ _)
  exact Keeps.refl _

theorem rateRangeTimeout_keeps (h : Half) (u : Nat) (s : State) :
    Keeps s (rateRangeTimeout h u s) := by
  unfold rateRangeTimeout
  extract_lets +onlyGivenNames x1
  clear_value x1
  refine Keeps.ite ?_ ?_
  · refine Keeps.trans ?_ (State.hostSettle_keeps _)
    refine Keeps.trans ?_ (State.fmtEnd_keeps _ _ _ _)
    exact Keeps.refl _
  · exact Keeps.refl _

theorem execRateRangeTimeout_keeps (h : Half) (u : Nat) (s : State) :
    OutKeeps s (execRateRangeTimeout h u s) := by
  unfold execRateRangeTimeout
  refine OutKeeps.next ?_
  refine Keeps.trans ?_ (rateRangeTimeout_keeps _ _ _)
  exact Keeps.refl _

theorem State.linkShow_keeps (s : State) :
    Keeps s (State.linkShow s) := by
  unfold State.linkShow
  extract_lets +onlyGivenNames x1
  have h2 : ∀ v3 v4, Keeps v3 (x1 v3 v4) := by
    intro v3 v4
    unfold x1
    refine Keeps.trans ?_ (State.putB_keeps _ _ _ _)
    refine Keeps.trans ?_ (State.putB_keeps _ _ _ _)
    exact Keeps.refl _
  clear_value x1
  refine Keeps.trans ?_ (h2 _ _)
  refine Keeps.trans ?_ (h2 _ _)
  exact Keeps.refl _

theorem State.peerLost_keeps (s : State) (h : Half) :
    Keeps s (State.peerLost s h) := by
  unfold State.peerLost
  refine Keeps.trans ?_ (State.hifShow_keeps _ _)
  refine Keeps.foldl ?_ ?_
  · exact Keeps.refl _
  · intro a1 b2
    refine Keeps.ite ?_ ?_
    · extract_lets +onlyGivenNames x3
      have h4 : Keeps a1 x3 := by
        unfold x3
        refine Keeps.foldl ?_ ?_
        · exact Keeps.refl _
        · intro a5 b6
          extract_lets +onlyGivenNames x7
          clear_value x7
          refine Keeps.trans ?_ (State.setFmt_keeps _ _ _)
          exact Keeps.refl _
      clear_value x3
      refine Keeps.trans ?_ (State.cmdFail_keeps _ _ _ _ _)
      exact h4
    · exact Keeps.refl _

theorem halfLinkDown_keeps (s : State) :
    Keeps s (halfLinkDown s) := by
  unfold halfLinkDown
  extract_lets +onlyGivenNames x1
  clear_value x1
  extract_lets +onlyGivenNames x2
  have h3 : Keeps s x2 := by
    unfold x2
    refine Keeps.trans ?_ (Keeps.upd (s := s) rfl rfl rfl rfl)
    exact Keeps.refl _
  clear_value x2
  refine Keeps.trans ?_ (State.linkShow_keeps _)
  refine Keeps.trans ?_ (State.peerLost_keeps _ _)
  refine Keeps.trans ?_ (State.peerLost_keeps _ _)
  exact h3

theorem execHalfLinkDown_keeps (s : State) :
    OutKeeps s (execHalfLinkDown s) := by
  unfold execHalfLinkDown
  refine OutKeeps.next ?_
  refine Keeps.trans ?_ (halfLinkDown_keeps _)
  exact Keeps.refl _

theorem halfLinkUp_keeps (s : State) :
    Keeps s (halfLinkUp s) := by
  unfold halfLinkUp
  refine Keeps.trans ?_ (State.linkShow_keeps _)
  extract_lets +onlyGivenNames x1
  clear_value x1
  refine Keeps.trans ?_ (Keeps.upd (s := s) rfl rfl rfl rfl)
  exact Keeps.refl _

theorem execHalfLinkUp_keeps (s : State) :
    OutKeeps s (execHalfLinkUp s) := by
  unfold execHalfLinkUp
  refine OutKeeps.next ?_
  refine Keeps.trans ?_ (halfLinkUp_keeps _)
  exact Keeps.refl _

theorem State.cmdLost_keeps (s : State) (h : Half) (c : Cmd) :
    Keeps s (State.cmdLost s h c) := by
  unfold State.cmdLost
  extract_lets +onlyGivenNames x1 x2
  have h3 : Keeps s x1 := by
    unfold x1
    refine Keeps.trans ?_ (State.setCmd_keeps _ _ _)
    exact Keeps.refl _
  clear_value x1
  have h4 : Keeps s x2 := by
    unfold x2
    refine Keeps.trans ?_ (State.cmdGone_keeps _ _ _)
    exact Keeps.refl _
  clear_value x2
  refine Keeps.ite ?_ ?_
  · refine Keeps.ite ?_ ?_
    · split
      · rename_i y5 y6 y7 y8 y9
        refine Keeps.trans ?_ (State.cmdGone_keeps _ _ _)
        refine Keeps.trans ?_ (State.logLost_keeps _ _ _ _ _ _)
        exact Keeps.refl _
      · rename_i y10 y11
        exact h3
    · exact h4
  · refine Keeps.ite ?_ ?_
    · split
      · rename_i y12 y13 y14 y15 y16
        refine Keeps.ite ?_ ?_
        · refine Keeps.trans ?_ (State.cmdGone_keeps _ _ _)
          refine Keeps.trans ?_ (State.logLost_keeps _ _ _ _ _ _)
          exact Keeps.refl _
        · exact h4
      · rename_i y17 y18
        refine Keeps.ite ?_ ?_
        · exact h3
        · exact h4
    · refine Keeps.ite ?_ ?_
      · extract_lets +onlyGivenNames x19
        have h20 : Keeps s x19 := by
          unfold x19
          refine Keeps.ite ?_ ?_
          · exact Keeps.refl _
          · refine Keeps.trans ?_ (State.setTarget_keeps _ _ _)
            exact Keeps.refl _
        clear_value x19
        split
        · rename_i y21 y22 y23
          split
          · rename_i y24 y25 y26 y27 y28
            refine Keeps.trans ?_ (State.cmdGone_keeps _ _ _)
            refine Keeps.trans ?_ (State.logLost_keeps _ _ _ _ _ _)
            exact h20
          · rename_i y29 y30
            refine Keeps.trans ?_ (State.cmdGone_keeps _ _ _)
            exact h20
        · rename_i y31 y32
          exact h20
      · exact h4

theorem State.portLost_keeps (s : State) (h : Half) :
    Keeps s (State.portLost s h) := by
  unfold State.portLost
  extract_lets +onlyGivenNames x1 x2 x3 x4
  have h5 : Keeps s x1 := by
    unfold x1
    refine Keeps.trans ?_ (State.hostSettle_keeps _)
    exact Keeps.refl _
  clear_value x1
  clear_value x2
  have h6 : Keeps s x3 := by
    unfold x3
    refine Keeps.trans ?_ (State.setHif_keeps _ _ _)
    exact h5
  clear_value x3
  have h7 : Keeps s x4 := by
    unfold x4
    refine Keeps.foldl ?_ ?_
    · exact h6
    · intro a8 b9
      refine Keeps.trans ?_ (State.cmdLost_keeps _ _ _)
      exact Keeps.refl _
  clear_value x4
  extract_lets +onlyGivenNames x10
  clear_value x10
  refine Keeps.trans ?_ (State.hifShow_keeps _ _)
  refine Keeps.trans ?_ (State.sdmPortReset_keeps _ _)
  refine Keeps.trans ?_ (Keeps.upd (s := x4) rfl rfl rfl rfl)
  exact h7

theorem State.surprise_keeps (s : State) (h : Half) :
    Keeps s (State.surprise s h) := by
  unfold State.surprise
  extract_lets +onlyGivenNames x1 x2
  clear_value x1
  have h3 : Keeps s x2 := by
    unfold x2
    refine Keeps.trans ?_ (State.chimney_keeps _ _ _ _ _ _)
    refine Keeps.trans ?_ (State.flag_keeps _ _ _)
    exact Keeps.refl _
  clear_value x2
  refine Keeps.trans ?_ (State.portLost_keeps _ _)
  exact h3

theorem State.portClear_keeps (s : State) (h : Half) :
    Keeps s (State.portClear s h) := by
  unfold State.portClear
  extract_lets +onlyGivenNames x1 x2 x3 x4 x5 x6
  clear_value x1
  clear_value x2
  have h7 : Keeps s x3 := by
    unfold x3
    refine Keeps.trans ?_ (State.clearRange_keeps _ _ _)
    refine Keeps.trans ?_ (State.clearRange_keeps _ _ _)
    exact Keeps.refl _
  clear_value x3
  have h8 : Keeps s x4 := by
    unfold x4
    refine Keeps.trans ?_ (State.setWord_keeps _ _ _)
    exact h7
  clear_value x4
  clear_value x5
  have h9 : Keeps s x6 := by
    unfold x6
    refine Keeps.trans ?_ (State.setHif_keeps _ _ _)
    exact h8
  clear_value x6
  extract_lets +onlyGivenNames x10
  have h11 : Keeps s x10 := by
    unfold x10
    refine Keeps.trans ?_ (State.putB_keeps _ _ _ _)
    exact h9
  clear_value x10
  refine Keeps.trans ?_ (State.hifShow_keeps _ _)
  refine Keeps.trans ?_ (State.linkShow_keeps _)
  exact h11

end Sys2Proof.Machine
end

