-- ==== Sys2Proof/Laws/KeepsHostAdmin.lean ====
section
/-! SUPPORT. What `Keeps` says of every operation of Machine/HostAdmin.lean. -/

namespace Sys2Proof.Machine

theorem State.adminOk_keeps (s : State) (h : Half) (n : Nat) :
    Keeps s (State.adminOk s h n) := by
  unfold State.adminOk
  refine Keeps.trans ?_ (State.hifShow_keeps _ _)
  refine Keeps.trans ?_ (State.cmdFail_keeps _ _ _ _ _)
  exact Keeps.refl _

theorem State.adminRejected_keeps (s : State) (h : Half) (n : Nat) (det : Nat) :
    Keeps s (State.adminRejected s h n det) := by
  unfold State.adminRejected
  refine Keeps.trans ?_ (State.hifShow_keeps _ _)
  refine Keeps.trans ?_ (State.cmdFail_keeps _ _ _ _ _)
  exact Keeps.refl _

theorem identify_keeps (h : Half) (n : Nat) (s : State) :
    Keeps s (identify h n s) := by
  unfold identify
  split
  · rename_i y1 y2
    exact Keeps.refl _
  · rename_i y3 y4 y5
    refine Keeps.trans ?_ (State.adminOk_keeps _ _ _)
    refine Keeps.trans ?_ (State.payloadWrite_keeps _ _ _ _)
    exact Keeps.refl _

theorem execIdentify_keeps (h : Half) (n : Nat) (s : State) :
    OutKeeps s (execIdentify h n s) := by
  unfold execIdentify
  refine OutKeeps.next ?_
  refine Keeps.trans ?_ (identify_keeps _ _ _)
  exact Keeps.refl _

theorem State.logBytes_keeps (s : State) (h : Half) (log : Nat) (len : Nat) :
    Keeps1 s (State.logBytes s h log len) := by
  unfold State.logBytes
  refine Keeps1.ite ?_ ?_
  · refine Keeps1.mk ?_
    exact Keeps.refl _
  · refine Keeps1.ite ?_ ?_
    · refine Keeps1.mk ?_
      exact Keeps.refl _
    · split
      · rename_i y1 y2 y3 y4
        have h5 : Keeps s y3 := by
          refine Keeps2.use ?_ y4
          refine Keeps2.trans ?_ (State.takeFree_keeps _)
          exact Keeps.refl _
        refine Keeps1.mk ?_
        exact h5

theorem logRead_keeps (h : Half) (n : Nat) (s : State) :
    Keeps s (logRead h n s) := by
  unfold logRead
  split
  · rename_i y1 y2
    exact Keeps.refl _
  · rename_i y3 y4 y5
    split
    · rename_i y6 y7 y8 y9
      have h10 : Keeps s y7 := by
        refine Keeps1.use ?_ y9
        refine Keeps1.trans ?_ (State.logBytes_keeps _ _ _ _)
        exact Keeps.refl _
      extract_lets +onlyGivenNames x11 x12
      have h13 : Keeps s x11 := by
        unfold x11
        refine Keeps.trans ?_ (State.payloadWrite_keeps _ _ _ _)
        exact h10
      clear_value x11
      clear_value x12
      extract_lets +onlyGivenNames x14
      have h15 : Keeps s x14 := by
        unfold x14
        refine Keeps.ite ?_ ?_
        · exact h13
        · refine Keeps.ite ?_ ?_
          · refine Keeps.trans ?_ (State.lostClear_keeps _ _)
            exact h13
          · refine Keeps.ite ?_ ?_
            · refine Keeps.trans ?_ (State.logClear_keeps _ _)
              exact h13
            · refine Keeps.trans ?_ (State.setHif_keeps _ _ _)
              exact h13
      clear_value x14
      refine Keeps.trans ?_ (State.adminOk_keeps _ _ _)
      exact h15

theorem execLogRead_keeps (h : Half) (n : Nat) (s : State) :
    OutKeeps s (execLogRead h n s) := by
  unfold execLogRead
  refine OutKeeps.next ?_
  refine Keeps.trans ?_ (logRead_keeps _ _ _)
  exact Keeps.refl _

theorem State.setPhase_keeps (s : State) (h : Half) (n : Nat) (k : Nat) :
    Keeps s (State.setPhase s h n k) := by
  unfold State.setPhase
  split
  · rename_i y1 y2 y3
    refine Keeps.trans ?_ (State.setCmd_keeps _ _ _)
    exact Keeps.refl _
  · rename_i y4 y5
    exact Keeps.refl _

theorem State.loadIdentity_keeps (s : State) (hd : Nat) :
    Keeps s (State.loadIdentity s hd) := by
  unfold State.loadIdentity
  extract_lets +onlyGivenNames x1 x2 x3
  have h4 : Keeps s x1 := by
    unfold x1
    refine Keeps.trans ?_ (State.put_keeps _ _ _ _)
    exact Keeps.refl _
  clear_value x1
  have h5 : Keeps s x2 := by
    unfold x2
    refine Keeps.trans ?_ (State.put_keeps _ _ _ _)
    exact h4
  clear_value x2
  have h6 : Keeps s x3 := by
    unfold x3
    refine Keeps.trans ?_ (State.put_keeps _ _ _ _)
    exact h5
  clear_value x3
  refine Keeps.foldl ?_ ?_
  · exact h6
  · intro a7 b8
    extract_lets +onlyGivenNames x9
    have h10 : Keeps a7 x9 := by
      unfold x9
      refine Keeps.trans ?_ (State.put_keeps _ _ _ _)
      exact Keeps.refl _
    clear_value x9
    refine Keeps.trans ?_ (State.put_keeps _ _ _ _)
    exact h10

theorem State.attachEnable_keeps (s : State) (hd : Nat) :
    Keeps s (State.attachEnable s hd) := by
  unfold State.attachEnable
  extract_lets +onlyGivenNames x1 x2
  clear_value x1
  have h3 : Keeps s x2 := by
    unfold x2
    refine Keeps.trans ?_ (spindleEnSet_keeps _ _ _)
    exact Keeps.refl _
  clear_value x2
  refine Keeps.foldl ?_ ?_
  · exact h3
  · intro a4 b5
    extract_lets +onlyGivenNames x6 x7 x8
    clear_value x6
    have h9 : Keeps a4 x7 := by
      unfold x7
      refine Keeps.trans ?_ (servoEnSet_keeps _ _ _)
      exact Keeps.refl _
    clear_value x7
    have h10 : Keeps a4 x8 := by
      unfold x8
      refine Keeps.trans ?_ (State.put_keeps _ _ _ _)
      refine Keeps.trans ?_ (State.put_keeps _ _ _ _)
      exact h9
    clear_value x8
    refine Keeps.foldl ?_ ?_
    · exact h10
    · intro a11 b12
      refine Keeps.trans ?_ (State.put_keeps _ _ _ _)
      exact Keeps.refl _

theorem State.attachBegin_keeps (s : State) (h : Half) (c : Cmd) :
    Keeps s (State.attachBegin s h c) := by
  unfold State.attachBegin
  extract_lets +onlyGivenNames x1
  clear_value x1
  refine Keeps.ite ?_ ?_
  · refine Keeps.trans ?_ (State.adminRejected_keeps _ _ _ _)
    exact Keeps.refl _
  · refine Keeps.ite ?_ ?_
    · exact Keeps.refl _
    · split
      · rename_i y2 y3 y4 y5
        have h6 : Keeps s y4 := by
          refine Keeps2.use ?_ y5
          refine Keeps2.trans ?_ (State.claimOne_keeps _ _ _)
          exact Keeps.refl _
        refine Keeps.ite ?_ ?_
        · refine Keeps.trans ?_ (State.hifShow_keeps _ _)
          refine Keeps.trans ?_ (State.cmdFail_keeps _ _ _ _ _)
          exact h6
        · extract_lets +onlyGivenNames x7 x8 x9 x10 x11
          have h12 : Keeps s x7 := by
            unfold x7
            refine Keeps.trans ?_ (Keeps.upd (s := y4) rfl rfl rfl rfl)
            exact h6
          clear_value x7
          have h13 : Keeps s x8 := by
            unfold x8
            refine Keeps.trans ?_ (State.setPortState_keeps _ _ _)
            refine Keeps.trans ?_ (State.loadIdentity_keeps _ _)
            exact h12
          clear_value x8
          have h14 : Keeps s x9 := by
            unfold x9
            refine Keeps.trans ?_ (State.demand_keeps _ _ _)
            exact h13
          clear_value x9
          have h15 : Keeps s x10 := by
            unfold x10
            refine Keeps.trans ?_ (State.attachEnable_keeps _ _)
            exact h14
          clear_value x10
          have h16 : Keeps s x11 := by
            unfold x11
            refine Keeps.foldl ?_ ?_
            · exact h15
            · intro a17 b18
              refine Keeps.trans ?_ (State.paIssue_keeps _ _ _ _)
              refine Keeps.trans ?_ (State.paIssue_keeps _ _ _ _)
              exact Keeps.refl _
          clear_value x11
          refine Keeps.trans ?_ (State.setPhase_keeps _ _ _ _)
          refine Keeps.trans ?_ (State.spnStart_keeps _ _)
          exact h16

theorem State.attachFail_keeps (s : State) (h : Half) (n : Nat) (st : Nat) (det : Nat) :
    Keeps s (State.attachFail s h n st det) := by
  unfold State.attachFail
  refine Keeps.ite ?_ ?_
  · refine Keeps.trans ?_ (State.hifShow_keeps _ _)
    refine Keeps.trans ?_ (State.cmdFail_keeps _ _ _ _ _)
    exact Keeps.refl _
  · split
    · rename_i y1 y2 y3 y4
      have h5 : Keeps s y3 := by
        refine Keeps2.use ?_ y4
        refine Keeps2.trans ?_ (State.takeFree_keeps _)
        exact Keeps.refl _
      refine Keeps.trans ?_ (State.hifShow_keeps _ _)
      refine Keeps.trans ?_ (State.cmdFail_keeps _ _ _ _ _)
      exact h5

theorem State.attachReadReq_keeps (s : State) (n : Nat) (ai : Nat) :
    Keeps s (State.attachReadReq s n ai) := by
  unfold State.attachReadReq
  split
  · rename_i y1 y2 y3 y4
    have h5 : Keeps s y3 := by
      refine Keeps2.use ?_ y4
      refine Keeps2.trans ?_ (State.takeFree_keeps _)
      exact Keeps.refl _
    extract_lets +onlyGivenNames x6
    clear_value x6
    refine Keeps.trans ?_ (State.setFmt_keeps _ _ _)
    exact h5

theorem State.attachTables_keeps (s : State) (hd : Nat) (tables : List (List Byte × List Byte × List (Nat × Nat))) :
    Keeps s (State.attachTables s hd tables) := by
  unfold State.attachTables
  extract_lets +onlyGivenNames x1 x2
  have h3 : ∀ v4 v5, Keeps v4 (x1 v4 v5) := by
    intro v4 v5
    unfold x1
    split
    · rename_i y6 y7
      exact Keeps.refl _
    · rename_i y8 y9 y10 y11 y12
      extract_lets +onlyGivenNames x13 x14 x15 x16 x17
      clear_value x13
      clear_value x14
      have h18 : Keeps v4 x15 := by
        unfold x15
        refine Keeps.trans ?_ (State.bufStore_keeps _ _ _)
        exact Keeps.refl _
      clear_value x15
      have h19 : Keeps v4 x16 := by
        unfold x16
        refine Keeps.trans ?_ (State.bufStore_keeps _ _ _)
        exact h18
      clear_value x16
      clear_value x17
      refine Keeps.trans ?_ (Keeps.upd (s := x16) rfl rfl rfl rfl)
      exact h19
  clear_value x1
  have h20 : Keeps s x2 := by
    unfold x2
    refine Keeps.trans ?_ (h3 _ _)
    refine Keeps.trans ?_ (h3 _ _)
    exact Keeps.refl _
  clear_value x2
  refine Keeps.trans ?_ (Keeps.upd (s := x2) rfl rfl rfl rfl)
  exact h20

theorem State.lockTables_keeps (s : State) (hd : Nat) :
    Keeps1 s (State.lockTables s hd) := by
  unfold State.lockTables
  refine Keeps1.foldl ?_ ?_
  · refine Keeps1.mk ?_
    exact Keeps.refl _
  · intro a1 a1' b2
    extract_lets +onlyGivenNames x3
    have h4 : Keeps a1 x3 := by
      unfold x3
      dsimp (zeta := false) only
      exact Keeps.refl _
    clear_value x3
    refine Keeps1.ite ?_ ?_
    · refine Keeps1.mk ?_
      exact Keeps.refl _
    · extract_lets +onlyGivenNames x5 x6
      clear_value x5
      clear_value x6
      refine Keeps1.ite ?_ ?_
      · refine Keeps1.mk ?_
        refine Keeps.trans ?_ (State.flag_keeps _ _ _)
        exact h4
      · refine Keeps1.ite ?_ ?_
        · refine Keeps1.mk ?_
          exact h4
        · split
          · rename_i y7 y8 y9
            have h10 : Keeps a1 y8 := by
              refine KeepsO.use ?_ y9
              refine KeepsO.trans ?_ (State.lockPage_keeps _ _ _)
              exact h4
            refine Keeps1.mk ?_
            exact h10
          · rename_i y11 y12
            refine Keeps1.mk ?_
            exact h4

theorem hdaAttach_keeps (h : Half) (n : Nat) (tables : List (List Byte × List Byte × List (Nat × Nat))) (s : State) :
    Keeps s (hdaAttach h n tables s) := by
  unfold hdaAttach
  extract_lets +onlyGivenNames x1
  have h2 : Keeps s x1 := by
    unfold x1
    refine Keeps.trans ?_ (State.hostSettle_keeps _)
    exact Keeps.refl _
  clear_value x1
  split
  · rename_i y3 y4
    exact h2
  · rename_i y5 y6 y7
    extract_lets +onlyGivenNames x8 x9
    clear_value x8
    clear_value x9
    refine Keeps.ite ?_ ?_
    · refine Keeps.trans ?_ (State.attachBegin_keeps _ _ _)
      exact h2
    · split
      · rename_i y10 y11 y12 y13 y14
        refine Keeps.trans ?_ (State.hifShow_keeps _ _)
        refine Keeps.trans ?_ (State.cmdFail_keeps _ _ _ _ _)
        exact h2
      · rename_i y15 y16 y17 y18 y19 y20
        refine Keeps.trans ?_ (State.attachFail_keeps _ _ _ _ _)
        exact h2
      · rename_i y21 y22 y23 y24
        refine Keeps.ite ?_ ?_
        · refine Keeps.ite ?_ ?_
          · refine Keeps.trans ?_ (State.setPhase_keeps _ _ _ _)
            refine Keeps.foldl ?_ ?_
            · exact h2
            · intro a25 b26
              refine Keeps.trans ?_ (cmdLoad_keeps _ _ _)
              exact Keeps.refl _
          · refine Keeps.ite ?_ ?_
            · refine Keeps.trans ?_ (State.hifShow_keeps _ _)
              refine Keeps.trans ?_ (State.cmdFail_keeps _ _ _ _ _)
              exact h2
            · exact h2
        · refine Keeps.ite ?_ ?_
          · refine Keeps.ite ?_ ?_
            · refine Keeps.trans ?_ (State.hifShow_keeps _ _)
              refine Keeps.trans ?_ (State.cmdFail_keeps _ _ _ _ _)
              exact h2
            · refine Keeps.ite ?_ ?_
              · extract_lets +onlyGivenNames x27
                have h28 : Keeps s x27 := by
                  unfold x27
                  refine Keeps.trans ?_ (State.setCmd_keeps _ _ _)
                  exact h2
                clear_value x27
                refine Keeps.foldl ?_ ?_
                · exact h28
                · intro a29 b30
                  refine Keeps.trans ?_ (State.attachReadReq_keeps _ _ _)
                  exact Keeps.refl _
              · exact h2
          · refine Keeps.ite ?_ ?_
            · refine Keeps.ite ?_ ?_
              · exact h2
              · refine Keeps.trans ?_ (State.setPhase_keeps _ _ _ _)
                refine Keeps.trans ?_ (State.attachTables_keeps _ _ _)
                exact h2
            · split
              · rename_i y31 y32 y33 y34
                have h35 : Keeps s y32 := by
                  refine Keeps1.use ?_ y34
                  refine Keeps1.trans ?_ (State.lockTables_keeps _ _)
                  exact h2
                refine Keeps.ite ?_ ?_
                · refine Keeps.trans ?_ (State.adminOk_keeps _ _ _)
                  exact h35
                · refine Keeps.trans ?_ (State.cacheGo_keeps _ _)
                  exact h35

theorem execHdaAttach_keeps (h : Half) (n : Nat) (tables : List (List Byte × List Byte × List (Nat × Nat)))
    (s : State) :
    OutKeeps s (execHdaAttach h n tables s) := by
  unfold execHdaAttach
  refine OutKeeps.next ?_
  refine Keeps.trans ?_ (hdaAttach_keeps _ _ _ _)
  exact Keeps.refl _

theorem hdaDetach_keeps (h : Half) (n : Nat) (s : State) :
    Keeps s (hdaDetach h n s) := by
  unfold hdaDetach
  extract_lets +onlyGivenNames x1
  have h2 : Keeps s x1 := by
    unfold x1
    refine Keeps.trans ?_ (State.hostSettle_keeps _)
    exact Keeps.refl _
  clear_value x1
  split
  · rename_i y3 y4
    exact h2
  · rename_i y5 y6 y7
    extract_lets +onlyGivenNames x8 x9
    clear_value x8
    clear_value x9
    refine Keeps.ite ?_ ?_
    · refine Keeps.ite ?_ ?_
      · refine Keeps.trans ?_ (State.hifShow_keeps _ _)
        refine Keeps.trans ?_ (State.cmdFail_keeps _ _ _ _ _)
        exact h2
      · refine Keeps.trans ?_ (State.setPhase_keeps _ _ _ _)
        refine Keeps.trans ?_ (Keeps.upd (s := x1) rfl rfl rfl rfl)
        exact h2
    · refine Keeps.ite ?_ ?_
      · refine Keeps.trans ?_ (State.hifShow_keeps _ _)
        refine Keeps.trans ?_ (State.cmdFail_keeps _ _ _ _ _)
        exact h2
      · refine Keeps.ite ?_ ?_
        · refine Keeps.ite ?_ ?_
          · exact h2
          · refine Keeps.trans ?_ (State.setPhase_keeps _ _ _ _)
            refine Keeps.foldl ?_ ?_
            · exact h2
            · intro a10 b11
              refine Keeps.trans ?_ (State.servoParkCmd_keeps _ _)
              exact Keeps.refl _
        · refine Keeps.ite ?_ ?_
          · refine Keeps.ite ?_ ?_
            · exact h2
            · extract_lets +onlyGivenNames x12
              have h13 : Keeps s x12 := by
                unfold x12
                refine Keeps.foldl ?_ ?_
                · exact h2
                · intro a14 b15
                  refine Keeps.trans ?_ (State.paIssue_keeps _ _ _ _)
                  exact Keeps.refl _
              clear_value x12
              refine Keeps.trans ?_ (State.setPhase_keeps _ _ _ _)
              refine Keeps.trans ?_ (State.spnStop_keeps _ _ _)
              exact h13
          · extract_lets +onlyGivenNames x16 x17
            clear_value x16
            clear_value x17
            refine Keeps.ite ?_ ?_
            · exact h2
            · refine Keeps.ite ?_ ?_
              · refine Keeps.trans ?_ (State.adminRejected_keeps _ _ _ _)
                exact h2
              · refine Keeps.ite ?_ ?_
                · refine Keeps.ite ?_ ?_
                  · refine Keeps.trans ?_ (State.setPhase_keeps _ _ _ _)
                    refine Keeps.ite ?_ ?_
                    · refine Keeps.trans ?_ (State.withdraw_keeps _ _ _)
                      exact h2
                    · exact h2
                  · exact h2
                · refine Keeps.ite ?_ ?_
                  · extract_lets +onlyGivenNames x18
                    clear_value x18
                    refine Keeps.trans ?_ (State.adminOk_keeps _ _ _)
                    refine Keeps.trans ?_ (State.setPortState_keeps _ _ _)
                    refine Keeps.trans ?_ (Keeps.upd (s := x1) rfl rfl rfl rfl)
                    exact h2
                  · exact h2

theorem execHdaDetach_keeps (h : Half) (n : Nat) (s : State) :
    OutKeeps s (execHdaDetach h n s) := by
  unfold execHdaDetach
  refine OutKeeps.next ?_
  refine Keeps.trans ?_ (hdaDetach_keeps _ _ _)
  exact Keeps.refl _

theorem State.nsWrite_keeps (s : State) (nsid : Nat) (ws : List Nat) (caps : List Nat) :
    Keeps s (State.nsWrite s nsid ws caps) := by
  unfold State.nsWrite
  extract_lets +onlyGivenNames x1
  have h2 : ∀ v3 v4, Keeps v3 (x1 v3 v4) := by
    intro v3 v4
    unfold x1
    refine Keeps.ite ?_ ?_
    · exact Keeps.refl _
    · extract_lets +onlyGivenNames x5
      have h6 : Keeps v3 x5 := by
        unfold x5
        refine Keeps.foldl ?_ ?_
        · exact Keeps.refl _
        · intro a7 b8
          refine Keeps.trans ?_ (State.setWord_keeps _ _ _)
          exact Keeps.refl _
      clear_value x5
      refine Keeps.trans ?_ (Keeps.upd (s := x5) rfl rfl rfl rfl)
      exact h6
  clear_value x1
  refine Keeps.trans ?_ (h2 _ _)
  refine Keeps.trans ?_ (h2 _ _)
  exact Keeps.refl _

theorem nsCreate_keeps (h : Half) (n : Nat) (s : State) :
    Keeps s (nsCreate h n s) := by
  unfold nsCreate
  split
  · rename_i y1 y2
    exact Keeps.refl _
  · rename_i y3 y4 y5
    extract_lets +onlyGivenNames x6 x7 x8 x9 x10 x11
    clear_value x6
    clear_value x7
    clear_value x8
    clear_value x9
    clear_value x10
    clear_value x11
    split
    · rename_i y12 y13 y14 y15
      refine Keeps.trans ?_ (State.hifShow_keeps _ _)
      refine Keeps.trans ?_ (State.cmdFail_keeps _ _ _ _ _)
      exact Keeps.refl _
    · rename_i y16 y17
      extract_lets +onlyGivenNames x18 x19 x20
      clear_value x18
      clear_value x19
      clear_value x20
      refine Keeps.trans ?_ (State.adminOk_keeps _ _ _)
      refine Keeps.trans ?_ (State.nsWrite_keeps _ _ _ _)
      exact Keeps.refl _

theorem execNsCreate_keeps (h : Half) (n : Nat) (s : State) :
    OutKeeps s (execNsCreate h n s) := by
  unfold execNsCreate
  refine OutKeeps.next ?_
  refine Keeps.trans ?_ (nsCreate_keeps _ _ _)
  exact Keeps.refl _

theorem nsDelete_keeps (h : Half) (n : Nat) (s : State) :
    Keeps s (nsDelete h n s) := by
  unfold nsDelete
  extract_lets +onlyGivenNames x1
  have h2 : Keeps s x1 := by
    unfold x1
    refine Keeps.trans ?_ (State.hostSettle_keeps _)
    exact Keeps.refl _
  clear_value x1
  split
  · rename_i y3 y4
    exact h2
  · rename_i y5 y6 y7
    split
    · rename_i y8 y9
      refine Keeps.trans ?_ (State.hifShow_keeps _ _)
      refine Keeps.trans ?_ (State.cmdFail_keeps _ _ _ _ _)
      exact h2
    · rename_i y10 y11 y12
      refine Keeps.ite ?_ ?_
      · exact h2
      · extract_lets +onlyGivenNames x13
        have h14 : Keeps s x13 := by
          unfold x13
          refine Keeps.ite ?_ ?_
          · refine Keeps.trans ?_ (State.release_keeps _ _ _ _)
            exact h2
          · exact h2
        clear_value x13
        refine Keeps.trans ?_ (State.adminOk_keeps _ _ _)
        refine Keeps.trans ?_ (State.nsWrite_keeps _ _ _ _)
        exact h14

theorem execNsDelete_keeps (h : Half) (n : Nat) (s : State) :
    OutKeeps s (execNsDelete h n s) := by
  unfold execNsDelete
  refine OutKeeps.next ?_
  refine Keeps.trans ?_ (nsDelete_keeps _ _ _)
  exact Keeps.refl _

theorem retire_keeps (h : Half) (n : Nat) (errs : List WordErr) (s : State) :
    Keeps s (retire h n errs s) := by
  unfold retire
  split
  · rename_i y1 y2
    exact Keeps.refl _
  · rename_i y3 y4 y5
    extract_lets +onlyGivenNames x6 x7 x8 x9
    clear_value x6
    clear_value x7
    have h10 : Keeps s x8 := by
      unfold x8
      refine Keeps.trans ?_ (State.setPhase_keeps _ _ _ _)
      refine Keeps.trans ?_ (State.put_keeps _ _ _ _)
      exact Keeps.refl _
    clear_value x8
    have h11 : Keeps s x9 := by
      unfold x9
      refine Keeps.ite ?_ ?_
      · exact Keeps.refl _
      · refine Keeps.ite ?_ ?_
        · refine Keeps.trans ?_ (bankRetire_keeps _ _)
          exact h10
        · refine Keeps.trans ?_ (pageRetire_keeps _ _ _)
          exact h10
    clear_value x9
    extract_lets +onlyGivenNames x12
    clear_value x12
    refine Keeps.ite ?_ ?_
    · refine Keeps.trans ?_ (State.adminOk_keeps _ _ _)
      exact h11
    · refine Keeps.ite ?_ ?_
      · refine Keeps.trans ?_ (State.adminRejected_keeps _ _ _ _)
        exact h11
      · exact h11

theorem execRetire_keeps (h : Half) (n : Nat) (errs : List WordErr) (s : State) :
    OutKeeps s (execRetire h n errs s) := by
  unfold execRetire
  refine OutKeeps.next ?_
  refine Keeps.trans ?_ (retire_keeps _ _ _ _)
  exact Keeps.refl _

theorem firmwareLoad_keeps (h : Half) (n : Nat) (bytes : List Byte) (s : State) :
    Keeps s (firmwareLoad h n bytes s) := by
  unfold firmwareLoad
  split
  · rename_i y1 y2
    exact Keeps.refl _
  · rename_i y3 y4 y5
    refine Keeps.ite ?_ ?_
    · exact Keeps.refl _
    · extract_lets +onlyGivenNames x6 x7
      clear_value x6
      clear_value x7
      refine Keeps.ite ?_ ?_
      · refine Keeps.trans ?_ (State.adminRejected_keeps _ _ _ _)
        refine Keeps.trans ?_ (State.imageReject_keeps _ _ _ _ _)
        exact Keeps.refl _
      · refine Keeps.trans ?_ (State.hifShow_keeps _ _)
        refine Keeps.trans ?_ (State.cmdEnd_keeps _ _ _ _ _ _)
        refine Keeps.trans ?_ (State.imageAccept_keeps _ _ _ _)
        exact Keeps.refl _

theorem execFirmwareLoad_keeps (h : Half) (n : Nat) (bytes : List Byte) (s : State) :
    OutKeeps s (execFirmwareLoad h n bytes s) := by
  unfold execFirmwareLoad
  refine OutKeeps.next ?_
  refine Keeps.trans ?_ (firmwareLoad_keeps _ _ _ _)
  exact Keeps.refl _

theorem microcodeLoad_keeps (h : Half) (n : Nat) (bytes : List Byte) (s : State) :
    Keeps s (microcodeLoad h n bytes s) := by
  unfold microcodeLoad
  split
  · rename_i y1 y2
    exact Keeps.refl _
  · rename_i y3 y4 y5
    refine Keeps.ite ?_ ?_
    · refine Keeps.ite ?_ ?_
      · exact Keeps.refl _
      · extract_lets +onlyGivenNames x6 x7
        clear_value x6
        clear_value x7
        refine Keeps.ite ?_ ?_
        · refine Keeps.trans ?_ (State.adminRejected_keeps _ _ _ _)
          refine Keeps.trans ?_ (State.imageReject_keeps _ _ _ _ _)
          exact Keeps.refl _
        · refine Keeps.trans ?_ (State.setPhase_keeps _ _ _ _)
          refine Keeps.trans ?_ (State.imageAccept_keeps _ _ _ _)
          exact Keeps.refl _
    · extract_lets +onlyGivenNames x8
      clear_value x8
      refine Keeps.ite ?_ ?_
      · refine Keeps.trans ?_ (State.adminOk_keeps _ _ _)
        exact Keeps.refl _
      · exact Keeps.refl _

theorem execMicrocodeLoad_keeps (h : Half) (n : Nat) (bytes : List Byte) (s : State) :
    OutKeeps s (execMicrocodeLoad h n bytes s) := by
  unfold execMicrocodeLoad
  refine OutKeeps.next ?_
  refine Keeps.trans ?_ (microcodeLoad_keeps _ _ _ _)
  exact Keeps.refl _

end Sys2Proof.Machine
end

