-- ==== Sys2Proof/Laws/KeepsLamplighter.lean ====
section
/-! SUPPORT. What `Keeps` says of every operation of Machine/Lamplighter.lean. -/

namespace Sys2Proof.Machine

theorem State.srcCount_keeps (s : State) (src : Source) :
    Keeps s (State.srcCount s src) := by
  unfold State.srcCount
  split
  · rename_i y1 y2 y3
    refine Keeps.trans ?_ (State.satAdd_keeps _ _ _ _)
    exact Keeps.refl _
  · rename_i y4 y5
    exact Keeps.refl _

theorem State.causeWrite_keeps (s : State) (src : Source) (sub : Nat) (multi : Bool) :
    Keeps s (State.causeWrite s src sub multi) := by
  unfold State.causeWrite
  extract_lets +onlyGivenNames x1 x2 x3 x4
  have h5 : Keeps s x1 := by
    unfold x1
    refine Keeps.trans ?_ (State.put_keeps _ _ _ _)
    refine Keeps.trans ?_ (State.put_keeps _ _ _ _)
    refine Keeps.trans ?_ (State.put_keeps _ _ _ _)
    exact Keeps.refl _
  clear_value x1
  have h6 : Keeps s x2 := by
    unfold x2
    refine Keeps.trans ?_ (State.putB_keeps _ _ _ _)
    exact h5
  clear_value x2
  have h7 : Keeps s x3 := by
    unfold x3
    refine Keeps.trans ?_ (State.put_keeps _ _ _ _)
    refine Keeps.trans ?_ (State.put_keeps _ _ _ _)
    exact h6
  clear_value x3
  clear_value x4
  extract_lets +onlyGivenNames x8
  have h9 : Keeps s x8 := by
    unfold x8
    refine Keeps.trans ?_ (Keeps.upd (s := x3) rfl rfl rfl rfl)
    exact h7
  clear_value x8
  refine Keeps.trans ?_ (State.event_keeps _ _ _ _ _)
  refine Keeps.trans ?_ (State.srcCount_keeps _ _)
  exact h9

theorem State.causeUndo_keeps (s : State) :
    Keeps s (State.causeUndo s) := by
  unfold State.causeUndo
  extract_lets +onlyGivenNames x1 x2 x3 x4
  clear_value x1
  clear_value x2
  clear_value x3
  have h5 : Keeps s x4 := by
    unfold x4
    refine Keeps.trans ?_ (Keeps.updQ (s := s) rfl rfl (List.length_filter_le _ _) rfl)
    exact Keeps.refl _
  clear_value x4
  split
  · rename_i y6 y7 y8
    refine Keeps.ite ?_ ?_
    · exact h5
    · refine Keeps.trans ?_ (State.put_keeps _ _ _ _)
      exact h5
  · rename_i y9 y10
    exact h5

theorem State.record_keeps (s : State) (src : Source) (sub : Nat) :
    Keeps s (State.record s src sub) := by
  unfold State.record
  refine Keeps.ite ?_ ?_
  · refine Keeps.trans ?_ (State.causeWrite_keeps _ _ _ _)
    exact Keeps.refl _
  · extract_lets +onlyGivenNames x1 x2
    clear_value x1
    clear_value x2
    refine Keeps.ite ?_ ?_
    · exact Keeps.refl _
    · refine Keeps.ite ?_ ?_
      · refine Keeps.trans ?_ (State.causeWrite_keeps _ _ _ _)
        refine Keeps.trans ?_ (State.causeUndo_keeps _)
        exact Keeps.refl _
      · refine Keeps.ite ?_ ?_
        · refine Keeps.trans ?_ (State.causeWrite_keeps _ _ _ _)
          refine Keeps.trans ?_ (State.causeUndo_keeps _)
          exact Keeps.refl _
        · refine Keeps.ite ?_ ?_
          · exact Keeps.refl _
          · refine Keeps.trans ?_ (State.put_keeps _ _ _ _)
            exact Keeps.refl _

theorem State.lmpShow_keeps (s : State) :
    Keeps s (State.lmpShow s) := by
  unfold State.lmpShow
  extract_lets +onlyGivenNames x1 x2 x3 x4 x5 x6 x7 x8 x9 x10
  clear_value x1
  clear_value x2
  have h11 : Keeps s x3 := by
    unfold x3
    refine Keeps.trans ?_ (State.put_keeps _ _ _ _)
    exact Keeps.refl _
  clear_value x3
  have h12 : Keeps s x4 := by
    unfold x4
    refine Keeps.trans ?_ (State.put_keeps _ _ _ _)
    exact h11
  clear_value x4
  have h13 : Keeps s x5 := by
    unfold x5
    refine Keeps.trans ?_ (State.put_keeps _ _ _ _)
    exact h12
  clear_value x5
  have h14 : Keeps s x6 := by
    unfold x6
    refine Keeps.trans ?_ (State.put_keeps _ _ _ _)
    exact h13
  clear_value x6
  have h15 : Keeps s x7 := by
    unfold x7
    refine Keeps.trans ?_ (State.put_keeps _ _ _ _)
    refine Keeps.trans ?_ (State.put_keeps _ _ _ _)
    exact h14
  clear_value x7
  have h16 : Keeps s x8 := by
    unfold x8
    refine Keeps.trans ?_ (State.putB_keeps _ _ _ _)
    refine Keeps.trans ?_ (State.putB_keeps _ _ _ _)
    exact h15
  clear_value x8
  have h17 : Keeps s x9 := by
    unfold x9
    refine Keeps.trans ?_ (State.put_keeps _ _ _ _)
    exact h16
  clear_value x9
  have h18 : ∀ v19 v20, Keeps v19 (x10 v19 v20) := by
    intro v19 v20
    unfold x10
    refine Keeps.ite ?_ ?_
    · exact Keeps.refl _
    · extract_lets +onlyGivenNames x21 x22 x23 x24 x25
      clear_value x21
      clear_value x22
      have h26 : Keeps v19 x23 := by
        unfold x23
        refine Keeps.trans ?_ (State.put_keeps _ _ _ _)
        exact Keeps.refl _
      clear_value x23
      have h27 : Keeps v19 x24 := by
        unfold x24
        refine Keeps.trans ?_ (State.put_keeps _ _ _ _)
        exact h26
      clear_value x24
      have h28 : Keeps v19 x25 := by
        unfold x25
        refine Keeps.trans ?_ (State.putB_keeps _ _ _ _)
        refine Keeps.trans ?_ (State.putB_keeps _ _ _ _)
        exact h27
      clear_value x25
      refine Keeps.trans ?_ (State.put_keeps _ _ _ _)
      exact h28
  clear_value x10
  refine Keeps.trans ?_ (h18 _ _)
  refine Keeps.trans ?_ (h18 _ _)
  exact h17

theorem State.railShow_keeps (s : State) (h : Half) :
    Keeps s (State.railShow s h) := by
  unfold State.railShow
  refine Keeps.trans ?_ (State.put_keeps _ _ _ _)
  exact Keeps.refl _

theorem State.probeShow_keeps (s : State) (h : Half) :
    Keeps s (State.probeShow s h) := by
  unfold State.probeShow
  refine Keeps.ite ?_ ?_
  · refine Keeps.trans ?_ (State.putB_keeps _ _ _ _)
    exact Keeps.refl _
  · exact Keeps.refl _

theorem State.clkFollow_keeps (s : State) (old : State) (h : Half) :
    Keeps s (State.clkFollow s old h) := by
  unfold State.clkFollow
  extract_lets +onlyGivenNames x1
  clear_value x1
  refine Keeps.foldl ?_ ?_
  · exact Keeps.refl _
  · intro a2 b3
    extract_lets +onlyGivenNames x4 x5 x6 x7
    clear_value x4
    clear_value x5
    clear_value x6
    clear_value x7
    refine Keeps.trans ?_ (State.putMaskBit_keeps _ _ _ _ _)
    refine Keeps.trans ?_ (State.putMaskBit_keeps _ _ _ _ _)
    exact Keeps.refl _

theorem State.setDom_keeps (s : State) (h : Half) (d : Nat) (st : Nat) :
    Keeps s (State.setDom s h d st) := by
  unfold State.setDom
  refine Keeps.trans ?_ (State.clkFollow_keeps _ _ _)
  refine Keeps.trans ?_ (State.put_keeps _ _ _ _)
  exact Keeps.refl _

theorem State.hlinkFollow_keeps (s : State) (h : Half) :
    Keeps s (State.hlinkFollow s h) := by
  unfold State.hlinkFollow
  refine Keeps.ite ?_ ?_
  · exact Keeps.refl _
  · refine Keeps.ite ?_ ?_
    · refine Keeps.trans ?_ (State.setDom_keeps _ _ _ _)
      exact Keeps.refl _
    · refine Keeps.ite ?_ ?_
      · refine Keeps.trans ?_ (State.setDom_keeps _ _ _ _)
        exact Keeps.refl _
      · exact Keeps.refl _

theorem State.clkStart_keeps (s : State) (h : Half) :
    Keeps s (State.clkStart s h) := by
  unfold State.clkStart
  refine Keeps.foldl ?_ ?_
  · exact Keeps.refl _
  · intro a1 b2
    refine Keeps.trans ?_ (State.putMaskBit_keeps _ _ _ _ _)
    refine Keeps.trans ?_ (State.putMaskBit_keeps _ _ _ _ _)
    exact Keeps.refl _

theorem State.fmtFlush_keeps (s : State) (ai : Nat) :
    Keeps s (State.fmtFlush s ai) := by
  unfold State.fmtFlush
  extract_lets +onlyGivenNames x1 x2
  have h3 : Keeps s x1 := by
    unfold x1
    refine Keeps.trans ?_ (State.fmtEnd_keeps _ _ _ _)
    refine Keeps.trans ?_ (State.opKill_keeps _ _ _)
    exact Keeps.refl _
  clear_value x1
  clear_value x2
  refine Keeps.foldl ?_ ?_
  · refine Keeps.trans ?_ (State.setFmt_keeps _ _ _)
    exact h3
  · intro a4 b5
    refine Keeps.trans ?_ (State.endReq_keeps _ _ _ _ _)
    exact Keeps.refl _

theorem State.wickClear_keeps (s : State) (ai : Nat) :
    Keeps s (State.wickClear s ai) := by
  unfold State.wickClear
  extract_lets +onlyGivenNames x1
  have h2 : Keeps s x1 := by
    unfold x1
    refine Keeps.trans ?_ (State.clearRange_keeps _ _ _)
    exact Keeps.refl _
  clear_value x1
  extract_lets +onlyGivenNames x3
  clear_value x3
  refine Keeps.trans ?_ (State.setWick_keeps _ _ _)
  exact h2

theorem State.forgetHda_keeps (s : State) (hd : Nat) : Keeps s (s.forgetHda hd) := by
  have u : ∀ (x : State) (y : SMap Bool) (z : Nat), Keeps x { x with trims := y, attached := z } :=
    fun _ _ _ => Keeps.upd rfl rfl rfl rfl
  exact u s _ _

theorem State.hdaUnitsClear_keeps (s : State) (hd : Nat) :
    Keeps s (State.hdaUnitsClear s hd) := by
  unfold State.hdaUnitsClear
  extract_lets +onlyGivenNames x1 x2 x3 x4 x5
  have h6 : Keeps s x1 := by
    unfold x1
    refine Keeps.trans ?_ (State.dropBrake_keeps _ _)
    refine Keeps.trans ?_ (State.dropTaper_keeps _ _)
    exact Keeps.refl _
  clear_value x1
  clear_value x2
  have h7 : Keeps s x3 := by
    unfold x3
    refine Keeps.trans ?_ (State.clearRange_keeps _ _ _)
    refine Keeps.trans ?_ (State.clearRange_keeps _ _ _)
    exact h6
  clear_value x3
  have h8 : Keeps s x4 := by
    unfold x4
    refine Keeps.trans ?_ (State.clearRange_keeps _ _ _)
    exact h7
  clear_value x4
  clear_value x5
  extract_lets +onlyGivenNames x9
  have h10 : Keeps s x9 := by
    unfold x9
    refine Keeps.trans ?_ (State.setSpn_keeps _ _ _)
    refine Keeps.trans ?_ (State.setPort_keeps _ _ _)
    exact h8
  clear_value x9
  refine Keeps.trans ?_ (State.forgetHda_keeps _ _)
  refine Keeps.foldl ?_ ?_
  · exact h10
  · intro a11 b12
    extract_lets +onlyGivenNames x13 x14 x15 x16
    clear_value x13
    have h17 : Keeps a11 x14 := by
      unfold x14
      refine Keeps.trans ?_ (State.clearRange_keeps _ _ _)
      refine Keeps.trans ?_ (State.clearRange_keeps _ _ _)
      exact Keeps.refl _
    clear_value x14
    have h18 : Keeps a11 x15 := by
      unfold x15
      refine Keeps.trans ?_ (State.wickClear_keeps _ _)
      refine Keeps.trans ?_ (State.setPa_keeps _ _ _)
      refine Keeps.trans ?_ (State.setSrv_keeps _ _ _)
      exact h17
    clear_value x15
    clear_value x16
    extract_lets +onlyGivenNames x19
    have h20 : Keeps a11 x19 := by
      unfold x19
      refine Keeps.trans ?_ (State.setRwq_keeps _ _ _)
      refine Keeps.trans ?_ (State.setFmt_keeps _ _ _)
      exact h18
    clear_value x19
    refine Keeps.ite ?_ ?_
    · refine Keeps.trans ?_ (State.put_keeps _ _ _ _)
      exact h20
    · exact h20

theorem State.hdaClear_keeps (s : State) (hd : Nat) :
    Keeps s (State.hdaClear s hd) := by
  unfold State.hdaClear
  refine Keeps.foldl ?_ ?_
  · refine Keeps.trans ?_ (State.hdaUnitsClear_keeps _ _)
    exact Keeps.refl _
  · intro a1 b2
    extract_lets +onlyGivenNames x3 x4
    clear_value x3
    clear_value x4
    refine Keeps.trans ?_ (State.setRch_keeps _ _ _)
    refine Keeps.trans ?_ (State.clearRange_keeps _ _ _)
    exact Keeps.refl _

theorem State.lanternClear_keeps (s : State) (h : Half) :
    Keeps s (State.lanternClear s h) := by
  unfold State.lanternClear
  extract_lets +onlyGivenNames x1 x2 x3 x4 x5 x6 x7 x8 x9 x10
  clear_value x1
  clear_value x2
  clear_value x3
  have h11 : Keeps s x4 := by
    unfold x4
    refine Keeps.trans ?_ (Keeps.upd (s := s) rfl rfl rfl rfl)
    exact Keeps.refl _
  clear_value x4
  have h12 : Keeps s x5 := by
    unfold x5
    refine Keeps.trans ?_ (State.clearRange_keeps _ _ _)
    exact h11
  clear_value x5
  clear_value x6
  have h13 : Keeps s x7 := by
    unfold x7
    refine Keeps.trans ?_ (Keeps.upd (s := x5) rfl rfl rfl rfl)
    exact h12
  clear_value x7
  have h14 : Keeps s x8 := by
    unfold x8
    refine Keeps.trans ?_ (Keeps.upd (s := x7) rfl rfl rfl rfl)
    exact h13
  clear_value x8
  have h15 : Keeps s x9 := by
    unfold x9
    refine Keeps.trans ?_ (Keeps.upd (s := x8) rfl rfl rfl rfl)
    exact h14
  clear_value x9
  clear_value x10
  extract_lets +onlyGivenNames x16 x17
  have h18 : Keeps s x16 := by
    unfold x16
    refine Keeps.foldl ?_ ?_
    · exact h15
    · intro a19 b20
      refine Keeps.trans ?_ (State.setSpn_keeps _ _ _)
      exact Keeps.refl _
  clear_value x16
  have h21 : Keeps s x17 := by
    unfold x17
    refine Keeps.foldl ?_ ?_
    · exact h18
    · intro a22 b23
      refine Keeps.trans ?_ (State.dropBrake_keeps _ _)
      refine Keeps.trans ?_ (State.dropTaper_keeps _ _)
      exact Keeps.refl _
  clear_value x17
  refine Keeps.foldl ?_ ?_
  · exact h21
  · intro a24 b25
    extract_lets +onlyGivenNames x26 x27
    clear_value x26
    clear_value x27
    extract_lets +onlyGivenNames x28
    have h29 : Keeps a24 x28 := by
      unfold x28
      refine Keeps.trans ?_ (State.setWick_keeps _ _ _)
      exact Keeps.refl _
    clear_value x28
    refine Keeps.ite ?_ ?_
    · refine Keeps.trans ?_ (State.put_keeps _ _ _ _)
      exact h29
    · exact h29

theorem State.mantleHalfReset_keeps (s : State) (h : Half) :
    Keeps s (State.mantleHalfReset s h) := by
  unfold State.mantleHalfReset
  extract_lets +onlyGivenNames x1 x2 x3 x4 x5 x6
  clear_value x1
  clear_value x2
  have h7 : Keeps s x3 := by
    unfold x3
    refine Keeps.trans ?_ (State.setMh_keeps _ _ _)
    exact Keeps.refl _
  clear_value x3
  clear_value x4
  have h8 : Keeps s x5 := by
    unfold x5
    refine Keeps.trans ?_ (Keeps.upd (s := x3) rfl rfl rfl rfl)
    exact h7
  clear_value x5
  have h9 : Keeps s x6 := by
    unfold x6
    split
    · rename_i y10 y11 y12
      refine Keeps.ite ?_ ?_
      · refine Keeps.trans ?_ (State.intakeClose_keeps _)
        exact h8
      · exact h8
    · rename_i y13 y14
      exact h8
  clear_value x6
  extract_lets +onlyGivenNames x15 x16
  have h17 : Keeps s x15 := by
    unfold x15
    refine Keeps.trans ?_ (State.put_keeps _ _ _ _)
    refine Keeps.trans ?_ (State.put_keeps _ _ _ _)
    exact h9
  clear_value x15
  have h18 : Keeps s x16 := by
    unfold x16
    refine Keeps.trans ?_ (State.put_keeps _ _ _ _)
    refine Keeps.trans ?_ (State.put_keeps _ _ _ _)
    exact h17
  clear_value x16
  refine Keeps.trans ?_ (State.put_keeps _ _ _ _)
  exact h18

theorem State.halfDown_keeps (s : State) (h : Half) :
    Keeps s (State.halfDown s h) := by
  unfold State.halfDown
  refine Keeps.ite ?_ ?_
  · exact Keeps.refl _
  · extract_lets +onlyGivenNames x1 x2 x3 x4 x5 x6
    have h7 : Keeps s x1 := by
      unfold x1
      refine Keeps.trans ?_ (State.withdrawHalf_keeps _ _ _)
      exact Keeps.refl _
    clear_value x1
    have h8 : Keeps s x2 := by
      unfold x2
      refine Keeps.trans ?_ (Keeps.upd (s := x1) rfl rfl rfl rfl)
      exact h7
    clear_value x2
    have h9 : Keeps s x3 := by
      unfold x3
      refine Keeps.trans ?_ (State.peerLost_keeps _ _)
      exact h8
    clear_value x3
    have h10 : Keeps s x4 := by
      unfold x4
      refine Keeps.trans ?_ (State.lanternClear_keeps _ _)
      refine Keeps.trans ?_ (State.mantleHalfReset_keeps _ _)
      exact h9
    clear_value x4
    clear_value x5
    have h11 : Keeps s x6 := by
      unfold x6
      refine Keeps.trans ?_ (Keeps.upd (s := x4) rfl rfl rfl rfl)
      exact h10
    clear_value x6
    refine Keeps.trans ?_ (State.hlinkFollow_keeps _ _)
    refine Keeps.trans ?_ (State.patchSettle_keeps _)
    refine Keeps.trans ?_ (State.railShow_keeps _ _)
    refine Keeps.trans ?_ (State.linkShow_keeps _)
    exact h11

theorem State.bootForget_keeps (s : State) :
    Keeps s (State.bootForget s) := by
  unfold State.bootForget
  extract_lets +onlyGivenNames x1
  have h2 : ∀ v3 v4, Keeps v3 (x1 v3 v4) := by
    intro v3 v4
    unfold x1
    extract_lets +onlyGivenNames x5
    clear_value x5
    refine Keeps.trans ?_ (State.setMh_keeps _ _ _)
    exact Keeps.refl _
  clear_value x1
  refine Keeps.trans ?_ (h2 _ _)
  refine Keeps.trans ?_ (h2 _ _)
  exact Keeps.refl _

theorem State.srcEffect_keeps (s : State) (src : Source) :
    Keeps s (State.srcEffect s src) := by
  unfold State.srcEffect
  split
  · rename_i y1
    refine Keeps.trans ?_ (State.halfDown_keeps _ _)
    refine Keeps.trans ?_ (State.halfDown_keeps _ _)
    refine Keeps.trans ?_ (State.bootForget_keeps _)
    exact Keeps.refl _
  · rename_i y2
    refine Keeps.trans ?_ (State.halfDown_keeps _ _)
    refine Keeps.trans ?_ (State.halfDown_keeps _ _)
    refine Keeps.trans ?_ (State.bootForget_keeps _)
    exact Keeps.refl _
  · rename_i y3
    refine Keeps.trans ?_ (State.halfDown_keeps _ _)
    refine Keeps.trans ?_ (State.halfDown_keeps _ _)
    refine Keeps.trans ?_ (State.bootForget_keeps _)
    exact Keeps.refl _
  · rename_i y4
    extract_lets +onlyGivenNames x5 x6
    have h7 : Keeps s x5 := by
      unfold x5
      refine Keeps.trans ?_ (State.retractAll_keeps _)
      exact Keeps.refl _
    clear_value x5
    clear_value x6
    extract_lets +onlyGivenNames x8
    have h9 : Keeps s x8 := by
      unfold x8
      refine Keeps.trans ?_ (Keeps.upd (s := x5) rfl rfl rfl rfl)
      exact h7
    clear_value x8
    refine Keeps.trans ?_ (State.halfDown_keeps _ _)
    refine Keeps.trans ?_ (State.halfDown_keeps _ _)
    refine Keeps.trans ?_ (State.bootForget_keeps _)
    exact h9
  · rename_i y10 y11
    refine Keeps.trans ?_ (State.halfDown_keeps _ _)
    exact Keeps.refl _
  · rename_i y12 y13
    refine Keeps.trans ?_ (State.portClear_keeps _ _)
    refine Keeps.trans ?_ (State.portLost_keeps _ _)
    exact Keeps.refl _
  · rename_i y14 y15
    extract_lets +onlyGivenNames x16 x17
    have h18 : Keeps s x16 := by
      unfold x16
      refine Keeps.trans ?_ (State.withdraw_keeps _ _ _)
      exact Keeps.refl _
    clear_value x16
    have h19 : Keeps s x17 := by
      unfold x17
      refine Keeps.trans ?_ (State.fmtFlush_keeps _ _)
      refine Keeps.trans ?_ (State.fmtFlush_keeps _ _)
      exact h18
    clear_value x17
    refine Keeps.trans ?_ (State.patchSettle_keeps _)
    refine Keeps.trans ?_ (State.hostSettle_keeps _)
    refine Keeps.trans ?_ (State.hdaClear_keeps _ _)
    exact h19
  · rename_i y20 y21 y22
    refine Keeps.ite ?_ ?_
    · extract_lets +onlyGivenNames x23 x24 x25 x26
      clear_value x23
      have h27 : Keeps s x24 := by
        unfold x24
        refine Keeps.trans ?_ (State.chAbort_keeps _ _ _)
        exact Keeps.refl _
      clear_value x24
      clear_value x25
      have h28 : Keeps s x26 := by
        unfold x26
        refine Keeps.foldl ?_ ?_
        · exact h27
        · intro a29 b30
          refine Keeps.trans ?_ (State.chErased_keeps _ _ _ _ _ _ _ _)
          exact Keeps.refl _
      clear_value x26
      refine Keeps.trans ?_ (State.setRch_keeps _ _ _)
      refine Keeps.trans ?_ (State.clearRange_keeps _ _ _)
      exact h28
    · refine Keeps.ite ?_ ?_
      · extract_lets +onlyGivenNames x31
        clear_value x31
        refine Keeps.trans ?_ (State.patchSettle_keeps _)
        refine Keeps.trans ?_ (State.wickClear_keeps _ _)
        refine Keeps.trans ?_ (State.opKill_keeps _ _ _)
        exact Keeps.refl _
      · extract_lets +onlyGivenNames x32
        have h33 : Keeps s x32 := by
          unfold x32
          refine Keeps.foldl ?_ ?_
          · exact Keeps.refl _
          · intro a34 b35
            refine Keeps.trans ?_ (State.sdmDisable_keeps _ _ _ _ _)
            exact Keeps.refl _
        clear_value x32
        refine Keeps.trans ?_ (State.setSdm_keeps _ _ _)
        refine Keeps.trans ?_ (State.clearRange_keeps _ _ _)
        exact h33

theorem State.assertSrc_keeps (s : State) (src : Source) (sub : Nat) :
    Keeps s (State.assertSrc s src sub) := by
  unfold State.assertSrc
  refine Keeps.ite ?_ ?_
  · exact Keeps.refl _
  · extract_lets +onlyGivenNames x1 x2
    clear_value x1
    have h3 : ∀ v4, Keeps v4 (x2 v4) := by
      intro v4
      unfold x2
      refine Keeps.trans ?_ (State.lmpShow_keeps _)
      refine Keeps.trans ?_ (Keeps.upd (s := v4) rfl rfl rfl rfl)
      exact Keeps.refl _
    clear_value x2
    refine Keeps.ite ?_ ?_
    · refine Keeps.trans ?_ (h3 _)
      refine Keeps.trans ?_ (State.satAdd_keeps _ _ _ _)
      exact Keeps.refl _
    · refine Keeps.trans ?_ (h3 _)
      refine Keeps.trans ?_ (State.srcEffect_keeps _ _)
      refine Keeps.trans ?_ (State.record_keeps _ _ _)
      exact Keeps.refl _

theorem State.linkTrain_keeps (s : State) (h : Half) :
    Keeps s (State.linkTrain s h) := by
  unfold State.linkTrain
  refine Keeps.ite ?_ ?_
  · refine Keeps.trans ?_ (State.put_keeps _ _ _ _)
    exact Keeps.refl _
  · exact Keeps.refl _

theorem State.releaseLantern_keeps (s : State) (h : Half) :
    Keeps s (State.releaseLantern s h) := by
  unfold State.releaseLantern
  extract_lets +onlyGivenNames x1
  clear_value x1
  refine Keeps.ite ?_ ?_
  · exact Keeps.refl _
  · extract_lets +onlyGivenNames x2 x3 x4 x5 x6 x7 x8 x9 x10
    have h11 : Keeps s x2 := by
      unfold x2
      refine Keeps.trans ?_ (Keeps.upd (s := s) rfl rfl rfl rfl)
      exact Keeps.refl _
    clear_value x2
    clear_value x3
    clear_value x4
    have h12 : Keeps s x5 := by
      unfold x5
      refine Keeps.trans ?_ (State.setMh_keeps _ _ _)
      exact h11
    clear_value x5
    have h13 : Keeps s x6 := by
      unfold x6
      refine Keeps.trans ?_ (State.put_keeps _ _ _ _)
      exact h12
    clear_value x6
    have h14 : Keeps s x7 := by
      unfold x7
      refine Keeps.trans ?_ (State.put_keeps _ _ _ _)
      refine Keeps.trans ?_ (State.put_keeps _ _ _ _)
      exact h13
    clear_value x7
    have h15 : Keeps s x8 := by
      unfold x8
      refine Keeps.foldl ?_ ?_
      · exact h14
      · intro a16 b17
        refine Keeps.trans ?_ (State.portRelease_keeps _ _)
        exact Keeps.refl _
    clear_value x8
    have h18 : Keeps s x9 := by
      unfold x9
      refine Keeps.trans ?_ (State.lampSchedule_keeps _ _)
      refine Keeps.trans ?_ (State.railShow_keeps _ _)
      exact h15
    clear_value x9
    have h19 : Keeps s x10 := by
      unfold x10
      refine Keeps.trans ?_ (State.putB_keeps _ _ _ _)
      exact h18
    clear_value x10
    extract_lets +onlyGivenNames x20
    have h21 : Keeps s x20 := by
      unfold x20
      refine Keeps.trans ?_ (State.put_keeps _ _ _ _)
      exact h19
    clear_value x20
    refine Keeps.trans ?_ (State.lmpShow_keeps _)
    refine Keeps.trans ?_ (State.linkShow_keeps _)
    refine Keeps.trans ?_ (State.hlinkFollow_keeps _ _)
    refine Keeps.trans ?_ (State.hlinkFollow_keeps _ _)
    refine Keeps.trans ?_ (State.clkStart_keeps _ _)
    exact h21

theorem State.releaseSrc_keeps (s : State) (src : Source) :
    Keeps s (State.releaseSrc s src) := by
  unfold State.releaseSrc
  extract_lets +onlyGivenNames x1 x2 x3 x4 x5 x6
  clear_value x1
  clear_value x2
  clear_value x3
  clear_value x4
  have h7 : Keeps s x5 := by
    unfold x5
    refine Keeps.trans ?_ (Keeps.upd (s := s) rfl rfl rfl rfl)
    exact Keeps.refl _
  clear_value x5
  have h8 : Keeps s x6 := by
    unfold x6
    refine Keeps.foldl ?_ ?_
    · exact h7
    · intro a9 b10
      refine Keeps.ite ?_ ?_
      · refine Keeps.trans ?_ (State.put_keeps _ _ _ _)
        exact Keeps.refl _
      · exact Keeps.refl _
  clear_value x6
  refine Keeps.trans ?_ (State.lmpShow_keeps _)
  exact h8

theorem lanternRelease_keeps (s : State) :
    Keeps s (lanternRelease s) := by
  unfold lanternRelease
  refine Keeps.trans ?_ (State.releaseLantern_keeps _ _)
  refine Keeps.trans ?_ (State.releaseLantern_keeps _ _)
  exact Keeps.refl _

theorem execLanternRelease_keeps (s : State) :
    OutKeeps s (execLanternRelease s) := by
  unfold execLanternRelease
  refine OutKeeps.next ?_
  refine Keeps.trans ?_ (lanternRelease_keeps _)
  exact Keeps.refl _

theorem mrst_keeps (s : State) :
    Keeps s (mrst s) := by
  unfold mrst
  refine Keeps.ite ?_ ?_
  · extract_lets +onlyGivenNames x1
    clear_value x1
    refine Keeps.trans ?_ (Keeps.upd (s := s) rfl rfl rfl rfl)
    exact Keeps.refl _
  · refine Keeps.trans ?_ (State.assertSrc_keeps _ _ _)
    extract_lets +onlyGivenNames x2
    clear_value x2
    refine Keeps.trans ?_ (Keeps.upd (s := s) rfl rfl rfl rfl)
    exact Keeps.refl _

theorem execMrst_keeps (s : State) :
    OutKeeps s (execMrst s) := by
  unfold execMrst
  refine OutKeeps.next ?_
  refine Keeps.trans ?_ (mrst_keeps _)
  exact Keeps.refl _

theorem mrstRelease_keeps (s : State) :
    Keeps s (mrstRelease s) := by
  unfold mrstRelease
  refine Keeps.trans ?_ (lanternRelease_keeps _)
  refine Keeps.trans ?_ (State.releaseSrc_keeps _ _)
  extract_lets +onlyGivenNames x1
  clear_value x1
  refine Keeps.trans ?_ (Keeps.upd (s := s) rfl rfl rfl rfl)
  exact Keeps.refl _

theorem execMrstRelease_keeps (s : State) :
    OutKeeps s (execMrstRelease s) := by
  unfold execMrstRelease
  refine OutKeeps.next ?_
  refine Keeps.trans ?_ (mrstRelease_keeps _)
  exact Keeps.refl _

theorem halfRelease_keeps (h : Half) (s : State) :
    Keeps s (halfRelease h s) := by
  unfold halfRelease
  refine Keeps.ite ?_ ?_
  · refine Keeps.trans ?_ (State.releaseLantern_keeps _ _)
    refine Keeps.trans ?_ (State.releaseSrc_keeps _ _)
    exact Keeps.refl _
  · exact Keeps.refl _

theorem execHalfRelease_keeps (h : Half) (s : State) :
    OutKeeps s (execHalfRelease h s) := by
  unfold execHalfRelease
  refine OutKeeps.next ?_
  refine Keeps.trans ?_ (halfRelease_keeps _ _)
  exact Keeps.refl _

theorem mainBoRelease_keeps (s : State) :
    Keeps s (mainBoRelease s) := by
  unfold mainBoRelease
  refine Keeps.ite ?_ ?_
  · refine Keeps.trans ?_ (lanternRelease_keeps _)
    refine Keeps.trans ?_ (State.releaseSrc_keeps _ _)
    exact Keeps.refl _
  · exact Keeps.refl _

theorem execMainBoRelease_keeps (s : State) :
    OutKeeps s (execMainBoRelease s) := by
  unfold execMainBoRelease
  refine OutKeeps.next ?_
  refine Keeps.trans ?_ (mainBoRelease_keeps _)
  exact Keeps.refl _

theorem hdaResetRelease_keeps (h : Half) (n : Nat) (s : State) :
    Keeps s (hdaResetRelease h n s) := by
  unfold hdaResetRelease
  extract_lets +onlyGivenNames x1 x2
  clear_value x1
  clear_value x2
  refine Keeps.ite ?_ ?_
  · exact Keeps.refl _
  · extract_lets +onlyGivenNames x3
    have h4 : Keeps s x3 := by
      unfold x3
      refine Keeps.trans ?_ (State.releaseSrc_keeps _ _)
      exact Keeps.refl _
    clear_value x3
    refine Keeps.ite ?_ ?_
    · refine Keeps.trans ?_ (State.portRelease_keeps _ _)
      exact h4
    · exact h4

theorem execHdaResetRelease_keeps (h : Half) (n : Nat) (s : State) :
    OutKeeps s (execHdaResetRelease h n s) := by
  unfold execHdaResetRelease
  refine OutKeeps.next ?_
  refine Keeps.trans ?_ (hdaResetRelease_keeps _ _ _)
  exact Keeps.refl _

theorem blockRelease_keeps (h : Half) (code : Nat) (s : State) :
    Keeps s (blockRelease h code s) := by
  unfold blockRelease
  extract_lets +onlyGivenNames x1
  clear_value x1
  refine Keeps.ite ?_ ?_
  · refine Keeps.trans ?_ (State.releaseSrc_keeps _ _)
    exact Keeps.refl _
  · exact Keeps.refl _

theorem execBlockRelease_keeps (h : Half) (code : Nat) (s : State) :
    OutKeeps s (execBlockRelease h code s) := by
  unfold execBlockRelease
  refine OutKeeps.next ?_
  refine Keeps.trans ?_ (blockRelease_keeps _ _ _)
  exact Keeps.refl _

theorem wrapperDrained_keeps (h : Half) (code : Nat) (s : State) :
    Keeps s (wrapperDrained h code s) := by
  unfold wrapperDrained
  extract_lets +onlyGivenNames x1
  clear_value x1
  refine Keeps.trans ?_ (Keeps.upd (s := s) rfl rfl rfl rfl)
  exact Keeps.refl _

theorem execWrapperDrained_keeps (h : Half) (code : Nat) (s : State) :
    OutKeeps s (execWrapperDrained h code s) := by
  unfold execWrapperDrained
  refine OutKeeps.next ?_
  refine Keeps.trans ?_ (wrapperDrained_keeps _ _ _)
  exact Keeps.refl _

theorem State.chimneyRequest_keeps (s : State) (h : Half) (kind : Nat) (target : Nat) :
    Keeps1 s (State.chimneyRequest s h kind target) := by
  unfold State.chimneyRequest
  split
  · rename_i y1 y2
    refine Keeps1.mk ?_
    exact Keeps.refl _
  · rename_i y3 y4 y5
    refine Keeps1.ite ?_ ?_
    · refine Keeps1.mk ?_
      exact Keeps.refl _
    · refine Keeps1.mk ?_
      refine Keeps.trans ?_ (State.assertSrc_keeps _ _ _)
      exact Keeps.refl _

theorem State.resetRequest_keeps (s : State) (h : Half) (kind : Nat) (target : Nat) (key : Nat) :
    Keeps s (State.resetRequest s h kind target key) := by
  unfold State.resetRequest
  refine Keeps.ite ?_ ?_
  · exact Keeps.refl _
  · extract_lets +onlyGivenNames x1 x2 x3
    clear_value x1
    have h4 : Keeps s x2 := by
      unfold x2
      refine Keeps.trans ?_ (State.put_keeps _ _ _ _)
      refine Keeps.trans ?_ (State.put_keeps _ _ _ _)
      refine Keeps.trans ?_ (State.put_keeps _ _ _ _)
      exact Keeps.refl _
    clear_value x2
    have h5 : ∀ v6 v7, Keeps v6 (x3 v6 v7) := by
      intro v6 v7
      unfold x3
      refine Keeps.trans ?_ (State.put_keeps _ _ _ _)
      refine Keeps.trans ?_ (State.put_keeps _ _ _ _)
      exact Keeps.refl _
    clear_value x3
    refine Keeps.ite ?_ ?_
    · refine Keeps.trans ?_ (h5 _ _)
      exact h4
    · split
      · rename_i y8 y9
        refine Keeps.trans ?_ (h5 _ _)
        exact h4
      · rename_i y10 y11 y12
        refine Keeps.ite ?_ ?_
        · refine Keeps.trans ?_ (h5 _ _)
          exact h4
        · refine Keeps.ite ?_ ?_
          · refine Keeps.trans ?_ (h5 _ _)
            exact h4
          · refine Keeps.ite ?_ ?_
            · refine Keeps.trans ?_ (h5 _ _)
              exact h4
            · extract_lets +onlyGivenNames x13 x14
              have h15 : Keeps s x13 := by
                unfold x13
                refine Keeps.trans ?_ (State.put_keeps _ _ _ _)
                refine Keeps.trans ?_ (State.put_keeps _ _ _ _)
                exact h4
              clear_value x13
              clear_value x14
              extract_lets +onlyGivenNames x16
              have h17 : Keeps s x16 := by
                unfold x16
                refine Keeps.trans ?_ (Keeps.upd (s := x13) rfl rfl rfl rfl)
                exact h15
              clear_value x16
              refine Keeps.trans ?_ (State.assertSrc_keeps _ _ _)
              exact h17

theorem execHalfResetRequest_keeps (h : Half) (target : Nat) (key : Nat) (s : State) :
    OutKeeps s (execHalfResetRequest h target key s) := by
  unfold execHalfResetRequest
  refine OutKeeps.next ?_
  refine Keeps.trans ?_ (State.resetRequest_keeps _ _ _ _ _)
  exact Keeps.refl _

theorem execHdaResetRequest_keeps (h : Half) (target : Nat) (key : Nat) (s : State) :
    OutKeeps s (execHdaResetRequest h target key s) := by
  unfold execHdaResetRequest
  refine OutKeeps.next ?_
  refine Keeps.trans ?_ (State.resetRequest_keeps _ _ _ _ _)
  exact Keeps.refl _

theorem execBlockResetRequest_keeps (h : Half) (target : Nat) (key : Nat) (s : State) :
    OutKeeps s (execBlockResetRequest h target key s) := by
  unfold execBlockResetRequest
  refine OutKeeps.next ?_
  refine Keeps.trans ?_ (State.resetRequest_keeps _ _ _ _ _)
  exact Keeps.refl _

theorem configured_keeps (h : Half) (s : State) :
    Keeps s (configured h s) := by
  unfold configured
  refine Keeps.ite ?_ ?_
  · exact Keeps.refl _
  · extract_lets +onlyGivenNames x1 x2 x3
    have h4 : Keeps s x1 := by
      unfold x1
      refine Keeps.trans ?_ (State.flag_keeps _ _ _)
      exact Keeps.refl _
    clear_value x1
    have h5 : Keeps s x2 := by
      unfold x2
      refine Keeps.foldl ?_ ?_
      · exact h4
      · intro a6 b7
        refine Keeps.trans ?_ (State.vcmShow_keeps _ _)
        exact Keeps.refl _
    clear_value x2
    have h8 : Keeps s x3 := by
      unfold x3
      refine Keeps.foldl ?_ ?_
      · exact h5
      · intro a9 b10
        refine Keeps.trans ?_ (State.showBridge_keeps _ _)
        exact Keeps.refl _
    clear_value x3
    refine Keeps.trans ?_ (State.lmpShow_keeps _)
    refine Keeps.trans ?_ (State.probeShow_keeps _ _)
    refine Keeps.trans ?_ (State.linkTrain_keeps _ _)
    exact h8

theorem execConfigured_keeps (h : Half) (s : State) :
    OutKeeps s (execConfigured h s) := by
  unfold execConfigured
  refine OutKeeps.next ?_
  refine Keeps.trans ?_ (configured_keeps _ _)
  exact Keeps.refl _

theorem State.bootFail_keeps (s : State) (h : Half) :
    Keeps s (State.bootFail s h) := by
  unfold State.bootFail
  extract_lets +onlyGivenNames x1
  clear_value x1
  refine Keeps.ite ?_ ?_
  · exact Keeps.refl _
  · extract_lets +onlyGivenNames x2 x3
    clear_value x2
    have h4 : Keeps s x3 := by
      unfold x3
      refine Keeps.trans ?_ (State.setMh_keeps _ _ _)
      exact Keeps.refl _
    clear_value x3
    refine Keeps.ite ?_ ?_
    · refine Keeps.trans ?_ (State.mantleMsg_keeps _ _ _ _ _ _)
      refine Keeps.trans ?_ (State.event_keeps _ _ _ _ _)
      exact h4
    · exact h4

theorem wdStage2_keeps (h : Half) (s : State) :
    Keeps s (wdStage2 h s) := by
  unfold wdStage2
  extract_lets +onlyGivenNames x1
  clear_value x1
  refine Keeps.ite ?_ ?_
  · exact Keeps.refl _
  · extract_lets +onlyGivenNames x2 x3 x4
    have h5 : Keeps s x2 := by
      unfold x2
      refine Keeps.trans ?_ (State.withdrawHalf_keeps _ _ _)
      exact Keeps.refl _
    clear_value x2
    have h6 : Keeps s x3 := by
      unfold x3
      refine Keeps.trans ?_ (State.event_keeps _ _ _ _ _)
      refine Keeps.trans ?_ (State.satAdd_keeps _ _ _ _)
      exact h5
    clear_value x3
    have h7 : Keeps s x4 := by
      unfold x4
      refine Keeps.trans ?_ (State.mantleMsg_keeps _ _ _ _ _ _)
      exact h6
    clear_value x4
    refine Keeps.trans ?_ (State.assertSrc_keeps _ _ _)
    refine Keeps.trans ?_ (State.bootFail_keeps _ _)
    exact h7

theorem execWdStage2_keeps (h : Half) (s : State) :
    OutKeeps s (execWdStage2 h s) := by
  unfold execWdStage2
  refine OutKeeps.next ?_
  refine Keeps.trans ?_ (wdStage2_keeps _ _)
  exact Keeps.refl _

theorem slotCheckDone_keeps (h : Half) (ok : Bool) (s : State) :
    Keeps s (slotCheckDone h ok s) := by
  unfold slotCheckDone
  extract_lets +onlyGivenNames x1
  clear_value x1
  refine Keeps.ite ?_ ?_
  · exact Keeps.refl _
  · refine Keeps.ite ?_ ?_
    · refine Keeps.trans ?_ (State.put_keeps _ _ _ _)
      refine Keeps.trans ?_ (State.setMh_keeps _ _ _)
      exact Keeps.refl _
    · extract_lets +onlyGivenNames x2
      have h3 : Keeps s x2 := by
        unfold x2
        refine Keeps.trans ?_ (State.bootFail_keeps _ _)
        exact Keeps.refl _
      clear_value x2
      refine Keeps.ite ?_ ?_
      · refine Keeps.trans ?_ (State.lmpShow_keeps _)
        refine Keeps.trans ?_ (State.halfDown_keeps _ _)
        exact h3
      · exact h3

theorem execSlotCheckDone_keeps (h : Half) (ok : Bool) (s : State) :
    OutKeeps s (execSlotCheckDone h ok s) := by
  unfold execSlotCheckDone
  refine OutKeeps.next ?_
  refine Keeps.trans ?_ (slotCheckDone_keeps _ _ _)
  exact Keeps.refl _

theorem State.coldClear_keeps (s : State) (src : Source) :
    Keeps s (State.coldClear s src) := by
  unfold State.coldClear
  extract_lets +onlyGivenNames x1 x2 x3 x4 x5 x6
  clear_value x1
  clear_value x3
  clear_value x4
  have h7 : Keeps s x5 := by
    unfold x5
    refine Keeps.trans ?_ (Keeps.fresh (s := s) rfl rfl rfl rfl)
    exact Keeps.refl _
  clear_value x5
  clear_value x6
  extract_lets +onlyGivenNames x8 x9 x10
  have h11 : Keeps s x8 := by
    unfold x8
    refine Keeps.foldl ?_ ?_
    · exact h7
    · intro a12 b13
      refine Keeps.trans ?_ (State.setSpn_keeps _ _ _)
      exact Keeps.refl _
  clear_value x8
  clear_value x9
  have h14 : Keeps s x10 := by
    unfold x10
    refine Keeps.foldl ?_ ?_
    · exact h11
    · intro a15 b16
      refine Keeps.trans ?_ (State.put_keeps _ _ _ _)
      exact Keeps.refl _
  clear_value x10
  refine Keeps.trans ?_ (State.lmpShow_keeps _)
  exact h14

theorem auxPowerGood_keeps (s : State) :
    Keeps s (auxPowerGood s) := by
  unfold auxPowerGood
  extract_lets +onlyGivenNames x1
  clear_value x1
  extract_lets +onlyGivenNames x2
  clear_value x2
  refine Keeps.trans ?_ (Keeps.upd (s := s) rfl rfl rfl rfl)
  exact Keeps.refl _

theorem execAuxPowerGood_keeps (s : State) :
    OutKeeps s (execAuxPowerGood s) := by
  unfold execAuxPowerGood
  refine OutKeeps.next ?_
  refine Keeps.trans ?_ (auxPowerGood_keeps _)
  exact Keeps.refl _

theorem cold_keeps (s : State) :
    Keeps s (cold s) := by
  unfold cold
  extract_lets +onlyGivenNames x1
  have h2 : Keeps s x1 := by
    unfold x1
    refine Keeps.trans ?_ (State.coldClear_keeps _ _)
    exact Keeps.refl _
  clear_value x1
  extract_lets +onlyGivenNames x3
  clear_value x3
  refine Keeps.trans ?_ (Keeps.upd (s := x1) rfl rfl rfl rfl)
  exact h2

theorem execCold_keeps (s : State) :
    OutKeeps s (execCold s) := by
  unfold execCold
  refine OutKeeps.next ?_
  refine Keeps.trans ?_ (cold_keeps _)
  exact Keeps.refl _

theorem State.pinSources_keeps (s : State) :
    Keeps s (State.pinSources s) := by
  unfold State.pinSources
  extract_lets +onlyGivenNames x1 x2
  have h3 : Keeps s x1 := by
    unfold x1
    refine Keeps.ite ?_ ?_
    · refine Keeps.trans ?_ (State.assertSrc_keeps _ _ _)
      exact Keeps.refl _
    · exact Keeps.refl _
  clear_value x1
  have h4 : ∀ v5 v6, Keeps v5 (x2 v5 v6) := by
    intro v5 v6
    unfold x2
    refine Keeps.ite ?_ ?_
    · refine Keeps.trans ?_ (State.assertSrc_keeps _ _ _)
      exact Keeps.refl _
    · exact Keeps.refl _
  clear_value x2
  refine Keeps.trans ?_ (h4 _ _)
  refine Keeps.trans ?_ (h4 _ _)
  exact h3

theorem coldRelease_keeps (s : State) :
    Keeps s (coldRelease s) := by
  unfold coldRelease
  refine Keeps.ite ?_ ?_
  · refine Keeps.trans ?_ (State.releaseSrc_keeps _ _)
    refine Keeps.trans ?_ (State.pinSources_keeps _)
    exact Keeps.refl _
  · exact Keeps.refl _

theorem execColdRelease_keeps (s : State) :
    OutKeeps s (execColdRelease s) := by
  unfold execColdRelease
  refine OutKeeps.next ?_
  refine Keeps.trans ?_ (coldRelease_keeps _)
  exact Keeps.refl _

theorem auxBo_keeps (s : State) :
    Keeps s (auxBo s) := by
  unfold auxBo
  refine Keeps.ite ?_ ?_
  · extract_lets +onlyGivenNames x1
    clear_value x1
    refine Keeps.trans ?_ (Keeps.upd (s := s) rfl rfl rfl rfl)
    exact Keeps.refl _
  · extract_lets +onlyGivenNames x2 x3 x4 x5 x6
    clear_value x2
    clear_value x3
    have h7 : Keeps s x4 := by
      unfold x4
      refine Keeps.trans ?_ (State.retractAll_keeps _)
      refine Keeps.trans ?_ (Keeps.upd (s := s) rfl rfl rfl rfl)
      exact Keeps.refl _
    clear_value x4
    have h8 : Keeps s x5 := by
      unfold x5
      refine Keeps.trans ?_ (State.srcEffect_keeps _ _)
      exact h7
    clear_value x5
    clear_value x6
    extract_lets +onlyGivenNames x9
    have h10 : Keeps s x9 := by
      unfold x9
      refine Keeps.trans ?_ (Keeps.upd (s := x5) rfl rfl rfl rfl)
      exact h8
    clear_value x9
    refine Keeps.trans ?_ (State.lmpShow_keeps _)
    exact h10

theorem execAuxBo_keeps (s : State) :
    OutKeeps s (execAuxBo s) := by
  unfold execAuxBo
  refine OutKeeps.next ?_
  refine Keeps.trans ?_ (auxBo_keeps _)
  exact Keeps.refl _

theorem auxBoMantleReset_keeps (s : State) :
    Keeps s (auxBoMantleReset s) := by
  unfold auxBoMantleReset
  refine Keeps.ite ?_ ?_
  · exact Keeps.refl _
  · extract_lets +onlyGivenNames x1
    have h2 : Keeps s x1 := by
      unfold x1
      refine Keeps.trans ?_ (State.coldClear_keeps _ _)
      exact Keeps.refl _
    clear_value x1
    extract_lets +onlyGivenNames x3
    clear_value x3
    refine Keeps.trans ?_ (Keeps.upd (s := x1) rfl rfl rfl rfl)
    exact h2

theorem execAuxBoMantleReset_keeps (s : State) :
    OutKeeps s (execAuxBoMantleReset s) := by
  unfold execAuxBoMantleReset
  refine OutKeeps.next ?_
  refine Keeps.trans ?_ (auxBoMantleReset_keeps _)
  exact Keeps.refl _

theorem auxBoRelease_keeps (s : State) :
    Keeps s (auxBoRelease s) := by
  unfold auxBoRelease
  refine Keeps.ite ?_ ?_
  · refine Keeps.trans ?_ (State.put_keeps _ _ _ _)
    refine Keeps.trans ?_ (State.releaseSrc_keeps _ _)
    refine Keeps.trans ?_ (State.pinSources_keeps _)
    exact Keeps.refl _
  · exact Keeps.refl _

theorem execAuxBoRelease_keeps (s : State) :
    OutKeeps s (execAuxBoRelease s) := by
  unfold execAuxBoRelease
  refine OutKeeps.next ?_
  refine Keeps.trans ?_ (auxBoRelease_keeps _)
  exact Keeps.refl _

theorem mantleRailLoss_keeps (s : State) :
    Keeps s (mantleRailLoss s) := by
  unfold mantleRailLoss
  refine Keeps.ite ?_ ?_
  · exact Keeps.refl _
  · refine Keeps.trans ?_ (State.coldClear_keeps _ _)
    exact Keeps.refl _

theorem execMantleRailLoss_keeps (s : State) :
    OutKeeps s (execMantleRailLoss s) := by
  unfold execMantleRailLoss
  refine OutKeeps.next ?_
  refine Keeps.trans ?_ (mantleRailLoss_keeps _)
  exact Keeps.refl _

theorem strapConversion_keeps (ohm : Nat) (s : State) :
    Keeps s (strapConversion ohm s) := by
  unfold strapConversion
  refine Keeps.ite ?_ ?_
  · exact Keeps.refl _
  · extract_lets +onlyGivenNames x1
    clear_value x1
    refine Keeps.trans ?_ (Keeps.upd (s := s) rfl rfl rfl rfl)
    exact Keeps.refl _

theorem execStrapConversion_keeps (ohm : Nat) (s : State) :
    OutKeeps s (execStrapConversion ohm s) := by
  unfold execStrapConversion
  refine OutKeeps.next ?_
  refine Keeps.trans ?_ (strapConversion_keeps _ _)
  exact Keeps.refl _

theorem strapSetEnd_keeps (coldPlate : Bool) (s : State) :
    Keeps s (strapSetEnd coldPlate s) := by
  unfold strapSetEnd
  extract_lets +onlyGivenNames x1
  clear_value x1
  refine Keeps.ite ?_ ?_
  · exact Keeps.refl _
  · extract_lets +onlyGivenNames x2 x3 x4 x5 x6 x7 x8
    clear_value x2
    clear_value x3
    clear_value x4
    clear_value x5
    have h9 : Keeps s x6 := by
      unfold x6
      refine Keeps.trans ?_ (Keeps.upd (s := s) rfl rfl rfl rfl)
      exact Keeps.refl _
    clear_value x6
    have h10 : Keeps s x7 := by
      unfold x7
      refine Keeps.ite ?_ ?_
      · refine Keeps.trans ?_ (State.event_keeps _ _ _ _ _)
        exact h9
      · exact h9
    clear_value x7
    have h11 : Keeps s x8 := by
      unfold x8
      refine Keeps.trans ?_ (State.putB_keeps _ _ _ _)
      exact h10
    clear_value x8
    extract_lets +onlyGivenNames x12
    have h13 : Keeps s x12 := by
      unfold x12
      refine Keeps.trans ?_ (State.put_keeps _ _ _ _)
      refine Keeps.trans ?_ (State.put_keeps _ _ _ _)
      refine Keeps.trans ?_ (State.put_keeps _ _ _ _)
      exact h11
    clear_value x12
    extract_lets +onlyGivenNames x14
    have h15 : Keeps s x14 := by
      unfold x14
      refine Keeps.trans ?_ (State.putB_keeps _ _ _ _)
      exact h13
    clear_value x14
    extract_lets +onlyGivenNames x16
    have h17 : Keeps s x16 := by
      unfold x16
      refine Keeps.trans ?_ (State.put_keeps _ _ _ _)
      exact h15
    clear_value x16
    extract_lets +onlyGivenNames x18
    have h19 : Keeps s x18 := by
      unfold x18
      refine Keeps.trans ?_ (State.satAdd_keeps _ _ _ _)
      refine Keeps.trans ?_ (State.put_keeps _ _ _ _)
      exact h11
    clear_value x18
    extract_lets +onlyGivenNames x20
    have h21 : Keeps s x20 := by
      unfold x20
      refine Keeps.ite ?_ ?_
      · refine Keeps.ite ?_ ?_
        · exact h15
        · refine Keeps.trans ?_ (State.mantleMsg_keeps _ _ _ _ _ _)
          refine Keeps.trans ?_ (State.event_keeps _ _ _ _ _)
          exact h17
      · refine Keeps.trans ?_ (State.mantleMsg_keeps _ _ _ _ _ _)
        refine Keeps.trans ?_ (State.event_keeps _ _ _ _ _)
        exact h19
    clear_value x20
    refine Keeps.trans ?_ (State.lmpShow_keeps _)
    exact h21

theorem execStrapSetEnd_keeps (coldPlate : Bool) (s : State) :
    OutKeeps s (execStrapSetEnd coldPlate s) := by
  unfold execStrapSetEnd
  refine OutKeeps.next ?_
  refine Keeps.trans ?_ (strapSetEnd_keeps _ _)
  exact Keeps.refl _

theorem strapRetry_keeps (s : State) :
    Keeps s (strapRetry s) := by
  unfold strapRetry
  refine Keeps.ite ?_ ?_
  · extract_lets +onlyGivenNames x1
    clear_value x1
    refine Keeps.trans ?_ (Keeps.upd (s := s) rfl rfl rfl rfl)
    exact Keeps.refl _
  · exact Keeps.refl _

theorem execStrapRetry_keeps (s : State) :
    OutKeeps s (execStrapRetry s) := by
  unfold execStrapRetry
  refine OutKeeps.next ?_
  refine Keeps.trans ?_ (strapRetry_keeps _)
  exact Keeps.refl _

theorem hotSwapClose_keeps (s : State) :
    Keeps s (hotSwapClose s) := by
  unfold hotSwapClose
  refine Keeps.ite ?_ ?_
  · extract_lets +onlyGivenNames x1
    clear_value x1
    refine Keeps.trans ?_ (Keeps.upd (s := s) rfl rfl rfl rfl)
    exact Keeps.refl _
  · exact Keeps.refl _

theorem execHotSwapClose_keeps (s : State) :
    OutKeeps s (execHotSwapClose s) := by
  unfold execHotSwapClose
  refine OutKeeps.next ?_
  refine Keeps.trans ?_ (hotSwapClose_keeps _)
  exact Keeps.refl _

theorem hotSwapRampEnd_keeps (s : State) :
    Keeps s (hotSwapRampEnd s) := by
  unfold hotSwapRampEnd
  refine Keeps.ite ?_ ?_
  · extract_lets +onlyGivenNames x1
    clear_value x1
    refine Keeps.trans ?_ (Keeps.upd (s := s) rfl rfl rfl rfl)
    exact Keeps.refl _
  · exact Keeps.refl _

theorem execHotSwapRampEnd_keeps (s : State) :
    OutKeeps s (execHotSwapRampEnd s) := by
  unfold execHotSwapRampEnd
  refine OutKeeps.next ?_
  refine Keeps.trans ?_ (hotSwapRampEnd_keeps _)
  exact Keeps.refl _

theorem railGood_keeps (h : Half) (rail : Nat) (s : State) :
    Keeps s (railGood h rail s) := by
  unfold railGood
  extract_lets +onlyGivenNames x1
  clear_value x1
  refine Keeps.ite ?_ ?_
  · exact Keeps.refl _
  · refine Keeps.trans ?_ (State.railShow_keeps _ _)
    refine Keeps.trans ?_ (Keeps.upd (s := s) rfl rfl rfl rfl)
    exact Keeps.refl _

theorem execRailGood_keeps (h : Half) (rail : Nat) (s : State) :
    OutKeeps s (execRailGood h rail s) := by
  unfold execRailGood
  refine OutKeeps.next ?_
  refine Keeps.trans ?_ (railGood_keeps _ _ _)
  exact Keeps.refl _

theorem psenNHigh_keeps (s : State) :
    Keeps s (psenNHigh s) := by
  unfold psenNHigh
  extract_lets +onlyGivenNames x1 x2 x3 x4
  clear_value x1
  clear_value x2
  have h5 : Keeps s x3 := by
    unfold x3
    refine Keeps.trans ?_ (State.retractAll_keeps _)
    refine Keeps.trans ?_ (Keeps.upd (s := s) rfl rfl rfl rfl)
    exact Keeps.refl _
  clear_value x3
  have h6 : Keeps s x4 := by
    unfold x4
    refine Keeps.ite ?_ ?_
    · refine Keeps.trans ?_ (State.assertSrc_keeps _ _ _)
      exact h5
    · exact h5
  clear_value x4
  refine Keeps.trans ?_ (Keeps.upd (s := x4) rfl rfl rfl rfl)
  exact h6

theorem execPsenNHigh_keeps (s : State) :
    OutKeeps s (execPsenNHigh s) := by
  unfold execPsenNHigh
  refine OutKeeps.next ?_
  refine Keeps.trans ?_ (psenNHigh_keeps _)
  exact Keeps.refl _

theorem busBrownOut_keeps (s : State) :
    Keeps s (busBrownOut s) := by
  unfold busBrownOut
  refine Keeps.ite ?_ ?_
  · refine Keeps.trans ?_ (State.assertSrc_keeps _ _ _)
    exact Keeps.refl _
  · exact Keeps.refl _

theorem execBusBrownOut_keeps (s : State) :
    OutKeeps s (execBusBrownOut s) := by
  unfold execBusBrownOut
  refine OutKeeps.next ?_
  refine Keeps.trans ?_ (busBrownOut_keeps _)
  exact Keeps.refl _

theorem State.linkLost_keeps (s : State) (h : Half) :
    Keeps s (State.linkLost s h) := by
  unfold State.linkLost
  refine Keeps.ite ?_ ?_
  · refine Keeps.trans ?_ (State.flag_keeps _ _ _)
    refine Keeps.trans ?_ (State.put_keeps _ _ _ _)
    exact Keeps.refl _
  · exact Keeps.refl _

theorem perstAssert_keeps (h : Half) (s : State) :
    Keeps s (perstAssert h s) := by
  unfold perstAssert
  extract_lets +onlyGivenNames x1 x2
  clear_value x1
  clear_value x2
  extract_lets +onlyGivenNames x3
  have h4 : Keeps s x3 := by
    unfold x3
    refine Keeps.trans ?_ (Keeps.upd (s := s) rfl rfl rfl rfl)
    exact Keeps.refl _
  clear_value x3
  refine Keeps.ite ?_ ?_
  · exact h4
  · extract_lets +onlyGivenNames x5
    have h6 : Keeps s x5 := by
      unfold x5
      refine Keeps.ite ?_ ?_
      · refine Keeps.trans ?_ (State.linkLost_keeps _ _)
        refine Keeps.trans ?_ (State.surprise_keeps _ _)
        exact h4
      · exact h4
    clear_value x5
    refine Keeps.trans ?_ (State.assertSrc_keeps _ _ _)
    exact h6

theorem execPerstAssert_keeps (h : Half) (s : State) :
    OutKeeps s (execPerstAssert h s) := by
  unfold execPerstAssert
  refine OutKeeps.next ?_
  refine Keeps.trans ?_ (perstAssert_keeps _ _)
  exact Keeps.refl _

theorem hotReset_keeps (h : Half) (s : State) :
    Keeps s (hotReset h s) := by
  unfold hotReset
  refine Keeps.ite ?_ ?_
  · refine Keeps.trans ?_ (State.assertSrc_keeps _ _ _)
    exact Keeps.refl _
  · exact Keeps.refl _

theorem execHotReset_keeps (h : Half) (s : State) :
    OutKeeps s (execHotReset h s) := by
  unfold execHotReset
  refine OutKeeps.next ?_
  refine Keeps.trans ?_ (hotReset_keeps _ _)
  exact Keeps.refl _

theorem flr_keeps (h : Half) (s : State) :
    Keeps s (flr h s) := by
  unfold flr
  refine Keeps.ite ?_ ?_
  · refine Keeps.trans ?_ (State.assertSrc_keeps _ _ _)
    exact Keeps.refl _
  · exact Keeps.refl _

theorem execFlr_keeps (h : Half) (s : State) :
    OutKeeps s (execFlr h s) := by
  unfold execFlr
  refine OutKeeps.next ?_
  refine Keeps.trans ?_ (flr_keeps _ _)
  exact Keeps.refl _

theorem portResetRelease_keeps (h : Half) (s : State) :
    Keeps s (portResetRelease h s) := by
  unfold portResetRelease
  extract_lets +onlyGivenNames x1
  clear_value x1
  extract_lets +onlyGivenNames x2
  have h3 : Keeps s x2 := by
    unfold x2
    refine Keeps.trans ?_ (Keeps.upd (s := s) rfl rfl rfl rfl)
    exact Keeps.refl _
  clear_value x2
  refine Keeps.ite ?_ ?_
  · refine Keeps.trans ?_ (State.linkTrain_keeps _ _)
    refine Keeps.trans ?_ (State.releaseSrc_keeps _ _)
    exact h3
  · refine Keeps.trans ?_ (State.linkTrain_keeps _ _)
    exact h3

theorem execPortRelease_keeps (h : Half) (s : State) :
    OutKeeps s (execPortRelease h s) := by
  unfold execPortRelease
  refine OutKeeps.next ?_
  refine Keeps.trans ?_ (portResetRelease_keeps _ _)
  exact Keeps.refl _

theorem cablePresenceHigh_keeps (h : Half) (s : State) :
    Keeps s (cablePresenceHigh h s) := by
  unfold cablePresenceHigh
  extract_lets +onlyGivenNames x1
  clear_value x1
  extract_lets +onlyGivenNames x2
  have h3 : Keeps s x2 := by
    unfold x2
    refine Keeps.trans ?_ (Keeps.upd (s := s) rfl rfl rfl rfl)
    exact Keeps.refl _
  clear_value x2
  refine Keeps.ite ?_ ?_
  · refine Keeps.trans ?_ (State.linkLost_keeps _ _)
    refine Keeps.trans ?_ (State.surprise_keeps _ _)
    exact h3
  · exact h3

theorem execCablePresenceHigh_keeps (h : Half) (s : State) :
    OutKeeps s (execCablePresenceHigh h s) := by
  unfold execCablePresenceHigh
  refine OutKeeps.next ?_
  refine Keeps.trans ?_ (cablePresenceHigh_keeps _ _)
  exact Keeps.refl _

theorem linkDown_keeps (h : Half) (s : State) :
    Keeps s (linkDown h s) := by
  unfold linkDown
  refine Keeps.ite ?_ ?_
  · exact Keeps.refl _
  · refine Keeps.trans ?_ (State.linkLost_keeps _ _)
    extract_lets +onlyGivenNames x1
    clear_value x1
    refine Keeps.trans ?_ (Keeps.upd (s := s) rfl rfl rfl rfl)
    exact Keeps.refl _

theorem execLinkDown_keeps (h : Half) (s : State) :
    OutKeeps s (execLinkDown h s) := by
  unfold execLinkDown
  refine OutKeeps.next ?_
  refine Keeps.trans ?_ (linkDown_keeps _ _)
  exact Keeps.refl _

theorem linkDownTimeout_keeps (h : Half) (s : State) :
    Keeps s (linkDownTimeout h s) := by
  unfold linkDownTimeout
  refine Keeps.ite ?_ ?_
  · refine Keeps.trans ?_ (State.surprise_keeps _ _)
    extract_lets +onlyGivenNames x1
    clear_value x1
    refine Keeps.trans ?_ (Keeps.upd (s := s) rfl rfl rfl rfl)
    exact Keeps.refl _
  · exact Keeps.refl _

theorem execLinkDownTimeout_keeps (h : Half) (s : State) :
    OutKeeps s (execLinkDownTimeout h s) := by
  unfold execLinkDownTimeout
  refine OutKeeps.next ?_
  refine Keeps.trans ?_ (linkDownTimeout_keeps _ _)
  exact Keeps.refl _

theorem linkTrained_keeps (h : Half) (speed : Nat) (x8 : Bool) (flit : Bool) (cable : Bool) (s : State) :
    Keeps s (linkTrained h speed x8 flit cable s) := by
  unfold linkTrained
  extract_lets +onlyGivenNames x1
  clear_value x1
  refine Keeps.ite ?_ ?_
  · exact Keeps.refl _
  · extract_lets +onlyGivenNames x2 x3 x4 x5 x6 x7 x8
    clear_value x2
    have h9 : Keeps s x3 := by
      unfold x3
      refine Keeps.trans ?_ (State.putB_keeps _ _ _ _)
      exact Keeps.refl _
    clear_value x3
    clear_value x4
    clear_value x5
    clear_value x6
    have h10 : Keeps s x7 := by
      unfold x7
      refine Keeps.trans ?_ (State.setHif_keeps _ _ _)
      refine Keeps.trans ?_ (Keeps.upd (s := x3) rfl rfl rfl rfl)
      exact h9
    clear_value x7
    have h11 : Keeps s x8 := by
      unfold x8
      refine Keeps.trans ?_ (State.putB_keeps _ _ _ _)
      refine Keeps.trans ?_ (State.put_keeps _ _ _ _)
      refine Keeps.trans ?_ (State.put_keeps _ _ _ _)
      exact h10
    clear_value x8
    extract_lets +onlyGivenNames x12
    have h13 : Keeps s x12 := by
      unfold x12
      refine Keeps.trans ?_ (State.putB_keeps _ _ _ _)
      exact h11
    clear_value x12
    refine Keeps.ite ?_ ?_
    · exact h13
    · refine Keeps.trans ?_ (State.chimney_keeps _ _ _ _ _ _)
      refine Keeps.trans ?_ (State.flag_keeps _ _ _)
      exact h13

theorem execLinkTrained_keeps (h : Half) (speed : Nat) (x8 : Bool) (flit : Bool) (cable : Bool) (s : State) :
    OutKeeps s (execLinkTrained h speed x8 flit cable s) := by
  unfold execLinkTrained
  refine OutKeeps.next ?_
  refine Keeps.trans ?_ (linkTrained_keeps _ _ _ _ _ _)
  exact Keeps.refl _

theorem socketTrip_keeps (h : Half) (n : Nat) (s : State) :
    Keeps s (socketTrip h n s) := by
  unfold socketTrip
  extract_lets +onlyGivenNames x1
  clear_value x1
  refine Keeps.ite ?_ ?_
  · exact Keeps.refl _
  · extract_lets +onlyGivenNames x2 x3 x4
    clear_value x2
    clear_value x3
    have h5 : Keeps s x4 := by
      unfold x4
      refine Keeps.trans ?_ (Keeps.upd (s := s) rfl rfl rfl rfl)
      exact Keeps.refl _
    clear_value x4
    refine Keeps.ite ?_ ?_
    · refine Keeps.trans ?_ (State.chimney_keeps _ _ _ _ _ _)
      refine Keeps.trans ?_ (State.flag_keeps _ _ _)
      exact h5
    · exact h5

theorem execSocketTrip_keeps (h : Half) (n : Nat) (s : State) :
    OutKeeps s (execSocketTrip h n s) := by
  unfold execSocketTrip
  refine OutKeeps.next ?_
  refine Keeps.trans ?_ (socketTrip_keeps _ _ _)
  exact Keeps.refl _

theorem traceProbeChange_keeps (low : Bool) (s : State) :
    Keeps s (traceProbeChange low s) := by
  unfold traceProbeChange
  extract_lets +onlyGivenNames x1 x2
  clear_value x1
  have h3 : Keeps s x2 := by
    unfold x2
    refine Keeps.trans ?_ (Keeps.upd (s := s) rfl rfl rfl rfl)
    exact Keeps.refl _
  clear_value x2
  extract_lets +onlyGivenNames x4
  have h5 : ∀ v6 v7, Keeps v6 (x4 v6 v7) := by
    intro v6 v7
    unfold x4
    refine Keeps.ite ?_ ?_
    · refine Keeps.trans ?_ (State.probeShow_keeps _ _)
      refine Keeps.trans ?_ (State.clkFollow_keeps _ _ _)
      exact Keeps.refl _
    · exact Keeps.refl _
  clear_value x4
  refine Keeps.trans ?_ (h5 _ _)
  refine Keeps.trans ?_ (h5 _ _)
  exact h3

theorem execTraceProbeChange_keeps (low : Bool) (s : State) :
    OutKeeps s (execTraceProbeChange low s) := by
  unfold execTraceProbeChange
  refine OutKeeps.next ?_
  refine Keeps.trans ?_ (traceProbeChange_keeps _ _)
  exact Keeps.refl _

end Sys2Proof.Machine
end

