-- ==== Sys2Proof/Laws/KeepsPower.lean ====
section
/-! SUPPORT. What `Keeps` says of every operation of Machine/Power.lean. -/

namespace Sys2Proof.Machine

theorem State.domRefuse_keeps (s : State) (h : Half) (d : Nat) (why : Nat) :
    Keeps s (State.domRefuse s h d why) := by
  unfold State.domRefuse
  refine Keeps.trans ?_ (State.put_keeps _ _ _ _)
  refine Keeps.trans ?_ (State.put_keeps _ _ _ _)
  refine Keeps.trans ?_ (State.flag_keeps _ _ _)
  exact Keeps.refl _

theorem domainGate_keeps (h : Half) (d : Nat) (us : Nat) (s : State) :
    Keeps s (domainGate h d us s) := by
  unfold domainGate
  refine Keeps.ite ?_ ?_
  · exact Keeps.refl _
  · extract_lets +onlyGivenNames x1
    clear_value x1
    refine Keeps.ite ?_ ?_
    · refine Keeps.trans ?_ (State.domRefuse_keeps _ _ _ _)
      exact Keeps.refl _
    · refine Keeps.ite ?_ ?_
      · exact Keeps.refl _
      · refine Keeps.trans ?_ (State.setDom_keeps _ _ _ _)
        exact Keeps.refl _

theorem execDomainGate_keeps (h : Half) (d : Nat) (us : Nat) (s : State) :
    OutKeeps s (execDomainGate h d us s) := by
  unfold execDomainGate
  refine OutKeeps.next ?_
  refine Keeps.trans ?_ (domainGate_keeps _ _ _ _)
  exact Keeps.refl _

theorem State.domLose_keeps (s : State) (h : Half) (d : Nat) (st : Nat) :
    Keeps s (State.domLose s h d st) := by
  unfold State.domLose
  refine Keeps.ite ?_ ?_
  · refine Keeps.foldl ?_ ?_
    · exact Keeps.refl _
    · intro a1 b2
      extract_lets +onlyGivenNames x3 x4 x5 x6
      clear_value x3
      clear_value x4
      have h7 : Keeps a1 x5 := by
        unfold x5
        refine Keeps.trans ?_ (Keeps.updFree (s := a1) rfl rfl rfl (Nat.le_add_right _ _))
        exact Keeps.refl _
      clear_value x5
      clear_value x6
      refine Keeps.ite ?_ ?_
      · extract_lets +onlyGivenNames x8
        clear_value x8
        refine Keeps.trans ?_ (State.setRch_keeps _ _ _)
        refine Keeps.trans ?_ (State.clearRange_keeps _ _ _)
        exact h7
      · refine Keeps.trans ?_ (State.setRch_keeps _ _ _)
        exact h7
  · refine Keeps.ite ?_ ?_
    · refine Keeps.trans ?_ (State.hdaUnitsClear_keeps _ _)
      exact Keeps.refl _
    · refine Keeps.ite ?_ ?_
      · extract_lets +onlyGivenNames x9
        clear_value x9
        extract_lets +onlyGivenNames x10
        have h11 : Keeps s x10 := by
          unfold x10
          refine Keeps.trans ?_ (State.setResv_keeps _ _ _)
          exact Keeps.refl _
        clear_value x10
        refine Keeps.trans ?_ (State.clearRange_keeps _ _ _)
        refine Keeps.trans ?_ (Keeps.upd (s := x10) rfl rfl rfl rfl)
        exact h11
      · exact Keeps.refl _

theorem State.domDrop_keeps (s : State) (h : Half) (d : Nat) (st : Nat) :
    Keeps s (State.domDrop s h d st) := by
  unfold State.domDrop
  refine Keeps.trans ?_ (State.setDom_keeps _ _ _ _)
  refine Keeps.trans ?_ (State.domLose_keeps _ _ _ _)
  exact Keeps.refl _

theorem domainFloor_keeps (h : Half) (d : Nat) (us : Nat) (s : State) :
    Keeps s (domainFloor h d us s) := by
  unfold domainFloor
  refine Keeps.ite ?_ ?_
  · exact Keeps.refl _
  · split
    · rename_i y1 y2 y3 y4
      extract_lets +onlyGivenNames x5
      have h6 : Keeps s x5 := by
        unfold x5
        refine Keeps.ite ?_ ?_
        · refine Keeps.trans ?_ (State.domRefuse_keeps _ _ _ _)
          exact Keeps.refl _
        · exact Keeps.refl _
      clear_value x5
      refine Keeps.ite ?_ ?_
      · refine Keeps.trans ?_ (State.domDrop_keeps _ _ _ _)
        exact h6
      · exact h6

theorem execDomainFloor_keeps (h : Half) (d : Nat) (us : Nat) (s : State) :
    OutKeeps s (execDomainFloor h d us s) := by
  unfold execDomainFloor
  refine OutKeeps.next ?_
  refine Keeps.trans ?_ (domainFloor_keeps _ _ _ _)
  exact Keeps.refl _

theorem domainWake_keeps (h : Half) (d : Nat) (late : Bool) (s : State) :
    Keeps s (domainWake h d late s) := by
  unfold domainWake
  refine Keeps.ite ?_ ?_
  · exact Keeps.refl _
  · refine Keeps.ite ?_ ?_
    · extract_lets +onlyGivenNames x1 x2
      have h3 : Keeps s x1 := by
        unfold x1
        refine Keeps.trans ?_ (State.domDrop_keeps _ _ _ _)
        exact Keeps.refl _
      clear_value x1
      have h4 : Keeps s x2 := by
        unfold x2
        refine Keeps.trans ?_ (State.count_keeps _ _ _ _ _ _)
        refine Keeps.trans ?_ (State.flag_keeps _ _ _)
        exact h3
      clear_value x2
      refine Keeps.trans ?_ (State.demand_keeps _ _ _)
      exact h4
    · refine Keeps.trans ?_ (State.demand_keeps _ _ _)
      exact Keeps.refl _

theorem execDomainWake_keeps (h : Half) (d : Nat) (late : Bool) (s : State) :
    OutKeeps s (execDomainWake h d late s) := by
  unfold execDomainWake
  refine OutKeeps.next ?_
  refine Keeps.trans ?_ (domainWake_keeps _ _ _ _)
  exact Keeps.refl _

theorem domainWakeDone_keeps (h : Half) (d : Nat) (s : State) :
    Keeps s (domainWakeDone h d s) := by
  unfold domainWakeDone
  extract_lets +onlyGivenNames x1
  clear_value x1
  refine Keeps.ite ?_ ?_
  · exact Keeps.refl _
  · extract_lets +onlyGivenNames x2 x3 x4
    clear_value x2
    have h5 : Keeps s x3 := by
      unfold x3
      refine Keeps.trans ?_ (Keeps.upd (s := s) rfl rfl rfl rfl)
      exact Keeps.refl _
    clear_value x3
    have h6 : Keeps s x4 := by
      unfold x4
      refine Keeps.trans ?_ (State.setDom_keeps _ _ _ _)
      exact h5
    clear_value x4
    refine Keeps.ite ?_ ?_
    · refine Keeps.trans ?_ (State.portRelease_keeps _ _)
      exact h6
    · exact h6

theorem execDomainWakeDone_keeps (h : Half) (d : Nat) (s : State) :
    OutKeeps s (execDomainWakeDone h d s) := by
  unfold execDomainWakeDone
  refine OutKeeps.next ?_
  refine Keeps.trans ?_ (domainWakeDone_keeps _ _ _)
  exact Keeps.refl _

theorem State.policyWrite_keeps (s : State) (h : Half) (d : Nat) (w : Word) :
    Keeps s (State.policyWrite s h d w) := by
  unfold State.policyWrite
  refine Keeps.ite ?_ ?_
  · exact Keeps.refl _
  · extract_lets +onlyGivenNames x1 x2 x3 x4 x5 x6 x7
    clear_value x1
    clear_value x2
    clear_value x3
    have h8 : Keeps s x4 := by
      unfold x4
      refine Keeps.trans ?_ (Keeps.upd (s := s) rfl rfl rfl rfl)
      exact Keeps.refl _
    clear_value x4
    clear_value x5
    have h9 : Keeps s x6 := by
      unfold x6
      refine Keeps.trans ?_ (State.put_keeps _ _ _ _)
      refine Keeps.trans ?_ (State.put_keeps _ _ _ _)
      refine Keeps.trans ?_ (State.put_keeps _ _ _ _)
      exact h8
    clear_value x6
    have h10 : Keeps s x7 := by
      unfold x7
      refine Keeps.trans ?_ (State.put_keeps _ _ _ _)
      exact h9
    clear_value x7
    refine Keeps.ite ?_ ?_
    · refine Keeps.trans ?_ (State.demand_keeps _ _ _)
      exact h10
    · exact h10

theorem execPolicyWrite_keeps (h : Half) (d : Nat) (w : Word) (s : State) :
    OutKeeps s (execPolicyWrite h d w s) := by
  unfold execPolicyWrite
  refine OutKeeps.next ?_
  refine Keeps.trans ?_ (State.policyWrite_keeps _ _ _ _)
  exact Keeps.refl _

theorem railFault_keeps (h : Half) (rail : Nat) (s : State) :
    Keeps s (railFault h rail s) := by
  unfold railFault
  refine Keeps.ite ?_ ?_
  · exact Keeps.refl _
  · refine Keeps.trans ?_ (State.mantleMsg_keeps _ _ _ _ _ _)
    refine Keeps.trans ?_ (State.put_keeps _ _ _ _)
    refine Keeps.trans ?_ (State.flag_keeps _ _ _)
    exact Keeps.refl _

theorem execRailFault_keeps (h : Half) (rail : Nat) (s : State) :
    OutKeeps s (execRailFault h rail s) := by
  unfold execRailFault
  refine OutKeeps.next ?_
  refine Keeps.trans ?_ (railFault_keeps _ _ _)
  exact Keeps.refl _

theorem meterOver_keeps (h : Half) (mean : Nat) (s : State) :
    Keeps s (meterOver h mean s) := by
  unfold meterOver
  refine Keeps.ite ?_ ?_
  · exact Keeps.refl _
  · extract_lets +onlyGivenNames x1 x2
    clear_value x1
    have h3 : Keeps s x2 := by
      unfold x2
      refine Keeps.trans ?_ (State.put_keeps _ _ _ _)
      exact Keeps.refl _
    clear_value x2
    refine Keeps.ite ?_ ?_
    · refine Keeps.trans ?_ (State.chimney_keeps _ _ _ _ _ _)
      refine Keeps.trans ?_ (State.flag_keeps _ _ _)
      exact h3
    · exact h3

theorem execMeterOver_keeps (h : Half) (mean : Nat) (s : State) :
    OutKeeps s (execMeterOver h mean s) := by
  unfold execMeterOver
  refine OutKeeps.next ?_
  refine Keeps.trans ?_ (meterOver_keeps _ _ _)
  exact Keeps.refl _

theorem pllUnlock_keeps (h : Half) (c : Nat) (s : State) :
    Keeps s (pllUnlock h c s) := by
  unfold pllUnlock
  refine Keeps.ite ?_ ?_
  · exact Keeps.refl _
  · extract_lets +onlyGivenNames x1 x2 x3
    clear_value x1
    have h4 : Keeps s x2 := by
      unfold x2
      refine Keeps.trans ?_ (State.putMaskBit_keeps _ _ _ _ _)
      refine Keeps.trans ?_ (State.putMaskBit_keeps _ _ _ _ _)
      exact Keeps.refl _
    clear_value x2
    have h5 : Keeps s x3 := by
      unfold x3
      refine Keeps.trans ?_ (State.chimney_keeps _ _ _ _ _ _)
      refine Keeps.trans ?_ (State.count_keeps _ _ _ _ _ _)
      refine Keeps.trans ?_ (State.flag_keeps _ _ _)
      exact h4
    clear_value x3
    refine Keeps.ite ?_ ?_
    · refine Keeps.trans ?_ (State.mantleMsg_keeps _ _ _ _ _ _)
      exact h5
    · exact h5

theorem execPllUnlock_keeps (h : Half) (c : Nat) (s : State) :
    OutKeeps s (execPllUnlock h c s) := by
  unfold execPllUnlock
  refine OutKeeps.next ?_
  refine Keeps.trans ?_ (pllUnlock_keeps _ _ _)
  exact Keeps.refl _

theorem refFail_keeps (h : Half) (s : State) :
    Keeps s (refFail h s) := by
  unfold refFail
  refine Keeps.ite ?_ ?_
  · exact Keeps.refl _
  · extract_lets +onlyGivenNames x1 x2
    clear_value x1
    have h3 : Keeps s x2 := by
      unfold x2
      refine Keeps.trans ?_ (State.putMaskBit_keeps _ _ _ _ _)
      refine Keeps.trans ?_ (State.putMaskBit_keeps _ _ _ _ _)
      exact Keeps.refl _
    clear_value x2
    refine Keeps.trans ?_ (State.mantleMsg_keeps _ _ _ _ _ _)
    refine Keeps.trans ?_ (State.flag_keeps _ _ _)
    exact h3

theorem execRefFail_keeps (h : Half) (s : State) :
    OutKeeps s (execRefFail h s) := by
  unfold execRefFail
  refine OutKeeps.next ?_
  refine Keeps.trans ?_ (refFail_keeps _ _)
  exact Keeps.refl _

theorem motlinkStop_keeps (h : Half) (s : State) :
    Keeps s (motlinkStop h s) := by
  unfold motlinkStop
  extract_lets +onlyGivenNames x1
  have h2 : Keeps s x1 := by
    unfold x1
    refine Keeps.trans ?_ (State.putMaskBit_keeps _ _ _ _ _)
    exact Keeps.refl _
  clear_value x1
  refine Keeps.foldl ?_ ?_
  · exact h2
  · intro a3 b4
    extract_lets +onlyGivenNames x5 x6
    clear_value x5
    have h7 : Keeps a3 x6 := by
      unfold x6
      refine Keeps.trans ?_ (State.put_keeps _ _ _ _)
      exact Keeps.refl _
    clear_value x6
    refine Keeps.foldl ?_ ?_
    · exact h7
    · intro a8 b9
      refine Keeps.ite ?_ ?_
      · refine Keeps.trans ?_ (State.put_keeps _ _ _ _)
        exact Keeps.refl _
      · exact Keeps.refl _

theorem execMotlinkStop_keeps (h : Half) (s : State) :
    OutKeeps s (execMotlinkStop h s) := by
  unfold execMotlinkStop
  refine OutKeeps.next ?_
  refine Keeps.trans ?_ (motlinkStop_keeps _ _)
  exact Keeps.refl _

theorem pcieRefLost_keeps (h : Half) (s : State) :
    Keeps s (pcieRefLost h s) := by
  unfold pcieRefLost
  extract_lets +onlyGivenNames x1
  clear_value x1
  extract_lets +onlyGivenNames x2
  have h3 : Keeps s x2 := by
    unfold x2
    refine Keeps.trans ?_ (Keeps.upd (s := s) rfl rfl rfl rfl)
    exact Keeps.refl _
  clear_value x2
  refine Keeps.ite ?_ ?_
  · exact h3
  · refine Keeps.trans ?_ (linkDown_keeps _ _)
    refine Keeps.trans ?_ (State.put_keeps _ _ _ _)
    refine Keeps.trans ?_ (State.flag_keeps _ _ _)
    exact h3

theorem execPcieRefLost_keeps (h : Half) (s : State) :
    OutKeeps s (execPcieRefLost h s) := by
  unfold execPcieRefLost
  refine OutKeeps.next ?_
  refine Keeps.trans ?_ (pcieRefLost_keeps _ _)
  exact Keeps.refl _

theorem State.timeShow_keeps (s : State) (h : Half) :
    Keeps s (State.timeShow s h) := by
  unfold State.timeShow
  refine Keeps.ite ?_ ?_
  · exact Keeps.refl _
  · refine Keeps.trans ?_ (State.put_keeps _ _ _ _)
    refine Keeps.trans ?_ (State.put_keeps _ _ _ _)
    exact Keeps.refl _

theorem State.refPpm_keeps (s : State) (h : Half) :
    Keeps s (State.refPpm s h) := by
  unfold State.refPpm
  refine Keeps.ite ?_ ?_
  · exact Keeps.refl _
  · split
    · rename_i y1 y2 y3 y4
      have h5 : Keeps s y3 := by
        refine Keeps2.use ?_ y4
        refine Keeps2.trans ?_ (State.takeFree_keeps _)
        exact Keeps.refl _
      refine Keeps.trans ?_ (State.put_keeps _ _ _ _)
      exact h5

theorem glimTick_keeps (s : State) :
    Keeps s (glimTick s) := by
  unfold glimTick
  refine Keeps.ite ?_ ?_
  · exact Keeps.refl _
  · extract_lets +onlyGivenNames x1
    have h2 : Keeps s x1 := by
      unfold x1
      refine Keeps.trans ?_ (State.timeShow_keeps _ _)
      refine Keeps.trans ?_ (State.timeShow_keeps _ _)
      refine Keeps.trans ?_ (Keeps.upd (s := s) rfl rfl rfl rfl)
      exact Keeps.refl _
    clear_value x1
    refine Keeps.ite ?_ ?_
    · refine Keeps.trans ?_ (State.refPpm_keeps _ _)
      refine Keeps.trans ?_ (State.refPpm_keeps _ _)
      exact h2
    · exact h2

theorem execGlimTick_keeps (s : State) :
    OutKeeps s (execGlimTick s) := by
  unfold execGlimTick
  refine OutKeeps.next ?_
  refine Keeps.trans ?_ (glimTick_keeps _)
  exact Keeps.refl _

theorem glimFail_keeps (s : State) :
    Keeps s (glimFail s) := by
  unfold glimFail
  refine Keeps.ite ?_ ?_
  · exact Keeps.refl _
  · extract_lets +onlyGivenNames x1 x2
    have h3 : Keeps s x1 := by
      unfold x1
      refine Keeps.trans ?_ (State.mantleMsg_keeps _ _ _ _ _ _)
      refine Keeps.trans ?_ (State.event_keeps _ _ _ _ _)
      exact Keeps.refl _
    clear_value x1
    have h4 : ∀ v5 v6, Keeps v5 (x2 v5 v6) := by
      intro v5 v6
      unfold x2
      refine Keeps.ite ?_ ?_
      · refine Keeps.trans ?_ (State.flag_keeps _ _ _)
        exact Keeps.refl _
      · exact Keeps.refl _
    clear_value x2
    refine Keeps.trans ?_ (h4 _ _)
    refine Keeps.trans ?_ (h4 _ _)
    exact h3

theorem execGlimFail_keeps (s : State) :
    OutKeeps s (execGlimFail s) := by
  unfold execGlimFail
  refine OutKeeps.next ?_
  refine Keeps.trans ?_ (glimFail_keeps _)
  exact Keeps.refl _

end Sys2Proof.Machine
end

