-- ==== Sys2Proof/Laws/KeepsChimney.lean ====
section
/-! SUPPORT. What `Keeps` says of every operation of Machine/Chimney.lean. -/

namespace Sys2Proof.Machine

theorem State.recShow_keeps (s : State) (k : Nat) :
    Keeps s (State.recShow s k) := by
  unfold State.recShow
  extract_lets +onlyGivenNames x1 x2
  clear_value x1
  clear_value x2
  refine Keeps.ite ?_ ?_
  · refine Keeps.trans ?_ (State.put_keeps _ _ _ _)
    refine Keeps.trans ?_ (State.put_keeps _ _ _ _)
    exact Keeps.refl _
  · extract_lets +onlyGivenNames x3
    clear_value x3
    refine Keeps.trans ?_ (State.put_keeps _ _ _ _)
    refine Keeps.trans ?_ (State.put_keeps _ _ _ _)
    refine Keeps.trans ?_ (State.put_keeps _ _ _ _)
    exact Keeps.refl _

theorem State.setSrc_keeps (s : State) (k : Nat) (src : Nat) (x : SrcState) :
    Keeps s (State.setSrc s k src x) := by
  unfold State.setSrc
  extract_lets +onlyGivenNames x1
  clear_value x1
  refine Keeps.trans ?_ (State.setColl_keeps _ _ _)
  exact Keeps.refl _

theorem State.recStart_keeps (s : State) (k : Nat) (r : Nat) (m : BitVec 64) (severe : Bool) :
    Keeps s (State.recStart s k r m severe) := by
  unfold State.recStart
  extract_lets +onlyGivenNames x1 x2 x3 x4 x5 x6 x7
  clear_value x1
  have h8 : Keeps s x2 := by
    unfold x2
    refine Keeps.trans ?_ (State.clearRange_keeps _ _ _)
    exact Keeps.refl _
  clear_value x2
  have h9 : Keeps s x3 := by
    unfold x3
    refine Keeps.trans ?_ (State.set64_keeps _ _ _)
    exact h8
  clear_value x3
  have h10 : Keeps s x4 := by
    unfold x4
    refine Keeps.trans ?_ (State.put_keeps _ _ _ _)
    refine Keeps.trans ?_ (State.putB_keeps _ _ _ _)
    refine Keeps.trans ?_ (State.put_keeps _ _ _ _)
    exact h9
  clear_value x4
  have h11 : Keeps s x5 := by
    unfold x5
    refine Keeps.trans ?_ (State.put_keeps _ _ _ _)
    exact h10
  clear_value x5
  have h12 : Keeps s x6 := by
    unfold x6
    refine Keeps.trans ?_ (State.set64_keeps _ _ _)
    refine Keeps.trans ?_ (State.set64_keeps _ _ _)
    exact h11
  clear_value x6
  clear_value x7
  extract_lets +onlyGivenNames x13
  have h14 : Keeps s x13 := by
    unfold x13
    refine Keeps.trans ?_ (State.setSrc_keeps _ _ _ _)
    exact h12
  clear_value x13
  refine Keeps.trans ?_ (State.recShow_keeps _ _)
  refine Keeps.ite ?_ ?_
  · exact h14
  · refine Keeps.trans ?_ (State.put_keeps _ _ _ _)
    exact h14

theorem State.recMergeMsg_keeps (s : State) (k : Nat) (r : Nat) (m : BitVec 64) :
    Keeps s (State.recMergeMsg s k r m) := by
  unfold State.recMergeMsg
  extract_lets +onlyGivenNames x1 x2 x3 x4
  clear_value x1
  have h5 : Keeps s x2 := by
    unfold x2
    refine Keeps.trans ?_ (State.satAdd_keeps _ _ _ _)
    exact Keeps.refl _
  clear_value x2
  have h6 : Keeps s x3 := by
    unfold x3
    refine Keeps.trans ?_ (State.put_keeps _ _ _ _)
    exact h5
  clear_value x3
  have h7 : Keeps s x4 := by
    unfold x4
    refine Keeps.ite ?_ ?_
    · refine Keeps.trans ?_ (State.put_keeps _ _ _ _)
      exact h6
    · exact h6
  clear_value x4
  refine Keeps.trans ?_ (State.set64_keeps _ _ _)
  exact h7

theorem State.recClose_keeps (s : State) (k : Nat) (r : Nat) :
    Keeps s (State.recClose s k r) := by
  unfold State.recClose
  refine Keeps.ite ?_ ?_
  · extract_lets +onlyGivenNames x1 x2 x3
    clear_value x1
    clear_value x2
    have h4 : Keeps s x3 := by
      unfold x3
      refine Keeps.trans ?_ (State.put_keeps _ _ _ _)
      exact Keeps.refl _
    clear_value x3
    refine Keeps.trans ?_ (State.recShow_keeps _ _)
    extract_lets +onlyGivenNames x5
    clear_value x5
    refine Keeps.trans ?_ (State.setSrc_keeps _ _ _ _)
    exact h4
  · exact Keeps.refl _

theorem State.recMark_keeps (s : State) (k : Nat) (r : Option Nat) (acts : Nat) :
    Keeps s (State.recMark s k r acts) := by
  unfold State.recMark
  split
  · rename_i y1
    exact Keeps.refl _
  · rename_i y2 y3
    refine Keeps.trans ?_ (State.put_keeps _ _ _ _)
    exact Keeps.refl _

theorem State.recFlag_keeps (s : State) (k : Nat) (r : Option Nat) (f : Fld) :
    Keeps s (State.recFlag s k r f) := by
  unfold State.recFlag
  split
  · rename_i y1
    exact Keeps.refl _
  · rename_i y2 y3
    refine Keeps.trans ?_ (State.put_keeps _ _ _ _)
    exact Keeps.refl _

theorem State.chmActions_keeps (s : State) (h : Half) (m : BitVec 64) (acts : Nat) (severe : Bool) (merged : Bool)
    (opened : Bool) (r : Option Nat) :
    Keeps s (State.chmActions s h m acts severe merged opened r) := by
  unfold State.chmActions
  extract_lets +onlyGivenNames x1 x2 x3 x4 x5
  clear_value x1
  have h6 : Keeps s x2 := by
    unfold x2
    refine Keeps.ite ?_ ?_
    · refine Keeps.trans ?_ (State.event_keeps _ _ _ _ _)
      exact Keeps.refl _
    · exact Keeps.refl _
  clear_value x2
  have h7 : Keeps s x3 := by
    unfold x3
    refine Keeps.ite ?_ ?_
    · refine Keeps.trans ?_ (State.irq_keeps _ _)
      exact h6
    · exact h6
  clear_value x3
  clear_value x4
  have h8 : Keeps s x5 := by
    unfold x5
    refine Keeps.ite ?_ ?_
    · refine Keeps.trans ?_ (State.recovery_keeps _ _)
      exact h7
    · exact h7
  clear_value x5
  split
  · rename_i y9 y10 y11 y12
    extract_lets +onlyGivenNames x13 x14 x15 x16 x17 x18
    clear_value x13
    clear_value x14
    have h19 : Keeps s x15 := by
      unfold x15
      refine Keeps.trans ?_ (State.recMark_keeps _ _ _ _)
      exact h8
    clear_value x15
    have h20 : Keeps s x16 := by
      unfold x16
      refine Keeps.ite ?_ ?_
      · refine Keeps.trans ?_ (State.recFlag_keeps _ _ _ _)
        exact h19
      · exact h19
    clear_value x16
    have h21 : Keeps s x17 := by
      unfold x17
      refine Keeps.ite ?_ ?_
      · refine Keeps.trans ?_ (State.recFlag_keeps _ _ _ _)
        exact h20
      · exact h20
    clear_value x17
    have h22 : Keeps s x18 := by
      unfold x18
      refine Keeps.ite ?_ ?_
      · refine Keeps.trans ?_ (State.trace_keeps _ _ _ _ _)
        exact h21
      · exact h21
    clear_value x18
    split
    · rename_i y23 y24 y25 y26
      refine Keeps.ite ?_ ?_
      · refine Keeps1.fst ?_
        refine Keeps1.trans ?_ (State.chimneyRequest_keeps _ _ _ _)
        exact h22
      · exact h22
    · rename_i y27
      exact h22

theorem State.chmProcess_keeps (s : State) (h : Half) (m : BitVec 64) :
    Keeps s (State.chmProcess s h m) := by
  unfold State.chmProcess
  extract_lets +onlyGivenNames x1 x2 x3 x4 x5 x6
  clear_value x1
  clear_value x2
  clear_value x3
  clear_value x4
  clear_value x5
  clear_value x6
  split
  · rename_i y7 y8 y9 y10 y11
    extract_lets +onlyGivenNames x12 x13 x14 x15
    have h16 : Keeps s x12 := by
      unfold x12
      refine Keeps.trans ?_ (State.bump48_keeps _ _ _ _)
      refine Keeps.trans ?_ (State.setSrc_keeps _ _ _ _)
      exact Keeps.refl _
    clear_value x12
    have h17 : Keeps s x13 := by
      unfold x13
      refine Keeps.ite ?_ ?_
      · refine Keeps.trans ?_ (State.bump48_keeps _ _ _ _)
        exact h16
      · exact h16
    clear_value x13
    have h18 : Keeps s x14 := by
      unfold x14
      refine Keeps.ite ?_ ?_
      · refine Keeps.trans ?_ (State.flag_keeps _ _ _)
        exact h17
      · exact h17
    clear_value x14
    clear_value x15
    split
    · rename_i y19 y20 y21
      extract_lets +onlyGivenNames x22 x23 x24
      clear_value x22
      have h25 : Keeps s x23 := by
        unfold x23
        refine Keeps.trans ?_ (State.bump48_keeps _ _ _ _)
        refine Keeps.trans ?_ (State.recMergeMsg_keeps _ _ _ _)
        exact h18
      clear_value x23
      have h26 : Keeps s x24 := by
        unfold x24
        refine Keeps.ite ?_ ?_
        · refine Keeps.trans ?_ (State.put_keeps _ _ _ _)
          exact h25
        · exact h25
      clear_value x24
      refine Keeps.trans ?_ (State.chmActions_keeps _ _ _ _ _ _ _ _)
      exact h26
    · rename_i y27 y28
      refine Keeps.ite ?_ ?_
      · split
        · rename_i y29 y30 y31
          refine Keeps.trans ?_ (State.chmActions_keeps _ _ _ _ _ _ _ _)
          refine Keeps.trans ?_ (State.recStart_keeps _ _ _ _ _)
          exact h18
        · rename_i y32 y33
          refine Keeps.trans ?_ (State.chmActions_keeps _ _ _ _ _ _ _ _)
          refine Keeps.trans ?_ (State.bump48_keeps _ _ _ _)
          refine Keeps.trans ?_ (State.flag_keeps _ _ _)
          exact h18
      · refine Keeps.trans ?_ (State.chmActions_keeps _ _ _ _ _ _ _ _)
        exact h18

theorem chimneyMessage_keeps (h : Half) (s : State) :
    Keeps s (chimneyMessage h s) := by
  unfold chimneyMessage
  refine Keeps.ite ?_ ?_
  · exact Keeps.refl _
  · extract_lets +onlyGivenNames x1
    clear_value x1
    split
    · rename_i y2 y3
      exact Keeps.refl _
    · rename_i y4 y5 y6 y7
      extract_lets +onlyGivenNames x8
      have h9 : Keeps s x8 := by
        unfold x8
        refine Keeps.trans ?_ (State.setColl_keeps _ _ _)
        exact Keeps.refl _
      clear_value x8
      refine Keeps.ite ?_ ?_
      · refine Keeps.trans ?_ (State.chmProcess_keeps _ _ _)
        exact h9
      · refine Keeps.trans ?_ (State.bump48_keeps _ _ _ _)
        refine Keeps.trans ?_ (State.flag_keeps _ _ _)
        exact h9

theorem execChimneyMessage_keeps (h : Half) (s : State) :
    OutKeeps s (execChimneyMessage h s) := by
  unfold execChimneyMessage
  refine OutKeeps.next ?_
  refine Keeps.trans ?_ (chimneyMessage_keeps _ _)
  exact Keeps.refl _

theorem recordClose_keeps (h : Half) (index : Nat) (s : State) :
    Keeps s (recordClose h index s) := by
  unfold recordClose
  refine Keeps.ite ?_ ?_
  · refine Keeps.trans ?_ (State.recClose_keeps _ _ _)
    exact Keeps.refl _
  · exact Keeps.refl _

theorem execRecordClose_keeps (h : Half) (index : Nat) (s : State) :
    OutKeeps s (execRecordClose h index s) := by
  unfold execRecordClose
  refine OutKeeps.next ?_
  refine Keeps.trans ?_ (recordClose_keeps _ _ _)
  exact Keeps.refl _

theorem chmRaise_keeps (h : Half) (hintHi : Nat) (s : State) :
    Keeps s (chmRaise h hintHi s) := by
  unfold chmRaise
  refine Keeps.ite ?_ ?_
  · extract_lets +onlyGivenNames x1
    clear_value x1
    refine Keeps.trans ?_ (State.chimney_keeps _ _ _ _ _ _)
    exact Keeps.refl _
  · exact Keeps.refl _

theorem execChmRaise_keeps (h : Half) (hintHi : Nat) (s : State) :
    OutKeeps s (execChmRaise h hintHi s) := by
  unfold execChmRaise
  refine OutKeeps.next ?_
  refine Keeps.trans ?_ (chmRaise_keeps _ _ _)
  exact Keeps.refl _

theorem State.mantleActions_keeps (s : State) (m : BitVec 64) (acts : Nat) (r : Option Nat) :
    Keeps s (State.mantleActions s m acts r) := by
  unfold State.mantleActions
  extract_lets +onlyGivenNames x1 x2 x3
  clear_value x1
  have h4 : Keeps s x2 := by
    unfold x2
    refine Keeps.trans ?_ (State.recMark_keeps _ _ _ _)
    exact Keeps.refl _
  clear_value x2
  clear_value x3
  extract_lets +onlyGivenNames x5
  have h6 : Keeps s x5 := by
    unfold x5
    refine Keeps.ite ?_ ?_
    · refine Keeps.trans ?_ (State.setColl_keeps _ _ _)
      exact h4
    · exact h4
  clear_value x5
  refine Keeps.ite ?_ ?_
  · refine Keeps.ite ?_ ?_
    · refine Keeps.trans ?_ (State.withdrawHalf_keeps _ _ _)
      refine Keeps.trans ?_ (State.withdrawHalf_keeps _ _ _)
      exact h6
    · refine Keeps.trans ?_ (State.withdrawHalf_keeps _ _ _)
      exact h6
  · exact h6

theorem State.mantleProcess_keeps (s : State) (m : BitVec 64) :
    Keeps s (State.mantleProcess s m) := by
  unfold State.mantleProcess
  extract_lets +onlyGivenNames x1 x2 x3 x4
  clear_value x1
  clear_value x2
  clear_value x3
  clear_value x4
  split
  · rename_i y5 y6 y7 y8 y9
    extract_lets +onlyGivenNames x10 x11 x12 x13
    have h14 : Keeps s x10 := by
      unfold x10
      refine Keeps.trans ?_ (State.satAdd_keeps _ _ _ _)
      refine Keeps.trans ?_ (State.setSrc_keeps _ _ _ _)
      exact Keeps.refl _
    clear_value x10
    clear_value x11
    have h15 : Keeps s x12 := by
      unfold x12
      refine Keeps.trans ?_ (State.setColl_keeps _ _ _)
      exact h14
    clear_value x12
    clear_value x13
    split
    · rename_i y16 y17 y18
      extract_lets +onlyGivenNames x19 x20
      clear_value x19
      have h21 : Keeps s x20 := by
        unfold x20
        refine Keeps.trans ?_ (State.recMergeMsg_keeps _ _ _ _)
        exact h15
      clear_value x20
      refine Keeps.ite ?_ ?_
      · refine Keeps.trans ?_ (State.mantleActions_keeps _ _ _ _)
        refine Keeps.trans ?_ (State.put_keeps _ _ _ _)
        exact h21
      · exact h21
    · rename_i y22 y23
      refine Keeps.ite ?_ ?_
      · split
        · rename_i y24 y25 y26
          refine Keeps.trans ?_ (State.mantleActions_keeps _ _ _ _)
          refine Keeps.trans ?_ (State.recStart_keeps _ _ _ _ _)
          exact h15
        · rename_i y27 y28
          refine Keeps.trans ?_ (State.mantleActions_keeps _ _ _ _)
          refine Keeps.trans ?_ (State.satAdd_keeps _ _ _ _)
          exact h15
      · refine Keeps.trans ?_ (State.mantleActions_keeps _ _ _ _)
        exact h15

theorem mantleMessage_keeps (s : State) :
    Keeps s (mantleMessage s) := by
  unfold mantleMessage
  refine Keeps.ite ?_ ?_
  · exact Keeps.refl _
  · extract_lets +onlyGivenNames x1
    clear_value x1
    split
    · rename_i y2 y3
      exact Keeps.refl _
    · rename_i y4 y5 y6 y7
      extract_lets +onlyGivenNames x8
      have h9 : Keeps s x8 := by
        unfold x8
        refine Keeps.trans ?_ (State.setColl_keeps _ _ _)
        exact Keeps.refl _
      clear_value x8
      refine Keeps.ite ?_ ?_
      · refine Keeps.trans ?_ (State.mantleProcess_keeps _ _)
        exact h9
      · exact h9

theorem execMantleMessage_keeps (s : State) :
    OutKeeps s (execMantleMessage s) := by
  unfold execMantleMessage
  refine OutKeeps.next ?_
  refine Keeps.trans ?_ (mantleMessage_keeps _)
  exact Keeps.refl _

theorem mantleRecordClose_keeps (src : Nat) (s : State) :
    Keeps s (mantleRecordClose src s) := by
  unfold mantleRecordClose
  extract_lets +onlyGivenNames x1 x2
  have h3 : Keeps s x1 := by
    unfold x1
    split
    · rename_i y4 y5 y6
      extract_lets +onlyGivenNames x7
      clear_value x7
      refine Keeps.ite ?_ ?_
      · refine Keeps.trans ?_ (State.recClose_keeps _ _ _)
        exact Keeps.refl _
      · exact Keeps.refl _
    · rename_i y8 y9
      exact Keeps.refl _
  clear_value x1
  clear_value x2
  refine Keeps.trans ?_ (State.setColl_keeps _ _ _)
  exact h3

theorem execMantleRecordClose_keeps (src : Nat) (s : State) :
    OutKeeps s (execMantleRecordClose src s) := by
  unfold execMantleRecordClose
  refine OutKeeps.next ?_
  refine Keeps.trans ?_ (mantleRecordClose_keeps _ _)
  exact Keeps.refl _

theorem State.evtPackets_keeps (s : State) (e : EvRec) (folded : Bool) :
    Keeps s (State.evtPackets s e folded) := by
  unfold State.evtPackets
  extract_lets +onlyGivenNames x1
  have h2 : ∀ v3 v4, Keeps v3 (x1 v3 v4) := by
    intro v3 v4
    unfold x1
    refine Keeps.ite ?_ ?_
    · refine Keeps.trans ?_ (State.trace_keeps _ _ _ _ _)
      exact Keeps.refl _
    · exact Keeps.refl _
  clear_value x1
  refine Keeps.trans ?_ (h2 _ _)
  refine Keeps.trans ?_ (h2 _ _)
  exact Keeps.refl _

theorem eventRecordWrite_keeps (s : State) :
    Keeps s (eventRecordWrite s) := by
  unfold eventRecordWrite
  refine Keeps.ite ?_ ?_
  · exact Keeps.refl _
  · split
    · rename_i y1 y2
      exact Keeps.refl _
    · rename_i y3 y4 y5 y6
      extract_lets +onlyGivenNames x7
      have h8 : Keeps s x7 := by
        unfold x7
        refine Keeps.trans ?_ (Keeps.updQ (s := s) rfl rfl (by simp [*]) rfl)
        exact Keeps.refl _
      clear_value x7
      refine Keeps.ite ?_ ?_
      · extract_lets +onlyGivenNames x9 x10
        clear_value x9
        have h11 : Keeps s x10 := by
          unfold x10
          refine Keeps.trans ?_ (State.setWord_keeps _ _ _)
          refine Keeps.trans ?_ (State.satAdd_keeps _ _ _ _)
          exact h8
        clear_value x10
        refine Keeps.trans ?_ (State.evtPackets_keeps _ _ _)
        refine Keeps.trans ?_ (State.satAdd_keeps _ _ _ _)
        exact h11
      · extract_lets +onlyGivenNames x12 x13 x14 x15 x16 x17 x18 x19 x20 x21 x22 x23 x24 x25
        clear_value x12
        clear_value x13
        clear_value x14
        clear_value x15
        clear_value x16
        clear_value x17
        clear_value x18
        have h26 : Keeps s x19 := by
          unfold x19
          refine Keeps.foldl ?_ ?_
          · exact h8
          · intro a27 b28
            refine Keeps.trans ?_ (State.setWord_keeps _ _ _)
            exact Keeps.refl _
        clear_value x19
        clear_value x20
        clear_value x21
        have h29 : Keeps s x22 := by
          unfold x22
          refine Keeps.trans ?_ (State.put_keeps _ _ _ _)
          exact h26
        clear_value x22
        have h30 : Keeps s x23 := by
          unfold x23
          refine Keeps.trans ?_ (State.putB_keeps _ _ _ _)
          refine Keeps.trans ?_ (State.put_keeps _ _ _ _)
          exact h29
        clear_value x23
        have h31 : Keeps s x24 := by
          unfold x24
          refine Keeps.trans ?_ (State.put_keeps _ _ _ _)
          exact h30
        clear_value x24
        have h32 : Keeps s x25 := by
          unfold x25
          refine Keeps.ite ?_ ?_
          · refine Keeps.trans ?_ (State.put_keeps _ _ _ _)
            refine Keeps.trans ?_ (State.satAdd_keeps _ _ _ _)
            refine Keeps.trans ?_ (State.put_keeps _ _ _ _)
            exact h31
          · exact h31
        clear_value x25
        refine Keeps.trans ?_ (State.evtPackets_keeps _ _ _)
        exact h32

theorem execEventRecordWrite_keeps (s : State) :
    OutKeeps s (execEventRecordWrite s) := by
  unfold execEventRecordWrite
  refine OutKeeps.next ?_
  refine Keeps.trans ?_ (eventRecordWrite_keeps _)
  exact Keeps.refl _

theorem traceTimePacket_keeps (h : Half) (s : State) :
    Keeps s (traceTimePacket h s) := by
  unfold traceTimePacket
  refine Keeps.ite ?_ ?_
  · split
    · rename_i y1 y2 y3
      refine Keeps.trans ?_ (State.trace_keeps _ _ _ _ _)
      exact Keeps.refl _
    · rename_i y4 y5
      exact Keeps.refl _
  · exact Keeps.refl _

theorem execTraceTimePacket_keeps (h : Half) (s : State) :
    OutKeeps s (execTraceTimePacket h s) := by
  unfold execTraceTimePacket
  refine OutKeeps.next ?_
  refine Keeps.trans ?_ (traceTimePacket_keeps _ _)
  exact Keeps.refl _

theorem State.tracePop_keeps (s : State) (h : Half) (k : Nat) :
    Keeps s (State.tracePop s h k) := by
  unfold State.tracePop
  extract_lets +onlyGivenNames x1
  clear_value x1
  split
  · rename_i y2 y3
    exact Keeps.refl _
  · rename_i y4 y5 y6 y7
    refine Keeps.trans ?_ (Keeps.upd (s := s) rfl rfl rfl rfl)
    exact Keeps.refl _

theorem tracePacketSend_keeps (h : Half) (s : State) :
    Keeps s (tracePacketSend h s) := by
  unfold tracePacketSend
  refine Keeps.ite ?_ ?_
  · exact Keeps.refl _
  · extract_lets +onlyGivenNames x1 x2 x3
    clear_value x1
    clear_value x2
    clear_value x3
    split
    · rename_i y4 y5 y6 y7 y8
      refine Keeps.trans ?_ (State.tracePop_keeps _ _ _)
      exact Keeps.refl _
    · rename_i y9 y10 y11 y12 y13 y14
      refine Keeps.trans ?_ (State.tracePop_keeps _ _ _)
      exact Keeps.refl _
    · rename_i y15 y16 y17 y18 y19 y20 y21
      refine Keeps.trans ?_ (State.tracePop_keeps _ _ _)
      exact Keeps.refl _
    · rename_i y22 y23 y24 y25 y26 y27
      split
      · rename_i y28 y29 y30
        split
        · rename_i y31 y32 y33 y34
          have h35 : Keeps s y33 := by
            refine Keeps2.use ?_ y34
            refine Keeps2.trans ?_ (State.takeFree_keeps _)
            exact Keeps.refl _
          extract_lets +onlyGivenNames x36 x37
          clear_value x36
          clear_value x37
          refine Keeps.trans ?_ (Keeps.upd (s := y33) rfl rfl rfl rfl)
          exact h35
      · rename_i y38 y39
        extract_lets +onlyGivenNames x40 x41
        clear_value x40
        clear_value x41
        split
        · rename_i y42 y43
          extract_lets +onlyGivenNames x44
          have h45 : Keeps s x44 := by
            unfold x44
            refine Keeps.trans ?_ (State.tracePop_keeps _ _ _)
            exact Keeps.refl _
          clear_value x44
          refine Keeps.trans ?_ (Keeps.upd (s := x44) rfl rfl rfl rfl)
          exact h45
        · rename_i y46
          refine Keeps.trans ?_ (Keeps.upd (s := s) rfl rfl rfl rfl)
          exact Keeps.refl _

theorem execTracePacketSend_keeps (h : Half) (s : State) :
    OutKeeps s (execTracePacketSend h s) := by
  unfold execTracePacketSend
  refine OutKeeps.next ?_
  refine Keeps.trans ?_ (tracePacketSend_keeps _ _)
  exact Keeps.refl _

theorem deskewBlock_keeps (h : Half) (s : State) :
    Keeps s (deskewBlock h s) := by
  unfold deskewBlock
  refine Keeps.ite ?_ ?_
  · refine Keeps.trans ?_ (Keeps.upd (s := s) rfl rfl rfl rfl)
    exact Keeps.refl _
  · exact Keeps.refl _

theorem execDeskewBlock_keeps (h : Half) (s : State) :
    OutKeeps s (execDeskewBlock h s) := by
  unfold execDeskewBlock
  refine OutKeeps.next ?_
  refine Keeps.trans ?_ (deskewBlock_keeps _ _)
  exact Keeps.refl _

end Sys2Proof.Machine
end

