-- ==== Sys2Proof/Laws/KeepsRegAccess.lean ====
section
/-! SUPPORT. What `Keeps` says of every operation of Machine/RegAccess.lean. -/

namespace Sys2Proof.Machine

theorem State.accEvent_keeps (s : State) (t : Half) (f : Fld) (remote : Bool) (write : Bool) (off : Nat) :
    Keeps s (State.accEvent s t f remote write off) := by
  unfold State.accEvent
  refine Keeps.ite ?_ ?_
  · exact Keeps.refl _
  · extract_lets +onlyGivenNames x1 x2 x3 x4
    clear_value x1
    clear_value x2
    have h5 : Keeps s x3 := by
      unfold x3
      refine Keeps.ite ?_ ?_
      · refine Keeps.trans ?_ (State.put_keeps _ _ _ _)
        refine Keeps.trans ?_ (State.putB_keeps _ _ _ _)
        refine Keeps.trans ?_ (State.putB_keeps _ _ _ _)
        exact Keeps.refl _
      · exact Keeps.refl _
    clear_value x3
    have h6 : Keeps s x4 := by
      unfold x4
      refine Keeps.ite ?_ ?_
      · refine Keeps.trans ?_ (State.flag_keeps _ _ _)
        exact h5
      · exact h5
    clear_value x4
    refine Keeps.trans ?_ (State.count_keeps _ _ _ _ _ _)
    refine Keeps.trans ?_ (State.flag_keeps _ _ _)
    exact h6

theorem State.liveWord_keeps (s : State) (l : Loc) (a : Nat) :
    Keeps2 s (State.liveWord s l a) := by
  unfold State.liveWord
  split
  · rename_i y1 y2 y3
    split
    · rename_i y4 y5 y6 y7
      have h8 : Keeps s y6 := by
        refine Keeps2.use ?_ y7
        refine Keeps2.trans ?_ (State.takeFree_keeps _)
        exact Keeps.refl _
      refine Keeps2.mk ?_
      exact h8
  · rename_i y9 y10
    split
    · rename_i y11 y12 y13
      refine Keeps2.mk ?_
      exact Keeps.refl _
    · rename_i y14 y15
      refine Keeps2.mk ?_
      exact Keeps.refl _

theorem State.readWord_keeps (s : State) (own : Half) (off : Nat) :
    Keeps2 s (State.readWord s own off) := by
  unfold State.readWord
  extract_lets +onlyGivenNames x1 x2
  clear_value x1
  have h3 : Keeps s x2 := by
    unfold x2
    refine Keeps.ite ?_ ?_
    · refine Keeps.trans ?_ (State.demand_keeps _ _ _)
      exact Keeps.refl _
    · exact Keeps.refl _
  clear_value x2
  split
  · rename_i y4 y5 y6 y7
    refine Keeps2.mk ?_
    refine Keeps.trans ?_ (State.accEvent_keeps _ _ _ _ _ _)
    exact h3
  · rename_i y8 y9
    refine Keeps2.mk ?_
    exact h3
  · rename_i y10 y11 y12 y13
    refine Keeps2.trans ?_ (State.liveWord_keeps _ _ _)
    exact h3
  · rename_i y14 y15 y16 y17 y18
    split
    · rename_i y19 y20 y21 y22
      have h23 : Keeps s y21 := by
        refine Keeps2.use ?_ y22
        refine Keeps2.trans ?_ (State.liveWord_keeps _ _ _)
        exact h3
      extract_lets +onlyGivenNames x24
      clear_value x24
      refine Keeps2.mk ?_
      refine Keeps.ite ?_ ?_
      · exact h23
      · refine Keeps.trans ?_ (State.setWord_keeps _ _ _)
        exact h23

theorem State.readWords_keeps (s : State) (own : Half) (off n : Nat) : Keeps2 s (s.readWords own off n) := by
  induction n generalizing s off with
  | zero => exact Keeps.refl s
  | succ n ih => exact Keeps.trans (State.readWord_keeps s own off) (ih _ _)

theorem State.mantleReads_keeps (s : State) (h : Half) (off n : Nat) : Keeps2 s (s.mantleReads h off n) := by
  induction n generalizing s off with
  | zero => exact Keeps.refl s
  | succ n ih =>
    unfold State.mantleReads
    dsimp only
    split
    · exact ih s _
    · exact Keeps.trans (State.readWord_keeps s _ _) (ih _ _)

theorem readClear_keeps (who : Accessor) (off : Nat) (n : Nat) (s : State) :
    Keeps s (readClear who off n s) := by
  unfold readClear
  extract_lets +onlyGivenNames x1
  clear_value x1
  refine Keeps.ite ?_ ?_
  · refine Keeps.ite ?_ ?_
    · exact Keeps.refl _
    · split
      · rename_i y2 y3 y4 y5
        have h6 : Keeps s y4 := by
          refine Keeps2.use ?_ y5
          refine Keeps2.trans ?_ (State.mantleReads_keeps _ _ _ _)
          exact Keeps.refl _
        refine Keeps.trans ?_ (Keeps.upd (s := y4) rfl rfl rfl rfl)
        exact h6
  · refine Keeps.ite ?_ ?_
    · exact Keeps.refl _
    · split
      · rename_i y7 y8 y9 y10
        have h11 : Keeps s y9 := by
          refine Keeps2.use ?_ y10
          refine Keeps2.trans ?_ (State.readWords_keeps _ _ _ _)
          exact Keeps.refl _
        refine Keeps.trans ?_ (Keeps.upd (s := y9) rfl rfl rfl rfl)
        exact h11

theorem execReadClear_keeps (who : Accessor) (off : Nat) (n : Nat) (s : State) :
    OutKeeps s (execReadClear who off n s) := by
  unfold execReadClear
  refine OutKeeps.next ?_
  refine Keeps.trans ?_ (readClear_keeps _ _ _ _)
  exact Keeps.refl _

theorem snapshot_keeps (h : Half) (s : State) :
    Keeps s (snapshot h s) := by
  unfold snapshot
  refine Keeps.ite ?_ ?_
  · exact Keeps.refl _
  · extract_lets +onlyGivenNames x1 x2 x3 x4 x5 x6
    clear_value x1
    clear_value x2
    have h7 : Keeps s x3 := by
      unfold x3
      refine Keeps.trans ?_ (State.clearRange_keeps _ _ _)
      exact Keeps.refl _
    clear_value x3
    have h8 : Keeps s x4 := by
      unfold x4
      refine Keeps.foldl ?_ ?_
      · exact h7
      · intro a9 b10
        refine Keeps.trans ?_ (State.setWord_keeps _ _ _)
        exact Keeps.refl _
    clear_value x4
    clear_value x5
    have h11 : Keeps s x6 := by
      unfold x6
      refine Keeps.trans ?_ (State.put_keeps _ _ _ _)
      exact h8
    clear_value x6
    refine Keeps.trans ?_ (State.put_keeps _ _ _ _)
    refine Keeps.trans ?_ (State.put_keeps _ _ _ _)
    exact h11

theorem execSnapshot_keeps (h : Half) (s : State) :
    OutKeeps s (execSnapshot h s) := by
  unfold execSnapshot
  refine OutKeeps.next ?_
  refine Keeps.trans ?_ (snapshot_keeps _ _)
  exact Keeps.refl _

theorem State.plainWrite_keeps (s : State) (a : Nat) (r : RegSpec) (v : Word) :
    Keeps s (State.plainWrite s a r v) := by
  unfold State.plainWrite
  refine Keeps.trans ?_ (State.setWord_keeps _ _ _)
  exact Keeps.refl _

theorem State.maskWrite_keeps (s : State) (a : Nat) (mask : Nat) (v : Word) :
    Keeps s (State.maskWrite s a mask v) := by
  unfold State.maskWrite
  extract_lets +onlyGivenNames x1
  clear_value x1
  refine Keeps.trans ?_ (State.setWord_keeps _ _ _)
  exact Keeps.refl _

theorem State.ringWrite_keeps (s : State) (h : Half) (cq : Bool) (q : Nat) (j : Nat) (v : Word) :
    Keeps s (State.ringWrite s h cq q j v) := by
  unfold State.ringWrite
  extract_lets +onlyGivenNames x1 x2
  clear_value x1
  clear_value x2
  refine Keeps.ite ?_ ?_
  · extract_lets +onlyGivenNames x3
    clear_value x3
    refine Keeps.ite ?_ ?_
    · exact Keeps.refl _
    · refine Keeps.trans ?_ (State.ringChanged_keeps _ _ _ _ _ _)
      exact Keeps.refl _
  · refine Keeps.ite ?_ ?_
    · refine Keeps.trans ?_ (State.maskWrite_keeps _ _ _ _)
      exact Keeps.refl _
    · extract_lets +onlyGivenNames x4 x5
      clear_value x4
      clear_value x5
      refine Keeps.ite ?_ ?_
      · extract_lets +onlyGivenNames x6
        have h7 : Keeps s x6 := by
          unfold x6
          refine Keeps.ite ?_ ?_
          · exact Keeps.refl _
          · refine Keeps.trans ?_ (State.ringChanged_keeps _ _ _ _ _ _)
            exact Keeps.refl _
        clear_value x6
        refine Keeps.trans ?_ (State.maskWrite_keeps _ _ _ _)
        exact h7
      · extract_lets +onlyGivenNames x8 x9
        have h10 : Keeps s x8 := by
          unfold x8
          refine Keeps.ite ?_ ?_
          · refine Keeps.trans ?_ (State.ringDisable_keeps _ _ _ _)
            exact Keeps.refl _
          · exact Keeps.refl _
        clear_value x8
        have h11 : Keeps s x9 := by
          unfold x9
          refine Keeps.trans ?_ (State.maskWrite_keeps _ _ _ _)
          exact h10
        clear_value x9
        refine Keeps.ite ?_ ?_
        · refine Keeps.ite ?_ ?_
          · refine Keeps.trans ?_ (State.cqEnable_keeps _ _ _)
            exact h11
          · refine Keeps.trans ?_ (State.sqEnable_keeps _ _ _)
            exact h11
        · exact h11

theorem State.msixWrite_keeps (s : State) (h : Half) (v : Nat) (j : Nat) (w : Word) :
    Keeps s (State.msixWrite s h v j w) := by
  unfold State.msixWrite
  extract_lets +onlyGivenNames x1 x2
  have h3 : Keeps s x1 := by
    unfold x1
    refine Keeps.trans ?_ (State.maskWrite_keeps _ _ _ _)
    exact Keeps.refl _
  clear_value x1
  clear_value x2
  refine Keeps.ite ?_ ?_
  · refine Keeps.trans ?_ (State.msix_keeps _ _ _)
    refine Keeps.trans ?_ (State.setWord_keeps _ _ _)
    exact h3
  · exact h3

theorem State.arrayWrite_keeps (s : State) (h : Half) (l : Loc) (a : Nat) (v : Word) :
    KeepsO s (State.arrayWrite s h l a v) := by
  unfold State.arrayWrite
  extract_lets +onlyGivenNames x1
  clear_value x1
  split
  · rename_i y2 y3 y4 y5
    refine KeepsO.some ?_
    refine Keeps.trans ?_ (State.ringWrite_keeps _ _ _ _ _ _)
    exact Keeps.refl _
  · rename_i y6 y7 y8 y9
    refine KeepsO.some ?_
    refine Keeps.trans ?_ (State.ringWrite_keeps _ _ _ _ _ _)
    exact Keeps.refl _
  · rename_i y10 y11 y12 y13
    refine KeepsO.some ?_
    refine Keeps.trans ?_ (State.msixWrite_keeps _ _ _ _ _)
    exact Keeps.refl _
  · rename_i y14 y15 y16 y17
    refine KeepsO.some ?_
    refine Keeps.trans ?_ (State.msixWrite_keeps _ _ _ _ _)
    exact Keeps.refl _
  · rename_i y18 y19 y20 y21
    extract_lets +onlyGivenNames x22
    clear_value x22
    refine KeepsO.some ?_
    refine Keeps.ite ?_ ?_
    · refine Keeps.trans ?_ (State.maskWrite_keeps _ _ _ _)
      exact Keeps.refl _
    · exact Keeps.refl _
  · rename_i y23 y24 y25
    refine KeepsO.ite ?_ ?_
    · exact KeepsO.none
    · refine KeepsO.ite ?_ ?_
      · refine KeepsO.ite ?_ ?_
        · refine KeepsO.some ?_
          refine Keeps.trans ?_ (State.maskWrite_keeps _ _ _ _)
          exact Keeps.refl _
        · exact KeepsO.none
      · refine KeepsO.ite ?_ ?_
        · refine KeepsO.some ?_
          refine Keeps.trans ?_ (State.setWord_keeps _ _ _)
          exact Keeps.refl _
        · exact KeepsO.none
  · rename_i y26 y27 y28 y29 y30 y31 y32 y33
    exact KeepsO.none

theorem State.mediaWrite_keeps (s : State) (h : Half) (l : Loc) (a : Nat) (r : RegSpec) (v : Word) :
    KeepsO s (State.mediaWrite s h l a r v) := by
  unfold State.mediaWrite
  extract_lets +onlyGivenNames x1 x2
  clear_value x1
  clear_value x2
  split
  · rename_i y3 y4 y5 y6
    extract_lets +onlyGivenNames x7
    have h8 : Keeps s x7 := by
      unfold x7
      refine Keeps.trans ?_ (portModeWrite_keeps _ _ _ _)
      exact Keeps.refl _
    clear_value x7
    refine KeepsO.some ?_
    refine Keeps.trans ?_ (State.maskWrite_keeps _ _ _ _)
    exact h8
  · rename_i y9 y10 y11 y12
    refine KeepsO.some ?_
    refine Keeps.trans ?_ (pago_keeps _ _ _ _ _)
    exact Keeps.refl _
  · rename_i y13 y14 y15 y16
    extract_lets +onlyGivenNames x17 x18 x19 x20
    clear_value x17
    have h21 : Keeps s x18 := by
      unfold x18
      refine Keeps.ite ?_ ?_
      · refine Keeps.trans ?_ (channelOff_keeps _ _ _)
        exact Keeps.refl _
      · exact Keeps.refl _
    clear_value x18
    have h22 : Keeps s x19 := by
      unfold x19
      refine Keeps.ite ?_ ?_
      · exact h21
      · refine Keeps.trans ?_ (channelCfg_keeps _ _ _ _)
        exact h21
    clear_value x19
    have h23 : Keeps s x20 := by
      unfold x20
      refine Keeps.ite ?_ ?_
      · refine Keeps.trans ?_ (State.realignOff_keeps _ _)
        exact h22
      · exact h22
    clear_value x20
    refine KeepsO.some ?_
    refine Keeps.trans ?_ (State.plainWrite_keeps _ _ _ _)
    exact h23
  · rename_i y24 y25 y26 y27
    refine KeepsO.some ?_
    refine Keeps.trans ?_ (State.plainWrite_keeps _ _ _ _)
    refine Keeps.trans ?_ (freeze_keeps _ _ _ _)
    exact Keeps.refl _
  · rename_i y28 y29 y30 y31
    extract_lets +onlyGivenNames x32
    have h33 : Keeps s x32 := by
      unfold x32
      refine Keeps.ite ?_ ?_
      · refine Keeps.trans ?_ (formatOff_keeps _ _ _)
        exact Keeps.refl _
      · exact Keeps.refl _
    clear_value x32
    refine KeepsO.some ?_
    refine Keeps.trans ?_ (State.plainWrite_keeps _ _ _ _)
    exact h33
  · rename_i y34 y35 y36 y37
    refine KeepsO.some ?_
    refine Keeps.trans ?_ (formatTables_keeps _ _ _ _ _)
    exact Keeps.refl _
  · rename_i y38 y39 y40 y41
    refine KeepsO.some ?_
    refine Keeps.trans ?_ (formatTables_keeps _ _ _ _ _)
    exact Keeps.refl _
  · rename_i y42 y43 y44 y45
    refine KeepsO.some ?_
    refine Keeps.trans ?_ (formatTables_keeps _ _ _ _ _)
    exact Keeps.refl _
  · rename_i y46 y47 y48 y49
    refine KeepsO.some ?_
    refine Keeps.trans ?_ (formatTables_keeps _ _ _ _ _)
    exact Keeps.refl _
  · rename_i y50 y51 y52 y53
    extract_lets +onlyGivenNames x54 x55
    have h56 : Keeps s x54 := by
      unfold x54
      refine Keeps.ite ?_ ?_
      · refine Keeps.trans ?_ (wickOff_keeps _ _ _)
        exact Keeps.refl _
      · exact Keeps.refl _
    clear_value x54
    have h57 : Keeps s x55 := by
      unfold x55
      refine Keeps.trans ?_ (State.plainWrite_keeps _ _ _ _)
      exact h56
    clear_value x55
    refine KeepsO.some ?_
    refine Keeps.ite ?_ ?_
    · refine Keeps.trans ?_ (wickRestart_keeps _ _ _)
      exact h57
    · exact h57
  · rename_i y58 y59 y60 y61
    extract_lets +onlyGivenNames x62 x63 x64
    have h65 : Keeps s x62 := by
      unfold x62
      refine Keeps.ite ?_ ?_
      · refine Keeps.trans ?_ (servoEnSet_keeps _ _ _)
        exact Keeps.refl _
      · refine Keeps.ite ?_ ?_
        · refine Keeps.trans ?_ (servoOff_keeps _ _ _)
          exact Keeps.refl _
        · exact Keeps.refl _
    clear_value x62
    have h66 : Keeps s x63 := by
      unfold x63
      refine Keeps.trans ?_ (State.plainWrite_keeps _ _ _ _)
      exact h65
    clear_value x63
    clear_value x64
    refine KeepsO.some ?_
    refine Keeps.ite ?_ ?_
    · refine Keeps.trans ?_ (cmdLoad_keeps _ _ _)
      exact h66
    · refine Keeps.ite ?_ ?_
      · refine Keeps.trans ?_ (State.servoParkCmd_keeps _ _)
        exact h66
      · refine Keeps.ite ?_ ?_
        · refine Keeps.trans ?_ (State.servoRetract_keeps _ _ _)
          exact h66
        · exact h66
  · rename_i y67 y68 y69 y70
    extract_lets +onlyGivenNames x71
    have h72 : Keeps s x71 := by
      unfold x71
      refine Keeps.ite ?_ ?_
      · refine Keeps.trans ?_ (calSweep_keeps _ _ _)
        exact Keeps.refl _
      · exact Keeps.refl _
    clear_value x71
    refine KeepsO.some ?_
    refine Keeps.ite ?_ ?_
    · refine Keeps.trans ?_ (calOne_keeps _ _ _ _)
      exact h72
    · exact h72
  · rename_i y73 y74 y75 y76
    extract_lets +onlyGivenNames x77 x78 x79 x80
    clear_value x77
    have h81 : Keeps s x78 := by
      unfold x78
      refine Keeps.ite ?_ ?_
      · refine Keeps.trans ?_ (spindleOff_keeps _ _ _)
        exact Keeps.refl _
      · refine Keeps.ite ?_ ?_
        · refine Keeps.trans ?_ (spindleEnSet_keeps _ _ _)
          exact Keeps.refl _
        · exact Keeps.refl _
    clear_value x78
    have h82 : Keeps s x79 := by
      unfold x79
      refine Keeps.trans ?_ (State.targetWrite_keeps _ _)
      refine Keeps.trans ?_ (State.plainWrite_keeps _ _ _ _)
      exact h81
    clear_value x79
    clear_value x80
    refine KeepsO.some ?_
    refine Keeps.ite ?_ ?_
    · refine Keeps.trans ?_ (State.spnStart_keeps _ _)
      exact h82
    · refine Keeps.ite ?_ ?_
      · refine Keeps.trans ?_ (State.spnStop_keeps _ _ _)
        exact h82
      · exact h82
  · rename_i y83 y84 y85 y86
    refine KeepsO.some ?_
    refine Keeps.trans ?_ (State.targetWrite_keeps _ _)
    refine Keeps.trans ?_ (State.plainWrite_keeps _ _ _ _)
    exact Keeps.refl _
  · rename_i y87 y88 y89 y90 y91 y92 y93 y94 y95 y96 y97 y98 y99 y100 y101 y102
    exact KeepsO.none

theorem State.socketRetry_keeps (s : State) (h : Half) (n : Nat) :
    Keeps s (State.socketRetry s h n) := by
  unfold State.socketRetry
  extract_lets +onlyGivenNames x1
  clear_value x1
  refine Keeps.ite ?_ ?_
  · extract_lets +onlyGivenNames x2
    clear_value x2
    refine Keeps.trans ?_ (Keeps.upd (s := s) rfl rfl rfl rfl)
    exact Keeps.refl _
  · exact Keeps.refl _

theorem State.storeWrite_keeps (s : State) (h : Half) (l : Loc) (a : Nat) (r : RegSpec) (v : Word) :
    KeepsO s (State.storeWrite s h l a r v) := by
  unfold State.storeWrite
  extract_lets +onlyGivenNames x1
  clear_value x1
  split
  · rename_i y2 y3 y4 y5
    extract_lets +onlyGivenNames x6
    have h7 : Keeps s x6 := by
      unfold x6
      refine Keeps.trans ?_ (State.plainWrite_keeps _ _ _ _)
      exact Keeps.refl _
    clear_value x6
    refine KeepsO.some ?_
    refine Keeps.ite ?_ ?_
    · refine Keeps.trans ?_ (State.socketRetry_keeps _ _ _)
      exact h7
    · exact h7
  · rename_i y8 y9 y10 y11
    extract_lets +onlyGivenNames x12
    have h13 : Keeps s x12 := by
      unfold x12
      refine Keeps.trans ?_ (State.maskWrite_keeps _ _ _ _)
      exact Keeps.refl _
    clear_value x12
    refine KeepsO.some ?_
    refine Keeps.ite ?_ ?_
    · exact h13
    · refine Keeps.trans ?_ (State.bankSpare_keeps _ _ _)
      exact h13
  · rename_i y14 y15 y16 y17
    refine KeepsO.some ?_
    refine Keeps.trans ?_ (State.partitionWrite_keeps _ _ _ _)
    exact Keeps.refl _
  · rename_i y18 y19 y20 y21
    refine KeepsO.some ?_
    refine Keeps.trans ?_ (State.partitionWrite_keeps _ _ _ _)
    exact Keeps.refl _
  · rename_i y22 y23 y24 y25
    refine KeepsO.some ?_
    refine Keeps.trans ?_ (State.partitionWrite_keeps _ _ _ _)
    exact Keeps.refl _
  · rename_i y26 y27 y28 y29
    refine KeepsO.some ?_
    refine Keeps.trans ?_ (State.partitionWrite_keeps _ _ _ _)
    exact Keeps.refl _
  · rename_i y30 y31 y32 y33
    refine KeepsO.some ?_
    refine Keeps.trans ?_ (State.partitionWrite_keeps _ _ _ _)
    exact Keeps.refl _
  · rename_i y34 y35 y36 y37
    refine KeepsO.some ?_
    refine Keeps.trans ?_ (State.partitionWrite_keeps _ _ _ _)
    exact Keeps.refl _
  · rename_i y38 y39 y40 y41
    refine KeepsO.some ?_
    refine Keeps.ite ?_ ?_
    · refine Keeps.trans ?_ (State.regionRelease_keeps _ _ _)
      exact Keeps.refl _
    · refine Keeps.trans ?_ (State.plainWrite_keeps _ _ _ _)
      exact Keeps.refl _
  · rename_i y42 y43 y44 y45
    refine KeepsO.some ?_
    refine Keeps.ite ?_ ?_
    · refine Keeps.trans ?_ (pageRetire_keeps _ _ _)
      exact Keeps.refl _
    · refine Keeps.ite ?_ ?_
      · refine Keeps.trans ?_ (bankRetire_keeps _ _)
        exact Keeps.refl _
      · exact Keeps.refl _
  · rename_i y46 y47 y48 y49
    refine KeepsO.some ?_
    refine Keeps.ite ?_ ?_
    · refine Keeps.trans ?_ (State.logClear_keeps _ _)
      exact Keeps.refl _
    · exact Keeps.refl _
  · rename_i y50 y51 y52 y53
    refine KeepsO.some ?_
    refine Keeps.trans ?_ (State.plainWrite_keeps _ _ _ _)
    refine Keeps.trans ?_ (State.cacheMode_keeps _ _ _)
    exact Keeps.refl _
  · rename_i y54 y55 y56 y57
    refine KeepsO.some ?_
    refine Keeps.foldl ?_ ?_
    · exact Keeps.refl _
    · intro a58 b59
      refine Keeps.ite ?_ ?_
      · refine Keeps.trans ?_ (State.wayPowerDown_keeps _ _ _)
        exact Keeps.refl _
      · refine Keeps.trans ?_ (State.wayPowerUp_keeps _ _ _)
        exact Keeps.refl _
  · rename_i y60 y61 y62 y63
    refine KeepsO.some ?_
    refine Keeps.ite ?_ ?_
    · refine Keeps.trans ?_ (State.maintStart_keeps _ _ _ _ _ _)
      exact Keeps.refl _
    · exact Keeps.refl _
  · rename_i y64 y65 y66 y67 y68 y69 y70 y71 y72 y73 y74 y75 y76 y77 y78 y79
    exact KeepsO.none

theorem State.controlWrite_keeps (s : State) (h : Half) (l : Loc) (a : Nat) (r : RegSpec) (v : Word) :
    KeepsO s (State.controlWrite s h l a r v) := by
  unfold State.controlWrite
  extract_lets +onlyGivenNames x1
  clear_value x1
  split
  · rename_i y2 y3 y4 y5
    refine KeepsO.some ?_
    refine Keeps.ite ?_ ?_
    · refine Keeps.trans ?_ (State.setWord_keeps _ _ _)
      exact Keeps.refl _
    · exact Keeps.refl _
  · rename_i y6 y7 y8 y9
    refine KeepsO.some ?_
    refine Keeps.ite ?_ ?_
    · refine Keeps.trans ?_ (State.lostClear_keeps _ _)
      exact Keeps.refl _
    · exact Keeps.refl _
  · rename_i y10 y11 y12 y13
    refine KeepsO.some ?_
    refine Keeps.ite ?_ ?_
    · refine Keeps.trans ?_ (snapshot_keeps _ _)
      exact Keeps.refl _
    · exact Keeps.refl _
  · rename_i y14 y15 y16 y17
    refine KeepsO.some ?_
    refine Keeps.ite ?_ ?_
    · refine Keeps.trans ?_ (recordClose_keeps _ _ _)
      exact Keeps.refl _
    · exact Keeps.refl _
  · rename_i y18 y19 y20 y21
    refine KeepsO.some ?_
    refine Keeps.trans ?_ (chmRaise_keeps _ _ _)
    exact Keeps.refl _
  · rename_i y22 y23 y24 y25
    refine KeepsO.some ?_
    refine Keeps.trans ?_ (State.wlpFeed_keeps _ _ _ _)
    exact Keeps.refl _
  · rename_i y26 y27 y28 y29
    extract_lets +onlyGivenNames x30
    have h31 : Keeps s x30 := by
      unfold x30
      refine Keeps.trans ?_ (State.plainWrite_keeps _ _ _ _)
      exact Keeps.refl _
    clear_value x30
    refine KeepsO.some ?_
    refine Keeps.ite ?_ ?_
    · refine Keeps.trans ?_ (State.resetRequest_keeps _ _ _ _ _)
      exact h31
    · exact h31
  · rename_i y32 y33 y34 y35
    refine KeepsO.some ?_
    refine Keeps.ite ?_ ?_
    · refine Keeps.trans ?_ (configured_keeps _ _)
      exact Keeps.refl _
    · exact Keeps.refl _
  · rename_i y36 y37 y38 y39
    extract_lets +onlyGivenNames x40
    have h41 : Keeps s x40 := by
      unfold x40
      refine Keeps.trans ?_ (State.plainWrite_keeps _ _ _ _)
      exact Keeps.refl _
    clear_value x40
    refine KeepsO.some ?_
    refine Keeps.ite ?_ ?_
    · refine Keeps.trans ?_ (State.mailbox_keeps _ _ _ _ _ _)
      exact h41
    · exact h41
  · rename_i y42 y43 y44 y45
    refine KeepsO.some ?_
    refine Keeps.trans ?_ (leaseWrite_keeps _ _ _ _)
    exact Keeps.refl _
  · rename_i y46 y47 y48 y49
    refine KeepsO.some ?_
    refine Keeps.trans ?_ (kick_keeps _ _ _)
    exact Keeps.refl _
  · rename_i y50 y51 y52 y53 y54
    refine KeepsO.ite ?_ ?_
    · refine KeepsO.some ?_
      refine Keeps.trans ?_ (State.policyWrite_keeps _ _ _ _)
      exact Keeps.refl _
    · exact KeepsO.none
  · rename_i y55 y56 y57 y58 y59 y60 y61 y62 y63 y64 y65 y66 y67 y68
    exact KeepsO.none

theorem State.dmaWrite_keeps (s : State) (h : Half) (l : Loc) (a : Nat) (r : RegSpec) (v : Word) (o : Option State)
    (e : s.dmaWrite h l a r v = some o) : KeepsO s o := by
  unfold State.dmaWrite at e
  dsimp only at e
  split at e
  · cases e
  split at e
  · cases e; exact KeepsO.none
  split at e
  · cases e; exact KeepsO.some (State.sdmReconfig_keeps ..)
  split at e
  · cases e
    refine KeepsO.some ?_
    refine Keeps.ite ?_ ?_
    · refine Keeps.trans ?_ (State.sdmResume_keeps ..)
      refine Keeps.trans (State.maskWrite_keeps s a 0x01FF0010 v) ?_
      exact Keeps.ite (State.sdmDisable_keeps ..) (Keeps.ite (State.sdmEnable_keeps ..) (Keeps.refl _))
    · refine Keeps.trans (State.maskWrite_keeps s a 0x01FF0010 v) ?_
      exact Keeps.ite (State.sdmDisable_keeps ..) (Keeps.ite (State.sdmEnable_keeps ..) (Keeps.refl _))
  split at e
  · cases e
    exact KeepsO.some (Keeps.ite (State.flag_keeps ..) ((State.plainWrite_keeps ..).trans (State.sdmShow_keeps ..)))
  · cases e; exact KeepsO.some (State.plainWrite_keeps ..)

theorem State.regWrite_keeps (s : State) (who : Accessor) (h : Half) (l : Loc) (a : Nat) (r : RegSpec) (v : Word) :
    KeepsO s (s.regWrite who h l a r v) := by
  unfold State.regWrite
  refine KeepsO.ite KeepsO.none ?_
  split
  · rename_i t e; exact State.dmaWrite_keeps _ _ _ _ _ _ _ e
  · refine KeepsO.some (KeepsO.getD ?_ (State.plainWrite_keeps ..))
    exact KeepsO.or (State.mediaWrite_keeps s h l a r v)
      (KeepsO.or (State.storeWrite_keeps s h l a r v) (State.controlWrite_keeps s h l a r v))

theorem State.writeWord_keeps (s : State) (who : Accessor) (off : Nat) (v : Word) (be : Nat) :
    Keeps s (State.writeWord s who off v be) := by
  unfold State.writeWord
  extract_lets +onlyGivenNames x1 x2 x3 x4
  clear_value x1
  clear_value x2
  clear_value x3
  have h5 : Keeps s x4 := by
    unfold x4
    refine Keeps.ite ?_ ?_
    · refine Keeps.trans ?_ (State.demand_keeps _ _ _)
      exact Keeps.refl _
    · exact Keeps.refl _
  clear_value x4
  refine Keeps.ite ?_ ?_
  · refine Keeps.trans ?_ (State.accEvent_keeps _ _ _ _ _ _)
    exact h5
  · refine Keeps.ite ?_ ?_
    · refine Keeps.trans ?_ (State.accEvent_keeps _ _ _ _ _ _)
      exact h5
    · refine Keeps.ite ?_ ?_
      · refine Keeps.trans ?_ (State.accEvent_keeps _ _ _ _ _ _)
        exact h5
      · extract_lets +onlyGivenNames x6
        have h7 : Keeps s x6 := by
          unfold x6
          refine Keeps.trans ?_ (State.accEvent_keeps _ _ _ _ _ _)
          exact h5
        clear_value x6
        split
        · rename_i y8 y9 y10 y11
          refine Keeps.trans ?_ (State.accEvent_keeps _ _ _ _ _ _)
          exact h5
        · rename_i y12 y13
          exact h5
        · rename_i y14 y15 y16 y17
          split
          · rename_i y18 y19
            exact h7
          · rename_i y20 y21 y22
            refine KeepsO.getD ?_ ?_
            · refine KeepsO.trans ?_ (State.arrayWrite_keeps _ _ _ _ _)
              exact h5
            · exact h7
        · rename_i y23 y24 y25 y26 y27
          split
          · rename_i y28 y29
            exact h7
          · rename_i y30 y31 y32
            refine KeepsO.getD ?_ ?_
            · refine KeepsO.trans ?_ (State.regWrite_keeps _ _ _ _ _ _ _)
              exact h5
            · exact h7

theorem State.writeWords_keeps (s : State) (who : Accessor) (off : Nat) (l : List (Word × Nat)) :
    Keeps s (s.writeWords who off l) := by
  induction l generalizing s off with
  | nil => exact Keeps.refl _
  | cons e l ih => exact (State.writeWord_keeps s who off e.1 e.2).trans (ih _ _)

theorem State.mntWord_keeps (s : State) (h : Half) (off : Nat) (v : Word) :
    Keeps s (State.mntWord s h off v) := by
  unfold State.mntWord
  split
  · rename_i y1 y2
    exact Keeps.refl _
  · rename_i y3 y4 y5 y6
    split
    · rename_i y7 y8 y9 y10 y11
      refine Keeps.ite ?_ ?_
      · exact Keeps.refl _
      · refine Keeps.ite ?_ ?_
        · refine Keeps.trans ?_ (State.maskWrite_keeps _ _ _ _)
          refine Keeps.trans ?_ (State.maskWrite_keeps _ _ _ _)
          exact Keeps.refl _
        · refine Keeps.trans ?_ (State.maskWrite_keeps _ _ _ _)
          exact Keeps.refl _
    · rename_i y12 y13 y14 y15
      refine Keeps.ite ?_ ?_
      · refine Keeps.trans ?_ (State.maskWrite_keeps _ _ _ _)
        exact Keeps.refl _
      · exact Keeps.refl _
    · rename_i y16 y17 y18
      exact Keeps.refl _

theorem State.mntWords_keeps (s : State) (h : Half) (off : Nat) (l : List (Word × Nat)) :
    Keeps s (s.mntWords h off l) := by
  induction l generalizing s off with
  | nil => exact Keeps.refl _
  | cons e l ih =>
    exact (Keeps.ite (State.mntWord_keeps s h off e.1) (Keeps.refl _)).trans (ih _ _)

theorem State.writeAll_keeps (s : State) (who : Accessor) (off : Nat) (words : List (Word × Nat)) :
    Keeps s (State.writeAll s who off words) := by
  unfold State.writeAll
  split
  · rename_i y1 y2 y3
    split
    · rename_i y4 y5 y6 y7
      extract_lets +onlyGivenNames x8
      have h9 : Keeps s x8 := by
        unfold x8
        refine Keeps.ite ?_ ?_
        · refine Keeps.trans ?_ (State.demand_keeps _ _ _)
          exact Keeps.refl _
        · exact Keeps.refl _
      clear_value x8
      refine Keeps.trans ?_ (State.partCheck_keeps _ _)
      refine Keeps.trans ?_ (State.setWord_keeps _ _ _)
      refine Keeps.trans ?_ (State.setWord_keeps _ _ _)
      exact h9
    · rename_i y10 y11
      refine Keeps.trans ?_ (State.writeWords_keeps _ _ _ _)
      exact Keeps.refl _
  · rename_i y12 y13
    refine Keeps.trans ?_ (State.writeWords_keeps _ _ _ _)
    exact Keeps.refl _

theorem registerWrite_keeps (who : Accessor) (off : Nat) (words : List (Word × Nat)) (s : State) :
    Keeps s (registerWrite who off words s) := by
  unfold registerWrite
  extract_lets +onlyGivenNames x1
  clear_value x1
  refine Keeps.ite ?_ ?_
  · refine Keeps.ite ?_ ?_
    · refine Keeps.trans ?_ (State.mntWords_keeps _ _ _ _)
      exact Keeps.refl _
    · exact Keeps.refl _
  · refine Keeps.ite ?_ ?_
    · refine Keeps.trans ?_ (State.writeAll_keeps _ _ _ _)
      exact Keeps.refl _
    · exact Keeps.refl _

theorem execRegisterWrite_keeps (who : Accessor) (off : Nat) (words : List (Word × Nat)) (s : State) :
    OutKeeps s (execRegisterWrite who off words s) := by
  unfold execRegisterWrite
  refine OutKeeps.next ?_
  refine Keeps.trans ?_ (registerWrite_keeps _ _ _ _)
  exact Keeps.refl _

theorem strayAccess_keeps (who : Accessor) (bar2 : Bool) (write : Bool) (off : Nat) (s : State) :
    Keeps s (strayAccess who bar2 write off s) := by
  unfold strayAccess
  extract_lets +onlyGivenNames x1 x2
  clear_value x1
  clear_value x2
  refine Keeps.ite ?_ ?_
  · exact Keeps.refl _
  · refine Keeps.ite ?_ ?_
    · refine Keeps.ite ?_ ?_
      · refine Keeps.trans ?_ (Keeps.upd (s := s) rfl rfl rfl rfl)
        exact Keeps.refl _
      · refine Keeps.ite ?_ ?_
        · exact Keeps.refl _
        · refine Keeps.trans ?_ (State.accEvent_keeps _ _ _ _ _ _)
          exact Keeps.refl _
    · split
      · rename_i y3 y4 y5 y6
        refine Keeps.ite ?_ ?_
        · refine Keeps.trans ?_ (State.writeWord_keeps _ _ _ _ _)
          exact Keeps.refl _
        · split
          · rename_i y7 y8 y9 y10
            have h11 : Keeps s y9 := by
              refine Keeps2.use ?_ y10
              refine Keeps2.trans ?_ (State.readWord_keeps _ _ _)
              exact Keeps.refl _
            refine Keeps.trans ?_ (Keeps.upd (s := y9) rfl rfl rfl rfl)
            exact h11
      · rename_i y12 y13
        exact Keeps.refl _

theorem execStrayAccess_keeps (who : Accessor) (bar2 : Bool) (write : Bool) (off : Nat) (s : State) :
    OutKeeps s (execStrayAccess who bar2 write off s) := by
  unfold execStrayAccess
  refine OutKeeps.next ?_
  refine Keeps.trans ?_ (strayAccess_keeps _ _ _ _ _)
  exact Keeps.refl _

end Sys2Proof.Machine
end

