-- ==== Sys2Proof/Tests/Slice0.lean ====
section
/-! SUPPORT. Tests of the model: that the well-formedness check refuses what it should; worked cases of the spec; single
steps; and, for every statement with hypotheses, states and operands that meet them. The expected values come from the spec's
text or from hand calculation from it. -/

namespace Sys2Proof.Machine

set_option maxRecDepth 100000
set_option Elab.async false

/-- The state at reset with both Lanterns, the motor bus and the HDAs released. -/
def lit : State := { State.reset with asserted := [], up := 3, motorUp := 3 }

theorem test_wf_refuses_1 : ([
    .linkTrained .a 3 false false false, .socketTrip .a 8, .snufferRearm .a 8 0 0, .snufferRearm .a 0 4 0,
    .registerWrite (.port .a) 0x4000000 [], .registerWrite (.port .a) 2 [],
    .registerWrite (.port .a) 0 (List.replicate 17 (0, 0)), .strayAccess (.port .a) false false 0x4000000,
    .readClear (.port .a) 0x4000000 0, .readClear (.port .a) 2 0, .readClear (.port .a) 0 17, .presenceLow .a 4,
    .presenceHigh .a 4 0, .presenceHigh .a 0 2, .debounceElapsed .a 4, .eepromReadStart .a 4,
    .eepromReadDone .a 4 (List.replicate 1024 0), .eepromReadDone .a 0 [], .preampFrameEnd .a 8 (.ack true),
    .pago .a 4 false false, .portModeWrite .a 4 0, .portModeWrite .a 0 4, .preampSupplyOverload .a 4 false,
    .preampFault .a 8 0, .preampFault .a 0 256, .persistentFaultCheck .a 8 0, .persistentFaultCheck .a 0 256,
    .readGateRise .a 32, .lockCheck .a 32 0 [], .syncWindowClose .a 32 0 0 [], .readGateFall .a 32 [],
    .servoGateRise .a 8, .servoGateFall .a 8, .resyncWindowClose .a 32 0 0 [], .lastCodewordSymbol .a 32 0 0 [],
    .firstDecodeEnd .a 32 0 none, .redetectionDone .a 32, .hypothesisDecodeEnd .a 32 0 none,
    .recoveryRoundEnd .a 32 0 none, .verifyStart .a 32, .verifyDecodeEnd .a 32 0 0 0 none, .channelOff .a 32,
    .channelCfg .a 32 0, .channelCfg .a 0 4, .freeze .a 32 false, .frozen .a 32, .bandSplit .a 8, .grownListWrite .a 8,
    .heaterFrameUpdate .a 8, .formatOff .a 8, .formatTables .a 8 false 0, .formatTables .a 0 false (2 ^ 42),
    .readPass .a 8, .writePass .a 8 [], .verifyPass .a 8, .rewriteEntry .a 8, .retryRevolution .a 8,
    .systemBandRead .a 8, .seekOnly .a 8 0, .seekOnly .a 0 0x1000000] : List Instr).all (fun c => !c.wf) = true := by decide

theorem test_wf_refuses_2 : ([
    .park .a 8, .nop .a 8 0, .nop .a 0 8, .jmp .a 8 0 0, .jmp .a 0 8 0, .jmp .a 0 0 0x8000, .call .a 8 0 0,
    .call .a 0 8 0, .call .a 0 0 0x8000, .ret .a 8 0, .ret .a 0 8, .loop .a 8 0 0 0, .loop .a 0 8 0 0,
    .loop .a 0 0 8 0, .loop .a 0 0 0 0x8000, .ldi .a 8 0 0 0, .ldi .a 0 8 0 0, .ldi .a 0 0 8 0, .ldi .a 0 0 0 0x200000,
    .addi .a 8 0 0 0, .addi .a 0 8 0 0, .addi .a 0 0 8 0, .addi .a 0 0 0 0x200000, .alu .a 8 0 0 0 0,
    .alu .a 0 8 0 0 0, .alu .a 0 0 8 0 0, .alu .a 0 0 0 8 0, .alu .a 0 0 0 0 4, .ldop .a 8 0 0 0, .ldop .a 0 8 0 0,
    .ldop .a 0 0 8 0, .ldop .a 0 0 0 16, .loc .a 8 0 0, .loc .a 0 8 0, .loc .a 0 0 8, .wwed .a 8 0 0, .wwed .a 0 8 0,
    .wwed .a 0 0 8, .wsym .a 8 0 false 0 ⟨0, 0⟩, .wsym .a 0 8 false 0 ⟨0, 0⟩, .wsym .a 0 0 false 0x20000 ⟨0, 0⟩,
    .edge .a 8 0 false false 0 0 ⟨0, 0⟩, .edge .a 0 8 false false 0 0 ⟨0, 0⟩, .edge .a 0 0 false false 16 0 ⟨0, 0⟩,
    .edge .a 0 0 false false 0 0x20000 ⟨0, 0⟩, .sect .a 8 0 false false 0 ⟨0, 0⟩, .sect .a 0 8 false false 0 ⟨0, 0⟩,
    .sect .a 0 0 false false 8 ⟨0, 0⟩, .wch .a 8 0, .wch .a 0 8, .recov .a 8 0 0, .recov .a 0 8 0, .recov .a 0 0 8,
    .frm .a 8 0 0, .frm .a 0 8 0, .frm .a 0 0 0x1000000, .frmx .a 8 0 false 0 0, .frmx .a 0 8 false 0 0,
    .frmx .a 0 0 false 128 0, .frmx .a 0 0 false 0 8] : List Instr).all (fun c => !c.wf) = true := by decide

theorem test_wf_refuses_3 : ([
    .seek .a 8 0 0 0, .seek .a 0 8 0 0, .seek .a 0 0 8 0, .seek .a 0 0 0 4, .wcond .a 8 0 0, .wcond .a 0 8 0,
    .wcond .a 0 0 0x1000000, .post .a 8 0 0, .post .a 0 8 0, .post .a 0 0 256, .evt .a 8 0 0, .evt .a 0 8 0,
    .evt .a 0 0 0x10000, .halt .a 8 0, .halt .a 0 8, .illegal .a 8 0 0x16 0, .illegal .a 0 8 0x16 0,
    .illegal .a 0 0 0x15 0, .illegal .a 0 0 0x1F 0, .illegal .a 0 0 0x16 0x1000000, .stallRelease .a 8 0 ⟨0, 0⟩,
    .wcondTimeout .a 8, .edgeApply .a 8 .edge, .abortVector .a 8 ⟨0, 0⟩, .restart .a 8, .wickOff .a 8,
    .patchApply .a 8, .patchRewrite .a 8, .servoDemodEnd .a 8 [] 0, .servoComputationEnd .a 8 0,
    .servoOutputApply .a 8, .implausRetract .a 8, .reachAlarm .a 8, .profileEnd .a 8, .seekSettled .a 8,
    .seekTimeout .a 8, .cmdLoad .a 8, .loadLock .a 8, .loadFail .a 8, .cmdPark .a 8, .cmdRetract .a 8,
    .stopReached .a 8 0, .latchPushEnd .a 8, .retractTmo .a 8, .servoEnSet .a 8, .servoOff .a 8, .calOne .a 8 0,
    .calOne .a 0 4096, .calSweep .a 8, .calBackground .a 8, .calMeasureEnd .a 8, .commutationStep .a 4 ⟨0, none, 0, 0⟩,
    .skipRun .a 4, .rotorLost .a 4, .bridgeOcp .a 4, .electricalCycle .a 4 0 0, .keMeasure .a 4 0 0,
    .keRepeat .a 4 0 0, .start .a 4, .stop .a 4] : List Instr).all (fun c => !c.wf) = true := by decide

theorem test_wf_refuses_4 : ([
    .spindleEnSet .a 4, .spindleOff .a 4, .alignEnd .a 4, .senseEnd .a 4 [], .rampHandover .a 4, .rampTimeout .a 4,
    .taperEnd .a 4 0, .coastEnd .a 4, .catchEstimate .a 4 0 0 0 0, .catchOk .a 4, .catchFail .a 4,
    .parkRpmReached .a 4, .brakeStart .a 4, .stopRpmReached .a 4, .speedBelow30rpm .a 4, .chopperFail 4,
    .dimmIdentify .a [], .dimmTempRead .a 8 0, .bufferRead .a .host (2 ^ 41) 0 [] false,
    .bufferWrite .a .host (2 ^ 41) [] [], .scrubStep .a 8 0 [], .partitionWrite .a 6 0,
    .cacheRequest .a .host false (2 ^ 41) 0 [] [] [], .cacheFillDone .a 512 [], .cacheModeWrite .a 4,
    .wayPowerDown .a 8, .wayWalkEnd .a 8, .wayPowerUp .a 8, .wayOnDone .a 8, .sqDoorbell .a 256 0,
    .sqDoorbell .a 0 8192, .cqDoorbell .a 256 0, .cqDoorbell .a 0 8192, .interruptAggTimeout .a 256 0,
    .sqEnable .a 256, .cqEnable .a 256, .ringChanged .a false 256 0 0, .ringChanged .a false 0 3 0,
    .ringDisable .a false 256, .sdmChannelEnable .a 4, .resume .a 4, .sdmChannelDisable .a 4 0 [],
    .sdmChannelReconfig .a 0 5 0 0 [], .sdmChannelReconfig .a 4 0 0 0 [], .claim .a 16 0 0, .claim .a 0 (2 ^ 32) 0,
    .claim .a 0 0 (2 ^ 32), .release .a 16 0 0, .release .a 0 (2 ^ 32) 0, .release .a 0 0 (2 ^ 32), .retract .a 16 0 0,
    .retract .a 0 (2 ^ 32) 0, .retract .a 0 0 (2 ^ 32), .wdConfig .a 16 0 0, .wdConfig .a 0 (2 ^ 32) 0,
    .wdConfig .a 0 0 (2 ^ 32), .intakeOpen .a 16 0 0, .intakeOpen .a 0 (2 ^ 32) 0, .intakeOpen .a 0 0 (2 ^ 32),
    .intakeCheck .a 16 0 0] : List Instr).all (fun c => !c.wf) = true := by decide

theorem test_wf_refuses_5 : ([
    .intakeCheck .a 0 (2 ^ 32) 0, .intakeCheck .a 0 0 (2 ^ 32), .intakeCancel .a 16 0 0, .intakeCancel .a 0 (2 ^ 32) 0,
    .intakeCancel .a 0 0 (2 ^ 32), .nextSlot .a 16 0 0, .nextSlot .a 0 (2 ^ 32) 0, .nextSlot .a 0 0 (2 ^ 32),
    .badOp .a 0 16 0 0, .badOp .a 256 0 0 0, .badOp .a 8 0 0 0, .badOp .a 0 0 (2 ^ 32) 0, .badOp .a 0 0 0 (2 ^ 32),
    .leaseWrite .a 256 0, .leaseWrite .a 0 256, .lapse 8, .sequencerStop .a 8 0, .retdone .a 8, .rettmo .a 8 0,
    .kick .a 65536, .halfResetRequest .a 256 0, .halfResetRequest .a 0 256, .hdaResetRequest .a 256 0,
    .hdaResetRequest .a 0 256, .blockResetRequest .a 256 0, .blockResetRequest .a 0 256, .hdaResetRelease .a 4,
    .blockRelease .a 0x28, .wrapperDrained .a 0x28, .railGood .a 6, .railFault .a 6, .domainGate .a 26 0,
    .domainFloor .a 26 0, .domainWake .a 26 false, .domainWakeDone .a 26, .policyWrite .a 26 0, .pllUnlock .a 22,
    .recordClose .a 64, .chmRaise .a 0x800000, .mantleRecordClose 1024, .lampMeasurement .a 163 0 0, .wlpFeed .a 256 0,
    .wlpFeed .a 0 65536, .rateRangeTimeout .a 8] : List Instr).all (fun c => !c.wf) = true := by decide


/-! ### Microwords written out from R167 (OPCODE in bits 31 to 27, COND in 26 to 24) and the layouts of R168 -/

theorem test_microwords_control :
    microDecode 0x00000000 = (0, .nop) ∧ microDecode 0x0B001234 = (3, .jmp 0x1234) ∧
    microDecode 0x10007FFF = (0, .call 0x7FFF) ∧ microDecode 0x1F000000 = (7, .ret) ∧
    microDecode 0x2002FFFF = (0, .loop 5 0x7FFF) ∧ microDecode 0x9DFFFFFF = (5, .wcond 0xFFFFFF) ∧
    microDecode 0xA0000081 = (0, .post 0x81) ∧ microDecode 0xF8000000 = (0, .halt) ∧
    microDecode 0xB0000000 = (0, .illegal 0x16 0) := by decide

theorem test_microwords_data :
    microDecode 0x28200123 = (0, .ldi 1 0x123) ∧ microDecode 0x30FFFFFF = (0, .addi 7 0x1FFFFF) ∧
    microDecode 0x38EA0000 = (0, .alu 7 2 2) ∧ microDecode 0x40600009 = (0, .ldop 3 9) ∧
    microDecode 0x48140000 = (0, .loc 5) ∧ microDecode 0xA800BEEF = (0, .evt 0xBEEF) := by decide

theorem test_microwords_rotation :
    microDecode 0x50180000 = (0, .wwed 6) ∧ microDecode 0x5881ABCD = (0, .wsym true 0x1ABCD) ∧
    microDecode 0x60340180 = (0, .edge false true 0xA 0x180) ∧ microDecode 0x68500000 = (0, .sect true false 4) ∧
    microDecode 0x70000000 = (0, .wch) ∧ microDecode 0x78040000 = (0, .recov 1) ∧
    microDecode 0x80ABCDEF = (0, .frm 0xABCDEF) ∧ microDecode 0x88A50006 = (0, .frmx true 0x25 6) ∧
    microDecode 0x90080001 = (0, .seek 2 1) := by decide

/-! ### Worked cases of the spec -/

/-- R56: the register access page has S = 256 and N = 6; 0x3D8 reaches index 2, 0x3DC index 3, 0x3E0 index 0. -/
theorem test_alias_worked_case :
    aliasIndex 256 6 0x3D8 = 2 ∧ aliasIndex 256 6 0x3DC = 3 ∧ aliasIndex 256 6 0x3E0 = 0 := by decide

/-- R57: a read of port A at 0xF3D8 returns HIF_ACCSTAT, which is at 0xF008. -/
theorem test_access_page : (match lit.reachLoc .a { half := some .a, blk := .hif, inst := 0, off := 0xF3D8 } 0 with
    | .reg _ a _ => decide (a = 0xF008) | _ => false) = true := by decide +kernel

/-- The worked case of the map: HDA 6, actuator 1, head 5 uses stream channel B.RCH[21] at half offset 0x0075_0000. -/
theorem test_map_worked_case : locOf 0x01750000 = some { half := some .b, blk := .rch, inst := 21, off := 0 } ∧
    B.rch .b 21 = 0x01750000 := by decide

/-- R39: the resistor of code 10 is 18.7 kilohms, and 19.6 kilohms at worst; a short is code 0. -/
theorem test_strap_code : strapCode 18700 = 10 ∧ strapCode 19600 = 10 ∧ strapCode 0 = 0 ∧
    strapCode 200000 = 14 ∧ strapCode 200001 = 15 := by decide

/-- R113: Nw, K and sectors per track of zones 0 and 24; a zone 0 band holds 4,260 data sectors (R137). -/
theorem test_zones : (zNw 0, zK 0, zS 0) = (97656, 6976, 1145) ∧ (zNw 24, zK 24, zS 24) = (71928, 5138, 843) ∧
    60 * zG 0 = 4260 := by decide

/-- The worked case of R137: with 19,200 tracks in zone 0, MSA 1,000,000 is in band 362, stripe group 52, place 40. -/
theorem test_msa_worked_case : msaBand (fun o => if o = 5 ∨ o = 0x11 then 0x4B else 0) (fun _ => 0) 0 1000000 = some (362, 52, 40) := by
  decide +kernel

/-- R475: buffer-ce from A.BUF[3] with HINT 0x0_48D1_58E1 has message bits 55 to 0 of 0x0000_48D1_58E1_4063. -/
theorem test_message_worked_case : srcId 3 3 = 0x063 ∧ (message .a 0x063 16 0x48D158E1).toNat % 2 ^ 56 = 0x000048D158E14063 := by
  decide

/-- The worked case of R114 to R117: a wedge time of 21.701 µs reads 0x6000. -/
theorem test_rate_ratio : rateRatio [21701] = 0x6000 := by decide

/-- The six steps of R216: in step 0 the current goes from U to V, and W floats with a falling crossing. -/
theorem test_six_step : sixStep 0 = ⟨0, 1, 2, false⟩ ∧ sixStep 3 = ⟨1, 0, 2, true⟩ ∧ sixStep 11 = ⟨2, 1, 0, true⟩ := by decide

/-! ### Single steps -/

/-- LDI X1, 0x123 on a running Wick: X1 holds it and Z is clear (R168). -/
theorem test_ldi : (match exec (.ldi .a 0 0 1 0x123) { lit with regs := [(0x480004, 0x1811#32)] } with
    | .next t => (t.wick 0).reg 1 == 0x123 && !(t.wick 0).z | _ => false) = true := by decide +kernel

/-- A set of eight conversions takes no ninth (R41). -/
theorem test_strap_ninth : (match exec (.strapConversion 0)
      { lit with board := { State.reset.board with strapRun := true, conversions := List.replicate 8 0 } } with
    | .next t => t.board.conversions.length == 8 | _ => false) = true := by decide +kernel

/-- SPINDLE_EN_SET takes an OFF spindle to IDLE (R216). -/
theorem test_spindle_en : (match exec (.spindleEnSet .b 0) lit with
    | .next t => t.spnState 4 == 1 && t.spnState 5 == 0 | _ => false) = true := by decide +kernel

/-- The end of the debounce: the port is in IDENTIFY with INSERTED set (R87). -/
theorem test_debounce : (match exec (.debounceElapsed .b 3)
      { lit with regs := [(0x1230004, 0x108#32)], board := { State.reset.board with pins := 65535 } } with
    | .next t => t.portState 7 == 2 && t.get (B.grz .b 3) F.GRZ_EVENTS_INSERTED == 1 | _ => false) = true := by decide +kernel

/-- CHOPPER_OFF of a chopper that is on turns it off (R241). -/
theorem test_chopper_off : (match exec (.chopperOff 12000 0) { lit with mot := { State.reset.mot with chopOn := true } } with
    | .next t => !t.mot.chopOn | _ => false) = true := by decide +kernel

/-- A doorbell of SQ 1 with one new entry queues that entry (R326). -/
theorem test_sq_doorbell : (match exec (.sqDoorbell .b 1 1) { lit with regs := [(0x1000000, 0x1#32), (0x1002018, 0x80020010#32)] } with
    | .next t => (t.hif .b).entries.length == 1 && (t.hif .a).entries.length == 0 | _ => false) = true := by decide +kernel

/-- SDM channel 0 of Lantern B enabled; Lantern A's is as it was (R371). -/
theorem test_sdm_enable : (match exec (.sdmChannelEnable .b 0) lit with
    | .next t => t.bit (sdmCh .b 0) F.SDM_CHCTL_EN && !t.bit (sdmCh .a 0) F.SDM_CHCTL_EN | _ => false) = true := by decide +kernel

/-- The step carries out the command at the front and keeps the rest of the queue. -/
theorem test_step_queue : (match step { lit with pending := [.spindleEnSet .a 2, .brakeSlotGrant] } with
    | .next t => decide (t.pending = [.brakeSlotGrant]) && t.spnState 2 == 1 | _ => false) = true := by decide +kernel

/-! ### Codewords: the zero word satisfies every parity check (R98) -/

theorem ldpcTerm_zero (c r : Nat) : ldpcTerm (0#39936) c r = 0#64 := by
  have h : blockCol (0#39936) c = 0#64 := by simp [blockCol]
  have z : ∀ e, circRow (0#64) e = 0#64 := by
    intro e; apply BitVec.eq_of_getLsbD_eq; intro i _; simp [circRow, BitVec.getLsbD_rotateRight]
  have f : ∀ l : List Nat, l.foldl (fun acc _ => acc) 0#64 = 0#64 := by
    intro l; induction l with
    | nil => rfl
    | cons a t ih => simp [ih]
  unfold ldpcTerm
  simp only [h, z]
  simp [f]

theorem ldpcValid_zero : ldpcValid (0#39936) = true := by
  have k : ∀ (l : List Nat) (r : Nat), l.foldl (fun acc c => acc ^^^ ldpcTerm (0#39936) c r) 0#64 = 0#64 := by
    intro l r; induction l with
    | nil => rfl
    | cons a t ih => simpa only [List.foldl_cons, ldpcTerm_zero, BitVec.xor_zero] using ih
  unfold ldpcValid
  simp only [List.all_eq_true]
  intro r _
  rw [show (0 : BitVec 64) = 0#64 from rfl, k]; rfl

theorem converged_zero {l i : Nat} (h : i ≤ l) : converged l i (some 0#39936) = some 0#39936 := by
  simp [converged, h, ldpcValid_zero]

/-- A channel with one sector in sample memory, in a given phase. -/
def secPhase (p : Nat) : State := { lit with rchs := [(36, { (default : Rch) with secs := [{ (default : ChSector) with
  frame := some 5, desc := { (default : Desc) with kind := 1, band := 200, zone := 3, mask := 15, first := 4, count := 9, nw := 80 },
  inMem := true, dists := [(384, 3), (385, 2)], p0 := 384, phase := p, tried := [(384, 0)] }] })] }

/-- The same with a next hypothesis, at symbol 385. -/
def secNext (p : Nat) : State := { secPhase p with rchs := (secPhase p).rchs.map fun x =>
  (x.1, { x.2 with secs := x.2.secs.map fun y => { y with next := some (385, 0) } }) }

/-! ### Hypotheses met -/

/-- A state and operands meeting the hypotheses of StepTakesFrontCommand, clause by clause. -/
theorem witness_StepTakesFrontCommand :
    (State.reset.pending = []) := by decide +kernel

/-- A state and operands meeting the hypotheses of EveryStepKeepsTheMachineSound, clause by clause. -/
theorem witness_EveryStepKeepsTheMachineSound :
    ((fun (s : State) => s.regsWf && decide (s.evQueue.length ≤ 32) && (match step s with | .next _ => true | _ => false))
      { State.reset with pending := [.deskewBlock .a] } = true) := by decide +kernel

/-- A state and operands meeting the hypotheses of MicrowordsRoundTrip, clause by clause. -/
theorem witness_MicrowordsRoundTrip :
    (7 < 8 ∧ (Micro.edge true true 15 0x1FFFF).wf = true) ∧
    (microEncode 7 (.edge true true 15 0x1FFFF) = microEncode 7 (.edge true true 15 0x1FFFF)) := by
  refine ⟨?_, ?_⟩ <;> decide +kernel

/-- A state and operands meeting the hypotheses of PageOffsetsAlias, clause by clause. -/
theorem witness_PageOffsetsAlias :
    (1 ≤ 6 ∧ 6 ≤ 2 ^ 3 ∧ ∀ m, m < 3 → 2 ^ m < 6) ∧
    (1 ≤ 6) ∧
    ((match lit.reachLoc .a { half := some .a, blk := .hif, inst := 0, off := 0xF3D8 } 0 with | .reg _ _ _ => true | _ => false) = true) := by
  refine ⟨?_, ?_, ?_⟩ <;> decide +kernel

/-- A state and operands meeting the hypotheses of InvalidDescriptorsMoveNothing, clause by clause. -/
theorem witness_InvalidDescriptorsMoveNothing :
    ((fun (s : State) (h : Half) (_ : List Byte) (_ : Option Nat) (_ : List Nat) => (((s.sdm h).turn).any fun r => decide (r.1 < 4) && (((s.sdm h).desc).any fun w => ((sdmDesc w).bad))))
      { State.reset with asserted := [], sdms := [(1, { (default : Sdm) with turn := some (1, 4), desc := some [0, 0, 0, 0, 16, 0, 5, 0] })] } .b [0x13#8, 0x14#8, 0x15#8, 0x16#8, 0x17#8, 0x18#8, 0x19#8, 0x1A#8, 0x1B#8, 0x1C#8, 0x1D#8, 0x1E#8, 0x1F#8, 0x20#8, 0x21#8, 0x22#8, 0x23#8, 0x24#8, 0x25#8, 0x26#8, 0x27#8, 0x28#8, 0x29#8, 0x2A#8, 0x2B#8, 0x2C#8, 0x2D#8, 0x2E#8, 0x2F#8, 0x30#8, 0x31#8, 0x32#8, 0x33#8, 0x34#8, 0x35#8, 0x36#8, 0x37#8, 0x38#8, 0x39#8, 0x3A#8, 0x3B#8, 0x3C#8, 0x3D#8, 0x3E#8, 0x3F#8, 0x40#8, 0x41#8, 0x42#8, 0x43#8, 0x44#8, 0x45#8, 0x46#8, 0x47#8, 0x48#8, 0x49#8, 0x4A#8, 0x4B#8, 0x4C#8, 0x4D#8, 0x4E#8, 0x4F#8, 0x50#8, 0x51#8, 0x52#8, 0x53#8, 0x54#8, 0x55#8, 0x56#8, 0x57#8, 0x58#8, 0x59#8, 0x5A#8, 0x5B#8, 0x5C#8, 0x5D#8, 0x5E#8, 0x5F#8, 0x60#8, 0x61#8, 0x62#8, 0x63#8, 0x64#8, 0x65#8, 0x66#8, 0x67#8, 0x68#8, 0x69#8, 0x6A#8, 0x6B#8, 0x6C#8, 0x6D#8, 0x6E#8, 0x6F#8, 0x70#8, 0x71#8, 0x72#8, 0x73#8, 0x74#8, 0x75#8, 0x76#8, 0x77#8, 0x78#8, 0x79#8, 0x7A#8, 0x7B#8, 0x7C#8, 0x7D#8, 0x7E#8, 0x7F#8, 0x80#8, 0x81#8, 0x82#8, 0x83#8, 0x84#8, 0x85#8, 0x86#8, 0x87#8, 0x88#8, 0x89#8, 0x8A#8, 0x8B#8, 0x8C#8, 0x8D#8, 0x8E#8, 0x8F#8, 0x90#8, 0x91#8, 0x92#8, 0x93#8, 0x94#8, 0x95#8, 0x96#8, 0x97#8, 0x98#8, 0x99#8, 0x9A#8, 0x9B#8, 0x9C#8, 0x9D#8, 0x9E#8, 0x9F#8, 0xA0#8, 0xA1#8, 0xA2#8, 0xA3#8, 0xA4#8, 0xA5#8, 0xA6#8, 0xA7#8, 0xA8#8] (some 26) [2, 3, 5, 6, 7, 2, 4, 0] = true) := by decide +kernel

/-- A state and operands meeting the hypotheses of CountersSaturate, clause by clause. -/
theorem witness_CountersSaturate :
    ((fun (s : State) (h : Half) (c n : Nat) => decide (c < 4096) && decide (0 < n) && decide (s.cntSat h c = false) &&
      decide (2 ^ 48 - 1 ≤ s.cnt48 h c + n) && decide ((s.coll h.toNat).fifo.length < 256))
      (lit.set64 (cntAddr .a 5) (2 ^ 48 - 3)) .a 5 2 = true) ∧
    ((fun (s : State) (h : Half) (c : Nat) (n : Nat) => decide (c < 4096) && decide (s.cntSat h c = false) && decide (s.cnt48 h c + n < 2 ^ 48 - 1))
      { State.reset with asserted := [] } .b 0 0 = true) ∧
    (((lit.set64 (cntAddr .b 4095) (2 ^ 48 - 4)).bump48 .b 4095 7).cntSat .b 4095 = true) := by
  refine ⟨?_, ?_, ?_⟩ <;> decide +kernel

/-- A state and operands meeting the hypotheses of CommandsThatStoreNothing, clause by clause. -/
theorem witness_CommandsThatStoreNothing :
    ((fun (c : Instr) (s : State) => storesNothing c && (match exec c s with | .next _ => true | _ => false)) (.deskewBlock .b) lit = true) := by decide +kernel

/-- A state and operands meeting the hypotheses of CommandsWriteTheirWindows, clause by clause. -/
theorem witness_CommandsWriteTheirWindows :
    ((fun (c : Instr) (s : State) => c.wf && (windowsOf c).isSome && (match exec c s with | .next _ => true | _ => false)) (.deskewBlock .b) lit = true) := by decide +kernel

/-- A state and operands meeting the hypotheses of PlainMicrowordsTouchOneWick, clause by clause. -/
theorem witness_PlainMicrowordsTouchOneWick :
    ((fun (c : Instr) (s : State) => ((plainWord c).any fun p => decide (p.2 < 8) &&
      (match exec c s with | .next t => decide (t.wckState (actId p.1 p.2) ≠ 3) | _ => false))) (.nop .a 3 7) lit = true) := by decide +kernel

/-- A state and operands meeting the hypotheses of StoresReachOnlyTheirBytes, clause by clause. -/
theorem witness_StoresReachOnlyTheirBytes :
    ((fun (s : State) (h : Half) (_ : BufCls) (ha : Nat) (bytes : List Byte) (a : Nat) => decide (∀ i, i < bytes.length → s.touched h ((ha + i) / 4096) = true) && decide (ha + bytes.length ≤ 2 ^ 41) && decide (a < bufBa h ha ∨ bufBa h ha + bytes.length ≤ a))
      { State.reset with asserted := [], resvs := [(1, { (default : Resv) with touched := [(0, true)] })] } .b .merge 0 [0x6B#8, 0x6C#8, 0x6D#8, 0x6E#8, 0x6F#8, 0x70#8, 0x71#8, 0x72#8, 0x73#8, 0x74#8, 0x75#8, 0x76#8, 0x77#8, 0x78#8, 0x79#8, 0x7A#8, 0x7B#8, 0x7C#8, 0x7D#8, 0x7E#8, 0x7F#8, 0x80#8, 0x81#8, 0x82#8, 0x83#8, 0x84#8, 0x85#8, 0x86#8, 0x87#8, 0x88#8, 0x89#8, 0x8A#8, 0x8B#8, 0x8C#8, 0x8D#8, 0x8E#8, 0x8F#8, 0x90#8, 0x91#8, 0x92#8, 0x93#8, 0x94#8, 0x95#8, 0x96#8, 0x97#8, 0x98#8, 0x99#8, 0x9A#8, 0x9B#8, 0x9C#8] 0 = true) ∧
    ((fun (s : State) (h : Half) (_ : List Byte) (_ : List Nat) (a : Nat) => (((s.sdm h).turn).any fun r => decide (r.1 < 4) && (((s.sdm h).desc).any fun w => decide ((sdmDesc w).bad = false) && decide ((sdmDesc w).dstSpace = 1) && decide (s.tableHit (sdmDesc w).dst (sdmDesc w).len = false) && decide (s.bit (sdmCh h r.1) F.SDM_CHCFG_CSPACE = false) && decide (a < (sdmDesc w).dst ∨ (sdmDesc w).dst + (sdmDesc w).len ≤ a))))
      { State.reset with asserted := [], sdms := [(0, { (default : Sdm) with turn := some (0, 6), desc := some [128, 0, 4091904, 0, 64, 5, 5, 0] })] } .a [0x83#8, 0x84#8, 0x85#8, 0x86#8, 0x87#8, 0x88#8, 0x89#8, 0x8A#8, 0x8B#8, 0x8C#8, 0x8D#8, 0x8E#8, 0x8F#8, 0x90#8, 0x91#8, 0x92#8, 0x93#8, 0x94#8, 0x95#8, 0x96#8, 0x97#8, 0x98#8, 0x99#8, 0x9A#8, 0x9B#8, 0x9C#8, 0x9D#8, 0x9E#8, 0x9F#8, 0xA0#8, 0xA1#8, 0xA2#8, 0xA3#8, 0xA4#8, 0xA5#8, 0xA6#8, 0xA7#8, 0xA8#8, 0xA9#8, 0xAA#8, 0xAB#8, 0xAC#8, 0xAD#8, 0xAE#8, 0xAF#8, 0xB0#8, 0xB1#8, 0xB2#8, 0xB3#8, 0xB4#8, 0xB5#8, 0xB6#8, 0xB7#8, 0xB8#8, 0xB9#8, 0xBA#8, 0xBB#8, 0xBC#8, 0xBD#8, 0xBE#8, 0xBF#8, 0xC0#8, 0xC1#8, 0xC2#8, 0xC3#8, 0xC4#8, 0xC5#8, 0xC6#8, 0xC7#8, 0xC8#8, 0xC9#8, 0xCA#8, 0xCB#8, 0xCC#8, 0xCD#8, 0xCE#8, 0xCF#8, 0xD0#8, 0xD1#8, 0xD2#8, 0xD3#8, 0xD4#8, 0xD5#8, 0xD6#8, 0xD7#8, 0xD8#8, 0xD9#8, 0xDA#8, 0xDB#8, 0xDC#8, 0xDD#8, 0xDE#8, 0xDF#8, 0xE0#8, 0xE1#8, 0xE2#8, 0xE3#8, 0xE4#8, 0xE5#8, 0xE6#8, 0xE7#8, 0xE8#8, 0xE9#8, 0xEA#8, 0xEB#8, 0xEC#8, 0xED#8, 0xEE#8, 0xEF#8, 0xF0#8, 0xF1#8, 0xF2#8, 0xF3#8, 0xF4#8, 0xF5#8, 0xF6#8, 0xF7#8, 0xF8#8, 0xF9#8, 0xFA#8, 0xFB#8, 0xFC#8, 0xFD#8, 0xFE#8, 0xFF#8, 0x0#8, 0x1#8, 0x2#8, 0x3#8, 0x4#8, 0x5#8, 0x6#8, 0x7#8, 0x8#8, 0x9#8, 0xA#8, 0xB#8, 0xC#8, 0xD#8, 0xE#8, 0xF#8, 0x10#8, 0x11#8, 0x12#8, 0x13#8, 0x14#8, 0x15#8, 0x16#8, 0x17#8, 0x18#8] [2, 0, 741, 0, 3099, 704, 256, 20] 0 = true) ∧
    ((fun (s : State) (h : Half) (_ : List Byte) (_ : List Nat) (a : Nat) => (((s.sdm h).turn).any fun r => decide (r.1 < 4) && (((s.sdm h).desc).any fun w => decide ((sdmDesc w).bad = false) && decide ((sdmDesc w).dstSpace = 0) && (s.sdmCqFull h r.1) && decide (hostIn h (sdmDesc w).dst (sdmDesc w).len a = false))))
      { State.reset with asserted := [], sdms := [(0, { (default : Sdm) with turn := some (2, 4), desc := some [4096, 0, 8192, 0, 100, 81, 5, 0] })] } .a [0x33#8, 0x34#8, 0x35#8, 0x36#8, 0x37#8, 0x38#8, 0x39#8, 0x3A#8, 0x3B#8, 0x3C#8, 0x3D#8, 0x3E#8, 0x3F#8, 0x40#8, 0x41#8, 0x42#8, 0x43#8, 0x44#8, 0x45#8, 0x46#8, 0x47#8, 0x48#8, 0x49#8, 0x4A#8, 0x4B#8, 0x4C#8, 0x4D#8, 0x4E#8, 0x4F#8, 0x50#8, 0x51#8, 0x52#8, 0x53#8, 0x54#8, 0x55#8, 0x56#8, 0x57#8, 0x58#8, 0x59#8, 0x5A#8, 0x5B#8, 0x5C#8, 0x5D#8, 0x5E#8, 0x5F#8, 0x60#8, 0x61#8, 0x62#8, 0x63#8, 0x64#8, 0x65#8, 0x66#8, 0x67#8, 0x68#8, 0x69#8, 0x6A#8, 0x6B#8, 0x6C#8, 0x6D#8, 0x6E#8, 0x6F#8, 0x70#8, 0x71#8, 0x72#8, 0x73#8, 0x74#8, 0x75#8, 0x76#8, 0x77#8, 0x78#8, 0x79#8, 0x7A#8, 0x7B#8, 0x7C#8, 0x7D#8, 0x7E#8, 0x7F#8, 0x80#8, 0x81#8, 0x82#8, 0x83#8, 0x84#8, 0x85#8, 0x86#8, 0x87#8, 0x88#8, 0x89#8, 0x8A#8, 0x8B#8, 0x8C#8, 0x8D#8, 0x8E#8, 0x8F#8, 0x90#8, 0x91#8, 0x92#8, 0x93#8, 0x94#8, 0x95#8, 0x96#8, 0x97#8, 0x98#8, 0x99#8, 0x9A#8, 0x9B#8, 0x9C#8, 0x9D#8, 0x9E#8, 0x9F#8, 0xA0#8, 0xA1#8, 0xA2#8, 0xA3#8, 0xA4#8, 0xA5#8, 0xA6#8, 0xA7#8, 0xA8#8, 0xA9#8, 0xAA#8, 0xAB#8, 0xAC#8, 0xAD#8, 0xAE#8, 0xAF#8, 0xB0#8, 0xB1#8, 0xB2#8, 0xB3#8, 0xB4#8, 0xB5#8, 0xB6#8, 0xB7#8, 0xB8#8, 0xB9#8, 0xBA#8, 0xBB#8, 0xBC#8, 0xBD#8, 0xBE#8, 0xBF#8, 0xC0#8, 0xC1#8, 0xC2#8, 0xC3#8, 0xC4#8, 0xC5#8, 0xC6#8, 0xC7#8, 0xC8#8] [0, 692, 6, 0, 8, 1240, 512, 6] 0 = true) ∧
    ((fun (s : State) (h : Half) (n a : Nat) => (s.cmd h n).any fun c => c.result.isSome && decide (c.sq < 256) &&
      decide (s.bit (cqB h (s.get (sqB h c.sq) F.SQ_CQID)) F.CQ_IEN = false) &&
      decide (hostIn h (s.get (cqB h (s.get (sqB h c.sq) F.SQ_CQID)) F.CQ_BASE_LO +
        s.get (cqB h (s.get (sqB h c.sq) F.SQ_CQID)) F.CQ_BASE_HI * 2 ^ 32 + 16 * (s.cq h (s.get (sqB h c.sq) F.SQ_CQID)).post) 16 a = false))
      { lit with hifs := [(1, { (default : Hif) with held := [{ (default : Cmd) with n := 145, result := some (0, 0, 0) }] })] } .b 145 16 = true) := by
  refine ⟨?_, ?_, ?_, ?_⟩ <;> decide +kernel

/-- A state and operands meeting the hypotheses of StrapAndSupplyEvents, clause by clause. -/
theorem witness_StrapAndSupplyEvents :
    ((fun (s : State) => decide (.cold ∈ s.asserted ∨ .auxBo ∈ s.asserted))
      State.reset = true) ∧
    ((fun (s : State) (_ : Nat) => s.mantleUp && s.board.strapRun && decide (s.board.conversions.length < 8))
      { State.reset with board := { State.reset.board with strapRun := true }, asserted := [] } 0 = true) ∧
    ((fun (s : State) (c : Nat) => decide (c < 16) && s.mantleUp && s.board.strapRun && decide (s.board.conversions = List.replicate 8 c))
      { State.reset with board := { State.reset.board with strapRun := true, conversions := List.replicate 8 15 }, asserted := [] } 15 = true) ∧
    ((fun (s : State) (_ : Bool) => s.mantleUp && s.board.strapRun && decide (s.board.conversions.length = 8) && decide (∃ x ∈ s.board.conversions, x ≠ s.board.conversions.headD 0))
      { State.reset with board := { State.reset.board with strapRun := true, conversions := (List.replicate 7 5 ++ [6]) }, asserted := [] } false = true) ∧
    ((fun (s : State) => s.mantleUp && (s.bit B.mnt F.MNT_STRAP_UNSTABLE) && decide (s.board.strapRun = false))
      { State.reset with regs := [(0x2000004, 0x90#32)], asserted := [] } = true) ∧
    ((fun (s : State) => s.board.auxGood && s.mantleUp && (s.bit B.mnt F.MNT_STRAP_LATCHED) && decide (s.board.hotSwap = false))
      { State.reset with regs := [(0x2000004, 0x10#32)], board := { State.reset.board with auxGood := true }, asserted := [] } = true) ∧
    ((fun (s : State) => s.board.hotSwap && decide (s.board.rampEnded = false))
      { State.reset with board := { State.reset.board with hotSwap := true }, asserted := [] } = true) ∧
    ((fun (s : State) (h : Half) (rail : Nat) => decide (rail < 6) && s.board.rampEnded && decide (smGet 0 s.rails h.toNat = 2 ^ rail - 1))
      { State.reset with board := { State.reset.board with rampEnded := true }, asserted := [], rails := [(1, 3)] } .b 2 = true) ∧
    ((fun (s : State) => s.board.mainBoArmed)
      { State.reset with board := { State.reset.board with mainBoArmed := true }, asserted := [] } = true) ∧
    ((fun (s : State) => decide (.mainBo ∈ s.asserted) && s.mainGood)
      { State.reset with board := { State.reset.board with psenLow := true, hotSwap := true, rampEnded := true }, asserted := [.mainBo], rails := [(0, 63), (1, 63)] } = true) := by
  refine ⟨?_, ?_, ?_, ?_, ?_, ?_, ?_, ?_, ?_, ?_⟩ <;> decide +kernel

/-- A state and operands meeting the hypotheses of ModuleResetEvents, clause by clause. -/
theorem witness_ModuleResetEvents :
    ((fun (s : State) => decide (.cold ∈ s.asserted) && s.board.auxGood)
      { State.reset with board := { State.reset.board with auxGood := true } } = true) ∧
    ((fun (s : State) => decide (.auxBo ∉ s.asserted) && decide (.cold ∉ s.asserted))
      { State.reset with asserted := [] } = true) ∧
    ((fun (s : State) => decide (.auxBo ∈ s.asserted) && s.mcore.auxBoPending && decide (s.get B.mnt F.MNT_RETACT_ACTIVE = 0))
      { State.reset with asserted := [.auxBo], mcore := { State.reset.mcore with auxBoPending := true } } = true) ∧
    ((fun (s : State) => decide (.auxBo ∈ s.asserted) && decide (s.mcore.auxBoPending = false) && s.board.auxGood)
      { State.reset with board := { State.reset.board with auxGood := true }, asserted := [.auxBo] } = true) ∧
    ((fun (s : State) => decide (s.board.auxGood = false))
      { State.reset with asserted := [] } = true) ∧
    ((fun (s : State) => s.mantleUp)
      { State.reset with asserted := [] } = true) := by
  refine ⟨?_, ?_, ?_, ?_, ?_, ?_⟩ <;> decide +kernel

/-- A state and operands meeting the hypotheses of HostPortEvents, clause by clause. -/
theorem witness_HostPortEvents :
    ((fun (s : State) (_ : Half) => s.mantleUp)
      { State.reset with asserted := [] } .b = true) ∧
    ((fun (s : State) (h : Half) => (s.coreUp h))
      { State.reset with asserted := [], up := 3 } .b = true) ∧
    ((fun (s : State) (h : Half) => (s.coreUp h) && decide (s.get (B.hif h) F.HIF_STAT_LINK = 2))
      { State.reset with regs := [(0x1000004, 0x2#32)], asserted := [], up := 3 } .b = true) ∧
    ((fun (s : State) (h : Half) => (s.coreUp h) && (s.board.dlDown.testBit h.toNat))
      { State.reset with board := { State.reset.board with dlDown := 3 }, asserted := [], up := 3 } .a = true) ∧
    ((fun (s : State) (h : Half) (speed : Nat) (_ : Bool) (_ : Bool) (cable : Bool) => decide (speed < 3) && (s.outEnable h) && decide (.port h ∉ s.asserted) && decide (s.board.perst.testBit h.toNat = false) && decide (s.get (B.clk h) F.CLK_REFCFG_PCIE_REF = 1 → cable = true))
      { State.reset with regs := [(0x3F008, 0x1#32)], asserted := [], up := 3 } .a 0 false true false = true) ∧
    ((fun (s : State) (h : Half) => (s.coreUp h) && (s.bit (B.clk h) F.CLK_REFCFG_CABLE) && decide (s.get (B.hif h) F.HIF_STAT_LINK = 2))
      { State.reset with regs := [(0x1000004, 0x2#32), (0x104000C, 0x4#32)], asserted := [], up := 3 } .b = true) := by
  refine ⟨?_, ?_, ?_, ?_, ?_, ?_⟩ <;> decide +kernel

/-- A state and operands meeting the hypotheses of LanternReleaseEvents, clause by clause. -/
theorem witness_LanternReleaseEvents :
    ((fun (s : State) (h : Half) => (s.mayLeaveReset h) && decide (h = .b → s.coreUp .a = true))
      { State.reset with regs := [(0x2000004, 0x10#32)], board := { State.reset.board with chopTested := true }, asserted := [], up := 1, rails := [(0, 63), (1, 63)] } .b = true) ∧
    ((fun (s : State) (h : Half) => decide (.half h ∈ s.asserted))
      { State.reset with asserted := [.half (.b)] } .b = true) ∧
    ((fun (s : State) (h : Half) (n : Nat) => decide (.hda (hdaId h n) ∈ s.asserted) && decide (.hda (hdaId h n) ∉ s.draining))
      { State.reset with asserted := [.hda 4] } .b 0 = true) ∧
    ((fun (s : State) (h : Half) (code : Nat) => decide (.block h code ∈ s.asserted) && decide (.block h code ∉ s.draining))
      { State.reset with asserted := [.block (.a) 3] } .a 3 = true) ∧
    ((fun (_ : State) (_ : Half) (code : Nat) => decide (code < 0x40))
      { State.reset with asserted := [] } .b 0 = true) ∧
    ((fun (_ : State) (_ : Half) (n : Nat) => decide (n < 4))
      { State.reset with asserted := [] } .b 0 = true) ∧
    ((fun (s : State) (h : Half) => (s.coreUp h))
      { State.reset with asserted := [], up := 3 } .b = true) := by
  refine ⟨?_, ?_, ?_, ?_, ?_, ?_, ?_⟩ <;> decide +kernel

/-- A state and operands meeting the hypotheses of ResetRequests, clause by clause. -/
theorem witness_ResetRequests :
    ((fun (s : State) (h : Half) => (s.coreUp h) && decide (s.board.reqOpen.any (·.1 == h) = false))
      { State.reset with asserted := [], up := 3 } .b = true) ∧
    ((fun (s : State) (h : Half) (n : Nat) => decide (n < 4) && (s.coreUp h) && decide (s.board.reqOpen.any (·.1 == h) = false) && decide (s.hdaDark (hdaId h n) = false) && decide (s.owns h.other (hdaId h n) = false))
      { State.reset with asserted := [], up := 3 } .a 0 = true) ∧
    ((fun (s : State) (h : Half) (code : Nat) => decide (code < 0x28 ∨ code = 0x30) && (s.coreUp h) && decide (s.board.reqOpen.any (·.1 == h) = false) && decide (s.srcDark (.block h code) = false))
      { State.reset with asserted := [], up := 3 } .b 0 = true) ∧
    ((fun (s : State) (h : Half) (_ : Nat) (key : Nat) => (s.coreUp h) && decide (key % 256 ≠ 0x5C))
      { State.reset with asserted := [], up := 3 } .b 0 0 = true) ∧
    ((fun (s : State) (h : Half) (n : Nat) => (s.coreUp h) && decide (4 ≤ n) && decide (n < 256))
      { State.reset with asserted := [], up := 3 } .b 4 = true) := by
  refine ⟨?_, ?_, ?_, ?_, ?_⟩ <;> decide +kernel

/-- A state and operands meeting the hypotheses of PowerDomainEvents, clause by clause. -/
theorem witness_PowerDomainEvents :
    ((fun (s : State) (h : Half) (d : Nat) (us : Nat) => (domPolicy d) && (s.coreUp h) && decide (s.domState h d = 3) && decide (s.bit (polB h d) F.PWR_POL1_HOLD = false) && (s.polRun h d us false) && decide (s.polFloor h d us ≠ 3) && decide (smGet false s.waking (32 * h.toNat + d) = false) && decide (22 ≤ d → s.hdaNoGate (hdaId h (d - 22)) = 0) && decide (s.domBusy h d = false))
      { State.reset with regs := [(0x31004, 0x60050#32)], asserted := [], up := 3 } .a 1 5 = true) ∧
    ((fun (s : State) (h : Half) (d : Nat) (us : Nat) => (domPolicy d) && (s.coreUp h) && decide (s.domState h d = 2) && decide (s.bit (polB h d) F.PWR_POL1_HOLD = false) && (s.polRun h d us true) && decide (s.polFloor h d us < 2) && decide (smGet false s.waking (32 * h.toNat + d) = false) && decide (s.domBusy h d = false) && decide (s.domDeep h d (s.polFloor h d us) = (s.polFloor h d us, 0)))
      { State.reset with regs := [(0x30004, 0xAAAAA#32), (0x31050, 0x60050#32)], asserted := [], up := 3 } .a 20 68548 = true) ∧
    ((fun (s : State) (h : Half) (d : Nat) (_ : Bool) => (domPolicy d) && (s.coreUp h) && decide (s.domState h d ≠ 3))
      { State.reset with regs := [(0x30000, 0x0#32)], asserted := [], up := 3 } .a 1 false = true) ∧
    ((fun (s : State) (h : Half) (d : Nat) => decide (d < 26) && (s.coreUp h) && (smGet false s.waking (32 * h.toNat + d)))
      { State.reset with asserted := [], up := 3, waking := [(35, true)] } .b 3 = true) ∧
    ((fun (s : State) (h : Half) (d : Nat) (_ : Word) => (domPolicy d) && (s.coreUp h))
      { State.reset with asserted := [], up := 3 } .a 1 0xB7B33043#32 = true) := by
  refine ⟨?_, ?_, ?_, ?_, ?_⟩ <;> decide +kernel

/-- A state and operands meeting the hypotheses of RailMeterAndClockEvents, clause by clause. -/
theorem witness_RailMeterAndClockEvents :
    ((fun (s : State) (h : Half) (rail : Nat) => decide (rail < 6) && (s.coreUp h))
      { State.reset with asserted := [], up := 3 } .b 0 = true) ∧
    ((fun (s : State) (h : Half) (mean : Nat) => decide (1200 < mean) && (s.coreUp h))
      { State.reset with asserted := [], up := 3 } .a 9449 = true) ∧
    ((fun (s : State) (h : Half) (c : Nat) => decide (0 < c) && decide (c < 22) && (s.coreUp h) && (s.maskBit (B.clk h) F.CLK_LOCK_LOCK c))
      { State.reset with regs := [(0x1040004, 0x46A92DFD#32)], asserted := [], up := 3 } .b 2 = true) ∧
    ((fun (s : State) (h : Half) => (s.coreUp h))
      { State.reset with asserted := [], up := 3 } .b = true) ∧
    ((fun (_ : State) (_ : Half) (n : Nat) => decide (n < 4))
      { State.reset with asserted := [] } .b 0 = true) ∧
    ((fun (s : State) (_ : Half) => s.mantleUp)
      { State.reset with asserted := [] } .b = true) ∧
    ((fun (s : State) (h : Half) => s.mantleUp && (s.coreUp h))
      { State.reset with asserted := [], up := 3 } .b = true) ∧
    ((fun (s : State) (h : Half) (n : Nat) => decide (n < 8) && (s.coreUp h) && (s.board.socketClosed.testBit (8 * h.toNat + n)))
      { State.reset with board := { State.reset.board with socketClosed := 65535 }, asserted := [], up := 3 } .b 0 = true) ∧
    ((fun (s : State) (h : Half) (_ : Bool) => (s.coreUp h))
      { State.reset with asserted := [], up := 3 } .b false = true) := by
  refine ⟨?_, ?_, ?_, ?_, ?_, ?_, ?_, ?_, ?_⟩ <;> decide +kernel

/-- A state and operands meeting the hypotheses of ShockAndSnufferEvents, clause by clause. -/
theorem witness_ShockAndSnufferEvents :
    ((fun (_ : State) (_ : ShockSample) (ai : Nat) => decide (ai < 16))
      { State.reset with asserted := [] } { ayA := -872, ayB := -696 } 0 = true) ∧
    ((fun (_ : State) (_ : Half) (u : Nat) => decide (u < 8))
      { State.reset with asserted := [] } .b 0 = true) ∧
    ((fun (s : State) (h : Half) (u : Nat) (level : Nat) => decide (u < 8) && (s.coreUp h) && decide (s.shockTh (actId h u) < level))
      { State.reset with asserted := [], up := 3 } .a 0 3145744 = true) ∧
    ((fun (s : State) (h : Half) (u : Nat) (_ : Nat) => decide (u < 8) && ((s.fmt (actId h u)).pos) && decide (min1 (s.get (fmtB (actId h u)) F.FMT_SNFCFG_REARM) ≤ (s.fmt (actId h u)).cleanPos))
      { State.reset with asserted := [], fmts := [(0, { (default : Fmt) with pos := true, shock := true, implaus := true, owner := true, cleanPos := 70, cleanImplaus := 300, passed := true })] } .a 0 0 = true) ∧
    ((fun (s : State) (h : Half) (u : Nat) (peak : Nat) => decide (u < 8) && ((s.fmt (actId h u)).shock) && decide (peak ≤ s.shockTh (actId h u)))
      { State.reset with asserted := [], fmts := [(1, { (default : Fmt) with pos := true, shock := true, implaus := true, owner := true, passed := true })] } .a 1 0 = true) ∧
    ((fun (s : State) (h : Half) (u : Nat) (_ : Nat) => decide (u < 8) && ((s.fmt (actId h u)).implaus) && decide (min1 (s.get (fmtB (actId h u)) F.FMT_SNFCFG_REARM) ≤ (s.fmt (actId h u)).cleanImplaus))
      { State.reset with asserted := [], fmts := [(0, { (default : Fmt) with pos := true, shock := true, implaus := true, owner := true, cleanPos := 70, cleanImplaus := 300, passed := true })] } .a 0 0 = true) ∧
    ((fun (s : State) (h : Half) (u : Nat) (_ : Nat) => decide (u < 8) && ((s.fmt (actId h u)).owner) && (s.ownLine (actHda (actId h u))))
      { State.reset with regs := [(0x2000008, 0xAA55#32)], asserted := [], fmts := [(10, { (default : Fmt) with pos := true, shock := true, implaus := true, owner := true, passed := true })] } .b 2 0 = true) := by
  refine ⟨?_, ?_, ?_, ?_, ?_, ?_, ?_⟩ <;> decide +kernel

/-- A state and operands meeting the hypotheses of RegisterAccessCommands, clause by clause. -/
theorem witness_RegisterAccessCommands :
    ((fun (s : State) (who : Accessor) (off : Nat) (v : Word) => decide (off % 4 = 0) && decide (Accessor.isMantle who = false) && (s.coreUp (Accessor.half who)) && ((s.ownReg (Accessor.half who) off).any fun x => (s.storesOnly who x.1 x.2.1 x.2.2 v)))
      { State.reset with asserted := [], up := 3 } (.firmware (.b)) 0 0xDACCD984#32 = true) ∧
    ((fun (s : State) (who : Accessor) (off : Nat) (be : Nat) (_ : Word) => decide (off % 4 = 0) && decide (off < 0x1000000) && decide (Accessor.isMantle who = false) && (s.coreUp (Accessor.half who)) && decide (be < 15))
      { State.reset with asserted := [], up := 3 } (.firmware (.b)) 0 0 0xFCEF9737#32 = true) ∧
    ((fun (s : State) (who : Accessor) (off : Nat) => decide (off % 4 = 0) && decide (Accessor.isMantle who = false) && (s.coreUp (Accessor.half who)) && ((s.ownReg (Accessor.half who) off).any fun x => ((freeWord x.1).isNone)))
      { State.reset with asserted := [], up := 3 } (.firmware (.b)) 0 = true) ∧
    ((fun (s : State) (who : Accessor) (off : Nat) (_ : Bool) => decide (off % 4 = 0) && decide (off < 0x1000000) && decide (Accessor.isMantle who = false) && (s.coreUp (Accessor.half who)) && decide (s.reach (Accessor.half who) off = .nothing (Accessor.half who) F.HIF_ACCSTAT_STRAY))
      { State.reset with asserted := [], up := 3 } (.port (.b)) 7895004 true = true) ∧
    ((fun (s : State) (h : Half) (off : Nat) (_ : Word) => decide (off % 4 = 0) && s.mantleServes && ((s.mntReg h off).any fun x => decide (x.2.2.mnt ≠ 0) && decide (x.1.blk ≠ .mot)))
      { State.reset with board := { State.reset.board with auxGood := true }, asserted := [], up := 3 } .b 5181488 0x42049128#32 = true) ∧
    ((fun (s : State) (h : Half) (c : Nat) => (s.coreUp h) && s.regsWf && decide (c < 4096))
      { State.reset with asserted := [], up := 3 } .b 0 = true) := by
  refine ⟨?_, ?_, ?_, ?_, ?_, ?_⟩ <;> decide +kernel

/-- A state and operands meeting the hypotheses of HarnessPresenceAndIdentity, clause by clause. -/
theorem witness_HarnessPresenceAndIdentity :
    ((fun (s : State) (h : Half) (n : Nat) => decide (n < 4) && (s.hdaUp (hdaId h n)) && decide (s.hdaDark (hdaId h n) = false) && decide (s.domState h (22 + n) ≠ 0) && decide (s.portState (hdaId h n) = 0))
      { State.reset with asserted := [], up := 3 } .b 0 = true) ∧
    ((fun (s : State) (h : Half) (n : Nat) (_ : Nat) => decide (n < 4) && (s.hdaUp (hdaId h n)) && decide (s.hdaDark (hdaId h n) = false) && decide (2 ≤ s.portState (hdaId h n)))
      { State.reset with regs := [(0x220004, 0x408#32)], asserted := [], up := 3 } .a 2 0 = true) ∧
    ((fun (s : State) (h : Half) (n : Nat) => decide (n < 4) && decide (s.portState (hdaId h n) = 1) && (s.seated (hdaId h n)))
      { State.reset with regs := [(0x1230004, 0x108#32)], board := { State.reset.board with pins := 65535 }, asserted := [] } .b 3 = true) ∧
    ((fun (s : State) (h : Half) (n : Nat) => decide (n < 4) && decide (s.portState (hdaId h n) = 2) && ((s.port (hdaId h n)).supply))
      { State.reset with regs := [(0x200004, 0x208#32)], asserted := [], ports := [(0, { (default : Grz) with supply := true })] } .a 0 = true) ∧
    ((fun (s : State) (h : Half) (n : Nat) (bytes : List Byte) => decide (n < 4) && decide (s.portState (hdaId h n) = 2) && ((s.port (hdaId h n)).eeprom) && decide (identCrcOk bytes = false))
      { State.reset with regs := [(0x200004, 0x208#32)], asserted := [], ports := [(0, { (default : Grz) with supply := true, eeprom := true })] } .a 0 [0xAF#8, 0xBB#8, 0xA#8] = true) ∧
    ((fun (s : State) (h : Half) (n : Nat) (a : Nat) (bytes : List Byte) => decide (n < 4) && decide (a < 2) && decide (s.portState (hdaId h n) = 2) && ((s.port (hdaId h n)).eeprom) && (identCrcOk bytes) && (identFieldsOk bytes) && decide ((s.pa (2 * hdaId h n + a)).cur = none) && decide ((s.pa (2 * hdaId h n + a)).queue = []))
      { State.reset with regs := [(0x200004, 0x208#32)], asserted := [], ports := [(0, { (default : Grz) with supply := true, eeprom := true })] } .a 0 0 ([0x47#8, 0x52#8, 0x5A#8, 0x4E#8, 0x1#8] ++ List.replicate 67 0x0#8 ++ [0x8#8, 0x10#8, 0x2#8, 0xC#8, 0x20#8, 0x1C#8] ++ List.replicate 24 0x0#8 ++ [0x11#8] ++ List.replicate 917 0x0#8 ++ [0x57#8, 0x7B#8, 0x64#8, 0xC4#8]) = true) ∧
    ((fun (s : State) (h : Half) (n : Nat) => decide (n < 4) && decide (3 ≤ s.portState (hdaId h n)) && decide (s.portState (hdaId h n) ≤ 5))
      { State.reset with regs := [(0x220004, 0x408#32)], asserted := [] } .a 2 = true) ∧
    ((fun (s : State) (h : Half) (n : Nat) => decide (n < 4) && decide (s.portState (hdaId h n) = 4))
      { State.reset with regs := [(0x220004, 0x408#32)], asserted := [] } .a 2 = true) ∧
    ((fun (s : State) (h : Half) (n : Nat) (mode : Nat) => decide (n < 4) && decide (mode = 1 ∨ mode = 2) && decide (s.portState (hdaId h n) = 5) && (s.seated (hdaId h n)))
      { State.reset with regs := [(0x200004, 0x508#32)], board := { State.reset.board with pins := 65535 }, asserted := [] } .a 0 1 = true) := by
  refine ⟨?_, ?_, ?_, ?_, ?_, ?_, ?_, ?_, ?_⟩ <;> decide +kernel

/-- A state and operands meeting the hypotheses of PreampFramesAndFaults, clause by clause. -/
theorem witness_PreampFramesAndFaults :
    ((fun (s : State) (h : Half) (u : Nat) (resp : PaResp) => decide (u < 8) && (((s.pa (actId h u)).cur).any fun f => decide (f.owner = .wick) && decide ((s.pa (actId h u)).queue = []) && decide (frameAddr f.bits = 2 → s.frameHeld (actId h u) f.bits = false) && (respOk f.bits resp)))
      { State.reset with asserted := [], preamps := [(8, { (default : Preamp) with cur := some { (default : BusFrame) with bits := 0x1C#24 }, maZero := true })] } .b 0 (.ack true) = true) ∧
    ((fun (s : State) (h : Half) (u : Nat) (resp : PaResp) => decide (u < 8) && (((s.pa (actId h u)).cur).any fun f => decide (f.repeated = false) && decide (respOk f.bits resp = false) && (s.frameReady (actId h u) f) && decide (gateFrame f.bits = true → s.ownLine (actHda (actId h u)) = true)))
      { State.reset with asserted := [], preamps := [(9, { (default : Preamp) with cur := some { (default : BusFrame) with owner := .software, bits := 0x31#24 }, maZero := true })] } .b 1 (.data 0x76CF#16 0xEF#8) = true) ∧
    ((fun (s : State) (h : Half) (n : Nat) (a : Nat) => decide (n < 4) && decide (a < 2) && decide ((s.pa (2 * hdaId h n + a)).cur = none) && decide ((s.pa (2 * hdaId h n + a)).queue = []) && decide (s.frameHeld (2 * hdaId h n + a) (s.softBits h n) = false) && decide (a = 1 → (s.port (hdaId h n)).second = false) && decide (gateFrame (s.softBits h n) = true → s.ownLine (hdaId h n) = true))
      { State.reset with asserted := [] } .a 0 0 = true) ∧
    ((fun (s : State) (h : Half) (n : Nat) (_ : Bool) => decide (n < 4) && ((s.port (hdaId h n)).supply))
      { State.reset with asserted := [], ports := [(2, { (default : Grz) with supply := true })] } .a 2 true = true) ∧
    ((fun (s : State) (h : Half) (u : Nat) (fault : Nat) => decide (u < 8) && decide (fault < 256) && decide (fault % 128 ≠ 0) && ((s.port (actHda (actId h u))).supply))
      { State.reset with asserted := [], ports := [(1, { (default : Grz) with supply := true })] } .a 2 1 = true) ∧
    ((fun (s : State) (h : Half) (u : Nat) (fault : Nat) => decide (u < 8) && decide (fault < 256) && ((s.pa (actId h u)).persistDue))
      { State.reset with asserted := [], preamps := [(9, { (default : Preamp) with firstFault := 255, persistDue := true, maZero := true })] } .b 1 0 = true) := by
  refine ⟨?_, ?_, ?_, ?_, ?_, ?_⟩ <;> decide +kernel

/-- A state and operands meeting the hypotheses of ChannelReadGates, clause by clause. -/
theorem witness_ChannelReadGates :
    ((fun (s : State) (h : Half) (n : Nat) => decide (n < 32) && (s.chOn (chId h n)) && (s.rgPin (chAct (chId h n)) (chSlot (chId h n))) && decide ((s.pa (chAct (chId h n))).sg = false) && decide (s.chState (chId h n) = 0) && (s.rateOk (chId h n)))
      { State.reset with regs := [(0x120000C, 0xF0F0#32), (0x1660000, 0x39#32), (0x1660004, 0x70000000#32)], asserted := [], up := 3, wicks := [(9, { (default : Wick) with rg := 15, desc := some { (default : Desc) with kind := 1, band := 200, zone := 3, mask := 15, first := 4, count := 9, nw := 80 } })] } .b 6 = true) ∧
    ((fun (s : State) (h : Half) (n : Nat) => decide (n < 32) && (s.chOn (chId h n)) && (s.rgPin (chAct (chId h n)) (chSlot (chId h n))) && decide ((s.pa (chAct (chId h n))).sg = false) && decide (s.chState (chId h n) = 4) && (((s.rch (chId h n)).secs.getLast?).any fun x => x.live && decide (x.phase = 0)))
      { State.reset with regs := [(0x22000C, 0xF0F0#32), (0x700000, 0x39#32), (0x700004, 0x70000004#32)], asserted := [], up := 3, wicks := [(4, { (default : Wick) with rg := 15, desc := some { (default : Desc) with kind := 1, band := 200, zone := 3, mask := 15, first := 4, count := 9, nw := 80 } })], rchs := [(16, { (default : Rch) with secs := [{ (default : ChSector) with frame := some 5, desc := { (default : Desc) with kind := 1, band := 200, zone := 3, mask := 15, first := 4, count := 9, nw := 80 }, live := true, inMem := true, dists := [(384, 3), (385, 2)], p0 := 384, tried := [(384, 0)] }] })] } .a 16 = true) ∧
    ((fun (s : State) (h : Half) (n : Nat) (_ : Int) (_ : List Int) => decide (n < 32) && decide ((s.rch (chId h n)).secs ≠ []) && decide (s.chState (chId h n) = 1))
      { State.reset with regs := [(0x1700004, 0x70000001#32)], asserted := [], rchs := [(48, { (default : Rch) with secs := [{ (default : ChSector) with frame := some 5, desc := { (default : Desc) with kind := 1, band := 200, zone := 3, mask := 15, first := 4, count := 9, nw := 80 }, live := true, inMem := true, dists := [(384, 3), (385, 2)], p0 := 384, tried := [(384, 0)] }] })] } .b 16 (-15) [801, 448, 99] = true) ∧
    ((fun (s : State) (h : Half) (n : Nat) (_ : BitVec 160) (_ : Nat) (_ : List Int) => decide (n < 32) && decide (s.chState (chId h n) = 2) && (((s.rch (chId h n)).secs.getLast?).any fun x => decide (x.lockBad = false)))
      { State.reset with regs := [(0x1610004, 0x70000002#32)], asserted := [], rchs := [(33, { (default : Rch) with secs := [{ (default : ChSector) with frame := some 5, desc := { (default : Desc) with kind := 1, band := 200, zone := 3, mask := 15, first := 4, count := 9, nw := 80 }, live := true, inMem := true, dists := [(384, 3), (385, 2)], p0 := 384, tried := [(384, 0)] }, { (default : ChSector) with frame := some 5, desc := { (default : Desc) with kind := 1, band := 200, zone := 3, mask := 15, first := 4, count := 9, nw := 80 }, live := true, inMem := true, dists := [(384, 3), (385, 2)], p0 := 384, tried := [(384, 0)] }] })] } .b 1 0x9B5AF62E3188A7207#160 0 [-861, -486, 227] = true) ∧
    ((fun (s : State) (h : Half) (n : Nat) (_ : List Int) => decide (n < 32) && decide ((s.rch (chId h n)).secs ≠ []) && decide (s.chState (chId h n) = 3))
      { State.reset with regs := [(0x1640004, 0x70000003#32)], asserted := [], rchs := [(36, { (default : Rch) with secs := [{ (default : ChSector) with frame := some 5, desc := { (default : Desc) with kind := 1, band := 200, zone := 3, mask := 15, first := 4, count := 9, nw := 80 }, live := true, inMem := true, dists := [(384, 3), (385, 2)], p0 := 384, phase := 5, tried := [(384, 0)] }, { (default : ChSector) with frame := some 5, desc := { (default : Desc) with kind := 1, band := 200, zone := 3, mask := 15, first := 4, count := 9, nw := 80 }, live := true, inMem := true, dists := [(384, 3), (385, 2)], p0 := 384, phase := 1, tried := [(384, 0)] }] })] } .b 4 [258, -401, 0] = true) ∧
    ((fun (s : State) (h : Half) (n : Nat) (_ : Int) (_ : BitVec 94) (_ : List Int) => decide (n < 32) && decide ((s.rch (chId h n)).secs ≠ []) && decide (s.chState (chId h n) = 5))
      { State.reset with regs := [(0x700004, 0x70000005#32)], asserted := [], rchs := [(16, { (default : Rch) with secs := [{ (default : ChSector) with frame := some 5, desc := { (default : Desc) with kind := 1, band := 200, zone := 3, mask := 15, first := 4, count := 9, nw := 80 }, live := true, inMem := true, dists := [(384, 3), (385, 2)], p0 := 384, tried := [(384, 0)] }, { (default : ChSector) with frame := some 5, desc := { (default : Desc) with kind := 1, band := 200, zone := 3, mask := 15, first := 4, count := 9, nw := 80 }, live := true, inMem := true, dists := [(384, 3), (385, 2)], p0 := 384, tried := [(384, 0)] }] })] } .a 16 294 0x1DA8279513FCEF9737#94 [] = true) ∧
    ((fun (s : State) (h : Half) (n : Nat) (amp0 : Nat) (_ : Nat) (_ : List Int) => decide (n < 32) && decide (s.chState (chId h n) = 3) && decide (s.rgPin (chAct (chId h n)) (chSlot (chId h n)) = false) && (((s.rch (chId h n)).secs.getLast?).any fun x => decide (x.phase = 0) && x.frame.isSome && decide (s.get (chB (chId h n)) F.RCH_ADAPT_DROP_LVL ≤ amp0)))
      { State.reset with regs := [(0x600004, 0x70000003#32)], asserted := [], rchs := [(0, { (default : Rch) with secs := [{ (default : ChSector) with frame := some 5, desc := { (default : Desc) with kind := 1, band := 200, zone := 3, mask := 15, first := 4, count := 9, nw := 80 }, live := true, inMem := true, dists := [(384, 3), (385, 2)], p0 := 384, tried := [(384, 0)] }] })] } .a 0 4 0 [866] = true) ∧
    ((fun (s : State) (h : Half) (u : Nat) => decide (u < 8) && (s.wckUp (actId h u)) && decide (s.get (wckB (actId h u)) F.WCK_SGCFG_SG_ON < s.get (wckB (actId h u)) F.WCK_SGCFG_SG_OFF) && (s.outEnable h) && (s.ownLine (actHda (actId h u))))
      { State.reset with regs := [(0x3F008, 0x1#32), (0x2000008, 0xAA55#32)], asserted := [], up := 3 } .a 0 = true) ∧
    ((fun (s : State) (h : Half) (u : Nat) (k : Nat) => decide (u < 8) && decide (k < 4) && ((s.pa (actId h u)).sg))
      { State.reset with asserted := [], preamps := [(10, { (default : Preamp) with maZero := true, sg := true })] } .b 2 0 = true) := by
  refine ⟨?_, ?_, ?_, ?_, ?_, ?_, ?_, ?_, ?_⟩ <;> decide +kernel

/-- A state and operands meeting the hypotheses of ChannelDecodes, clause by clause. -/
theorem witness_ChannelDecodes :
    (((secPhase 1).secIn (chId .b 4) 1).isSome = true ∧ converged (iterMax ((secPhase 1).get (chB 36) F.RCH_ITER_OTF_MAX)) 0 (some 0#39936) = some 0#39936) ∧
    ((fun (s : State) (h : Half) (n : Nat) => decide (n < 32) && ((s.secIn (chId h n) 1).any fun x => x.2.inMem && !x.2.nextDone && (s.bit (chB (chId h n)) F.RCH_CTL_REALIGN) &&
      (nextHypothesis (s.get (chB (chId h n)) F.RCH_SYNCCFG_THRESH) (s.get (chB (chId h n)) F.RCH_SYNCCFG_MAX_HYP)
        { x.2 with failed := x.2.failed ++ [x.2.p0] }).isSome))
      (secPhase 1) .b 4 = true) ∧
    ((fun (s : State) (h : Half) (n : Nat) => decide (n < 32) &&
      ((s.secWhere (chId h n) (fun x => x.phase == 2 || (x.phase == 3 && x.next.isSome && !x.nextDone))).any fun x => decide (x.2.next = some (385, 0))))
      (secNext 3) .b 4 = true) ∧
    ((fun (s : State) (h : Half) (n : Nat) (_ : Nat) (_ : Option (BitVec 39936)) => decide (n < 32) && ((s.secIn (chId h n) 1).isSome))
      { State.reset with asserted := [], rchs := [(36, { (default : Rch) with secs := [{ (default : ChSector) with frame := some 5, desc := { (default : Desc) with kind := 1, band := 200, zone := 3, mask := 15, first := 4, count := 9, nw := 80 }, live := true, inMem := true, dists := [(384, 3), (385, 2)], p0 := 384, phase := 5, tried := [(384, 0)] }, { (default : ChSector) with frame := some 5, desc := { (default : Desc) with kind := 1, band := 200, zone := 3, mask := 15, first := 4, count := 9, nw := 80 }, live := true, inMem := true, dists := [(384, 3), (385, 2)], p0 := 384, phase := 1, tried := [(384, 0)] }] })] } .b 4 0 (some 0x0#39936) = true) ∧
    ((secPhase 3).secIn (chId .b 4) 1 = none ∧ ((secPhase 3).secIn (chId .b 4) 3).isSome = true ∧ converged (iterMax ((secPhase 3).get (chB 36) F.RCH_ITER_OTF_MAX)) 0 (some 0#39936) = some 0#39936) ∧
    (((secPhase 4).secIn (chId .b 4) 4).isSome = true ∧ converged 20 0 (some 0#39936) = some 0#39936) ∧
    ((fun (s : State) (h : Half) (n : Nat) (_ : Nat) => decide (n < 32) && ((s.secIn (chId h n) 4).any fun x => decide (x.2.round + 1 < recRounds (s.get (chB (chId h n)) F.RCH_ITER_REC_ROUNDS))))
      { State.reset with asserted := [], rchs := [(0, { (default : Rch) with secs := [{ (default : ChSector) with frame := some 5, desc := { (default : Desc) with kind := 1, band := 200, zone := 3, mask := 15, first := 4, count := 9, nw := 80 }, live := true, inMem := true, dists := [(384, 3), (385, 2)], p0 := 384, phase := 3, tried := [(384, 0), (385, 1)] }, { (default : ChSector) with frame := some 5, desc := { (default : Desc) with kind := 1, band := 200, zone := 3, mask := 15, first := 4, count := 9, nw := 80 }, live := true, inMem := true, dists := [(384, 3), (385, 2)], p0 := 384, phase := 4, tried := [(384, 0)] }] })] } .a 0 0 = true) := by
  refine ⟨⟨by decide +kernel, converged_zero (Nat.zero_le _)⟩, ?_, ?_, ?_, ⟨by decide +kernel, by decide +kernel, converged_zero (Nat.zero_le _)⟩, ⟨by decide +kernel, converged_zero (Nat.zero_le _)⟩, ?_⟩ <;> decide +kernel

/-- A state and operands meeting the hypotheses of ChannelVerifyAndControl, clause by clause. -/
theorem witness_ChannelVerifyAndControl :
    ((fun (s : State) (h : Half) (n : Nat) => decide (n < 32) && ((s.writingGroup (chAct (chId h n))).any fun g => (s.chOn (chId h n)) && decide (s.chState (chId h n) = 0) && (s.verifyReader (chAct (chId h n)) (4 * g + chSlot (chId h n))) && (s.rateOk (chId h n))))
      { State.reset with regs := [(0x3F008, 0x1#32), (0x20000C, 0xF0F0#32), (0x202064, 0xFFFFFFFF#32), (0x600000, 0x39#32), (0x600004, 0x70000000#32), (0x2000008, 0xAA55#32)], asserted := [], up := 3, wicks := [(0, { (default : Wick) with wg := true, desc := some { (default : Desc) with kind := 1, band := 200, zone := 3, mask := 15, first := 4, count := 9, nw := 80 } })] } .a 0 = true) ∧
    ((fun (s : State) (h : Half) (n : Nat) (frame : Nat) (_ : BitVec 160) (_ : Nat) => decide (n < 32) && ((s.wick (chAct (chId h n))).desc.isSome) && decide (s.chState (chId h n) = 7) && decide (((s.fmt (chAct (chId h n))).op.map (·.ues)).getD [] = []) && ((smGet 0 (s.wick (chAct (chId h n))).open_ frame).testBit (chSlot (chId h n))))
      { State.reset with regs := [(0x1620004, 0x70000007#32)], asserted := [], wicks := [(8, { (default : Wick) with wg := true, open_ := [(3, 15), (1, 15)], desc := some { (default : Desc) with kind := 1, band := 200, zone := 3, mask := 15, first := 4, count := 9, nw := 80 } })] } .b 2 1 0x28B3690AB9DFE8C49C#160 0 = true) ∧
    ((fun (_ : State) (_ : Half) (n : Nat) => decide (n < 32))
      { State.reset with asserted := [] } .b 0 = true) ∧
    ((fun (_ : State) (_ : Half) (n : Nat) (readers : Nat) => decide (n < 32) && decide (readers < 4))
      { State.reset with asserted := [] } .b 0 0 = true) ∧
    ((fun (s : State) (h : Half) (n : Nat) (_ : Bool) => decide (n < 32) && decide (s.chBusy (chId h n) = false))
      { State.reset with asserted := [] } .b 0 true = true) ∧
    ((fun (s : State) (h : Half) (n : Nat) => decide (n < 32) && (s.bit (chB (chId h n)) F.RCH_SMCTL_FREEZE) && decide ((s.wick (chAct (chId h n))).desc = none) && decide (s.chBusy (chId h n) = false))
      { State.reset with regs := [(0x620024, 0x1#32)], asserted := [] } .a 2 = true) := by
  refine ⟨?_, ?_, ?_, ?_, ?_, ?_⟩ <;> decide +kernel

/-- A state and operands meeting the hypotheses of FormatterControl, clause by clause. -/
theorem witness_FormatterControl :
    ((fun (s : State) (h : Half) (u : Nat) => decide (u < 8) && (((s.wick (actId h u)).desc).any fun d => decide (d.kind < 6) && ((s.srv (actId h u)).alarm) && ((s.fmt (actId h u)).op.isSome) && decide ((s.wick (actId h u)).abort = none) && decide ((s.wick (actId h u)).aborting = false) && decide ((s.fmt (actId h u)).splitting = false)))
      { State.reset with asserted := [], wicks := [(0, { (default : Wick) with desc := some { (default : Desc) with kind := 1, band := 200, zone := 3, mask := 15, first := 4, count := 9, nw := 80 } })], fmts := [(0, { (default : Fmt) with op := some { (default : FmtOp) with req := { (default : FmtReq) with band := 200, stripe := 3, count := 2 } }, passed := true })], srvs := [(0, { (default : Srv) with alarm := true })] } .a 0 = true) ∧
    ((fun (_ : State) (_ : Half) (u : Nat) => decide (u < 8))
      { State.reset with asserted := [] } .b 0 = true) ∧
    ((fun (s : State) (h : Half) (u : Nat) => decide (u < 8) && (s.bit (spnB (actHda (actId h u))) F.SPN_CTL_EMBER) && decide (s.gateHigh (actId h u) = false) && ((s.port (actHda (actId h u))).supply) && decide (s.get (spnB (actHda (actId h u))) F.SPN_SPEED_RPM / 64 ≥ (s.fmt (actId h u)).heaterRpm + 100))
      { State.reset with regs := [(0x300000, 0x8#32), (0x300010, 0x4E20#32)], asserted := [], ports := [(0, { (default : Grz) with supply := true })] } .a 0 = true) ∧
    ((fun (_ : State) (_ : Half) (u : Nat) => decide (u < 8))
      { State.reset with asserted := [] } .b 0 = true) ∧
    ((fun (_ : State) (_ : Half) (u : Nat) (addr : Nat) => decide (u < 8) && decide (addr < 2 ^ 42))
      { State.reset with asserted := [] } .b 0 0 = true) ∧
    ((fun (_ : State) (_ : Half) (u : Nat) (addr : Nat) => decide (u < 8) && decide (addr < 2 ^ 42))
      { State.reset with asserted := [] } .b 0 0 = true) := by
  refine ⟨?_, ?_, ?_, ?_, ?_, ?_⟩ <;> decide +kernel

/-- A state and operands meeting the hypotheses of FormatterPasses, clause by clause. -/
theorem witness_FormatterPasses :
    ((fun (s : State) (h : Half) (u : Nat) => decide (u < 8) && (((s.fmt (actId h u)).op).any fun op => (s.passReady (actId h u) op) && (op.isRead 0)))
      { State.reset with regs := [(0x1230004, 0x408#32), (0x123000C, 0xF0F0#32), (0x14E0000, 0x1#32), (0x1560000, 0x283F#32)], asserted := [], up := 3, fmts := [(14, { (default : Fmt) with op := some { (default : FmtOp) with req := { (default : FmtReq) with band := 200, stripe := 3, count := 2 } }, passed := true })] } .b 6 = true) ∧
    ((fun (s : State) (h : Half) (u : Nat) => decide (u < 8) && (((s.fmt (actId h u)).op).any fun op => (s.passReady (actId h u) op) && (op.isRead 2)))
      { State.reset with regs := [(0x1200004, 0x408#32), (0x120000C, 0xF0F0#32), (0x1490000, 0x1#32), (0x1510000, 0x283F#32)], asserted := [], up := 3, fmts := [(9, { (default : Fmt) with op := some { (default : FmtOp) with req := { (default : FmtReq) with kind := 2, band := 200, stripe := 3, count := 2 } }, passed := true })] } .b 1 = true) ∧
    ((fun (s : State) (h : Half) (u : Nat) => decide (u < 8) && (((s.fmt (actId h u)).op).any fun op => (s.passReady (actId h u) op) && (op.isRead 5)))
      { State.reset with regs := [(0x200004, 0x408#32), (0x20000C, 0xF0F0#32), (0x490000, 0x1#32), (0x510000, 0x283F#32)], asserted := [], up := 3, fmts := [(1, { (default : Fmt) with op := some { (default : FmtOp) with req := { (default : FmtReq) with kind := 5, band := 200, stripe := 3, count := 2 } }, passed := true })] } .a 1 = true) ∧
    ((fun (s : State) (h : Half) (u : Nat) => decide (u < 8) && (((s.fmt (actId h u)).op).any fun op => (s.passReady (actId h u) op) && decide (0 < op.retries)))
      { State.reset with regs := [(0x200004, 0x408#32), (0x20000C, 0xF0F0#32), (0x490000, 0x1#32), (0x510000, 0x283F#32)], asserted := [], up := 3, fmts := [(1, { (default : Fmt) with op := some { (default : FmtOp) with req := { (default : FmtReq) with band := 200, stripe := 3, count := 2 }, retries := 1 }, passed := true })] } .a 1 = true) ∧
    ((fun (s : State) (h : Half) (u : Nat) (_ : List (Nat × Nat)) => decide (u < 8) && (((s.fmt (actId h u)).op).any fun op => (s.passReady (actId h u) op) && (s.writeReady (actId h u)) && decide (op.entry = none) && decide (op.req.kind = 1)))
      { State.reset with regs := [(0x1210004, 0x408#32), (0x121000C, 0xF0F0#32), (0x14B0000, 0x1#32), (0x1530000, 0x283F#32)], asserted := [], up := 3, fmts := [(11, { (default : Fmt) with op := some { (default : FmtOp) with req := { (default : FmtReq) with kind := 1, band := 200, stripe := 3, count := 2 } }, passed := true })] } .b 3 [(1, 1), (10, 9), (6, 28)] = true) ∧
    ((fun (s : State) (h : Half) (u : Nat) => decide (u < 8) && (((s.fmt (actId h u)).op).any fun op => (s.passReady (actId h u) op) && op.entry.isSome && decide (op.retries = 0) && decide ((s.fmt (actId h u)).snuffedNow = false) && (s.ownLine (actHda (actId h u)))))
      { State.reset with regs := [(0x200004, 0x408#32), (0x20000C, 0xF0F0#32), (0x490000, 0x1#32), (0x510000, 0x283F#32), (0x2000008, 0xAA55#32)], asserted := [], up := 3, fmts := [(1, { (default : Fmt) with op := some { (default : FmtOp) with req := { (default : FmtReq) with kind := 3, band := 200, stripe := 3, count := 2 }, entry := some { (default : RwqEntry) with band := 200, stripe := 3, mask := 15 } }, passed := true })] } .a 1 = true) ∧
    ((fun (s : State) (h : Half) (u : Nat) (band : Nat) => decide (u < 8) && (s.handReady (actId h u)) && decide ((s.fmt (actId h u)).op = none) && decide (s.wckState (actId h u) ≠ 3) && decide (bandRetired (s.batRd (actId h u)) (s.defects (actId h u)) band (s.ackGroup (actId h u)) = false))
      { State.reset with regs := [(0x1200004, 0x408#32), (0x1480000, 0x1#32), (0x1500000, 0x283F#32)], asserted := [], up := 3 } .b 0 0 = true) ∧
    ((fun (s : State) (h : Half) (u : Nat) => decide (u < 8) && (s.handReady (actId h u)) && decide ((s.fmt (actId h u)).op = none) && decide (s.wckState (actId h u) ≠ 3) && decide (bandRetired (s.batRd (actId h u)) (s.defects (actId h u)) 0 (s.ackGroup (actId h u)) = false))
      { State.reset with regs := [(0x1200004, 0x408#32), (0x1480000, 0x1#32), (0x1500000, 0x283F#32)], asserted := [], up := 3 } .b 0 = true) := by
  refine ⟨?_, ?_, ?_, ?_, ?_, ?_, ?_, ?_⟩ <;> decide +kernel

/-- A state and operands meeting the hypotheses of WickControlWords, clause by clause. -/
theorem witness_WickControlWords :
    ((fun (s : State) (h : Half) (u : Nat) (cond : Nat) => decide (u < 8) && (s.executes (actId h u) cond .nop) && (s.fetchOk (actId h u) (s.wckPc (actId h u) + 1)))
      { State.reset with asserted := [], up := 3 } .a 0 0 = true) ∧
    ((fun (s : State) (h : Half) (u : Nat) (cond : Nat) (target : Nat) => decide (u < 8) && (s.executes (actId h u) cond (.jmp target)) && (s.fetchOk (actId h u) target))
      { State.reset with asserted := [], up := 3 } .a 0 0 0 = true) ∧
    ((fun (s : State) (h : Half) (u : Nat) (cond : Nat) (target : Nat) => decide (u < 8) && (s.executes (actId h u) cond (.call target)) && (s.fetchOk (actId h u) target) && decide ((s.wick (actId h u)).stack.length < 8))
      { State.reset with asserted := [], up := 3 } .a 0 0 0 = true) ∧
    ((fun (s : State) (h : Half) (u : Nat) (cond : Nat) => decide (u < 8) && (s.executes (actId h u) cond .ret) && decide ((s.wick (actId h u)).stack ≠ []) && (s.fetchOk (actId h u) ((s.wick (actId h u)).stack.headD 0)))
      { State.reset with asserted := [], up := 3, wicks := [(8, { (default : Wick) with stack := [1, 2, 3, 4, 5, 6, 7, 8], desc := some { (default : Desc) with kind := 1, band := 200, zone := 3, mask := 15, first := 4, count := 9, nw := 80 } })] } .b 0 0 = true) ∧
    ((fun (s : State) (h : Half) (u : Nat) (cond : Nat) (xd : Nat) (target : Nat) => decide (u < 8) && (s.executes (actId h u) cond (.loop xd target)) && (s.fetchOk (actId h u) (if s.loopLeft (actId h u) xd = 0 then s.wckPc (actId h u) + 1 else target)))
      { State.reset with asserted := [], up := 3 } .a 0 0 0 0 = true) ∧
    ((fun (s : State) (h : Half) (u : Nat) (cond : Nat) (target : Nat) => decide (u < 8) && (s.fetched (actId h u) cond (.jmp target)) && decide (s.wickCond (actId h u) cond = false) && (s.fetchOk (actId h u) (s.wckPc (actId h u) + 1)))
      { State.reset with asserted := [], up := 3 } .b 0 1 0 = true) := by
  refine ⟨?_, ?_, ?_, ?_, ?_, ?_⟩ <;> decide +kernel

/-- A state and operands meeting the hypotheses of WickArithmeticWords, clause by clause. -/
theorem witness_WickArithmeticWords :
    ((fun (s : State) (h : Half) (u : Nat) (cond : Nat) (xd : Nat) (imm : Nat) => decide (u < 8) && (s.executes (actId h u) cond (.ldi xd imm)) && (s.fetchOk (actId h u) (s.wckPc (actId h u) + 1)))
      { State.reset with asserted := [], up := 3 } .a 0 0 0 0 = true) ∧
    ((fun (s : State) (h : Half) (u : Nat) (cond : Nat) (xd : Nat) (imm : Nat) => decide (u < 8) && decide (imm < 2 ^ 21) && (s.executes (actId h u) cond (.addi xd imm)) && (s.fetchOk (actId h u) (s.wckPc (actId h u) + 1)))
      { State.reset with asserted := [], up := 3 } .a 0 0 0 0 = true) ∧
    ((fun (s : State) (h : Half) (u : Nat) (cond : Nat) (xd : Nat) (xs : Nat) (fn : Nat) => decide (u < 8) && (s.executes (actId h u) cond (.alu xd xs fn)) && (s.fetchOk (actId h u) (s.wckPc (actId h u) + 1)))
      { State.reset with asserted := [], up := 3 } .a 0 0 0 0 0 = true) ∧
    ((fun (s : State) (h : Half) (u : Nat) (cond : Nat) (xd : Nat) (fld : Nat) => decide (u < 8) && (((s.wick (actId h u)).desc).any fun _ => (s.executes (actId h u) cond (.ldop xd fld)) && (s.fetchOk (actId h u) (s.wckPc (actId h u) + 1))))
      { State.reset with asserted := [], up := 3, wicks := [(0, { (default : Wick) with tags := [{ (default : TagEntry) with frame := 1, write := true }], edges := [{ (default : EdgeEntry) with wg := true, rg := 1, pos := 5 }, { (default : EdgeEntry) with rg := 2, pos := 9 }], desc := some { (default : Desc) with kind := 1, band := 200, zone := 3, mask := 15, first := 4, count := 9, nw := 80 } })] } .a 0 0 0 0 = true) ∧
    ((fun (s : State) (h : Half) (u : Nat) (cond : Nat) (xs : Nat) => decide (u < 8) && (((s.wick (actId h u)).desc).any fun d => (s.executes (actId h u) cond (.loc xs)) && decide ((s.wick (actId h u)).reg xs < zS d.zone) && (s.fetchOk (actId h u) (s.wckPc (actId h u) + 1))))
      { State.reset with asserted := [], up := 3, wicks := [(0, { (default : Wick) with tags := [{ (default : TagEntry) with frame := 1, write := true }], edges := [{ (default : EdgeEntry) with wg := true, rg := 1, pos := 5 }, { (default : EdgeEntry) with rg := 2, pos := 9 }], desc := some { (default : Desc) with kind := 1, band := 200, zone := 3, mask := 15, first := 4, count := 9, nw := 80 } })] } .a 0 0 0 = true) := by
  refine ⟨?_, ?_, ?_, ?_, ?_⟩ <;> decide +kernel

/-- A state and operands meeting the hypotheses of WickRotationWords, clause by clause. -/
theorem witness_WickRotationWords :
    ((fun (s : State) (h : Half) (u : Nat) (cond : Nat) (xs : Nat) => decide (u < 8) && (s.executes (actId h u) cond (.wwed xs)))
      { State.reset with asserted := [], up := 3 } .a 0 0 0 = true) ∧
    ((fun (s : State) (h : Half) (u : Nat) (cond : Nat) (pos : Nat) (base : Bool) (_ : Place) => decide (u < 8) && (s.executes (actId h u) cond (.wsym base pos)) && (s.fetchOk (actId h u) (s.wckPc (actId h u) + 1)))
      { State.reset with asserted := [], up := 3 } .a 0 0 0 false { (default : Place) with wedge := 1, sym := 539 } = true) ∧
    ((fun (s : State) (h : Half) (u : Nat) (cond : Nat) (pos : Nat) (rg : Nat) (base : Bool) (wg : Bool) (_ : Place) => decide (u < 8) && (((s.wick (actId h u)).desc).any fun _ => (s.executes (actId h u) cond (.edge base wg rg pos)) && (s.fetchOk (actId h u) (s.wckPc (actId h u) + 1)) && decide ((s.wick (actId h u)).edges.length < 4)))
      { State.reset with asserted := [], up := 3, wicks := [(0, { (default : Wick) with tags := [{ (default : TagEntry) with frame := 1, write := true }], edges := [{ (default : EdgeEntry) with wg := true, rg := 1, pos := 5 }, { (default : EdgeEntry) with rg := 2, pos := 9 }], desc := some { (default : Desc) with kind := 1, band := 200, zone := 3, mask := 15, first := 4, count := 9, nw := 80 } })] } .a 0 0 0 0 false true { (default : Place) with wedge := 3, sym := 995 } = true) ∧
    ((fun (s : State) (h : Half) (u : Nat) (cond : Nat) (pos : Nat) (rg : Nat) (base : Bool) (wg : Bool) (_ : Place) => decide (u < 8) && (s.executes (actId h u) cond (.edge base wg rg pos)) && decide (4 ≤ (s.wick (actId h u)).edges.length))
      { State.reset with asserted := [], up := 3, wicks := [(5, { (default : Wick) with tags := [{ (default : TagEntry) with frame := 1, write := true }, { (default : TagEntry) with frame := 1, write := true }, { (default : TagEntry) with frame := 1, write := true }, { (default : TagEntry) with frame := 1, write := true }], edges := [{ (default : EdgeEntry) with wg := true, rg := 1, pos := 5 }, { (default : EdgeEntry) with wg := true, rg := 1, pos := 5 }, { (default : EdgeEntry) with wg := true, rg := 1, pos := 5 }, { (default : EdgeEntry) with wg := true, rg := 1, pos := 5 }], desc := some { (default : Desc) with kind := 1, band := 200, zone := 3, mask := 15, first := 4, count := 9, nw := 80 } })] } .a 5 0 0 0 true true { (default : Place) with wedge := 6, sym := 634 } = true) ∧
    ((fun (s : State) (h : Half) (u : Nat) (cond : Nat) (xs : Nat) (last : Bool) (write : Bool) (p : Place) => decide (u < 8) && ((s.wick (actId h u)).desc.isSome) && (s.executes (actId h u) cond (.sect last write xs)) && (s.fetchOk (actId h u) (s.wckPc (actId h u) + 1)) && decide (((s.atPlace (actId h u) p).wick (actId h u)).tags.length < 4))
      { State.reset with asserted := [], up := 3, wicks := [(0, { (default : Wick) with tags := [{ (default : TagEntry) with frame := 1, write := true }], edges := [{ (default : EdgeEntry) with wg := true, rg := 1, pos := 5 }, { (default : EdgeEntry) with rg := 2, pos := 9 }], desc := some { (default : Desc) with kind := 1, band := 200, zone := 3, mask := 15, first := 4, count := 9, nw := 80 } })] } .a 0 0 0 false false { (default : Place) with wedge := 5, sym := 979 } = true) ∧
    ((fun (s : State) (h : Half) (u : Nat) (cond : Nat) (xs : Nat) (last : Bool) (write : Bool) (p : Place) => decide (u < 8) && (s.executes (actId h u) cond (.sect last write xs)) && decide (4 ≤ ((s.atPlace (actId h u) p).wick (actId h u)).tags.length))
      { State.reset with asserted := [], up := 3, wicks := [(0, { (default : Wick) with tags := [{ (default : TagEntry) with frame := 1, write := true }, { (default : TagEntry) with frame := 1, write := true }, { (default : TagEntry) with frame := 1, write := true }, { (default : TagEntry) with frame := 1, write := true }], edges := [{ (default : EdgeEntry) with wg := true, rg := 1, pos := 5 }, { (default : EdgeEntry) with wg := true, rg := 1, pos := 5 }, { (default : EdgeEntry) with wg := true, rg := 1, pos := 5 }, { (default : EdgeEntry) with wg := true, rg := 1, pos := 5 }], desc := some { (default : Desc) with kind := 1, band := 200, zone := 3, mask := 15, first := 4, count := 9, nw := 80 } })] } .a 0 0 0 true false { (default : Place) with sym := 436 } = true) := by
  refine ⟨?_, ?_, ?_, ?_, ?_, ?_⟩ <;> decide +kernel

/-- A state and operands meeting the hypotheses of WickWaitingWords, clause by clause. -/
theorem witness_WickWaitingWords :
    ((fun (s : State) (h : Half) (u : Nat) (cond : Nat) => decide (u < 8) && (s.executes (actId h u) cond .wch) && (s.fetchOk (actId h u) (s.wckPc (actId h u) + 1)))
      { State.reset with asserted := [], up := 3 } .a 0 0 = true) ∧
    ((fun (s : State) (h : Half) (u : Nat) (cond : Nat) (xs : Nat) => decide (u < 8) && (s.executes (actId h u) cond (.recov xs)) && (s.fetchOk (actId h u) (s.wckPc (actId h u) + 1)))
      { State.reset with asserted := [], up := 3 } .a 0 0 0 = true) ∧
    ((fun (s : State) (h : Half) (u : Nat) (cond : Nat) (f : Nat) => decide (u < 8) && (s.executes (actId h u) cond (.frm f)))
      { State.reset with asserted := [], up := 3 } .a 0 0 0 = true) ∧
    ((fun (s : State) (h : Half) (u : Nat) (cond : Nat) (addr : Nat) (xs : Nat) (rw : Bool) => decide (u < 8) && (s.executes (actId h u) cond (.frmx rw addr xs)))
      { State.reset with asserted := [], up := 3 } .a 0 0 0 0 false = true) ∧
    ((fun (s : State) (h : Half) (u : Nat) (cond : Nat) (xs : Nat) (kind : Nat) => decide (u < 8) && (s.executes (actId h u) cond (.seek xs kind)))
      { State.reset with asserted := [], up := 3 } .a 0 0 0 0 = true) ∧
    ((fun (s : State) (h : Half) (u : Nat) (cond : Nat) (timeout : Nat) => decide (u < 8) && (s.fetched (actId h u) cond (.wcond timeout)) && (s.fetchOk (actId h u) (s.wckPc (actId h u) + 1)))
      { State.reset with asserted := [], up := 3 } .b 0 0 0 = true) ∧
    ((fun (s : State) (h : Half) (u : Nat) (cond : Nat) (status : Nat) => decide (u < 8) && ((s.wick (actId h u)).desc.isSome) && (s.executes (actId h u) cond (.post status)))
      { State.reset with asserted := [], up := 3, wicks := [(0, { (default : Wick) with tags := [{ (default : TagEntry) with frame := 1, write := true }], edges := [{ (default : EdgeEntry) with wg := true, rg := 1, pos := 5 }, { (default : EdgeEntry) with rg := 2, pos := 9 }], desc := some { (default : Desc) with kind := 1, band := 200, zone := 3, mask := 15, first := 4, count := 9, nw := 80 } })] } .a 0 0 0 = true) := by
  refine ⟨?_, ?_, ?_, ?_, ?_, ?_, ?_⟩ <;> decide +kernel

/-- A state and operands meeting the hypotheses of WickFaultsAndStallEnds, clause by clause. -/
theorem witness_WickFaultsAndStallEnds :
    ((fun (s : State) (h : Half) (u : Nat) (cond : Nat) (code : Nat) => decide (u < 8) && (s.executes (actId h u) cond (.evt code)) && (s.fetchOk (actId h u) (s.wckPc (actId h u) + 1)))
      { State.reset with asserted := [], up := 3 } .a 0 0 0 = true) ∧
    ((fun (s : State) (h : Half) (u : Nat) (cond : Nat) => decide (u < 8) && (s.executes (actId h u) cond .halt))
      { State.reset with asserted := [], up := 3 } .a 0 0 = true) ∧
    ((fun (s : State) (h : Half) (u : Nat) (cond : Nat) (op : Nat) (v : Nat) => decide (u < 8) && decide (0x16 ≤ op) && decide (op ≤ 0x1E) && (s.executes (actId h u) cond (.illegal op v)))
      { State.reset with asserted := [], up := 3 } .a 0 0 22 0 = true) ∧
    ((fun (s : State) (h : Half) (u : Nat) (_ : Nat) (n : Nat) => decide (u < 8) && decide (s.wckState (actId h u) = 2) && (s.wckUp (actId h u)) && decide ((s.wick (actId h u)).stall = .wwed n) && (s.fetchOk (actId h u) (s.wckPc (actId h u) + 1)))
      { State.reset with regs := [(0x490004, 0x181A#32)], asserted := [], up := 3, wicks := [(1, { (default : Wick) with stall := .wwed 0 })] } .a 1 0 0 = true) ∧
    ((fun (s : State) (h : Half) (u : Nat) (_ : Nat) (xs : Nat) (_ : Place) => decide (u < 8) && decide (s.wckState (actId h u) = 2) && (s.wckUp (actId h u)) && decide ((s.wick (actId h u)).stall = .frameRead xs) && (((s.wick (actId h u)).frameAns).any fun _ => (s.fetchOk (actId h u) (s.wckPc (actId h u) + 1))))
      { State.reset with regs := [(0x1480004, 0x181A#32)], asserted := [], up := 3, wicks := [(8, { (default : Wick) with stall := .frameRead 2, frameAns := some 70000 })] } .b 0 0 2 { (default : Place) with wedge := 2, sym := 271 } = true) ∧
    ((fun (s : State) (h : Half) (u : Nat) (c : Nat) => decide (u < 8) && decide (s.wckState (actId h u) = 2) && decide ((s.wick (actId h u)).stall = .wcond c) && decide (s.wickCond (actId h u) c = false) && (s.fetchOk (actId h u) (s.wckPc (actId h u) + 1)))
      { State.reset with regs := [(0x4B0004, 0x181A#32)], asserted := [], wicks := [(3, { (default : Wick) with stall := .wcond 1 })] } .a 3 1 = true) := by
  refine ⟨?_, ?_, ?_, ?_, ?_, ?_⟩ <;> decide +kernel

/-- A state and operands meeting the hypotheses of WickControlCommands, clause by clause. -/
theorem witness_WickControlCommands :
    ((fun (s : State) (h : Half) (u : Nat) => decide (u < 8) && (((s.wick (actId h u)).edges.head?).any fun e => decide (∀ x ∈ (s.wick (actId h u)).edges.tail, e.pos < x.pos)))
      { State.reset with asserted := [], wicks := [(0, { (default : Wick) with tags := [{ (default : TagEntry) with frame := 1, write := true }], edges := [{ (default : EdgeEntry) with wg := true, rg := 1, pos := 5 }, { (default : EdgeEntry) with rg := 2, pos := 9 }], desc := some { (default : Desc) with kind := 1, band := 200, zone := 3, mask := 15, first := 4, count := 9, nw := 80 } })] } .a 0 = true) ∧
    ((fun (s : State) (h : Half) (u : Nat) => decide (u < 8) && ((s.wick (actId h u)).lastFrame).any fun _ => true)
      { State.reset with asserted := [], wicks := [(9, { (default : Wick) with abort := some 4, bad := [(4, 1)], desc := some { (default : Desc) with kind := 1, band := 200, zone := 3, mask := 15, first := 4, count := 9, nw := 80 }, lastFrame := some { (default : TagEntry) with frame := 2, write := true, last := true } })] } .b 1 = true) ∧
    ((fun (_ : State) (_ : Half) (u : Nat) (_ : Nat) => decide (u < 8))
      { State.reset with asserted := [] } .b 0 0 = true) ∧
    ((fun (s : State) (h : Half) (u : Nat) => decide (u < 8) && decide ((s.pa (actId h u)).sg = false))
      { State.reset with asserted := [] } .b 0 = true) ∧
    ((fun (s : State) (h : Half) (u : Nat) (_ : Place) => decide (u < 8) && (((s.wick (actId h u)).abort).any fun _ => ((s.wick (actId h u)).desc.isSome) && decide (s.wckState (actId h u) ≠ 3)))
      { State.reset with asserted := [], wicks := [(9, { (default : Wick) with abort := some 4, bad := [(4, 1)], desc := some { (default : Desc) with kind := 1, band := 200, zone := 3, mask := 15, first := 4, count := 9, nw := 80 }, lastFrame := some { (default : TagEntry) with frame := 2, write := true, last := true } })] } .b 1 { (default : Place) with wedge := 1, sym := 625 } = true) ∧
    ((fun (s : State) (h : Half) (u : Nat) => decide (u < 8) && decide (s.wckState (actId h u) = 3))
      { State.reset with regs := [(0x4A0004, 0x181B#32)], asserted := [] } .a 2 = true) ∧
    ((fun (_ : State) (_ : Half) (u : Nat) => decide (u < 8))
      { State.reset with asserted := [] } .b 0 = true) ∧
    ((fun (s : State) (h : Half) (u : Nat) => decide (u < 8) && ((s.mcore.wickPatch).any fun img => (s.patchable (actId h u)) && (s.patchTurn (actId h u) (patchLevel img.bytes)) && decide (s.bit (wckB (actId h u)) F.WCK_STAT_BUSY = false)))
      { State.reset with asserted := [], up := 3, mcore := { State.reset.mcore with wickPatch := some { (default : Image) with type := 3, svn := 2, bytes := (List.replicate 6 0x0#8 ++ [0x5#8, 0x0#8, 0x2#8] ++ List.replicate 91 0x0#8) } } } .a 0 = true) ∧
    ((fun (s : State) (h : Half) (u : Nat) => decide (u < 8) && ((s.mcore.wickPatch).any fun _ => (s.patchable (actId h u)) && ((s.wick (actId h u)).patchDue)))
      { State.reset with asserted := [], up := 3, mcore := { State.reset.mcore with wickPatch := some { (default : Image) with type := 3, svn := 2, bytes := (List.replicate 6 0x0#8 ++ [0x5#8, 0x0#8, 0x2#8] ++ List.replicate 91 0x0#8) } }, wicks := [(2, { (default : Wick) with patchDue := true })] } .a 2 = true) := by
  refine ⟨?_, ?_, ?_, ?_, ?_, ?_, ?_, ?_, ?_⟩ <;> decide +kernel

/-- A state and operands meeting the hypotheses of ServoWedge, clause by clause. -/
theorem witness_ServoWedge :
    ((fun (s : State) (h : Half) (u : Nat) (_ : List DemodSample) (_ : Nat) => decide (u < 8) && decide ((s.srv (actId h u)).ownLost = false))
      { State.reset with asserted := [] } .b 0 [{ (default : DemodSample) with found := true, samCell := 5, index := 0xDE7F#16, tid := 0x1C6#24, n1 := 489, n2 := 3 }, { (default : DemodSample) with samCell := -6, index := 0xB482#16, tid := 0x70E#24, n1 := 279, n2 := 260 }, { (default : DemodSample) with found := true, samCell := 6, index := 0xF04D#16, tid := 0x69B#24, n1 := 297, n2 := 100 }] 0 = true) ∧
    ((fun (s : State) (h : Half) (u : Nat) => decide (u < 8) && (s.srv (actId h u)).ownLost && decide (s.ownLine (actHda (actId h u)) = false))
      { State.reset with asserted := [], srvs := [(11, { (default : Srv) with ownLost := true })] } .b 3 = true) ∧
    ((fun (s : State) (h : Half) (u : Nat) (_ : List DemodSample) (_ : Nat) => decide (u < 8) && decide ((s.srv (actId h u)).ownLost = false) && decide (s.srvState (actId h u) = 3 ∨ s.srvState (actId h u) = 4 ∨ s.srvState (actId h u) = 5))
      { State.reset with regs := [(0x410004, 0x704#32)], asserted := [] } .a 1 [{ (default : DemodSample) with found := true, samCell := 16, index := 0xEEDD#16, tid := 0x6FB#24, n1 := 20, n2 := 106 }, { (default : DemodSample) with samCell := -20, index := 0xC0FA#16, tid := 0x59B#24, n1 := 104, n2 := 24 }, { (default : DemodSample) with found := true, samCell := -12, index := 0xB20E#16, tid := 0x105#24, n1 := 44, n2 := 125 }] 0 = true) ∧
    ((fun (s : State) (h : Half) (u : Nat) (_ : Nat) => decide (u < 8) && ((s.srv (actId h u)).computing))
      { State.reset with asserted := [], srvs := [(11, { (default : Srv) with computing := true, coefPeriod := 20000 })] } .b 3 0 = true) ∧
    ((fun (s : State) (h : Half) (u : Nat) => decide (u < 8) && ((s.srv (actId h u)).due))
      { State.reset with asserted := [], srvs := [(1, { (default : Srv) with due := true, outCur := -300, outMa := [(2, 50)], coefPeriod := 20000 })] } .a 1 = true) ∧
    ((fun (s : State) (h : Half) (u : Nat) => decide (u < 8) && decide (s.get (srvB (actId h u)) F.SRV_STAT_IMPL_RUN = 4) && (loadedState (s.srvState (actId h u))))
      { State.reset with regs := [(0x1420004, 0x783#32)], asserted := [] } .b 2 = true) ∧
    ((fun (s : State) (h : Half) (u : Nat) (k : Nat) => decide (u < 8) && decide (k ∈ s.srvSlots (actId h u)) && decide (min1 (s.par (actId h u) F.SRV_FOLCFG_REACH_CNT) ≤ s.get (headB (actId h u) (4 * s.srvGroup (actId h u) + k)) F.HEAD_REACH_RUN) && decide ((s.srv (actId h u)).alarm = false) && decide ((s.srv (actId h u)).cal = none) && decide (s.srvState (actId h u) = 3))
      { State.reset with regs := [(0x470004, 0x703#32), (0x47304C, 0x900#32)], asserted := [] } .a 7 2 = true) ∧
    ((fun (s : State) (h : Half) (u : Nat) (k : Nat) => decide (u < 8) && decide (k ∈ s.srvSlots (actId h u)) && decide (min1 (s.par (actId h u) F.SRV_FOLCFG_REACH_CNT) ≤ s.get (headB (actId h u) (4 * s.srvGroup (actId h u) + k)) F.HEAD_REACH_RUN) && decide ((s.srv (actId h u)).alarm = false) && decide ((s.srv (actId h u)).cal = none) && decide (s.srvState (actId h u) = 5))
      { State.reset with regs := [(0x1410004, 0x705#32), (0x141300C, 0x900#32)], asserted := [] } .b 1 0 = true) := by
  refine ⟨?_, ?_, ?_, ?_, ?_, ?_, ?_, ?_⟩ <;> decide +kernel

/-- A state and operands meeting the hypotheses of ServoSeeks, clause by clause. -/
theorem witness_ServoSeeks :
    ((fun (s : State) (h : Half) (u : Nat) => decide (u < 8) && (((s.srv (actId h u)).profile).any fun p => decide (p.acc + p.coast + p.dec ≤ p.run) && decide ((s.srv (actId h u)).allReplaced = false) && decide (s.srvState (actId h u) = 4) && decide (ratAbs (s.passTarget (actId h u) - (s.srv (actId h u)).comb) ≤ s.handover (actId h u))))
      { State.reset with regs := [(0x470004, 0x704#32)], asserted := [], srvs := [(7, { (default : Srv) with coefPeriod := 20000, profile := some { (default : Profile) with cur := 3000, coastCur := 12, acc := 5, coast := 5, dec := 5, run := 15, correction := true }, seek := some 0 })] } .a 7 = true) ∧
    ((fun (s : State) (h : Half) (u : Nat) => decide (u < 8) && (((s.srv (actId h u)).profile).any fun p => decide (p.acc + p.coast + p.dec ≤ p.run) && decide ((s.srv (actId h u)).allReplaced = false) && decide (s.srvState (actId h u) = 4) && decide (s.handover (actId h u) < ratAbs (s.passTarget (actId h u) - (s.srv (actId h u)).comb)) && decide (p.correction = false)))
      { State.reset with regs := [(0x400004, 0x704#32)], asserted := [], srvs := [(0, { (default : Srv) with comb := 40000, coefPeriod := 20000, profile := some { (default : Profile) with cur := 3000, coastCur := 12, acc := 5, coast := 5, dec := 5, run := 15 } })] } .a 0 = true) ∧
    ((fun (s : State) (h : Half) (u : Nat) => decide (u < 8) && (((s.srv (actId h u)).profile).any fun p => decide (p.acc + p.coast + p.dec ≤ p.run) && decide ((s.srv (actId h u)).allReplaced = false) && decide (s.srvState (actId h u) = 4) && decide (s.handover (actId h u) < ratAbs (s.passTarget (actId h u) - (s.srv (actId h u)).comb)) && p.correction))
      { State.reset with regs := [(0x410004, 0x704#32)], asserted := [], srvs := [(1, { (default : Srv) with comb := 4000, coefPeriod := 20000, profile := some { (default : Profile) with cur := 3000, coastCur := 12, acc := 5, coast := 5, dec := 5, run := 15, correction := true }, seek := some 0 })] } .a 1 = true) ∧
    ((fun (s : State) (h : Half) (u : Nat) => decide (u < 8) && decide (min1 (s.par (actId h u) F.SRV_FOLCFG_SETTLE_CNT) ≤ (s.srv (actId h u)).settleRun) && decide ((s.srv (actId h u)).profile = none) && decide ((s.srv (actId h u)).ramp = false) && decide (s.srvState (actId h u) = 5))
      { State.reset with regs := [(0x400004, 0x705#32), (0x401000, 0x3031040#32)], asserted := [], srvs := [(0, { (default : Srv) with coefPeriod := 20000, seek := some 0, settleRun := 5, alarmHeld := true })] } .a 0 = true) ∧
    ((fun (s : State) (h : Half) (u : Nat) => decide (u < 8) && decide (min1 (s.par (actId h u) F.SRV_FOLCFG_SETTLE_CNT) ≤ (s.srv (actId h u)).settleRun) && decide ((s.srv (actId h u)).profile = none) && decide ((s.srv (actId h u)).ramp = false) && decide (s.srvState (actId h u) = 6) && decide (s.srvBand (actId h u) = 0))
      { State.reset with regs := [(0x1420004, 0x706#32), (0x1421000, 0x3031040#32)], asserted := [], srvs := [(10, { (default : Srv) with coefPeriod := 20000, settleRun := 5 })] } .b 2 = true) ∧
    ((fun (s : State) (h : Half) (u : Nat) => decide (u < 8) && ((s.srv (actId h u)).seekRun) && decide (min1 (s.par (actId h u) F.SRV_SEEKCFG_SEEK_TMO) ≤ (s.srv (actId h u)).seekWedges))
      { State.reset with regs := [(0x411004, 0x31410#32)], asserted := [], srvs := [(1, { (default : Srv) with coefPeriod := 20000, seek := some 1, seekRun := true, seekWedges := 10 })] } .a 1 = true) := by
  refine ⟨?_, ?_, ?_, ?_, ?_, ?_⟩ <;> decide +kernel

/-- A state and operands meeting the hypotheses of ServoLoadAndPark, clause by clause. -/
theorem witness_ServoLoadAndPark :
    ((fun (s : State) (h : Half) (u : Nat) => decide (u < 8) && (s.loadOk (actId h u)))
      { State.reset with regs := [(0x20000C, 0xF0F0#32), (0x300004, 0x7#32), (0x300010, 0x493E0#32), (0x400004, 0x701#32), (0x401018, 0x5F90#32), (0x2000008, 0xAA55#32)], asserted := [] } .a 0 = true) ∧
    ((fun (s : State) (h : Half) (u : Nat) (k : Nat) => decide (u < 8) && decide (s.srvState (actId h u) = 2) && decide ((s.srv (actId h u)).locked = false) && decide ((k, 16) ∈ (s.srv (actId h u)).lockRun))
      { State.reset with regs := [(0x430004, 0x702#32)], asserted := [], srvs := [(3, { (default : Srv) with lockRun := [(0, 16), (1, 3)], lastPos := [(0, 900)], coefPeriod := 20000 })] } .a 3 0 = true) ∧
    ((fun (s : State) (h : Half) (u : Nat) => decide (u < 8) && decide (s.srvState (actId h u) = 2) && !(s.srv (actId h u)).locked &&
      s.msPassed (actId h u) 50)
      { State.reset with regs := [(0x1430004, 0x702#32)], asserted := [], ticks := 1638400 } .b 3 = true) ∧
    ((fun (s : State) (h : Half) (u : Nat) => decide (u < 8) && decide (s.srvState (actId h u) = 2))
      { State.reset with regs := [(0x1430004, 0x702#32)], asserted := [] } .b 3 = true) ∧
    ((fun (s : State) (h : Half) (u : Nat) => decide (u < 8) && decide (s.srvState (actId h u) = 3 ∨ s.srvState (actId h u) = 4 ∨ s.srvState (actId h u) = 5))
      { State.reset with regs := [(0x410004, 0x704#32)], asserted := [] } .a 1 = true) ∧
    ((fun (s : State) (h : Half) (u : Nat) => decide (u < 8) && (loadedState (s.srvState (actId h u))))
      { State.reset with regs := [(0x410004, 0x704#32)], asserted := [] } .a 1 = true) ∧
    ((fun (s : State) (h : Half) (u : Nat) (vel : Nat) => decide (u < 8) && (s.driving (actId h u)) && decide ((s.srv (actId h u)).latch = false) && decide (vel < 5 * min1 (s.get (srvB (actId h u)) F.SRV_RETCFG_RET_VEL)))
      { State.reset with regs := [(0x1420004, 0x707#32)], asserted := [], srvs := [(10, { (default : Srv) with coefPeriod := 20000, ramp := true })] } .b 2 0 = true) ∧
    ((fun (s : State) (h : Half) (u : Nat) => decide (u < 8) && (s.driving (actId h u)) && ((s.srv (actId h u)).latch))
      { State.reset with regs := [(0x400004, 0x706#32)], asserted := [], srvs := [(0, { (default : Srv) with coefPeriod := 20000, seek := some 2, ramp := true, latch := true })] } .a 0 = true) ∧
    ((fun (s : State) (h : Half) (u : Nat) => decide (u < 8) && decide (s.srvState (actId h u) = 7) &&
      s.msPassed (actId h u) (min1 (s.get (srvB (actId h u)) F.SRV_RETCFG_RET_TMO)))
      { State.reset with regs := [(0x1430004, 0x707#32)], asserted := [], ticks := 100000000 } .b 3 = true) ∧
    ((fun (s : State) (h : Half) (u : Nat) => decide (u < 8) && decide (s.srvState (actId h u) = 0) && (s.ownLine (actHda (actId h u))) && decide (s.retracting (actId h u) = false) && decide (s.loaded (actId h u) = false))
      { State.reset with regs := [(0x2000008, 0xAA55#32)], asserted := [] } .b 0 = true) ∧
    ((fun (s : State) (h : Half) (u : Nat) => decide (u < 8) && decide (s.srvState (actId h u) = 0) && (s.ownLine (actHda (actId h u))) && decide (s.retracting (actId h u) = false) && (s.loaded (actId h u)))
      { State.reset with regs := [(0x2000008, 0xAA55#32), (0x2000018, 0xFFFF#32)], asserted := [] } .b 0 = true) ∧
    ((fun (s : State) (h : Half) (u : Nat) => decide (u < 8) && (loadedState (s.srvState (actId h u))))
      { State.reset with regs := [(0x410004, 0x704#32)], asserted := [] } .a 1 = true) ∧
    ((fun (s : State) (h : Half) (u : Nat) => decide (u < 8) && decide (s.srvState (actId h u) = 1))
      { State.reset with regs := [(0x400004, 0x701#32)], asserted := [] } .a 0 = true) := by
  refine ⟨?_, ?_, ?_, ?_, ?_, ?_, ?_, ?_, ?_, ?_, ?_, ?_, ?_⟩ <;> decide +kernel

/-- A state and operands meeting the hypotheses of ServoCalibrationAndFeedforward, clause by clause. -/
theorem witness_ServoCalibrationAndFeedforward :
    ((fun (s : State) (h : Half) (u : Nat) (seg : Nat) => decide (u < 8) && ((s.calSegs (actId h u)).contains seg) && (s.servoIdle (actId h u)) && decide (s.srvState (actId h u) = 3) && decide ((s.srv (actId h u)).cal = none))
      { State.reset with regs := [(0x440004, 0x703#32)], asserted := [] } .a 4 0 = true) ∧
    ((fun (s : State) (h : Half) (u : Nat) (seg : Nat) => decide (u < 8) && ((s.calSegs (actId h u)).contains seg) && ((s.srv (actId h u)).cal.isSome))
      { State.reset with asserted := [], srvs := [(8, { (default : Srv) with coefPeriod := 20000, cal := some { (default : CalRun) with seg := 3, groups := 2, why := 1, group := 1, revs := 2, wedges := 1024, sums := [(4, 70000), (5, -12345)] } })] } .b 0 0 = true) ∧
    ((fun (s : State) (h : Half) (u : Nat) (seg : Nat) => decide (u < 8) && decide ((s.calSegs (actId h u)).contains seg = false))
      { State.reset with asserted := [] } .b 0 1 = true) ∧
    ((fun (s : State) (h : Half) (u : Nat) (e : Nat) => decide (u < 8) && decide (s.bit (srvB (actId h u)) F.SRV_CALSTAT_SWEEP = false) && (s.servoIdle (actId h u)) && decide (s.srvState (actId h u) = 3) && decide ((s.srv (actId h u)).cal = none) && decide ((s.srv (actId h u)).calOne = none) && decide ((s.calSegs (actId h u)).head? = some e))
      { State.reset with regs := [(0x440004, 0x703#32)], asserted := [] } .a 4 0 = true) ∧
    ((fun (s : State) (h : Half) (u : Nat) => decide (u < 8) && s.bit (srvB (actId h u)) F.SRV_CTL_CAL_EN && s.servoIdle (actId h u) &&
      decide (s.srvState (actId h u) = 3) && decide ((s.srv (actId h u)).cal = none) && decide (s.calSegs (actId h u) ≠ []) &&
      decide (1000 * min1 (s.get (srvB (actId h u)) F.SRV_CALCFG_CAL_INT) / (if (s.srv (actId h u)).fast then 16 else 1) ≤
        (s.usTime + 2 ^ 48 - (s.srv (actId h u)).calAt) % 2 ^ 48))
      (({ State.reset with regs := [(0x440004, 0x703#32)], asserted := [], ticks := 10 ^ 10 } : State).flag (srvB 4) F.SRV_CTL_CAL_EN) .a 4 = true) ∧
    ((fun (s : State) (h : Half) (u : Nat) => decide (u < 8) && (((s.srv (actId h u)).cal).any fun r => r.full && decide (r.why = 1)))
      { State.reset with asserted := [], srvs := [(3, { (default : Srv) with coefPeriod := 20000, cal := some { (default : CalRun) with seg := 3, groups := 2, why := 1, group := 1, revs := 2, wedges := 1024, sums := [(4, 70000), (5, -12345)] } })] } .a 3 = true) ∧
    ((fun (_ : State) (_ : Half) (u : Nat) => decide (u < 8))
      { State.reset with asserted := [] } .b 0 = true) ∧
    ((fun (_ : State) (_ : ShockSample) (ai : Nat) => decide (ai < 16))
      { State.reset with asserted := [] } { ayA := -116, ayB := 507 } 0 = true) := by
  refine ⟨?_, ?_, ?_, ?_, ?_, ?_, ?_, ?_⟩ <;> decide +kernel

/-- A state and operands meeting the hypotheses of SpindleStarts, clause by clause. -/
theorem witness_SpindleStarts :
    ((fun (s : State) (h : Half) (n : Nat) => decide (n < 4) && decide (s.spnState (hdaId h n) = 0))
      { State.reset with asserted := [] } .b 0 = true) ∧
    ((fun (s : State) (h : Half) (n : Nat) => decide (n < 4) && decide (s.spnState (hdaId h n) = 1) && decide (s.mot.step ≠ 3) && (s.startOk (hdaId h n)) && decide ((s.spn (hdaId h n)).emf < 1920 ∨ 19200 < (s.spn (hdaId h n)).emf))
      { State.reset with regs := [(0x1210004, 0x408#32), (0x1310004, 0x1#32), (0x1311008, 0xBB8#32), (0x1311014, 0x384#32), (0x2000008, 0xAA55#32)], asserted := [] } .b 1 = true) ∧
    ((fun (s : State) (h : Half) (n : Nat) => decide (n < 4) && decide (s.spnState (hdaId h n) = 12))
      { State.reset with regs := [(0x320004, 0xC#32)], asserted := [] } .a 2 = true) ∧
    ((fun (s : State) (x : Nat × Nat) => decide (s.mot.waitT.head? = some x) && decide (x.2 < 8) &&
      decide (((List.range 8).filter s.mot.taper.testBit).length < 2) && decide (s.mot.overBudget = false) &&
      decide (s.mot.pmot + s.mot.taperP ≤ s.mot.budget) &&
      decide (s.spnState x.2 = 2))
      { State.reset with regs := [(0x1320004, 0x2#32)], asserted := [], mot := { State.reset.mot with waitT := [(3, 6)] } } (3, 6) = true) ∧
    ((fun (s : State) (h : Half) (n : Nat) => decide (n < 4) && decide (s.spnState (hdaId h n) = 3) && (s.phaseOver (hdaId h n) (s.spn (hdaId h n)).phaseUs))
      { State.reset with regs := [(0x320004, 0x3#32)], asserted := [] } .a 2 = true) ∧
    ((fun (s : State) (h : Half) (n k : Nat) (v : List Nat) => let m := fun j => min (s.spn (hdaId h n)).pulseLim (v.getD j 0)
      decide (n < 4) && decide (s.spnState (hdaId h n) = 4) && decide (k < 6) && s.phaseOver (hdaId h n) (s.spn (hdaId h n)).phaseUs &&
      ((List.range 6).all fun j => j == k || decide (3 * m k ≤ (m k - m j) * 100)) && decide (0 < m k))
      { State.reset with regs := [(0x1300004, 0x4#32)], asserted := [], ticks := 100000, spns := [(4, { (default : Spn) with pulseLim := 60000, phaseUs := 1200 })] }
      .b 0 0 [46429, 0, 0, 0, 0, 0] = true) ∧
    ((fun (s : State) (h : Half) (n : Nat) => decide (n < 4) && decide (s.spnState (hdaId h n) = 4) && (s.phaseOver (hdaId h n) (s.spn (hdaId h n)).phaseUs))
      { State.reset with regs := [(0x310004, 0x4#32)], asserted := [] } .a 1 = true) ∧
    ((fun (s : State) (h : Half) (n : Nat) => decide (n < 4) && decide (s.spnState (hdaId h n) = 5) && decide (12 ≤ (s.spn (hdaId h n)).conf) && ((s.spn (hdaId h n)).rampDone))
      { State.reset with regs := [(0x310004, 0x5#32)], asserted := [], spns := [(1, { (default : Spn) with emf := 200000, period := 100000, periods := [100000, 100001, 100002, 100003, 100004, 100005, 100006, 100007, 100008, 100009, 100010, 100011, 100012, 100013, 100014, 100015, 100016, 100017, 100018, 100019, 100020, 100021, 100022, 100023, 100024, 100025, 100026, 100027, 100028, 100029, 100030, 100031, 100032, 100033, 100034, 100035], since := 1, sinceNs := 50000, rampK := 30, rampT := 300, pulseLim := 20, phaseAt := 140737488355328, conf := 13, nearAt := some 140737488355328, keWaits := true })] } .a 1 = true) ∧
    ((fun (s : State) (h : Half) (n : Nat) => decide (n < 4) && decide (s.spnState (hdaId h n) = 5) && (s.phaseOver (hdaId h n) (1000 * ((s.spn (hdaId h n)).rampT + 500))))
      { State.reset with regs := [(0x310004, 0x5#32)], asserted := [], spns := [(1, { (default : Spn) with emf := 200000, period := 100000, periods := [100000, 100001, 100002, 100003, 100004, 100005, 100006, 100007, 100008, 100009, 100010, 100011, 100012, 100013, 100014, 100015, 100016, 100017, 100018, 100019, 100020, 100021, 100022, 100023, 100024, 100025, 100026, 100027, 100028, 100029, 100030, 100031, 100032, 100033, 100034, 100035], since := 1, sinceNs := 50000, rampK := 30, rampT := 300, pulseLim := 20, phaseAt := 140737488355328, conf := 13, nearAt := some 140737488355328, keWaits := true })] } .a 1 = true) ∧
    ((fun (s : State) (h : Half) (n : Nat) (_ : Nat) => decide (n < 4) && decide (s.spnState (hdaId h n) = 6) && (s.bit (spnB (hdaId h n)) F.SPN_STAT_AT_SPEED) && (((s.spn (hdaId h n)).nearAt).any fun t0 => decide (1000000 ≤ (s.usTime + 2 ^ 48 - t0) % 2 ^ 48)))
      { State.reset with regs := [(0x1320004, 0x26#32)], asserted := [], spns := [(6, { (default : Spn) with emf := 200000, period := 100000, periods := [100000, 100001, 100002, 100003, 100004, 100005, 100006, 100007, 100008, 100009, 100010, 100011, 100012, 100013, 100014, 100015, 100016, 100017, 100018, 100019, 100020, 100021, 100022, 100023, 100024, 100025, 100026, 100027, 100028, 100029, 100030, 100031, 100032, 100033, 100034, 100035], since := 1, sinceNs := 50000, rampK := 30, rampT := 300, pulseLim := 20, phaseAt := 140737488355328, nearAt := some 140737488355328, keAt := 140737488355328 })] } .b 2 0 = true) ∧
    ((fun (s : State) (h : Half) (n : Nat) => decide (n < 4) && decide (s.spnState (hdaId h n) = 9) && decide ((s.spn (hdaId h n)).emf < 1920) && (s.phaseOver (hdaId h n) 2000000) && decide (s.get (spnB (hdaId h n)) F.SPN_TAPSTAT_ATTEMPT < 3))
      { State.reset with regs := [(0x1320004, 0x9#32)], asserted := [], spns := [(6, { (default : Spn) with emf := 900, period := 100000, periods := [100000, 100001, 100002, 100003, 100004, 100005, 100006, 100007, 100008, 100009, 100010, 100011, 100012, 100013, 100014, 100015, 100016, 100017, 100018, 100019, 100020, 100021, 100022, 100023, 100024, 100025, 100026, 100027, 100028, 100029, 100030, 100031, 100032, 100033, 100034, 100035], since := 1, sinceNs := 50000, rampK := 30, rampT := 300, pulseLim := 20, phaseAt := 140737488355328, nearAt := some 140737488355328, keAt := 140737488355328 })] } .b 2 = true) ∧
    ((fun (s : State) (h : Half) (n : Nat) => decide (n < 4) && decide (s.spnState (hdaId h n) = 9) && decide ((s.spn (hdaId h n)).emf < 1920) && (s.phaseOver (hdaId h n) 2000000) && decide (s.get (spnB (hdaId h n)) F.SPN_TAPSTAT_ATTEMPT = 3))
      { State.reset with regs := [(0x310004, 0x9#32), (0x31200C, 0x3#32)], asserted := [], spns := [(1, { (default : Spn) with emf := 900, period := 100000, periods := [100000, 100001, 100002, 100003, 100004, 100005, 100006, 100007, 100008, 100009, 100010, 100011, 100012, 100013, 100014, 100015, 100016, 100017, 100018, 100019, 100020, 100021, 100022, 100023, 100024, 100025, 100026, 100027, 100028, 100029, 100030, 100031, 100032, 100033, 100034, 100035], since := 1, sinceNs := 50000, rampK := 30, rampT := 300, pulseLim := 20, phaseAt := 140737488355328, nearAt := some 140737488355328, keWaits := true })] } .a 1 = true) ∧
    ((fun (s : State) (h : Half) (n : Nat) => decide (n < 4) && decide (s.spnState (hdaId h n) = 7))
      { State.reset with regs := [(0x1330004, 0x7#32)], asserted := [] } .b 3 = true) ∧
    ((fun (s : State) (h : Half) (n : Nat) => decide (n < 4) && decide (s.spnState (hdaId h n) = 3))
      { State.reset with regs := [(0x320004, 0x3#32)], asserted := [] } .a 2 = true) ∧
    ((fun (s : State) (h : Half) (n : Nat) => decide (n < 4) && decide (s.spnState (hdaId h n) = 1))
      { State.reset with regs := [(0x1310004, 0x1#32)], asserted := [] } .b 1 = true) ∧
    ((fun (s : State) (h : Half) (n : Nat) => decide (n < 4) && decide (s.spnState (hdaId h n) = 7))
      { State.reset with regs := [(0x1330004, 0x7#32)], asserted := [] } .b 3 = true) := by
  refine ⟨?_, ?_, ?_, ?_, ?_, ?_, ?_, ?_, ?_, ?_, ?_, ?_, ?_, ?_, ?_, ?_⟩ <;> decide +kernel

/-- A state and operands meeting the hypotheses of SpindleRunning, clause by clause. -/
theorem witness_SpindleRunning :
    ((fun (s : State) (h : Half) (n : Nat) (_ : StepObs) => decide (n < 4) && decide (s.spnState (hdaId h n) ≠ 0) && decide (s.commutates (hdaId h n) = false))
      { State.reset with regs := [(0x310004, 0x8#32)], asserted := [] } .a 1 { (default : StepObs) with demagNs := 220539, emf := 452626, temp := 39 } = true) ∧
    ((fun (s : State) (h : Half) (n : Nat) (_ : StepObs) => decide (n < 4) && (s.commutates (hdaId h n)))
      { State.reset with regs := [(0x1330004, 0x7#32)], asserted := [] } .b 3 { (default : StepObs) with demagNs := 275375, crossing := some (35375, false), emf := 246980, temp := 275 } = true) ∧
    ((fun (s : State) (h : Half) (n : Nat) => decide (n < 4) && decide (4 ≤ (s.spn (hdaId h n)).skips) && decide ((s.spn (hdaId h n)).skipOn = false))
      { State.reset with asserted := [], spns := [(0, { (default : Spn) with emf := 200000, period := 100000, periods := [100000, 100001, 100002, 100003, 100004, 100005, 100006, 100007, 100008, 100009, 100010, 100011, 100012, 100013, 100014, 100015, 100016, 100017, 100018, 100019, 100020, 100021, 100022, 100023, 100024, 100025, 100026, 100027, 100028, 100029, 100030, 100031, 100032, 100033, 100034, 100035], since := 1, sinceNs := 50000, rampK := 30, rampT := 300, pulseLim := 20, phaseAt := 140737488355328, unconf := 13, skips := 5, nearAt := some 140737488355328, keAt := 140737488355328, keWaits := true })] } .a 0 = true) ∧
    ((fun (_ : State) (_ : Half) (n : Nat) => decide (n < 4))
      { State.reset with asserted := [] } .a 0 = true) ∧
    ((fun (s : State) (h : Half) (n : Nat) => decide (n < 4) && decide (s.spnState (hdaId h n) = 7) && decide (12 ≤ (s.spn (hdaId h n)).unconf))
      { State.reset with regs := [(0x300004, 0x7#32)], asserted := [], spns := [(0, { (default : Spn) with emf := 200000, period := 100000, periods := [100000, 100001, 100002, 100003, 100004, 100005, 100006, 100007, 100008, 100009, 100010, 100011, 100012, 100013, 100014, 100015, 100016, 100017, 100018, 100019, 100020, 100021, 100022, 100023, 100024, 100025, 100026, 100027, 100028, 100029, 100030, 100031, 100032, 100033, 100034, 100035], since := 1, sinceNs := 50000, rampK := 30, rampT := 300, pulseLim := 20, phaseAt := 140737488355328, unconf := 13, skips := 5, nearAt := some 140737488355328, keAt := 140737488355328, keWaits := true })] } .a 0 = true) ∧
    ((fun (s : State) (h : Half) (n : Nat) (_ : Nat) (_ : Int) => decide (n < 4) && decide (s.spnState (hdaId h n) = 7))
      { State.reset with regs := [(0x1330004, 0x7#32)], asserted := [] } .b 3 0 665 = true) ∧
    ((fun (s : State) (h : Half) (n : Nat) (_ : Nat) (_ : Int) => decide (n < 4) && decide (s.spnState (hdaId h n) = 7) && decide ((s.spn (hdaId h n)).keHold = false) && decide (s.bit (spnB (hdaId h n)) F.SPN_STAT_FW_ACTIVE = false) && decide (s.writeRuns (hdaId h n) = false) && (s.keDue (hdaId h n)))
      { State.reset with regs := [(0x300004, 0x7#32)], asserted := [], spns := [(0, { (default : Spn) with emf := 200000, period := 100000, periods := [100000, 100001, 100002, 100003, 100004, 100005, 100006, 100007, 100008, 100009, 100010, 100011, 100012, 100013, 100014, 100015, 100016, 100017, 100018, 100019, 100020, 100021, 100022, 100023, 100024, 100025, 100026, 100027, 100028, 100029, 100030, 100031, 100032, 100033, 100034, 100035], since := 1, sinceNs := 50000, rampK := 30, rampT := 300, pulseLim := 20, phaseAt := 140737488355328, nearAt := some 140737488355328, keAt := 140737488355328, keWaits := true })] } .a 0 0 (-481) = true) ∧
    ((fun (s : State) (h : Half) (n : Nat) (_ : Nat) (_ : Int) => decide (n < 4) && decide (s.spnState (hdaId h n) = 7) && ((s.spn (hdaId h n)).keHold) && decide (s.bit (spnB (hdaId h n)) F.SPN_STAT_FW_ACTIVE = false) && decide (s.writeRuns (hdaId h n) = false) && decide ((s.spn (hdaId h n)).keRepeats = 0) && (s.keSince (hdaId h n) 10))
      { State.reset with regs := [(0x1300004, 0x7#32)], asserted := [], spns := [(4, { (default : Spn) with emf := 200000, period := 100000, periods := [100000, 100001, 100002, 100003, 100004, 100005, 100006, 100007, 100008, 100009, 100010, 100011, 100012, 100013, 100014, 100015, 100016, 100017, 100018, 100019, 100020, 100021, 100022, 100023, 100024, 100025, 100026, 100027, 100028, 100029, 100030, 100031, 100032, 100033, 100034, 100035], since := 1, sinceNs := 50000, rampK := 30, rampT := 300, pulseLim := 20, phaseAt := 140737488355328, nearAt := some 140737488355328, keAt := 140737488355328, keHold := true, keWaits := true })] } .b 0 0 664 = true) ∧
    ((fun (s : State) (h : Half) (n : Nat) (speed1 : Nat) (angle1 : Nat) (speed2 : Nat) (angle2 : Nat) => decide (n < 4) && decide (s.spnState (hdaId h n) = 8) && decide ((s.spn (hdaId h n)).resumed = false) && decide (0 < speed2) && decide (100 * speed1 ≤ 102 * speed2) && decide (98 * speed2 ≤ 100 * speed1) && decide ((angle1 + 36000 - angle2 % 36000) % 36000 ≤ 1000 ∨ 35000 ≤ (angle1 + 36000 - angle2 % 36000) % 36000))
      { State.reset with regs := [(0x330004, 0x8#32)], asserted := [] } .a 3 1 0 1 0 = true) ∧
    ((fun (_ : State) (_ : Half) (n : Nat) (speed1 : Nat) (_ : Nat) (speed2 : Nat) (_ : Nat) => decide (n < 4) && decide (102 * speed2 < 100 * speed1))
      { State.reset with asserted := [] } .a 0 1 0 0 0 = true) ∧
    ((fun (s : State) (h : Half) (n : Nat) => decide (n < 4) && decide (s.spnState (hdaId h n) = 8) && ((s.spn (hdaId h n)).resumed) && decide (36 ≤ (s.spn (hdaId h n)).conf) && decide ((s.spn (hdaId h n)).startCatch = false) && decide ((s.spn (hdaId h n)).left < 14))
      { State.reset with regs := [(0x300004, 0x8#32)], asserted := [], spns := [(0, { (default : Spn) with emf := 200000, period := 100000, periods := [100000, 100001, 100002, 100003, 100004, 100005, 100006, 100007, 100008, 100009, 100010, 100011, 100012, 100013, 100014, 100015, 100016, 100017, 100018, 100019, 100020, 100021, 100022, 100023, 100024, 100025, 100026, 100027, 100028, 100029, 100030, 100031, 100032, 100033, 100034, 100035], since := 1, sinceNs := 50000, rampK := 30, rampT := 300, pulseLim := 20, phaseAt := 140737488355328, conf := 40, nearAt := some 140737488355328, keAt := 140737488355328, keWaits := true, left := 7, resumed := true })] } .a 0 = true) ∧
    ((fun (s : State) (h : Half) (n : Nat) => decide (n < 4) && decide (s.spnState (hdaId h n) = 8) && decide ((s.spn (hdaId h n)).resumed = false ∨ (s.spn (hdaId h n)).lost = true) && decide (s.get (spnB (hdaId h n)) F.SPN_STAT_CATCH_TRY < 3))
      { State.reset with regs := [(0x310004, 0x8#32)], asserted := [] } .a 1 = true) ∧
    ((fun (s : State) (h : Half) (n : Nat) => decide (n < 4) && decide (s.spnState (hdaId h n) = 8) && decide ((s.spn (hdaId h n)).resumed = false ∨ (s.spn (hdaId h n)).lost = true) && decide (s.get (spnB (hdaId h n)) F.SPN_STAT_CATCH_TRY = 3))
      { State.reset with regs := [(0x1320004, 0x608#32)], asserted := [] } .b 2 = true) ∧
    ((fun (s : State) (h : Half) (n : Nat) => decide (n < 4) && decide (s.spnState (hdaId h n) = 8) && decide ((s.spn (hdaId h n)).resumed = false) && decide ((s.spn (hdaId h n)).parkAsked = false) && decide ((s.spn (hdaId h n)).emf ≤ 64 * max 3800 (s.get (spnB (hdaId h n)) F.SPN_PARKRPM_PARK_RPM)))
      { State.reset with regs := [(0x310004, 0x8#32)], asserted := [] } .a 1 = true) := by
  refine ⟨?_, ?_, ?_, ?_, ?_, ?_, ?_, ?_, ?_, ?_, ?_, ?_, ?_, ?_⟩ <;> decide +kernel

/-- A state and operands meeting the hypotheses of SpindleBrakes, clause by clause. -/
theorem witness_SpindleBrakes :
    ((fun (s : State) (h : Half) (n : Nat) => decide (n < 4) && decide (s.spnState (hdaId h n) = 10) && decide (s.srvState (2 * hdaId h n) ≤ 1) && decide (s.srvState (2 * hdaId h n + 1) ≤ 1))
      { State.reset with regs := [(0x300004, 0xA#32)], asserted := [] } .a 0 = true) ∧
    ((fun (s : State) (hd : Nat) => decide (s.mot.waitB.head? = some hd) &&
      decide (((List.range 8).filter s.mot.brake.testBit).length < 4) && decide (s.mot.chopFailed = false) &&
      decide (s.mot.chopHot = false) && decide ((s.spn hd).forcedShort = false))
      { State.reset with asserted := [], mot := { State.reset.mot with waitB := [5, 6] } } 5 = true) ∧
    ((fun (s : State) (h : Half) (n : Nat) => decide (n < 4) && decide (s.spnState (hdaId h n) = 11) && decide ((s.spn (hdaId h n)).emf ≤ 64 * s.get (spnB (hdaId h n)) F.SPN_BRKCFG_STOP_RPM))
      { State.reset with regs := [(0x1310004, 0xB#32)], asserted := [] } .b 1 = true) ∧
    ((fun (s : State) (h : Half) (n : Nat) => decide (n < 4) && decide (s.spnState (hdaId h n) = 11) && decide ((s.spn (hdaId h n)).emf < 1920) && ((s.spn (hdaId h n)).endOff))
      { State.reset with regs := [(0x310004, 0xB#32)], asserted := [], spns := [(1, { (default : Spn) with emf := 10, period := 100000, periods := [100000, 100001, 100002, 100003, 100004, 100005, 100006, 100007, 100008, 100009, 100010, 100011, 100012, 100013, 100014, 100015, 100016, 100017, 100018, 100019, 100020, 100021, 100022, 100023, 100024, 100025, 100026, 100027, 100028, 100029, 100030, 100031, 100032, 100033, 100034, 100035], since := 1, sinceNs := 50000, rampK := 30, rampT := 300, pulseLim := 20, phaseAt := 140737488355328, nearAt := some 140737488355328, keWaits := true, endOff := true })] } .a 1 = true) ∧
    ((fun (s : State) (h : Half) (n : Nat) => decide (n < 4) && decide (s.spnState (hdaId h n) = 11) && decide ((s.spn (hdaId h n)).emf < 1920) && decide ((s.spn (hdaId h n)).endOff = false) && ((s.spn (hdaId h n)).endFailed))
      { State.reset with regs := [(0x1310004, 0xB#32)], asserted := [], spns := [(5, { (default : Spn) with emf := 10, period := 100000, periods := [100000, 100001, 100002, 100003, 100004, 100005, 100006, 100007, 100008, 100009, 100010, 100011, 100012, 100013, 100014, 100015, 100016, 100017, 100018, 100019, 100020, 100021, 100022, 100023, 100024, 100025, 100026, 100027, 100028, 100029, 100030, 100031, 100032, 100033, 100034, 100035], since := 1, sinceNs := 50000, rampK := 30, rampT := 300, pulseLim := 20, phaseAt := 140737488355328, nearAt := some 140737488355328, keWaits := true, endFailed := true })] } .b 1 = true) ∧
    ((fun (s : State) (h : Half) (n : Nat) => decide (n < 4) && decide (s.spnState (hdaId h n) = 2) && decide ((s.spn (hdaId h n)).emf < 1920) && ((s.spn (hdaId h n)).lateRequest))
      { State.reset with regs := [(0x310004, 0x2#32)], asserted := [], spns := [(1, { (default : Spn) with emf := 300, period := 100000, periods := [100000, 100001, 100002, 100003, 100004, 100005, 100006, 100007, 100008, 100009, 100010, 100011, 100012, 100013, 100014, 100015, 100016, 100017, 100018, 100019, 100020, 100021, 100022, 100023, 100024, 100025, 100026, 100027, 100028, 100029, 100030, 100031, 100032, 100033, 100034, 100035], since := 1, sinceNs := 50000, rampK := 30, rampT := 300, pulseLim := 20, phaseAt := 140737488355328, nearAt := some 140737488355328, keWaits := true, lateRequest := true })] } .a 1 = true) := by
  refine ⟨?_, ?_, ?_, ?_, ?_, ?_⟩ <;> decide +kernel

/-- A state and operands meeting the hypotheses of MotorBusSupervision, clause by clause. -/
theorem witness_MotorBusSupervision :
    ((fun (s : State) (_ : Nat) (_ : Nat) => s.mot.chopOn)
      { State.reset with asserted := [], mot := { State.reset.mot with chopOn := true, budget := 360, taperP := 30 } } 0 0 = true) ∧
    ((fun (s : State) (_ : Nat) => decide (s.mot.step = 3))
      { State.reset with asserted := [], mot := { State.reset.mot with step := 3, budget := 360, taperP := 30 } } 0 = true) ∧
    ((fun (s : State) => decide (s.mot.chopFailed = false) && s.mot.chopOn)
      { State.reset with asserted := [], mot := { State.reset.mot with chopOn := true, budget := 360, taperP := 30 } } = true) ∧
    ((fun (s : State) => decide (s.mot.chopFailed = false) && decide (s.mot.chopOn = false))
      { State.reset with asserted := [] } = true) ∧
    ((fun (s : State) (_ : Bool) => decide (s.mot.chopFailed = false))
      { State.reset with asserted := [] } false = true) ∧
    ((fun (s : State) => s.mot.overBudget && decide (s.mot.budget < s.mot.pmot))
      { State.reset with asserted := [], mot := { State.reset.mot with pmot := 5000, overBudget := true, budget := 360, taperP := 30 } } = true) ∧
    ((fun (s : State) => decide (s.mot.pmot * 10 < 9 * s.mot.budget))
      { State.reset with asserted := [] } = true) := by
  refine ⟨?_, ?_, ?_, ?_, ?_, ?_, ?_⟩ <;> decide +kernel

/-- A state and operands meeting the hypotheses of BufferBringUp, clause by clause. -/
theorem witness_BufferBringUp :
    ((fun (s : State) (h : Half) (d : DimmInfo) => (s.coreUp h) && decide (s.get (B.buf h 0) F.BUF_STAT_STATE = 0) && (dimmGood d))
      { State.reset with asserted := [], up := 3 } .b { (default : DimmInfo) with cap := 160, ranks := 2, x8 := true, rate := 1, supported := true } = true) ∧
    ((fun (s : State) (h : Half) (_ : List (Option DimmInfo)) => (s.coreUp h) && decide (s.get (B.buf h 0) F.BUF_STAT_STATE = 0))
      { State.reset with asserted := [], up := 3 } .b [] = true) ∧
    ((fun (s : State) (h : Half) => (s.coreUp h) && decide (s.get (B.buf h 0) F.BUF_STAT_STATE = 1))
      { State.reset with regs := [(0x102004, 0xC1#32)], asserted := [], up := 3 } .a = true) ∧
    ((fun (s : State) (h : Half) => (s.coreUp h) && decide (s.get (B.buf h 0) F.BUF_STAT_STATE = 2))
      { State.reset with regs := [(0x102004, 0xC2#32)], asserted := [], up := 3 } .a = true) ∧
    ((fun (s : State) (h : Half) (n : Nat) => decide (n < 8) && (s.coreUp h) && decide (s.get (B.buf h 0) F.BUF_STAT_STATE = 2) && decide ((s.resv h).rate < 3))
      { State.reset with regs := [(0x1102004, 0xC2#32)], asserted := [], up := 3 } .b 0 = true) ∧
    ((fun (s : State) (h : Half) (n : Nat) => decide (n < 8) && (s.coreUp h) && decide (s.get (B.buf h 0) F.BUF_STAT_STATE = 2) && decide (3 ≤ (s.resv h).rate))
      { State.reset with regs := [(0x102004, 0xC2#32)], asserted := [], up := 3, resvs := [(0, { (default : Resv) with rate := 3 })] } .a 0 = true) ∧
    ((fun (s : State) (h : Half) (n : Nat) (temp : Nat) => decide (n < 8) && decide (temp < 256) && (s.coreUp h) && (s.bit (B.buf h n) F.BUF_CHSTAT_PRESENT))
      { State.reset with regs := [(0x1110000, 0x1#32)], asserted := [], up := 3 } .b 1 0 = true) ∧
    ((fun (s : State) (h : Half) (k : Nat) (_ : Word) => decide (k < 6) && (s.coreUp h))
      { State.reset with asserted := [], up := 3 } .b 0 0x93FCB22B#32 = true) ∧
    ((fun (s : State) (h : Half) (on : Bool) => (s.coreUp h) && decide (on = true ∨ (s.resv h).banks = []))
      { State.reset with asserted := [], up := 3 } .b true = true) := by
  refine ⟨?_, ?_, ?_, ?_, ?_, ?_, ?_, ?_, ?_⟩ <;> decide +kernel

/-- A state and operands meeting the hypotheses of BufferRequests, clause by clause. -/
theorem witness_BufferRequests :
    ((fun (s : State) (h : Half) (cls : BufCls) (p : Nat) (o : Nat) (n : Nat) (errs : List WordErr) => (s.coreUp h) && decide (0 < n) && decide (o + n ≤ 4096) && decide (s.bufRefuse h cls (4096 * p + o) = .ok) && decide (s.bufBlocked h ⟨cls, false, 4096 * p + o, n, [], errs, false⟩ = false) && decide (s.touched h p = false) && decide (∀ i, i < n → smFind s.mergeBytes (bufBa h (4096 * p + o + i)) = none))
      { State.reset with regs := [(0x1102004, 0xC3#32), (0x1102014, 0x640000#32), (0x1102038, 0x3E8#32)], asserted := [], up := 3 } .b .host 0 0 1 [{ (default : WordErr) with page := 14, pos := 4, sym := [5] }] = true) ∧
    ((fun (s : State) (h : Half) (cls : BufCls) (p : Nat) (o : Nat) (n : Nat) (_ : List WordErr) => (s.coreUp h) && decide (0 < n) && decide (o + n ≤ 4096) && decide (s.bufRefuse h cls (4096 * p + o) ≠ .ok))
      { State.reset with asserted := [], up := 3 } .a .sdm 0 0 1 [{ (default : WordErr) with page := 12, pos := 45, sym := [1, 2] }, { (default : WordErr) with page := 10, pos := 41, sym := [5] }, { (default : WordErr) with page := 1, pos := 39, sym := [5] }] = true) ∧
    ((fun (s : State) (h : Half) (cls : BufCls) (p : Nat) (o : Nat) (bs : List Byte) => (s.coreUp h) && decide (bs ≠ []) && decide (o + bs.length ≤ 4096) && decide (s.bufRefuse h cls (4096 * p + o) = .ok) && decide (s.bufBlocked h ⟨cls, true, 4096 * p + o, bs.length, bs, [], false⟩ = false) && (s.touched h p) && decide (∀ i, i < bs.length → smFind s.cacheBytes (bufBa h (4096 * p + o + i)) = none))
      { State.reset with regs := [(0x1102004, 0xC3#32), (0x1102038, 0x3E8#32)], asserted := [], up := 3, resvs := [(1, { (default : Resv) with touched := [(0, true)] })] } .b .merge 0 0 [0xD8#8, 0xC3#8] = true) ∧
    ((fun (s : State) (h : Half) (cls : BufCls) (p : Nat) (o : Nat) (bs : List Byte) => (s.coreUp h) && decide (bs ≠ []) && decide (o + bs.length ≤ 4096) && decide (s.bufRefuse h cls (4096 * p + o) = .ok) && decide (s.bufBlocked h ⟨cls, true, 4096 * p + o, bs.length, bs, [], false⟩ = false) && decide (s.touched h p = false))
      { State.reset with regs := [(0x1102004, 0xC3#32), (0x1102014, 0x640000#32), (0x1102038, 0x3E8#32)], asserted := [], up := 3 } .b .host 0 0 [0x23#8] = true) ∧
    ((fun (s : State) (h : Half) (r : Nat) => decide (r ∈ (s.resv h).fills.take 16))
      { State.reset with asserted := [], resvs := [(1, { (default : Resv) with fills := [9] })] } .b 9 = true) ∧
    ((fun (s : State) (h : Half) (p : Nat) (idle : Nat) (_ : List WordErr) => decide (p ∈ (s.resv h).merge) && decide (min1 (s.get (B.buf h 0) F.BUF_CTL_MERGE_IDLE) ≤ idle))
      { State.reset with asserted := [], resvs := [(0, { (default : Resv) with merge := [3] })] } .a 3 20 [{ (default : WordErr) with page := 8, pos := 8, sym := [1, 2] }, { (default : WordErr) with page := 6, pos := 19, sym := [5] }, { (default : WordErr) with page := 13, pos := 48, sym := [5] }] = true) ∧
    ((fun (s : State) (h : Half) (count : Nat) (r : Nat) => (s.coreUp h) && decide ((s.resv h).fills = []) && decide ((s.resv h).waiting = []) && decide ((s.cache h).miss = []) && decide ((s.cache h).waiting = []) && decide ((s.cache h).maint = none) && decide ((s.cache h).walks = []) && decide (s.get (B.buf h 0) F.BUF_RELBASE_REGION ≤ r) && decide (r < s.get (B.buf h 0) F.BUF_RELBASE_REGION + count))
      { State.reset with asserted := [], up := 3 } .a 18 0 = true) := by
  refine ⟨?_, ?_, ?_, ?_, ?_, ?_, ?_⟩ <;> decide +kernel

/-- A state and operands meeting the hypotheses of BufferScrubAndRetirement, clause by clause. -/
theorem witness_BufferScrubAndRetirement :
    ((fun (s : State) (h : Half) (us : Nat) (_ : List WordErr) => (s.coreUp h) && (s.bufReady h) && (s.bit (B.buf h 0) F.BUF_CTL_SCRUB_EN) && decide ((s.resv h).retire = none) && decide (min1 (s.get (B.buf h 0) F.BUF_SCRUBCFG_PERIOD) * 3600000000 ≤ us * s.bufD h) && decide (s.get (B.buf h 0) F.BUF_SCRUBSTAT_CP + 1 < s.bufD h))
      { State.reset with regs := [(0x100004, 0x10000#32), (0x102004, 0xC3#32)], asserted := [], up := 3 } .a 48029449 [{ (default : WordErr) with page := 9, pos := 6, sym := [1, 2] }] = true) ∧
    ((fun (s : State) (h : Half) (us : Nat) => s.coreUp h && s.bufReady h && s.bit (B.buf h 0) F.BUF_CTL_SCRUB_EN && decide ((s.resv h).retire = none) &&
      decide (min1 (s.get (B.buf h 0) F.BUF_SCRUBCFG_PERIOD) * 3600000000 ≤ us * s.bufD h) && decide (s.bufD h ≤ s.get (B.buf h 0) F.BUF_SCRUBSTAT_CP + 1))
      (let s : State := { State.reset with regs := [(0x100004, 0x10000#32), (0x102004, 0xC3#32)], asserted := [], up := 3 }
       s.put (B.buf .a 0) F.BUF_SCRUBSTAT_CP (s.bufD .a - 1)) .a (10 ^ 12) = true) ∧
    ((fun (s : State) (h : Half) (_ : List WordErr) => (s.coreUp h) && decide ((s.resv h).retire = none) && decide (s.get (B.buf h 0) F.BUF_RETFROM_FROM / 2 ^ 14 < s.get (B.buf h 0) F.BUF_DATATOP_TOP) && decide (s.get (B.buf h 0) F.BUF_RETFROM_FROM ∉ (s.resv h).remap) && decide ((s.resv h).remap.length < 4096) && decide (s.touched h (s.get (B.buf h 0) F.BUF_RETFROM_FROM) = false))
      { State.reset with regs := [(0x102038, 0x3E8#32)], asserted := [], up := 3 } .a [{ (default : WordErr) with page := 17, pos := 13, sym := [5] }, { (default : WordErr) with page := 15, pos := 56, sym := [5] }, { (default : WordErr) with page := 16, pos := 28, sym := [1, 2] }] = true) ∧
    ((fun (s : State) (h : Half) (_ : List WordErr) => (s.coreUp h) && decide ((s.resv h).retire = none) && decide (s.get (B.buf h 0) F.BUF_RETFROM_FROM / 2 ^ 14 < s.get (B.buf h 0) F.BUF_DATATOP_TOP) && decide (s.get (B.buf h 0) F.BUF_RETFROM_FROM ∉ (s.resv h).remap) && decide ((s.resv h).remap.length < 4096) && (s.touched h (s.get (B.buf h 0) F.BUF_RETFROM_FROM)))
      { State.reset with regs := [(0x1102038, 0x3E8#32)], asserted := [], up := 3, resvs := [(1, { (default : Resv) with touched := [(0, true)] })] } .b [{ (default : WordErr) with page := 8, pos := 42, sym := [5] }, { (default : WordErr) with page := 5, pos := 65, sym := [1, 2] }, { (default : WordErr) with page := 7, pos := 56, sym := [5] }] = true) ∧
    ((fun (s : State) (h : Half) (_ : List WordErr) => (s.coreUp h) && ((s.resv h).retire.isSome))
      { State.reset with asserted := [], up := 3, resvs := [(1, { (default : Resv) with retire := some { (default : Retire) with bank := true, frm := 1 } })] } .b [{ (default : WordErr) with page := 18, pos := 19, sym := [5] }] = true) ∧
    ((fun (s : State) (h : Half) (ch : Nat) (bidx : Nat) => (s.coreUp h) && decide ((s.resv h).retire = none) && (s.bit (B.buf h 0) F.BUF_STAT_SPARING) && decide (ch < 8) && decide (bidx < 32 * s.bufRanks h) && decide (bidx ≠ s.slotBank h) && decide (s.get (B.buf h 0) F.BUF_RETFROM_FROM % 0x200 = bankCode ch bidx) && decide (bankCode ch bidx ∉ (s.resv h).banks) && decide ((s.resv h).banks.length < 8))
      { State.reset with regs := [(0x1102004, 0xC2#32)], asserted := [], up := 3 } .b 0 0 = true) ∧
    ((fun (s : State) (h : Half) (_ : List WordErr) => (s.coreUp h) && ((s.resv h).retire.isSome))
      { State.reset with asserted := [], up := 3, resvs := [(1, { (default : Resv) with retire := some { (default : Retire) with bank := true, frm := 1 } })] } .b [{ (default : WordErr) with page := 18, pos := 19, sym := [5] }] = true) := by
  refine ⟨?_, ?_, ?_, ?_, ?_, ?_, ?_⟩ <;> decide +kernel

/-- A state and operands meeting the hypotheses of CacheRequests, clause by clause. -/
theorem witness_CacheRequests :
    ((fun (s : State) (h : Half) (p : Nat) (o : Nat) (n : Nat) => (s.coreUp h) && decide (0 < n) && decide (o + n ≤ 4096) && decide (s.bufRefuse h .host (4096 * p + o) = .ok) && decide ((s.cache h).waiting = []) && decide ((s.cache h).maint = none) && decide ((s.cache h).walks = []) && (((s.cache h).wayOf p).any fun w => (((s.cache h).line p w).any fun l => decide (l.evict = false) && (l.serves ⟨.host, false, 4096 * p + o, n, [], [], false⟩))))
      { State.reset with regs := [(0x1102004, 0xC3#32), (0x1102014, 0x640000#32), (0x1102038, 0x3E8#32)], asserted := [], up := 3, caches := [(1, { (default : Cache) with lines := [(19, { (default : Line) with page := 1, valid := 18446744073709551615, dirty := 5 })] })] } .b 1 0 1 = true) ∧
    ((fun (s : State) (h : Half) (p : Nat) (o : Nat) (bs : List Byte) => (s.coreUp h) && decide (bs ≠ []) && decide (o + bs.length ≤ 4096) && decide (s.bufRefuse h .host (4096 * p + o) = .ok) && decide ((s.cache h).waiting = []) && decide ((s.cache h).maint = none) && decide ((s.cache h).walks = []) && (((s.cache h).wayOf p).any fun w => (((s.cache h).line p w).any fun l => decide (l.evict = false) && (l.serves ⟨.host, true, 4096 * p + o, bs.length, bs, [], false⟩))))
      { State.reset with regs := [(0x1102004, 0xC3#32), (0x1102014, 0x640000#32), (0x1102038, 0x3E8#32)], asserted := [], up := 3, caches := [(1, { (default : Cache) with lines := [(19, { (default : Line) with page := 1, valid := 18446744073709551615, dirty := 5 })] })] } .b 1 0 [0x48#8, 0x17#8, 0xF#8] = true) ∧
    ((fun (s : State) (h : Half) (p : Nat) (o : Nat) (n : Nat) => (s.coreUp h) && decide (0 < n) && decide (o + n ≤ 4096) && decide (s.bufRefuse h .host (4096 * p + o) = .ok) && decide ((s.cache h).waiting = []) && decide ((s.cache h).maint = none) && decide ((s.cache h).walks = []) && decide ((s.cache h).wayOf p = none) && (s.allocates h ⟨.host, false, 4096 * p + o, n, [], [], false⟩) && decide ((s.cache h).miss.length < s.missLimit h) && ((List.range 16).find? (fun w => s.eligible h p w && ((s.cache h).line p w).isNone)).any fun _ => true)
      { State.reset with regs := [(0x1102004, 0xC3#32), (0x1102014, 0x640000#32), (0x1102038, 0x3E8#32)], asserted := [], up := 3 } .b 0 0 1 = true) ∧
    ((fun (s : State) (h : Half) (k : Nat) (_ : List WordErr) => decide ((s.cache h).waiting = []) && decide ((s.cache h).maint = none) && decide ((s.cache h).walks = []) && ((smFind (s.cache h).miss k).any fun m => (((s.cache h).line m.page m.way).isSome) && decide (s.bufBlocked h ⟨(m.reqs.map (·.cls)).headD .table, false, 4096 * m.page, 4096, [], [], false⟩ = false)))
      { State.reset with asserted := [], caches := [(0, { (default : Cache) with lines := [(67, { (default : Line) with page := 4, pend := 3 })], miss := [(4, { (default : MissReg) with page := 4, way := 3, count := 2, reqs := [{ (default : CReq) with ha := 16448, len := 2 }, { (default : CReq) with write := true, ha := 16448, len := 2, bytes := [0x1#8, 0x2#8] }, { (default : CReq) with ha := 16448, len := 2 }], lock := true })] })] } .a 4 [{ (default : WordErr) with page := 3, pos := 61, sym := [5] }, { (default : WordErr) with page := 4, pos := 35, sym := [5] }, { (default : WordErr) with page := 2, pos := 42, sym := [5] }] = true) ∧
    ((fun (s : State) (h : Half) (p : Nat) => decide ((s.cache h).waiting = []) && decide ((s.cache h).maint = none) && decide ((s.cache h).walks = []) && (((s.cache h).wayOf p).any fun w => (((s.cache h).line p w).any fun l => l.evict)))
      { State.reset with asserted := [], caches := [(0, { (default : Cache) with lines := [(3, { (default : Line) with valid := 18446744073709551615, dirty := 5, evict := true })] })] } .a 0 = true) ∧
    ((fun (s : State) (h : Half) (mode : Nat) => decide (mode < 4) && (s.coreUp h))
      { State.reset with asserted := [], up := 3 } .b 0 = true) := by
  refine ⟨?_, ?_, ?_, ?_, ?_, ?_⟩ <;> decide +kernel

/-- A state and operands meeting the hypotheses of CacheMaintenance, clause by clause. -/
theorem witness_CacheMaintenance :
    ((fun (s : State) (h : Half) => (s.coreUp h) && decide ((s.cache h).waiting = []) && decide ((s.cache h).walks = []) && decide (s.get (B.bca h) F.BCA_MSTAT_STATE ≠ 1) && decide (s.get (B.bca h) F.BCA_MBASE_PAGE < s.get (B.buf h 0) F.BUF_DATATOP_TOP * 16384) && (((s.cache h).wayOf (s.get (B.bca h) F.BCA_MBASE_PAGE)).any fun w => (((s.cache h).line (s.get (B.bca h) F.BCA_MBASE_PAGE) w).any fun l => decide ((s.cache h).lineBusy l = false))))
      { State.reset with regs := [(0x102038, 0x3E8#32)], asserted := [], up := 3, caches := [(0, { (default : Cache) with lines := [(3, { (default : Line) with valid := 18446744073709551615, dirty := 5, locked := true })] })] } .a = true) ∧
    ((fun (s : State) (h : Half) => (s.coreUp h) && decide ((s.cache h).waiting = []) && decide ((s.cache h).walks = []) && decide (s.get (B.bca h) F.BCA_MSTAT_STATE ≠ 1) && decide (s.get (B.bca h) F.BCA_MBASE_PAGE < s.get (B.buf h 0) F.BUF_DATATOP_TOP * 16384) && (((s.cache h).wayOf (s.get (B.bca h) F.BCA_MBASE_PAGE)).any fun w => (((s.cache h).line (s.get (B.bca h) F.BCA_MBASE_PAGE) w).any fun l => decide ((s.cache h).lineBusy l = false) && decide (l.locked = false))))
      { State.reset with regs := [(0x1102038, 0x3E8#32)], asserted := [], up := 3, caches := [(1, { (default : Cache) with lines := [(3, { (default : Line) with valid := 9 })] })] } .b = true) ∧
    ((fun (s : State) (h : Half) => (s.coreUp h) && decide ((s.cache h).waiting = []) && decide ((s.cache h).walks = []) && decide (s.get (B.bca h) F.BCA_MSTAT_STATE ≠ 1) && decide (s.get (B.bca h) F.BCA_MBASE_PAGE < s.get (B.buf h 0) F.BUF_DATATOP_TOP * 16384) && (((s.cache h).wayOf (s.get (B.bca h) F.BCA_MBASE_PAGE)).any fun w => (((s.cache h).line (s.get (B.bca h) F.BCA_MBASE_PAGE) w).any fun l => decide ((s.cache h).lineBusy l = false) && decide (l.locked = false))))
      { State.reset with regs := [(0x1102038, 0x3E8#32)], asserted := [], up := 3, caches := [(1, { (default : Cache) with lines := [(3, { (default : Line) with valid := 9 })] })] } .b = true) ∧
    ((fun (s : State) (h : Half) => (s.coreUp h) && decide ((s.cache h).waiting = []) && decide ((s.cache h).walks = []) && decide (s.get (B.bca h) F.BCA_MSTAT_STATE ≠ 1) && decide (s.get (B.bca h) F.BCA_MBASE_PAGE < s.get (B.buf h 0) F.BUF_DATATOP_TOP * 16384) && (((s.cache h).wayOf (s.get (B.bca h) F.BCA_MBASE_PAGE)).any fun w => (((s.cache h).line (s.get (B.bca h) F.BCA_MBASE_PAGE) w).any fun l => decide ((s.cache h).lineBusy l = false) && l.locked)))
      { State.reset with regs := [(0x102038, 0x3E8#32)], asserted := [], up := 3, caches := [(0, { (default : Cache) with lines := [(3, { (default : Line) with valid := 18446744073709551615, dirty := 5, locked := true })] })] } .a = true) ∧
    ((fun (s : State) (h : Half) => (s.coreUp h) && decide ((s.cache h).waiting = []) && decide ((s.cache h).walks = []) && decide (s.get (B.bca h) F.BCA_MSTAT_STATE ≠ 1) && decide (s.get (B.bca h) F.BCA_MBASE_PAGE < s.get (B.buf h 0) F.BUF_DATATOP_TOP * 16384) && decide ((s.cache h).wayOf (s.get (B.bca h) F.BCA_MBASE_PAGE) = none) && decide ((s.cache h).line (s.get (B.bca h) F.BCA_MBASE_PAGE) 0 = none) && decide (smGet false (s.cache h).disabled (lineKey (s.get (B.bca h) F.BCA_MBASE_PAGE) 0) = false) && decide ((s.cache h).miss.length < s.missLimit h))
      { State.reset with regs := [(0x1102038, 0x3E8#32)], asserted := [], up := 3 } .b = true) ∧
    ((fun (s : State) (h : Half) (_ : Bool) (_ : Bool) (_ : Bool) => (s.coreUp h) && decide (s.get (B.bca h) F.BCA_MSTAT_STATE = 1))
      { State.reset with regs := [(0x1100C, 0x1#32)], asserted := [], up := 3 } .a true true false = true) ∧
    ((fun (s : State) (h : Half) => (((s.cache h).maint).any fun m => m.walked && decide ((s.cache h).miss.any (·.2.lock) = false)))
      { State.reset with asserted := [], caches := [(0, { (default : Cache) with maint := some { (default : Maint) with op := 1, count := 1, at_ := 1, walked := true } })] } .a = true) ∧
    ((fun (s : State) (h : Half) (k : Nat) => decide (k < 8) && (s.coreUp h) && decide (s.maskBit (B.bca h) F.BCA_WAYPWR_OFF_REQ k = false))
      { State.reset with asserted := [], up := 3 } .b 0 = true) ∧
    ((fun (s : State) (h : Half) (k : Nat) => decide (k < 8) && decide (smFind (s.cache h).walks (8 + k) = some 1024))
      { State.reset with asserted := [], caches := [(1, { (default : Cache) with walks := [(8, 1024)] })] } .b 0 = true) ∧
    ((fun (s : State) (h : Half) (k : Nat) => decide (k < 8) && (s.coreUp h) && (s.maskBit (B.bca h) F.BCA_WAYPWR_OFF_REQ k) && (s.maskBit (B.bca h) F.BCA_WAYSTAT_OFF k))
      { State.reset with regs := [(0x1010010, 0xFF#32), (0x1010014, 0xFF#32)], asserted := [], up := 3 } .b 0 = true) ∧
    ((fun (s : State) (h : Half) (k : Nat) => decide (k < 8) && (s.maskBit (B.bca h) F.BCA_WAYSTAT_WAKING k))
      { State.reset with regs := [(0x1010014, 0xFF0000#32)], asserted := [] } .b 0 = true) := by
  refine ⟨?_, ?_, ?_, ?_, ?_, ?_, ?_, ?_, ?_, ?_, ?_⟩ <;> decide +kernel

/-- A state and operands meeting the hypotheses of HostRings, clause by clause. -/
theorem witness_HostRings :
    ((fun (s : State) (h : Half) (q : Nat) (tail : Nat) => decide (q < 256) && (s.takesDoorbells h) && (s.sqOn h q) && decide (s.sqErr h q = false) && decide (tail < s.get (sqB h q) F.SQ_DEPTH) && decide (tail ≠ smGet 0 (s.hif h).tails q) && decide ((tail + s.get (sqB h q) F.SQ_DEPTH - smGet 0 (s.hif h).tails q) % s.get (sqB h q) F.SQ_DEPTH + ((s.hif h).entries.filter (·.sq == q)).length ≤ s.get (sqB h q) F.SQ_DEPTH - 1))
      { State.reset with regs := [(0x1000000, 0x1#32), (0x1002018, 0x80020010#32)], asserted := [], up := 3 } .b 1 1 = true) ∧
    ((fun (s : State) (h : Half) (q : Nat) (tail : Nat) => decide (q < 256) && decide (tail < 2 ^ 13) && (s.takesDoorbells h) && (s.sqOn h q) && decide (s.sqErr h q = false) && decide (s.get (sqB h q) F.SQ_DEPTH ≤ tail))
      { State.reset with regs := [(0x1000000, 0x1#32), (0x1002008, 0x80020010#32)], asserted := [], up := 3 } .b 0 16 = true) ∧
    ((fun (s : State) (h : Half) (q : Nat) (head : Nat) => decide (q < 256) && (s.takesDoorbells h) && (s.cqOn h q) && decide (s.cqErr h q = false) && decide (head < s.get (cqB h q) F.CQ_DEPTH) && decide ((head + s.get (cqB h q) F.CQ_DEPTH - (s.cq h q).head) % s.get (cqB h q) F.CQ_DEPTH ≤ ((s.cq h q).post + s.get (cqB h q) F.CQ_DEPTH - (s.cq h q).head) % s.get (cqB h q) F.CQ_DEPTH))
      { State.reset with regs := [(0x1000000, 0x1#32), (0x1003018, 0xA0010010#32)], asserted := [], up := 3 } .b 1 0 = true) ∧
    ((fun (s : State) (h : Half) (words : List Nat) (_ : List (Nat × Nat)) => decide (words.length = 16) && (s.coreUp h) && decide ((s.hif h).stopped = false) && (((s.hif h).entries.head?).any fun e => decide (e.sq < 256) && (s.sqOn h e.sq) && decide (s.sqErr h e.sq = false)))
      { State.reset with regs := [(0x1002038, 0x80030010#32)], asserted := [], up := 3, hifs := [(1, { (default : Hif) with entries := [{ (default : Entry) with n := 61, sq := 3, idx := 6, excess := true }] })] } .b ([11] ++ List.replicate 15 0) [(31, 0), (1680, 0), (25, 1)] = true) ∧
    ((fun (s : State) (h : Half) (words : List Nat) (_ : List (Nat × Nat)) => decide (words.length = 16) && (s.coreUp h) && decide ((s.hif h).stopped = false) && (((s.hif h).entries.head?).any fun e => decide (e.sq < 256) && (s.sqOn h e.sq) && decide (s.sqErr h e.sq = false) && e.excess && decide (s.cmd h e.n = none)))
      { State.reset with regs := [(0x2038, 0x80030010#32)], asserted := [], up := 3, hifs := [(0, { (default : Hif) with entries := [{ (default : Entry) with n := 61, sq := 3, idx := 6, excess := true }] })] } .a [978, 46, 29, 3, 1, 1861, 46, 15, 4, 0, 4, 4, 146, 527, 111, 5] [(11, 1), (2079, 23), (17, 2)] = true) ∧
    ((fun (s : State) (h : Half) => (s.coreUp h) && decide ((s.hif h).stopped = false) && (((s.hif h).entries.head?).any fun e => decide (e.sq < 256) && (s.sqOn h e.sq) && decide (s.sqErr h e.sq = false) && decide (e.excess = false) && decide (s.cmd h e.n = none)))
      { State.reset with regs := [(0x1002038, 0x80030010#32)], asserted := [], up := 3, hifs := [(1, { (default : Hif) with entries := [{ (default : Entry) with n := 60, sq := 3, idx := 5 }] })] } .b = true) ∧
    ((fun (s : State) (h : Half) (q : Nat) => decide (q < 256) && (s.coreUp h) && decide (s.sqOn h q = false) && decide (s.sqErr h q = false))
      { State.reset with asserted := [], up := 3 } .b 0 = true) ∧
    ((fun (s : State) (h : Half) (q : Nat) => decide (q < 256) && (s.coreUp h) && decide (s.cqOn h q = false) && decide (s.cqErr h q = false))
      { State.reset with asserted := [], up := 3 } .b 0 = true) ∧
    ((fun (s : State) (h : Half) (q : Nat) => decide (q < 256) && (s.coreUp h) && (s.sqOn h q))
      { State.reset with regs := [(0x1002008, 0x80020010#32)], asserted := [], up := 3 } .b 0 = true) ∧
    ((fun (s : State) (h : Half) (q : Nat) => decide (q < 256) && (s.coreUp h) && (s.cqOn h q))
      { State.reset with regs := [(0x1003008, 0xA0000010#32)], asserted := [], up := 3 } .b 0 = true) ∧
    ((fun (s : State) (h : Half) (q : Nat) (_ : Word) => decide (q < 256) && (s.coreUp h) && decide (s.sqOn h q = false))
      { State.reset with asserted := [], up := 3 } .b 0 0x93FCB22B#32 = true) ∧
    ((fun (s : State) (h : Half) (q : Nat) (w : Nat) (_ : Word) => decide (q < 256) && decide (w < 3) && (s.coreUp h) && (s.cqOn h q))
      { State.reset with regs := [(0x1003018, 0xA0010010#32)], asserted := [], up := 3 } .b 1 0 0xD047BD08#32 = true) ∧
    ((fun (s : State) (h : Half) => (s.coreUp h))
      { State.reset with asserted := [], up := 3 } .b = true) ∧
    ((fun (s : State) (h : Half) (q : Nat) (us : Nat) => decide (q < 256) && decide ((s.cq h q).uncovered ≠ 0) && (s.cqOn h q) && (s.bit (cqB h q) F.CQ_IEN) && decide (min1 (s.get (cqB h q) F.CQ_AGG_US) ≤ us))
      { State.reset with regs := [(0x3028, 0xA0020010#32)], asserted := [], hifs := [(0, { (default : Hif) with cqs := [(2, { (default : Cq) with post := 3, head := 5, uncovered := 2 })] })] } .a 2 1 = true) ∧
    ((fun (s : State) (h : Half) => (s.coreUp h))
      { State.reset with asserted := [], up := 3 } .b = true) ∧
    ((fun (s : State) (h : Half) => (s.coreUp h))
      { State.reset with asserted := [], up := 3 } .b = true) := by
  refine ⟨?_, ?_, ?_, ?_, ?_, ?_, ?_, ?_, ?_, ?_, ?_, ?_, ?_, ?_, ?_, ?_⟩ <;> decide +kernel

/-- A state and operands meeting the hypotheses of HostStartsAndEnds, clause by clause. -/
theorem witness_HostStartsAndEnds :
    ((fun (s : State) (h : Half) => (s.coreUp h) && (((s.hostSettle.hif h).held.find? (s.hostSettle.canStart h)).any fun c => decide (s.hostSettle.startBar h c = none)))
      { State.reset with asserted := [], up := 3, hifs := [(1, { (default : Hif) with held := [{ (default : Cmd) with n := 137, sq := 1, words := ([2, 1, 0, 0, 0, 0, 151552] ++ List.replicate 9 0) }] })] } .b = true) ∧
    ((fun (s : State) (h : Half) (n : Nat) => ((s.cmd h n).any fun c => ((c.result).any fun _ => decide (c.dropped = false) && (s.portUp h) && decide (c.sq < 256) && (s.cqOn h (s.get (sqB h c.sq) F.SQ_CQID)) && decide (s.cqErr h (s.get (sqB h c.sq) F.SQ_CQID) = false) && decide (s.cqFull h (s.get (sqB h c.sq) F.SQ_CQID) = false) && decide ((s.cq h (s.get (sqB h c.sq) F.SQ_CQID)).waiting = []))))
      { State.reset with regs := [(0x4, 0x2#32), (0x2018, 0x80020010#32), (0x3028, 0xA0020010#32)], asserted := [], hifs := [(0, { (default : Hif) with held := [{ (default : Cmd) with n := 34, sq := 1, words := ([1, 2, 0, 0, 0, 0, 139264] ++ List.replicate 9 0), started := true, result := some (0, 0, 1) }] })] } .a 34 = true) ∧
    ((fun (s : State) (h : Half) (n : Nat) => ((s.cmd h n).any fun c => c.hostReads))
      { State.reset with asserted := [], hifs := [(0, { (default : Hif) with held := [{ (default : Cmd) with n := 5, sq := 1, words := ([514, 2, 0, 0, 0, 0, 20480] ++ List.replicate 9 0), started := true }] })] } .a 5 = true) ∧
    ((fun (s : State) (h : Half) (n : Nat) (_ : List Byte) => decide (n ≠ 0) && ((s.cmd h n).any fun c => c.hostReads))
      { State.reset with asserted := [], hifs := [(0, { (default : Hif) with held := [{ (default : Cmd) with n := 5, sq := 1, words := ([514, 2, 0, 0, 0, 0, 20480] ++ List.replicate 9 0), started := true }] })] } .a 5 (List.replicate 12288 0x9F#8) = true) ∧
    ((fun (s : State) (h : Half) (u : Nat) => decide (u < 8) && (((s.fmt (actId h u)).op).any fun op => op.rangeWait && decide ((s.wick (actId h u)).desc = none)))
      { State.reset with asserted := [], fmts := [(8, { (default : Fmt) with op := some { (default : FmtOp) with rangeWait := true }, passed := true })] } .b 0 = true) := by
  refine ⟨?_, ?_, ?_, ?_, ?_⟩ <;> decide +kernel

/-- A state and operands meeting the hypotheses of HostDataCommands, clause by clause. -/
theorem witness_HostDataCommands :
    ((fun (s : State) (h : Half) (n : Nat) => (((s.taken h n).running h n 1).any fun c => (((s.taken h n).ns h c.nsid).any fun m => m.ram && ((List.range c.count).all (fun i => (List.range 64).all fun w => !s.poisoned m.half (m.ramHa (c.lba + i) / 4096) w)))))
      { State.reset with regs := [(0x4000, 0x3#32)], asserted := [], up := 3, hifs := [(0, { (default : Hif) with held := [{ (default : Cmd) with n := 1, sq := 1, words := ([1, 1, 0, 0, 0, 0, 4096] ++ List.replicate 9 0), started := true }] })] } .a 1 = true) ∧
    ((fun (s : State) (h : Half) (n : Nat) => (((s.taken h n).running h n 1).any fun c => (((s.taken h n).ns h c.nsid).any fun m => decide (m.ram = false) && decide (c.fail = none) && decide (c.left = 0) && decide (c.lost = []) && ((m.sectors c.lba c.count).all (fun x => ((s.taken h n).resident x.2.1 x.2.2).isSome)))))
      { State.reset with regs := [(0x4040, 0x1#32)], asserted := [], up := 3, hifs := [(0, { (default : Hif) with held := [{ (default : Cmd) with n := 2, sq := 1, words := ([1, 2, 0, 0, 0, 0, 8192] ++ List.replicate 9 0), started := true }] })] } .a 2 = true) ∧
    ((fun (s : State) (h : Half) (n : Nat) (data : List Byte) => ((s.hostSettle.running h n 2).any fun c => decide (c.staged = false) && decide (data.length = 4096 * c.count) && ((s.hostSettle.ns h c.nsid).any fun m => m.ram)))
      { State.reset with regs := [(0x4000, 0x3#32)], asserted := [], up := 3, hifs := [(0, { (default : Hif) with held := [{ (default : Cmd) with n := 3, sq := 1, words := ([2, 1, 0, 0, 0, 0, 12288] ++ List.replicate 9 0), started := true }] })] } .a 3 (List.replicate 4096 0xF5#8) = true) ∧
    ((fun (s : State) (h : Half) (n : Nat) (data : List Byte) => ((s.hostSettle.running h n 2).any fun c => decide (c.staged = false) && decide (data.length = 4096 * c.count) && ((s.hostSettle.ns h c.nsid).any fun m => decide (m.ram = false) && decide (c.buffered = false))))
      { State.reset with regs := [(0x4040, 0x1#32)], asserted := [], up := 3, hifs := [(0, { (default : Hif) with held := [{ (default : Cmd) with n := 4, sq := 1, words := ([2, 2, 0, 0, 0, 0, 16384] ++ List.replicate 9 0), started := true }] })] } .a 4 (List.replicate 4096 0x85#8) = true) ∧
    ((fun (s : State) (h : Half) (n : Nat) (data : List Byte) => ((s.hostSettle.running h n 2).any fun c => decide (c.staged = false) && decide (data.length = 4096 * c.count) && ((s.hostSettle.ns h c.nsid).any fun m => decide (m.ram = false) && c.buffered)))
      { State.reset with regs := [(0x4040, 0x1#32)], asserted := [], up := 3, hifs := [(0, { (default : Hif) with held := [{ (default : Cmd) with n := 5, sq := 1, words := ([514, 2, 0, 0, 0, 0, 20480] ++ List.replicate 9 0), started := true }] })] } .a 5 (List.replicate 4096 0x85#8) = true) ∧
    ((fun (s : State) (h : Half) (n : Nat) => (((s.taken h n).running h n 2).any fun c => (((s.taken h n).ns h c.nsid).any fun m => c.staged && decide (c.issued = false) && (((s.taken h n).stripesAt (m.sectors c.lba c.count)).all (fun g => ((s.taken h n).mediaBar h g.1).isNone)))))
      { State.reset with regs := [(0x4040, 0x1#32)], asserted := [], up := 3, hifs := [(0, { (default : Hif) with held := [{ (default : Cmd) with n := 6, sq := 1, words := ([2, 2, 0, 0, 0, 0, 24576] ++ List.replicate 9 0), started := true, staged := true }] })] } .a 6 = true) ∧
    ((fun (s : State) (h : Half) (n : Nat) => (((s.taken h n).running h n 2).any fun c => (((s.taken h n).ns h c.nsid).any fun m => c.staged && c.issued && decide (c.left = 0) && decide (c.fail = none) && decide (c.lost = []) && decide (((s.taken h n).stripesAt (m.sectors c.lba c.count)).any (s.taken h n).stripeBusy = false))))
      { State.reset with regs := [(0x4040, 0x1#32)], asserted := [], up := 3, hifs := [(0, { (default : Hif) with held := [{ (default : Cmd) with n := 7, sq := 1, words := ([2, 2, 0, 0, 0, 0, 28672] ++ List.replicate 9 0), started := true, issued := true, staged := true }] })] } .a 7 = true) ∧
    ((fun (s : State) (h : Half) (n : Nat) => (((s.taken h n).running h n 3).any fun c => (((s.taken h n).ns h c.nsid).any fun _ => c.issued && decide (c.left = 0) && decide (c.fail = none) && decide (c.lost = []))))
      { State.reset with regs := [(0x4040, 0x1#32)], asserted := [], up := 3, hifs := [(0, { (default : Hif) with held := [{ (default : Cmd) with n := 8, sq := 1, words := ([3, 2, 0, 0, 0, 0, 32768] ++ List.replicate 9 0), started := true, issued := true }] })] } .a 8 = true) ∧
    ((fun (s : State) (h : Half) (n : Nat) => ((s.hostSettle.running h n 4).any fun c => decide (c.issued = false) && decide (s.hostSettle.coverOf h c = [])))
      { State.reset with asserted := [], up := 3, hifs := [(0, { (default : Hif) with held := [{ (default : Cmd) with n := 11, sq := 1, words := ([4, 2, 0, 0, 0, 0, 45056] ++ List.replicate 9 0), started := true }] })] } .a 11 = true) ∧
    ((fun (s : State) (h : Half) (n : Nat) => (((s.taken h n).running h n 5).any fun c => (((s.taken h n).ns h c.nsid).any fun m => m.ram)))
      { State.reset with regs := [(0x1004000, 0x3#32)], asserted := [], up := 3, hifs := [(1, { (default : Hif) with held := [{ (default : Cmd) with n := 113, sq := 1, words := [5, 1, 0, 0, 0, 0, 53248, 0, 20, 0, 0, 0, 0, 0, 0, 0], started := true }] })] } .b 113 = true) ∧
    ((fun (s : State) (h : Half) (n : Nat) => (((s.taken h n).running h n 5).any fun c => (((s.taken h n).ns h c.nsid).any fun m => decide (m.ram = false) && decide (c.issued = false) && ((stripesOf (m.sectors c.lba c.count)).all (fun k => ((m.sectors c.lba c.count).filter fun x => stripeKey x.2.1 x.2.2 == k).length == 60)))))
      { State.reset with regs := [(0x4040, 0x1#32)], asserted := [], up := 3, hifs := [(0, { (default : Hif) with held := [{ (default : Cmd) with n := 14, sq := 1, words := [5, 2, 0, 0, 0, 0, 57344, 0, 60, 0, 0, 0, 0, 0, 0, 0], started := true }] })] } .a 14 = true) ∧
    ((fun (s : State) (h : Half) (n : Nat) => (((s.taken h n).running h n 8).any fun c => (((s.taken h n).ns h c.nsid).any fun m => decide (c.fail = none) && decide (c.left = 0) && decide (c.lost = []) && decide ((m.sectors c.lba c.count).length ≤ (s.taken h n).pinRoom .a) && decide ((m.sectors c.lba c.count).length ≤ (s.taken h n).pinRoom .b) && ((m.sectors c.lba c.count).all (fun x => ((s.taken h n).resident x.2.1 x.2.2).isSome)))))
      { State.reset with regs := [(0x1004040, 0x1#32)], asserted := [], up := 3, hifs := [(1, { (default : Hif) with held := [{ (default : Cmd) with n := 116, sq := 1, words := [8, 2, 0, 0, 0, 0, 65536, 0, 3, 0, 0, 0, 0, 0, 0, 0], started := true }] })] } .b 116 = true) ∧
    ((fun (s : State) (h : Half) (n : Nat) => ((s.running h n 9).any fun c => (s.ns h c.nsid).any fun _ => true))
      { State.reset with regs := [(0x4040, 0x1#32)], asserted := [], up := 3, hifs := [(0, { (default : Hif) with held := [{ (default : Cmd) with n := 41, sq := 1, words := [9, 2, 0, 0, 0, 0, 167936, 0, 2, 0, 0, 0, 0, 0, 0, 0], started := true }] })] } .a 41 = true) ∧
    ((fun (s : State) (h : Half) (n : Nat) => (((s.taken h n).running h n 10).any fun c => (((s.taken h n).ns h c.nsid).any fun m => decide (c.fail = none) && decide (c.left = 0) && decide (c.lost = []) && ((m.sectors c.lba c.count).all (fun x => ((s.taken h n).resident x.2.1 x.2.2).isSome)))))
      { State.reset with regs := [(0x1004040, 0x1#32)], asserted := [], up := 3, hifs := [(1, { (default : Hif) with held := [{ (default : Cmd) with n := 118, sq := 1, words := [10, 2, 0, 0, 0, 0, 73728, 0, 3, 0, 0, 0, 0, 0, 0, 0], started := true }] })] } .b 118 = true) ∧
    ((fun (s : State) (h : Half) (n : Nat) => (s.running h n 16).any fun _ => true)
      { State.reset with asserted := [], up := 3, hifs := [(0, { (default : Hif) with held := [{ (default : Cmd) with n := 19, sq := 1, words := [16, 256, 0, 0, 0, 0, 77824, 0, 1, 0, 0, 0, 0, 0, 0, 0], started := true }] })] } .a 19 = true) ∧
    ((fun (s : State) (h : Half) (n : Nat) => (s.running h n 17).any fun _ => true)
      { State.reset with asserted := [], up := 3, hifs := [(1, { (default : Hif) with held := [{ (default : Cmd) with n := 120, sq := 1, words := [17, 1280, 0, 0, 0, 0, 81920, 0, 5000, 0, 0, 0, 0, 0, 0, 0], started := true }] })] } .b 120 = true) := by
  refine ⟨?_, ?_, ?_, ?_, ?_, ?_, ?_, ?_, ?_, ?_, ?_, ?_, ?_, ?_, ?_, ?_⟩ <;> decide +kernel

/-- A state and operands meeting the hypotheses of HostAdministration, clause by clause. -/
theorem witness_HostAdministration :
    ((fun (s : State) (h : Half) (n : Nat) => (s.admin h n 1).any fun _ => true)
      { State.reset with asserted := [], up := 3, hifs := [(0, { (default : Hif) with held := [{ (default : Cmd) with n := 21, words := ([32, 65536, 0, 0, 0, 0, 86016] ++ List.replicate 9 0), started := true }] })] } .a 21 = true) ∧
    ((fun (s : State) (h : Half) (n : Nat) => ((s.admin h n 2).any fun c => decide (c.dw 8 = 1)))
      { State.reset with asserted := [], up := 3, hifs := [(0, { (default : Hif) with held := [{ (default : Cmd) with n := 22, words := [32, 131072, 0, 0, 0, 0, 90112, 0, 1, 64, 1, 0, 0, 0, 0, 0], started := true }] })] } .a 22 = true) ∧
    ((fun (s : State) (h : Half) (n : Nat) => ((s.hostSettle.admin h n 3).any fun c => decide (c.phase = 0) && decide (c.hda < 8) &&
      decide (s.hostSettle.portState c.hda = 3) && s.mantleServes && decide ((s.hostSettle.claimOne (homeHalf c.hda) c.hda).1 = 0)))
      { State.reset with regs := [(0x1220004, 0x308#32)], board := { State.reset.board with auxGood := true, pins := 65535 }, asserted := [], up := 3, hifs := [(1, { (default : Hif) with held := [{ (default : Cmd) with n := 145, words := ([32, 198144, 0, 0, 0, 0, 184320] ++ List.replicate 9 0), started := true }] })] } .b 145 = true) ∧
    ((fun (s : State) (h : Half) (n : Nat) => ((s.hostSettle.admin h n 3).any fun c => decide (c.phase = 4) && decide (s.hostSettle.attachBar c.hda = none) && decide (c.fail = none) && ((s.hostSettle.lockTables c.hda).2) && decide (s.srvState (2 * c.hda) = 3) && decide (s.srvState (2 * c.hda + 1) = 3)))
      { State.reset with regs := [(0x1210004, 0x408#32), (0x1310004, 0x7#32), (0x1420004, 0x3#32), (0x1430004, 0x3#32), (0x2000008, 0xA05#32)], asserted := [], up := 3, caches := [(0, { (default : Cache) with lines := [(0, { (default : Line) with valid := 18446744073709551615, locked := true })] })], hifs := [(1, { (default : Hif) with held := [{ (default : Cmd) with n := 146, words := ([32, 197888, 0, 0, 0, 0, 188416] ++ List.replicate 9 0), started := true, phase := 4 }] })] } .b 146 = true) ∧
    ((fun (s : State) (h : Half) (n : Nat) => ((s.hostSettle.admin h n 4).any fun c => decide (c.phase = 0) && decide (c.hda < 8) && decide (s.hostSettle.portState c.hda = 4)))
      { State.reset with regs := [(0x200004, 0x408#32)], asserted := [], up := 3, hifs := [(0, { (default : Hif) with held := [{ (default : Cmd) with n := 25, words := ([32, 262144, 0, 0, 0, 0, 102400] ++ List.replicate 9 0), started := true }] })] } .a 25 = true) ∧
    ((fun (s : State) (h : Half) (n : Nat) => ((s.hostSettle.admin h n 4).any fun c => decide (c.phase = 4) && decide (c.hda < 8) && decide (s.hostSettle.portState c.hda = 4) && (s.hostSettle.quiet c.hda) && decide ((s.hostSettle.port c.hda).supply = false) && decide ((s.pa (2 * c.hda)).cur = none) && decide ((s.pa (2 * c.hda)).queue = []) && decide ((s.pa (2 * c.hda + 1)).cur = none) && decide ((s.pa (2 * c.hda + 1)).queue = [])))
      { State.reset with regs := [(0x200004, 0x408#32)], asserted := [], up := 3, hifs := [(0, { (default : Hif) with held := [{ (default : Cmd) with n := 26, words := ([32, 262144, 0, 0, 0, 0, 106496] ++ List.replicate 9 0), started := true, phase := 4 }] })] } .a 26 = true) ∧
    ((fun (s : State) (h : Half) (x : Half) (n : Nat) => ((s.admin h n 5).any fun c => decide (0 < c.nsid) && decide (c.nsid ≤ 64) && (s.coreUp x) && decide (s.nsRefuse c.nsid (c.dw 8 % 2 == 1) (halfOf (c.dw 10 % 2)) ((List.range 32).filter (c.dw 9).testBit) (c.dw 11 % 65536) (c.dw 11 / 65536) = none)))
      { State.reset with regs := [(0x200004, 0x408#32)], asserted := [], up := 3, hifs := [(0, { (default : Hif) with held := [{ (default : Cmd) with n := 28, words := [32, 327689, 0, 0, 0, 0, 114688, 0, 256, 2, 0, 0, 0, 0, 0, 0], started := true }] })], attached := 51 } .a .a 28 = true) ∧
    ((fun (s : State) (h : Half) (x : Half) (n : Nat) => ((s.hostSettle.admin h n 6).any fun c => (s.coreUp x) && ((s.hostSettle.ns s.hostSettle.nsDecides c.nsid).isSome) && decide (s.hostSettle.buffered.any (·.nsid == c.nsid) = false)))
      { State.reset with regs := [(0x4040, 0x1#32)], asserted := [], up := 3, hifs := [(0, { (default : Hif) with held := [{ (default : Cmd) with n := 44, words := ([32, 393218, 0, 0, 0, 0, 180224] ++ List.replicate 9 0), started := true }] })] } .a .a 44 = true) ∧
    ((fun (s : State) (h : Half) (n : Nat) (_ : List WordErr) => ((s.admin h n 7).any fun c => decide (c.phase = 0) && decide (c.dw 8 = 1) && decide (c.dw 9 < 2 ^ 29) && decide ((s.resv h).retire = none) && decide (c.dw 9 / 2 ^ 14 < s.get (B.buf h 0) F.BUF_DATATOP_TOP) && decide (c.dw 9 ∉ (s.resv h).remap) && decide ((s.resv h).remap.length < 4096) && decide (s.touched h (c.dw 9) = false)))
      { State.reset with regs := [(0x102038, 0x3E8#32)], asserted := [], up := 3, hifs := [(0, { (default : Hif) with held := [{ (default : Cmd) with n := 30, words := [32, 458752, 0, 0, 0, 0, 122880, 0, 1, 5, 0, 0, 0, 0, 0, 0], started := true }] })] } .a 30 [{ (default : WordErr) with page := 1, pos := 53, sym := [5] }, { (default : WordErr) with page := 15, pos := 60, sym := [1, 2] }, { (default : WordErr) with pos := 22, sym := [5] }] = true) ∧
    ((fun (s : State) (h : Half) (n : Nat) (bytes : List Byte) => ((s.admin h n 8).any fun c => (s.imageReady h c bytes)))
      { State.reset with board := { State.reset.board with auxGood := true }, asserted := [], up := 3, hifs := [(0, { (default : Hif) with held := [{ (default : Cmd) with n := 31, words := [32, 524288, 0, 0, 0, 0, 126976, 0, 0, 4096, 0, 0, 0, 0, 0, 0], started := true }] })] } .a 31 (List.replicate 4096 0x81#8) = true) ∧
    ((fun (s : State) (h : Half) (n : Nat) (bytes : List Byte) => ((s.admin h n 9).any fun c => decide (c.phase = 0) && (s.imageReady h c bytes)))
      { State.reset with board := { State.reset.board with auxGood := true }, asserted := [], up := 3, hifs := [(1, { (default : Hif) with held := [{ (default : Cmd) with n := 132, words := [32, 589824, 0, 0, 0, 0, 131072, 0, 0, 4096, 0, 0, 0, 0, 0, 0], started := true }] })] } .b 132 (List.replicate 4096 0x75#8) = true) ∧
    ((fun (s : State) (h : Half) (n : Nat) => ((s.admin h n 9).any fun c => decide (c.phase = 1) && ((s.mcore.wickPatch).any fun img => ((List.range 16).all (fun ai => !s.patchable ai || s.get (wckB ai) F.WCK_ID_PATCH_LEVEL == patchLevel img.bytes)))))
      { State.reset with asserted := [], up := 3, mcore := { State.reset.mcore with wickPatch := some { (default : Image) with type := 3, svn := 2, bytes := List.replicate 100 0x0#8 } }, hifs := [(0, { (default : Hif) with held := [{ (default : Cmd) with n := 33, words := [32, 589824, 0, 0, 0, 0, 135168, 0, 0, 4096, 0, 0, 0, 0, 0, 0], started := true, phase := 1 }] })] } .a 33 = true) := by
  refine ⟨?_, ?_, ?_, ?_, ?_, ?_, ?_, ?_, ?_, ?_, ?_, ?_⟩ <;> decide +kernel

/-- A state and operands meeting the hypotheses of SdmDescriptors, clause by clause. -/
theorem witness_SdmDescriptors :
    ((fun (s : State) (h : Half) (words : List Nat) (_ : Option Nat) => decide (words.length = 8) && (s.sdmUp h) && (s.bit (B.sdm h) F.SDM_CTL_EN) && decide ((s.sdm h).turn = none) && decide ((s.sdm h).desc = none) && decide ((s.sdm h).held = []) && (s.portUp h) && ((((List.range 4).map fun i => (s.get (B.sdm h) F.SDM_STAT_CH_NOW + 1 + i) % 4).find? (fun c => s.sdmChState h c == 1 && s.sdmWaits h c)).any fun c => decide (s.bit (sdmCh h c) F.SDM_CHCFG_DSPACE = false)))
      { State.reset with regs := [(0x4, 0x2#32), (0x53014, 0x15#32), (0x53018, 0x20004#32)], asserted := [], up := 3 } .a [0, 16, 5, 896, 1, 1024, 3697, 0] none = true) ∧
    ((fun (s : State) (h : Half) (ue : Option Nat) => (s.sdmUp h) && (s.bit (B.sdm h) F.SDM_CTL_EN) && decide ((s.sdm h).turn = none) && decide ((s.sdm h).desc = none) && decide ((s.sdm h).held = []) && ((((List.range 4).map fun i => (s.get (B.sdm h) F.SDM_STAT_CH_NOW + 1 + i) % 4).find? (fun c => s.sdmChState h c == 1 && s.sdmWaits h c)).any fun c => (s.bit (sdmCh h c) F.SDM_CHCFG_DSPACE) && decide (s.sdmWordFail h (s.sdmRing h c false (s.get (sdmCh h c) F.SDM_DRTAIL_HEAD)) true ue = none)))
      { State.reset with regs := [(0x52010, 0x100810#32), (0x52014, 0x15#32), (0x52018, 0x20003#32), (0x102004, 0x43#32), (0x102020, 0x640000#32), (0x102038, 0x3E8#32)], asserted := [], up := 3 } .a (some 2) = true) ∧
    ((fun (s : State) (h : Half) (_ : List Byte) (_ : Option Nat) (_ : List Nat) => (((s.sdm h).turn).any fun r => decide (r.1 < 4) && (((s.sdm h).desc).any fun w => ((sdmDesc w).bad))))
      { State.reset with asserted := [], sdms := [(1, { (default : Sdm) with turn := some (1, 4), desc := some [0, 0, 0, 0, 16, 0, 5, 0] })] } .b [0x13#8, 0x14#8, 0x15#8, 0x16#8, 0x17#8, 0x18#8, 0x19#8, 0x1A#8, 0x1B#8, 0x1C#8, 0x1D#8, 0x1E#8, 0x1F#8, 0x20#8, 0x21#8, 0x22#8, 0x23#8, 0x24#8, 0x25#8, 0x26#8, 0x27#8, 0x28#8, 0x29#8, 0x2A#8, 0x2B#8, 0x2C#8, 0x2D#8, 0x2E#8, 0x2F#8, 0x30#8, 0x31#8, 0x32#8, 0x33#8, 0x34#8, 0x35#8, 0x36#8, 0x37#8, 0x38#8, 0x39#8, 0x3A#8, 0x3B#8, 0x3C#8, 0x3D#8, 0x3E#8, 0x3F#8, 0x40#8, 0x41#8, 0x42#8, 0x43#8, 0x44#8, 0x45#8, 0x46#8, 0x47#8, 0x48#8, 0x49#8, 0x4A#8, 0x4B#8, 0x4C#8, 0x4D#8, 0x4E#8, 0x4F#8, 0x50#8, 0x51#8, 0x52#8, 0x53#8, 0x54#8, 0x55#8, 0x56#8, 0x57#8, 0x58#8, 0x59#8, 0x5A#8, 0x5B#8, 0x5C#8, 0x5D#8, 0x5E#8, 0x5F#8, 0x60#8, 0x61#8, 0x62#8, 0x63#8, 0x64#8, 0x65#8, 0x66#8, 0x67#8, 0x68#8, 0x69#8, 0x6A#8, 0x6B#8, 0x6C#8, 0x6D#8, 0x6E#8, 0x6F#8, 0x70#8, 0x71#8, 0x72#8, 0x73#8, 0x74#8, 0x75#8, 0x76#8, 0x77#8, 0x78#8, 0x79#8, 0x7A#8, 0x7B#8, 0x7C#8, 0x7D#8, 0x7E#8, 0x7F#8, 0x80#8, 0x81#8, 0x82#8, 0x83#8, 0x84#8, 0x85#8, 0x86#8, 0x87#8, 0x88#8, 0x89#8, 0x8A#8, 0x8B#8, 0x8C#8, 0x8D#8, 0x8E#8, 0x8F#8, 0x90#8, 0x91#8, 0x92#8, 0x93#8, 0x94#8, 0x95#8, 0x96#8, 0x97#8, 0x98#8, 0x99#8, 0x9A#8, 0x9B#8, 0x9C#8, 0x9D#8, 0x9E#8, 0x9F#8, 0xA0#8, 0xA1#8, 0xA2#8, 0xA3#8, 0xA4#8, 0xA5#8, 0xA6#8, 0xA7#8, 0xA8#8] (some 26) [2, 3, 5, 6, 7, 2, 4, 0] = true) ∧
    ((fun (s : State) (h : Half) (_ : List Byte) (_ : List Nat) => (((s.sdm h).turn).any fun r => decide (r.1 < 4) && (((s.sdm h).desc).any fun w => decide ((sdmDesc w).bad = false) && decide ((sdmDesc w).srcSpace = 1) && decide ((sdmDesc w).dstSpace = 1) && decide (s.sdmFails h (sdmDesc w) none = none) && decide (s.tableHit (sdmDesc w).dst (sdmDesc w).len = false) && decide (s.bit (sdmCh h r.1) F.SDM_CHCFG_CSPACE = false) && decide (s.sdmCqFull h r.1 = false))))
      { State.reset with regs := [(0x5101C, 0x20005#32), (0x102004, 0x43#32), (0x102020, 0x640000#32), (0x102038, 0x3E8#32)], asserted := [], sdms := [(0, { (default : Sdm) with turn := some (0, 6), desc := some [128, 0, 4091904, 0, 64, 5, 5, 0] })] } .a [0x83#8, 0x84#8, 0x85#8, 0x86#8, 0x87#8, 0x88#8, 0x89#8, 0x8A#8, 0x8B#8, 0x8C#8, 0x8D#8, 0x8E#8, 0x8F#8, 0x90#8, 0x91#8, 0x92#8, 0x93#8, 0x94#8, 0x95#8, 0x96#8, 0x97#8, 0x98#8, 0x99#8, 0x9A#8, 0x9B#8, 0x9C#8, 0x9D#8, 0x9E#8, 0x9F#8, 0xA0#8, 0xA1#8, 0xA2#8, 0xA3#8, 0xA4#8, 0xA5#8, 0xA6#8, 0xA7#8, 0xA8#8, 0xA9#8, 0xAA#8, 0xAB#8, 0xAC#8, 0xAD#8, 0xAE#8, 0xAF#8, 0xB0#8, 0xB1#8, 0xB2#8, 0xB3#8, 0xB4#8, 0xB5#8, 0xB6#8, 0xB7#8, 0xB8#8, 0xB9#8, 0xBA#8, 0xBB#8, 0xBC#8, 0xBD#8, 0xBE#8, 0xBF#8, 0xC0#8, 0xC1#8, 0xC2#8, 0xC3#8, 0xC4#8, 0xC5#8, 0xC6#8, 0xC7#8, 0xC8#8, 0xC9#8, 0xCA#8, 0xCB#8, 0xCC#8, 0xCD#8, 0xCE#8, 0xCF#8, 0xD0#8, 0xD1#8, 0xD2#8, 0xD3#8, 0xD4#8, 0xD5#8, 0xD6#8, 0xD7#8, 0xD8#8, 0xD9#8, 0xDA#8, 0xDB#8, 0xDC#8, 0xDD#8, 0xDE#8, 0xDF#8, 0xE0#8, 0xE1#8, 0xE2#8, 0xE3#8, 0xE4#8, 0xE5#8, 0xE6#8, 0xE7#8, 0xE8#8, 0xE9#8, 0xEA#8, 0xEB#8, 0xEC#8, 0xED#8, 0xEE#8, 0xEF#8, 0xF0#8, 0xF1#8, 0xF2#8, 0xF3#8, 0xF4#8, 0xF5#8, 0xF6#8, 0xF7#8, 0xF8#8, 0xF9#8, 0xFA#8, 0xFB#8, 0xFC#8, 0xFD#8, 0xFE#8, 0xFF#8, 0x0#8, 0x1#8, 0x2#8, 0x3#8, 0x4#8, 0x5#8, 0x6#8, 0x7#8, 0x8#8, 0x9#8, 0xA#8, 0xB#8, 0xC#8, 0xD#8, 0xE#8, 0xF#8, 0x10#8, 0x11#8, 0x12#8, 0x13#8, 0x14#8, 0x15#8, 0x16#8, 0x17#8, 0x18#8] [2, 0, 741, 0, 3099, 704, 256, 20] = true) ∧
    ((fun (s : State) (h : Half) (data : List Byte) (_ : List Nat) => (((s.sdm h).turn).any fun r => decide (r.1 < 4) && (((s.sdm h).desc).any fun w => decide ((sdmDesc w).bad = false) && decide ((sdmDesc w).srcSpace = 0) && decide ((sdmDesc w).dstSpace = 1) && decide ((sdmDesc w).len ≤ data.length) && decide (s.bit (sdmCh h r.1) F.SDM_CHCFG_DSPACE = false) && decide (s.sdmFails h (sdmDesc w) none = none) && decide (s.tableHit (sdmDesc w).dst (sdmDesc w).len = false) && decide (s.bit (sdmCh h r.1) F.SDM_CHCFG_CSPACE = false) && decide (s.sdmCqFull h r.1 = false))))
      { State.reset with regs := [(0x4, 0x2#32), (0x5101C, 0x20005#32), (0x102004, 0x43#32), (0x102020, 0x640000#32), (0x102038, 0x3E8#32)], asserted := [], sdms := [(0, { (default : Sdm) with turn := some (0, 6), desc := some [4096, 0, 4096, 0, 20, 52, 5, 0] })] } .a [0xBF#8, 0xC0#8, 0xC1#8, 0xC2#8, 0xC3#8, 0xC4#8, 0xC5#8, 0xC6#8, 0xC7#8, 0xC8#8, 0xC9#8, 0xCA#8, 0xCB#8, 0xCC#8, 0xCD#8, 0xCE#8, 0xCF#8, 0xD0#8, 0xD1#8, 0xD2#8, 0xD3#8, 0xD4#8, 0xD5#8, 0xD6#8, 0xD7#8, 0xD8#8, 0xD9#8, 0xDA#8, 0xDB#8, 0xDC#8, 0xDD#8, 0xDE#8, 0xDF#8, 0xE0#8, 0xE1#8, 0xE2#8, 0xE3#8, 0xE4#8, 0xE5#8, 0xE6#8, 0xE7#8, 0xE8#8, 0xE9#8, 0xEA#8, 0xEB#8, 0xEC#8, 0xED#8, 0xEE#8, 0xEF#8, 0xF0#8, 0xF1#8, 0xF2#8, 0xF3#8, 0xF4#8, 0xF5#8, 0xF6#8, 0xF7#8, 0xF8#8, 0xF9#8, 0xFA#8, 0xFB#8, 0xFC#8, 0xFD#8, 0xFE#8, 0xFF#8, 0x0#8, 0x1#8, 0x2#8, 0x3#8, 0x4#8, 0x5#8, 0x6#8, 0x7#8, 0x8#8, 0x9#8, 0xA#8, 0xB#8, 0xC#8, 0xD#8, 0xE#8, 0xF#8, 0x10#8, 0x11#8, 0x12#8, 0x13#8, 0x14#8, 0x15#8, 0x16#8, 0x17#8, 0x18#8, 0x19#8, 0x1A#8, 0x1B#8, 0x1C#8, 0x1D#8, 0x1E#8, 0x1F#8, 0x20#8, 0x21#8, 0x22#8] [31, 3, 896, 2, 1, 3436, 20, 1] = true) ∧
    ((fun (s : State) (h : Half) (_ : List Byte) (_ : List Nat) => (((s.sdm h).turn).any fun r => decide (r.1 < 4) && (((s.sdm h).desc).any fun w => decide ((sdmDesc w).bad = false) && decide ((sdmDesc w).srcSpace = 1) && decide ((sdmDesc w).dstSpace = 0) && decide (s.sdmFails h (sdmDesc w) none = none) && (s.sdmCqFull h r.1))))
      { State.reset with regs := [(0x4, 0x2#32), (0x53010, 0x100020#32), (0x5301C, 0x40005#32), (0x102004, 0x43#32), (0x102020, 0x640000#32), (0x102038, 0x3E8#32)], asserted := [], sdms := [(0, { (default : Sdm) with turn := some (2, 4), desc := some [4096, 0, 8192, 0, 100, 81, 5, 0] })] } .a [0x33#8, 0x34#8, 0x35#8, 0x36#8, 0x37#8, 0x38#8, 0x39#8, 0x3A#8, 0x3B#8, 0x3C#8, 0x3D#8, 0x3E#8, 0x3F#8, 0x40#8, 0x41#8, 0x42#8, 0x43#8, 0x44#8, 0x45#8, 0x46#8, 0x47#8, 0x48#8, 0x49#8, 0x4A#8, 0x4B#8, 0x4C#8, 0x4D#8, 0x4E#8, 0x4F#8, 0x50#8, 0x51#8, 0x52#8, 0x53#8, 0x54#8, 0x55#8, 0x56#8, 0x57#8, 0x58#8, 0x59#8, 0x5A#8, 0x5B#8, 0x5C#8, 0x5D#8, 0x5E#8, 0x5F#8, 0x60#8, 0x61#8, 0x62#8, 0x63#8, 0x64#8, 0x65#8, 0x66#8, 0x67#8, 0x68#8, 0x69#8, 0x6A#8, 0x6B#8, 0x6C#8, 0x6D#8, 0x6E#8, 0x6F#8, 0x70#8, 0x71#8, 0x72#8, 0x73#8, 0x74#8, 0x75#8, 0x76#8, 0x77#8, 0x78#8, 0x79#8, 0x7A#8, 0x7B#8, 0x7C#8, 0x7D#8, 0x7E#8, 0x7F#8, 0x80#8, 0x81#8, 0x82#8, 0x83#8, 0x84#8, 0x85#8, 0x86#8, 0x87#8, 0x88#8, 0x89#8, 0x8A#8, 0x8B#8, 0x8C#8, 0x8D#8, 0x8E#8, 0x8F#8, 0x90#8, 0x91#8, 0x92#8, 0x93#8, 0x94#8, 0x95#8, 0x96#8, 0x97#8, 0x98#8, 0x99#8, 0x9A#8, 0x9B#8, 0x9C#8, 0x9D#8, 0x9E#8, 0x9F#8, 0xA0#8, 0xA1#8, 0xA2#8, 0xA3#8, 0xA4#8, 0xA5#8, 0xA6#8, 0xA7#8, 0xA8#8, 0xA9#8, 0xAA#8, 0xAB#8, 0xAC#8, 0xAD#8, 0xAE#8, 0xAF#8, 0xB0#8, 0xB1#8, 0xB2#8, 0xB3#8, 0xB4#8, 0xB5#8, 0xB6#8, 0xB7#8, 0xB8#8, 0xB9#8, 0xBA#8, 0xBB#8, 0xBC#8, 0xBD#8, 0xBE#8, 0xBF#8, 0xC0#8, 0xC1#8, 0xC2#8, 0xC3#8, 0xC4#8, 0xC5#8, 0xC6#8, 0xC7#8, 0xC8#8] [0, 692, 6, 0, 8, 1240, 512, 6] = true) ∧
    ((fun (s : State) (h : Half) (data : List Byte) (ue : Option Nat) (_ : List Nat) => (((s.sdm h).desc).any fun w => decide ((sdmDesc w).bad = false) && decide ((sdmDesc w).srcSpace = 0) && decide (data.length < (sdmDesc w).len) && decide (s.sdmFails h (sdmDesc w) ue = none) && decide (s.tableHit (sdmDesc w).dst (sdmDesc w).len = false)))
      { State.reset with regs := [(0x4, 0x2#32), (0x102004, 0x43#32), (0x102020, 0x640000#32), (0x102038, 0x3E8#32)], asserted := [], sdms := [(0, { (default : Sdm) with turn := some (3, 6), desc := some [4096, 0, 4096, 0, 128, 4, 5, 0] })] } .a [] none [3624, 1, 1, 3, 1152, 1, 7, 3] = true) ∧
    ((fun (s : State) (h : Half) (_ : List Byte) (_ : Option Nat) (_ : List Nat) => decide ((s.sdm h).turn ≠ none) && (((s.sdm h).desc).any fun w => decide ((sdmDesc w).bad = false) && decide ((sdmDesc w).dstSpace = 1) && (s.tableHit (sdmDesc w).dst (sdmDesc w).len)))
      { State.reset with regs := [(0x1210004, 0x408#32), (0x1520010, 0x20000#32)], asserted := [], sdms := [(1, { (default : Sdm) with turn := some (0, 5), desc := some [512, 0, 131072, 0, 64, 4, 5, 0] })] } .b [0x5C#8, 0x5D#8, 0x5E#8, 0x5F#8, 0x60#8, 0x61#8, 0x62#8, 0x63#8, 0x64#8, 0x65#8, 0x66#8, 0x67#8, 0x68#8, 0x69#8, 0x6A#8, 0x6B#8, 0x6C#8, 0x6D#8, 0x6E#8, 0x6F#8, 0x70#8, 0x71#8, 0x72#8, 0x73#8, 0x74#8, 0x75#8, 0x76#8, 0x77#8, 0x78#8, 0x79#8, 0x7A#8, 0x7B#8, 0x7C#8, 0x7D#8, 0x7E#8, 0x7F#8, 0x80#8, 0x81#8, 0x82#8, 0x83#8, 0x84#8, 0x85#8, 0x86#8, 0x87#8, 0x88#8, 0x89#8, 0x8A#8, 0x8B#8, 0x8C#8, 0x8D#8, 0x8E#8, 0x8F#8, 0x90#8, 0x91#8, 0x92#8, 0x93#8, 0x94#8, 0x95#8, 0x96#8, 0x97#8, 0x98#8, 0x99#8, 0x9A#8, 0x9B#8, 0x9C#8, 0x9D#8, 0x9E#8, 0x9F#8, 0xA0#8, 0xA1#8, 0xA2#8, 0xA3#8, 0xA4#8, 0xA5#8, 0xA6#8, 0xA7#8, 0xA8#8, 0xA9#8, 0xAA#8, 0xAB#8, 0xAC#8, 0xAD#8, 0xAE#8, 0xAF#8, 0xB0#8, 0xB1#8, 0xB2#8, 0xB3#8, 0xB4#8, 0xB5#8, 0xB6#8, 0xB7#8, 0xB8#8, 0xB9#8, 0xBA#8, 0xBB#8, 0xBC#8, 0xBD#8, 0xBE#8, 0xBF#8] (some 1) [1691, 2, 1, 3, 3348, 14, 2, 5] = true) ∧
    ((fun (s : State) (h : Half) (data : List Byte) => (((s.sdm h).turn).any fun r => decide (r.1 < 4) && (((s.sdm h).desc).any fun w => decide ((sdmDesc w).bad = false) && decide ((sdmDesc w).srcSpace = 0) && decide (s.sdmFails h (sdmDesc w) none = none) && decide (data.length < (sdmDesc w).len))))
      { State.reset with regs := [(0x4, 0x2#32), (0x102004, 0x43#32), (0x102020, 0x640000#32), (0x102038, 0x3E8#32)], asserted := [], sdms := [(0, { (default : Sdm) with turn := some (3, 6), desc := some [4096, 0, 4096, 0, 128, 4, 5, 0] })] } .a [] = true) ∧
    ((fun (s : State) (h : Half) (_ : List Byte) => (((s.sdm h).turn).any fun r => decide (r.1 < 4) && decide ((s.sdm h).desc = none) && decide (s.bit (sdmCh h r.1) F.SDM_CHCFG_DSPACE = false)))
      { State.reset with asserted := [], sdms := [(1, { (default : Sdm) with turn := some (2, 4) })] } .b [0xD2#8, 0xD3#8, 0xD4#8, 0xD5#8, 0xD6#8, 0xD7#8, 0xD8#8, 0xD9#8, 0xDA#8, 0xDB#8, 0xDC#8, 0xDD#8, 0xDE#8, 0xDF#8, 0xE0#8, 0xE1#8, 0xE2#8, 0xE3#8, 0xE4#8, 0xE5#8, 0xE6#8, 0xE7#8, 0xE8#8, 0xE9#8, 0xEA#8, 0xEB#8, 0xEC#8, 0xED#8, 0xEE#8, 0xEF#8, 0xF0#8, 0xF1#8, 0xF2#8, 0xF3#8, 0xF4#8, 0xF5#8, 0xF6#8, 0xF7#8, 0xF8#8, 0xF9#8, 0xFA#8, 0xFB#8, 0xFC#8, 0xFD#8, 0xFE#8, 0xFF#8, 0x0#8, 0x1#8, 0x2#8, 0x3#8, 0x4#8, 0x5#8, 0x6#8, 0x7#8, 0x8#8, 0x9#8, 0xA#8, 0xB#8, 0xC#8, 0xD#8, 0xE#8, 0xF#8, 0x10#8, 0x11#8, 0x12#8, 0x13#8, 0x14#8, 0x15#8, 0x16#8, 0x17#8, 0x18#8, 0x19#8, 0x1A#8, 0x1B#8, 0x1C#8, 0x1D#8, 0x1E#8, 0x1F#8, 0x20#8, 0x21#8, 0x22#8, 0x23#8, 0x24#8, 0x25#8, 0x26#8, 0x27#8, 0x28#8, 0x29#8, 0x2A#8, 0x2B#8, 0x2C#8, 0x2D#8, 0x2E#8, 0x2F#8, 0x30#8, 0x31#8, 0x32#8, 0x33#8, 0x34#8, 0x35#8, 0x36#8, 0x37#8, 0x38#8, 0x39#8, 0x3A#8, 0x3B#8, 0x3C#8, 0x3D#8, 0x3E#8, 0x3F#8, 0x40#8, 0x41#8, 0x42#8, 0x43#8, 0x44#8, 0x45#8, 0x46#8, 0x47#8, 0x48#8, 0x49#8, 0x4A#8, 0x4B#8, 0x4C#8, 0x4D#8, 0x4E#8, 0x4F#8, 0x50#8, 0x51#8, 0x52#8, 0x53#8, 0x54#8, 0x55#8, 0x56#8, 0x57#8, 0x58#8, 0x59#8, 0x5A#8, 0x5B#8, 0x5C#8, 0x5D#8, 0x5E#8, 0x5F#8, 0x60#8, 0x61#8, 0x62#8, 0x63#8, 0x64#8, 0x65#8, 0x66#8, 0x67#8, 0x68#8, 0x69#8, 0x6A#8, 0x6B#8, 0x6C#8, 0x6D#8, 0x6E#8, 0x6F#8, 0x70#8, 0x71#8, 0x72#8, 0x73#8, 0x74#8, 0x75#8, 0x76#8, 0x77#8, 0x78#8, 0x79#8, 0x7A#8, 0x7B#8, 0x7C#8, 0x7D#8, 0x7E#8, 0x7F#8, 0x80#8, 0x81#8, 0x82#8, 0x83#8, 0x84#8, 0x85#8, 0x86#8, 0x87#8, 0x88#8, 0x89#8, 0x8A#8, 0x8B#8, 0x8C#8, 0x8D#8, 0x8E#8, 0x8F#8, 0x90#8, 0x91#8, 0x92#8, 0x93#8, 0x94#8, 0x95#8, 0x96#8, 0x97#8, 0x98#8, 0x99#8] = true) := by
  refine ⟨?_, ?_, ?_, ?_, ?_, ?_, ?_, ?_, ?_, ?_⟩ <;> decide +kernel

/-- A state and operands meeting the hypotheses of SdmChannelControl, clause by clause. -/
theorem witness_SdmChannelControl :
    ((fun (s : State) (h : Half) (c : Nat) => decide (c < 4) && (s.sdmUp h) && decide (s.bit (sdmCh h c) F.SDM_CHCTL_EN = false))
      { State.reset with asserted := [], up := 3 } .b 0 = true) ∧
    ((fun (s : State) (h : Half) (c : Nat) => decide (c < 4) && (s.sdmUp h) && decide (s.sdmChState h c = 3) && (sdmDepthOk (s.ddepth h c)) && (sdmDepthOk (s.cdepth h c)))
      { State.reset with regs := [(0x1052010, 0x100810#32), (0x1052014, 0x1D#32)], asserted := [], up := 3 } .b 1 = true) ∧
    ((fun (s : State) (h : Half) (c : Nat) (_ : Nat) (_ : List Byte) => decide (c < 4) && (s.sdmUp h) && (s.bit (sdmCh h c) F.SDM_CHCTL_EN))
      { State.reset with regs := [(0x53014, 0x15#32)], asserted := [], up := 3 } .a 2 0 [0xC9#8, 0xCA#8, 0xCB#8, 0xCC#8, 0xCD#8, 0xCE#8, 0xCF#8, 0xD0#8, 0xD1#8, 0xD2#8, 0xD3#8, 0xD4#8, 0xD5#8, 0xD6#8, 0xD7#8, 0xD8#8, 0xD9#8, 0xDA#8, 0xDB#8, 0xDC#8, 0xDD#8, 0xDE#8, 0xDF#8, 0xE0#8, 0xE1#8, 0xE2#8, 0xE3#8, 0xE4#8, 0xE5#8, 0xE6#8, 0xE7#8, 0xE8#8, 0xE9#8, 0xEA#8, 0xEB#8, 0xEC#8, 0xED#8, 0xEE#8, 0xEF#8, 0xF0#8, 0xF1#8, 0xF2#8, 0xF3#8, 0xF4#8, 0xF5#8, 0xF6#8, 0xF7#8, 0xF8#8, 0xF9#8, 0xFA#8] = true) ∧
    ((fun (s : State) (h : Half) (c : Nat) (_ : Word) (_ : Nat) (_ : List Byte) => decide (c < 4) && (s.sdmUp h) && decide (s.bit (sdmCh h c) F.SDM_CHCTL_EN = false))
      { State.reset with asserted := [], up := 3 } .b 0 0x93FCB22B#32 0 [0x2A#8, 0x2B#8, 0x2C#8, 0x2D#8, 0x2E#8, 0x2F#8, 0x30#8, 0x31#8, 0x32#8, 0x33#8, 0x34#8, 0x35#8, 0x36#8, 0x37#8, 0x38#8, 0x39#8, 0x3A#8, 0x3B#8, 0x3C#8, 0x3D#8, 0x3E#8, 0x3F#8, 0x40#8, 0x41#8, 0x42#8, 0x43#8, 0x44#8, 0x45#8, 0x46#8, 0x47#8, 0x48#8, 0x49#8, 0x4A#8, 0x4B#8, 0x4C#8, 0x4D#8, 0x4E#8, 0x4F#8, 0x50#8, 0x51#8, 0x52#8, 0x53#8, 0x54#8, 0x55#8, 0x56#8, 0x57#8, 0x58#8, 0x59#8, 0x5A#8, 0x5B#8, 0x5C#8, 0x5D#8, 0x5E#8, 0x5F#8, 0x60#8, 0x61#8, 0x62#8, 0x63#8, 0x64#8, 0x65#8, 0x66#8, 0x67#8, 0x68#8, 0x69#8, 0x6A#8, 0x6B#8, 0x6C#8, 0x6D#8, 0x6E#8, 0x6F#8, 0x70#8, 0x71#8, 0x72#8, 0x73#8, 0x74#8, 0x75#8, 0x76#8, 0x77#8, 0x78#8, 0x79#8, 0x7A#8, 0x7B#8, 0x7C#8, 0x7D#8, 0x7E#8, 0x7F#8, 0x80#8, 0x81#8, 0x82#8, 0x83#8, 0x84#8, 0x85#8, 0x86#8, 0x87#8, 0x88#8, 0x89#8, 0x8A#8, 0x8B#8, 0x8C#8, 0x8D#8, 0x8E#8, 0x8F#8, 0x90#8, 0x91#8, 0x92#8, 0x93#8, 0x94#8, 0x95#8, 0x96#8, 0x97#8, 0x98#8, 0x99#8, 0x9A#8, 0x9B#8, 0x9C#8, 0x9D#8, 0x9E#8, 0x9F#8, 0xA0#8, 0xA1#8, 0xA2#8, 0xA3#8, 0xA4#8, 0xA5#8, 0xA6#8, 0xA7#8, 0xA8#8, 0xA9#8, 0xAA#8, 0xAB#8, 0xAC#8, 0xAD#8, 0xAE#8, 0xAF#8, 0xB0#8, 0xB1#8, 0xB2#8, 0xB3#8, 0xB4#8, 0xB5#8, 0xB6#8, 0xB7#8, 0xB8#8, 0xB9#8, 0xBA#8, 0xBB#8, 0xBC#8, 0xBD#8, 0xBE#8, 0xBF#8] = true) ∧
    ((fun (s : State) (h : Half) (c : Nat) (w : Nat) (_ : Word) (_ : Nat) (_ : List Byte) => decide (c < 4) && decide (w < 5) && (s.sdmUp h) && (s.bit (sdmCh h c) F.SDM_CHCTL_EN))
      { State.reset with regs := [(0x51014, 0x1D#32)], asserted := [], up := 3 } .a 0 0 0x46AF8A17#32 0 [0x9E#8, 0x9F#8, 0xA0#8, 0xA1#8, 0xA2#8, 0xA3#8, 0xA4#8, 0xA5#8, 0xA6#8, 0xA7#8, 0xA8#8, 0xA9#8, 0xAA#8, 0xAB#8, 0xAC#8, 0xAD#8, 0xAE#8, 0xAF#8, 0xB0#8, 0xB1#8, 0xB2#8, 0xB3#8, 0xB4#8, 0xB5#8, 0xB6#8, 0xB7#8, 0xB8#8, 0xB9#8, 0xBA#8, 0xBB#8, 0xBC#8, 0xBD#8, 0xBE#8, 0xBF#8, 0xC0#8, 0xC1#8, 0xC2#8, 0xC3#8, 0xC4#8, 0xC5#8, 0xC6#8, 0xC7#8, 0xC8#8, 0xC9#8, 0xCA#8, 0xCB#8, 0xCC#8, 0xCD#8, 0xCE#8, 0xCF#8, 0xD0#8, 0xD1#8, 0xD2#8, 0xD3#8, 0xD4#8, 0xD5#8, 0xD6#8, 0xD7#8, 0xD8#8, 0xD9#8, 0xDA#8, 0xDB#8, 0xDC#8, 0xDD#8, 0xDE#8, 0xDF#8, 0xE0#8, 0xE1#8, 0xE2#8, 0xE3#8, 0xE4#8, 0xE5#8, 0xE6#8, 0xE7#8, 0xE8#8, 0xE9#8, 0xEA#8, 0xEB#8, 0xEC#8, 0xED#8, 0xEE#8, 0xEF#8, 0xF0#8, 0xF1#8, 0xF2#8, 0xF3#8, 0xF4#8, 0xF5#8, 0xF6#8, 0xF7#8, 0xF8#8, 0xF9#8, 0xFA#8, 0xFB#8, 0xFC#8, 0xFD#8, 0xFE#8, 0xFF#8, 0x0#8, 0x1#8, 0x2#8, 0x3#8, 0x4#8, 0x5#8, 0x6#8, 0x7#8, 0x8#8, 0x9#8, 0xA#8, 0xB#8, 0xC#8, 0xD#8, 0xE#8, 0xF#8, 0x10#8, 0x11#8, 0x12#8, 0x13#8, 0x14#8, 0x15#8, 0x16#8, 0x17#8, 0x18#8, 0x19#8, 0x1A#8, 0x1B#8, 0x1C#8, 0x1D#8, 0x1E#8, 0x1F#8, 0x20#8, 0x21#8, 0x22#8, 0x23#8, 0x24#8, 0x25#8, 0x26#8, 0x27#8, 0x28#8, 0x29#8, 0x2A#8, 0x2B#8, 0x2C#8, 0x2D#8, 0x2E#8, 0x2F#8, 0x30#8, 0x31#8, 0x32#8, 0x33#8] = true) := by
  refine ⟨?_, ?_, ?_, ?_, ?_⟩ <;> decide +kernel

/-- A state and operands meeting the hypotheses of MailboxOwnership, clause by clause. -/
theorem witness_MailboxOwnership :
    ((fun (s : State) (h : Half) (_ : Nat) (hd : Nat) => decide (hd < 8) && (s.mbIdle h))
      { State.reset with board := { State.reset.board with auxGood := true }, asserted := [], up := 3 } .b 0 0 = true) ∧
    ((fun (s : State) (h : Half) (_ : Nat) (hd : Nat) => decide (hd < 8) && (s.mbIdle h) && decide (s.hdaDark hd = false) && (s.seated hd) && decide (homeHalf hd = h ∨ s.strapBit 1 = true) && decide (s.ownerOf hd = 0))
      { State.reset with board := { State.reset.board with auxGood := true, pins := 65535 }, asserted := [], up := 3 } .a 0 0 = true) ∧
    ((fun (s : State) (h : Half) (_ : Nat) (hd : Nat) => decide (hd < 8) && (s.mbIdle h) && decide (s.hdaDark hd = false) && (s.owns h hd))
      { State.reset with regs := [(0x2000008, 0xAA55#32)], board := { State.reset.board with auxGood := true }, asserted := [], up := 3 } .a 0 0 = true) ∧
    ((fun (s : State) (h : Half) (_ : Nat) (hd : Nat) => decide (hd < 8) && (s.mbIdle h) && decide (s.hdaDark hd = false) && decide (s.owns h hd = false))
      { State.reset with board := { State.reset.board with auxGood := true }, asserted := [], up := 3 } .b 0 0 = true) ∧
    ((fun (s : State) (h : Half) (_ : Nat) (ai : Nat) => decide (ai < 16) && (s.mbIdle h) && decide (s.hdaDark (actHda ai) = false) && (s.owns h (actHda ai)) && (s.loaded ai) && decide (s.retracting ai = false))
      { State.reset with regs := [(0x2000008, 0xAA55#32), (0x2000018, 0xFFFF#32)], board := { State.reset.board with auxGood := true }, asserted := [], up := 3 } .a 0 0 = true) ∧
    ((fun (s : State) (h : Half) (_ : Nat) (_ : Nat) (_ : Nat) => (s.coreUp h) && s.mantleUp && decide (s.bit (B.mbx h) F.MNT_MBRESP_DONE = false))
      { State.reset with regs := [(0xF000C, 0x5964CA63#32)], asserted := [], up := 3 } .a 0 0 0 = true) ∧
    ((fun (s : State) (h : Half) (_ : Nat) (_ : Nat) (_ : Nat) => (s.coreUp h) && s.mantleUp && decide (s.mantleServes = false) && (s.bit (B.mbx h) F.MNT_MBRESP_DONE))
      { State.reset with asserted := [], up := 3 } .b 0 0 0 = true) := by
  refine ⟨?_, ?_, ?_, ?_, ?_, ?_, ?_⟩ <;> decide +kernel

/-- A state and operands meeting the hypotheses of MailboxServices, clause by clause. -/
theorem witness_MailboxServices :
    ((fun (s : State) (h : Half) (_ : Nat) (p : Nat) => (s.mbIdle h) && decide (10 ≤ p) && decide (p ≤ 1000))
      { State.reset with board := { State.reset.board with auxGood := true }, asserted := [], up := 3 } .a 0 10 = true) ∧
    ((fun (s : State) (h : Half) (_ : Nat) (p : Nat) => (s.mbIdle h) && decide (p < 10 ∨ 1000 < p) && decide (p < 2 ^ 32))
      { State.reset with board := { State.reset.board with auxGood := true }, asserted := [], up := 3 } .b 0 0 = true) ∧
    ((fun (s : State) (h : Half) (_ : Nat) (type : Nat) (len : Nat) => (s.mbIdle h) && decide (1 ≤ type) && decide (type ≤ 3) && decide (164 ≤ len) && decide (len ≤ 4194304) && decide (len % 4 = 0) && decide (∀ k, s.mcore.intake = some k → k.half = h ∧ k.checking = false))
      { State.reset with board := { State.reset.board with auxGood := true }, asserted := [], up := 3 } .a 0 1 1336 = true) ∧
    ((fun (s : State) (h : Half) (_ : Nat) (type : Nat) (len : Nat) => (s.mbIdle h) && decide (1 ≤ type) && decide (type ≤ 3) && decide (164 ≤ len) && decide (len ≤ 4194304) && decide (len % 4 = 0) && ((s.mcore.intake).any fun k => decide (k.half ≠ h ∨ k.checking = true)))
      { State.reset with board := { State.reset.board with auxGood := true }, asserted := [], up := 3, mcore := { State.reset.mcore with intake := some { half := .a, type := 3, len := 800, bytes := [], checking := true } } } .a 0 1 3332 = true) ∧
    ((fun (s : State) (h : Half) (_ : Nat) (slot : Nat) => (s.mbIdle h) && decide (slot < 2) && ((s.mcore.intake).any fun k => decide (k.half = h) && decide (k.checking = false) && decide (k.type = 1)))
      { State.reset with board := { State.reset.board with auxGood := true }, asserted := [], up := 3, mcore := { State.reset.mcore with intake := some { half := .a, type := 1, len := 400, bytes := [], checking := false } } } .a 0 0 = true) ∧
    ((fun (s : State) (h : Half) (_ : Nat) => (s.mbIdle h) && ((s.mcore.intake).any fun k => decide (k.half = h) && decide (k.checking = false) && decide (s.imageStatus k.type k.data ≠ 0)))
      { State.reset with board := { State.reset.board with auxGood := true }, asserted := [], up := 3, mcore := { State.reset.mcore with intake := some { half := .a, type := 1, len := 400, bytes := [], checking := false } } } .a 0 = true) ∧
    ((fun (s : State) (h : Half) (_ : Nat) => (s.mbIdle h) && ((s.mcore.intake).any fun k => decide (k.half = h) && decide (k.checking = false) && decide (k.type = 2)))
      { State.reset with board := { State.reset.board with auxGood := true }, asserted := [], up := 3, mcore := { State.reset.mcore with intake := some { half := .b, type := 2, len := 200, bytes := [], checking := false } } } .b 0 = true) ∧
    ((fun (s : State) (h : Half) (_ : Nat) => (s.mbIdle h) && ((s.intakeOf h).isSome))
      { State.reset with board := { State.reset.board with auxGood := true }, asserted := [], up := 3, mcore := { State.reset.mcore with intake := some { half := .a, type := 1, len := 400, bytes := [], checking := false } } } .a 0 = true) ∧
    ((fun (s : State) (h : Half) (_ : Nat) => (s.mbIdle h) && decide (s.intakeOf h = none))
      { State.reset with board := { State.reset.board with auxGood := true }, asserted := [], up := 3 } .b 0 = true) ∧
    ((fun (s : State) (h : Half) (_ : Nat) (k : Nat) => (s.mbIdle h) && decide (k < 2))
      { State.reset with board := { State.reset.board with auxGood := true }, asserted := [], up := 3 } .b 0 0 = true) ∧
    ((fun (s : State) (h : Half) (op : Nat) (_ : Nat) (_ : Nat) (_ : Nat) => (s.mbIdle h) && decide (op = 0 ∨ 9 ≤ op) && decide (op < 256))
      { State.reset with board := { State.reset.board with auxGood := true }, asserted := [], up := 3 } .a 0 0 0 0 = true) := by
  refine ⟨?_, ?_, ?_, ?_, ?_, ?_, ?_, ?_, ?_, ?_, ?_⟩ <;> decide +kernel

/-- A state and operands meeting the hypotheses of LeasesAndPolls, clause by clause. -/
theorem witness_LeasesAndPolls :
    ((fun (s : State) => ((s.mcore.intake).any fun k => decide (k.checking = false)))
      { State.reset with asserted := [], mcore := { State.reset.mcore with intake := some { half := .a, type := 1, len := 400, bytes := [], checking := false } } } = true) ∧
    ((fun (s : State) => ((s.mcore.intake).any fun k => k.checking))
      { State.reset with asserted := [], mcore := { State.reset.mcore with intake := some { half := .a, type := 2, len := 400, bytes := [], checking := true } } } = true) ∧
    ((fun (s : State) (_ : Half) => s.mantleUp)
      { State.reset with asserted := [] } .b = true) ∧
    ((fun (s : State) (h : Half) (_ : Nat) (echo : Nat) => (s.coreUp h) && ((s.mh h.toNat).windowOpen) && decide (echo % 256 = s.get B.mnt F.MNT_MISS_POLL))
      { State.reset with asserted := [], up := 3, mhalf := [(1, { (default : MantleHalf) with answer := some 90, windowOpen := true })] } .b 0 0 = true) ∧
    ((fun (s : State) (h : Half) (_ : Nat) (echo : Nat) => (s.coreUp h) && decide ((s.mh h.toNat).windowOpen = false ∨ echo % 256 ≠ s.get B.mnt F.MNT_MISS_POLL))
      { State.reset with asserted := [], up := 3 } .b 0 0 = true) ∧
    ((fun (s : State) (h : Half) (hd : Nat) => decide (hd < 8) && s.mantleUp && ((s.mh h.toNat).windowOpen) && (s.owns h hd) && decide ((s.mh h.toNat).fresh.testBit hd = false))
      { State.reset with regs := [(0x2000008, 0xAA55#32)], asserted := [], mhalf := [(0, { (default : MantleHalf) with answer := some 90, windowOpen := true })] } .a 0 = true) ∧
    ((fun (s : State) (h : Half) (hd : Nat) => decide (hd < 8) && ((s.mh h.toNat).windowOpen) && (s.owns h hd) && decide ((s.mh h.toNat).fresh.testBit hd = false) && decide (((s.mh h.toNat).answer.getD 0).testBit hd = false) && decide (2 ≤ s.get B.mnt (missFld hd)))
      { State.reset with regs := [(0x2000008, 0xAA55#32), (0x200000C, 0x2492#32)], asserted := [], mhalf := [(0, { (default : MantleHalf) with answer := some 90, windowOpen := true })] } .a 0 = true) := by
  refine ⟨?_, ?_, ?_, ?_, ?_, ?_, ?_⟩ <;> decide +kernel

/-- A state and operands meeting the hypotheses of RetractsWatchdogsAndCore, clause by clause. -/
theorem witness_RetractsWatchdogsAndCore :
    ((fun (s : State) (h : Half) (u : Nat) (vel : Nat) => decide (u < 8) && (s.retracting (actId h u)) && decide (s.mcore.latchPush.testBit (actId h u) = false) && decide (vel < 5 * (s.retractOf (actId h u)).vel))
      { State.reset with regs := [(0x200001C, 0xFF#32)], asserted := [], mcore := { State.reset.mcore with retracts := [(0, { (default : Retract) with vel := 3000, latchMa := 20 }), (1, { (default : Retract) with vel := 3000, latchMa := 20, tmo := 1 }), (2, { (default : Retract) with vel := 3000, latchMa := 20 }), (3, { (default : Retract) with vel := 3000, latchMa := 20, tmo := 1 }), (4, { (default : Retract) with vel := 3000, latchMa := 20 }), (5, { (default : Retract) with vel := 3000, latchMa := 20, tmo := 1 }), (6, { (default : Retract) with vel := 3000, latchMa := 20 }), (7, { (default : Retract) with vel := 3000, latchMa := 20, tmo := 1 }), (8, { (default : Retract) with vel := 3000, latchMa := 20 }), (9, { (default : Retract) with vel := 3000, latchMa := 20, tmo := 1 }), (10, { (default : Retract) with vel := 3000, latchMa := 20 }), (11, { (default : Retract) with vel := 3000, latchMa := 20, tmo := 1 }), (12, { (default : Retract) with vel := 3000, latchMa := 20 }), (13, { (default : Retract) with vel := 3000, latchMa := 20, tmo := 1 }), (14, { (default : Retract) with vel := 3000, latchMa := 20 }), (15, { (default : Retract) with vel := 3000, latchMa := 20, tmo := 1 })] } } .a 0 0 = true) ∧
    ((fun (s : State) (h : Half) (u : Nat) => decide (u < 8) && (s.retracting (actId h u)) && (s.mcore.latchPush.testBit (actId h u)))
      { State.reset with regs := [(0x200001C, 0xFF#32)], asserted := [], mcore := { State.reset.mcore with latchPush := 15 } } .a 0 = true) ∧
    ((fun (s : State) (h : Half) (u : Nat) (us : Nat) => decide (u < 8) && (s.retracting (actId h u)) && decide (s.mcore.latchPush.testBit (actId h u) = false) && decide (1000 * (s.retractOf (actId h u)).tmo ≤ us))
      { State.reset with regs := [(0x200001C, 0xFF#32)], asserted := [] } .a 0 0 = true) ∧
    ((fun (s : State) (h : Half) (key : Nat) => (s.coreUp h) && decide (s.get B.mnt (wdState h) ≠ 0) && decide (key % 65536 = (if s.bit B.mnt (wdKey h) = true then 0xA5A5 else 0x5A5A)))
      { State.reset with regs := [(0x200100C, 0x5#32)], asserted := [], up := 3 } .a 23130 = true) ∧
    ((fun (s : State) (h : Half) (key : Nat) => (s.coreUp h) && decide (s.get B.mnt (wdState h) = 1 ∨ s.get B.mnt (wdState h) = 2) && decide (key % 65536 ≠ (if s.bit B.mnt (wdKey h) = true then 0xA5A5 else 0x5A5A)))
      { State.reset with regs := [(0x200100C, 0x5#32)], asserted := [], up := 3 } .a 0 = true) ∧
    ((fun (s : State) (h : Half) (ms : Nat) => decide (s.get B.mnt (wdState h) = 2) && decide ((s.mh h.toNat).period ≤ ms))
      { State.reset with regs := [(0x200100C, 0x3A#32)], asserted := [] } .a 0 = true) ∧
    ((fun (s : State) (h : Half) => decide (s.get B.mnt (wdState h) = 3))
      { State.reset with regs := [(0x200100C, 0xF#32)], asserted := [] } .a = true) ∧
    ((fun (s : State) (h : Half) => (s.coreUp h) && decide ((s.mh h.toNat).running = false) && decide ((s.mh h.toNat).bootFailed = false) && s.mantleUp)
      { State.reset with asserted := [], up := 3 } .b = true) ∧
    ((fun (s : State) (_ : Half) => s.mantleUp)
      { State.reset with asserted := [] } .b = true) ∧
    ((fun (s : State) => s.mantleUp && decide (s.mcore.coreUp = false) && decide (s.mcore.order = []))
      { State.reset with asserted := [], mcore := { State.reset.mcore with coreUp := false } } = true) := by
  refine ⟨?_, ?_, ?_, ?_, ?_, ?_, ?_, ?_, ?_, ?_⟩ <;> decide +kernel

/-- A state and operands meeting the hypotheses of ChimneyRecords, clause by clause. -/
theorem witness_ChimneyRecords :
    ((fun (s : State) (h : Half) => (s.coreUp h) && (((s.coll h.toNat).fifo.head?).any fun m => decide ((msgCheck m && kindValid 0 (msgKind m)) = false)))
      { State.reset with asserted := [], up := 3, collectors := [(1, { (default : Collector) with fifo := [0xCD0000000009DF81#64] })] } .b = true) ∧
    ((fun (s : State) (h : Half) => (s.coreUp h) && (((s.coll h.toNat).fifo.head?).any fun m => ((msgCheck m && kindValid 0 (msgKind m))) && decide (s.bit (B.chm h) F.CHM_CTL_RESET_EN = false) && decide ((s.srcOf h.toNat (msgSource m)).record = none) && ((s.word (clsAddr h.toNat (msgKind m) + 4)).getLsbD 0) && ((s.word (clsAddr h.toNat (msgKind m) + 4)).getLsbD 8) && ((List.range 64).find? (fun r => !s.recIsOpen h.toNat r)).any fun _ => true))
      { State.reset with asserted := [], up := 3, collectors := [(0, { (default : Collector) with fifo := [0x3580000000018A20#64] })] } .a = true) ∧
    ((fun (s : State) (h : Half) => (s.coreUp h) && (((s.coll h.toNat).fifo.head?).any fun m => ((msgCheck m && kindValid 0 (msgKind m))) && decide (s.bit (B.chm h) F.CHM_CTL_RESET_EN = false) && (((s.srcOf h.toNat (msgSource m)).record).any fun r => decide (r < 64))))
      { State.reset with asserted := [], up := 3, collectors := [(0, { (default : Collector) with fifo := [0x3580000000018A20#64], srcs := [(544, { (default : SrcState) with count := 4, winEnd := 5, record := some 3 })] })] } .a = true) ∧
    ((fun (s : State) (h : Half) (i : Nat) => decide (i < 64) && (s.coreUp h) && (s.recIsOpen h.toNat i))
      { State.reset with regs := [(0x102200C, 0x1#32)], asserted := [], up := 3 } .b 0 = true) ∧
    ((fun (s : State) (h : Half) (i : Nat) => (s.coreUp h) && decide (s.recIsOpen h.toNat (i % 64) = false))
      { State.reset with asserted := [], up := 3 } .b 0 = true) ∧
    ((fun (s : State) (h : Half) (_ : Nat) => (s.coreUp h) && decide ((s.coll h.toNat).fifo.length < 256))
      { State.reset with asserted := [], up := 3 } .b 0 = true) := by
  refine ⟨?_, ?_, ?_, ?_, ?_, ?_⟩ <;> decide +kernel

/-- A state and operands meeting the hypotheses of MantleCollectorAndRecorder, clause by clause. -/
theorem witness_MantleCollectorAndRecorder :
    ((fun (s : State) => s.mantleUp && (((s.coll 2).fifo.head?).any fun m => decide ((msgCheck m && kindValid 2 (msgKind m)) = false)))
      { State.reset with asserted := [], collectors := [(2, { (default : Collector) with fifo := [0x8A00000000070DA3#64] })] } = true) ∧
    ((fun (s : State) => s.mantleUp && (((s.coll 2).fifo.head?).any fun m => ((msgCheck m && kindValid 2 (msgKind m))) && decide ((s.srcOf 2 (msgSource m)).record = none) && ((s.word (clsAddr 2 (msgKind m) + 4)).getLsbD 0) && decide ((s.word (clsAddr 2 (msgKind m) + 4)).getLsbD 2 = false) && ((s.word (clsAddr 2 (msgKind m) + 4)).getLsbD 8) && decide ((s.word (clsAddr 2 (msgKind m) + 4)).getLsbD 10 = false) && ((List.range 16).find? (fun r => !s.recIsOpen 2 r)).any fun _ => true))
      { State.reset with asserted := [], collectors := [(2, { (default : Collector) with fifo := [0xCD0000000009DF81#64] })] } = true) ∧
    ((fun (s : State) (src : Nat) => (((s.srcOf 2 src).record).any fun r => decide (r < 16) && decide (s.get (recAddr 2 r) ⟨0, 0, 10⟩ = src) && (s.recIsOpen 2 r) && (s.closePoint (s.get (recAddr 2 r) recKind) src (s.get64 (recAddr 2 r + 24)))))
      { State.reset with regs := [(0x2023140, 0xEFC0#32), (0x202314C, 0x1#32)], asserted := [], collectors := [(2, { (default : Collector) with srcs := [(960, { (default : SrcState) with count := 4, winEnd := 5, record := some 10 })] })] } 960 = true) ∧
    ((fun (s : State) (src : Nat) => (((s.srcOf 2 src).record).any fun r => decide (s.closePoint (s.get (recAddr 2 r) recKind) src (s.get64 (recAddr 2 r + 24)) = false)))
      { State.reset with ticks := 266000, regs := [(0x2023178, 0x7BDDAB#32)], asserted := [], collectors := [(2, { (default : Collector) with srcs := [(897, { (default : SrcState) with count := 4, winEnd := 5, record := some 11 })] })] } 897 = true) ∧
    ((fun (s : State) => s.mantleUp && ((s.evQueue.head?).any fun e => decide (s.eventFolds e = false) && decide (s.bit B.evt F.EVT_STAT_PERM_FULL = false) && decide (s.get B.evt F.EVT_SEQ_SEQ < 256)))
      { State.reset with asserted := [], evQueue := [{ (default : EvRec) with code := 98, p0 := 9, p1 := 4000, p2 := 2, time := 38000 }] } = true) ∧
    ((fun (s : State) => s.mantleUp && ((s.evQueue.head?).any fun e => decide (s.eventFolds e = false) && (s.bit B.evt F.EVT_STAT_PERM_FULL) && decide (256 ≤ s.get B.evt F.EVT_SEQ_SEQ) && decide (s.get B.evt F.EVT_SEQ_SEQ < 2 ^ 32 - 1)))
      { State.reset with regs := [(0x2020000, 0x1000#32), (0x202000C, 0x101#32)], asserted := [], evQueue := [{ (default : EvRec) with code := 98, p0 := 3, p1 := 1000, time := 14000 }] } = true) ∧
    ((fun (s : State) => decide (s.evQueue = []))
      { State.reset with asserted := [] } = true) := by
  refine ⟨?_, ?_, ?_, ?_, ?_, ?_, ?_⟩ <;> decide +kernel

/-- A state and operands meeting the hypotheses of EventsAreFolded, clause by clause. -/
theorem witness_EventsAreFolded :
    ((fun (s : State) => s.mantleUp && ((s.evQueue.head?).any fun _ => decide (s.get B.evt F.EVT_LAST_INDEX < 2304 ∨ s.get B.evt F.EVT_LAST_INDEX = 0xFFF)))
      { State.reset with asserted := [], evQueue := [{ (default : EvRec) with code := 98, p0 := 9, p1 := 4000, p2 := 2, time := 38000 }] } = true) := by decide +kernel

/-- A state and operands meeting the hypotheses of WearLampsAndTrace, clause by clause. -/
theorem witness_WearLampsAndTrace :
    ((fun (s : State) (h : Half) (i : Nat) (_ : Nat) (_ : Int) => decide (i < 163) && (s.bit (B.wlp h) F.WLP_CTL_EN) && decide (lampType i ∉ [0, 2, 3, 5, 7, 10]))
      { State.reset with asserted := [] } .a 4 0 507 = true) ∧
    ((fun (s : State) (h : Half) (i : Nat) (_ : Nat) (_ : Int) => decide (i < 163) && (s.bit (B.wlp h) F.WLP_CTL_EN) && decide (lampType i = 0))
      { State.reset with asserted := [] } .b 0 0 325 = true) ∧
    ((fun (_ : State) (_ : Half) (i : Nat) (_ : Nat) (_ : Int) => decide (163 ≤ i ∨ lampType i ∈ [2, 3, 5, 7, 10]))
      { State.reset with asserted := [] } .a 8 0 921 = true) ∧
    ((fun (s : State) (h : Half) (i : Nat) (_ : Nat) => decide (24 ≤ i) && decide (i < 88) && (s.bit (B.wlp h) F.WLP_CTL_EN))
      { State.reset with asserted := [] } .b 24 0 = true) ∧
    ((fun (_ : State) (_ : Half) (i : Nat) (_ : Nat) => decide (i < 24 ∨ 88 ≤ i))
      { State.reset with asserted := [] } .b 0 0 = true) ∧
    ((fun (s : State) (h : Half) (i : Nat) (j : Nat) => decide (i < 163) && decide (j < 31) && (s.bit (B.wlp h) F.WLP_CTL_EN) && decide (s.get (B.wlp h) F.WLP_NEXT_SECONDS ≤ s.seconds))
      { State.reset with asserted := [] } .b 0 0 = true) ∧
    ((fun (s : State) (h : Half) => decide (s.bit (B.wlp h) F.WLP_CTL_EN = false) && decide (s.get (B.wlp h) F.WLP_NEXT_SECONDS ≤ s.seconds))
      ({ State.reset with ticks := 10 ^ 9 }.putB (B.wlp .b) F.WLP_CTL_EN false) .b = true) ∧
    ((fun (s : State) (h : Half) => decide (s.seconds < s.get (B.wlp h) F.WLP_NEXT_SECONDS))
      { State.reset with regs := [(0x6001C, 0x82C0A4CB#32)], asserted := [] } .a = true) ∧
    ((fun (s : State) (h : Half) => (s.coreUp h) && (s.bit (B.cri h) F.CRI_TRCSTAT_LANES_UP) && (s.timeMark).any fun _ => true)
      { State.reset with regs := [(0x1071004, 0x1#32)], asserted := [], up := 3 } .b = true) ∧
    ((fun (s : State) (h : Half) => (s.coreUp h) && (s.bit (B.cri h) F.CRI_TRCSTAT_LANES_UP) && (((smGet TraceStream.reset s.traces (traceKey h 1 0)).fifo.head?).any fun _ => (smSorted s.traces)))
      { State.reset with regs := [(0x1071004, 0x1#32)], asserted := [], up := 3, traces := [(65792, { (default : TraceStream) with fifo := [{ (default : TracePacket) with type := 1, body := ([0x4D#8] ++ List.replicate 10 0x0#8) }, { (default : TracePacket) with type := 1, body := ([0x63#8] ++ List.replicate 10 0x0#8) }] })] } .b = true) ∧
    ((fun (s : State) (h : Half) => (s.coreUp h) && (s.bit (B.cri h) F.CRI_TRCSTAT_LANES_UP) && decide (s.traces = []))
      { State.reset with regs := [(0x1071004, 0x1#32)], asserted := [], up := 3 } .b = true) ∧
    ((fun (s : State) (h : Half) => (s.coreUp h) && (s.bit (B.cri h) F.CRI_TRCSTAT_LANES_UP))
      { State.reset with regs := [(0x71004, 0x1#32)], asserted := [], up := 3 } .a = true) ∧
    ((fun (s : State) (h : Half) => decide (s.bit (B.cri h) F.CRI_TRCSTAT_LANES_UP = false))
      { State.reset with asserted := [] } .b = true) := by
  refine ⟨?_, ?_, ?_, ?_, ?_, ?_, ?_, ?_, ?_, ?_, ?_, ?_, ?_⟩ <;> decide +kernel

end Sys2Proof.Machine
end

section
/-! PROOFS. The invariant of the machine: what `Keeps` says of every operation, carried to `exec` and to a step. -/

namespace Sys2Proof.Machine

/-- What a command leaves sound, whatever it is: each arm of `exec` is one operation, and each operation has its law. -/
theorem exec_keeps (i : Instr) (s : State) : OutKeeps s (exec i s) :=
  match i with
  | .auxPowerGood => execAuxPowerGood_keeps _
  | .strapConversion .. => execStrapConversion_keeps _ _
  | .strapSetEnd .. => execStrapSetEnd_keeps _ _
  | .strapRetry => execStrapRetry_keeps _
  | .hotSwapClose => execHotSwapClose_keeps _
  | .hotSwapRampEnd => execHotSwapRampEnd_keeps _
  | .psenNHigh => execPsenNHigh_keeps _
  | .busBrownOut => execBusBrownOut_keeps _
  | .auxBo => execAuxBo_keeps _
  | .auxBoMantleReset => execAuxBoMantleReset_keeps _
  | .cold => execCold_keeps _
  | .mrst => execMrst_keeps _
  | .perstAssert .. => execPerstAssert_keeps _ _
  | .hotReset .. => execHotReset_keeps _ _
  | .flr .. => execFlr_keeps _ _
  | .cablePresenceHigh .. => execCablePresenceHigh_keeps _ _
  | .linkDownTimeout .. => execLinkDownTimeout_keeps _ _
  | .linkTrained .. => execLinkTrained_keeps _ _ _ _ _ _
  | .socketTrip .. => execSocketTrip_keeps _ _ _
  | .traceProbeChange .. => execTraceProbeChange_keeps _ _
  | .shockSample .. => execShockSample_keeps _ _
  | .feedforwardTimeout .. => execFeedforwardTimeout_keeps _ _
  | .snufferShock .. => execSnufferShock_keeps _ _ _
  | .snufferRearm .. => execSnufferRearm_keeps _ _ _ _ _
  | .registerWrite .. => execRegisterWrite_keeps _ _ _ _
  | .strayAccess .. => execStrayAccess_keeps _ _ _ _ _
  | .readClear .. => execReadClear_keeps _ _ _ _
  | .snapshot .. => execSnapshot_keeps _ _
  | .presenceLow .. => execPresenceLow_keeps _ _ _
  | .presenceHigh .. => execPresenceHigh_keeps _ _ _ _
  | .debounceElapsed .. => execDebounceElapsed_keeps _ _ _
  | .eepromReadStart .. => execEepromReadStart_keeps _ _ _
  | .eepromReadDone .. => execEepromReadDone_keeps _ _ _ _
  | .preampFrameEnd .. => execPreampFrameEnd_keeps _ _ _ _
  | .pago .. => execPago_keeps _ _ _ _ _
  | .portModeWrite .. => execPortModeWrite_keeps _ _ _ _
  | .preampSupplyOverload .. => execPreampSupplyOverload_keeps _ _ _ _
  | .preampFault .. => execPreampFault_keeps _ _ _ _
  | .persistentFaultCheck .. => execPersistentFaultCheck_keeps _ _ _ _
  | .readGateRise .. => execReadGateRise_keeps _ _ _
  | .lockCheck .. => execLockCheck_keeps _ _ _ _ _
  | .syncWindowClose .. => execSyncWindowClose_keeps _ _ _ _ _ _
  | .readGateFall .. => execReadGateFall_keeps _ _ _ _
  | .servoGateRise .. => execServoGateRise_keeps _ _ _
  | .servoGateFall .. => execServoGateFall_keeps _ _ _
  | .resyncWindowClose .. => execResyncWindowClose_keeps _ _ _ _ _ _
  | .lastCodewordSymbol .. => execLastCodewordSymbol_keeps _ _ _ _ _ _
  | .firstDecodeEnd .. => execFirstDecodeEnd_keeps _ _ _ _ _
  | .redetectionDone .. => execRedetectionDone_keeps _ _ _
  | .hypothesisDecodeEnd .. => execHypothesisDecodeEnd_keeps _ _ _ _ _
  | .recoveryRoundEnd .. => execRecoveryRoundEnd_keeps _ _ _ _ _
  | .verifyStart .. => execVerifyStart_keeps _ _ _
  | .verifyDecodeEnd .. => execVerifyDecodeEnd_keeps _ _ _ _ _ _ _
  | .channelOff .. => execChannelOff_keeps _ _ _
  | .channelCfg .. => execChannelCfg_keeps _ _ _ _
  | .freeze .. => execFreeze_keeps _ _ _ _
  | .frozen .. => execFrozen_keeps _ _ _
  | .bandSplit .. => execBandSplit_keeps _ _ _
  | .grownListWrite .. => execGrownListWrite_keeps _ _ _
  | .heaterFrameUpdate .. => execHeaterFrameUpdate_keeps _ _ _
  | .formatOff .. => execFormatOff_keeps _ _ _
  | .formatTables .. => execFormatTables_keeps _ _ _ _ _
  | .readPass .. => execReadPass_keeps _ _ _
  | .writePass .. => execWritePass_keeps _ _ _ _
  | .verifyPass .. => execVerifyPass_keeps _ _ _
  | .rewriteEntry .. => execRewriteEntry_keeps _ _ _
  | .retryRevolution .. => execRetryRevolution_keeps _ _ _
  | .systemBandRead .. => execSystemBandRead_keeps _ _ _
  | .seekOnly .. => execSeekOnly_keeps _ _ _ _
  | .park .. => execPark_keeps _ _ _
  | .nop .. => execNop_keeps _ _ _ _
  | .jmp .. => execJmp_keeps _ _ _ _ _
  | .call .. => execCall_keeps _ _ _ _ _
  | .ret .. => execRet_keeps _ _ _ _
  | .loop .. => execLoop_keeps _ _ _ _ _ _
  | .ldi .. => execLdi_keeps _ _ _ _ _ _
  | .addi .. => execAddi_keeps _ _ _ _ _ _
  | .alu .. => execAlu_keeps _ _ _ _ _ _ _
  | .ldop .. => execLdop_keeps _ _ _ _ _ _
  | .loc .. => execLoc_keeps _ _ _ _ _
  | .wwed .. => execWwed_keeps _ _ _ _ _
  | .wsym .. => execWsym_keeps _ _ _ _ _ _ _
  | .edge .. => execEdge_keeps _ _ _ _ _ _ _ _ _
  | .sect .. => execSect_keeps _ _ _ _ _ _ _ _
  | .wch .. => execWch_keeps _ _ _ _
  | .recov .. => execRecov_keeps _ _ _ _ _
  | .frm .. => execFrm_keeps _ _ _ _ _
  | .frmx .. => execFrmx_keeps _ _ _ _ _ _ _
  | .seek .. => execSeek_keeps _ _ _ _ _ _
  | .wcond .. => execWcond_keeps _ _ _ _ _
  | .post .. => execPost_keeps _ _ _ _ _
  | .evt .. => execEvt_keeps _ _ _ _ _
  | .halt .. => execHalt_keeps _ _ _ _
  | .illegal .. => execIllegal_keeps _ _ _ _ _ _
  | .stallRelease .. => execStallRelease_keeps _ _ _ _ _
  | .wcondTimeout .. => execWcondTimeout_keeps _ _ _
  | .edgeApply .. => execEdgeApply_keeps _ _ _ _
  | .abortVector .. => execAbortVector_keeps _ _ _ _
  | .restart .. => execRestart_keeps _ _ _
  | .wickOff .. => execWickOff_keeps _ _ _
  | .patchApply .. => execPatchApply_keeps _ _ _
  | .patchRewrite .. => execPatchRewrite_keeps _ _ _
  | .servoDemodEnd .. => execServoDemodEnd_keeps _ _ _ _ _
  | .servoComputationEnd .. => execServoComputationEnd_keeps _ _ _ _
  | .servoOutputApply .. => execServoOutputApply_keeps _ _ _
  | .implausRetract .. => execImplausRetract_keeps _ _ _
  | .reachAlarm .. => execReachAlarm_keeps _ _ _
  | .profileEnd .. => execProfileEnd_keeps _ _ _
  | .seekSettled .. => execSeekSettled_keeps _ _ _
  | .seekTimeout .. => execSeekTimeout_keeps _ _ _
  | .cmdLoad .. => execCmdLoad_keeps _ _ _
  | .loadLock .. => execLoadLock_keeps _ _ _
  | .loadFail .. => execLoadFail_keeps _ _ _
  | .cmdPark .. => execCmdPark_keeps _ _ _
  | .cmdRetract .. => execCmdRetract_keeps _ _ _
  | .stopReached .. => execStopReached_keeps _ _ _ _
  | .latchPushEnd .. => execLatchPushEnd_keeps _ _ _
  | .retractTmo .. => execRetractTmo_keeps _ _ _
  | .servoEnSet .. => execServoEnSet_keeps _ _ _
  | .servoOff .. => execServoOff_keeps _ _ _
  | .calOne .. => execCalOne_keeps _ _ _ _
  | .calSweep .. => execCalSweep_keeps _ _ _
  | .calBackground .. => execCalBackground_keeps _ _ _
  | .calMeasureEnd .. => execCalMeasureEnd_keeps _ _ _
  | .commutationStep .. => execCommutationStep_keeps _ _ _ _
  | .skipRun .. => execSkipRun_keeps _ _ _
  | .rotorLost .. => execRotorLost_keeps _ _ _
  | .bridgeOcp .. => execBridgeOcp_keeps _ _ _
  | .electricalCycle .. => execElectricalCycle_keeps _ _ _ _ _
  | .keMeasure .. => execKeMeasure_keeps _ _ _ _ _
  | .keRepeat .. => execKeRepeat_keeps _ _ _ _ _
  | .start .. => execStart_keeps _ _ _
  | .stop .. => execStop_keeps _ _ _
  | .spindleEnSet .. => execSpindleEnSet_keeps _ _ _
  | .spindleOff .. => execSpindleOff_keeps _ _ _
  | .taperSlotGrant => execTaperSlotGrant_keeps _
  | .alignEnd .. => execAlignEnd_keeps _ _ _
  | .senseEnd .. => execSenseEnd_keeps _ _ _ _
  | .rampHandover .. => execRampHandover_keeps _ _ _
  | .rampTimeout .. => execRampTimeout_keeps _ _ _
  | .taperEnd .. => execTaperEnd_keeps _ _ _ _
  | .coastEnd .. => execCoastEnd_keeps _ _ _
  | .catchEstimate .. => execCatchEstimate_keeps _ _ _ _ _ _ _
  | .catchOk .. => execCatchOk_keeps _ _ _
  | .catchFail .. => execCatchFail_keeps _ _ _
  | .parkRpmReached .. => execParkRpmReached_keeps _ _ _
  | .brakeStart .. => execBrakeStart_keeps _ _ _
  | .brakeSlotGrant => execBrakeSlotGrant_keeps _
  | .stopRpmReached .. => execStopRpmReached_keeps _ _ _
  | .speedBelow30rpm .. => execSpeedBelow30rpm_keeps _ _ _
  | .ladderStep1 .. => execLadderStep1_keeps _ _
  | .chopperOff .. => execChopperOff_keeps _ _ _
  | .ladderStep2 .. => execLadderStep2_keeps _ _
  | .ladderStep3 .. => execLadderStep3_keeps _ _
  | .ladderRelease .. => execLadderRelease_keeps _ _
  | .chopperFail .. => execChopperFail_keeps _ _
  | .chopperTest .. => execChopperTest_keeps _ _
  | .chopHot => execChopHot_keeps _
  | .chopCool => execChopCool_keeps _
  | .budgetWindow .. => execBudgetWindow_keeps _ _ _
  | .seekLimit => execSeekLimit_keeps _
  | .budgetLift => execBudgetLift_keeps _
  | .dimmIdentify .. => execDimmIdentify_keeps _ _ _
  | .pmicPowerGood .. => execPmicPowerGood_keeps _ _
  | .trainingAttemptEnd .. => execTrainingAttemptEnd_keeps _ _ _
  | .dimmTempRead .. => execDimmTempRead_keeps _ _ _ _
  | .bufferRead .. => execBufferRead_keeps _ _ _ _ _ _ _
  | .bufferWrite .. => execBufferWrite_keeps _ _ _ _ _ _
  | .zeroFillDone .. => execZeroFillDone_keeps _ _ _
  | .mergeFlush .. => execMergeFlush_keeps _ _ _ _ _
  | .regionRelease .. => execRegionRelease_keeps _ _ _
  | .scrubStep .. => execScrubStep_keeps _ _ _ _ _
  | .pageRetire .. => execPageRetire_keeps _ _ _
  | .bankRetire .. => execBankRetire_keeps _ _
  | .retireDone .. => execRetireDone_keeps _ _ _
  | .logClear .. => execLogClear_keeps _ _
  | .partitionWrite .. => execPartitionWrite_keeps _ _ _ _
  | .bankSpare .. => execBankSpare_keeps _ _ _
  | .cacheRequest .. => execCacheRequest_keeps _ _ _ _ _ _ _ _ _
  | .cacheFillDone .. => execCacheFillDone_keeps _ _ _ _
  | .writebackAccepted .. => execWritebackAccepted_keeps _ _ _
  | .cacheModeWrite .. => execCacheModeWrite_keeps _ _ _
  | .clean .. => execClean_keeps _ _ _ _ _
  | .inv .. => execInv_keeps _ _ _ _ _
  | .cleanInv .. => execCleanInv_keeps _ _ _ _ _
  | .lock .. => execLock_keeps _ _ _ _ _
  | .unlock .. => execUnlock_keeps _ _ _ _ _
  | .maintenanceDone .. => execMaintenanceDone_keeps _ _
  | .wayPowerDown .. => execWayPowerDown_keeps _ _ _
  | .wayWalkEnd .. => execWayWalkEnd_keeps _ _ _
  | .wayPowerUp .. => execWayPowerUp_keeps _ _ _
  | .wayOnDone .. => execWayOnDone_keeps _ _ _
  | .sqDoorbell .. => execSqDoorbell_keeps _ _ _ _
  | .cqDoorbell .. => execCqDoorbell_keeps _ _ _ _
  | .descriptorFetch .. => execDescriptorFetch_keeps _ _ _ _
  | .commandStart .. => execCommandStart_keeps _ _
  | .read .. => execRead_keeps _ _ _ _
  | .write .. => execWrite_keeps _ _ _
  | .writeStaged .. => execWriteStaged_keeps _ _ _ _ _
  | .verify .. => execVerify_keeps _ _ _
  | .flush .. => execFlush_keeps _ _ _
  | .trim .. => execTrim_keeps _ _ _
  | .pin .. => execPin_keeps _ _ _
  | .unpin .. => execUnpin_keeps _ _ _
  | .prefetch .. => execPrefetch_keeps _ _ _
  | .setClass .. => execSetClass_keeps _ _ _
  | .setEmberRate .. => execSetEmberRate_keeps _ _ _
  | .identify .. => execIdentify_keeps _ _ _
  | .logRead .. => execLogRead_keeps _ _ _
  | .hdaAttach .. => execHdaAttach_keeps _ _ _ _
  | .hdaDetach .. => execHdaDetach_keeps _ _ _
  | .nsCreate .. => execNsCreate_keeps _ _ _
  | .nsDelete .. => execNsDelete_keeps _ _ _
  | .retire .. => execRetire_keeps _ _ _ _
  | .firmwareLoad .. => execFirmwareLoad_keeps _ _ _ _
  | .microcodeLoad .. => execMicrocodeLoad_keeps _ _ _ _
  | .completionPost .. => execCompletionPost_keeps _ _ _
  | .interruptAggTimeout .. => execInterruptAggTimeout_keeps _ _ _ _
  | .payloadTimeout .. => execPayloadTimeout_keeps _ _ _
  | .lateCpl .. => execLateCpl_keeps _ _ _
  | .sqEnable .. => execSqEnable_keeps _ _ _
  | .cqEnable .. => execCqEnable_keeps _ _ _
  | .ringChanged .. => execRingChanged_keeps _ _ _ _ _ _
  | .ringDisable .. => execRingDisable_keeps _ _ _ _
  | .lostLogClear .. => execLostLogClear_keeps _ _
  | .sdmTakeChannel .. => execSdmTakeChannel_keeps _ _ _ _
  | .sdmDescriptorEnd .. => execSdmDescriptorEnd_keeps _ _ _ _ _
  | .sdmHostTimeout .. => execSdmHostTimeout_keeps _ _ _
  | .sdmChannelEnable .. => execSdmChannelEnable_keeps _ _ _
  | .resume .. => execResume_keeps _ _ _
  | .sdmChannelDisable .. => execSdmChannelDisable_keeps _ _ _ _ _
  | .sdmChannelReconfig .. => execSdmChannelReconfig_keeps _ _ _ _ _ _ _
  | .claim .. => execClaim_keeps _ _ _ _ _
  | .release .. => execRelease_keeps _ _ _ _ _
  | .retract .. => execRetract_keeps _ _ _ _ _
  | .wdConfig .. => execWdConfig_keeps _ _ _ _ _
  | .intakeOpen .. => execIntakeOpen_keeps _ _ _ _ _
  | .intakeCheck .. => execIntakeCheck_keeps _ _ _ _ _
  | .intakeCancel .. => execIntakeCancel_keeps _ _ _ _ _
  | .nextSlot .. => execNextSlot_keeps _ _ _ _ _
  | .badOp .. => execBadOp_keeps _ _ _ _ _ _
  | .intakeTimeout => execIntakeTimeout_keeps _
  | .pollTick => execPollTick_keeps _
  | .leaseWrite .. => execLeaseWrite_keeps _ _ _ _
  | .leaseDeadline => execLeaseDeadline_keeps _
  | .lapse .. => execLapse_keeps _ _
  | .sequencerStop .. => execSequencerStop_keeps _ _ _ _
  | .retdone .. => execRetdone_keeps _ _ _
  | .rettmo .. => execRettmo_keeps _ _ _ _
  | .kick .. => execKick_keeps _ _ _
  | .wdWarn .. => execWdWarn_keeps _ _ _
  | .wdStage2 .. => execWdStage2_keeps _ _
  | .slotCheckDone .. => execSlotCheckDone_keeps _ _ _
  | .lockstepMismatch => execLockstepMismatch_keeps _
  | .halfResetRequest .. => execHalfResetRequest_keeps _ _ _ _
  | .hdaResetRequest .. => execHdaResetRequest_keeps _ _ _ _
  | .blockResetRequest .. => execBlockResetRequest_keeps _ _ _ _
  | .coldRelease => execColdRelease_keeps _
  | .auxBoRelease => execAuxBoRelease_keeps _
  | .mainBoRelease => execMainBoRelease_keeps _
  | .mrstRelease => execMrstRelease_keeps _
  | .halfRelease .. => execHalfRelease_keeps _ _
  | .portRelease .. => execPortRelease_keeps _ _
  | .hdaResetRelease .. => execHdaResetRelease_keeps _ _ _
  | .blockRelease .. => execBlockRelease_keeps _ _ _
  | .wrapperDrained .. => execWrapperDrained_keeps _ _ _
  | .lanternRelease => execLanternRelease_keeps _
  | .configured .. => execConfigured_keeps _ _
  | .railGood .. => execRailGood_keeps _ _ _
  | .railFault .. => execRailFault_keeps _ _ _
  | .domainGate .. => execDomainGate_keeps _ _ _ _
  | .domainFloor .. => execDomainFloor_keeps _ _ _ _
  | .domainWake .. => execDomainWake_keeps _ _ _ _
  | .domainWakeDone .. => execDomainWakeDone_keeps _ _ _
  | .policyWrite .. => execPolicyWrite_keeps _ _ _ _
  | .meterOver .. => execMeterOver_keeps _ _ _
  | .pllUnlock .. => execPllUnlock_keeps _ _ _
  | .refFail .. => execRefFail_keeps _ _
  | .motlinkStop .. => execMotlinkStop_keeps _ _
  | .pcieRefLost .. => execPcieRefLost_keeps _ _
  | .glimTick => execGlimTick_keeps _
  | .glimFail => execGlimFail_keeps _
  | .chimneyMessage .. => execChimneyMessage_keeps _ _
  | .recordClose .. => execRecordClose_keeps _ _ _
  | .chmRaise .. => execChmRaise_keeps _ _ _
  | .mantleMessage => execMantleMessage_keeps _
  | .mantleRecordClose .. => execMantleRecordClose_keeps _ _
  | .eventRecordWrite => execEventRecordWrite_keeps _
  | .lampMeasurement .. => execLampMeasurement_keeps _ _ _ _ _
  | .sampleIntervalClose .. => execSampleIntervalClose_keeps _ _
  | .wlpFeed .. => execWlpFeed_keeps _ _ _ _
  | .traceTimePacket .. => execTraceTimePacket_keeps _ _
  | .tracePacketSend .. => execTracePacketSend_keeps _ _
  | .deskewBlock .. => execDeskewBlock_keeps _ _
  | .linkDown .. => execLinkDown_keeps _ _
  | .halfLinkDown => execHalfLinkDown_keeps _
  | .halfLinkUp => execHalfLinkUp_keeps _
  | .hostAccess .. => execHostAccess_keeps _ _ _ _
  | .mantleRailLoss => execMantleRailLoss_keeps _
  | .rateRangeTimeout .. => execRateRangeTimeout_keeps _ _ _
  | .coreRestartDone => execCoreRestartDone_keeps _

/-- A step takes the front of the queue, if there is one, and is the command's effect on the state that is left. -/
theorem step_keeps {s t : State} (h : step s = .next t) : Keeps { s with pending := s.pending.tail } t := by
  unfold step at h
  split at h
  next e => cases h; exact ⟨by simp [e], id, id, Nat.le_refl _⟩
  next c rest e => simpa only [e, List.tail_cons] using exec_keeps c _ t h

/-- Settles O3: the front command is taken from the queue, and the law of its operation says that it keeps the rest sound. -/
theorem everyStepKeepsTheMachineSound : Obligations.EveryStepKeepsTheMachineSound := by
  intro s t hregs hevents hstep
  obtain ⟨pending, regs, events, free⟩ := step_keeps hstep
  exact ⟨regs hregs, events hevents, pending, free⟩

end Sys2Proof.Machine
end

section
/-! PROOFS. Register accesses: frames of the register space, the register access page, what a write and a read of one word come
to, and the snapshot of the counters. -/

namespace Sys2Proof.Machine

/-! ### Frames of the register space

A frame names the windows that an operation may write; every register outside them keeps its word. -/

theorem State.word_eq_of_regs {s t : State} (h : t.regs = s.regs) (a : Nat) : t.word a = s.word a := by
  simp only [State.word, h]

theorem State.word_put_ne (s : State) (b : Nat) (f : Fld) (v a : Nat) (h : a ≠ b + f.off) :
    (s.put b f v).word a = s.word a := State.word_setWord_ne _ _ _ _ h

theorem State.sameOutside_refl (s : State) (ws : List Nat) : s.sameOutside ws s := fun _ _ => rfl

theorem State.sameOutside_trans {s t u : State} {ws : List Nat} (h : s.sameOutside ws t) (k : t.sameOutside ws u) :
    s.sameOutside ws u := fun a ha => (k a ha).trans (h a ha)

theorem State.setWord_sameOutside (s : State) {ws : List Nat} {a : Nat} (w : Word) (h : win a ∈ ws) :
    s.sameOutside ws (s.setWord a w) := fun b hb =>
  State.word_setWord_ne _ _ _ _ fun e => hb (by rw [e]; exact h)

/-- A counter's two words lie in the counter window of its half (R58). -/
theorem win_cntAddr (h : Half) {c : Nat} (hc : c < 8192) :
    win (cntAddr h c) = win (B.cnt h) ∧ win (cntAddr h c + 4) = win (B.cnt h) := by
  simp only [win, cntAddr, B.cnt, B.half]; omega

theorem State.set64_cnt_sameOutside (s : State) (h : Half) {c : Nat} (v : Nat) (hc : c < 8192) :
    s.sameOutside (msgWins h) (s.set64 (cntAddr h c) v) :=
  State.sameOutside_trans
    (State.setWord_sameOutside _ _ (by simp [msgWins, (win_cntAddr h hc).1]))
    (State.setWord_sameOutside _ _ (by simp [msgWins, (win_cntAddr h hc).2]))

theorem State.bumpQuiet_sameOutside (s : State) (h : Half) {c : Nat} (n : Nat) (hc : c < 8192) :
    s.sameOutside (msgWins h) (s.bumpQuiet h c n) := by
  unfold State.bumpQuiet
  exact ite_both (State.sameOutside_refl _ _)
    (ite_both (State.set64_cnt_sameOutside _ _ _ hc) (State.set64_cnt_sameOutside _ _ _ hc))

theorem State.sendMsg_sameOutside (s : State) (h : Half) (m : BitVec 64) : s.sameOutside (msgWins h) (s.sendMsg h m) := by
  unfold State.sendMsg
  refine ite_both (State.sameOutside_trans ?_ (State.bumpQuiet_sameOutside _ _ _ (by decide)))
    fun a _ => State.word_eq_of_regs rfl a
  have hwin : win (B.chm h + F.CHM_EVENTS_FIFO_OVF.off) = win (B.chm h) := by simp only [win, B.chm, B.half]; omega
  exact State.setWord_sameOutside _ _ (by simp [msgWins, hwin])

theorem State.bump48_sameOutside (s : State) (h : Half) {c : Nat} (n : Nat) (hc : c < 8192) :
    s.sameOutside (msgWins h) (s.bump48 h c n) := by
  have hquiet := State.bumpQuiet_sameOutside s h n hc
  unfold State.bump48
  exact ite_both (State.sameOutside_trans hquiet (State.sendMsg_sameOutside _ _ _)) hquiet

/-! ### The register access page (R57) -/

theorem accstat_not_msgWins (t : Half) : (B.hif t + 0xF008) / 0x10000 ∉ msgWins t := by cases t <;> decide

theorem State.accCount_word_accstat (s : State) (t : Half) :
    (s.count (B.hif t) F.HIF_ACCCNT_COUNT t 587 1).word (B.hif t + 0xF008) = s.word (B.hif t + 0xF008) := by
  unfold State.count
  rw [State.bump48_sameOutside _ t 1 (by decide) _ (accstat_not_msgWins t)]
  exact State.word_put_ne _ _ _ _ _ (by simp)

/-- An access event leaves its flag of HIF_ACCSTAT set: what follows it writes HIF_ACCCNT, a counter and Chimney only. -/
theorem State.accEvent_get (s : State) (t : Half) (f : Fld) (remote write : Bool) (off : Nat) (hup : s.coreUp t = true)
    (hoff : f.off = 0xF008) (hwidth : f.width = 1) (hlo : f.lo < 32) :
    (s.accEvent t f remote write off).get (B.hif t) f = 1 := by
  unfold State.accEvent
  simp only [hup, Bool.not_true, Bool.false_eq_true, ↓reduceIte]
  rw [State.get, hoff, State.accCount_word_accstat, ← hoff]
  exact (State.get_put_same _ (B.hif t) f 1 (by omega)).trans (by simp [hwidth])

/-! ### What an access reaches -/

theorem State.reach_of_ownReg {s : State} {own : Half} {off : Nat} {x : Loc × Nat × RegSpec}
    (h : s.ownReg own off = some x) :
    off < 0x1000000 ∧ s.reach own off = .reg x.1 x.2.1 x.2.2 ∧ x.1.half = some own := by
  unfold State.ownReg at h
  split at h
  next hoff =>
    split at h
    next l a r hreach =>
      split at h
      next hhalf => cases h; exact ⟨hoff, hreach, hhalf⟩
      next => cases h
    next => cases h
  next => cases h

theorem State.reach_of_mntReg {s : State} {h : Half} {off : Nat} {x : Loc × Nat × RegSpec} (e : s.mntReg h off = some x) :
    ∃ t o, s.mantleReach h off = some (t, o) ∧ s.reach t o = .reg x.1 x.2.1 x.2.2 := by
  obtain ⟨⟨t, o⟩, hm, hr⟩ := Option.bind_eq_some_iff.mp e
  refine ⟨t, o, hm, ?_⟩
  dsimp only at hr
  split at hr
  next hreach => cases hr; exact hreach
  next => cases hr

/-! ### Writes within a half's own register space -/

section
variable (s : State) (who : Accessor) {off : Nat} (v : Word) (hoff : off < 0x1000000)
include hoff

theorem State.writeWord_partial {be : Nat} (hbe : be < 15) :
    s.writeWord who off v be = s.accEvent (Accessor.half who) F.HIF_ACCSTAT_PARTIAL false true off := by
  have hlocal : ¬ 0x1000000 ≤ off := by omega
  have hmod : be % 16 ≠ 15 := by omega
  simp [State.writeWord, hlocal, hmod]

theorem State.writeWord_nothing {t : Half} {f : Fld} (hreach : s.reach (Accessor.half who) off = .nothing t f) :
    s.writeWord who off v 15 = s.accEvent t f (t != Accessor.half who) true off := by
  have hlocal : ¬ 0x1000000 ≤ off := by omega
  have hmantle : ¬ 0x2000000 ≤ off := by omega
  simp [State.writeWord, hlocal, hmantle, hreach]

theorem State.writeWord_reg {l : Loc} {a : Nat} {r : RegSpec} {h : Half} {t : State}
    (hreach : s.reach (Accessor.half who) off = .reg l a r) (hhalf : l.half = some h)
    (hwrite : s.regWrite who h l a r v = some t) : s.writeWord who off v 15 = t := by
  have hlocal : ¬ 0x1000000 ≤ off := by omega
  have hmantle : ¬ 0x2000000 ≤ off := by omega
  simp [State.writeWord, hlocal, hmantle, hreach, hhalf, hwrite]

end

theorem State.regWrite_of_storesOnly {s : State} {who : Accessor} {l : Loc} {a : Nat} {r : RegSpec} {v : Word}
    (h : s.storesOnly who l a r v = true) : s.regWrite who (Accessor.half who) l a r v = some (s.plainWrite a r v) := by
  simp only [State.storesOnly, Bool.and_eq_true, beq_iff_eq, Bool.not_eq_true', Option.isNone_iff_eq_none] at h
  obtain ⟨⟨⟨⟨⟨hmnt, hfirmware⟩, hdma⟩, hmedia⟩, hstore⟩, hcontrol⟩ := h
  simp [State.regWrite, hmnt, hfirmware, hdma, hmedia, hstore, hcontrol]

/-- REGISTER_WRITE of one word at an aligned offset is one write of that word. -/
theorem exec_registerWrite_one (s : State) (who : Accessor) {off : Nat} (v : Word) (be : Nat) (halign : off % 4 = 0)
    (hwho : Accessor.isMantle who = false) (hup : s.coreUp (Accessor.half who) = true) :
    exec (.registerWrite who off [(v, be)]) s = .next (s.writeWord who off v be) := by
  have hoff : off / 4 * 4 = off := by omega
  show Host.Outcome.next (registerWrite who off [(v, be)] s) = _
  simp [registerWrite, hwho, hup, hoff, State.writeAll, State.writeWords]

/-! ### Reads within a half's own register space -/

section
variable {s : State} {own : Half} {off : Nat} (hoff : off < 0x1000000)
include hoff

theorem State.readWord_nothing {t : Half} {f : Fld} (hreach : s.reach own off = .nothing t f) :
    s.readWord own off = (0, s.accEvent t f (t != own) false off) := by
  have hlocal : ¬ 0x1000000 ≤ off := by omega
  simp [State.readWord, hlocal, hreach]

theorem State.readWord_reg {l : Loc} {a : Nat} {r : RegSpec} {h : Half} (hreach : s.reach own off = .reg l a r)
    (hhalf : l.half = some h) (hfree : freeWord l = none) :
    s.readWord own off = (s.liveHalf h l (s.word a) &&& ~~~BitVec.ofNat 32 r.wo,
      if r.rc == 0 then s else s.setWord a (s.word a &&& ~~~BitVec.ofNat 32 r.rc)) := by
  have hlocal : ¬ 0x1000000 ≤ off := by omega
  simp [State.readWord, State.liveWord, hlocal, hreach, hhalf, hfree]

end

theorem exec_readClear_one (s : State) (who : Accessor) {off : Nat} (halign : off % 4 = 0)
    (hwho : Accessor.isMantle who = false) (hup : s.coreUp (Accessor.half who) = true) :
    exec (.readClear who off 1) s = .next { (s.readWord (Accessor.half who) off).2 with
      lastRead := [(s.readWord (Accessor.half who) off).1] } := by
  have hoff : off / 4 * 4 = off := by omega
  show Host.Outcome.next (readClear who off 1 s) = _
  simp [readClear, hwho, hup, hoff, State.readWords]

/-! ### Snapshots (R62) -/

theorem smFind_filter_key {α : Type} (p : Nat → Bool) (m : SMap α) (k : Nat) :
    smFind (m.filter fun e => p e.1) k = if p k then smFind m k else none := by
  induction m with
  | nil => simp [smFind]
  | cons e t ih =>
    obtain ⟨x, y⟩ := e
    by_cases hk : k = x
    · subst hk
      by_cases hp : p k <;> simp [smFind, hp, ih]
    · by_cases hp : p x <;> simp [smFind, hp, hk, ih]

theorem smFind_eq_none {α : Type} {m : SMap α} {k : Nat} (h : ∀ e ∈ m, e.1 ≠ k) : smFind m k = none := by
  induction m with
  | nil => rfl
  | cons e t ih =>
    rw [List.forall_mem_cons] at h
    rw [smFind, if_neg (Ne.symm h.1)]
    exact ih h.2

/-- The words of a table stored at their addresses raised by d. -/
def State.storeShifted (s : State) (d : Nat) (m : SMap Word) : State :=
  m.foldl (fun (s : State) (e : Nat × Word) => s.setWord (e.1 + d) e.2) s

theorem State.word_storeShifted_ne (s : State) (d : Nat) (m : SMap Word) (a : Nat) (h : ∀ e ∈ m, e.1 + d ≠ a) :
    (s.storeShifted d m).word a = s.word a := by
  induction m generalizing s with
  | nil => rfl
  | cons e t ih =>
    rw [List.forall_mem_cons] at h
    exact (ih _ h.2).trans (State.word_setWord_ne _ _ _ _ (Ne.symm h.1))

/-- Keys that rise are each stored once, so each address raised by d holds what the table lists there. -/
theorem State.word_storeShifted (s : State) (d : Nat) (m : SMap Word) (a : Nat)
    (h : m.Pairwise fun x y => x.1 < y.1) :
    (s.storeShifted d m).word (a + d) = (smFind m a).getD (s.word (a + d)) := by
  induction m generalizing s with
  | nil => rfl
  | cons e t ih =>
    obtain ⟨k, v⟩ := e
    obtain ⟨hk, ht⟩ := List.pairwise_cons.mp h
    refine (ih (s.setWord (k + d) v) ht).trans ?_
    by_cases hak : a = k
    · subst hak
      simp [smFind, smFind_eq_none fun e he => Nat.ne_of_gt (hk e he)]
    · rw [smFind, if_neg hak, State.word_setWord_ne _ _ _ _ (by omega)]

/-- The words that a half's counter window lists among its live slots. -/
def State.liveCounters (s : State) (h : Half) : SMap Word :=
  s.regs.filter fun (e : Nat × Word) => B.cnt h ≤ e.1 && e.1 < B.cnt h + 0x8000

/-- The state in which the live slots of a half stand in its holding array too. -/
def State.countersHeld (s : State) (h : Half) : State :=
  (s.clearRange (B.cnt h + 0x8000) (B.cnt h + 0x10000)).storeShifted 0x8000 (s.liveCounters h)

/-- A snapshot holds the counters, adds 1 to SEQ, and then writes the two words of TIME. -/
theorem snapshot_eq (s : State) (h : Half) (hup : s.coreUp h = true) : ∃ lo hi,
    snapshot h s = (((s.countersHeld h).put (B.cri h) F.CRI_SNAP_SEQ_SEQ
      ((s.countersHeld h).get (B.cri h) F.CRI_SNAP_SEQ_SEQ + 1)).put (B.cri h) F.CRI_SNAP_TIME_LO_TIME lo).put
        (B.cri h) F.CRI_SNAP_TIME_HI_TIME hi := by
  unfold snapshot
  rw [hup]
  exact ⟨_, _, rfl⟩

theorem locOf_eq_cnt {a o : Nat} {h : Half} (hbase : a = h.toNat * 0x1000000 + (0x80000 + o)) (ho : o < 0x10000) :
    locOf a = some ⟨.cnt, 0, some h, o⟩ := by
  have hlt : a < 0x2000000 := by cases h <;> simp only [Half.toNat] at hbase <;> omega
  have hwin : a % 0x1000000 / 0x10000 = 8 := by omega
  have hoff : a % 0x1000000 % 0x10000 = o := by omega
  have hhalf : (if a < 0x1000000 then Half.a else Half.b) = h := by
    cases h with
    | a => exact if_pos (by simp only [Half.toNat] at hbase; omega)
    | b => exact if_neg (by simp only [Half.toNat] at hbase; omega)
  simp only [locOf, if_pos hlt, hwin, hoff, hhalf]
  rfl

/-- A word of the counter window is 0 at reset: all its pages are arrays (R58). -/
theorem regReset_of_cnt {a n o : Nat} {h : Option Half} (hloc : locOf a = some ⟨.cnt, n, h, o⟩) : regReset a = 0 := by
  have hpage (p : Nat) : pageSpec .cnt n p = none := rfl
  have harray : arrayReset .cnt o = 0 := rfl
  simp [regReset, hloc, hpage, harray]

theorem regReset_cnt (h : Half) {o : Nat} (ho : o < 0x10000) : regReset (B.cnt h + o) = 0 :=
  regReset_of_cnt (locOf_eq_cnt (Nat.add_assoc _ _ _) ho)

theorem State.mem_liveCounters {s : State} {h : Half} {e : Nat × Word} (he : e ∈ s.liveCounters h) :
    B.cnt h ≤ e.1 ∧ e.1 < B.cnt h + 0x8000 := by
  simpa using (List.mem_filter.mp he).2

/-- The holding array has the live slot, listed or not: the counter window reads 0 where nothing is listed. -/
theorem State.word_countersHeld (s : State) (h : Half) (hwf : s.regsWf = true) {o : Nat} (ho : o < 0x8000) :
    (s.countersHeld h).word (B.cnt h + o + 0x8000) = s.word (B.cnt h + o) := by
  have hsorted := (smWf_iff.mp hwf).2
  have hlive : smFind (s.liveCounters h) (B.cnt h + o) = smFind s.regs (B.cnt h + o) :=
    (smFind_filter_key (fun k => B.cnt h ≤ k && k < B.cnt h + 0x8000) _ _).trans (if_pos (by simp [ho]))
  have hreset : regReset (B.cnt h + o + 0x8000) = regReset (B.cnt h + o) := by
    rw [Nat.add_assoc, regReset_cnt h (by omega), regReset_cnt h (by omega)]
  calc (s.countersHeld h).word (B.cnt h + o + 0x8000)
      = (smFind (s.liveCounters h) (B.cnt h + o)).getD _ := State.word_storeShifted _ _ _ _ (hsorted.filter _)
    _ = (smFind s.regs (B.cnt h + o)).getD (regReset (B.cnt h + o)) := by
        rw [hlive, State.word_clearRange, if_pos (by omega), hreset]
    _ = s.word (B.cnt h + o) := rfl

theorem State.word_countersHeld_ne (s : State) (h : Half) {a : Nat} (ha : a < B.cnt h + 0x8000) :
    (s.countersHeld h).word a = s.word a := by
  unfold State.countersHeld
  rw [State.word_storeShifted_ne, State.word_clearRange, if_neg (by omega)]
  intro e he
  have := State.mem_liveCounters he
  omega

/-- Coreri's window lies right below the counters (R71). -/
theorem cri_add_window (h : Half) : B.cri h + 0x10000 = B.cnt h := by unfold B.cri B.cnt; omega

theorem cnt_ne_cri (h : Half) (o : Nat) {p : Nat} (hp : p < 0x10000) : B.cnt h + o ≠ B.cri h + p := by
  have := cri_add_window h
  omega

theorem State.countersHeld_seq (s : State) (h : Half) :
    (s.countersHeld h).get (B.cri h) F.CRI_SNAP_SEQ_SEQ = s.get (B.cri h) F.CRI_SNAP_SEQ_SEQ := by
  have hbelow : B.cri h + 4 < B.cnt h + 0x8000 := by have := cri_add_window h; omega
  simp only [State.get, State.word_countersHeld_ne s h hbelow]

/-- A holding slot is the live slot, word by word. -/
theorem State.word_snapshot_cnt (s : State) (h : Half) (hup : s.coreUp h = true) (hwf : s.regsWf = true) {o : Nat}
    (ho : o < 0x8000) : (snapshot h s).word (B.cnt h + o + 0x8000) = s.word (B.cnt h + o) := by
  obtain ⟨lo, hi, hsnap⟩ := snapshot_eq s h hup
  rw [← State.word_countersHeld s h hwf ho, hsnap, Nat.add_assoc]
  iterate 3 rw [State.word_put_ne _ _ _ _ _ (cnt_ne_cri h _ (by decide))]

theorem State.get64_snapshot_cnt (s : State) (h : Half) (hup : s.coreUp h = true) (hwf : s.regsWf = true) {c : Nat}
    (hc : c < 4096) : (snapshot h s).get64 (cntAddr h c + 0x8000) = s.get64 (cntAddr h c) := by
  have hlow : cntAddr h c = B.cnt h + 8 * c := rfl
  have hhigh : cntAddr h c + 4 = B.cnt h + (8 * c + 4) := Nat.add_assoc _ _ _
  rw [State.get64, State.get64, Nat.add_right_comm, hhigh, hlow, State.word_snapshot_cnt s h hup hwf (by omega),
    State.word_snapshot_cnt s h hup hwf (by omega)]

theorem State.snapshot_seq (s : State) (h : Half) (hup : s.coreUp h = true) :
    (snapshot h s).get (B.cri h) F.CRI_SNAP_SEQ_SEQ = (s.get (B.cri h) F.CRI_SNAP_SEQ_SEQ + 1) % 2 ^ 32 := by
  obtain ⟨lo, hi, hsnap⟩ := snapshot_eq s h hup
  rw [hsnap, State.get_put_ne _ _ _ _ _ _ (by decide) (by simp [apart]),
    State.get_put_ne _ _ _ _ _ _ (by decide) (by simp [apart]), State.get_put_same _ _ _ _ (by decide),
    State.countersHeld_seq]

/-! ### The clauses of the obligation -/

theorem registerWrite_stores (s : State) (who : Accessor) (off : Nat) (v : Word) (halign : off % 4 = 0)
    (hwho : Accessor.isMantle who = false) (hup : s.coreUp (Accessor.half who) = true) (x : Loc × Nat × RegSpec)
    (hx : s.ownReg (Accessor.half who) off = some x) (hstores : s.storesOnly who x.1 x.2.1 x.2.2 v = true) :
    exec (.registerWrite who off [(v, 15)]) s = .next (s.setWord x.2.1 (writeBits x.2.2 (s.word x.2.1) v)) := by
  obtain ⟨hoff, hreach, hhalf⟩ := State.reach_of_ownReg hx
  rw [exec_registerWrite_one s who v 15 halign hwho hup,
    State.writeWord_reg s who v hoff hreach hhalf (State.regWrite_of_storesOnly hstores)]
  rfl

theorem registerWrite_partial (s : State) (who : Accessor) (off be : Nat) (v : Word) (halign : off % 4 = 0)
    (hoff : off < 0x1000000) (hwho : Accessor.isMantle who = false) (hup : s.coreUp (Accessor.half who) = true)
    (hbe : be < 15) : ∃ t, exec (.registerWrite who off [(v, be)]) s = .next t ∧
      t.get (B.hif (Accessor.half who)) F.HIF_ACCSTAT_PARTIAL = 1 :=
  ⟨_, exec_registerWrite_one s who v be halign hwho hup, by
    rw [State.writeWord_partial s who v hoff hbe]
    exact State.accEvent_get s _ _ _ _ _ hup rfl rfl (by decide)⟩

theorem readClear_reg (s : State) (who : Accessor) (off : Nat) (halign : off % 4 = 0)
    (hwho : Accessor.isMantle who = false) (hup : s.coreUp (Accessor.half who) = true) (x : Loc × Nat × RegSpec)
    (hx : s.ownReg (Accessor.half who) off = some x) (hfree : (freeWord x.1).isNone = true) :
    ∃ t, exec (.readClear who off 1) s = .next t ∧
      t.lastRead = [s.liveHalf (Accessor.half who) x.1 (s.word x.2.1) &&& ~~~BitVec.ofNat 32 x.2.2.wo] ∧
      t.word x.2.1 = s.word x.2.1 &&& ~~~BitVec.ofNat 32 x.2.2.rc := by
  obtain ⟨hoff, hreach, hhalf⟩ := State.reach_of_ownReg hx
  have hread := State.readWord_reg hoff hreach hhalf (Option.isNone_iff_eq_none.mp hfree)
  refine ⟨_, exec_readClear_one s who halign hwho hup, by rw [hread], ?_⟩
  refine (State.word_eq_of_regs (s := (s.readWord (Accessor.half who) off).2) rfl _).trans ?_
  rw [hread]
  by_cases hrc : x.2.2.rc = 0
  · simp only [hrc, beq_self_eq_true, ↓reduceIte]
    exact BitVec.and_allOnes.symm
  · simp [hrc]

theorem strayAccess_nothing (s : State) (who : Accessor) (off : Nat) (write : Bool) (halign : off % 4 = 0)
    (hoff : off < 0x1000000) (hwho : Accessor.isMantle who = false) (hup : s.coreUp (Accessor.half who) = true)
    (hreach : s.reach (Accessor.half who) off = .nothing (Accessor.half who) F.HIF_ACCSTAT_STRAY) :
    ∃ t, exec (.strayAccess who false write off) s = .next t ∧
      t.get (B.hif (Accessor.half who)) F.HIF_ACCSTAT_STRAY = 1 ∧ (write = false → t.lastRead = [0]) := by
  have hmul : off / 4 * 4 = off := by omega
  have hset (w : Bool) := State.accEvent_get s _ F.HIF_ACCSTAT_STRAY (Accessor.half who != Accessor.half who) w off hup rfl
    rfl (by decide)
  refine ⟨strayAccess who false write off s, rfl, ?_⟩
  cases write
  case true =>
    have hwrite : strayAccess who false true off s = s.writeWord who off 0 15 := by
      simp [strayAccess, hwho, hup, hmul, hreach]
    rw [hwrite, State.writeWord_nothing s who 0 hoff hreach]
    exact ⟨hset true, by simp⟩
  case false =>
    have hread : strayAccess who false false off s =
        { (s.readWord (Accessor.half who) off).2 with lastRead := [(s.readWord (Accessor.half who) off).1] } := by
      simp [strayAccess, hwho, hup, hmul, hreach]
    rw [hread, State.readWord_nothing hoff hreach]
    exact ⟨hset false, fun _ => rfl⟩

theorem registerWrite_mantle (s : State) (h : Half) (off : Nat) (v : Word) (halign : off % 4 = 0)
    (hserves : s.mantleServes = true) (x : Loc × Nat × RegSpec) (hx : s.mntReg h off = some x) (hmnt : x.2.2.mnt ≠ 0)
    (hmot : x.1.blk ≠ .mot) :
    exec (.registerWrite (.mantle h) off [(v, 15)]) s = .next (s.maskWrite x.2.1 x.2.2.mnt v) := by
  obtain ⟨t, o, hmantle, hreach⟩ := State.reach_of_mntReg hx
  have hmul : off / 4 * 4 = off := by omega
  have hword : s.mntWord h off v = s.maskWrite x.2.1 x.2.2.mnt v := by
    simp [State.mntWord, hmantle, hreach, hmnt, hmot]
  show Host.Outcome.next (registerWrite (.mantle h) off [(v, 15)] s) = _
  simp [registerWrite, Accessor.isMantle, Accessor.half, hserves, hmul, State.mntWords, hword]

theorem snapshot_counters (s : State) (h : Half) (c : Nat) (hup : s.coreUp h = true) (hwf : s.regsWf = true)
    (hc : c < 4096) :
    ∃ t, exec (.snapshot h) s = .next t ∧ t.get64 (cntAddr h c + 0x8000) = s.get64 (cntAddr h c) ∧
      t.get (B.cri h) F.CRI_SNAP_SEQ_SEQ = (s.get (B.cri h) F.CRI_SNAP_SEQ_SEQ + 1) % 2 ^ 32 :=
  ⟨_, rfl, State.get64_snapshot_cnt s h hup hwf hc, State.snapshot_seq s h hup⟩

/-- Settles O20, clause by clause: what an access at an offset of the accessor's own half comes to. -/
theorem registerAccessCommands : Obligations.RegisterAccessCommands :=
  ⟨registerWrite_stores, registerWrite_partial, readClear_reg, strayAccess_nothing, registerWrite_mantle,
    snapshot_counters⟩

end Sys2Proof.Machine
end

section
/-! PROOFS. A formatter and its Wick: what the shared operations leave of a Wick and of a formatter, a fetch, the end of a
word, the start of an operation, and an abort request. -/

namespace Sys2Proof.Machine

/-! ### The tables of Wicks and formatters -/

@[simp] theorem State.wick_setWick_same (s : State) (k : Nat) (w : Wick) : (s.setWick k w).wick k = w :=
  smGet_smPut_same _ _ _ _

@[simp] theorem State.fmt_setFmt_same (s : State) (k : Nat) (f : Fmt) : (s.setFmt k f).fmt k = f :=
  smGet_smPut_same _ _ _ _

theorem State.wick_eq_of_wicks {s t : State} (h : t.wicks = s.wicks) (k : Nat) : t.wick k = s.wick k := by
  simp only [State.wick, h]

theorem State.fmt_eq_of_fmts {s t : State} (h : t.fmts = s.fmts) (k : Nat) : t.fmt k = s.fmt k := by
  simp only [State.fmt, h]

theorem State.get_eq_of_regs {s t : State} (h : t.regs = s.regs) (b : Nat) (f : Fld) : t.get b f = s.get b f := by
  simp only [State.get, State.word_eq_of_regs h]

@[simp] theorem State.putWick_wick_same (s : State) (k : Nat) (w : Wick) : (s.putWick k w).wick k = w :=
  (State.wick_eq_of_wicks (State.put_wicks ..) k).trans (State.wick_setWick_same ..)

/-! ### Fetch (R166, R170) -/

/-- PATCH_MATCH reads the match registers of its Wick and nothing else. -/
theorem State.patchMatch_congr {s t : State} {ai : Nat}
    (h : ∀ m, t.word (wckB ai + 4 * m + 0x1000) = s.word (wckB ai + 4 * m + 0x1000)) :
    t.patchMatch ai = s.patchMatch ai := by
  funext addr
  simp only [State.patchMatch, State.bit, State.get, h]

theorem State.patchMatch_of_regs {s t : State} (h : t.regs = s.regs) (ai : Nat) : t.patchMatch ai = s.patchMatch ai :=
  State.patchMatch_congr fun _ => State.word_eq_of_regs h _

theorem State.patchMatch_putWick (s : State) (ai : Nat) (w : Wick) : (s.putWick ai w).patchMatch ai = s.patchMatch ai :=
  State.patchMatch_congr fun m => by
    rw [State.putWick, State.word_put_ne _ _ _ _ _ (by simp only; omega)]
    exact State.word_eq_of_regs rfl _

theorem State.fetchOk_of_lt (s : State) (ai : Nat) {addr : Nat} (h : addr < 0x6200) : s.fetchOk ai addr = true := by
  have hmod : addr % 0x8000 < 0x6200 := by omega
  simp [State.fetchOk, hmod]

theorem State.wickFetch_of_fetchOk {s : State} {ai addr : Nat} (h : s.fetchOk ai addr = true) :
    s.wickFetch ai addr = s.put (wckB ai) F.WCK_STAT_PC (s.lands ai addr) := by
  unfold State.fetchOk at h
  unfold State.wickFetch State.lands
  cases hmatch : s.patchMatch ai (addr % 0x8000) with
  | some t => rfl
  | none =>
    have hlt : ¬ addr % 0x8000 ≥ 0x6200 := by simpa [hmatch] using h
    simp only [hlt, ↓reduceIte]

theorem State.lands_lt (s : State) (ai addr : Nat) : s.lands ai addr < 0x8000 := by
  unfold State.lands
  split
  next t hmatch =>
    unfold State.patchMatch at hmatch
    split at hmatch
    next => cases hmatch
    next =>
      obtain ⟨m, -, rfl⟩ := Option.map_eq_some_iff.mp hmatch
      have htarget : s.get (wckB ai + 4 * m) F.MATCH_TARGET < 2 ^ 9 := State.get_lt ..
      omega
  next => exact Nat.mod_lt _ (by decide)

theorem State.wickFetch_wick {s : State} {ai addr : Nat} (h : s.fetchOk ai addr = true) :
    (s.wickFetch ai addr).wick ai = s.wick ai := by
  rw [State.wickFetch_of_fetchOk h]
  exact State.wick_eq_of_wicks (State.put_wicks ..) _

theorem State.wickFetch_wckPc {s : State} {ai addr : Nat} (h : s.fetchOk ai addr = true) :
    (s.wickFetch ai addr).wckPc ai = s.lands ai addr := by
  rw [State.wickFetch_of_fetchOk h, State.wckPc, State.get_put_same _ _ _ _ (by decide)]
  exact Nat.mod_eq_of_lt (s.lands_lt ai addr)

/-! ### The end of a word (R170, R485) -/

theorem State.wickTrace_wick (s : State) (ai pc word : Nat) (cond on : Bool) (stall : Nat) :
    (s.wickTrace ai pc word cond on stall).wick ai = s.wick ai := by
  unfold State.wickTrace
  exact ite_both (P := fun t : State => t.wick ai = s.wick ai) rfl (State.wick_eq_of_wicks (State.trace_wicks ..) _)

theorem State.trace_word_ne (s : State) (h : Half) (type index : Nat) (body : List Byte) {a : Nat}
    (ha : a ≠ B.cri h + 0x1008) : (s.trace h type index body).word a = s.word a := by
  unfold State.trace
  exact ite_both (P := fun t : State => t.word a = s.word a) (State.word_put_ne _ _ _ _ _ ha) rfl

theorem State.patchMatch_wickTrace (s : State) (ai pc word : Nat) (cond on : Bool) (stall : Nat) :
    (s.wickTrace ai pc word cond on stall).patchMatch ai = s.patchMatch ai := by
  unfold State.wickTrace
  refine ite_both (P := fun t : State => t.patchMatch ai = s.patchMatch ai) rfl (State.patchMatch_congr fun m => ?_)
  exact State.trace_word_ne _ _ _ _ _ (by unfold wckB B.cri B.wck; omega)

/-- A word of a Wick ends and goes on at an implemented address: the Wick stays as the word left it. -/
theorem State.wordEnd_goesOn {s t : State} {ai addr : Nat} (word : Nat) (cond : Bool) (stall : Nat)
    (hpatch : t.patchMatch ai = s.patchMatch ai) (hok : s.fetchOk ai addr = true) :
    (t.wordEnd ai word cond stall addr).wick ai = t.wick ai ∧
      (t.wordEnd ai word cond stall addr).wckPc ai = s.lands ai addr := by
  have htrace (pc : Nat) (on : Bool) :=
    (State.patchMatch_wickTrace t ai pc word cond on stall).trans hpatch
  unfold State.wordEnd
  constructor
  · rw [State.wickFetch_wick (by simpa only [State.fetchOk, htrace] using hok), State.wickTrace_wick]
  · rw [State.wickFetch_wckPc (by simpa only [State.fetchOk, htrace] using hok)]
    simp only [State.lands, htrace]

/-! ### The start of an operation (R165, R171) -/

theorem State.wickStart_desc (s : State) (ai : Nat) (d : Desc) (hkind : d.kind < 8) :
    ((s.wickStart ai d).wick ai).desc = some d := by
  unfold State.wickStart
  rw [State.wickFetch_wick (State.fetchOk_of_lt _ _ (by omega)),
    State.wick_eq_of_wicks ((State.put_wicks ..).trans (State.put_wicks ..)), State.putWick_wick_same]

/-! ### What a Wick has been told to do -/

/-- The descriptor that a Wick holds, the abort request that it has not yet accepted, and whether its abort vector runs. -/
def Wick.orders (w : Wick) : Option Desc × Option Nat × Bool := (w.desc, w.abort, w.aborting)

/-- The first abort request to a Wick that holds a descriptor is recorded as it is (R174). -/
theorem State.wickAbort_first {s : State} {ai : Nat} {d : Desc} (row : Nat) (st : OpStatus)
    (h : (s.wick ai).orders = (some d, none, false)) :
    s.wickAbort ai row st = s.setWick ai { s.wick ai with abort := some row, abortStatus := st } := by
  simp only [Wick.orders, Prod.mk.injEq] at h
  obtain ⟨hdesc, habort, haborting⟩ := h
  simp [State.wickAbort, hdesc, habort, haborting]

theorem State.orders_eq_of_wicks {s t : State} (h : t.wicks = s.wicks) (k : Nat) :
    (t.wick k).orders = (s.wick k).orders := congrArg Wick.orders (State.wick_eq_of_wicks h k)

theorem Wick.gates_orders (w : Wick) (pos : Nat) (wg : Bool) (rg : Nat) : (w.gates pos wg rg).orders = w.orders := by
  unfold Wick.gates
  split
  · rfl
  · split <;> rfl

theorem State.endAtFrame_orders (s : State) (ai pos : Nat) :
    ((s.endAtFrame ai pos).wick ai).orders = (s.wick ai).orders := by
  unfold State.endAtFrame
  dsimp only
  split
  next => rfl
  next =>
    split
    · rw [State.wick_setWick_same]; rfl
    · rw [State.wick_setWick_same, Wick.gates_orders]; rfl

theorem State.setRwq_wicks (s : State) (ai : Nat) (q : List RwqEntry) : (s.setRwq ai q).wicks = s.wicks := by
  unfold State.setRwq
  rw [State.putB_wicks, State.put_wicks, State.setFmt_wicks]

/-- Ending the pass at the next frame boundary, where it is not being ended yet, does not change what the Wick has been
told. -/
theorem State.endPass_orders {s t : State} {ai pos : Nat} {ending : Bool} {f : Fmt} (h : t.wicks = s.wicks) :
    ((if ending then t else (t.setFmt ai f).endAtFrame ai pos).wick ai).orders = (s.wick ai).orders := by
  have ht := State.orders_eq_of_wicks h ai
  exact ite_both (P := fun u : State => (u.wick ai).orders = (s.wick ai).orders) ht
    ((State.endAtFrame_orders _ _ _).trans ht)

theorem State.rwqSpill_orders (s : State) (ai : Nat) (e : RwqEntry) (fromUe : Bool) :
    ((s.rwqSpill ai e fromUe).wick ai).orders = (s.wick ai).orders := by
  have hflag : (s.flag (fmtB ai) F.FMT_EVENTS_RWQ_SPILL).wicks = s.wicks := State.flag_wicks ..
  have hset (f : Fmt) := (State.setFmt_wicks _ ai f).trans hflag
  unfold State.rwqSpill
  dsimp only
  split
  · exact State.orders_eq_of_wicks hflag ai
  · split
    · exact State.endPass_orders (hset _)
    · split
      · exact State.orders_eq_of_wicks (hset _) ai
      · exact State.endPass_orders (ite_both (P := fun t : State => t.wicks = s.wicks) hflag (hset _))

theorem State.rwqAdd_orders (s : State) (ai : Nat) (e : RwqEntry) (fromUe : Bool) :
    ((s.rwqAdd ai e fromUe).wick ai).orders = (s.wick ai).orders := by
  have hqueue (q : List RwqEntry) := State.orders_eq_of_wicks (State.setRwq_wicks s ai q) ai
  unfold State.rwqAdd
  exact ite_both (P := fun t : State => (t.wick ai).orders = (s.wick ai).orders) (hqueue _)
    (ite_both (P := fun t : State => (t.wick ai).orders = (s.wick ai).orders) (hqueue _) (State.rwqSpill_orders ..))

theorem State.foldl_orders {α : Type} {ai : Nat} {f : State → α → State}
    (hf : ∀ s x, ((f s x).wick ai).orders = (s.wick ai).orders) (xs : List α) (s : State) :
    ((xs.foldl f s).wick ai).orders = (s.wick ai).orders := by
  induction xs generalizing s with
  | nil => rfl
  | cons x xs ih => exact (ih _).trans (hf s x)

/-! ### Buffer stores leave every Wick alone -/

theorem State.lineWrite_wicks (s : State) (h : Half) (page way off : Nat) (bs : List Byte) :
    (s.lineWrite h page way off bs).wicks = s.wicks := by
  unfold State.lineWrite
  dsimp only
  split
  · rfl
  · exact State.setCache_wicks ..

theorem State.bufStore1_wicks (s : State) (ba : Nat) (b : Byte) : (s.bufStore1 ba b).wicks = s.wicks := by
  unfold State.bufStore1
  dsimp only
  split
  · exact State.lineWrite_wicks ..
  · split
    · rfl
    · exact (State.put_wicks ..).trans (State.setResv_wicks ..)

theorem State.bufStore_wicks (s : State) (ba : Nat) (bs : List Byte) : (s.bufStore ba bs).wicks = s.wicks := by
  induction bs generalizing s ba with
  | nil => rfl
  | cons b bs ih => exact (ih _ _).trans (State.bufStore1_wicks ..)

/-! ### What an abort request can write of the register space -/

theorem State.setRwq_word_ne (s : State) (ai : Nat) (q : List RwqEntry) {a : Nat} (ha : a ≠ fmtB ai + 4) :
    (s.setRwq ai q).word a = s.word a := by
  unfold State.setRwq
  rw [State.putB, State.word_put_ne _ _ _ _ _ ha, State.word_put_ne _ _ _ _ _ ha]
  exact State.word_eq_of_regs (State.setFmt_regs ..) a

theorem State.entryBack_word_ne (s : State) (ai : Nat) (direct : Bool) (e : RwqEntry) {a : Nat} (ha : a ≠ fmtB ai + 4) :
    (s.entryBack ai direct e).word a = s.word a := by
  unfold State.entryBack
  exact ite_both (P := fun t : State => t.word a = s.word a) (State.setRwq_word_ne _ _ _ ha)
    (State.word_eq_of_regs (State.setFmt_regs ..) a)

theorem State.opReport_regs (s : State) (ai : Nat) (op : FmtOp) (st : OpStatus) (lost : List Nat) :
    (s.opReport ai op st lost).regs = s.regs := by
  unfold State.opReport
  exact ite_both (P := fun t : State => t.regs = s.regs) rfl rfl

/-- The end of an operation shows in FMT_STAT, and in no other word (R158). -/
theorem State.fmtEnd_word_ne (s : State) (ai : Nat) (st : OpStatus) (lost : List Nat) {a : Nat} (ha : a ≠ fmtB ai + 4) :
    (s.fmtEnd ai st lost).word a = s.word a := by
  have hset (f : Fmt) : (s.setFmt ai f).word a = s.word a := State.word_eq_of_regs (State.setFmt_regs ..) a
  unfold State.fmtEnd
  dsimp only
  split
  next => rfl
  next =>
    rw [State.word_eq_of_regs (State.opReport_regs ..), State.putB, State.word_put_ne _ _ _ _ _ ha,
      State.word_put_ne _ _ _ _ _ ha]
    split
    · exact (State.entryBack_word_ne _ _ _ _ ha).trans (hset _)
    · exact hset _

/-- An abort request writes no register but FMT_STAT, where the formatter's operation ends at once (R174). -/
theorem State.wickAbort_word_ne (s : State) (ai row : Nat) (st : OpStatus) {a : Nat} (ha : a ≠ fmtB ai + 4) :
    (s.wickAbort ai row st).word a = s.word a := by
  have hwick (w : Wick) : (s.setWick ai w).word a = s.word a := State.word_eq_of_regs (State.setWick_regs ..) a
  unfold State.wickAbort
  dsimp only
  split
  · rfl
  · split
    · exact ite_both (P := fun t : State => t.word a = s.word a) rfl (State.fmtEnd_word_ne _ _ _ _ ha)
    · split
      · exact ite_both (P := fun t : State => t.word a = s.word a) (hwick _) rfl
      · exact hwick _

end Sys2Proof.Machine
end

section
/-! PROOFS. Control of a formatter (O26): band splits, the grown list, heater frames, EN and the table bases. -/

namespace Sys2Proof.Machine

/-! ### BAND_SPLIT (R134) -/

section
variable {h : Half} {u : Nat} {s : State} {d : Desc} (hdesc : (s.wick (actId h u)).desc = some d) (hkind : d.kind < 6)
  (halarm : (s.srv (actId h u)).alarm = true) (hop : (s.fmt (actId h u)).op.isSome = true)
  (habort : (s.wick (actId h u)).abort = none) (haborting : (s.wick (actId h u)).aborting = false)
  (hsplitting : (s.fmt (actId h u)).splitting = false)
include hdesc hkind halarm hop habort haborting hsplitting

/-- Without AUTO_SPLIT the operation is to end with BAND_REACH. -/
theorem bandSplit_plain (hauto : s.bit (fmtB (actId h u)) F.FMT_CTL_AUTO_SPLIT = false) :
    bandSplit h u s = s.wickAbort (actId h u) 1 .bandReach := by
  have hkind' : ¬ d.kind ≥ 6 := by omega
  obtain ⟨op, hop⟩ := Option.isSome_iff_exists.mp hop
  simp [bandSplit, hdesc, halarm, hop, hkind', habort, haborting, hsplitting, hauto]

/-- With AUTO_SPLIT the operation is marked as splitting before the abort request goes out, and nothing before that has told
the Wick anything. -/
theorem bandSplit_auto (hauto : s.bit (fmtB (actId h u)) F.FMT_CTL_AUTO_SPLIT = true) :
    ∃ (t : State) (f : Fmt),
      bandSplit h u s = (t.setFmt (actId h u) { f with splitting := true }).wickAbort (actId h u) 1 .ok ∧
      (t.wick (actId h u)).orders = (s.wick (actId h u)).orders := by
  have hkind' : ¬ d.kind ≥ 6 := by omega
  obtain ⟨op, hop⟩ := Option.isSome_iff_exists.mp hop
  simp only [bandSplit, hdesc, halarm, hop, hkind', habort, haborting, hsplitting, hauto, Bool.not_true,
    Option.isNone_some, Option.isSome_none, decide_false, Bool.or_self, Bool.false_eq_true, ↓reduceIte]
  refine ⟨_, _, rfl, ?_⟩
  -- from the last effect back to the first: message, counter and event, rewrite queue, and the new mode in the table
  rw [State.orders_eq_of_wicks (State.chimney_wicks ..), State.fmtCount,
    State.orders_eq_of_wicks (State.count_wicks ..), State.orders_eq_of_wicks (State.flag_wicks ..)]
  refine (State.foldl_orders (fun t x => State.rwqAdd_orders t _ _ _) _ _).trans (State.orders_eq_of_wicks ?_ _)
  exact ite_both (P := fun t : State => t.wicks = s.wicks) rfl (State.bufStore_wicks ..)

end

theorem bandSplit_abort (s : State) (h : Half) (u : Nat) (d : Desc) (hdesc : (s.wick (actId h u)).desc = some d)
    (hkind : d.kind < 6) (halarm : (s.srv (actId h u)).alarm = true) (hop : (s.fmt (actId h u)).op.isSome = true)
    (habort : (s.wick (actId h u)).abort = none) (haborting : (s.wick (actId h u)).aborting = false)
    (hsplitting : (s.fmt (actId h u)).splitting = false) :
    ∃ t, exec (.bandSplit h u) s = .next t ∧ (t.wick (actId h u)).abort = some 1 ∧
      (if s.bit (fmtB (actId h u)) F.FMT_CTL_AUTO_SPLIT = true then (t.fmt (actId h u)).splitting = true
      else (t.wick (actId h u)).abortStatus = .bandReach) := by
  have horders : (s.wick (actId h u)).orders = (some d, none, false) := by simp [Wick.orders, hdesc, habort, haborting]
  refine ⟨bandSplit h u s, rfl, ?_⟩
  cases hauto : s.bit (fmtB (actId h u)) F.FMT_CTL_AUTO_SPLIT
  case false =>
    rw [bandSplit_plain hdesc hkind halarm hop habort haborting hsplitting hauto, State.wickAbort_first _ _ horders]
    simp
  case true =>
    obtain ⟨t, f, hsplit, ht⟩ := bandSplit_auto hdesc hkind halarm hop habort haborting hsplitting hauto
    rw [hsplit, State.wickAbort_first _ _ ((State.orders_eq_of_wicks (State.setFmt_wicks ..) _).trans (ht.trans horders)),
      if_pos rfl, State.fmt_eq_of_fmts (State.setWick_fmts ..)]
    simp

/-! ### The grown list and the heater frames (R143, R145, R146) -/

theorem heaterFrameUpdate_speed (s : State) (h : Half) (u : Nat)
    (hember : s.bit (spnB (actHda (actId h u))) F.SPN_CTL_EMBER = true) (hgate : s.gateHigh (actId h u) = false)
    (hsupply : (s.port (actHda (actId h u))).supply = true)
    (hmoved : s.get (spnB (actHda (actId h u))) F.SPN_SPEED_RPM / 64 ≥ (s.fmt (actId h u)).heaterRpm + 100) :
    ∃ t, exec (.heaterFrameUpdate h u) s = .next t ∧
      (t.fmt (actId h u)).heaterRpm = s.get (spnB (actHda (actId h u))) F.SPN_SPEED_RPM / 64 := by
  refine ⟨heaterFrameUpdate h u s, rfl, ?_⟩
  have hrise : (s.fmt (actId h u)).heaterRpm ≤ s.get (spnB (actHda (actId h u))) F.SPN_SPEED_RPM / 64 := by omega
  have hfar : ¬ s.get (spnB (actHda (actId h u))) F.SPN_SPEED_RPM / 64 - (s.fmt (actId h u)).heaterRpm < 100 := by omega
  simp [heaterFrameUpdate, hember, hgate, hsupply, hrise, hfar]

/-! ### ABORT-class writes (R160, R161) -/

/-- The abort of an ABORT-class write reaches FMT_STAT and FMT_EVENTS of its formatter's page 0, and no other register. -/
theorem State.fmtAbort_get (s : State) (ai : Nat) (st : OpStatus) (f : Fld) (hstat : f.off ≠ 4) (hevents : f.off ≠ 8) :
    (s.fmtAbort ai st).get (fmtB ai) f = s.get (fmtB ai) f := by
  have hword : (s.fmtAbort ai st).word (fmtB ai + f.off) = s.word (fmtB ai + f.off) := by
    unfold State.fmtAbort
    refine ite_both (P := fun t : State => t.word (fmtB ai + f.off) = s.word (fmtB ai + f.off)) ?_ rfl
    rw [State.wickAbort_word_ne _ _ _ _ (by omega)]
    exact State.word_put_ne _ _ _ _ _ (by simpa using hevents)
  rw [State.get, hword, State.get]

theorem State.fmtAbort_busy {s : State} {ai : Nat} (st : OpStatus) (hbusy : s.bit (fmtB ai) F.FMT_STAT_BUSY = true) :
    (s.fmtAbort ai st).get (fmtB ai) F.FMT_EVENTS_CFG_CHANGED = 1 := by
  rw [State.fmtAbort, if_pos hbusy, State.get, State.wickAbort_word_ne _ _ _ _ (by simp)]
  exact State.get_put_same s (fmtB ai) F.FMT_EVENTS_CFG_CHANGED 1 (by decide)

theorem formatOff_clears (s : State) (h : Half) (u : Nat) :
    ∃ t, exec (.formatOff h u) s = .next t ∧ t.get (fmtB (actId h u)) F.FMT_CTL_EN = 0 ∧
      (s.bit (fmtB (actId h u)) F.FMT_STAT_BUSY = true → t.get (fmtB (actId h u)) F.FMT_EVENTS_CFG_CHANGED = 1) := by
  refine ⟨_, rfl, ?_, fun hbusy => State.fmtAbort_busy _ ?_⟩
  · exact (State.fmtAbort_get _ _ _ _ (by decide) (by decide)).trans (State.get_put_same _ _ _ _ (by decide))
  · rwa [State.bit, State.get_put_ne _ _ _ _ _ _ (by decide) (by simp [apart])]

/-- A base address of 42 bits stored in two words reads back as its two parts. -/
theorem State.fmtAbort_base (s : State) (ai addr : Nat) (st : OpStatus) (lo hi : Fld) (hlo : lo.lo = 0 ∧ lo.width = 32)
    (hhi : hi.lo = 0 ∧ hi.width = 10) (hbelow : 8 < lo.off ∧ lo.off < hi.off) (haddr : addr < 2 ^ 42) :
    let t := ((s.put (fmtB ai) lo addr).put (fmtB ai) hi (addr / 0x100000000)).fmtAbort ai st
    t.get (fmtB ai) lo = addr % 2 ^ 32 ∧ t.get (fmtB ai) hi = addr / 2 ^ 32 := by
  constructor
  · rw [State.fmtAbort_get _ _ _ _ (by omega) (by omega), State.get_put_ne _ _ _ _ _ _ (by omega) (.inl (by omega)),
      State.get_put_same _ _ _ _ (by omega), hlo.2]
  · rw [State.fmtAbort_get _ _ _ _ (by omega) (by omega), State.get_put_same _ _ _ _ (by omega), hhi.2]
    omega

theorem formatTables_defects (s : State) (h : Half) (u addr : Nat) (haddr : addr < 2 ^ 42) :
    ∃ t, exec (.formatTables h u true addr) s = .next t ∧
      t.get (fmtB (actId h u)) F.FMT_DEFBASE_LO_ADDR = addr % 2 ^ 32 ∧
      t.get (fmtB (actId h u)) F.FMT_DEFBASE_HI_ADDR = addr / 2 ^ 32 :=
  ⟨_, rfl, State.fmtAbort_base s _ addr _ _ _ ⟨rfl, rfl⟩ ⟨rfl, rfl⟩ (by decide) haddr⟩

theorem formatTables_alignment (s : State) (h : Half) (u addr : Nat) (haddr : addr < 2 ^ 42) :
    ∃ t, exec (.formatTables h u false addr) s = .next t ∧
      t.get (fmtB (actId h u)) F.FMT_BATBASE_LO_ADDR = addr % 2 ^ 32 ∧
      t.get (fmtB (actId h u)) F.FMT_BATBASE_HI_ADDR = addr / 2 ^ 32 :=
  ⟨_, rfl, State.fmtAbort_base s _ addr _ _ _ ⟨rfl, rfl⟩ ⟨rfl, rfl⟩ (by decide) haddr⟩

/-- Settles O26, clause by clause: what each command of a formatter's control comes to. -/
theorem formatterControl : Obligations.FormatterControl :=
  ⟨fun s h u _ => bandSplit_abort s h u, fun _ _ _ _ => rfl, fun s h u _ => heaterFrameUpdate_speed s h u,
    fun s h u _ => formatOff_clears s h u, fun s h u addr _ => formatTables_defects s h u addr,
    fun s h u addr _ => formatTables_alignment s h u addr⟩

end Sys2Proof.Machine
end

section
/-! PROOFS. The passes that a formatter hands to its Wick (O27): the hand-over of one pass, and the commands that make it. -/

namespace Sys2Proof.Machine

/-! ### What showing an operation leaves alone -/

theorem grzB_ne_fmtB (hd ai : Nat) {o p : Nat} (ho : o < 0x10000) (hp : p < 0x10000) : grzB hd + o ≠ fmtB ai + p := by
  unfold grzB B.grz fmtB B.fmt B.half
  cases hdaHalf hd <;> cases actHalf ai <;> simp only [Half.toNat] <;> omega

theorem State.showOp_word_ne (s : State) (ai kind mode : Nat) {a : Nat} (ha : a ≠ fmtB ai + 4) :
    (s.showOp ai kind mode).word a = s.word a := by
  unfold State.showOp
  iterate 3 rw [State.word_put_ne _ _ _ _ _ ha]

/-- The group and mask that the preamplifier acknowledged stand in the harness port's page (R88). -/
theorem State.ack_showOp (s : State) (ai kind mode : Nat) :
    (s.showOp ai kind mode).ackGroup ai = s.ackGroup ai ∧ (s.showOp ai kind mode).ackMask ai = s.ackMask ai := by
  have hget (f : Fld) (hf : f.off = 0xC) :
      (s.showOp ai kind mode).get (grzB (actHda ai)) f = s.get (grzB (actHda ai)) f := by
    rw [State.get, State.showOp_word_ne _ _ _ _ (grzB_ne_fmtB _ _ (by omega) (by decide)), State.get]
  unfold State.ackGroup State.ackMask
  exact ⟨hget _ (by split <;> rfl), hget _ (by split <;> rfl)⟩

/-! ### The hand-over of a pass (R133, R171) -/

section
variable {s : State} {ai : Nat} {op : FmtOp} (hready : s.passReady ai op = true)
include hready

/-- What a hand-over asks for, in the order in which it is asked. -/
theorem State.passReady_asks :
    s.handReady ai = true ∧ (s.fmt ai).op = some op ∧ s.wckState ai ≠ wkFaulted ∧
      (s.srv ai).cal.any (·.why == 0) = false ∧ s.ackGroup ai = op.req.group ∧
      ∃ pass secs, nextPass op.mode ((s.fmt ai).wanted op) = some (pass, s.ackMask ai, secs) := by
  simp only [State.passReady, Bool.and_eq_true, Bool.not_eq_true', beq_iff_eq, bne_iff_ne, ne_eq] at hready
  obtain ⟨⟨⟨⟨⟨hhand, hcal⟩, hop⟩, hfaulted⟩, hpass⟩, hgroup⟩ := hready
  obtain ⟨⟨pass, mask, secs⟩, hnext, hmask⟩ := Option.map_eq_some_iff.mp hpass
  exact ⟨hhand, hop, hfaulted, hcal, hgroup, pass, secs, hnext.trans (by rw [← hmask])⟩

/-- A pass that is ready goes to the Wick, as a descriptor of the KIND asked for. -/
theorem State.desc_of_handPass {kind : Nat} {t : State} (hkind : kind < 8) (ht : t = s.handPass ai kind) :
    (t.wick ai).desc.map (fun d => (d.kind, d.band, d.group, d.mask)) =
      some (kind, op.req.band, op.req.group, s.ackMask ai) := by
  obtain ⟨-, hop, hfaulted, hcal, hgroup, pass, secs, hnext⟩ := State.passReady_asks hready
  obtain ⟨hackGroup, hackMask⟩ := s.ack_showOp ai kind op.mode
  simp only [ht, State.handPass, hop, beq_eq_false_iff_ne.mpr hfaulted, hcal, hnext, hackGroup, hackMask, hgroup,
    bne_self_eq_false, Bool.or_self, Bool.false_eq_true, ↓reduceIte]
  rw [State.wickStart_desc _ _ _ hkind]
  rfl

end

/-! ### The commands that hand a pass over (R137, R140, R147, R155 to R157) -/

section
variable (s : State) (h : Half) (u : Nat) {op : FmtOp} (hready : s.passReady (actId h u) op = true)
include hready

theorem readRow_eq {kind : Nat} (hread : op.isRead kind = true) :
    s.readRow (actId h u) kind = s.handPass (actId h u) kind := by
  obtain ⟨hhand, hop, -⟩ := State.passReady_asks hready
  simp [State.readRow, State.takeReq, hhand, hop, hread]

theorem retryRevolution_eq (hretries : 0 < op.retries) : retryRevolution h u s = s.handPass (actId h u) 4 := by
  obtain ⟨hhand, hop, -⟩ := State.passReady_asks hready
  simp [retryRevolution, hhand, hop, hretries]

theorem writePass_eq (ues : List (Nat × Nat)) (hwrite : s.writeReady (actId h u) = true) (hentry : op.entry = none)
    (hkind : op.req.kind = 1) : writePass h u ues s = s.handPass (actId h u) 1 := by
  obtain ⟨hhand, hop, -⟩ := State.passReady_asks hready
  have hsnuffed : (s.fmt (actId h u)).snuffedNow = false := by
    simp only [State.writeReady, Bool.and_eq_true, Bool.not_eq_true'] at hwrite
    obtain ⟨⟨⟨hsnuffed, -⟩, -⟩, -⟩ := hwrite
    exact hsnuffed
  simp [writePass, hhand, hop, hwrite, hentry, hkind, hsnuffed]

theorem rewriteEntry_eq (hentry : op.entry.isSome = true) (hretries : op.retries = 0)
    (hsnuffed : (s.fmt (actId h u)).snuffedNow = false) (hown : s.ownLine (actHda (actId h u)) = true) :
    rewriteEntry h u s = s.handPass (actId h u) 3 := by
  obtain ⟨hhand, hop, -⟩ := State.passReady_asks hready
  simp [rewriteEntry, hhand, hop, hentry, hretries, hsnuffed, hown]

end

/-! ### Seeks and parks (R171) -/

theorem State.moveRow_desc {s : State} {ai kind band : Nat} (hkind : kind < 8) (hhand : s.handReady ai = true)
    (hop : (s.fmt ai).op = none) (hfaulted : s.wckState ai ≠ wkFaulted)
    (hband : bandRetired (s.batRd ai) (s.defects ai) band (s.ackGroup ai) = false) :
    ∃ d, ((s.moveRow ai kind band).wick ai).desc = some d ∧ d.kind = kind ∧ d.band = band := by
  have hbegun (r : FmtReq) : (s.beginOp ai r none false).wckState ai = s.wckState ai :=
    State.get_eq_of_regs (State.setFmt_regs ..) _ _
  simp only [State.moveRow, hhand, hop, hband, hbegun, beq_eq_false_iff_ne.mpr hfaulted, Bool.not_true, Option.isSome_none,
    Bool.or_self, Bool.false_eq_true, ↓reduceIte]
  exact ⟨_, State.wickStart_desc _ _ _ hkind, rfl, rfl⟩

theorem seekOnly_desc (s : State) (h : Half) (u band : Nat) (hhand : s.handReady (actId h u) = true)
    (hop : (s.fmt (actId h u)).op = none) (hfaulted : s.wckState (actId h u) ≠ 3)
    (hband : bandRetired (s.batRd (actId h u)) (s.defects (actId h u)) band (s.ackGroup (actId h u)) = false) :
    ∃ t, exec (.seekOnly h u band) s = .next t ∧
      (t.wick (actId h u)).desc.map (fun d => (d.kind, d.band)) = some (6, band) := by
  obtain ⟨d, hdesc, hkind, hd⟩ := State.moveRow_desc (kind := 6) (by decide) hhand hop hfaulted hband
  exact ⟨s.moveRow (actId h u) 6 band, rfl, by rw [hdesc, Option.map_some, hkind, hd]⟩

theorem park_desc (s : State) (h : Half) (u : Nat) (hhand : s.handReady (actId h u) = true)
    (hop : (s.fmt (actId h u)).op = none) (hfaulted : s.wckState (actId h u) ≠ 3)
    (hband : bandRetired (s.batRd (actId h u)) (s.defects (actId h u)) 0 (s.ackGroup (actId h u)) = false) :
    ∃ t, exec (.park h u) s = .next t ∧ (t.wick (actId h u)).desc.map (·.kind) = some 7 := by
  obtain ⟨d, hdesc, hkind, -⟩ := State.moveRow_desc (kind := 7) (by decide) hhand hop hfaulted hband
  exact ⟨s.moveRow (actId h u) 7 0, rfl, by rw [hdesc, Option.map_some, hkind]⟩

/-- Settles O27: each command comes down to the hand-over of the pass in progress, or to a descriptor that moves the arm. -/
theorem formatterPasses : Obligations.FormatterPasses :=
  ⟨fun s h u _ _ _ hready hread => ⟨_, rfl, State.desc_of_handPass hready (by decide) (readRow_eq s h u hready hread)⟩,
    fun s h u _ _ _ hready hread => ⟨_, rfl, State.desc_of_handPass hready (by decide) (readRow_eq s h u hready hread)⟩,
    fun s h u _ _ _ hready hread => ⟨_, rfl, State.desc_of_handPass hready (by decide) (readRow_eq s h u hready hread)⟩,
    fun s h u _ _ _ hready hretries =>
      ⟨_, rfl, State.desc_of_handPass hready (by decide) (retryRevolution_eq s h u hready hretries)⟩,
    fun s h u ues _ _ _ hready hwrite hentry hkind =>
      ⟨_, rfl, State.desc_of_handPass hready (by decide) (writePass_eq s h u hready ues hwrite hentry hkind)⟩,
    fun s h u _ _ _ hready hentry hretries hsnuffed hown =>
      ⟨_, rfl, State.desc_of_handPass hready (by decide) (rewriteEntry_eq s h u hready hentry hretries hsnuffed hown)⟩,
    fun s h u band _ => seekOnly_desc s h u band, fun s h u _ => park_desc s h u⟩

end Sys2Proof.Machine
end

section
/-! PROOFS. Words of arithmetic (O29): a Wick as a word finds it, what executes, and LDI, ADDI, ALU, LDOP and LOC. -/

namespace Sys2Proof.Machine

/-! ### Working registers (R165, R168) -/

theorem Wick.reg_setReg_same (w : Wick) (i v : Nat) : (w.setReg i v).reg i = v % 2 ^ 24 := by
  simp [Wick.reg, Wick.setReg]

theorem Wick.reg_setReg_ne (w : Wick) {i j : Nat} (v : Nat) (h : j ≠ i) : (w.setReg i v).reg j = w.reg j := by
  simp [Wick.reg, Wick.setReg, smGet_smPut_ne _ _ _ _ _ _ h]

theorem Wick.reg_of_x {w v : Wick} (h : v.x = w.x) (i : Nat) : v.reg i = w.reg i := by simp only [Wick.reg, h]

theorem Wick.reg_setRegZ_same (w : Wick) (i v : Nat) : (w.setRegZ i v).reg i = v % 2 ^ 24 := Wick.reg_setReg_same w i v

theorem Wick.reg_setRegZ_ne (w : Wick) {i j : Nat} (v : Nat) (h : j ≠ i) : (w.setRegZ i v).reg j = w.reg j :=
  Wick.reg_setReg_ne w v h

/-- ADDI's immediate is sign-extended from 21 bits (R168). -/
theorem addi_signExtended (imm : Nat) :
    (if imm ≥ 2 ^ 20 then imm + (2 ^ 24 - 2 ^ 21) else imm) = if imm < 2 ^ 20 then imm else imm + 2 ^ 24 - 2 ^ 21 := by
  split <;> split <;> omega

/-! ### A Wick as a word finds it (R165, R172) -/

/-- Taking note of a place changes Wicks only. -/
theorem State.atPlace_only (s : State) (ai : Nat) (p : Place) : ∃ w, s.atPlace ai p = { s with wicks := w } := by
  unfold State.atPlace State.windowsClose
  dsimp only
  split
  · exact ⟨_, rfl⟩
  · exact ite_both (P := fun t : State => ∃ w, t = { s with wicks := w }) ⟨_, rfl⟩ ⟨_, rfl⟩

/-- Taking note of a place changes the place, the blanking and the tag queue of the Wick. -/
theorem State.atPlace_wick (s : State) (ai : Nat) (p : Place) :
    ∃ blank tags, (s.atPlace ai p).wick ai =
      { s.wick ai with wedge := p.wedge, sym := p.sym, blank := blank, tags := tags } := by
  unfold State.atPlace State.windowsClose
  dsimp only
  split
  · exact ⟨_, _, State.wick_setWick_same ..⟩
  · refine ite_both (P := fun t : State => ∃ blank tags, t.wick ai =
      { s.wick ai with wedge := p.wedge, sym := p.sym, blank := blank, tags := tags }) ?_ ?_
    · exact ⟨_, _, State.wick_setWick_same ..⟩
    · exact ⟨_, _, (State.wick_setWick_same ..).trans (by rw [State.wick_setWick_same])⟩

theorem State.atPlace_regs (s : State) (ai : Nat) (p : Place) : (s.atPlace ai p).regs = s.regs := by
  obtain ⟨w, h⟩ := s.atPlace_only ai p
  rw [h]

/-- The state as a microword of an actuator finds it: `wickHere` is the Wick of this state. -/
def State.here (s : State) (ai : Nat) : State := s.atPlace ai (s.lastPlace ai)

theorem State.here_wick (s : State) (ai : Nat) : (s.here ai).wick ai = s.wickHere ai := rfl

theorem State.here_regs (s : State) (ai : Nat) : (s.here ai).regs = s.regs := s.atPlace_regs ai (s.lastPlace ai)

theorem State.here_wckPc (s : State) (ai : Nat) : (s.here ai).wckPc ai = s.wckPc ai :=
  State.get_eq_of_regs (s.here_regs ai) _ _

theorem State.here_batRd (s : State) (ai : Nat) : (s.here ai).batRd ai = s.batRd ai := by
  obtain ⟨w, h⟩ := s.atPlace_only ai (s.lastPlace ai)
  rw [State.here, h]
  rfl

theorem State.wickHere_desc (s : State) (ai : Nat) : (s.wickHere ai).desc = (s.wick ai).desc := by
  obtain ⟨blank, tags, h⟩ := s.atPlace_wick ai (s.lastPlace ai)
  rw [State.wickHere, h]

theorem State.wickHere_reg (s : State) (ai i : Nat) : (s.wickHere ai).reg i = (s.wick ai).reg i := by
  obtain ⟨blank, tags, h⟩ := s.atPlace_wick ai (s.lastPlace ai)
  rw [State.wickHere, h]
  exact Wick.reg_of_x rfl i

theorem State.here_wickCond (s : State) (ai cond : Nat) : (s.here ai).wickCond ai cond = s.wickCond ai cond := by
  obtain ⟨blank, tags, h⟩ := s.atPlace_wick ai (s.lastPlace ai)
  simp only [State.wickCond, State.here, h, State.bit, State.get_eq_of_regs (s.atPlace_regs ai _)]

/-! ### A word that executes (R166 to R168) -/

section
variable {s : State} {h : Half} {u cond : Nat} {m : Micro} (hx : s.executes (actId h u) cond m = true)
  (hm : ∀ t, m ≠ .wcond t)
include hx hm

/-- A microword that executes has the effect of R168 on the state as it finds it. -/
theorem State.microHere_of_executes :
    ∃ word, s.microHere h u cond m =
      (s.here (actId h u)).microExec (actId h u) word m (s.lastPlace (actId h u)) := by
  simp only [State.executes, State.fetched, Bool.and_eq_true] at hx
  obtain ⟨⟨⟨hstate, hup⟩, hword⟩, hcond⟩ := hx
  obtain ⟨word, hword⟩ := Option.isSome_iff_exists.mp hword
  refine ⟨word, ?_⟩
  have hcond : (s.atPlace (actId h u) (s.lastPlace (actId h u))).wickCond (actId h u) cond = true :=
    (s.here_wickCond (actId h u) cond).trans hcond
  -- `hm` rules out the arm of WCOND, which `microRow` issues apart
  simp only [State.microHere, State.microRow, hstate, hup, hword, hcond, Bool.not_true, Bool.or_self, Bool.false_eq_true,
    ↓reduceIte, State.here]

/-- A word whose effect is some state with the match registers as they were, and to go on at the next address. -/
theorem State.microHere_goesOn (hok : s.fetchOk (actId h u) (s.wckPc (actId h u) + 1) = true) {x : State}
    (hpatch : x.patchMatch (actId h u) = (s.here (actId h u)).patchMatch (actId h u))
    (heffect : ∀ word p, (s.here (actId h u)).microExec (actId h u) word m p =
      x.wordEnd (actId h u) word true 0 ((s.here (actId h u)).wckPc (actId h u) + 1)) :
    (s.microHere h u cond m).wick (actId h u) = x.wick (actId h u) ∧
      (s.microHere h u cond m).wckPc (actId h u) = s.lands (actId h u) (s.wckPc (actId h u) + 1) := by
  obtain ⟨word, hrun⟩ := State.microHere_of_executes hx hm
  rw [hrun, heffect, s.here_wckPc]
  exact State.wordEnd_goesOn word true 0 (hpatch.trans (State.patchMatch_of_regs (s.here_regs _) _)) hok

/-- A word whose effect is to store its Wick. -/
theorem State.microHere_stores (hok : s.fetchOk (actId h u) (s.wckPc (actId h u) + 1) = true) {w : Wick}
    (heffect : ∀ word p, (s.here (actId h u)).microExec (actId h u) word m p =
      ((s.here (actId h u)).putWick (actId h u) w).wordEnd (actId h u) word true 0
        ((s.here (actId h u)).wckPc (actId h u) + 1)) :
    (s.microHere h u cond m).wick (actId h u) = w ∧
      (s.microHere h u cond m).wckPc (actId h u) = s.lands (actId h u) (s.wckPc (actId h u) + 1) := by
  obtain ⟨hwick, hpc⟩ := State.microHere_goesOn hx hm hok (State.patchMatch_putWick ..) heffect
  exact ⟨hwick.trans (State.putWick_wick_same ..), hpc⟩

end

/-! ### LDI, ADDI, ALU and LDOP (R168, R171) -/

section
variable (s : State) (h : Half) (u cond xd : Nat) (hok : s.fetchOk (actId h u) (s.wckPc (actId h u) + 1) = true)
include hok

theorem ldi_stores (imm : Nat) (hx : s.executes (actId h u) cond (.ldi xd imm) = true) :
    ∃ t, exec (.ldi h u cond xd imm) s = .next t ∧ t.wick (actId h u) = (s.wickHere (actId h u)).setRegZ xd imm ∧
      t.wckPc (actId h u) = s.lands (actId h u) (s.wckPc (actId h u) + 1) :=
  ⟨_, rfl, State.microHere_stores hx (by simp) hok fun _ _ => rfl⟩

theorem addi_stores (imm : Nat) (hx : s.executes (actId h u) cond (.addi xd imm) = true) :
    ∃ t, exec (.addi h u cond xd imm) s = .next t ∧
      (t.wick (actId h u)).reg xd =
        ((s.wick (actId h u)).reg xd + (if imm < 2 ^ 20 then imm else imm + 2 ^ 24 - 2 ^ 21)) % 2 ^ 24 ∧
      (t.wick (actId h u)).z = ((t.wick (actId h u)).reg xd == 0) ∧
      (∀ i, i ≠ xd → (t.wick (actId h u)).reg i = (s.wick (actId h u)).reg i) ∧
      t.wckPc (actId h u) = s.lands (actId h u) (s.wckPc (actId h u) + 1) := by
  obtain ⟨hwick, hpc⟩ := State.microHere_stores hx (by simp) hok fun _ _ => rfl
  refine ⟨s.microHere h u cond (.addi xd imm), rfl, ?_, ?_, fun i hi => ?_, hpc⟩ <;> rw [hwick]
  · rw [Wick.reg_setRegZ_same, addi_signExtended, s.here_wick, s.wickHere_reg]
  · rw [Wick.reg_setRegZ_same]; rfl
  · rw [Wick.reg_setRegZ_ne _ _ hi, s.here_wick, s.wickHere_reg]

theorem alu_stores (xs fn : Nat) (hx : s.executes (actId h u) cond (.alu xd xs fn) = true) :
    ∃ t, exec (.alu h u cond xd xs fn) s = .next t ∧
      t.wick (actId h u) = (s.wickHere (actId h u)).setRegZ xd
        (aluFn fn ((s.wick (actId h u)).reg xd) ((s.wick (actId h u)).reg xs)) ∧
      t.wckPc (actId h u) = s.lands (actId h u) (s.wckPc (actId h u) + 1) := by
  rw [← s.wickHere_reg, ← s.wickHere_reg]
  exact ⟨_, rfl, State.microHere_stores hx (by simp) hok fun _ _ => rfl⟩

theorem ldop_stores (fld : Nat) {d : Desc} (hdesc : (s.wick (actId h u)).desc = some d)
    (hx : s.executes (actId h u) cond (.ldop xd fld) = true) :
    ∃ t, exec (.ldop h u cond xd fld) s = .next t ∧
      t.wick (actId h u) = (s.wickHere (actId h u)).setRegZ xd (descField d fld) ∧
      t.wckPc (actId h u) = s.lands (actId h u) (s.wckPc (actId h u) + 1) := by
  have hhere : ((s.here (actId h u)).wick (actId h u)).desc = some d := (s.wickHere_desc _).trans hdesc
  refine ⟨_, rfl, State.microHere_stores hx (by simp) hok fun _ _ => ?_⟩
  simp only [State.microExec, hhere]
  rfl

end

/-! ### LOC (R129, R168) -/

/-- What LOC leaves of its Wick for the place of a frame. -/
def Wick.located (w : Wick) (bat : Nat → Byte) (d : Desc) (f : FramePos) : Wick :=
  { ((w.setReg 5 ((f.wedge + d.band * batSkew bat) % 512)).setReg 6 f.start).setReg 4 f.split with spl := f.split != 0 }

theorem Wick.located_regs (w : Wick) (bat : Nat → Byte) (d : Desc) (f : FramePos) :
    (w.located bat d f).reg 5 = (f.wedge + d.band * batSkew bat) % 512 ∧
      (w.located bat d f).reg 6 = f.start % 2 ^ 24 ∧ (w.located bat d f).reg 4 = f.split % 2 ^ 24 := by
  have hx (i : Nat) : (w.located bat d f).reg i =
      (((w.setReg 5 ((f.wedge + d.band * batSkew bat) % 512)).setReg 6 f.start).setReg 4 f.split).reg i :=
    Wick.reg_of_x rfl i
  refine ⟨?_, ?_, ?_⟩ <;> rw [hx]
  · rw [Wick.reg_setReg_ne _ _ (by decide), Wick.reg_setReg_ne _ _ (by decide), Wick.reg_setReg_same]
    omega
  · rw [Wick.reg_setReg_ne _ _ (by decide), Wick.reg_setReg_same]
  · rw [Wick.reg_setReg_same]

theorem State.microLoc_of_frame {s : State} {ai xs : Nat} {d : Desc} (hdesc : (s.wick ai).desc = some d)
    (hframe : (s.wick ai).reg xs < zS d.zone) :
    s.microLoc ai xs =
      s.setWick ai ((s.wick ai).located (s.batRd ai) d (framePos d.zone ((s.wick ai).reg xs))) := by
  simp only [State.microLoc, hdesc, hframe, ↓reduceIte]
  rfl

theorem loc_places (s : State) (h : Half) (u cond xs : Nat) (d : Desc) (hdesc : (s.wick (actId h u)).desc = some d)
    (hx : s.executes (actId h u) cond (.loc xs) = true) (hframe : (s.wick (actId h u)).reg xs < zS d.zone)
    (hok : s.fetchOk (actId h u) (s.wckPc (actId h u) + 1) = true) :
    ∃ t, exec (.loc h u cond xs) s = .next t ∧
      (t.wick (actId h u)).reg 5 = ((framePos d.zone ((s.wick (actId h u)).reg xs)).wedge +
        d.band * batSkew (s.batRd (actId h u))) % 512 ∧
      (t.wick (actId h u)).reg 6 = (framePos d.zone ((s.wick (actId h u)).reg xs)).start % 2 ^ 24 ∧
      (t.wick (actId h u)).reg 4 = (framePos d.zone ((s.wick (actId h u)).reg xs)).split % 2 ^ 24 ∧
      (t.wick (actId h u)).spl = ((framePos d.zone ((s.wick (actId h u)).reg xs)).split != 0) := by
  have hhere : ((s.here (actId h u)).wick (actId h u)).desc = some d := (s.wickHere_desc _).trans hdesc
  have hreg : ((s.here (actId h u)).wick (actId h u)).reg xs = (s.wick (actId h u)).reg xs := s.wickHere_reg _ _
  have hloc := State.microLoc_of_frame hhere (by rwa [hreg])
  rw [hreg, s.here_batRd] at hloc
  obtain ⟨hwick, -⟩ := State.microHere_goesOn hx (by simp) hok (x := (s.here (actId h u)).microLoc (actId h u) xs)
    (by rw [hloc]; exact State.patchMatch_of_regs (State.setWick_regs ..) _) fun _ _ => rfl
  rw [hloc, State.wick_setWick_same] at hwick
  obtain ⟨h5, h6, h4⟩ := Wick.located_regs ((s.here (actId h u)).wick (actId h u)) (s.batRd (actId h u)) d
    (framePos d.zone ((s.wick (actId h u)).reg xs))
  rw [← hwick] at h5 h6 h4
  exact ⟨s.microHere h u cond (.loc xs), rfl, h5, h6, h4, by rw [hwick]; rfl⟩

/-- Settles O29, clause by clause: LDI, ADDI, ALU and LDOP store one register of the Wick as the word finds it, and LOC the
place of its frame. -/
theorem wickArithmeticWords : Obligations.WickArithmeticWords :=
  ⟨fun s h u cond xd imm _ hx hok => ldi_stores s h u cond xd hok imm hx,
    fun s h u cond xd imm _ _ hx hok => addi_stores s h u cond xd hok imm hx,
    fun s h u cond xd xs fn _ hx hok => alu_stores s h u cond xd hok xs fn hx,
    fun s h u cond xd fld _ _ hdesc hx hok => ldop_stores s h u cond xd hok fld hdesc hx,
    fun s h u cond xs _ => loc_places s h u cond xs⟩

end Sys2Proof.Machine
end
